-- ==== Sys2Proof/Word.lean ====
section
/-! DEFINITION. The words of the Thotus tray: bytes, 64-bit words and sparse tables. -/

namespace Sys2Proof

/-- A byte of a record, message or DOMAIN value (R2). -/
abbrev Byte := BitVec 8

/-- An 8-byte word: the unit of record lengths (R59, R60). -/
abbrev Word := BitVec 64

/-- A sparse table: keys strictly rising, a key that is not listed stands for the table's start value. -/
abbrev Tab (α : Type) := List (Nat × α)

/-- An index within a fixed number of like things from a decoded number, folded into the range. -/
def finOf (n : Nat) [NeZero n] (k : Nat) : Fin n := Fin.ofNat n k

end Sys2Proof
end

