-- ==== Sys2Proof/Syntax.lean ====
section
/-! DEFINITION. The commands of the Thotus tray: one constructor of `Instr` for each row of the opcode table, and the
plain data that a command brings with it. `dt` is the time that has passed on the acting part's own clock since that
part's previous command, in units of 2^-16 ns (the FRAC unit of R25). -/

namespace Sys2Proof

/-- A TL port 0 to 31, and with it the TU on that port (R1). -/
abbrev Port := Fin 32

/-- A group slot (R251). -/
abbrev GSlot := Fin 64

/-- A dictionary node: Fyster is node 0, the TU on port p is node p + 1 (R1, R342). -/
inductive Node where
  | fyster
  | tu (p : Port)
deriving DecidableEq, Repr

/-- One end of the tray link of a port (R70). -/
inductive End where
  /-- Fyster's end of port p. -/
  | fysterEnd (p : Port)
  /-- The TU's end of port p. -/
  | tuEnd (p : Port)
deriving DecidableEq, Repr

/-- Access levels in ascending order (R343). -/
inductive Level where
  | observe
  | operate
  | service
deriving DecidableEq, Repr

/-- A Thotus ordered set as it arrives: KIND, N and the payload bytes, CRC included (R407, R408). -/
structure Tos where
  kind    : Byte
  n       : Byte
  payload : List Byte
deriving DecidableEq, Repr

/-- A TL frame as it arrives: 8-byte header, payload words, CRC trailer (R68). `fecError`: a codeword that the FEC could
not correct (R406). `parityHit`: positions of records that a byte-parity error hits between decoder and ring (R81). -/
structure RawFrame where
  header    : Word
  payload   : List Word
  crc       : BitVec 32
  fecError  : Bool
  parityHit : List Nat
deriving DecidableEq, Repr

/-- A record: header fields of R59 (PARITY is set when the header is encoded) and the payload words after the header. -/
structure Rec where
  type   : Nat
  stream : Nat
  alive  : Nat
  flags  : Nat
  unit   : Nat
  die    : Nat
  gslot  : Nat
  ts64   : Nat
  pay    : List Word
deriving DecidableEq, Repr

/-- What an IEEE 1588-2019 message brings to Fyster (R30, R33). `decodable` false: it cannot be decoded, or is shorter
than its type requires. `forbidden`: its messageType or a TLV is forbidden by the profile in force. -/
structure PtpMsg where
  decodable   : Bool
  typeRead    : Bool
  mtype       : BitVec 4
  version     : Nat
  domain      : Nat
  ptpTime     : Bool
  forbidden   : Bool
  seq         : BitVec 16
  /-- sourcePortIdentity of the sender. -/
  source      : BitVec 80
  /-- Announce: priority1, clockClass, accuracy, variance, priority2 in order of comparison, as one number. -/
  quality     : Nat
  gm          : Word
  steps       : Nat
  utcOffset   : Int
  /-- Announce: the message is qualified under the BMCA of the standard. -/
  qualified   : Bool
  twoStep     : Bool
  /-- originTimestamp, receiveTimestamp or requestReceiptTimestamp, in 2^-16 ns. -/
  stamp       : Nat
  /-- correctionField in 2^-16 ns. -/
  correction  : Int
deriving DecidableEq, Repr

/-- The CRC units with registers (R77, R229, R440). -/
inductive CrcId where
  | snapshot
  | sumac (e : Fin 5)
  | model (s : Fin 3)
  | dump (ch : Fin 4)
  | tlTx
  | tlRx
deriving DecidableEq, Repr

/-- The increment taps (R434 to R436). -/
inductive IncTap where
  | tile (t : Fin 72)
  | cp
  | fp (k : Fin 24)
  | hbm (s : Fin 4)
  | noc
  | dpc
deriving DecidableEq, Repr

/-- A beat of an increment tap (R434). `full`: the input buffer is full, and the newest buffered beat has this BANK and
DSTART (R431). -/
structure IncBeat where
  lanes  : List (BitVec 16)
  bank   : Bool
  dstart : Bool
  full   : Option (Bool × Bool)
deriving DecidableEq, Repr

/-- A beat of a trace tap (R434). `lost`: beats were lost to a full tap buffer directly before this one (R431, R448). -/
structure TraceBeat where
  nout     : BitVec 3
  outcomes : BitVec 6
  state    : BitVec 2
  addr     : BitVec 48
  lost     : Bool
deriving DecidableEq, Repr

/-- A beat of a ring tap (R434, R153). `lost`: beats were lost to a full tap buffer directly before this one (R431). -/
structure RingBeat where
  code  : BitVec 7
  arg16 : BitVec 16
  arg64 : Word
  lost  : Bool
deriving DecidableEq, Repr

/-- A check record of 24 words (R160). `bufFull`: it met a full tap buffer (R431). -/
structure CheckRec where
  words   : List Word
  bufFull : Bool
deriving DecidableEq, Repr

/-- The operand signature of one block as the tile's checksum logic holds it (R184). -/
structure TileSig where
  fpRow  : BitVec 32
  fpCol  : BitVec 32
  expRow : List (BitVec 16)
  expCol : List (BitVec 16)
deriving DecidableEq, Repr

/-- An OPEN event (R119). -/
structure OpenEv where
  launch      : Word
  tag         : BitVec 32
  size        : BitVec 32
  unit        : BitVec 4
  node        : BitVec 16
  indirect    : Bool
  workUnknown : Bool
deriving DecidableEq, Repr

/-- A DISPATCH event (R119): `unit` is a tile 0 to 71, or 128 for the command processor. -/
structure DispatchEv where
  unit   : Byte
  graph  : BitVec 32
  ver    : BitVec 16
  node   : BitVec 16
  launch : Word
deriving DecidableEq, Repr

/-- The wear monitors (R335). -/
inductive Monitor where
  | margin
  | ecc
  | eye
deriving DecidableEq, Repr

/-- One reading of a wear monitor: margin in 0.1 %, corrections in the last hour, or eye height in percent (R335, R402).
`sameAddr`: ECC corrections at one address. -/
structure WearReading where
  unit     : Nat
  monitor  : Monitor
  value    : Int
  sameAddr : Nat
deriving DecidableEq, Repr

/-- Sequences and ages of one link as its taps show them at the cut strobe (R234, R238). -/
structure LinkTap where
  up     : Bool
  tx     : BitVec 32
  rx     : BitVec 32
  txAge  : Nat
  rxAge  : Nat
deriving DecidableEq, Repr

/-- How the copy of a dump's present segment ended (R245, R246). -/
inductive DumpStep where
  /-- The whole segment has reached the destination. -/
  | copied
  /-- The destination answered with an error. -/
  | destError
deriving DecidableEq, Repr

/-- A datagram that reached the TDP port: its source, its bytes, and whether its tag checks under the session's key
(the key stays in the security block, R351). -/
structure Datagram where
  src   : BitVec 128
  port  : BitVec 16
  bytes : List Byte
  tagOk : Bool
deriving DecidableEq, Repr

/-- The security block's answer to a HELLO (R351). -/
structure SecLeave where
  src   : BitVec 128
  leave : Bool
  nonce : List Byte
deriving DecidableEq, Repr

/-- What a completed TL training found at this end (R410, R412): the lanes that trained, the measured skew of the spare
against the lane that carries logical lane 0, whether the training was a fast retrain, and the partner's STATUS. -/
structure TrainResult where
  healthy : List Bool
  skew    : Option Int
  fast    : Bool
  status  : Tos
deriving DecidableEq, Repr

/-- The commands, in the order of spec/opcode_table.json. -/
inductive Instr where
  /-- R37. Every 125 µs the TU sends a TREQ ordered set on logical lane 0 and stamps T1. -/
  | treqSend (dt : Nat) (p : Port)
  /-- R37. Fyster receives a TREQ, stamps T2 and answers with a TRSP stamped T3. -/
  | tosTreqRx (dt : Nat) (p : Port) (tos : Tos)
  /-- R38. The TU receives a TRSP, stamps T4, tests the exchange and updates its servo from theta. -/
  | tosTrspRx (dt : Nat) (p : Port) (tos : Tos)
  /-- R38. No TRSP arrives within 20 µs of its TREQ, so the TU discards the exchange. -/
  | trspTimeout (dt : Nat) (p : Port)
  /-- R33. Fyster receives a PTP message on an out-of-band port, discards it if malformed or out of profile, and otherwise feeds BMCA and the servo. -/
  | ptpMessageRx (dt : Nat) (q : Fin 2) (m : PtpMsg)
  /-- R32. The slave port misses Announce messages for ANNOUNCE_TIMEOUT intervals, so the other port may become SLAVE or Fyster enters HOLDOVER. -/
  | announceTimeout (dt : Nat) (q : Fin 2)
  /-- R34. An out-of-band port sends a two-step event message and queues its transmit stamp. -/
  | ptpEventTx (dt : Nat) (q : Fin 2) (txid : BitVec 16) (mtype : BitVec 4) (seq : BitVec 16)
  /-- R35. A read of the transmit-timestamp queue returns and removes the oldest entry, or VALID 0 if empty. -/
  | txqRead (dt : Nat) (q : Fin 2)
  /-- R45. A write of the pending serial to STEP_AUTHORISE authorises Fyster's pending step at its next Sync. -/
  | stepAuthorise (dt : Nat) (lvl : Level) (serial : BitVec 32)
  /-- R45. A write of the pending serial to TU_STEP_AUTHORISE authorises the TU's pending step at its next accepted exchange. -/
  | tuStepAuthorise (dt : Nat) (p : Port) (lvl : Level) (serial : BitVec 32)
  /-- R56. At each whole second a LOCKED time unit emits TR_TIME PERIODIC. -/
  | timeSecondTick (dt : Nat) (n : Node)
  /-- R27. TS64 passes a multiple of 2^64 and the time unit emits TR_TIME ROLLOVER. -/
  | ts64Rollover (dt : Nat) (n : Node)
  /-- R52. At a group grid instant the time unit issues the latch strobe through the interpolator. -/
  | gridInstant (dt : Nat) (p : Port) (g : GSlot)
  /-- R105. At an instant of a sample set's grid or zoom grid, every counter latches and the set's record is encoded and offered to SAMPLE. -/
  | setGridInstant (dt : Nat) (p : Port) (set : Fin 16) (swapAfter : Bool)
  /-- R53. At its effective time, or at late arrival, a group grid change switches the set grids and emits TR_TIME GRID_CHANGE. -/
  | gridChange (dt : Nat) (n : Node) (g : GSlot)
  /-- R175. Fyster receives a WMK and takes the die's new W once every named taint notice is in the taint list. -/
  | tosWmkRx (dt : Nat) (p : Port) (tos : Tos)
  /-- R176. A TU receives WMKD and updates GROUP_WMK and GROUP_TAINTS, sending a CP_GWMK beat. -/
  | tosWmkdRx (dt : Nat) (p : Port) (tos : Tos)
  /-- R74. A link end receives STATUS with NEXT_FSEQ, RESTART, RETRAIN_REQ and LANE_MAP and adjusts replay, FSEQ and lanes. -/
  | tosStatusRx (dt : Nat) (e : End) (tos : Tos)
  /-- R408. Every 1 ms while the link is up each end sends STATUS. -/
  | statusSendTimer (dt : Nat) (e : End)
  /-- R70. A TL end receives a data frame, checks CRC and FSEQ, accepts or discards it, and processes its records. -/
  | frameRx (dt : Nat) (e : End) (f : RawFrame)
  /-- R71. A TL end receives a CONTROL frame, takes its acknowledgement or NAK, and NAKs if its FSEQ shows lost tail frames. -/
  | controlFrameRx (dt : Nat) (e : End) (f : RawFrame)
  /-- R70. At the next frame boundary with no data frame ready, the receiver sends a CONTROL frame carrying its ACKSEQ. -/
  | ackControlSend (dt : Nat) (e : End)
  /-- R72. The oldest held frame is unacknowledged 4 µs after it was last sent, so the sender replays from it. -/
  | replayTimeout (dt : Nat) (e : End)
  /-- R82. At the end of a period with new loss, or at the report interval, a loss accumulator emits TR_LOSS. -/
  | lossReport (dt : Nat) (n : Node) (cause : Fin 10) (acc : Nat)
  /-- R77. A write of CRC_CTRL.ENABLE starts or stops a privileged channel feeding its CRC unit. -/
  | crcEnable (dt : Nat) (n : Node) (lvl : Level) (u : CrcId) (v : Bool)
  /-- R78. A write of CRC_CTRL.PAUSE requests that the channel stop feeding its CRC unit. -/
  | crcPause (dt : Nat) (n : Node) (lvl : Level) (u : CrcId) (v : Bool)
  /-- R78. The channel stops and the unit sets PAUSED. -/
  | crcPaused (dt : Nat) (n : Node) (u : CrcId)
  /-- R77. A write of CRC_CTRL.INIT loads CRC_VALUE 0xFFFF_FFFF and CRC_LENGTH 0. -/
  | crcInit (dt : Nat) (n : Node) (lvl : Level) (u : CrcId)
  /-- R78. A write of CRC_VALUE or CRC_LENGTH restores a running digest, refused unless the unit is paused. -/
  | crcValueWrite (dt : Nat) (n : Node) (lvl : Level) (u : CrcId) (isLength : Bool) (v : Word)
  /-- R90. An increment-tap beat adds its lanes into the counters, or is folded or dropped if the buffer is full. -/
  | tapIncBeat (dt : Nat) (p : Port) (tap : IncTap) (b : IncBeat)
  /-- R91. A write of a counter selection word sets SOURCE and PERCMD and resets the counter when they change. -/
  | cntSelWrite (dt : Nat) (p : Port) (lvl : Level) (c : Fin 2816) (v : BitVec 32)
  /-- R97. A write of the RESET bit resets one counter to 0 and clears SAT. -/
  | counterReset (dt : Nat) (p : Port) (lvl : Level) (c : Fin 2816) (v : BitVec 32)
  /-- R97. A write of TRUE to CNT_RESET_ALL resets every counter. -/
  | cntResetAll (dt : Nat) (p : Port) (lvl : Level) (v : Byte)
  /-- R103. A write of SET_CTRL enables or disables a sample set and chooses its grid, checking list, pair and slot rules. -/
  | setCtrlWrite (dt : Nat) (p : Port) (lvl : Level) (set : Fin 16) (v : BitVec 32)
  /-- R103. A write of SET_LIST replaces a set's counter list, refused while enabled or beyond limits. -/
  | setListWrite (dt : Nat) (p : Port) (lvl : Level) (set : Fin 16) (v : List Byte)
  /-- R103. A write of SET_PERIOD_NS or SET_PHASE_NS is checked alone and refused while the set is enabled. -/
  | setGridWrite (dt : Nat) (p : Port) (lvl : Level) (set : Fin 16) (isPhase : Bool) (v : Word)
  /-- R113. A write of ZOOM_PIN or ZOOM_PIN_PERIOD_NS pins or unpins a set's zoom period. -/
  | zoomPinWrite (dt : Nat) (p : Port) (lvl : Level) (set : Fin 16) (isPeriod : Bool) (v : Word)
  /-- R24. At the next quiesce point of a worn unit Thotus brings in its spare and logs the swap. -/
  | spareSwap (dt : Nat) (n : Node) (unit : Nat)
  /-- R335. Every 1 s the speed-margin, ECC and eye monitors are read and a unit found worn is marked for a spare. -/
  | wearReading (dt : Nat) (n : Node) (r : WearReading)
  /-- R132. A LAUNCH_START event binds the launch to the live graph version and name table. -/
  | cpLaunchStart (dt : Nat) (p : Port) (graph : BitVec 32) (ver : BitVec 16) (launch : Word) (persistent : Bool)
  /-- R130. A LAUNCH_END ends the launch binding and re-offers occupied staging entries of its units. -/
  | cpLaunchEnd (dt : Nat) (p : Port) (launch : Word)
  /-- R117. An OPEN event takes the lowest free phase slot, or counts an overflow and offers OVF_OPEN. -/
  | cpOpen (dt : Nat) (p : Port) (o : OpenEv)
  /-- R122. A BEGIN event records or counts a phase start in its slot. -/
  | cpBegin (dt : Nat) (p : Port) (launch : Word) (tag : BitVec 32) (code : Byte)
  /-- R122. An END event records a phase end, or sets NO_START or PROTOCOL as the rules require. -/
  | cpEnd (dt : Nat) (p : Port) (launch : Word) (tag : BitVec 32) (code : Byte)
  /-- R123. A CLOSE event frees the slot and offers a TR_PHASE CLOSE, or an UNSLOTTED_CLOSE if unmatched. -/
  | cpClose (dt : Nat) (p : Port) (launch : Word) (tag : BitVec 32)
  /-- R119. A DISPATCH event records the graph, version, node and launch of a descriptor for its unit. -/
  | cpDispatch (dt : Nat) (p : Port) (d : DispatchEv)
  /-- R125. A slot's open time reaches L, 2L, 4L and so on, and the TU offers TR_LONG_PHASE. -/
  | longPhaseCrossing (dt : Nat) (p : Port) (slot : Fin 64)
  /-- R138. A write of PHASE_ENABLE FALSE closes every open slot with ABANDONED and ignores item events. -/
  | phaseEnableWrite (dt : Nat) (p : Port) (lvl : Level) (v : Byte)
  /-- R133. A NAME_TABLE_LOAD write loads, replaces or discards a graph version's name table. -/
  | nameTableLoad (dt : Nat) (p : Port) (lvl : Level) (v : List Byte)
  /-- R142. A COND trace beat adds branch outcomes, writing a BRANCH byte when six are pending in FULL mode. -/
  | traceCondBeat (dt : Nat) (p : Port) (src : Fin 73) (b : TraceBeat)
  /-- R144. An INDIRECT trace beat writes an INDIRECT packet with the zig-zag target delta. -/
  | traceIndirectBeat (dt : Nat) (p : Port) (src : Fin 73) (b : TraceBeat)
  /-- R448. A PROGRESS trace beat updates the encoder's next address. -/
  | traceProgressBeat (dt : Nat) (p : Port) (src : Fin 73) (b : TraceBeat)
  /-- R148. A power notice flushes outcomes, writes PWR_DOWN and closes the trace record. -/
  | tracePwrNotice (dt : Nat) (p : Port) (src : Fin 73) (b : TraceBeat)
  /-- R148. A WAKE beat writes PWR_UP and a SYNC with REASON POWER_UP. -/
  | traceWake (dt : Nat) (p : Port) (src : Fin 73) (b : TraceBeat)
  /-- R148. A domain-down rise without notice writes PWR_DOWN with ABRUPT and closes the record. -/
  | dpcDownRise (dt : Nat) (p : Port) (bit : Fin 74)
  /-- R148. The fall of a domain's DPC_DOWN bit counts as its wake and writes PWR_UP then SYNC. -/
  | dpcDownFall (dt : Nat) (p : Port) (bit : Fin 74)
  /-- R146. RECORD_FLUSH_US after its first packet a trace record is closed. -/
  | traceFlushTimer (dt : Nat) (p : Port) (src : Fin 73)
  /-- R140. A write of TRACE_MODE changes the source's mode at its next packet boundary, asking power for FULL beyond eight tiles. -/
  | traceModeWrite (dt : Nat) (p : Port) (lvl : Level) (src : Fin 73) (v : Byte)
  /-- R145. A write of TS_INTERVAL_NS sets the interval between TS packets of a source. -/
  | traceTsIntervalWrite (dt : Nat) (p : Port) (lvl : Level) (src : Fin 73) (v : BitVec 32)
  /-- R147. A write of WINDOW_BASE or WINDOW_SIZE relocates the trace window and resets its counts when allowed. -/
  | windowWrite (dt : Nat) (p : Port) (lvl : Level) (isSize : Bool) (v : Word)
  /-- R439. The NoC answers a trace window write, freeing the assembly buffer or setting WINDOW_ERROR. -/
  | nocMResponse (dt : Nat) (p : Port) (error : Bool)
  /-- R439. A NoC response missing 10 µs after its request counts as ERROR. -/
  | nocResponseTimeout (dt : Nat) (p : Port)
  /-- R151. A ring tap beat writes an entry into its unit's last-events ring, or marks GAP. -/
  | ringEventBeat (dt : Nat) (p : Port) (ring : Fin 101) (b : RingBeat)
  /-- R152. A ring with no entry for 2^39 ns writes a TICK entry. -/
  | ringTick (dt : Nat) (p : Port) (ring : Fin 101)
  /-- R154. A rising edge of DIE_WDT freezes all rings with cause DIE_WDT when enabled. -/
  | dieWdtRise (dt : Nat) (p : Port)
  /-- R154. No COMPLETION for PROGRESS_TIMEOUT_US with a descriptor dispatched freezes the rings with cause PROGRESS. -/
  | progressTimeout (dt : Nat) (p : Port)
  /-- R154. A write of TRUE to FREEZE freezes all rings with cause SOFTWARE. -/
  | freeze (dt : Nat) (p : Port) (lvl : Level) (v : Byte)
  /-- R155. A write of TRUE to RESUME unfreezes the rings, which write RESUME entries and continue. -/
  | resume (dt : Nat) (p : Port) (lvl : Level) (v : Byte)
  /-- R157. In each 1 µs period after a freeze, one ring is read out as a TR_LASTEV chain offered to LASTEV. -/
  | ringReadoutPeriod (dt : Nat) (p : Port)
  /-- R159. A tile's check record arrives, is stamped T_c, bound to its descriptor and charged to MACE intake. -/
  | checkRecord (dt : Nat) (p : Port) (tile : Fin 72) (c : CheckRec)
  /-- R164. A compare lane finishes a check record and gives its verdict. -/
  | maceVerdict (dt : Nat) (p : Port) (lane : Fin 9) (sig : Option TileSig)
  /-- R166. Every 1 ms each Mace lane checks a known record and a wrong lane is retired at once. -/
  | maceLaneSelftest (dt : Nat) (p : Port) (lane : Fin 9) (pass : Bool)
  /-- R169. A TR_TAINT not yet admitted is offered again as a new record in each later period. -/
  | taintReoffer (dt : Nat) (p : Port)
  /-- R171. EGRESS_CLOSE_US after a FAIL verdict Mace offers TR_TAINT FINAL with the final egress window. -/
  | taintFinal (dt : Nat) (p : Port) (serial : BitVec 32)
  /-- R172. When the full taint queue gains room Mace offers one RANGE notice per tile for the FAILs without notice. -/
  | taintRangeOffer (dt : Nat) (p : Port) (tile : Fin 72)
  /-- R173. A write of a serial to TAINT_RESEND re-offers that notice from the history. -/
  | taintResend (dt : Nat) (p : Port) (lvl : Level) (serial : BitVec 32)
  /-- R174. Every 4 µs the TU computes W and sends it in a WMK ordered set. -/
  | watermarkPublish (dt : Nat) (p : Port)
  /-- R175. A taint serial still missing TAINT_WAIT_US after its WMK makes Fyster write TAINT_RESEND, or a LOST entry if refused. -/
  | taintWaitTimeout (dt : Nat) (p : Port)
  /-- R179. A taint-list entry write in the root's ledger completes, letting Fyster act on it and take the die's W. -/
  | taintListWriteDone (dt : Nat) (p : Port) (g : GSlot) (serial : BitVec 32)
  /-- R176. Every 4 µs an L1 writes its tray watermark entry into its L2 slot and sends WMKD to its TUs. -/
  | l1WmkTick (dt : Nat) (g : GSlot)
  /-- R176. Every 4 µs an L2 writes the minimum W and totals to the root and relays GW down. -/
  | l2WmkTick (dt : Nat) (g : GSlot)
  /-- R176. Every 4 µs the root computes GW and writes it into each L2's down slot. -/
  | rootWmkTick (dt : Nat) (g : GSlot)
  /-- R177. At each WMK_RECORD_INTERVAL_US instant a TU or Fyster emits TR_WATERMARK. -/
  | wmkRecordTick (dt : Nat) (n : Node)
  /-- R168. At each HIST_PERIOD_US instant the TU emits a HIST record per active tile and clears its statistics. -/
  | histPeriodEnd (dt : Nat) (p : Port)
  /-- R181. A write of GATE_ENABLE turns verdict gating on or off for later check records. -/
  | gateEnableWrite (dt : Nat) (p : Port) (lvl : Level) (v : Byte)
  /-- R181. A write of MACE_ENABLE turns Mace on or off, refused FALSE while gating. -/
  | maceEnableWrite (dt : Nat) (p : Port) (lvl : Level) (v : Byte)
  /-- R183. Replays not arrived within REPLAY_TIMEOUT_MS give outcome UNRESOLVED with reason TIMEOUT. -/
  | replayTimeoutExpiry (dt : Nat) (p : Port) (ref : BitVec 32)
  /-- R185. A write of SHADOW_ENABLE starts or ends a shadow run on a die. -/
  | shadowEnableWrite (dt : Nat) (p : Port) (lvl : Level) (v : Byte)
  /-- R187. A SHADOW record without its partner for 10 ms is counted unpaired. -/
  | shadowPairTimeout (dt : Nat) (pair : Fin 16)
  /-- R185. A write of SHADOW_PAIRS lists candidate and partner dies, refused for dies not on the tray. -/
  | shadowPairsWrite (dt : Nat) (lvl : Level) (v : List Byte)
  /-- R191. At each 1 µs budget period start the enforcer clears used budgets and speed ratios are updated. -/
  | budgetPeriodStart (dt : Nat) (p : Port) (ratios : List Nat)
  /-- R193. A write of BUDGET_NS or TAINT_RESERVE_NS sets a budget from the next period and clears UNFIT. -/
  | budgetWrite (dt : Nat) (p : Port) (lvl : Level) (sub : Fin 9) (v : BitVec 16)
  /-- R198. At each 1 µs window start the arbiter adds weights to credits and counts starving requesters. -/
  | arbWindowStart (dt : Nat) (p : Port)
  /-- R199. A write of a mask to ARB_STARVE_CLEAR clears starvation bits. -/
  | arbStarveClear (dt : Nat) (p : Port) (lvl : Level) (mask : Byte)
  /-- R198. A granted unit finishes on the export path and the arbiter grants the next requester. -/
  | exportUnitDone (dt : Nat) (p : Port)
  /-- R200. A grant in use for 100 µs resets the holding requester's channel and counts its records as WATCHDOG. -/
  | exportWatchdog (dt : Nat) (p : Port)
  /-- R201. DBG_EXP_REQ takes the export path from its holder at the next word. -/
  | debugExportReq (dt : Nat) (p : Port)
  /-- R201. The debug port releases the export path and DEBUG_TAKEOVER is logged. -/
  | debugExportRelease (dt : Nat) (p : Port) (words : List Word)
  /-- R203. When the link can start a frame the shaper sends the lowest eligible class's frame and charges its credit. -/
  | shaperFrameStart (dt : Nat) (p : Port)
  /-- R206. A gate-list entry interval ends and the next entry's MASK takes over. -/
  | gateEntryAdvance (dt : Nat) (p : Port)
  /-- R207. A write of GATE_ORDER schedules a gate-list change at effective time E. -/
  | gateOrder (dt : Nat) (p : Port) (lvl : Level) (v : List Byte)
  /-- R207. At E, or at late arrival, the new gate list replaces the old and GATE_LIST is logged. -/
  | gateListTakeover (dt : Nat) (p : Port)
  /-- R208. The die power controller grants a TU request and the held operation starts, or a stale grant is released. -/
  | powerGrant (dt : Nat) (p : Port) (id : Fin 16)
  /-- R209. The die power controller refuses a TU request and backoff begins. -/
  | powerRefuse (dt : Nat) (p : Port) (id : Fin 16)
  /-- R210. The die power controller revokes a grant and the TU returns the operation to its unpowered setting within 10 µs. -/
  | powerRevoke (dt : Nat) (p : Port) (id : Fin 16)
  /-- R208. No power answer within 10 µs counts as a refusal with cause TIMEOUT. -/
  | powerAnswerTimeout (dt : Nat) (p : Port) (id : Fin 16)
  /-- R209. A requester's backoff ends and the TU repeats its power request. -/
  | powerBackoffExpiry (dt : Nat) (p : Port) (id : Fin 16)
  /-- R219. A write of a tag to PIN_RELEASE releases that pin hold. -/
  | pinRelease (dt : Nat) (lvl : Level) (tag : BitVec 32)
  /-- R219. A pin hold older than PIN_EXPIRY_S is released on its own. -/
  | pinExpiry (dt : Nat) (hold : Fin 8)
  /-- R221. A write of PART_SEGMENTS resizes and empties a die partition when its link is down and nothing is pinned. -/
  | partSegmentsWrite (dt : Nat) (lvl : Level) (part : Fin 32) (v : BitVec 16)
  /-- R228. SUMAC_FLUSH_US after a block's first byte the TU's Sumac closes the block. -/
  | sumacFlushTimer (dt : Nat) (p : Port)
  /-- R227. A Sumac finishes compressing a block, self-checks it and releases it. -/
  | sumacBlockDone (dt : Nat) (n : Node) (engine : Fin 5) (selfOk : Bool)
  /-- R231. A write of CUT_ORDER is checked and, if accepted, sent down the tree or to the tray's TUs. -/
  | cutOrder (dt : Nat) (lvl : Level) (v : List Byte)
  /-- R230. A write of CUT_CANCEL removes a pending cut and propagates like an order. -/
  | cutCancel (dt : Nat) (lvl : Level) (v : List Byte)
  /-- R232. A cut order lands in a Fyster's down slot, which acknowledges and passes it to its children. -/
  | cutOrderLanded (dt : Nat) (g : GSlot) (lvlRole : Fin 3) (sub : Fin 2)
  /-- R232. A TU receives TR_CUT ORDER and answers TR_CUT ACK. -/
  | trCutOrderRx (dt : Nat) (p : Port) (r : Rec)
  /-- R230. A TU receives a cut cancellation and removes the pending cut or refuses it. -/
  | trCutCancelledRx (dt : Nat) (p : Port) (r : Rec)
  /-- R232. A child silent for CUT_ACK_US gets one second chance, and after that is counted MISSING. -/
  | cutAckTimeout (dt : Nat) (cut : BitVec 32) (child : Nat)
  /-- R234. At T_f, or at late arrival, a TU latches counters and links, freezes rings and offers MARK and TR_LINKSTATE. -/
  | cloveCut (dt : Nat) (p : Port) (cut : BitVec 32) (taps : List LinkTap)
  /-- R241. At T_f a participating Fyster offers TR_LINKSTATE, snapshots its state into the cut store and opens a pin hold. -/
  | fysterCut (dt : Nat) (cut : BitVec 32)
  /-- R235. A snapshot not emitted within CUT_HOLD_MS is abandoned, the rings resume and DONE carries ABANDONED. -/
  | cutHoldTimeout (dt : Nat) (p : Port) (cut : BitVec 32)
  /-- R236. At T_f + CUT_POST_MS the issuing Fyster writes TR_CUT SUMMARY. -/
  | cutSummary (dt : Nat) (cut : BitVec 32)
  /-- R244. A write of DUMP_START starts a dump, which asks tray power before moving data. -/
  | dumpStart (dt : Nat) (lvl : Level) (ch : Fin 4) (serial : BitVec 32)
  /-- R244. A write of DUMP_ABORT stops the dump at the next segment boundary. -/
  | dumpAbort (dt : Nat) (lvl : Level) (ch : Fin 4)
  /-- R246. A dump finishes copying a segment, checks its serial and moves on or writes the manifest. -/
  | dumpSegmentDone (dt : Nat) (ch : Fin 4) (r : DumpStep)
  /-- R274. A write of ARM_ORDER at the root starts an arm, membership change or teardown. -/
  | armOrder (dt : Nat) (lvl : Level) (v : List Byte)
  /-- R276. A Fyster processes an arm NOTICE, reads and checks the descriptor, tests admission and answers ACK. -/
  | armNoticeRx (dt : Nat) (src : BitVec 16) (msg : List Byte) (copy : List Byte)
  /-- R276. A parent processes an arm ACK from a child. -/
  | armAckRx (dt : Nat) (src : BitVec 16) (msg : List Byte)
  /-- R277. A parent processes a DONE and reports DONE upward when every child is done or UNARMED. -/
  | armDoneRx (dt : Nat) (src : BitVec 16) (msg : List Byte)
  /-- R276. A standby processes a RELAY and sends the NOTICE once more with FROM_STANDBY. -/
  | armRelayRx (dt : Nat) (src : BitVec 16) (msg : List Byte)
  /-- R276. A child silent 200 µs after a NOTICE gets one resend, and after that is UNARMED. -/
  | armAckTimeout (dt : Nat) (g : GSlot) (role : Fin 3) (child : Nat)
  /-- R277. A node in ARM_WAIT re-tests admission every 1 ms or after a resource release. -/
  | armRetest (dt : Nat) (g : GSlot)
  /-- R277. After ARM_WAIT_MS a waiting node reports PARTIAL and keeps re-testing. -/
  | armWaitExpiry (dt : Nat) (g : GSlot)
  /-- R278. Every ARM_RETRY_MS a parent re-sends its NOTICE to unarmed, not-locked or stale children. -/
  | armRetry (dt : Nat) (g : GSlot) (role : Fin 3)
  /-- R280. A TU_GROUP_ARM write of KIND ARM puts a group slot into PENDING or schedules a change. -/
  | tuGroupArm (dt : Nat) (p : Port) (lvl : Level) (g : GSlot) (v : List Byte)
  /-- R280. A TU_GROUP_ARM write of KIND LEAVE puts the slot into DRAINING at E. -/
  | tuGroupLeave (dt : Nat) (p : Port) (lvl : Level) (g : GSlot) (v : List Byte)
  /-- R277. At E a PENDING group slot becomes ARMED and following sets start with FIRST. -/
  | groupArmEffective (dt : Nat) (n : Node) (g : GSlot)
  /-- R281. At E the new membership, positions and roles take effect. -/
  | membershipChange (dt : Nat) (n : Node) (g : GSlot)
  /-- R282. At E_t a torn-down or leaving slot enters DRAINING. -/
  | groupDrainEffective (dt : Nat) (n : Node) (g : GSlot)
  /-- R282. At E_t + PERIOD + max(PERIOD, 1 ms) every node releases the slot and its resources. -/
  | groupRelease (dt : Nat) (n : Node) (g : GSlot)
  /-- R267. At G + L1_GATHER_US the L1 derives die values, inserts them in port order, writes its contribution and releases Juniper rows. -/
  | l1GatherClose (dt : Nat) (g : GSlot) (inst : Word)
  /-- R265. The fabric completes a contribution's aggregates and the writer writes its header. -/
  | fabricWriteComplete (dt : Nat) (id : Nat)
  /-- R265. A child's contribution header completes at the parent, which tests and merges it or puts it in the late bucket. -/
  | contribArrival (dt : Nat) (g : GSlot) (role : Fin 3) (child : Nat) (sub : Fin 2) (inst : Word)
  /-- R268. At G + 150 µs an L2 closes G, merges what has arrived and writes to the root. -/
  | l2Close (dt : Nat) (g : GSlot) (inst : Word)
  /-- R268. At G + 400 µs the root closes G and writes the summary to its frame and its standby's. -/
  | rootClose (dt : Nat) (g : GSlot) (inst : Word)
  /-- R268. At G + 1.0 ms the root rewrites the summary header with PUBLISHED. -/
  | rootPublish (dt : Nat) (g : GSlot) (inst : Word)
  /-- R269. An L1 reads and accepts the summary for G and writes cohort ranks into its contexts. -/
  | summaryRead (dt : Nat) (g : GSlot) (inst : Word) (v : List Byte)
  /-- R269. No accepted summary by G + 1.0 ms + PERIOD/2 is counted and contexts are flagged COHORT_STALE. -/
  | summaryMissed (dt : Nat) (g : GSlot) (inst : Word)
  /-- R270. A pending contribution unwritten when its frame is about to be reused is merged into a carry. -/
  | frameReuseCarry (dt : Nat) (g : GSlot) (role : Fin 3) (frame : Nat)
  /-- R271. Every 1 ms each merge engine merges a known pair and a failing engine is retired. -/
  | mergeEngineSelftest (dt : Nat) (e : Fin 18) (pass : Bool)
  /-- R283. Every 4 µs a role holder and its standby write each other's peer slot. -/
  | peerHeartbeat (dt : Nat) (g : GSlot) (role : Fin 3)
  /-- R283. A peer slot silent for TAKEOVER_US makes the standby take over the role. -/
  | takeoverTimeout (dt : Nat) (g : GSlot) (role : Fin 3)
  /-- R263. Fyster receives an inbound ledger write and refuses and logs one outside the writer's slot. -/
  | ledgerWriteRx (dt : Nat) (src : BitVec 16) (addr : Word) (v : List Byte)
  /-- R413. Any other inbound fabric access is answered with an address error, counted and logged. -/
  | fabricInboundRefused (dt : Nat) (isWrite : Bool) (addr : Word)
  /-- R296. The lanes finish a row's trees and Juniper computes its class scores and reports or records them. -/
  | juniperRowScored (dt : Nat)
  /-- R307. A row not started by its deadline or share is skipped and counted. -/
  | rowDeadline (dt : Nat) (g : GSlot) (inst : Word)
  /-- R310. Every 1 ms each Juniper lane evaluates a known tree and a wrong lane is retired. -/
  | juniperLaneSelftest (dt : Nat) (lane : Fin 72) (pass : Bool)
  /-- R301. A DOMAIN write of MODEL_IMAGE stages an image into a model slot. -/
  | modelImage (dt : Nat) (lvl : Level) (slot : Fin 3) (v : List Byte)
  /-- R301. A write of STAGE_FROM makes Fyster fetch an image from host or fabric memory. -/
  | stageFrom (dt : Nat) (lvl : Level) (slot : Fin 3) (v : List Byte) (fetched : List Byte)
  /-- R302. Juniper finishes checking a staged image and sets the slot VALID or INVALID. -/
  | modelCheckDone (dt : Nat) (slot : Fin 3)
  /-- R304. A write of MODEL_ORDER schedules a model bind, swap or unbind at E. -/
  | modelOrder (dt : Nat) (lvl : Level) (g : GSlot) (v : List Byte)
  /-- R305. At E, or at late arrival, the new binding applies to later rows and MODEL_SWAPPED is logged. -/
  | modelSwap (dt : Nat) (g : GSlot)
  /-- R311. A write of ROW_SUBMIT scores one on-demand row and places the result in ROW_RESULT. -/
  | rowSubmit (dt : Nat) (lvl : Level) (v : List Byte)
  /-- R312. A write of BATCH_START starts a batch run after a tray power grant. -/
  | batchStart (dt : Nat) (lvl : Level) (serial : BitVec 32)
  /-- R312. A write of BATCH_ABORT stops the batch run at the next row. -/
  | batchAbort (dt : Nat) (lvl : Level) (v : Byte)
  /-- R327. A TU receives a ZOOM notice and takes it as the loop's zoom request for its following sets. -/
  | zoomNoticeRx (dt : Nat) (p : Port) (r : Rec)
  /-- R331. At each GOV_POLL_US the root reads governor requests (`reqs`: what each tray's request part reads), counts fences and grants or holds quarantines. -/
  | govPoll (dt : Nat) (g : GSlot) (reqs : List (Nat × List Byte))
  /-- R328. A write of SPARE_POOL_DEPTH or SPARE_POOL_FLOOR recomputes the raise and Q_eff. -/
  | sparePoolWrite (dt : Nat) (lvl : Level) (g : GSlot) (isFloor : Bool) (v : BitVec 32)
  /-- R328. A write of GOV_RAISE_PIN or its value pins the raise. -/
  | govRaisePin (dt : Nat) (lvl : Level) (g : GSlot) (isValue : Bool) (v : BitVec 32)
  /-- R318. A write of DIE_RETURNED returns a quarantined or fenced die to service. -/
  | dieReturned (dt : Nat) (lvl : Level) (g : GSlot) (die : BitVec 32)
  /-- R338. SIG_WAIT_MS after a SIGNATURE without its REPLAY, Fyster emits TR_SIGNATURE. -/
  | sigWaitTimeout (dt : Nat) (p : Port) (serial : BitVec 32)
  /-- R351. Fyster receives HELLO and asks the security block for leave and a nonce. -/
  | tdpHello (dt : Nat) (m : Datagram)
  /-- R351. The security block answers and Fyster allocates a session and sends CHALLENGE. -/
  | tdpChallengeReady (dt : Nat) (a : SecLeave)
  /-- R351. Fyster receives AUTH and passes PROOF to the security block. -/
  | tdpAuth (dt : Nat) (m : Datagram)
  /-- R351. The security block checks PROOF and loads the session key, and Fyster sends AUTH_ACK or AUTH_FAILED. -/
  | tdpAuthChecked (dt : Nat) (session : BitVec 32) (ok : Bool)
  /-- R351. No AUTH within 5 s of CHALLENGE discards the provisional session. -/
  | tdpAuthTimeout (dt : Nat) (session : BitVec 32)
  /-- R352. A CLOSE ends the session and is answered CLOSE_ACK. -/
  | tdpClose (dt : Nat) (m : Datagram)
  /-- R350. A READ request is performed on the node or relayed to a TU. -/
  | tdpRead (dt : Nat) (m : Datagram)
  /-- R350. A WRITE request is performed on the node or relayed to a TU. -/
  | tdpWrite (dt : Nat) (m : Datagram)
  /-- R358. A BLK_READ_INIT takes a copy of the DOMAIN value and opens a block transfer. -/
  | blkReadInit (dt : Nat) (m : Datagram)
  /-- R355. A BLK_WRITE_INIT opens a block write with its total length and CRC. -/
  | blkWriteInit (dt : Nat) (m : Datagram)
  /-- R356. A block segment is received in window order and acknowledged. -/
  | blkSeg (dt : Nat) (m : Datagram)
  /-- R356. A block acknowledgement advances the sender's window or triggers a resend. -/
  | blkAck (dt : Nat) (m : Datagram)
  /-- R357. A BLK_END checks length and CRC and applies a block write as one access, or ends a read. -/
  | blkEnd (dt : Nat) (m : Datagram)
  /-- R356. No acknowledgement for 100 ms makes the segment sender resend from the acknowledged point. -/
  | blockResendTimer (dt : Nat) (xfer : BitVec 16)
  /-- R355. A block transfer with no message for 1 s is ended with BLOCK_TIMEOUT. -/
  | blockTimeout (dt : Nat) (xfer : BitVec 16)
  /-- R359. A SUBSCRIBE creates a periodic or on-change subscription. -/
  | subscribe (dt : Nat) (m : Datagram)
  /-- R359. An UNSUBSCRIBE ends a subscription. -/
  | unsubscribe (dt : Nat) (m : Datagram)
  /-- R359. A subscription's interval passes and Fyster reads the value and sends NOTIFY when due. -/
  | subscriptionCheck (dt : Nat) (sub : BitVec 16)
  /-- R352. A session without a valid message for SESSION_IDLE_S closes. -/
  | sessionIdleTimeout (dt : Nat) (session : BitVec 32)
  /-- R352. AUTH_LOCKOUT_S after a lockout Fyster again accepts HELLO from the address. -/
  | authLockoutExpiry (dt : Nat) (addr : BitVec 128)
  /-- R361. A datagram too short or with wrong LENGTH is dropped without answer and counted. -/
  | tdpMalformedDrop (dt : Nat) (m : Datagram)
  /-- R447. A TU performs a relayed READ access and answers with TR_DICT. -/
  | trDictRead (dt : Nat) (p : Port) (r : Rec)
  /-- R447. A TU performs a relayed WRITE access and answers with TR_DICT. -/
  | trDictWrite (dt : Nat) (p : Port) (r : Rec)
  /-- R447. A TU places a relayed SEGMENT into its 64 KiB staging buffer. -/
  | trDictSegment (dt : Nat) (p : Port) (r : Rec)
  /-- R447. A TU checks the CRC and applies the staged value as one access. -/
  | trDictCommit (dt : Nat) (p : Port) (r : Rec)
  /-- R447. A TU takes a copy of a DOMAIN value and answers its length and CRC. -/
  | trDictCopy (dt : Nat) (p : Port) (r : Rec)
  /-- R447. A TU returns up to 512 bytes of its copy from OFFSET. -/
  | trDictCopyRead (dt : Nat) (p : Port) (r : Rec)
  /-- R354. Fyster receives a TU's TR_DICT answer and passes it back to the client. -/
  | trDictAnswerRx (dt : Nat) (p : Port) (r : Rec)
  /-- R354. No TU answer within 200 µs is answered NODE_TIMEOUT. -/
  | nodeTimeout (dt : Nat) (rid : BitVec 16)
  /-- R365. A write of the current CAL_DIGEST to CAL_ARM permits one calibration write. -/
  | calArm (dt : Nat) (session : BitVec 32) (lvl : Level) (v : BitVec 32)
  /-- R365. An armed write of a calibration object takes effect, is pushed to its TU and stored to NOR. -/
  | calWrite (dt : Nat) (session : BitVec 32) (lvl : Level) (index : BitVec 16) (sub : Byte) (v : BitVec 32)
  /-- R367. An armed write of CAL_IMAGE replaces the whole calibration set if it matches the device. -/
  | calImage (dt : Nat) (session : BitVec 32) (lvl : Level) (v : List Byte)
  /-- R393. A calibration or persistent-object store reads back, and the older sector is erased or the store retried. -/
  | norStoreDone (dt : Nat) (cal : Bool) (ok : Bool)
  /-- R347. A write of an object without a row of its own is checked for type, range and level and applied. -/
  | objectWrite (dt : Nat) (n : Node) (lvl : Level) (index : BitVec 16) (sub : Byte) (v : List Byte)
  /-- R369. A 64-byte write to a channel's send address enqueues a stamped message or is counted as bad or full. -/
  | mboxDoorbell (dt : Nat) (n : Node) (ch : Fin 64) (stamp : BitVec 32) (v : List Byte)
  /-- R450. A mailbox DICT_READ reads an object or a part of its channel copy and answers in the acknowledge register. -/
  | dictRead (dt : Nat) (n : Node) (ch : Fin 64)
  /-- R345. A mailbox DICT_WRITE writes an object at the sender's stamped level. -/
  | dictWrite (dt : Nat) (n : Node) (ch : Fin 64)
  /-- R450. A mailbox DICT_SEGMENT places data in the staging buffer. -/
  | dictSegment (dt : Nat) (n : Node) (ch : Fin 64)
  /-- R373. A mailbox DICT_COMMIT applies the gathered DOMAIN value as one access. -/
  | dictCommit (dt : Nat) (n : Node) (ch : Fin 64)
  /-- R373. An IN message with a reserved or firmware code is answered MALFORMED or passed to Fyster firmware. -/
  | mboxReservedCode (dt : Nat) (n : Node) (ch : Fin 64)
  /-- R372. A write of RCODE removes the head message, records its MSEQ and stamp and interrupts the sender. -/
  | mboxAck (dt : Nat) (n : Node) (ch : Fin 64) (rcode : BitVec 16) (reply : List Byte)
  /-- R375. A write of IDLE_INTENT is ordered against enqueues and may assert or drop WAKE. -/
  | idleIntentWrite (dt : Nat) (n : Node) (ch : Fin 64) (v : Bool)
  /-- R368. A write of CH_DIR changes a channel's direction when its queue is empty. -/
  | chDirWrite (dt : Nat) (n : Node) (lvl : Level) (ch : Fin 64) (v : Byte)
  /-- R368. A write of TAINT_MBOX_CH moves taint messages to another OUT channel. -/
  | taintMboxChWrite (dt : Nat) (p : Port) (lvl : Level) (v : Byte)
  /-- R379. Once per second while repeats go on, the grown record is offered as TR_EVENT UPDATE. -/
  | evrUpdateTimer (dt : Nat) (n : Node)
  /-- R381. A write of N to EVR_CLEAR discards records below N and logs CLEARED. -/
  | evrClear (dt : Nat) (n : Node) (v : Word)
  /-- R382. A write of TRUE to EVR_FLUSH starts a flush of the event recorder. -/
  | evrFlush (dt : Nat) (n : Node) (lvl : Level) (v : Byte)
  /-- R382. A TU receives TR_EVENT PFAIL from Fyster and starts a flush. -/
  | pfailEventRx (dt : Nat) (p : Port) (r : Rec)
  /-- R382. In each budget period a flushing TU offers one FLUSH part. -/
  | evrFlushPart (dt : Nat) (p : Port)
  /-- R384. Fyster finishes writing its log and port images to a NOR flush slot and writes the header last. -/
  | norFlushDone (dt : Nat)
  /-- R398. PFAIL_N low for 1 µs makes Fyster log PFAIL, alert the TUs, abort dumps and runs and flush to NOR. -/
  | pfailRecognised (dt : Nat)
  /-- R398. A PFAIL_N pulse shorter than 1 µs is ignored and counted. -/
  | pfailGlitch (dt : Nat)
  /-- R398. PFAIL_N rises before power is lost and Fyster continues without reset after its flush. -/
  | pfailDeassert (dt : Nat)
  /-- R390. Supplies come up and Fyster runs its full boot. -/
  | fysterPowerOn (dt : Nat) (imageA : Bool) (imageB : Bool)
  /-- R394. RESET_N low for 10 µs resets Fyster with a full boot. -/
  | resetPin (dt : Nat) (imageA : Bool) (imageB : Bool)
  /-- R394. A write of 2 to RESET_REQUEST resets Fyster, clears HBM and keeps the recorder. -/
  | coldResetRequest (dt : Nat) (lvl : Level) (imageA : Bool) (imageB : Bool)
  /-- R394. A write of 1 to RESET_REQUEST warm-resets Fyster, keeping HBM in self-refresh. -/
  | warmResetRequest (dt : Nat) (lvl : Level) (imageA : Bool) (imageB : Bool)
  /-- R394. No firmware service for FW_WDT_MS flushes the recorder and warm-resets Fyster. -/
  | fwWatchdogExpiry (dt : Nat) (imageA : Bool) (imageB : Bool)
  /-- R390. HBM training completes and the TL ports may train. -/
  | hbmTrainingDone (dt : Nat)
  /-- R390. The out-of-band ports train and TDP and PTP begin. -/
  | oobTrainingDone (dt : Nat) (q : Fin 2)
  /-- R410. A TL completes training with STATUS exchange, and Fyster discovers the TU. -/
  | tlTrainingDone (dt : Nat) (e : End) (t : TrainResult)
  /-- R391. A write of PORT_DIE_ID completes a pending discovery within 2 ms. -/
  | portDieIdWrite (dt : Nat) (p : Port) (lvl : Level) (v : BitVec 32)
  /-- R395. The always-on domain comes up and the TU resets, emptying its recorder. -/
  | tuPowerOn (dt : Nat) (p : Port)
  /-- R395. TU_RST_N low for 100 ns resets the TU. -/
  | tuResetIn (dt : Nat) (p : Port)
  /-- R395. A write of TRUE to TU_RESET_REQUEST resets the TU. -/
  | tuResetRequest (dt : Nat) (p : Port) (lvl : Level) (v : Byte)
  /-- R395. An internal TU fault flushes the log if possible and resets the TU. -/
  | tuInternalFault (dt : Nat) (p : Port)
  /-- R396. A rising DIE_RST_IND closes phase slots with ABANDONED and ends bound launches. -/
  | dieResetIndication (dt : Nat) (p : Port)
  /-- R400. Loss of PCS lock takes the TL down and the end tries a fast retrain at once. -/
  | tlLinkLoss (dt : Nat) (e : End)
  /-- R411. 10 ms after a failed attempt a full TL training starts. -/
  | tlRetrainAttempt (dt : Nat) (e : End)
  /-- R411. A write of TRUE to TL_RETRAIN starts a fast retrain. -/
  | tlRetrain (dt : Nat) (e : End) (lvl : Level) (v : Byte)
  /-- R412. The receiver reaches its quiesce point after a lane retirement and requests a fast retrain. -/
  | laneSwapQuiesce (dt : Nat) (e : End)
  /-- R412. After 10 ms without a quiesce point the receiver requests the fast retrain anyway. -/
  | laneSwapQuiesceTimeout (dt : Nat) (e : End)
  /-- R400. An out-of-band port loses its link and the other port may become SLAVE. -/
  | oobLinkDown (dt : Nat) (q : Fin 2)
  /-- R400. Every 1 s a lost out-of-band port retrains. -/
  | oobRetrainTimer (dt : Nat) (q : Fin 2) (ok : Bool)
  /-- R400. A hall-fabric port goes down and its traffic moves to the remaining ports. -/
  | fabricPortDown (dt : Nat) (k : Fin 8)
  /-- R400. Every 10 ms a lost hall-fabric port retrains. -/
  | fabricRetrainTimer (dt : Nat) (k : Fin 8) (ok : Bool)
  /-- R399. Every 10 s a FAILED recovery procedure is repeated. -/
  | recoveryRetry (dt : Nat) (n : Node) (row : Fin 12)
  /-- R388. The tray power controller grants a Fyster request and the held operation starts. -/
  | trayPwrGrant (dt : Nat) (m : Word)
  /-- R388. The tray power controller refuses a Fyster request and backoff begins. -/
  | trayPwrRefuse (dt : Nat) (m : Word)
  /-- R388. The tray power controller revokes a grant and Fyster returns the operation to its unpowered state. -/
  | trayPwrRevoke (dt : Nat) (m : Word)
  /-- R388. No tray power answer within PWR_TIMEOUT_US counts as a refusal with cause TIMEOUT. -/
  | trayPwrTimeout (dt : Nat) (id : Fin 16)
  /-- R388. A Fyster requester's backoff ends and it requests again. -/
  | trayPwrBackoffExpiry (dt : Nat) (id : Fin 16)
  /-- R424. 20 µs after a RELEASE Fyster sends it a second time. -/
  | trayPwrReleaseRepeat (dt : Nat) (id : Fin 16)
  /-- R426. A junction temperature crosses its limit, is logged, and at the hard limit THERM_N is asserted. -/
  | thermalLimit (dt : Nat) (hbm : Bool) (centi : Int)
  /-- R417. At most once per HOST_INT_US while the host-ring count advances, Fyster raises vector 64. -/
  | hostRingInt (dt : Nat)
  /-- R418. A write through BAR2 is discarded, counted and logged. -/
  | bar2Write (dt : Nat) (offset : Word) (v : List Byte)
  /-- R415. PERST_N, hot reset or FLR resets only the PCIe endpoint. -/
  | pcieReset (dt : Nat)
  /-- R398. Fyster's supplies fall away, losing HBM, the ring and the recorder and leaving any NOR flush or store cut off without a valid header. -/
  | fysterPowerLoss (dt : Nat)
  /-- R31. Under profile LOCAL, Fyster declares its time unit LOCKED to its own reference once its reference clock is stable. -/
  | localReferenceStable (dt : Nat)
  /-- R411. A TL training or fast-retrain attempt fails when one of its steps passes its R410 bound, leaving the link down and arming the 10 ms retry. -/
  | tlTrainingAttemptFailed (dt : Nat) (e : End)
  /-- R384. Firmware's erase of the NOR flush slot with the lowest FLUSH_SERIAL completes, leaving an erased slot for the next flush. -/
  | norSlotEraseDone (dt : Nat)
  /-- R279. Once ARM_NOTICE_RATE allows it in the next 100 µs, a Fyster sends its next waiting arm inbox messages, serving arming groups in turn. -/
  | armNoticePacing (dt : Nat)
  /-- R301. A STAGE_FROM fetch meets an error answer, and staging ends with the slot INVALID and error ABORTED. -/
  | stageFetchError (dt : Nat) (slot : Fin 3)
  /-- R311. No on-demand result is ready within 10 ms of a ROW_SUBMIT write, so the write is answered with the busy abort code. -/
  | rowSubmitTimeout (dt : Nat)
  /-- R242. At T_f + CUT_POST_MS, when later than the die's DONE, each participating Fyster fixes the new end of the cut's pin hold at the open segment. -/
  | cutPinNewEnd (dt : Nat) (cut : BitVec 32)
  /-- R416. A host write to the BAR0 host-ring or aperture registers sets them, or is discarded and logged while HOST_RING_BASE is non-zero; HOST_RING_RD frees ring space. -/
  | hostRingRegisterWrite (dt : Nat) (offset : BitVec 24) (v : Word)
deriving DecidableEq, Repr

end Sys2Proof
end

