-- ==== Sys2Proof/Decode.lean ====
section
/-! DEFINITION. The commands that the table gives as words: the table of this block gives no row any bits, so no word
spells a command. -/

namespace Sys2Proof

/-- The command that an instruction word of `nbits` bits spells by the opcode table: none, because no row of the table
has bits. -/
def decodeTableWord (_nbits _w : Nat) : Option Instr := none

end Sys2Proof
end

