-- ==== Sys2Proof/Config.lean ====
section
/-! DEFINITION. What the spec leaves open: free values (constants without a body, so that nothing can be proved of their
value) and what each device or build fixes. -/

namespace Sys2Proof.Config

/-- Free value number `n` of node `node` (log 6). -/
opaque freeValue (node n : Nat) : Word

/-- What a count shows once an increment has passed its width, where the spec does not say (log 13): object key,
value and increment. -/
opaque countPast (key value inc : Nat) : Nat

/-- Event codes that raise TU_IRQ bit 10, "event logged with a fault code" (R438, log 14). -/
opaque faultCode (code : Nat) : Bool

/-- Factory value of a calibration object (R365): object key, as the unsigned number of its 32 bits. -/
opaque factory (key : Nat) : BitVec 32

/-- Time of the factory write (R365, 0x7C00:06). -/
opaque factoryTs : Word

/-- Silicon stepping of a node (R362). -/
opaque stepping (node : Nat) : List Byte

/-- HW_ID of a node: 16 bytes (R362). -/
opaque hwId (node : Nat) : Vector Byte 16

/-- FW_VERSION of a node (R362). -/
opaque fwVersion (node : Nat) : BitVec 32

/-- CAPABILITIES of a node (R362). -/
opaque capabilities (node : Nat) : Word

/-- Ethernet address of an out-of-band port (R363). -/
opaque ethAddr (port : Nat) : BitVec 48

/-- clockIdentity of Fyster's own clock (R31). -/
opaque clockIdentity : Word

/-- PCI_IDS (R428). -/
opaque pciIds : BitVec 32

/-- HBM_MAP (R418). -/
opaque hbmMap : List Byte

/-- TU_WIN_BASE strap of a TU (R440). -/
opaque winBase (node : Nat) : Word

/-- A byte at an address outside Thotus that STAGE_FROM fetches (R301), by the number of the fetch. -/
opaque fetchedByte (addr fetch : Nat) : Byte

/-- What a byte of a NOR flush slot reads whose flush was cut off before its header (R384 states no content there). -/
opaque tornByte (slot ofs : Nat) : Byte

/-- Row repairs of the HBM3E stacks that the device holds in all (R364 gives SPARE_STATUS no total for them). -/
opaque rowRepairs : Nat

/-- Slow-corner cost of a TR_VERDICT record in ps, which the spec does not state (R167, R192; log 34). -/
opaque verdictCost : Nat

/-- A quotient of a residual and a tolerance that is not finite, which R168 takes the mean of without stating its value
(log 79): FP64 bit patterns of both. -/
opaque openQuotient (d tau : Nat) : Nat

/-- log2 of an FP64 bit pattern, finite and above 0 (R291, log 8). -/
opaque log2 (x : Nat) : Nat

/-- 2^x of an FP64 bit pattern (R320, log 8). -/
opaque exp2 (x : Nat) : Nat

/-- 1 / (1 + e^-x), rounded to FP32, of an FP32 bit pattern (R296, log 8). -/
opaque logistic (x : Nat) : Nat

/-- The SOFTMAX outputs of raw class scores, FP32 bit patterns (R296, log 8): class and all raw scores. -/
opaque softmax (c : Nat) (raws : List Nat) : Nat

end Sys2Proof.Config
end

