-- ==== Sys2Proof/Machine/TypesPart.lean ====
section
/-! DEFINITION. State that Fyster and every TU hold alike: time unit, loss accumulators, event recorder, mailbox
channels, power requesters, scheduled orders, CRC units, and one end of a tray link. -/

namespace Sys2Proof.Machine

/-- What a part puts on its ports. -/
inductive Out where
  /-- An ordered set on the link of this end (R407). -/
  | tos (e : End) (t : Tos)
  /-- A TL frame: header, payload words and CRC trailer (R68). -/
  | frame (e : End) (header : Word) (payload : List Word) (crc : BitVec 32)
  /-- A beat of CP_GWMK (R435). -/
  | gwmk (gslot : Nat) (gw : Nat) (taintTotal : Nat)
  /-- A beat of FP_GATE_REL (R436). -/
  | gateRel (tile : Nat) (blockSeq : Nat) (refuse : Bool)
  /-- A message on the power port: OP, requester, units and SEQ (R424, R437). -/
  | power (op id units seq : Nat)
  /-- The answer to a dictionary or register write that comes without a transport of its own: an abort code (R360). -/
  | answer (abort : Nat)
  /-- What a read returned. -/
  | value (bytes : List Byte)
  /-- A UDP datagram (R349, R340, R245). -/
  | datagram (dst : BitVec 128) (port : BitVec 16) (bytes : List Byte)
  /-- A plain remote write in the hall fabric, named by its number (R265, R413). -/
  | fabric (tray : Nat) (id : Nat) (addr : Nat) (bytes : List Byte)
  /-- A posted write into host memory (R245, R417). -/
  | hostWrite (addr : Nat) (bytes : List Byte)
  /-- The fabric's address-error answer (R413). -/
  | addressError
  /-- A rise of an MSI-X vector (R416). -/
  | msix (vector : Nat)
  /-- A pulse of PPS_OUT or TU_TIME_PULSE (R423, R438). -/
  | pulse
  /-- A message passed to Fyster firmware (R373). -/
  | firmware (ch : Nat) (body : List Byte)
  /-- A read request of the NoC master's or fabric's counterpart: a 64-byte window write (R439). -/
  | nocWrite (addr : Nat)
deriving DecidableEq, Repr

/-- Servo states (R40). -/
inductive Servo where
  | freeRun
  | acquiring
  | locked
  | holdover
  | stepPending
deriving DecidableEq, Repr

/-- A time unit and its servo (R25, R40 to R47). -/
structure TimeUnit where
  /-- Fleet time as one count of 2^-16 ns since the PTP epoch: SEC, NS and FRAC of R25. -/
  now           : Nat
  servo         : Servo
  /-- The servo has reached LOCKED since reset (R50, R23). -/
  everLocked    : Bool
  /-- Consecutive updates inside the lock threshold (R40, code 2). -/
  inLock        : Nat
  /-- Consecutive updates outside the lock threshold (R42). -/
  outLock       : Nat
  /-- Time of the entry to LOCKED, for the averaging of R47. -/
  lockedAt      : Nat
  /-- Time of the entry to HOLDOVER or STEP_PENDING, from which the holdover estimate grows (R47). -/
  holdAt        : Option Nat
  stepEpoch     : Nat
  pendingSerial : Nat
  /-- Twice the offset of the pending step, in 2^-16 ps (R43). -/
  pending2      : Int
  authorised    : Bool
  /-- Twice the last measured offset, in 2^-16 ps (R37). -/
  offset2       : Int
  /-- FREQ_ADJ in 0.1 ppb (R56). -/
  freqAdj       : BitVec 32
  /-- GM_IDENTITY (R56). -/
  gm            : Word
deriving DecidableEq, Repr

/-- A loss accumulator (R82). -/
structure LossAcc where
  records  : Nat
  bytes    : Nat
  /-- First and last loss of the present interval. -/
  first    : Nat
  last     : Nat
  /-- No loss yet in the interval, one stream, or several or unknown streams (0xFFFF). -/
  lstream  : Option Nat
  /-- A loss came in the present 1 µs period. -/
  fresh    : Bool
  /-- Reports are going on: a first TR_LOSS has been sent and no period without loss has ended them. -/
  active   : Bool
  reported : Nat
deriving DecidableEq, Repr

/-- An event recorder record (R377). -/
structure EvRec where
  code      : Nat
  unit      : Nat
  param     : Nat
  rep       : Nat
  uncertain : Bool
  late      : Bool
  repSat    : Bool
  /-- GSLOT of the latest occurrence, for the TR_EVENT header (R379). -/
  gslot     : Nat
  arg       : Nat
  first     : Nat
  last      : Nat
deriving DecidableEq, Repr

/-- The flush under way in a recorder (R382, R383). -/
structure Flush where
  cause    : Nat
  at64     : Nat
  /-- The records of the moment of the trigger, oldest first. -/
  records  : List EvRec
  /-- TU: parts still to be offered, each with the number of offers made. -/
  parts    : List (Nat × Nat)
deriving DecidableEq, Repr

/-- An event recorder (R376 to R384). -/
structure Recorder where
  /-- Records held, oldest first. -/
  log        : List EvRec
  /-- Number of the first record held. -/
  firstNo    : Nat
  /-- EVR_TOTAL: the number the next record takes. -/
  total      : Nat
  /-- The newest record may still be merged into (R378): it has not been cleared. -/
  mergeable  : Bool
  /-- REPEAT of the newest record has grown since it was last offered (R379). -/
  grown      : Bool
  /-- Time of the last offer of the newest record. -/
  offeredAt  : Nat
  flush      : Option Flush
  flushSerial : Nat
  /-- Fyster: the recorder is frozen (R383). -/
  frozen     : Bool
deriving DecidableEq, Repr

/-- A message in a channel (R369, R370). -/
structure Msg where
  body  : List Byte
  stamp : BitVec 32
  mseq  : Nat
deriving DecidableEq, Repr

/-- A copy of a DOMAIN object that a channel or the relay reads from (R358, R450). -/
structure Copy where
  node  : Nat
  index : Nat
  sub   : Nat
  bytes : List Byte
deriving DecidableEq, Repr

/-- The DOMAIN value being gathered on a channel (R373): the sender, and the bytes by offset. -/
structure Gather where
  sender    : BitVec 32
  node      : Nat
  index     : Nat
  sub       : Nat
  bytes     : List Host.Cell
deriving DecidableEq, Repr

/-- A mailbox channel (R368 to R375). -/
structure Channel where
  /-- true: OUT. -/
  out        : Bool
  queue      : List Msg
  mseq       : Nat
  idleIntent : Bool
  wake       : Bool
  ackCode    : BitVec 16
  ackMseq    : BitVec 16
  ackSender  : BitVec 32
  reply      : List Byte
  /-- The acknowledge interrupt toward the sender is raised (R372). -/
  ackIrq     : Bool
  gather     : Option Gather
  copy       : Option Copy
deriving DecidableEq, Repr

/-- The state of a power requester (R214). -/
inductive PwrState where
  | idle
  | pending
  | granted
  | backoff
deriving DecidableEq, Repr

/-- A power requester (R208 to R210, R388). -/
structure PwrReq where
  st        : PwrState
  units     : Nat
  /-- Consecutive refusals n (R209). -/
  n         : Nat
  backoffUs : Nat
  /-- SEQ of the request outstanding (R424). -/
  seq       : Nat
  /-- The operation still wants the power (R209). -/
  wanted    : Bool
  /-- A request has been sent and no answer has come, timed out or not. -/
  outstanding : Bool
  since     : Nat
  /-- A RELEASE was sent and its repeat is due (R424). -/
  releaseDue : Option Nat
deriving DecidableEq, Repr

/-- Kinds of scheduled order, in the order in which one instant applies them (R19). -/
inductive OrderKind where
  | cut
  | membership
  | grid
  | gateList
  | model
deriving DecidableEq, Repr

/-- A pending scheduled order (R17 to R22): `eff` is the effective time in ns. -/
structure Order where
  kind   : OrderKind
  target : Nat
  serial : Nat
  eff    : Nat
  /-- The order arrived after its effective time (R18). -/
  late   : Bool
  data   : List Byte
deriving DecidableEq, Repr

/-- The highest serial a node has accepted for a target since its reset (R20). -/
structure Held where
  kind   : OrderKind
  target : Nat
  serial : Nat
deriving DecidableEq, Repr

/-- A CRC unit with registers (R77). `busy`: a snapshot is being written through it (R78). -/
structure CrcUnit where
  enable : Bool
  pause  : Bool
  paused : Bool
  value  : BitVec 32
  length : Nat
  busy   : Bool
deriving DecidableEq, Repr

/-- The consecutive readings of one monitor of one unit (R335). -/
structure Wear where
  low  : Nat
  /-- The latest reading. -/
  value : Nat
  /-- The unit is worn: it has been marked and not been evaluated again. -/
  worn : Bool
deriving DecidableEq, Repr

/-- One recovery procedure of R400 under R399. -/
structure Recovery where
  running     : Bool
  failed      : Bool
  /-- Times of the starts without completion within the last 60 s. -/
  starts      : List Nat
  completions : Nat
  /-- Start of the last repetition while FAILED. -/
  since       : Nat
  /-- Time of the last completion. -/
  doneAt      : Nat
deriving DecidableEq, Repr

/-- What Fyster and each TU hold alike. Registers that are objects of the dictionary and have no structured field live
in `obj` (index × 256 + sub; a key that is not listed reads its default of the object tables). -/
structure Part where
  time   : TimeUnit
  evr    : Recorder
  obj    : Tab Nat
  dom    : Tab (List Byte)
  chans  : Tab Channel
  /-- ALIVE of the next record of each stream (R79). -/
  alive  : Tab Nat
  /-- Streams whose next admitted record carries LOSS_BEFORE (R80). -/
  lossy  : List Nat
  loss   : Tab LossAcc
  pwr    : Tab PwrReq
  orders : List Order
  held   : List Held
  crc    : Tab CrcUnit
  wear   : Tab Wear
  /-- Units marked for a spare, waiting for their quiesce point (R24). -/
  swapQ  : List Nat
  recov  : Tab Recovery
deriving DecidableEq, Repr

/-- The state of a TL (R428: 0 DOWN, 1 TRAINING, 2 UP, 3 RETRAINING). -/
inductive LinkState where
  | down
  | training
  | up
  | retraining
deriving DecidableEq, Repr

/-- A data frame as its sender holds it for replay (R72). -/
structure TxFrame where
  fseq    : Nat
  cls     : Nat
  /-- true: KIND SUMAC. -/
  sumac   : Bool
  first   : Bool
  last    : Bool
  payload : List Word
  records : Nat
  sentAt  : Nat
  replays : Nat
deriving DecidableEq, Repr

/-- One end of a TL (R70 to R74, R405 to R412). -/
structure Link where
  st          : LinkState
  /-- FSEQ of the next data frame to send. -/
  txFseq      : Nat
  /-- FSEQ expected next. -/
  rxFseq      : Nat
  /-- Data frames held for replay, oldest first. -/
  replay      : List TxFrame
  /-- A NAK has been sent for the expected FSEQ (R71). -/
  nakSent     : Bool
  /-- A report to the partner is due: none, ACK or NAK. -/
  ackDue      : Bool
  nakDue      : Bool
  /-- This end has been reset since the last training: RESTART goes into its next STATUS of step 4 (R74). -/
  restart     : Bool
  /-- Time of the last new data frame sent and of the last accepted, in 2^-16 ns (R238). -/
  lastTx      : Nat
  lastRx      : Nat
  laneMap     : BitVec 8
  partnerMap  : BitVec 8
  /-- Arrival skew of the spare; none if not measured. -/
  skew        : Option Int
  /-- Physical lanes of the receive direction retired as worn (R412). -/
  retired     : List Nat
  /-- Time of the last failed attempt (R411). -/
  failedAt    : Option Nat
  /-- A lane swap waits for its quiesce point since this time (R412). -/
  swapSince   : Option Nat
  violTotal   : Nat
  violSupp    : Nat
  violAt      : Option Nat
deriving DecidableEq, Repr

end Sys2Proof.Machine
end

