-- ==== Sys2Proof/Machine/TypesFy.lean ====
section
/-! DEFINITION. State of Fyster (FY-2412) outside reduction, Juniper and decisions: PTP ports, hindsight ring, pin holds,
cuts, dumps, sessions, relay, calibration, NOR, boot and ports. -/

namespace Sys2Proof.Machine

/-- PTP port states that the spec uses (R32). -/
inductive PtpState where
  | disabled
  | listening
  | passive
  | slave
  | master
deriving DecidableEq, Repr

/-- A foreign master as the latest qualified Announce describes it (R32, R33). -/
structure Foreign where
  source    : BitVec 80
  quality   : Nat
  gm        : Word
  steps     : Nat
  utcOffset : Int
deriving DecidableEq, Repr

/-- An out-of-band port (R30 to R36, R400, R414). -/
structure PtpPort where
  up       : Bool
  /-- Retired by the eye monitor: DISABLED until a service write re-enables it (R32). -/
  retired  : Bool
  st       : PtpState
  foreign  : Option Foreign
  /-- A two-step Sync that waits for its Follow_Up: SEQ, receive stamp, correction. -/
  sync     : Option (Nat × Nat × Int)
  /-- Receive minus origin stamp of the last Sync, correction taken off, in 2^-16 ns. -/
  syncDelay : Option Int
  /-- Transmit stamps of the Delay_Req or Pdelay_Req under way: SEQ and stamp. -/
  reqSent  : Option (Nat × Nat)
  /-- A Pdelay_Resp that waits for its follow-up: SEQ, receive stamp, requestReceiptTimestamp. -/
  presp    : Option (Nat × Nat × Nat)
  /-- Twice the mean path delay in 2^-16 ns. -/
  delay2   : Option Int
  /-- Transmit-timestamp queue, oldest first: TXID, messageType, stamp, sequenceId (R34). -/
  txq      : List (Nat × Nat × Nat × Nat)
  /-- A drop since the queue was last read non-empty has been reported (R36). -/
  txqOvf   : Bool
deriving DecidableEq, Repr

/-- Body of a ring entry with its entry header fields (R217). EKIND is RECORDS or SUMAC. -/
structure Entry where
  sumac  : Bool
  first  : Bool
  last   : Bool
  trunc  : Bool
  orphan : Bool
  cls    : Nat
  fseq   : Nat
  src    : Nat
  body   : List Word
deriving DecidableEq, Repr

/-- A segment (R216) with its entries, oldest first. `ended`: an END entry closes it. PIN_MASK follows from the holds. -/
structure Seg where
  serial  : Nat
  closed  : Bool
  hasLoss : Bool
  uncert  : Bool
  truncOrphan : Bool
  resumed : Bool
  die     : Nat
  epoch   : Nat
  sec     : Nat
  tsFirst : Nat
  tsLast  : Nat
  used    : Nat
  ended   : Bool
  entries : List Entry
deriving DecidableEq, Repr

/-- A partition of the ring (R215): its segments, oldest first. -/
structure Partition where
  size    : Nat
  next    : Nat
  segs    : List Seg
  /-- Bytes of the open Sumac block of the port (R220). -/
  block   : Option Nat
  overwrites : Nat
  /-- Time in ns and bytes of the writes of the last 60 s (PART_RATE_BPS). -/
  rate    : List (Nat × Nat)
deriving DecidableEq, Repr

/-- A pin hold (R219): partitions covered, each with its oldest and newest serial (none: still open). -/
structure Hold where
  tag    : Nat
  cause  : Nat
  ranges : List (Nat × Nat × Option Nat)
  since  : Nat
  trimmed : Bool
deriving DecidableEq, Repr

/-- One child that must acknowledge a cut order (R232). `kind`: 0 TU port, 1 L1 child of an L2 role, 2 L2 child of the root.
The counts of trays below it are those it has reported. -/
structure CutChild where
  kind   : Nat
  child  : Nat
  sentAt : Nat
  second : Bool
  acked  : Bool
  missing : Bool
  trays  : Nat
  late   : Nat
  absent : Nat
  resent : Nat
deriving DecidableEq, Repr

/-- What one Fyster holds of a cut: its cut-store slot and its part in the propagation (R230 to R243). -/
structure CutSlot where
  cutId   : Nat
  serial  : Nat
  tf      : Nat
  scope   : Nat
  oflags  : Nat
  group   : Nat
  gslot   : Nat
  issuer  : Bool
  /-- Raw value of CUT_ORDER. -/
  raw     : List Byte
  /-- CUT_STATUS state: 1 PENDING, 2 TAKEN, 3 COMPLETE, 4 INCOMPLETE. -/
  state   : Nat
  cflags  : Nat
  truncated : Bool
  children : List CutChild
  resends : Nat
  acked   : List Nat
  done    : List Nat
  late    : List Nat
  missing : List Nat
  digests : Tab Nat
  /-- Time at which this Fyster took the cut. -/
  takenAt : Option Nat
  /-- Bytes of the snapshot, and those not yet copied because power is awaited (R241). -/
  bytes   : Nat
  waiting : Bool
  summarised : Bool
  newEnd  : Bool
  /-- FSEQ last applied per TL port at the snapshot (R241). -/
  fseqs   : Tab Nat
deriving DecidableEq, Repr

/-- A manifest entry of a dump (R248). -/
structure DumpEntry where
  part   : Nat
  state  : Nat
  bad    : Nat
  serial : Nat
  offset : Nat
  bytes  : Nat
deriving DecidableEq, Repr

/-- A dump channel (R244 to R248). -/
structure Dump where
  state   : Nat
  serial  : Nat
  spec    : List Byte
  /-- Segments still to be copied: partition and SEG_SERIAL; partition 0xFE is the cut store. -/
  todo    : List (Nat × Nat)
  done    : List DumpEntry
  bytes   : Nat
  engines : Nat
  /-- The present segment: held when its copy began, and open then. -/
  here    : Bool
  isOpen  : Bool
  /-- The dump asked for a pin and found no hold (R246). -/
  unpinned : Bool
  abort   : Bool
deriving DecidableEq, Repr

/-- A kept answer of a session (R353). -/
structure Kept where
  seq   : Nat
  bytes : List Byte
deriving DecidableEq, Repr

/-- A session or a provisional session (R351 to R353). -/
structure Session where
  id     : Nat
  key    : Nat
  level  : Nat
  src    : BitVec 128
  port   : BitVec 16
  /-- AUTH_ACK has been sent. -/
  live   : Bool
  /-- AUTH has arrived and its PROOF is being checked: SEQ of the AUTH. -/
  proof  : Option Nat
  since  : Nat
  lastAt : Nat
  high   : Nat
  /-- SEQ values received within 64 below the highest. -/
  seen   : List Nat
  kept   : List Kept
  badTags : Nat
  /-- Times of the requests within the last second (R361). -/
  times  : List Nat
  armedAt : Option Nat
deriving DecidableEq, Repr

/-- What Fyster knows of a source address (R352, R361). -/
structure Source where
  addr   : BitVec 128
  fails  : List Nat
  locked : Option Nat
  times  : List Nat
  aborts : List Nat
deriving DecidableEq, Repr

/-- A HELLO in wait for the security block (R351). -/
structure Hello where
  src    : BitVec 128
  port   : BitVec 16
  key    : Nat
  level  : Nat
  seq    : Nat
deriving DecidableEq, Repr

/-- A block transfer (R355 to R358). -/
structure Xfer where
  id      : Nat
  session : Nat
  node    : Nat
  index   : Nat
  sub     : Nat
  write   : Bool
  total   : Nat
  crc     : Nat
  bytes   : List Byte
  /-- Write: segments received in order. Read: segments acknowledged. -/
  next    : Nat
  /-- Read: segments sent. -/
  sent    : Nat
  sinceAck : Nat
  /-- Time of the client's last message. -/
  lastAt  : Nat
  /-- Read: time of the last acknowledgement or of the last segments sent. -/
  ackAt   : Nat
  /-- SEQ of the INIT. -/
  seq     : Nat
  /-- BLK_INIT_ANS has been sent. -/
  ready   : Bool
deriving DecidableEq, Repr

/-- A subscription (R359). -/
structure Sub where
  id      : Nat
  session : Nat
  node    : Nat
  index   : Nat
  sub     : Nat
  periodic : Bool
  interval : Nat
  /-- The value as last read; none before the first read. -/
  last    : Option (List Byte)
  changes : Nat
  sentAt  : Nat
  readAt  : Nat
  dirty   : Bool
deriving DecidableEq, Repr

/-- Why an access was relayed (R354): the answer goes back to a session or sender, a mailbox, a subscription, the
discovery of a TU, or nowhere; `blkRead` and `blkWrite` belong to a transfer. -/
inductive RelayFor where
  | request (session : Nat) (src : BitVec 128) (port : BitVec 16) (seq : Nat) (mtype : Nat)
  /-- Offset of the part under way, length and CRC of the copy that is being fetched. -/
  | mailbox (ch ofs total crc : Nat)
  | subscription (id : Nat)
  /-- The first read of a subscription, and the SEQ of its SUBSCRIBE. -/
  | subscribe (id seq : Nat)
  | blkRead (xfer : Nat)
  | blkWrite (xfer : Nat) (seq : Nat)
  | blkPart (xfer : Nat)
  /-- The digest of a cut that has sent DONE (R235). -/
  | digest (cut : Nat)
  /-- A group arm or leave that an L1 writes (R276): group slot and ARM_SERIAL. -/
  | arm (g serial : Nat)
  /-- A write of TAINT_RESEND for a missing notice (R175). -/
  | resend (serial : Nat)
  | own
deriving DecidableEq, Repr

/-- An access relayed to a TU and not yet answered (R354). -/
structure Relay where
  rid    : Nat
  port   : Nat
  dkind  : Nat
  index  : Nat
  sub    : Nat
  sentAt : Nat
  why    : RelayFor
deriving DecidableEq, Repr

/-- A port image (R376, R383): FLUSH_SERIAL and trigger time of the flush that it holds, and its parts. -/
structure PortImage where
  serial  : Nat
  at64    : Nat
  parts   : Tab (List EvRec)
deriving DecidableEq, Repr

/-- The records of a port image: the newest 1,024. -/
def PortImage.recs (x : PortImage) : List EvRec :=
  let l := x.parts.flatMap (·.2)
  l.drop (l.length - 1024)

/-- A NOR flush slot (R384): none is an erased slot. -/
structure NorFlush where
  serial  : Nat
  cause   : Nat
  at64    : Nat
  sec     : Nat
  epoch   : Nat
  ownFirst : Nat
  own     : List EvRec
  ports   : Tab (List EvRec)
deriving DecidableEq, Repr

/-- A two-sector store in NOR (R365, R393): the sector in force, the values stored in each, and the store under way. -/
structure NorStore where
  inForce : Nat
  sector0 : Option (List (Nat × Nat))
  sector1 : Option (List (Nat × Nat))
  /-- The values being written, and whether this is the retry (R400). -/
  busy    : Option (List (Nat × Nat) × Bool)
  failed  : Bool
deriving DecidableEq, Repr

/-- Boot stages of R390 reached so far. -/
structure Boot where
  /-- Management cores run image A or B. -/
  running  : Bool
  failed   : Bool
  image    : Nat
  /-- Firmware images A and B in NOR verify (R390). -/
  imgA     : Bool
  imgB     : Bool
  hbm      : Bool
  /-- Last reset kind (R394). -/
  kind     : Nat
  /-- PFAIL_N has been recognised and not released (R398). -/
  pfail    : Bool
  /-- The persistent objects failed their check in both sectors (R390). -/
  persistLost : Bool
  /-- A READY state has been reported on MSI-X vector 65: last START_STATE. -/
  lastStart : Nat
deriving DecidableEq, Repr

/-- The host ring and aperture registers of BAR0 (R416, R417). -/
structure HostRing where
  base     : Nat
  size     : Nat
  wrAddr   : Nat
  rd       : Nat
  intUs    : Nat
  aperture : Nat
  count    : Nat
  /-- Count at the last vector 64. -/
  raised   : Nat
  raisedAt : Nat
  /-- Entries placed and not yet freed: kind (1 RECORDS, 3 TSF) and bytes. -/
  entries  : List (Nat × List Byte)
deriving DecidableEq, Repr

/-- One port's alive expectation of a stream (R80). -/
structure Expect where
  alive : Nat
  ts64  : Nat
deriving DecidableEq, Repr

/-- A WMK that names notices not yet in the taint list (R175): W, TAINT_SERIAL_LAST, its arrival, and UNCERTAIN_SRC. -/
structure WmkWait where
  w      : Nat
  last   : Nat
  since  : Nat
  uncertain : Bool
deriving DecidableEq, Repr

/-- Watermark and taint state of one TL port in Fyster (R175, R178, R179). -/
structure PortWmk where
  /-- W taken, and whether any has been taken since the last reset. -/
  w        : Nat
  seen     : Bool
  flags    : Nat
  /-- WMKs that wait for their taint notices, oldest first. -/
  waiting  : List WmkWait
  /-- Serials whose re-send was asked for, with the time of the request or of its acceptance. -/
  resends  : List (Nat × Nat)
  /-- Every serial up to `lastSerial` is held, and those of `listed` beyond it. -/
  listed   : List Nat
  lastSerial : Nat
  /-- Totals, and the low halves that the last WMK carried. -/
  failTotal : Nat
  failLow  : Nat
  unchecked : Nat
  uncheckedLow : Nat
  /-- RESET_SEEN since a W was taken: the last W before it (R178). -/
  gapFrom  : Option Nat
deriving DecidableEq, Repr

/-- A write of a taint-list entry that has not completed (R175, R179). `held`: held back until GW passes the entry that it
overwrites. -/
structure TaintWrite where
  g      : Nat
  port   : Nat
  serial : Nat
  held   : Bool
  r      : Rec
deriving DecidableEq, Repr

end Sys2Proof.Machine
end

