-- ==== Sys2Proof/Machine/TypesRed.lean ====
section
/-! DEFINITION. State of Fyster for reduction, Juniper and the decision unit. Floating-point values are held as their
IEEE 754 bit patterns. -/

namespace Sys2Proof.Machine

/-- An LH256 aggregate (R258); SUM, SUMSQ, MIN and MAX are FP64 bit patterns. -/
structure Agg where
  count    : Nat
  sum      : Nat
  sumsq    : Nat
  min      : Nat
  max      : Nat
  minDie   : Nat
  maxDie   : Nat
  minUnit  : Nat
  maxUnit  : Nat
  metric   : Nat
  res      : Nat
  sat      : Bool
  offset   : Int
  zeros    : Nat
  negatives : Nat
  nans     : Nat
  underflows : Nat
  overflows : Nat
  contributors : Nat
  missing  : Nat
  noData   : Nat
  stretched : Nat
  bins     : Tab Nat
deriving DecidableEq, Repr

/-- A contribution, carry, late bucket or summary: the slot header of R264 and its aggregates. -/
structure Contrib where
  inst     : Nat
  group    : Nat
  serial   : Nat
  memb     : Nat
  roleEpoch : Nat
  level    : Nat
  kind     : Nat
  hflags   : Nat
  absentTrays : Nat
  absentL2 : Nat
  expected : Nat
  covered  : Nat
  absentDies : Nat
  warmup   : Nat
  lostTrays : Nat
  first    : Nat
  aggs     : List Agg
deriving DecidableEq, Repr

/-- What a parent knows of one child of an arm (R276 to R278). `state`: 0 UNARMED, 1 ARMED, 2 PARTIAL, 3 WAIT,
4 NOT_LOCKED, 5 notified and silent, 6 waiting to be notified, 7 accepted and not yet done, 8 refused for good. -/
structure ArmChild where
  state   : Nat
  sentAt  : Nat
  resent  : Bool
  armed   : Nat
  unarmed : Nat
  traysUnarmed : Nat
  traysPartial : Nat
deriving DecidableEq, Repr

/-- A fabric write not yet completed (R265, R270): destination child role area and what it writes. -/
structure PendWrite where
  id      : Nat
  gslot   : Nat
  /-- Level of the writing role: 0 L1, 1 L2, 2 root. -/
  role    : Nat
  tray    : Nat
  base    : Nat
  c       : Contrib
  /-- Aggregates are completed and the header write is out. -/
  header  : Bool
deriving DecidableEq, Repr

/-- One role of a group on this Fyster (R12, R262, R283). `level`: 0 L1, 1 L2, 2 L3. -/
structure Role where
  level   : Nat
  standby : Bool
  /-- Holds the role now. -/
  holder  : Bool
  /-- Admitted under R273. -/
  admitted : Bool
  epoch   : Nat
  /-- Child index in the parent, and descriptor section of an L2 (or of an L1's parent). -/
  index   : Nat
  section_ : Nat
  /-- Peer tray and last heartbeat seen. -/
  peer    : Nat
  peerHb  : Nat
  seenAt  : Nat
  children : Tab ArmChild
  /-- DONE has been sent upward with these totals. -/
  doneSent : Option (Nat × Nat)
  /-- Contributions merged per open instant, with the children already merged. -/
  open_   : List (Contrib × List Nat)
  closed  : Option Nat
  /-- Late buckets and carry total (R268, R270). -/
  late    : List Contrib
  carryTotal : Option Contrib
  /-- Own contribution pending beyond its frame: the carry (R270). -/
  carry   : Option Contrib
  /-- Own contributions of the last frames, for a rewrite after a take-over (R283). -/
  sent    : List Contrib
  /-- Sequence of the watermark entries this role writes. -/
  seq     : Nat
deriving DecidableEq, Repr

/-- A group slot of Fyster (R251, R252). -/
structure Grp where
  id      : Nat
  state   : Nat
  serial  : Nat
  memb    : Nat
  /-- Copy of the descriptor in force, and of a pending change. -/
  desc    : List Byte
  next    : Option (List Byte)
  /-- Effective time of the arm or pending change; teardown time; release time. -/
  eff     : Nat
  endAt   : Option Nat
  release : Option Nat
  period  : Nat
  phase   : Nat
  roles   : List Role
  wait    : Nat
  waitSince : Nat
  partialSent : Bool
  /-- Newest accepted summary, and instants counted as missed. -/
  summary : Option Contrib
  missed  : Nat
  /-- Instants whose values have been inserted at the L1. -/
  gathered : Option Nat
  fired   : Option Nat
  /-- GW last relayed to the TUs. -/
  gw      : Nat
  taintTotal : Nat
  /-- Ports whose dies joined at a membership change, with its effective time (R178). -/
  joined  : Tab Nat
deriving DecidableEq, Repr

/-- Status of the value of a context for its instant (R256). -/
inductive ValKind where
  | missing
  | warmup
  | noData
  | stretched
  | value
deriving DecidableEq, Repr

/-- A stream context of one metric for one die (tile 255) or one tile of it (R254). -/
structure Ctx where
  kind    : ValKind
  value   : Nat
  inst    : Nat
  interval : Nat
  /-- Values of the last 16 instants that had one: instant and FP64 pattern. -/
  vals    : List (Nat × Nat)
  rank    : Option Nat
  stale   : Bool
  uncertain : Bool
  hang    : Bool
  mu      : Nat
  var     : Nat
  sp      : Nat
  sn      : Nat
  n       : Nat
deriving DecidableEq, Repr

/-- What the contexts of one die hold besides values: the records that later values are taken from (R8, R256, R290). -/
structure DieObs where
  phases  : List Rec
  longs   : List Rec
  hists   : List Rec
  losses  : List Rec
  samples : List Rec
  zoomSt  : Tab (Nat × Bool)
deriving DecidableEq, Repr

/-- A model slot (R301): state 0 EMPTY, 1 STAGING, 2 VALID, 3 INVALID; BOUND follows from its users. -/
structure MSlot where
  state   : Nat
  image   : List Byte
  error   : Nat
  /-- The image comes by STAGE_FROM. -/
  fetch   : Bool
  /-- Its bytes have gone through the digest unit (R78). -/
  fed     : Bool
deriving DecidableEq, Repr

/-- A group's model binding (R304, R305, R308). `slot` 0xFF: none. `old`: slot and serial for the instants before `eff`. -/
structure Bind where
  slot    : Nat
  serial  : Nat
  eff     : Nat
  old     : Option (Nat × Nat)
  /-- Admitted share U of the latest order accepted. -/
  shareNum : Nat
  shareDen : Nat
deriving DecidableEq, Repr

/-- A released row that waits to be scored (R288, R289). `raws`: raw inputs after their transforms, FP32. -/
structure Row where
  gslot   : Nat
  inst    : Nat
  port    : Nat
  tile    : Nat
  mslot   : Nat
  serial  : Nat
  raws    : List Nat
  lag     : Nat
  stale   : Bool
  uncertain : Bool
  unbound : Bool
deriving DecidableEq, Repr

/-- One released instant of a group while its rows are scored (R307, R308, R314). -/
structure InstRun where
  gslot   : Nat
  inst    : Nat
  mslot   : Nat
  modelId : Nat
  released : Nat
  /-- The release of the group's next instant is due then (R289). -/
  deadline : Nat
  scored  : Nat
  rejected : Nat
  skipped : Nat
  absent  : Nat
  reported : Nat
  suppressed : Nat
  rejFeature : Nat
  /-- Engine time spent, in ns, as a fraction (R308). -/
  spentNum : Nat
  spentDen : Nat
  finish  : Nat
deriving DecidableEq, Repr

/-- The latest score of a row (R315). -/
structure Score where
  inst    : Nat
  die     : Nat
  tile    : Nat
  top     : Nat
  mslot   : Nat
  sflags  : Nat
  out     : List Nat
deriving DecidableEq, Repr

/-- A row submitted on demand (R311), its transformed raw inputs, and who waits for the answer. -/
structure Demand where
  slot    : Nat
  raws    : List Nat
  since   : Nat
  why     : Option RelayFor
deriving DecidableEq, Repr

/-- A batch run (R312). -/
structure Batch where
  state   : Nat
  serial  : Nat
  spec    : List Byte
  rows    : Nat
deriving DecidableEq, Repr

/-- A watch episode of one class of one die (R324). -/
structure Episode where
  watching : Bool
  below   : Nat
  exceeds    : Nat
  underQ  : Nat
deriving DecidableEq, Repr

/-- A scored row that waits for the decisions of its instant (R319, R324). -/
structure HealthRow where
  gslot  : Nat
  inst   : Nat
  port   : Nat
  tile   : Nat
  model  : Nat
  serial : Nat
  staleRank : Bool
  out    : List Nat
deriving DecidableEq, Repr

/-- The decision unit's state of one member die of one group (R318 to R330). -/
structure DieDec where
  dstate  : Nat
  run     : Nat
  miss    : Nat
  strag   : Bool
  /-- Episodes by tile × 8 + class; tile 255 for the die. -/
  episodes : Tab Episode
  /-- The row that made the die a candidate: class, score and the row (R324). -/
  cand    : Option (Nat × Nat × HealthRow)
  /-- ESEQ of its governor request; 0: not entered. -/
  eseq    : Nat
  /-- Largest out - Q_eff of the latest die row, FP64 (R326). -/
  excess  : Option Nat
  /-- Time of the zoom trigger, Z asked for (0: none), base instants since the last trigger, and the Z whose ZOOM_STATE is
  awaited. -/
  trigger : Option Nat
  zoomed  : Nat
  quiet   : Nat
  zoomAsk : Option Nat
deriving DecidableEq, Repr

/-- A contest of one knob and subject (R333, R334). -/
structure Contest where
  key     : Nat
  periods : Nat
  first   : Nat
  total   : Nat
  emitted : Bool
deriving DecidableEq, Repr

/-- An entry of a governor request part (R331): its place, and kind 1 QUARANTINE or 2 FENCE. -/
structure GovEntry where
  slot  : Nat
  eseq  : Nat
  die   : Nat
  kind  : Nat
  cls   : Nat
  score : Nat
  ts    : Nat
deriving DecidableEq, Repr

/-- Governor state of one group (R328 to R332): at the root the window, the raise, the polls, the entries answered GRANTED
or COUNTED (tray, ESEQ, answer) and each tray's latest grants; at an L1 its request entries. -/
structure Gov where
  window  : List Nat
  rho     : Nat
  pollAt  : Nat
  /-- A standby root has rebuilt the window (R332). -/
  rebuilt : Bool
  answered : List (Nat × Nat × Nat)
  grants  : Tab (List Nat)
  eseq    : Nat
  entries : List GovEntry
  /-- Fences that wait for a free entry: DIE and time. -/
  fences  : List (Nat × Nat)
  /-- GROUP_COUNT as last answered. -/
  groupCount : Nat
deriving DecidableEq, Repr

/-- A SIGNATURE that waits for its REPLAY (R338). -/
structure SigWait where
  port    : Nat
  serial  : Nat
  r       : Rec
  since   : Nat
deriving DecidableEq, Repr

/-- Reduction (R251 to R287). -/
structure Red where
  groups  : Tab Grp
  ctx     : Tab Ctx
  /-- Contexts in the on-die cache, the latest used first (R255). -/
  cache   : List Nat
  dies    : Tab DieObs
  ledger  : List Host.Cell
  writes  : List PendWrite
  nextId  : Nat
  /-- Sequence of arm messages per receiver, entry used next, and messages waiting (R275, R279). -/
  armSeq  : Tab Nat
  armWait : List (Nat × Nat × List Byte)
  armSent : List Nat
  /-- Groups served in turn: the group slot last served. -/
  armTurn : Nat
deriving DecidableEq, Repr

/-- Juniper (R288 to R317). -/
structure Jun where
  slots   : Tab MSlot
  binds   : Tab Bind
  rows    : List Row
  runs    : List InstRun
  scores  : Tab (List Score)
  demand  : Option Demand
  batch   : Batch
  /-- Physical lane of a logical lane that a spare serves (R310); an unlisted lane is served by its own. -/
  lanes   : Tab Nat
  /-- End of the last row scored. -/
  busyUntil : Nat
deriving DecidableEq, Repr

/-- A SHADOW record without its partner (R187). -/
structure ShadowRec where
  /-- It comes from the candidate. -/
  cand    : Bool
  r       : Rec
  since   : Nat
deriving DecidableEq, Repr

/-- What one side of a pair has shown in the run: blocks, blocks with MAXQ at least 2^-4, and a FAIL or SUSPECT. -/
structure ShadowSide where
  blocks : Nat
  high   : Nat
  bad    : Bool
deriving DecidableEq, Repr

/-- Shadow state of one pair (R185 to R187). -/
structure ShadowPair where
  cand    : Nat
  partner : Nat
  running : Bool
  waiting : List ShadowRec
  candSide : ShadowSide
  partSide : ShadowSide
  compared : Nat
  mismatched : Nat
  unpaired : Nat
  result  : Nat
deriving DecidableEq, Repr

/-- Decisions (R318 to R341). -/
structure Dec where
  dies    : Tab DieDec
  /-- The tray window (R329). -/
  tray    : List Nat
  govs    : Tab Gov
  contests : List Contest
  /-- Times of the TSF records of the last second (R340). -/
  tsf     : List Nat
  /-- Scored rows that the decisions have not taken yet. -/
  health  : List HealthRow
  /-- The last taints acted on: port, TR_TAINT and serial of the CORRUPTION notice (R325, R338). -/
  taints  : List (Nat × Rec × Nat)
  sigs    : List SigWait
  replays : List (Nat × Rec)
  /-- Notices written to the notice ring of each group (R337). -/
  rings   : Tab Nat
  shadows : Tab ShadowPair
deriving DecidableEq, Repr

end Sys2Proof.Machine
end

