-- ==== Sys2Proof/Machine/TypesTu.lean ====
section
/-! DEFINITION. State of a die unit (TDU-2): counters and sampler, phase tracker, trace encoders, last-events rings,
Mace, budgets, arbiter, shaper, Sumac and cut logic. -/

namespace Sys2Proof.Machine

/-- One event counter with its second bank and staging entry (R89 to R101). -/
structure Cnt where
  /-- SOURCE of the selection word (R91). -/
  source  : Nat
  percmd  : Bool
  /-- Value and SAT of the active bank, or of the only register. -/
  val     : Nat
  sat     : Bool
  /-- Value and SAT of the other bank (R98). -/
  other   : Nat
  otherSat : Bool
  /-- Latest condition level of a nanosecond source, and the time up to which it has been counted (R90, R434). -/
  level   : Bool
  levelAt : Nat
  /-- Resets of this counter so far: a baseline that names an older count sees state RESET (R97). -/
  resets  : Nat
  /-- Time of the latest bank swap in 2^-16 ns (R99). -/
  swapAt  : Option Nat
  /-- Staging entry: value, and whether it has saturated (R100, R129). -/
  staged  : Option (Nat × Bool)
  /-- The last grid instant at which the counter was latched, or 0 (R96). -/
  latched : Nat
deriving DecidableEq, Repr

/-- What a DISPATCH event names (R119, R162). -/
structure DescId where
  graph  : Nat
  ver    : Nat
  node   : Nat
  launch : Nat
deriving DecidableEq, Repr

/-- Descriptors of one unit: tile 0 to 71 or the command processor (index 72). -/
structure UnitDesc where
  /-- Bank tag of the latest descriptor-start marker: the active bank (R98). -/
  bank    : Bool
  /-- Dispatched, start marker not yet seen, oldest first. -/
  waiting : List DescId
  /-- The descriptor that runs, with the stamp of its start marker and its bank tag. -/
  cur     : Option (DescId × Nat × Bool)
  /-- The descriptor before it, with its bank tag (R162). -/
  prev    : Option (DescId × Bool)
  /-- The descriptor whose counts are staged: identity and start stamp (R129). -/
  retired : Option (DescId × Nat)
  /-- Markers that named the active bank since the last swap (R101). -/
  missed  : Nat
  /-- Launches of descriptors that have run on the unit since the last LAUNCH_END offer (R130). -/
  launches : List Nat
  /-- MERGED of the staged values and the time of the swap that retired them (R129). -/
  merged  : Nat
  swapTs  : Nat
deriving DecidableEq, Repr

/-- A set's baseline for one counter (R106). -/
structure Base where
  val    : Nat
  resets : Nat
deriving DecidableEq, Repr

/-- A sample set (R103 to R113). -/
structure SampleSet where
  enable  : Bool
  follow  : Bool
  gslot   : Nat
  period  : Nat
  phase   : Nat
  list    : List Nat
  base    : Tab Base
  /-- The next sample carries FIRST (R104). -/
  first   : Bool
  /-- TS64 of the baseline record. -/
  prevTs  : Nat
  /-- The loop's zoom request (R113). -/
  loopZ   : Nat
  pin     : Bool
  pinZ    : Nat
  /-- Z in force; 0 none. -/
  zoom    : Nat
  /-- A time step or grid change lies in the present interval (R107). -/
  step    : Bool
  /-- Last instant fired, in ns (R49). -/
  fired   : Option Nat
deriving DecidableEq, Repr

/-- The entry of one phase code within a slot (R122, R128). -/
structure PhEntry where
  code    : Nat
  count   : Nat
  busy    : Nat
  start   : Option Nat
  ended   : Option Nat
  noStart : Bool
  /-- A BEGIN is unmatched, since this time. -/
  isOpen  : Bool
  since   : Nat
deriving DecidableEq, Repr

/-- An open phase slot (R117). -/
structure PhSlot where
  launch  : Nat
  tag     : Nat
  size    : Nat
  unit    : Nat
  node    : Nat
  graph   : Nat
  ver     : Nat
  nameKey : Nat
  /-- PFLAGS of R127 known so far. -/
  flags   : Nat
  opened  : Nat
  /-- Next threshold crossing, as a multiple of L (R125). -/
  mult    : Nat
  emitN   : Nat
  lastCode : Nat
  entries : List PhEntry
deriving DecidableEq, Repr

/-- A launch bound to a graph version (R132). `flags`: NAMES_EVICTED or NAMES_ABSENT for all its records, or 0. -/
structure Binding where
  launch     : Nat
  graph      : Nat
  ver        : Nat
  persistent : Bool
  flags      : Nat
  /-- LAUNCH_ORDINAL of a shadow run (R185). -/
  ordinal    : Nat
deriving DecidableEq, Repr

/-- A live name table (R133). `age`: order of loading. -/
structure NameTab where
  graph : Nat
  ver   : Nat
  age   : Nat
  names : List (Nat × Nat)
deriving DecidableEq, Repr

/-- Lost trace packets that wait for their OVERFLOW (R142, R147). -/
structure TrLoss where
  cause : Nat
  bytes : Nat
  first : Nat
  last  : Nat
deriving DecidableEq, Repr

/-- The open TR_TRACE record of an encoder (R146). -/
structure TrOpen where
  /-- Time in ns of the event of the first packet, of the last packet, and when the record was opened. -/
  first   : Nat
  last    : Nat
  opened  : Nat
  mode    : Nat
  ofs     : Nat
  syncOfs : Nat
  bytes   : List Byte
deriving DecidableEq, Repr

/-- A trace encoder (R139 to R149, R448). -/
structure Enc where
  /-- TRACE_MODE as written, and MODE_IN_FORCE. -/
  mode      : Nat
  inForce   : Nat
  tsInt     : Nat
  /-- The next address; none: unknown (R448). -/
  addr      : Option Nat
  /-- Pending branch outcomes, oldest first. -/
  outcomes  : List Bool
  /-- Delta bases (R143 to R145). -/
  ibase     : Nat
  tbase     : Nat
  /-- A SYNC in wait: its REASON. -/
  due       : Option Nat
  /-- Bytes written since the first byte of the last SYNC. -/
  sinceSync : Nat
  /-- TRACE_BYTES: everything encoded since reset. -/
  total     : Nat
  cur       : Option TrOpen
  /-- Closed records of this source still being written to die memory (assembly buffers, R147). -/
  writing   : Nat
  lost      : Option TrLoss
  /-- Powered down: STATE, and whether a PWR_DOWN has been written. -/
  down      : Option (Nat × Bool)
  /-- Context of the last SYNC: graph, version, launch (R143). -/
  ctx       : Option (Nat × Nat × Nat)
deriving DecidableEq, Repr

/-- A record in the trace window (R147): its window count, source, time of its last packet, and its encoded form. -/
structure WinRec where
  pos  : Nat
  src  : Nat
  last : Nat
  r    : Rec
deriving DecidableEq, Repr

/-- One outstanding or waiting 64-byte write of the NoC master (R439). -/
structure NocWr where
  src  : Nat
  ofs  : Nat
  sent : Option Nat
  /-- Last write of its record: its answer frees the assembly buffer. -/
  last : Bool
deriving DecidableEq, Repr

/-- The trace window (R147). -/
structure Window where
  base     : Nat
  size     : Nat
  writePtr : Nat
  drainPtr : Nat
  error    : Bool
  recs     : List WinRec
  noc      : List NocWr
deriving DecidableEq, Repr

/-- A last-events ring (R151, R152): entries of 128 bits, oldest first. -/
structure Ring where
  ents : List (BitVec 128)
  /-- Time of the last entry in 2^-16 ns. -/
  lastWr : Option Nat
  gap  : Bool
  gaps : Nat
  post : Nat
deriving DecidableEq, Repr

/-- The freeze of the rings (R154 to R157). -/
structure Freeze where
  /-- Cause and F while frozen. -/
  frozen   : Option (Nat × Nat)
  /-- Rings still to be read out, each with the offers made (R157). -/
  readout  : List (Nat × Nat)
  /-- Dispatched descriptors without COMPLETION (R154), and time of the last COMPLETION, dispatch into an idle die, or
  resume, whichever is later. -/
  awaiting : Nat
  progress : Nat
deriving DecidableEq, Repr

/-- A check record inside Mace (R159 to R165). -/
structure Chk where
  tile  : Nat
  tc    : Nat
  words : List Word
  desc  : Option DescId
  /-- LAUNCH_ORDINAL at arrival (R185). -/
  ordinal : Nat
  /-- Arrived at or below the published W (R174). -/
  lateChk : Bool
  gated   : Bool
deriving DecidableEq, Repr

/-- A compare lane (R165, R166). -/
structure MLane where
  inService : Bool
  retired   : Bool
  held      : Option Chk
deriving DecidableEq, Repr

/-- The fields of a taint notice (R170). -/
structure Taint where
  kind     : Nat
  cause    : Nat
  tile     : Nat
  foldR    : Nat
  foldC    : Nat
  tflags   : Nat
  blockSeq : Nat
  desc     : DescId
  gslot    : Nat
  tc       : Nat
  verdict  : Nat
  egFirst  : Nat
  egLast   : Nat
  ports    : Nat
  fmt      : Nat
  serial   : Nat
  residR   : Nat
  tolR     : Nat
  residC   : Nat
  tolC     : Nat
  brow     : Nat
  bcol     : Nat
  k        : Nat
  lastSeq  : Nat
  nblocks  : Nat
  lastTc   : Nat
deriving DecidableEq, Repr

/-- FAILs of one tile that found the taint queue full (R172): the notice so far, its blocks, and the last verdict. -/
structure RangeAcc where
  tile : Nat
  t    : Taint
  seqs : List Nat
  last : Nat
deriving DecidableEq, Repr

/-- A window still open for a FINAL (R171): the notice as offered and the due time. -/
structure OpenWin where
  t    : Taint
  due  : Nat
deriving DecidableEq, Repr

/-- Egress of one block of a tile (R171): first TX_BEGIN, last TX_END, begins minus ends, port mask. -/
structure Egress where
  tile  : Nat
  seq   : Nat
  first : Option Nat
  last  : Option Nat
  open_ : Nat
  ports : Nat
deriving DecidableEq, Repr

/-- Residual statistics of one tile (R168); sums are FP64. -/
structure Hist where
  blocks    : Nat
  fails     : Nat
  suspects  : Nat
  nonfinite : Nat
  unchecked : Nat
  sumSigned : BitVec 64
  sumSq     : BitVec 64
  bins      : Tab Nat
deriving DecidableEq, Repr

/-- A replay request (R182, R183): verdict (true: PASS) and largest q of each replay that has arrived. -/
structure Replay where
  ref    : Nat
  tile   : Nat
  mode   : Nat
  /-- Accepted by firmware; before that the request waits for its acknowledgement. -/
  accepted : Bool
  seq    : Nat
  launch : Nat
  serial : Nat
  gslot  : Nat
  at64   : Nat
  spare  : Option (Nat × Bool × Nat)
  origin : Option (Bool × Nat)
deriving DecidableEq, Repr

/-- Mace (R159 to R187). -/
structure Mace where
  intake    : List Chk
  lanes     : Tab MLane
  lastSeq   : Tab Nat
  /-- FAILs whose notice is not admitted (R174): serial of the notice, 0 before it has one, tile and T_c. -/
  failHeld  : List (Nat × Nat × Nat)
  queue     : List Taint
  ranges    : List RangeAcc
  windows   : List OpenWin
  serial    : Nat
  history   : List Rec
  egress    : List Egress
  w         : Nat
  wmkSeq    : Nat
  /-- RESET_SEEN goes into the next WMK (R178). -/
  resetSeen : Bool
  hist      : Tab Hist
  replays   : List Replay
  nextRef   : Nat
  /-- Launches of each graph since SHADOW_ENABLE (R185). -/
  ordinals  : Tab Nat
deriving DecidableEq, Repr

/-- A record in an export queue, with the activity it was last charged to (R200). -/
structure QRec where
  r   : Rec
  act : Nat
deriving DecidableEq, Repr

/-- A unit on the export path (R197): one record, or one Sumac fragment. -/
inductive ExUnit where
  | record (q : QRec)
  | fragment (payload : List Word) (first last : Bool)
deriving DecidableEq, Repr

/-- A built frame of one class (R203). -/
structure Built where
  payload : List Word
  records : Nat
  sumac   : Bool
  first   : Bool
  last    : Bool
deriving DecidableEq, Repr

/-- The frame builder and queue of one class (R203); credit in bytes × 1,000 so that every slope is exact per ns. -/
structure Shaper where
  build    : List Rec
  built    : List Built
  credit   : Int
  accrued  : Nat
deriving DecidableEq, Repr

/-- The grant in use (R198, R200). -/
structure Grant where
  req   : Nat
  since : Nat
  unit  : ExUnit
deriving DecidableEq, Repr

/-- A gate list in force (R206, R207). `start`: the instant from which its cycles count. -/
structure GateList where
  cycle   : Nat
  phase   : Nat
  entries : List (Nat × Nat)
  entry   : Nat
  raw     : List Byte
deriving DecidableEq, Repr

/-- Budgets, arbiter and shaper (R190 to R207). -/
structure Export where
  used     : Tab Nat
  taintUsed : Nat
  /-- speed_ratio per activity in 2^-16 (R192). -/
  ratios   : Tab Nat
  /-- Budgets in force in the present period (R193); unlisted: the default. -/
  budget   : Tab Nat
  /-- Activities that have dropped for BUDGET in this period (R214). -/
  full     : List Nat
  queues   : Tab (List QRec)
  /-- Readout chains in wait for Sumac (R157, R197). -/
  readout  : List QRec
  credit   : Tab Int
  /-- Window starts passed while requesting; a requester not listed is not requesting (R199). -/
  waiting  : Tab Nat
  grant    : Option Grant
  /-- The debug port holds the path, with the grant it interrupted (R201). -/
  dbgPort  : Option (Option Grant)
  shapers  : Tab Shaper
  gate     : Option GateList
deriving DecidableEq, Repr

/-- The TU's Sumac (R223 to R228). -/
structure SumacTu where
  /-- Records of the open block, and the time of its first byte. -/
  block    : List QRec
  opened   : Nat
  /-- Closed blocks, oldest first, that have not been released; then fragments released and not yet sent. -/
  closed   : List (List QRec)
  frags    : List (List Word × Bool × Bool)
  /-- Records of the blocks whose fragments are being sent, oldest first. -/
  sending  : List (List QRec)
  bseq     : Nat
  /-- Times of the FALLBACK blocks of the last second. -/
  fallbacks : List Nat
deriving DecidableEq, Repr

/-- A latch set of a cut while its contents are being sent (R234, R235). `todo`: records still to be sent. -/
structure CutSet where
  cutId   : Nat
  tf      : Nat
  taken   : Nat
  gslot   : Nat
  cflags  : Nat
  todo    : List Rec
  sent    : Nat
  bytes   : Nat
  /-- Records of ring chains among the contents; they are sent first. -/
  chains  : Nat
  ringsId : Nat
  /-- This cut froze the rings: they resume after DONE. -/
  resume  : Bool
deriving DecidableEq, Repr

/-- A group slot of a TU (R252, R280). -/
structure TGroup where
  /-- 0 RELEASED, 1 PENDING, 3 ARMED, 5 DRAINING. -/
  state   : Nat
  id      : Nat
  serial  : Nat
  eff     : Nat
  period  : Nat
  phase   : Nat
  release : Nat
  /-- LEAVE accepted: effective time. -/
  leave   : Option Nat
  /-- Last instant fired (R49). -/
  fired   : Option Nat
deriving DecidableEq, Repr

/-- A die unit. -/
structure Tu where
  part     : Part
  link     : Link
  /-- The always-on domain is up. -/
  powered  : Bool
  discovered : Bool
  die      : Nat
  /-- 1 POWER_ON, 2 RESET_IN, 3 REQUEST, 4 INTERNAL (R404). -/
  lastReset : Nat
  /-- An internal fault waits for the end of the flush (R395): the TU resets then. -/
  faultReset : Bool
  -- time transfer (R37 to R39)
  treq     : Option (Nat × Nat)
  treqSeq  : Nat
  mpds     : List Int
  bad      : Nat
  asym     : Int
  asymNew  : Option Int
  fyServo  : Nat
  fyHold   : Nat
  fyProfile : Nat
  restartSeen : Bool
  -- counters and sampler
  cnts     : Tab Cnt
  spares   : Tab Nat
  /-- BANK of the latest CP_INC beat (R435). -/
  cpBank   : Bool
  /-- Resets of all counters at once (R97). -/
  cntEpoch : Nat
  sets     : Tab SampleSet
  units    : Tab UnitDesc
  -- phases
  slots    : Tab (Option PhSlot)
  binds    : List Binding
  names    : List NameTab
  newest   : List (Nat × Nat)
  -- trace and rings
  encs     : Tab Enc
  win      : Window
  rings    : Tab Ring
  frz      : Freeze
  dpcDown  : List Nat
  -- Mace, export
  mace     : Mace
  exp      : Export
  sumac    : SumacTu
  cuts     : List CutSet
  cutsPending : List Nat
  groups   : Tab TGroup
  -- dictionary relay
  staging  : List Host.Cell
  dcopy    : Option Copy
  /-- Outputs put on the TU's ports, newest first (the model's own field). -/
  out      : List Out
  /-- Numbers the free values of this TU (the model's own field). -/
  fresh    : Nat
deriving DecidableEq, Repr

end Sys2Proof.Machine
end

