-- ==== Sys2Proof/Machine/State.lean ====
section
/-! DEFINITION. The state of a tray: one Fyster, the 32 TUs (a TU that is not listed is as after its power-on) and the
queue of waiting commands; the reasons of a stop; the state after reset. -/

namespace Sys2Proof.Machine

/-- Fyster. -/
structure Fyster where
  part     : Part
  links    : Tab Link
  /-- Records for a TU that wait for its link or for replay room, oldest first. -/
  toTu     : Tab (List Rec)
  ptp      : Tab PtpPort
  expect   : Tab Expect
  ring     : Tab Partition
  holds    : Tab Hold
  cuts     : Tab CutSlot
  dumps    : Tab Dump
  hellos   : List Hello
  sessions : List Session
  sources  : List Source
  xfers    : List Xfer
  subs     : List Sub
  relays   : List Relay
  nextSession : Nat
  nextXfer : Nat
  nextSub  : Nat
  nextRid  : Nat
  /-- Calibration: CAL_ARM is spent by one write (the arm is kept in the session); NOR sectors of R365 and R393. -/
  calNor   : NorStore
  objNor   : NorStore
  flushNor : Tab NorFlush
  /-- Flush slots that hold a flush cut off before its header (R384): neither erased nor valid. -/
  norTorn  : List Nat
  /-- A flush that writes into this NOR slot (R383). -/
  norSlot  : Option Nat
  /-- A reset waits for the end of the flush (R394): its kind. -/
  resetAfter : Option Nat
  boot     : Boot
  host     : HostRing
  /-- NODE_STATE of each TL port (R362). -/
  nodes    : Tab Nat
  images   : Tab PortImage
  wmk      : Tab PortWmk
  /-- Taint-list entries of the tray (R179): the last 16 as written, the count written, and the writes outstanding. -/
  taints   : Tab (List Rec)
  taintCount : Tab Nat
  taintWrites : List TaintWrite
  /-- RESET_EPOCH (R222), kept in NOR. -/
  resetEpoch : Nat
  thermal  : Bool
  red      : Red
  jun      : Jun
  dec      : Dec
  /-- Outputs put on Fyster's ports, newest first (the model's own field). -/
  out      : List Out
  /-- Numbers the free values of Fyster (the model's own field). -/
  fresh    : Nat
deriving DecidableEq, Repr

/-- The tray with its queue. -/
structure State where
  fy      : Fyster
  tus     : Tab Tu
  pending : List Instr
deriving DecidableEq, Repr

/-- Reasons of a fault. No command of the spec ends in one: the constructor stands for an outcome that no meaning raises
(safe). -/
inductive Fault where
  | none
deriving DecidableEq, Repr

/-- Reasons of a refusal. -/
inductive Refusal where
  /-- A command that has no meaning yet, by its mnemonic; raised by the dispatch alone (safe). -/
  | notModelled (mnemonic : String)
deriving DecidableEq, Repr

/-- A time unit after reset: FREE_RUN at time 0 (R50). -/
def TimeUnit.reset : TimeUnit where
  now := 0
  servo := .freeRun
  everLocked := false
  inLock := 0
  outLock := 0
  lockedAt := 0
  holdAt := none
  stepEpoch := 0
  pendingSerial := 0
  pending2 := 0
  authorised := false
  offset2 := 0
  freqAdj := 0
  gm := 0

/-- An empty recorder numbered from 0 (R376). -/
def Recorder.reset : Recorder where
  log := []
  firstNo := 0
  total := 0
  mergeable := false
  grown := false
  offeredAt := 0
  flush := none
  flushSerial := 0
  frozen := false

/-- A part after reset: every object at its default, nothing pending. -/
def Part.reset : Part where
  time := .reset
  evr := .reset
  obj := []
  dom := []
  chans := []
  alive := []
  lossy := []
  loss := []
  pwr := []
  orders := []
  held := []
  crc := []
  wear := []
  swapQ := []
  recov := []

/-- A link end after reset: down, FSEQ 0, RESTART due at the next training (R74, R405). -/
def Link.reset : Link where
  st := .down
  txFseq := 0
  rxFseq := 0
  replay := []
  nakSent := false
  ackDue := false
  nakDue := false
  restart := true
  lastTx := 0
  lastRx := 0
  laneMap := 0x04
  partnerMap := 0x00
  skew := none
  retired := []
  failedAt := none
  swapSince := none
  violTotal := 0
  violSupp := 0
  violAt := none

/-- Mace after reset (R166, R178, R188). -/
def Mace.reset : Mace where
  intake := []
  lanes := []
  lastSeq := []
  failHeld := []
  queue := []
  ranges := []
  windows := []
  serial := 0
  history := []
  egress := []
  w := 0
  wmkSeq := 0
  resetSeen := true
  hist := []
  replays := []
  nextRef := 0
  ordinals := []

/-- Budgets, arbiter and shaper after reset (R213). -/
def Export.reset : Export where
  used := []
  taintUsed := 0
  ratios := []
  budget := []
  full := []
  queues := []
  readout := []
  credit := []
  waiting := []
  grant := none
  dbgPort := none
  shapers := []
  gate := none

/-- A TU after its power-on, before any start-up step (R395). -/
def Tu.reset : Tu where
  part := .reset
  link := .reset
  powered := false
  discovered := false
  die := 0xFFFFFFFF
  lastReset := 1
  faultReset := false
  treq := none
  treqSeq := 0
  mpds := []
  bad := 0
  asym := 0
  asymNew := none
  fyServo := 0
  fyHold := 0
  fyProfile := 0
  restartSeen := false
  cnts := []
  spares := []
  cpBank := false
  cntEpoch := 0
  sets := []
  units := []
  slots := []
  binds := []
  names := []
  newest := []
  encs := []
  win := { base := 0, size := 1073741824, writePtr := 0, drainPtr := 0, error := false, recs := [], noc := [] }
  rings := []
  frz := { frozen := none, readout := [], awaiting := 0, progress := 0 }
  dpcDown := []
  mace := .reset
  exp := .reset
  sumac := { block := [], opened := 0, closed := [], frags := [], sending := [], bseq := 0, fallbacks := [] }
  cuts := []
  cutsPending := []
  groups := []
  staging := []
  dcopy := none
  out := []
  fresh := 0

/-- Reduction after a Fyster reset. -/
def Red.reset : Red where
  groups := []
  ctx := []
  cache := []
  dies := []
  ledger := []
  writes := []
  nextId := 0
  armSeq := []
  armWait := []
  armSent := []
  armTurn := 0

/-- Juniper after a Fyster reset (R316). -/
def Jun.reset : Jun where
  slots := []
  binds := []
  rows := []
  runs := []
  scores := []
  demand := none
  batch := { state := 0, serial := 0, spec := [], rows := 0 }
  lanes := []
  busyUntil := 0

/-- The decision unit after a Fyster reset. -/
def Dec.reset : Dec where
  dies := []
  tray := []
  govs := []
  contests := []
  tsf := []
  health := []
  taints := []
  sigs := []
  replays := []
  rings := []
  shadows := []

/-- A NOR store that has never been written: sector 0 in force with nothing in it. -/
def NorStore.reset : NorStore where
  inForce := 0
  sector0 := none
  sector1 := none
  busy := none
  failed := false

/-- Fyster at power-on, before any start-up step (R390, R394). -/
def Fyster.reset : Fyster where
  part := .reset
  links := []
  toTu := []
  ptp := []
  expect := []
  ring := []
  holds := []
  cuts := []
  dumps := []
  hellos := []
  sessions := []
  sources := []
  xfers := []
  subs := []
  relays := []
  nextSession := 1
  nextXfer := 1
  nextSub := 1
  nextRid := 0
  calNor := .reset
  objNor := .reset
  flushNor := []
  norTorn := []
  norSlot := none
  resetAfter := none
  boot := { running := false, failed := false, image := 0, imgA := true, imgB := true, hbm := false, kind := 1, pfail := false,
            persistLost := false, lastStart := 0 }
  host := { base := 0, size := 0, wrAddr := 0, rd := 0, intUs := 100, aperture := 0, count := 0, raised := 0,
            raisedAt := 0, entries := [] }
  nodes := []
  images := []
  wmk := []
  taints := []
  taintCount := []
  taintWrites := []
  resetEpoch := 0
  thermal := false
  red := .reset
  jun := .reset
  dec := .reset
  out := []
  fresh := 0

/-- The tray right after reset: Fyster and every TU at POWER_ON, no command waiting. -/
def State.reset : State where
  fy := .reset
  tus := []
  pending := []

end Sys2Proof.Machine
end

