-- ==== Sys2Proof/Machine/Objects.lean ====
section
/-! DEFINITION. The object dictionary as a table (R347, R348): one row per run of objects with one meaning. -/

namespace Sys2Proof.Machine

/-- A run of objects: who serves it (1 Fyster, 2 TU, 3 both), first index and number of indices, subindices, type code of
R347 (13: a signed 16-bit value, which R347 gives no code), access (0 RO, 1 RW, 2 WO, 3 CONST), level to write (0 observe,
1 operate, 2 service), default, range stated for the value, and whether a value outside it is a reserved code. -/
structure ObjRow where
  nodes : Nat
  base  : Nat
  count : Nat
  subLo : Nat
  subHi : Nat
  type  : Nat
  acc   : Nat
  level : Nat
  dflt  : Nat
  range : Option (Int × Int)
  code  : Bool
deriving DecidableEq, Repr

/-- Objects 0x1000 to 0x1101. -/
def objRows0 : List ObjRow := [
  ⟨3, 0x1000, 1, 0x01, 0x01, 11, 3, 0, 0, none, false⟩, -- VENDOR
  ⟨3, 0x1000, 1, 0x02, 0x02, 11, 3, 0, 0, none, false⟩, -- PART
  ⟨3, 0x1000, 1, 0x03, 0x03, 11, 3, 0, 0, none, false⟩, -- STEPPING
  ⟨3, 0x1000, 1, 0x04, 0x04, 12, 3, 0, 0, none, false⟩, -- HW_ID
  ⟨3, 0x1000, 1, 0x05, 0x05, 4, 0, 0, 0, none, false⟩, -- FW_VERSION
  ⟨3, 0x1000, 1, 0x06, 0x06, 3, 3, 0, 1, none, false⟩, -- DICT_VERSION
  ⟨3, 0x1000, 1, 0x07, 0x07, 5, 3, 0, 0, none, false⟩, -- CAPABILITIES
  ⟨3, 0x1000, 1, 0x08, 0x08, 2, 0, 0, 0, none, false⟩, -- NODE_ID
  ⟨1, 0x1001, 1, 0x01, 0x01, 3, 1, 2, 65535, none, false⟩, -- TRAY_INDEX
  ⟨2, 0x1001, 1, 0x02, 0x02, 4, 0, 0, 4294967295, none, false⟩, -- DIE_ID
  ⟨1, 0x1010, 1, 0x01, 0x20, 4, 1, 2, 4294967295, none, false⟩, -- PORT_DIE_ID
  ⟨1, 0x1020, 1, 0x01, 0x20, 2, 0, 0, 0, none, false⟩, -- NODE_STATE
  ⟨1, 0x1030, 1, 0x01, 0x01, 2, 0, 0, 0, none, false⟩, -- START_STATE
  ⟨1, 0x1030, 1, 0x02, 0x02, 2, 2, 2, 0, some (1, 2), true⟩, -- RESET_REQUEST
  ⟨1, 0x1030, 1, 0x03, 0x03, 2, 0, 0, 0, none, false⟩, -- LAST_RESET_KIND
  ⟨1, 0x1030, 1, 0x04, 0x04, 3, 1, 2, 1000, some (100, 10000), false⟩, -- FW_WDT_MS
  ⟨1, 0x1030, 1, 0x05, 0x05, 2, 0, 0, 0, none, false⟩, -- FW_IMAGE
  ⟨1, 0x1030, 1, 0x06, 0x06, 12, 0, 0, 0, none, false⟩, -- RECOVERY_STATE
  ⟨1, 0x1030, 1, 0x07, 0x07, 4, 0, 0, 0, none, false⟩, -- DISCOVERY_PENDING
  ⟨1, 0x1030, 1, 0x08, 0x08, 4, 0, 0, 0, none, false⟩, -- PFAIL_GLITCHES
  ⟨1, 0x1100, 1, 0x01, 0x01, 3, 1, 2, 48400, some (1024, 65535), false⟩, -- TDP_UDP_PORT
  ⟨1, 0x1100, 1, 0x02, 0x02, 3, 1, 1, 60, some (10, 3600), false⟩, -- SESSION_IDLE_S
  ⟨1, 0x1100, 1, 0x03, 0x03, 4, 1, 2, 1000, some (10, 100000), false⟩, -- SESSIONLESS_RATE
  ⟨1, 0x1100, 1, 0x04, 0x04, 4, 1, 2, 10000, some (100, 1000000), false⟩, -- SESSION_RATE
  ⟨1, 0x1100, 1, 0x05, 0x05, 2, 1, 2, 8, some (1, 64), false⟩, -- AUTH_FAIL_LIMIT
  ⟨1, 0x1100, 1, 0x06, 0x06, 3, 1, 2, 60, some (1, 3600), false⟩, -- AUTH_LOCKOUT_S
  ⟨1, 0x1100, 1, 0x07, 0x07, 3, 1, 2, 100, some (1, 10000), false⟩, -- ABORT_RATE
  ⟨1, 0x1101, 1, 0x01, 0x01, 2, 0, 0, 0, none, false⟩, -- SESSIONS_OPEN
  ⟨1, 0x1101, 1, 0x02, 0x02, 5, 0, 0, 0, none, false⟩, -- REQUESTS
  ⟨1, 0x1101, 1, 0x03, 0x03, 5, 0, 0, 0, none, false⟩, -- ABORTS_SENT
  ⟨1, 0x1101, 1, 0x04, 0x04, 5, 0, 0, 0, none, false⟩, -- ABORTS_SUPPRESSED
  ⟨1, 0x1101, 1, 0x05, 0x05, 5, 0, 0, 0, none, false⟩, -- MALFORMED
  ⟨1, 0x1101, 1, 0x06, 0x06, 5, 0, 0, 0, none, false⟩, -- AUTH_FAILURES
  ⟨1, 0x1101, 1, 0x07, 0x07, 5, 0, 0, 0, none, false⟩, -- REPEATS
  ⟨1, 0x1101, 1, 0x08, 0x08, 5, 0, 0, 0, none, false⟩] -- NOTIFY_SENT

/-- Objects 0x1102 to 0x1171. -/
def objRows1 : List ObjRow := [
  ⟨1, 0x1102, 1, 0x01, 0x01, 12, 0, 0, 0, none, false⟩, -- SESSION_TABLE
  ⟨1, 0x1110, 2, 0x01, 0x01, 5, 3, 0, 0, none, false⟩, -- ETH_ADDR
  ⟨1, 0x1110, 2, 0x02, 0x02, 4, 1, 2, 0, none, false⟩, -- IPV4_ADDR
  ⟨1, 0x1110, 2, 0x03, 0x03, 2, 1, 2, 24, some (1, 32), false⟩, -- IPV4_PREFIX
  ⟨1, 0x1110, 2, 0x04, 0x04, 12, 1, 2, 0, none, false⟩, -- IPV6_ADDR
  ⟨1, 0x1110, 2, 0x05, 0x05, 2, 1, 2, 64, some (1, 128), false⟩, -- IPV6_PREFIX
  ⟨1, 0x1110, 2, 0x06, 0x06, 12, 1, 2, 0, none, false⟩, -- GATEWAY
  ⟨1, 0x1110, 2, 0x07, 0x07, 1, 0, 0, 0, none, false⟩, -- LINK_UP
  ⟨1, 0x1110, 2, 0x08, 0x08, 2, 1, 2, 2, some (0, 2), true⟩, -- FEC_MODE
  ⟨1, 0x1110, 2, 0x09, 0x09, 3, 1, 2, 1500, some (1500, 9216), false⟩, -- MTU
  ⟨1, 0x1110, 2, 0x0a, 0x0a, 3, 1, 2, 0, some (0, 4094), false⟩, -- VLAN_ID
  ⟨1, 0x1140, 32, 0x01, 0x01, 5, 0, 0, 0, none, false⟩, -- FRAMES_OK
  ⟨1, 0x1140, 32, 0x02, 0x02, 5, 0, 0, 0, none, false⟩, -- CRC_FAIL
  ⟨1, 0x1140, 32, 0x03, 0x03, 5, 0, 0, 0, none, false⟩, -- DUP_FRAMES
  ⟨1, 0x1140, 32, 0x04, 0x04, 5, 0, 0, 0, none, false⟩, -- REPLAYED_TX
  ⟨1, 0x1140, 32, 0x05, 0x05, 5, 0, 0, 0, none, false⟩, -- LOSS_TRANSPORT
  ⟨1, 0x1140, 32, 0x06, 0x06, 5, 0, 0, 0, none, false⟩, -- REPEATS
  ⟨1, 0x1140, 32, 0x07, 0x07, 5, 0, 0, 0, none, false⟩, -- LOSS_PARITY
  ⟨1, 0x1140, 32, 0x08, 0x08, 5, 0, 0, 0, none, false⟩, -- MALFORMED
  ⟨1, 0x1140, 32, 0x09, 0x09, 5, 0, 0, 0, none, false⟩, -- VIOLATIONS_TX
  ⟨1, 0x1140, 32, 0x0a, 0x0a, 5, 0, 0, 0, none, false⟩, -- RETRAINS
  ⟨1, 0x1160, 1, 0x01, 0x01, 4, 1, 1, 100, some (10, 10000), false⟩, -- LOSS_REPORT_INTERVAL_US
  ⟨1, 0x1160, 1, 0x02, 0x02, 5, 0, 0, 0, none, false⟩, -- PAYLOAD_SKIPS
  ⟨1, 0x1170, 1, 0x01, 0x01, 2, 0, 0, 0, none, false⟩, -- FABRIC_PORTS_UP
  ⟨1, 0x1170, 1, 0x02, 0x02, 5, 1, 2, 0, none, false⟩, -- MBOX_FABRIC_BASE
  ⟨1, 0x1170, 1, 0x03, 0x03, 5, 0, 0, 0, none, false⟩, -- FABRIC_REFUSED
  ⟨1, 0x1171, 1, 0x01, 0x01, 4, 3, 0, 0, none, false⟩, -- PCI_IDS
  ⟨1, 0x1171, 1, 0x02, 0x02, 3, 0, 0, 0, none, false⟩, -- PCIE_LINK
  ⟨1, 0x1171, 1, 0x03, 0x03, 5, 0, 0, 0, none, false⟩, -- HOST_RING_DROPS
  ⟨1, 0x1171, 1, 0x04, 0x04, 12, 0, 0, 0, none, false⟩] -- HBM_MAP

/-- Objects 0x1172 to 0x1220. -/
def objRows2 : List ObjRow := [
  ⟨1, 0x1172, 1, 0x01, 0x01, 2, 0, 0, 0, none, false⟩, -- XSPI_MODE
  ⟨1, 0x1172, 1, 0x02, 0x02, 3, 0, 0, 50, none, false⟩, -- XSPI_CLK_MHZ
  ⟨1, 0x1173, 1, 0x01, 0x01, 1, 1, 1, 0, none, false⟩, -- PPS_OUT_ENABLE
  ⟨1, 0x1173, 1, 0x02, 0x03, 13, 0, 0, 0, none, false⟩, -- TJ_MAX
  ⟨1, 0x1180, 32, 0x01, 0x01, 2, 0, 0, 0, none, false⟩, -- TL_STATE
  ⟨1, 0x1180, 32, 0x02, 0x02, 3, 0, 0, 4, none, false⟩, -- TL_LANE_MAP
  ⟨1, 0x1180, 32, 0x03, 0x03, 13, 0, 0, 32768, none, false⟩, -- TL_SPARE_SKEW_PS
  ⟨1, 0x1180, 32, 0x04, 0x04, 1, 2, 1, 0, none, false⟩, -- TL_RETRAIN
  ⟨1, 0x1180, 32, 0x05, 0x05, 5, 0, 0, 0, none, false⟩, -- TL_FEC_CORRECTED
  ⟨1, 0x1180, 32, 0x06, 0x06, 5, 0, 0, 0, none, false⟩, -- TL_FEC_UNCORRECTED
  ⟨1, 0x1180, 32, 0x07, 0x07, 5, 0, 0, 0, none, false⟩, -- TOS_DISCARDS
  ⟨1, 0x1200, 1, 0x01, 0x01, 10, 0, 0, 0, none, false⟩, -- TIME_NOW
  ⟨1, 0x1200, 1, 0x03, 0x03, 2, 0, 0, 0, none, false⟩, -- SERVO_STATE
  ⟨1, 0x1200, 1, 0x04, 0x04, 6, 0, 0, 0, none, false⟩, -- UTC_OFFSET
  ⟨1, 0x1200, 1, 0x05, 0x05, 4, 0, 0, 0, none, false⟩, -- ALIGN_UNCERTAINTY_NS
  ⟨1, 0x1200, 1, 0x06, 0x06, 3, 0, 0, 0, none, false⟩, -- STEP_EPOCH
  ⟨1, 0x1210, 1, 0x01, 0x01, 2, 1, 2, 1, some (1, 3), true⟩, -- PTP_PROFILE
  ⟨1, 0x1210, 1, 0x02, 0x02, 2, 1, 2, 0, some (0, 127), false⟩, -- PTP_DOMAIN
  ⟨1, 0x1210, 1, 0x03, 0x03, 2, 1, 2, 0, some (0, 1), true⟩, -- PTP_DELAY_MECH
  ⟨1, 0x1210, 1, 0x04, 0x04, 1, 1, 2, 1, none, false⟩, -- PTP_ONE_STEP
  ⟨1, 0x1210, 1, 0x05, 0x05, 6, 1, 2, 4294967292, some (-7, 0), false⟩, -- LOG_SYNC_INTERVAL
  ⟨1, 0x1210, 1, 0x06, 0x06, 2, 1, 2, 3, some (2, 10), false⟩, -- ANNOUNCE_TIMEOUT
  ⟨1, 0x1210, 1, 0x07, 0x07, 2, 1, 2, 0, some (0, 2), true⟩, -- PTP_TRANSPORT
  ⟨1, 0x1210, 1, 0x08, 0x08, 1, 1, 2, 0, none, false⟩, -- MASTER_CAPABLE
  ⟨1, 0x1220, 1, 0x01, 0x01, 5, 1, 1, 1000, some (10, 1000000000), false⟩, -- JUMP_THRESHOLD_NS
  ⟨1, 0x1220, 1, 0x02, 0x02, 4, 1, 1, 0, none, false⟩, -- LOCK_THRESHOLD_NS
  ⟨1, 0x1220, 1, 0x03, 0x03, 4, 1, 1, 100000, some (1000, 200000), false⟩, -- SLEW_LIMIT_PPB
  ⟨1, 0x1220, 1, 0x04, 0x04, 4, 1, 1, 50, none, false⟩] -- HOLDOVER_DRIFT_PPB

/-- Objects 0x1230 to 0x2370. -/
def objRows3 : List ObjRow := [
  ⟨1, 0x1230, 1, 0x01, 0x01, 7, 0, 0, 0, none, false⟩, -- PENDING_OFFSET_NS
  ⟨1, 0x1230, 1, 0x02, 0x02, 4, 0, 0, 0, none, false⟩, -- PENDING_SERIAL
  ⟨1, 0x1230, 1, 0x03, 0x03, 4, 2, 1, 0, none, false⟩, -- STEP_AUTHORISE
  ⟨1, 0x1240, 1, 0x01, 0x02, 5, 0, 0, 0, none, false⟩, -- TXQ_DROPS_P0, TXQ_DROPS_P1
  ⟨1, 0x1250, 1, 0x01, 0x11, 5, 0, 0, 0, none, false⟩, -- PTP_DISCARDS
  ⟨1, 0x1251, 1, 0x01, 0x11, 5, 0, 0, 0, none, false⟩, -- PTP_DISCARDS
  ⟨2, 0x2110, 1, 0x01, 0x08, 5, 0, 0, 0, none, false⟩, -- LOSS_BUDGET
  ⟨2, 0x2110, 1, 0x09, 0x09, 5, 0, 0, 0, none, false⟩, -- LOSS_BUFFER_FULL
  ⟨2, 0x2110, 1, 0x0a, 0x0a, 5, 0, 0, 0, none, false⟩, -- LOSS_PARITY
  ⟨2, 0x2110, 1, 0x0b, 0x0b, 5, 0, 0, 0, none, false⟩, -- LOSS_WATCHDOG
  ⟨2, 0x2110, 1, 0x0c, 0x0c, 5, 0, 0, 0, none, false⟩, -- LOSS_MALFORMED_RX
  ⟨2, 0x2110, 1, 0x0d, 0x0d, 5, 0, 0, 0, none, false⟩, -- LOSS_LINK_RESTART
  ⟨2, 0x2110, 1, 0x0e, 0x0e, 5, 0, 0, 0, none, false⟩, -- VIOLATIONS_RX
  ⟨2, 0x2110, 1, 0x0f, 0x0f, 5, 0, 0, 0, none, false⟩, -- LOSS_SECDED
  ⟨2, 0x2110, 1, 0x10, 0x10, 4, 1, 1, 100, some (10, 10000), false⟩, -- LOSS_REPORT_INTERVAL_US
  ⟨2, 0x2110, 1, 0x11, 0x11, 5, 0, 0, 0, none, false⟩, -- TL_CRC_FAIL_RX
  ⟨2, 0x2110, 1, 0x12, 0x12, 5, 0, 0, 0, none, false⟩, -- TL_REPLAYED_TX
  ⟨2, 0x2200, 1, 0x01, 0x01, 2, 0, 0, 0, none, false⟩, -- TU_SERVO_STATE
  ⟨2, 0x2200, 1, 0x02, 0x02, 7, 0, 0, 0, none, false⟩, -- TU_OFFSET_PS
  ⟨2, 0x2200, 1, 0x03, 0x03, 5, 1, 1, 1000, some (10, 1000000000), false⟩, -- TU_JUMP_THRESHOLD_NS
  ⟨2, 0x2200, 1, 0x04, 0x04, 4, 0, 0, 0, none, false⟩, -- TU_PENDING_SERIAL
  ⟨2, 0x2200, 1, 0x05, 0x05, 4, 2, 1, 0, none, false⟩, -- TU_STEP_AUTHORISE
  ⟨2, 0x2200, 1, 0x06, 0x06, 4, 0, 0, 0, none, false⟩, -- TU_MEAN_PATH_PS
  ⟨2, 0x2200, 1, 0x07, 0x07, 4, 0, 0, 0, none, false⟩, -- TU_ALIGN_UNCERTAINTY_NS
  ⟨2, 0x2300, 72, 0x01, 0x20, 4, 1, 1, 0, none, false⟩, -- CNT_SEL_T
  ⟨2, 0x2350, 16, 0x01, 0x20, 4, 1, 1, 0, none, false⟩, -- CNT_SEL_U
  ⟨2, 0x2370, 1, 0x01, 0x01, 4, 0, 0, 4294967295, none, false⟩, -- SPARE_MAP
  ⟨2, 0x2370, 1, 0x02, 0x02, 4, 0, 0, 0, none, false⟩] -- SPARE_SWAPS

/-- Objects 0x2380 to 0x2600. -/
def objRows4 : List ObjRow := [
  ⟨2, 0x2380, 1, 0x01, 0x01, 1, 2, 1, 0, none, false⟩, -- CNT_RESET_ALL
  ⟨2, 0x2380, 1, 0x02, 0x02, 3, 0, 0, 0, none, false⟩, -- SAT_COUNTERS
  ⟨2, 0x2380, 1, 0x03, 0x03, 5, 0, 0, 0, none, false⟩, -- TAP_ORDER_ERRORS
  ⟨2, 0x2380, 1, 0x04, 0x04, 5, 0, 0, 0, none, false⟩, -- STAGING_MERGES
  ⟨2, 0x2380, 1, 0x05, 0x05, 5, 0, 0, 0, none, false⟩, -- TAP_DROPS
  ⟨2, 0x2400, 16, 0x01, 0x01, 4, 1, 1, 65280, none, false⟩, -- SET_CTRL
  ⟨2, 0x2400, 16, 0x02, 0x02, 5, 1, 1, 1000000, none, false⟩, -- SET_PERIOD_NS
  ⟨2, 0x2400, 16, 0x03, 0x03, 5, 1, 1, 0, none, false⟩, -- SET_PHASE_NS
  ⟨2, 0x2400, 16, 0x04, 0x04, 12, 1, 1, 0, none, false⟩, -- SET_LIST
  ⟨2, 0x2400, 16, 0x05, 0x05, 5, 0, 0, 0, none, false⟩, -- ZOOM_PERIOD_NS
  ⟨2, 0x2400, 16, 0x06, 0x06, 1, 1, 1, 0, none, false⟩, -- ZOOM_PIN
  ⟨2, 0x2400, 16, 0x07, 0x07, 5, 1, 1, 0, none, false⟩, -- ZOOM_PIN_PERIOD_NS
  ⟨2, 0x2400, 16, 0x08, 0x08, 5, 0, 0, 0, none, false⟩, -- SAMPLES_EMITTED
  ⟨2, 0x2400, 16, 0x09, 0x09, 5, 0, 0, 0, none, false⟩, -- SAMPLES_DROPPED
  ⟨2, 0x2400, 16, 0x0a, 0x0a, 5, 0, 0, 0, none, false⟩, -- LAST_TS64
  ⟨2, 0x2410, 1, 0x01, 0x01, 4, 0, 0, 0, none, false⟩, -- SAMPLE_BUF_USED
  ⟨2, 0x2410, 1, 0x02, 0x02, 4, 0, 0, 0, none, false⟩, -- SAMPLE_BUF_PEAK
  ⟨2, 0x2500, 72, 0x01, 0x20, 5, 0, 0, 0, none, false⟩, -- CNT_VALUE_T
  ⟨2, 0x2550, 16, 0x01, 0x20, 5, 0, 0, 0, none, false⟩, -- CNT_VALUE_U
  ⟨2, 0x2600, 1, 0x01, 0x01, 1, 1, 1, 1, none, false⟩, -- PHASE_ENABLE
  ⟨2, 0x2600, 1, 0x02, 0x02, 5, 1, 1, 2000000000, some (1000000, 3600000000000), false⟩, -- LONG_PHASE_NS
  ⟨2, 0x2600, 1, 0x03, 0x03, 2, 0, 0, 0, none, false⟩, -- SLOTS_BUSY
  ⟨2, 0x2600, 1, 0x04, 0x04, 2, 0, 0, 0, none, false⟩, -- SLOTS_PEAK
  ⟨2, 0x2600, 1, 0x05, 0x05, 5, 0, 0, 0, none, false⟩, -- OVERFLOW_OPENS
  ⟨2, 0x2600, 1, 0x06, 0x06, 5, 0, 0, 0, none, false⟩, -- UNMATCHED_CLOSES
  ⟨2, 0x2600, 1, 0x07, 0x07, 5, 0, 0, 0, none, false⟩, -- PHASE_PROTOCOL_ERRORS
  ⟨2, 0x2600, 1, 0x08, 0x08, 5, 0, 0, 0, none, false⟩, -- ITEMS_CLOSED
  ⟨2, 0x2600, 1, 0x09, 0x09, 5, 0, 0, 0, none, false⟩, -- LONG_PHASE_EMITTED
  ⟨2, 0x2600, 1, 0x0a, 0x0a, 12, 1, 1, 0, none, false⟩] -- PHASE_GROUP_MAP

/-- Objects 0x2610 to 0x2770. -/
def objRows5 : List ObjRow := [
  ⟨2, 0x2610, 1, 0x01, 0x01, 12, 2, 1, 0, none, false⟩, -- NAME_TABLE_LOAD
  ⟨2, 0x2610, 1, 0x02, 0x02, 2, 0, 0, 0, none, false⟩, -- NAME_TABLES_LIVE
  ⟨2, 0x2610, 1, 0x03, 0x03, 3, 0, 0, 0, none, false⟩, -- NAME_ENTRIES_USED
  ⟨2, 0x2610, 1, 0x04, 0x04, 5, 0, 0, 0, none, false⟩, -- NAMES_EVICTED_LOADS
  ⟨2, 0x2610, 1, 0x05, 0x05, 12, 0, 0, 0, none, false⟩, -- VERSION_STATUS
  ⟨2, 0x2700, 72, 0x01, 0x01, 2, 1, 1, 1, some (0, 2), true⟩, -- TRACE_MODE
  ⟨2, 0x2700, 73, 0x02, 0x02, 4, 1, 1, 1000, none, false⟩, -- TS_INTERVAL_NS
  ⟨2, 0x2700, 73, 0x03, 0x03, 5, 0, 0, 0, none, false⟩, -- TRACE_BYTES
  ⟨2, 0x2700, 73, 0x04, 0x04, 5, 0, 0, 0, none, false⟩, -- TRACE_OVERFLOWS
  ⟨2, 0x2700, 73, 0x05, 0x05, 2, 0, 0, 0, none, false⟩, -- MODE_IN_FORCE
  ⟨2, 0x2748, 1, 0x01, 0x01, 2, 1, 1, 2, some (0, 2), true⟩, -- TRACE_MODE
  ⟨2, 0x2760, 1, 0x01, 0x01, 5, 1, 1, 0, none, false⟩, -- WINDOW_BASE
  ⟨2, 0x2760, 1, 0x02, 0x02, 5, 1, 1, 1073741824, none, false⟩, -- WINDOW_SIZE
  ⟨2, 0x2760, 1, 0x03, 0x03, 5, 0, 0, 0, none, false⟩, -- WRITE_PTR
  ⟨2, 0x2760, 1, 0x04, 0x04, 5, 0, 0, 0, none, false⟩, -- DRAIN_PTR
  ⟨2, 0x2760, 1, 0x05, 0x05, 3, 1, 1, 10, some (1, 1000), false⟩, -- RECORD_FLUSH_US
  ⟨2, 0x2760, 1, 0x06, 0x06, 5, 0, 0, 0, none, false⟩, -- RECORDS_WRITTEN
  ⟨2, 0x2760, 1, 0x07, 0x07, 4, 0, 0, 0, none, false⟩, -- TRACE_STATUS
  ⟨2, 0x2760, 1, 0x08, 0x08, 5, 0, 0, 0, none, false⟩, -- RECORDS_REFUSED
  ⟨2, 0x2770, 1, 0x01, 0x01, 1, 2, 1, 0, none, false⟩, -- FREEZE
  ⟨2, 0x2770, 1, 0x02, 0x02, 1, 2, 1, 0, none, false⟩, -- RESUME
  ⟨2, 0x2770, 1, 0x03, 0x03, 1, 0, 0, 0, none, false⟩, -- FROZEN
  ⟨2, 0x2770, 1, 0x04, 0x04, 2, 0, 0, 0, none, false⟩, -- FREEZE_CAUSE
  ⟨2, 0x2770, 1, 0x05, 0x05, 5, 0, 0, 0, none, false⟩, -- FREEZE_TS64
  ⟨2, 0x2770, 1, 0x06, 0x06, 4, 1, 1, 50000, some (0, 10000000), false⟩, -- PROGRESS_TIMEOUT_US
  ⟨2, 0x2770, 1, 0x07, 0x07, 1, 1, 1, 1, none, false⟩, -- AUTO_READOUT
  ⟨2, 0x2770, 1, 0x08, 0x08, 1, 1, 1, 1, none, false⟩, -- FREEZE_ON_DIE_WDT
  ⟨2, 0x2770, 1, 0x09, 0x09, 1, 1, 1, 0, none, false⟩, -- FREEZE_ON_FAULT
  ⟨2, 0x2770, 1, 0x0a, 0x0a, 5, 0, 0, 0, none, false⟩, -- READOUT_DROPS
  ⟨2, 0x2770, 1, 0x0b, 0x0b, 5, 0, 0, 0, none, false⟩] -- FREEZE_TRIGGERS

/-- Objects 0x2771 to 0x2900. -/
def objRows6 : List ObjRow := [
  ⟨2, 0x2771, 1, 0x01, 0x65, 12, 0, 0, 0, none, false⟩, -- RING_DATA
  ⟨2, 0x2800, 1, 0x01, 0x01, 2, 1, 1, 0, some (0, 1), true⟩, -- SUMAC_MODE
  ⟨2, 0x2800, 1, 0x02, 0x02, 3, 1, 1, 50, some (5, 1000), false⟩, -- SUMAC_FLUSH_US
  ⟨2, 0x2800, 1, 0x03, 0x03, 5, 0, 0, 0, none, false⟩, -- SUMAC_BLOCKS
  ⟨2, 0x2800, 1, 0x04, 0x04, 5, 0, 0, 0, none, false⟩, -- SUMAC_BYTES_IN
  ⟨2, 0x2800, 1, 0x05, 0x05, 5, 0, 0, 0, none, false⟩, -- SUMAC_BYTES_OUT
  ⟨2, 0x2800, 1, 0x06, 0x06, 5, 0, 0, 0, none, false⟩, -- SUMAC_STORED
  ⟨2, 0x2800, 1, 0x07, 0x07, 5, 0, 0, 0, none, false⟩, -- SUMAC_FALLBACK
  ⟨2, 0x2800, 1, 0x08, 0x08, 1, 0, 0, 0, none, false⟩, -- SUMAC_BYPASS
  ⟨2, 0x2801, 1, 0x01, 0x01, 4, 1, 1, 0, none, false⟩, -- CRC_CTRL
  ⟨2, 0x2801, 1, 0x02, 0x02, 4, 1, 1, 4294967295, none, false⟩, -- CRC_VALUE
  ⟨2, 0x2801, 1, 0x03, 0x03, 5, 1, 1, 0, none, false⟩, -- CRC_LENGTH
  ⟨2, 0x2810, 1, 0x01, 0x01, 4, 1, 1, 0, none, false⟩, -- CRC_CTRL
  ⟨2, 0x2810, 1, 0x02, 0x02, 4, 1, 1, 4294967295, none, false⟩, -- CRC_VALUE
  ⟨2, 0x2810, 1, 0x03, 0x03, 5, 1, 1, 0, none, false⟩, -- CRC_LENGTH
  ⟨2, 0x2820, 1, 0x01, 0x01, 2, 0, 0, 0, none, false⟩, -- CUT_STATE
  ⟨2, 0x2820, 1, 0x02, 0x02, 4, 0, 0, 0, none, false⟩, -- CUT_ID_LAST
  ⟨2, 0x2820, 1, 0x03, 0x03, 5, 0, 0, 0, none, false⟩, -- CUTS_TAKEN
  ⟨2, 0x2820, 1, 0x04, 0x04, 5, 0, 0, 0, none, false⟩, -- CUTS_LATE
  ⟨2, 0x2820, 1, 0x05, 0x05, 5, 0, 0, 0, none, false⟩, -- CUTS_ABANDONED
  ⟨2, 0x2820, 1, 0x06, 0x06, 5, 0, 0, 0, none, false⟩, -- CUTS_SKIPPED
  ⟨2, 0x2900, 1, 0x01, 0x01, 1, 1, 1, 1, none, false⟩, -- MACE_ENABLE
  ⟨2, 0x2900, 1, 0x02, 0x02, 2, 1, 1, 0, some (0, 1), true⟩, -- TOL_MODE
  ⟨2, 0x2900, 1, 0x03, 0x03, 4, 1, 1, 1000, some (100, 1000000), false⟩, -- HIST_PERIOD_US
  ⟨2, 0x2900, 1, 0x04, 0x04, 2, 1, 1, 2, some (0, 2), true⟩, -- REPLAY_MODE
  ⟨2, 0x2900, 1, 0x05, 0x05, 3, 1, 1, 10, some (1, 1000), false⟩, -- REPLAY_TIMEOUT_MS
  ⟨2, 0x2900, 1, 0x06, 0x06, 3, 1, 1, 100, some (10, 10000), false⟩, -- EGRESS_CLOSE_US
  ⟨2, 0x2900, 1, 0x07, 0x07, 4, 1, 1, 1000, some (100, 1000000), false⟩, -- WMK_RECORD_INTERVAL_US
  ⟨2, 0x2900, 1, 0x08, 0x08, 1, 1, 1, 0, none, false⟩, -- SUSPECT_TAINT
  ⟨2, 0x2900, 1, 0x09, 0x09, 2, 1, 1, 1, some (0, 7), false⟩, -- TAINT_MBOX_CH
  ⟨2, 0x2900, 1, 0x0a, 0x0a, 3, 0, 0, 255, none, false⟩, -- LANE_MAP
  ⟨2, 0x2900, 1, 0x0b, 0x0b, 4, 0, 0, 0, none, false⟩] -- MACE_STATUS

/-- Objects 0x2901 to 0x2a00. -/
def objRows7 : List ObjRow := [
  ⟨2, 0x2901, 1, 0x01, 0x09, 8, 1, 2, 1065353216, some (1048576000, 1115684864), false⟩, -- TOL_SCALE
  ⟨2, 0x2910, 1, 0x01, 0x01, 5, 0, 0, 0, none, false⟩, -- WATERMARK
  ⟨2, 0x2910, 1, 0x02, 0x06, 5, 0, 0, 0, none, false⟩, -- VERDICT_COUNTS
  ⟨2, 0x2910, 1, 0x07, 0x07, 4, 0, 0, 0, none, false⟩, -- TAINT_SERIAL_LAST
  ⟨2, 0x2910, 1, 0x08, 0x0d, 5, 0, 0, 0, none, false⟩, -- REPLAY_COUNTS
  ⟨2, 0x2910, 1, 0x0e, 0x0e, 5, 0, 0, 0, none, false⟩, -- SIG_LOST
  ⟨2, 0x2910, 1, 0x0f, 0x0f, 2, 0, 0, 0, none, false⟩, -- TAINT_QUEUE_USED
  ⟨2, 0x2910, 1, 0x10, 0x10, 4, 2, 1, 0, none, false⟩, -- TAINT_RESEND
  ⟨2, 0x2910, 1, 0x11, 0x11, 12, 0, 0, 0, none, false⟩, -- TAINT_HISTORY
  ⟨2, 0x2910, 1, 0x12, 0x12, 5, 0, 0, 0, none, false⟩, -- CHECK_PORT_LATE
  ⟨2, 0x2911, 1, 0x01, 0x40, 5, 0, 0, 0, none, false⟩, -- GROUP_WMK
  ⟨2, 0x2912, 1, 0x01, 0x40, 4, 0, 0, 0, none, false⟩, -- GROUP_TAINTS
  ⟨2, 0x2920, 1, 0x01, 0x48, 12, 0, 0, 0, none, false⟩, -- RESID_HIST
  ⟨2, 0x2930, 1, 0x01, 0x01, 1, 1, 1, 0, none, false⟩, -- GATE_ENABLE
  ⟨2, 0x2930, 1, 0x02, 0x02, 5, 0, 0, 0, none, false⟩, -- GATED_BLOCKS
  ⟨2, 0x2930, 1, 0x03, 0x03, 5, 0, 0, 0, none, false⟩, -- GATE_REFUSED
  ⟨2, 0x2930, 1, 0x04, 0x04, 4, 0, 0, 0, none, false⟩, -- GATE_DELAY_MAX_NS
  ⟨2, 0x2940, 1, 0x01, 0x01, 1, 1, 1, 0, none, false⟩, -- SHADOW_ENABLE
  ⟨2, 0x2940, 1, 0x02, 0x02, 4, 1, 1, 0, none, false⟩, -- SHADOW_TAG
  ⟨2, 0x2a00, 1, 0x01, 0x01, 3, 1, 1, 800, some (0, 4000), false⟩, -- BUDGET_NS
  ⟨2, 0x2a00, 1, 0x02, 0x02, 3, 1, 1, 300, some (0, 4000), false⟩, -- BUDGET_NS
  ⟨2, 0x2a00, 1, 0x03, 0x03, 3, 1, 1, 600, some (0, 4000), false⟩, -- BUDGET_NS
  ⟨2, 0x2a00, 1, 0x04, 0x04, 3, 1, 1, 1000, some (0, 4000), false⟩, -- BUDGET_NS
  ⟨2, 0x2a00, 1, 0x05, 0x05, 3, 1, 1, 1600, some (0, 4000), false⟩, -- BUDGET_NS
  ⟨2, 0x2a00, 1, 0x06, 0x06, 3, 1, 1, 200, some (0, 4000), false⟩, -- BUDGET_NS
  ⟨2, 0x2a00, 1, 0x07, 0x07, 3, 1, 1, 1600, some (0, 4000), false⟩, -- BUDGET_NS
  ⟨2, 0x2a00, 1, 0x08, 0x08, 3, 1, 1, 200, some (0, 4000), false⟩, -- BUDGET_NS
  ⟨2, 0x2a00, 1, 0x09, 0x09, 3, 1, 1, 100, some (0, 4000), false⟩, -- TAINT_RESERVE_NS
  ⟨2, 0x2a00, 1, 0x0a, 0x0a, 2, 0, 0, 0, none, false⟩] -- BUDGET_UNFIT

/-- Objects 0x2a01 to 0x2a27. -/
def objRows8 : List ObjRow := [
  ⟨2, 0x2a01, 1, 0x01, 0x08, 5, 0, 0, 0, none, false⟩, -- BUDGET_FULL_PERIODS
  ⟨2, 0x2a10, 1, 0x03, 0x03, 4, 1, 1, 500, some (0, 65536), false⟩, -- ARB_WEIGHT
  ⟨2, 0x2a10, 1, 0x04, 0x04, 4, 1, 1, 1000, some (0, 65536), false⟩, -- ARB_WEIGHT
  ⟨2, 0x2a10, 1, 0x05, 0x05, 4, 1, 1, 4000, some (0, 65536), false⟩, -- ARB_WEIGHT
  ⟨2, 0x2a10, 1, 0x06, 0x06, 4, 1, 1, 2000, some (0, 65536), false⟩, -- ARB_WEIGHT
  ⟨2, 0x2a10, 1, 0x07, 0x07, 4, 1, 1, 4000, some (0, 65536), false⟩, -- ARB_WEIGHT
  ⟨2, 0x2a10, 1, 0x08, 0x08, 4, 1, 1, 11500, some (0, 65536), false⟩, -- ARB_WEIGHT
  ⟨2, 0x2a11, 1, 0x01, 0x01, 2, 0, 0, 0, none, false⟩, -- ARB_STARVED
  ⟨2, 0x2a11, 1, 0x02, 0x02, 2, 2, 1, 0, none, false⟩, -- ARB_STARVE_CLEAR
  ⟨2, 0x2a11, 1, 0x03, 0x03, 1, 1, 1, 1, none, false⟩, -- ARB_INT_ENABLE
  ⟨2, 0x2a12, 1, 0x01, 0x08, 5, 0, 0, 0, none, false⟩, -- WDG_RESETS
  ⟨2, 0x2a12, 1, 0x09, 0x09, 3, 3, 0, 100, none, false⟩, -- WDG_TIMEOUT_US
  ⟨2, 0x2a20, 1, 0x01, 0x01, 4, 1, 1, 500, some (0, 24500), false⟩, -- SHAPER_SLOPE_MBPS
  ⟨2, 0x2a20, 1, 0x02, 0x02, 4, 1, 1, 16384, some (4363, 1048576), false⟩, -- SHAPER_BURST
  ⟨2, 0x2a20, 8, 0x03, 0x03, 6, 0, 0, 0, none, false⟩, -- SHAPER_CREDIT
  ⟨2, 0x2a20, 8, 0x04, 0x04, 5, 0, 0, 0, none, false⟩, -- FRAMES_SENT
  ⟨2, 0x2a21, 1, 0x01, 0x01, 4, 1, 1, 1000, some (0, 24500), false⟩, -- SHAPER_SLOPE_MBPS
  ⟨2, 0x2a21, 1, 0x02, 0x02, 4, 1, 1, 16384, some (4363, 1048576), false⟩, -- SHAPER_BURST
  ⟨2, 0x2a22, 1, 0x01, 0x01, 4, 1, 1, 500, some (0, 24500), false⟩, -- SHAPER_SLOPE_MBPS
  ⟨2, 0x2a22, 1, 0x02, 0x02, 4, 1, 1, 16384, some (4363, 1048576), false⟩, -- SHAPER_BURST
  ⟨2, 0x2a23, 1, 0x01, 0x01, 4, 1, 1, 1000, some (0, 24500), false⟩, -- SHAPER_SLOPE_MBPS
  ⟨2, 0x2a23, 1, 0x02, 0x02, 4, 1, 1, 16384, some (4363, 1048576), false⟩, -- SHAPER_BURST
  ⟨2, 0x2a24, 1, 0x01, 0x01, 4, 1, 1, 4000, some (0, 24500), false⟩, -- SHAPER_SLOPE_MBPS
  ⟨2, 0x2a24, 1, 0x02, 0x02, 4, 1, 1, 65536, some (4363, 1048576), false⟩, -- SHAPER_BURST
  ⟨2, 0x2a25, 1, 0x01, 0x01, 4, 1, 1, 2000, some (0, 24500), false⟩, -- SHAPER_SLOPE_MBPS
  ⟨2, 0x2a25, 1, 0x02, 0x02, 4, 1, 1, 32768, some (4363, 1048576), false⟩, -- SHAPER_BURST
  ⟨2, 0x2a26, 1, 0x01, 0x01, 4, 1, 1, 4000, some (0, 24500), false⟩, -- SHAPER_SLOPE_MBPS
  ⟨2, 0x2a26, 1, 0x02, 0x02, 4, 1, 1, 65536, some (4363, 1048576), false⟩, -- SHAPER_BURST
  ⟨2, 0x2a27, 1, 0x01, 0x01, 4, 1, 1, 11500, some (0, 24500), false⟩, -- SHAPER_SLOPE_MBPS
  ⟨2, 0x2a27, 1, 0x02, 0x02, 4, 1, 1, 65536, some (4363, 1048576), false⟩] -- SHAPER_BURST

/-- Objects 0x2a30 to 0x2f00. -/
def objRows9 : List ObjRow := [
  ⟨2, 0x2a30, 1, 0x01, 0x01, 2, 1, 1, 0, none, false⟩, -- LEN_OVERHEAD
  ⟨2, 0x2a40, 1, 0x01, 0x01, 12, 1, 1, 0, none, false⟩, -- GATE_ADMIN
  ⟨2, 0x2a40, 1, 0x02, 0x02, 12, 2, 1, 0, none, false⟩, -- GATE_ORDER
  ⟨2, 0x2a40, 1, 0x03, 0x03, 12, 0, 0, 0, none, false⟩, -- GATE_OPER
  ⟨2, 0x2a40, 1, 0x04, 0x04, 4, 0, 0, 0, none, false⟩, -- GATE_STATUS
  ⟨2, 0x2b00, 1, 0x01, 0x01, 2, 0, 0, 0, none, false⟩, -- PWR_STATE
  ⟨2, 0x2b00, 1, 0x02, 0x02, 4, 0, 0, 0, none, false⟩, -- PWR_BACKOFF_US
  ⟨2, 0x2b00, 1, 0x03, 0x07, 5, 0, 0, 0, none, false⟩, -- PWR_COUNTS
  ⟨2, 0x2c00, 64, 0x01, 0x01, 12, 2, 1, 0, none, false⟩, -- TU_GROUP_ARM
  ⟨2, 0x2c00, 64, 0x02, 0x02, 2, 0, 0, 0, none, false⟩, -- TU_GROUP_STATE
  ⟨2, 0x2c00, 64, 0x03, 0x03, 4, 0, 0, 0, none, false⟩, -- TU_GROUP_ID
  ⟨2, 0x2c00, 64, 0x04, 0x04, 4, 0, 0, 0, none, false⟩, -- TU_ARM_SERIAL
  ⟨2, 0x2c00, 64, 0x05, 0x05, 5, 0, 0, 0, none, false⟩, -- TU_RELEASE_TS64
  ⟨2, 0x2d00, 1, 0x01, 0x01, 2, 1, 1, 8, some (1, 50), false⟩, -- MARGIN_WARN_PCT
  ⟨2, 0x2d00, 1, 0x02, 0x02, 2, 1, 1, 3, some (0, 49), false⟩, -- MARGIN_CRIT_PCT
  ⟨2, 0x2d00, 1, 0x03, 0x03, 4, 1, 1, 64, some (1, 1000000), false⟩, -- ECC_WARN_PER_H
  ⟨2, 0x2d00, 1, 0x04, 0x04, 2, 1, 1, 50, some (10, 95), false⟩, -- EYE_MIN_PCT
  ⟨2, 0x2d00, 1, 0x05, 0x05, 4, 0, 0, 0, none, false⟩, -- SWAPS_TOTAL
  ⟨2, 0x2d00, 1, 0x06, 0x06, 3, 0, 0, 0, none, false⟩, -- MARGIN_MIN
  ⟨2, 0x2d00, 1, 0x07, 0x07, 2, 0, 0, 0, none, false⟩, -- TL_EYE_PCT
  ⟨2, 0x2e00, 1, 0x01, 0x01, 1, 2, 2, 0, none, false⟩, -- TU_RESET_REQUEST
  ⟨2, 0x2e00, 1, 0x02, 0x02, 2, 0, 0, 0, none, false⟩, -- TU_LAST_RESET
  ⟨2, 0x2e00, 1, 0x03, 0x03, 5, 0, 0, 0, none, false⟩, -- DIE_RESETS_SEEN
  ⟨2, 0x2e00, 1, 0x04, 0x04, 2, 0, 0, 0, none, false⟩, -- TU_START_STATE
  ⟨2, 0x2e00, 1, 0x05, 0x05, 1, 1, 1, 0, none, false⟩, -- TIME_PULSE_ENABLE
  ⟨2, 0x2e00, 1, 0x06, 0x06, 5, 0, 0, 0, none, false⟩, -- WIN_BASE
  ⟨2, 0x2f00, 1, 0x01, 0x01, 2, 0, 0, 0, none, false⟩, -- TL_STATE
  ⟨2, 0x2f00, 1, 0x02, 0x02, 3, 0, 0, 4, none, false⟩, -- TL_LANE_MAP
  ⟨2, 0x2f00, 1, 0x03, 0x03, 13, 0, 0, 32768, none, false⟩, -- TL_SPARE_SKEW_PS
  ⟨2, 0x2f00, 1, 0x04, 0x04, 1, 2, 1, 0, none, false⟩, -- TL_RETRAIN
  ⟨2, 0x2f00, 1, 0x05, 0x05, 5, 0, 0, 0, none, false⟩, -- TL_FEC_CORRECTED
  ⟨2, 0x2f00, 1, 0x06, 0x06, 5, 0, 0, 0, none, false⟩, -- TL_FEC_UNCORRECTED
  ⟨2, 0x2f00, 1, 0x07, 0x07, 5, 0, 0, 0, none, false⟩] -- TOS_DISCARDS

/-- Objects 0x3000 to 0x3200. -/
def objRows10 : List ObjRow := [
  ⟨1, 0x3000, 1, 0x01, 0x01, 4, 0, 0, 32, none, false⟩, -- CTX_USED
  ⟨1, 0x3000, 1, 0x02, 0x02, 5, 0, 0, 0, none, false⟩, -- CTX_CACHE_HITS
  ⟨1, 0x3000, 1, 0x03, 0x03, 5, 0, 0, 0, none, false⟩, -- CTX_CACHE_MISSES
  ⟨1, 0x3000, 1, 0x04, 0x04, 5, 0, 0, 0, none, false⟩, -- CTX_SECDED_RESETS
  ⟨1, 0x3000, 1, 0x05, 0x05, 5, 0, 0, 0, none, false⟩, -- CTX_DECODE_SKIPS
  ⟨1, 0x3100, 64, 0x01, 0x01, 4, 0, 0, 0, none, false⟩, -- GROUP_ID
  ⟨1, 0x3100, 64, 0x02, 0x02, 2, 0, 0, 0, none, false⟩, -- GROUP_STATE
  ⟨1, 0x3100, 64, 0x03, 0x03, 4, 0, 0, 0, none, false⟩, -- ARM_SERIAL
  ⟨1, 0x3100, 64, 0x04, 0x04, 4, 0, 0, 0, none, false⟩, -- MEMB_EPOCH
  ⟨1, 0x3100, 64, 0x05, 0x05, 2, 0, 0, 0, none, false⟩, -- ROLES
  ⟨1, 0x3100, 64, 0x06, 0x06, 2, 0, 0, 0, none, false⟩, -- WAIT_REASON
  ⟨1, 0x3100, 64, 0x07, 0x07, 12, 0, 0, 0, none, false⟩, -- ARM_RESULT
  ⟨1, 0x3100, 64, 0x08, 0x08, 12, 0, 0, 0, none, false⟩, -- DESCRIPTOR
  ⟨1, 0x3140, 1, 0x01, 0x01, 12, 2, 1, 0, none, false⟩, -- ARM_ORDER
  ⟨1, 0x3140, 1, 0x02, 0x02, 3, 1, 1, 50, some (1, 1000), false⟩, -- ARM_WAIT_MS
  ⟨1, 0x3140, 1, 0x03, 0x03, 3, 1, 1, 100, some (10, 10000), false⟩, -- ARM_RETRY_MS
  ⟨1, 0x3140, 1, 0x04, 0x04, 3, 1, 1, 64, some (1, 1024), false⟩, -- ARM_NOTICE_RATE
  ⟨1, 0x3140, 1, 0x05, 0x05, 4, 1, 1, 1000, some (10, 20000), false⟩, -- ARM_READ_MBPS
  ⟨1, 0x3140, 1, 0x06, 0x09, 5, 0, 0, 0, none, false⟩, -- ARM_COUNTS
  ⟨1, 0x3200, 64, 0x01, 0x01, 3, 1, 1, 65535, none, false⟩, -- STRAG_METRIC
  ⟨1, 0x3200, 64, 0x02, 0x02, 8, 1, 1, 1065185444, some (1056964608, 1065353216), false⟩, -- STRAG_RANK
  ⟨1, 0x3200, 64, 0x03, 0x03, 8, 1, 1, 1028443341, some (0, 1092616192), false⟩, -- STRAG_MARGIN
  ⟨1, 0x3200, 64, 0x04, 0x04, 3, 1, 1, 3, some (1, 1000), false⟩, -- STRAG_PERSIST
  ⟨1, 0x3200, 64, 0x05, 0x05, 3, 1, 1, 10, some (1, 10000), false⟩, -- STRAG_CLEAR
  ⟨1, 0x3200, 64, 0x06, 0x06, 12, 1, 1, 0, none, false⟩, -- CAUSE_TABLE
  ⟨1, 0x3200, 64, 0x07, 0x07, 12, 1, 1, 0, none, false⟩, -- DRIFT_TABLE
  ⟨1, 0x3200, 64, 0x08, 0x08, 12, 1, 1, 0, none, false⟩, -- HEALTH_TABLE
  ⟨1, 0x3200, 64, 0x09, 0x09, 5, 1, 1, 0, none, false⟩, -- ZOOM_PERIOD_NS
  ⟨1, 0x3200, 64, 0x0a, 0x0a, 4, 1, 1, 1000, none, false⟩, -- ZOOM_HOLD
  ⟨1, 0x3200, 64, 0x0b, 0x0b, 2, 1, 1, 4, some (0, 32), false⟩, -- ZOOM_MAX_DIES
  ⟨1, 0x3200, 64, 0x0c, 0x0c, 12, 0, 0, 0, none, false⟩] -- DIE_STATES

/-- Objects 0x3300 to 0x3480. -/
def objRows11 : List ObjRow := [
  ⟨1, 0x3300, 64, 0x01, 0x01, 3, 1, 1, 8, none, false⟩, -- GOV_GROUP_LIMIT
  ⟨1, 0x3300, 64, 0x02, 0x02, 4, 1, 1, 3600, some (60, 86400), false⟩, -- GOV_WINDOW_S
  ⟨1, 0x3300, 64, 0x03, 0x03, 4, 1, 1, 4294967295, none, false⟩, -- SPARE_POOL_DEPTH
  ⟨1, 0x3300, 64, 0x04, 0x04, 4, 1, 1, 0, none, false⟩, -- SPARE_POOL_FLOOR
  ⟨1, 0x3300, 64, 0x05, 0x05, 8, 0, 0, 0, none, false⟩, -- GOV_RAISE
  ⟨1, 0x3300, 64, 0x06, 0x06, 1, 1, 1, 0, none, false⟩, -- GOV_RAISE_PIN
  ⟨1, 0x3300, 64, 0x07, 0x07, 8, 1, 1, 0, some (0, 1065353216), false⟩, -- GOV_RAISE_PIN_VALUE
  ⟨1, 0x3300, 64, 0x08, 0x08, 3, 0, 0, 0, none, false⟩, -- GOV_GROUP_COUNT
  ⟨1, 0x3300, 64, 0x09, 0x09, 4, 1, 1, 1000, some (100, 100000), false⟩, -- GOV_POLL_US
  ⟨1, 0x3300, 64, 0x0a, 0x0a, 4, 2, 1, 0, none, false⟩, -- DIE_RETURNED
  ⟨1, 0x3300, 64, 0x0b, 0x0b, 5, 0, 0, 0, none, false⟩, -- CONTESTED_TOTAL
  ⟨1, 0x3300, 64, 0x0c, 0x0c, 1, 1, 1, 1, none, false⟩, -- GOV_ENABLE
  ⟨1, 0x33c0, 1, 0x01, 0x01, 2, 1, 1, 2, none, false⟩, -- GOV_TRAY_LIMIT
  ⟨1, 0x33c0, 1, 0x02, 0x02, 2, 0, 0, 0, none, false⟩, -- GOV_TRAY_COUNT
  ⟨1, 0x33c0, 1, 0x03, 0x03, 1, 1, 1, 1, none, false⟩, -- TSF_ENABLE
  ⟨1, 0x33c0, 1, 0x04, 0x04, 12, 1, 1, 0, none, false⟩, -- TSF_DEST
  ⟨1, 0x33c0, 1, 0x05, 0x05, 4, 1, 1, 1000, some (1, 100000), false⟩, -- TSF_RATE
  ⟨1, 0x33c0, 1, 0x06, 0x06, 5, 0, 0, 0, none, false⟩, -- TSF_DROPPED
  ⟨1, 0x33c0, 1, 0x07, 0x07, 4, 0, 0, 0, none, false⟩, -- NOTICE_SERIAL_LAST
  ⟨1, 0x33c0, 1, 0x08, 0x08, 3, 1, 1, 20, some (1, 1000), false⟩, -- SIG_WAIT_MS
  ⟨1, 0x3400, 1, 0x01, 0x01, 4, 0, 0, 65535, none, false⟩, -- MERGE_MAP
  ⟨1, 0x3400, 1, 0x02, 0x02, 4, 0, 0, 0, none, false⟩, -- MERGE_SWAPS
  ⟨1, 0x3400, 1, 0x03, 0x03, 3, 0, 0, 0, none, false⟩, -- METRIC_SLOTS_USED
  ⟨1, 0x3410, 64, 0x01, 0x01, 5, 0, 0, 0, none, false⟩, -- GRID_PERIOD_NS
  ⟨1, 0x3410, 64, 0x02, 0x02, 5, 0, 0, 0, none, false⟩, -- GRID_PHASE_NS
  ⟨1, 0x3410, 64, 0x03, 0x03, 3, 1, 1, 100, some (20, 140), false⟩, -- L1_GATHER_US
  ⟨1, 0x3480, 64, 0x01, 0x01, 5, 0, 0, 0, none, false⟩, -- INSTANTS_CLOSED
  ⟨1, 0x3480, 64, 0x02, 0x02, 5, 0, 0, 0, none, false⟩, -- LATE_IN
  ⟨1, 0x3480, 64, 0x03, 0x03, 5, 0, 0, 0, none, false⟩, -- LATE_OUT
  ⟨1, 0x3480, 64, 0x04, 0x04, 5, 0, 0, 0, none, false⟩, -- COALESCED
  ⟨1, 0x3480, 64, 0x05, 0x05, 5, 0, 0, 0, none, false⟩, -- CARRIED
  ⟨1, 0x3480, 64, 0x06, 0x06, 5, 0, 0, 0, none, false⟩, -- EPOCH_LAG
  ⟨1, 0x3480, 64, 0x07, 0x07, 5, 0, 0, 0, none, false⟩, -- STALE_CONTENT
  ⟨1, 0x3480, 64, 0x08, 0x08, 5, 0, 0, 0, none, false⟩, -- ROLE_EPOCHS
  ⟨1, 0x3480, 64, 0x09, 0x09, 4, 0, 0, 0, none, false⟩, -- TAKEOVERS
  ⟨1, 0x3480, 64, 0x0a, 0x0a, 5, 0, 0, 0, none, false⟩] -- SUMMARY_MISSED

/-- Objects 0x3600 to 0x4400. -/
def objRows12 : List ObjRow := [
  ⟨1, 0x3600, 1, 0x01, 0x01, 5, 1, 2, 0, none, false⟩, -- LEDGER_BASE
  ⟨1, 0x3600, 1, 0x02, 0x02, 5, 3, 0, 17181966336, none, false⟩, -- LEDGER_SIZE
  ⟨1, 0x3600, 1, 0x03, 0x03, 4, 1, 2, 160000, some (40000, 200000), false⟩, -- REDUCE_FABRIC_MBPS
  ⟨1, 0x3600, 1, 0x04, 0x04, 2, 1, 2, 25, some (0, 100), false⟩, -- SHARE_PCT
  ⟨1, 0x3600, 1, 0x05, 0x05, 2, 1, 2, 35, some (0, 100), false⟩, -- SHARE_PCT
  ⟨1, 0x3600, 1, 0x06, 0x06, 2, 1, 2, 40, some (0, 100), false⟩, -- SHARE_PCT
  ⟨1, 0x3600, 1, 0x07, 0x09, 4, 0, 0, 0, none, false⟩, -- DEMAND_MBPS
  ⟨1, 0x3600, 1, 0x0a, 0x0a, 5, 0, 0, 0, none, false⟩, -- LEDGER_REFUSED
  ⟨1, 0x3600, 1, 0x0b, 0x0b, 3, 1, 1, 200, some (100, 10000), false⟩, -- TAKEOVER_US
  ⟨1, 0x4010, 64, 0x01, 0x01, 5, 0, 0, 0, none, false⟩, -- GROUP_WMK
  ⟨1, 0x4010, 64, 0x02, 0x02, 5, 0, 0, 0, none, false⟩, -- GROUP_FAIL_TOTAL
  ⟨1, 0x4010, 64, 0x03, 0x03, 5, 0, 0, 0, none, false⟩, -- GROUP_UNCHECKED_TOTAL
  ⟨1, 0x4010, 64, 0x04, 0x04, 5, 0, 0, 0, none, false⟩, -- GROUP_TAINT_TOTAL
  ⟨1, 0x4010, 64, 0x05, 0x05, 5, 0, 0, 0, none, false⟩, -- TRAY_WMK
  ⟨1, 0x4010, 64, 0x06, 0x06, 4, 0, 0, 0, none, false⟩, -- WMK_HOLDER
  ⟨1, 0x4010, 64, 0x07, 0x07, 3, 0, 0, 0, none, false⟩, -- WMK_STALE_SLOTS
  ⟨1, 0x4100, 1, 0x01, 0x01, 3, 1, 1, 100, some (20, 10000), false⟩, -- TAINT_WAIT_US
  ⟨1, 0x4100, 1, 0x02, 0x02, 5, 0, 0, 0, none, false⟩, -- TAINT_LOST
  ⟨1, 0x4200, 1, 0x01, 0x01, 12, 1, 1, 0, none, false⟩, -- SHADOW_PAIRS
  ⟨1, 0x4200, 1, 0x02, 0x02, 5, 1, 1, 1000000, none, false⟩, -- SHADOW_MIN_BLOCKS
  ⟨1, 0x4200, 1, 0x03, 0x03, 8, 1, 1, 1073741824, some (1065353216, 1120403456), false⟩, -- SHADOW_MAX_RATIO
  ⟨1, 0x4200, 1, 0x04, 0x04, 12, 0, 0, 0, none, false⟩, -- SHADOW_STATUS
  ⟨1, 0x4200, 1, 0x05, 0x05, 4, 1, 1, 10000, none, false⟩, -- SHADOW_UNPAIRED_MAX_PPM
  ⟨1, 0x4400, 1, 0x01, 0x01, 5, 0, 0, 18446744073709551615, none, false⟩, -- LANE_MAP
  ⟨1, 0x4400, 1, 0x02, 0x02, 2, 0, 0, 255, none, false⟩, -- SPARE_MAP
  ⟨1, 0x4400, 1, 0x03, 0x03, 4, 0, 0, 0, none, false⟩, -- LANE_SWAPS
  ⟨1, 0x4400, 1, 0x04, 0x04, 4, 0, 0, 0, none, false⟩, -- UTIL_ADMITTED_PPM
  ⟨1, 0x4400, 1, 0x05, 0x05, 2, 1, 2, 90, some (50, 100), false⟩, -- SHARE_PCT
  ⟨1, 0x4400, 1, 0x06, 0x06, 5, 0, 0, 0, none, false⟩, -- ROWS_SCORED_ALL
  ⟨1, 0x4400, 1, 0x07, 0x07, 5, 0, 0, 0, none, false⟩, -- ROWS_REJECTED_ALL
  ⟨1, 0x4400, 1, 0x08, 0x08, 5, 0, 0, 0, none, false⟩, -- ROWS_SKIPPED_ALL
  ⟨1, 0x4400, 1, 0x09, 0x09, 5, 0, 0, 0, none, false⟩, -- INPUTS_UNBOUND
  ⟨1, 0x4400, 1, 0x0a, 0x0a, 4, 0, 0, 0, none, false⟩] -- FINISH_MAX_NS

/-- Objects 0x4410 to 0x4480. -/
def objRows13 : List ObjRow := [
  ⟨1, 0x4410, 3, 0x01, 0x01, 12, 2, 1, 0, none, false⟩, -- MODEL_IMAGE
  ⟨1, 0x4410, 3, 0x02, 0x02, 12, 2, 1, 0, none, false⟩, -- STAGE_FROM
  ⟨1, 0x4410, 3, 0x03, 0x03, 2, 0, 0, 0, none, false⟩, -- SLOT_STATE
  ⟨1, 0x4410, 3, 0x04, 0x04, 4, 0, 0, 0, none, false⟩, -- SLOT_ERROR
  ⟨1, 0x4410, 3, 0x05, 0x05, 4, 0, 0, 0, none, false⟩, -- SLOT_MODEL_ID
  ⟨1, 0x4410, 3, 0x06, 0x06, 12, 0, 0, 0, none, false⟩, -- SLOT_INFO
  ⟨1, 0x4410, 3, 0x07, 0x07, 5, 0, 0, 0, none, false⟩, -- SLOT_GROUPS
  ⟨1, 0x4420, 3, 0x01, 0x01, 4, 1, 1, 0, none, false⟩, -- CRC_CTRL
  ⟨1, 0x4420, 3, 0x02, 0x02, 4, 1, 1, 4294967295, none, false⟩, -- CRC_VALUE
  ⟨1, 0x4420, 3, 0x03, 0x03, 5, 1, 1, 0, none, false⟩, -- CRC_LENGTH
  ⟨1, 0x4430, 64, 0x01, 0x01, 2, 0, 0, 255, none, false⟩, -- MODEL_SLOT
  ⟨1, 0x4430, 64, 0x02, 0x02, 12, 2, 1, 0, none, false⟩, -- MODEL_ORDER
  ⟨1, 0x4430, 64, 0x03, 0x03, 8, 1, 1, 2139095040, none, false⟩, -- REPORT_THRESHOLD
  ⟨1, 0x4430, 64, 0x04, 0x04, 4, 1, 1, 100, some (0, 60000), false⟩, -- REPORT_EVERY_MS
  ⟨1, 0x4430, 64, 0x05, 0x05, 3, 1, 1, 256, some (0, 4096), false⟩, -- REPORT_MAX
  ⟨1, 0x4430, 64, 0x06, 0x06, 5, 0, 0, 0, none, false⟩, -- ROWS_SCORED
  ⟨1, 0x4430, 64, 0x07, 0x07, 5, 0, 0, 0, none, false⟩, -- ROWS_REJECTED
  ⟨1, 0x4430, 64, 0x08, 0x08, 5, 0, 0, 0, none, false⟩, -- ROWS_SKIPPED
  ⟨1, 0x4430, 64, 0x09, 0x09, 5, 0, 0, 0, none, false⟩, -- ROWS_ABSENT
  ⟨1, 0x4430, 64, 0x0a, 0x0a, 12, 0, 0, 0, none, false⟩, -- SCORE_TABLE
  ⟨1, 0x4430, 64, 0x0b, 0x0b, 12, 0, 0, 0, none, false⟩, -- ORDER_PENDING
  ⟨1, 0x4430, 64, 0x0c, 0x0c, 4, 0, 0, 0, none, false⟩, -- ADMITTED_PPM
  ⟨1, 0x4470, 1, 0x01, 0x01, 12, 2, 1, 0, none, false⟩, -- ROW_SUBMIT
  ⟨1, 0x4470, 1, 0x02, 0x02, 12, 0, 0, 0, none, false⟩, -- ROW_RESULT
  ⟨1, 0x4480, 1, 0x01, 0x01, 12, 1, 1, 0, none, false⟩, -- BATCH_SPEC
  ⟨1, 0x4480, 1, 0x02, 0x02, 4, 2, 1, 0, none, false⟩, -- BATCH_START
  ⟨1, 0x4480, 1, 0x03, 0x03, 2, 0, 0, 0, none, false⟩, -- BATCH_STATE
  ⟨1, 0x4480, 1, 0x04, 0x04, 5, 0, 0, 0, none, false⟩, -- BATCH_ROWS_DONE
  ⟨1, 0x4480, 1, 0x05, 0x05, 1, 2, 1, 0, none, false⟩] -- BATCH_ABORT

/-- Objects 0x4800 to 0x6100. -/
def objRows14 : List ObjRow := [
  ⟨1, 0x4800, 1, 0x01, 0x01, 2, 0, 0, 15, none, false⟩, -- ENGINE_MAP
  ⟨1, 0x4800, 1, 0x02, 0x02, 4, 0, 0, 0, none, false⟩, -- ENGINE_SWAPS
  ⟨1, 0x4800, 1, 0x03, 0x03, 5, 0, 0, 0, none, false⟩, -- BLOCKS_DECODED
  ⟨1, 0x4800, 1, 0x04, 0x04, 5, 0, 0, 0, none, false⟩, -- BLOCKS_BAD
  ⟨1, 0x4800, 1, 0x05, 0x05, 5, 0, 0, 0, none, false⟩, -- FALLBACK_BLOCKS
  ⟨1, 0x4810, 5, 0x01, 0x01, 4, 1, 1, 0, none, false⟩, -- CRC_CTRL
  ⟨1, 0x4810, 5, 0x02, 0x02, 4, 1, 1, 4294967295, none, false⟩, -- CRC_VALUE
  ⟨1, 0x4810, 5, 0x03, 0x03, 5, 1, 1, 0, none, false⟩, -- CRC_LENGTH
  ⟨2, 0x6000, 1, 0x01, 0x01, 4, 3, 0, 2048, none, false⟩, -- EVR_CAPACITY
  ⟨1, 0x6000, 1, 0x01, 0x01, 4, 3, 0, 32768, none, false⟩, -- EVR_CAPACITY
  ⟨3, 0x6000, 1, 0x02, 0x02, 5, 0, 0, 0, none, false⟩, -- EVR_TOTAL
  ⟨3, 0x6000, 1, 0x03, 0x03, 5, 1, 0, 0, none, false⟩, -- EVR_READ_FROM
  ⟨3, 0x6000, 1, 0x04, 0x04, 12, 0, 0, 0, none, false⟩, -- EVR_DATA
  ⟨3, 0x6000, 1, 0x05, 0x05, 5, 2, 0, 0, none, false⟩, -- EVR_CLEAR
  ⟨3, 0x6000, 1, 0x06, 0x06, 1, 2, 1, 0, none, false⟩, -- EVR_FLUSH
  ⟨3, 0x6000, 1, 0x07, 0x07, 5, 0, 0, 0, none, false⟩, -- EVR_OVERWRITTEN
  ⟨3, 0x6000, 1, 0x08, 0x08, 4, 0, 0, 0, none, false⟩, -- EVR_FLUSHES
  ⟨3, 0x6000, 1, 0x09, 0x09, 4, 0, 0, 0, none, false⟩, -- EVR_FLUSH_SKIPPED
  ⟨3, 0x6000, 1, 0x0a, 0x0a, 5, 0, 0, 0, none, false⟩, -- EVR_FROZEN_DROPS
  ⟨1, 0x6001, 1, 0x01, 0x20, 12, 0, 0, 0, none, false⟩, -- EVR_PORT_DATA
  ⟨1, 0x6010, 1, 0x01, 0x04, 12, 0, 0, 0, none, false⟩, -- EVR_NOR_SLOT
  ⟨1, 0x6010, 1, 0x05, 0x05, 4, 1, 0, 0, none, false⟩, -- EVR_NOR_OFFSET
  ⟨2, 0x6100, 1, 0x02, 0x02, 2, 1, 2, 2, some (0, 2), false⟩, -- MBOX_LEVEL
  ⟨2, 0x6100, 1, 0x03, 0x03, 2, 1, 2, 1, some (0, 2), false⟩, -- MBOX_LEVEL
  ⟨2, 0x6100, 1, 0x04, 0x04, 2, 1, 2, 1, some (0, 2), false⟩, -- MBOX_LEVEL
  ⟨2, 0x6100, 1, 0x05, 0x05, 2, 1, 2, 2, some (0, 2), false⟩, -- MBOX_LEVEL
  ⟨1, 0x6100, 1, 0x06, 0x06, 2, 1, 2, 2, some (0, 2), false⟩, -- MBOX_LEVEL
  ⟨1, 0x6100, 1, 0x07, 0x07, 2, 1, 2, 0, some (0, 2), false⟩, -- MBOX_LEVEL
  ⟨1, 0x6100, 1, 0x08, 0x08, 2, 1, 2, 2, some (0, 2), false⟩] -- MBOX_LEVEL

/-- Objects 0x6110 to 0x6810. -/
def objRows15 : List ObjRow := [
  ⟨2, 0x6110, 8, 0x01, 0x01, 2, 1, 1, 0, some (0, 1), true⟩, -- CH_DIR
  ⟨1, 0x6110, 64, 0x01, 0x01, 2, 1, 1, 0, some (0, 1), true⟩, -- CH_DIR
  ⟨2, 0x6110, 8, 0x02, 0x02, 4, 0, 0, 0, none, false⟩, -- CH_STATUS
  ⟨1, 0x6110, 64, 0x02, 0x02, 4, 0, 0, 0, none, false⟩, -- CH_STATUS
  ⟨2, 0x6110, 8, 0x03, 0x03, 5, 0, 0, 0, none, false⟩, -- MESSAGES
  ⟨1, 0x6110, 64, 0x03, 0x03, 5, 0, 0, 0, none, false⟩, -- MESSAGES
  ⟨2, 0x6110, 8, 0x04, 0x04, 5, 0, 0, 0, none, false⟩, -- FULL_DROPS
  ⟨1, 0x6110, 64, 0x04, 0x04, 5, 0, 0, 0, none, false⟩, -- FULL_DROPS
  ⟨2, 0x6110, 8, 0x05, 0x05, 5, 0, 0, 0, none, false⟩, -- BAD_WRITES
  ⟨1, 0x6110, 64, 0x05, 0x05, 5, 0, 0, 0, none, false⟩, -- BAD_WRITES
  ⟨2, 0x6110, 8, 0x06, 0x06, 5, 0, 0, 0, none, false⟩, -- WAKES
  ⟨1, 0x6110, 64, 0x06, 0x06, 5, 0, 0, 0, none, false⟩, -- WAKES
  ⟨1, 0x6800, 1, 0x01, 0x01, 2, 1, 1, 7, some (0, 7), false⟩, -- PIN_LIMIT_EIGHTHS
  ⟨1, 0x6800, 1, 0x02, 0x02, 4, 3, 0, 2097152, none, false⟩, -- SEGMENT_BYTES
  ⟨1, 0x6800, 1, 0x03, 0x03, 4, 0, 0, 0, none, false⟩, -- RESET_EPOCH
  ⟨1, 0x6800, 1, 0x04, 0x04, 5, 0, 0, 0, none, false⟩, -- RING_ORPHANS
  ⟨1, 0x6802, 1, 0x01, 0x20, 3, 1, 2, 4096, some (64, 16384), false⟩, -- PART_SEGMENTS
  ⟨1, 0x6802, 1, 0x21, 0x21, 3, 0, 0, 512, none, false⟩, -- PART_SEGMENTS
  ⟨1, 0x6803, 1, 0x01, 0x21, 5, 0, 0, 0, none, false⟩, -- PART_OLDEST_TS64
  ⟨1, 0x6804, 1, 0x01, 0x21, 3, 0, 0, 0, none, false⟩, -- PART_PINNED
  ⟨1, 0x6805, 1, 0x01, 0x21, 5, 0, 0, 0, none, false⟩, -- PART_RATE_BPS
  ⟨1, 0x6806, 1, 0x01, 0x21, 5, 0, 0, 0, none, false⟩, -- PART_OVERWRITES
  ⟨1, 0x6808, 1, 0x01, 0x08, 12, 0, 0, 0, none, false⟩, -- PIN_HOLD
  ⟨1, 0x6809, 1, 0x01, 0x01, 4, 2, 1, 0, none, false⟩, -- PIN_RELEASE
  ⟨1, 0x6809, 1, 0x02, 0x02, 4, 1, 1, 0, none, false⟩, -- PIN_EXPIRY_S
  ⟨1, 0x6809, 1, 0x03, 0x03, 5, 0, 0, 0, none, false⟩, -- PIN_REFUSED
  ⟨1, 0x6809, 1, 0x04, 0x04, 5, 0, 0, 0, none, false⟩, -- PIN_TRIMMED
  ⟨1, 0x6810, 1, 0x01, 0x01, 4, 1, 1, 0, none, false⟩, -- CRC_CTRL
  ⟨1, 0x6810, 1, 0x02, 0x02, 4, 1, 1, 4294967295, none, false⟩, -- CRC_VALUE
  ⟨1, 0x6810, 1, 0x03, 0x03, 5, 1, 1, 0, none, false⟩] -- CRC_LENGTH

/-- Objects 0x6820 to 0x7004. -/
def objRows16 : List ObjRow := [
  ⟨1, 0x6820, 4, 0x01, 0x01, 4, 1, 1, 0, none, false⟩, -- CRC_CTRL
  ⟨1, 0x6820, 4, 0x02, 0x02, 4, 1, 1, 4294967295, none, false⟩, -- CRC_VALUE
  ⟨1, 0x6820, 4, 0x03, 0x03, 5, 1, 1, 0, none, false⟩, -- CRC_LENGTH
  ⟨1, 0x6830, 1, 0x01, 0x01, 12, 2, 1, 0, none, false⟩, -- CUT_ORDER
  ⟨1, 0x6830, 1, 0x02, 0x02, 12, 2, 1, 0, none, false⟩, -- CUT_CANCEL
  ⟨1, 0x6830, 1, 0x03, 0x03, 3, 1, 1, 20, some (5, 100), false⟩, -- CUT_ACK_US
  ⟨1, 0x6830, 1, 0x04, 0x04, 3, 1, 1, 10, some (1, 1000), false⟩, -- CUT_POST_MS
  ⟨1, 0x6830, 1, 0x05, 0x05, 4, 1, 1, 0, none, false⟩, -- CUT_PRE_S
  ⟨1, 0x6830, 1, 0x06, 0x06, 3, 1, 1, 1000, some (100, 10000), false⟩, -- CUT_HOLD_MS
  ⟨1, 0x6831, 1, 0x01, 0x08, 12, 0, 0, 0, none, false⟩, -- CUT_STATUS
  ⟨1, 0x6832, 1, 0x01, 0x08, 12, 0, 0, 0, none, false⟩, -- CUT_DIGESTS
  ⟨1, 0x6840, 4, 0x01, 0x01, 12, 1, 1, 0, none, false⟩, -- DUMP_SPEC
  ⟨1, 0x6840, 4, 0x02, 0x02, 4, 2, 1, 0, none, false⟩, -- DUMP_START
  ⟨1, 0x6840, 4, 0x03, 0x03, 2, 0, 0, 0, none, false⟩, -- DUMP_STATE
  ⟨1, 0x6840, 4, 0x04, 0x04, 5, 0, 0, 0, none, false⟩, -- DUMP_BYTES
  ⟨1, 0x6840, 4, 0x05, 0x05, 1, 2, 1, 0, none, false⟩, -- DUMP_ABORT
  ⟨1, 0x6840, 4, 0x06, 0x06, 12, 0, 0, 0, none, false⟩, -- DUMP_MANIFEST
  ⟨1, 0x7000, 1, 0x01, 0x01, 2, 1, 1, 8, some (1, 50), false⟩, -- MARGIN_WARN_PCT
  ⟨1, 0x7000, 1, 0x02, 0x02, 2, 1, 1, 3, some (0, 49), false⟩, -- MARGIN_CRIT_PCT
  ⟨1, 0x7000, 1, 0x03, 0x03, 4, 1, 1, 64, some (1, 1000000), false⟩, -- ECC_WARN_PER_H
  ⟨1, 0x7000, 1, 0x04, 0x04, 2, 1, 1, 50, some (10, 95), false⟩, -- EYE_MIN_PCT
  ⟨1, 0x7000, 1, 0x05, 0x05, 4, 0, 0, 0, none, false⟩, -- SWAPS_TOTAL
  ⟨1, 0x7000, 1, 0x06, 0x06, 4, 0, 0, 0, none, false⟩, -- WORN_NO_SPARE
  ⟨1, 0x7001, 1, 0x01, 0x04, 3, 0, 0, 0, none, false⟩, -- MARGIN_MIN
  ⟨1, 0x7002, 1, 0x01, 0x01, 12, 0, 0, 0, none, false⟩, -- SPARE_STATUS
  ⟨1, 0x7003, 1, 0x01, 0x22, 2, 0, 0, 0, none, false⟩, -- EYE_PCT
  ⟨1, 0x7004, 1, 0x01, 0x01, 2, 1, 1, 0, some (0, 1), true⟩, -- SCRUB_RATE
  ⟨1, 0x7004, 1, 0x02, 0x02, 4, 0, 0, 0, none, false⟩, -- HBM_ROWS_REPAIRED
  ⟨1, 0x7004, 1, 0x03, 0x03, 3, 0, 0, 0, none, false⟩, -- HBM_PC_SPARED
  ⟨1, 0x7004, 1, 0x04, 0x04, 5, 0, 0, 0, none, false⟩] -- ECC_CORR_LAST_H

/-- Objects 0x7800 to 0x7c40. -/
def objRows17 : List ObjRow := [
  ⟨1, 0x7800, 7, 0x01, 0x01, 2, 0, 0, 0, none, false⟩, -- PWR_STATE
  ⟨1, 0x7800, 7, 0x02, 0x02, 4, 0, 0, 0, none, false⟩, -- PWR_BACKOFF_US
  ⟨1, 0x7800, 7, 0x03, 0x07, 5, 0, 0, 0, none, false⟩, -- PWR_COUNTS
  ⟨1, 0x7880, 1, 0x01, 0x01, 4, 0, 0, 0, none, false⟩, -- PWR_UNITS_HELD
  ⟨1, 0x7880, 1, 0x02, 0x02, 2, 1, 2, 0, some (0, 1), true⟩, -- TRAY_PWR_MODE
  ⟨1, 0x7880, 1, 0x03, 0x03, 3, 1, 2, 2770, some (0, 3000), false⟩, -- SELF_GRANT_UNITS
  ⟨1, 0x7880, 1, 0x04, 0x04, 3, 3, 0, 100, none, false⟩, -- PWR_TIMEOUT_US
  ⟨1, 0x7c00, 1, 0x01, 0x01, 2, 0, 0, 0, none, false⟩, -- CAL_SOURCE
  ⟨1, 0x7c00, 1, 0x02, 0x02, 4, 0, 0, 0, none, false⟩, -- CAL_DIGEST
  ⟨1, 0x7c00, 1, 0x03, 0x03, 4, 0, 0, 0, none, false⟩, -- CAL_WRITES
  ⟨1, 0x7c00, 1, 0x04, 0x04, 4, 2, 2, 0, none, false⟩, -- CAL_ARM
  ⟨1, 0x7c00, 1, 0x05, 0x05, 12, 1, 2, 0, none, false⟩, -- CAL_IMAGE
  ⟨1, 0x7c00, 1, 0x06, 0x06, 5, 0, 0, 0, none, false⟩, -- CAL_FACTORY_TS64
  ⟨1, 0x7c01, 1, 0x01, 0x10, 6, 1, 2, 0, some (-2000, 2000), false⟩, -- THERMAL_TRIM
  ⟨1, 0x7c02, 1, 0x01, 0x08, 6, 1, 2, 0, some (-500, 500), false⟩, -- VMON_TRIM
  ⟨1, 0x7c10, 1, 0x01, 0x20, 6, 1, 2, 0, some (-20000, 20000), false⟩, -- TL_ASYM_PS
  ⟨1, 0x7c11, 1, 0x01, 0x02, 6, 1, 2, 0, some (-1000000, 1000000), false⟩, -- PTP_ASYM_PS
  ⟨1, 0x7c12, 1, 0x01, 0x01, 6, 1, 2, 0, some (-100000, 100000), false⟩, -- PPS_OUT_DELAY_PS
  ⟨1, 0x7c13, 1, 0x01, 0x20, 6, 1, 2, 0, some (-100000, 100000), false⟩, -- TU_PULSE_DELAY_PS
  ⟨1, 0x7c20, 1, 0x01, 0x04, 6, 1, 2, 0, some (1, 100000), false⟩, -- RO_BASELINE_PS
  ⟨1, 0x7c30, 1, 0x01, 0x08, 8, 1, 2, 0, some (1056964608, 1073741824), false⟩, -- SENSOR_GAIN
  ⟨1, 0x7c40, 32, 0x01, 0x01, 6, 1, 2, 0, some (-2000, 2000), false⟩, -- TU_THERMAL_TRIM
  ⟨1, 0x7c40, 32, 0x02, 0x02, 6, 1, 2, 0, some (-500, 500), false⟩, -- TU_VMON_TRIM
  ⟨1, 0x7c40, 32, 0x03, 0x03, 6, 1, 2, 0, some (1, 100000), false⟩] -- TU_RO_BASELINE_PS

/-- The rows among which the row of an index lies. -/
def objChunk (idx : Nat) : List ObjRow :=
  if idx < 0x1102 then objRows0
  else if idx < 0x1172 then objRows1
  else if idx < 0x1230 then objRows2
  else if idx < 0x2380 then objRows3
  else if idx < 0x2610 then objRows4
  else if idx < 0x2771 then objRows5
  else if idx < 0x2901 then objRows6
  else if idx < 0x2a01 then objRows7
  else if idx < 0x2a30 then objRows8
  else if idx < 0x3000 then objRows9
  else if idx < 0x3300 then objRows10
  else if idx < 0x3600 then objRows11
  else if idx < 0x4410 then objRows12
  else if idx < 0x4800 then objRows13
  else if idx < 0x6110 then objRows14
  else if idx < 0x6820 then objRows15
  else if idx < 0x7800 then objRows16
  else objRows17

/-- The row of an object on a node of kind `nodes` (1 Fyster, 2 TU); 0 for either kind. -/
def objFind (nodes idx sub : Nat) : Option ObjRow :=
  (objChunk idx).find? fun r =>
    Nat.ble r.base idx && Nat.blt idx (r.base + r.count) && Nat.ble r.subLo sub && Nat.ble sub r.subHi &&
      (nodes == 0 || Nat.land r.nodes nodes != 0)

/-- R348: what an object that is not in the table answers: NO_SUB if the index is served, else NO_OBJECT. -/
def objMissing (nodes idx : Nat) : Nat :=
  if (objChunk idx).any fun r => Nat.ble r.base idx && Nat.blt idx (r.base + r.count) && Nat.land r.nodes nodes != 0 then 0x21
  else 0x20

/-- The default of a numeric object. -/
def objDefault (idx sub : Nat) : Nat :=
  match objFind 0 idx sub with
  | some r => r.dflt
  | none => 0

end Sys2Proof.Machine
end

