-- ==== Sys2Proof/Machine/Ops.lean ====
section
/-! DEFINITION. Named operations that every chapter uses: tables, bytes and bit fields, byte memory, CRC-32C, the registers
of a part, its recorder, its loss accumulators, its scheduled orders and its time. -/

namespace Sys2Proof.Machine

/-! ### Tables -/

/-- The entry of key `k`, or the table's start value `d`. -/
def tget {α : Type} : Tab α → Nat → α → α
  | [], _, d => d
  | (a, b) :: r, k, d => if a = k then b else tget r k d

/-- The table with entry `k` set. -/
def tset {α : Type} : Tab α → Nat → α → Tab α
  | [], k, v => [(k, v)]
  | (a, b) :: r, k, v =>
    if k < a then (k, v) :: (a, b) :: r else if k = a then (k, v) :: r else (a, b) :: tset r k v

/-- The table with entry `k` changed by `f`. -/
def tmod {α : Type} (t : Tab α) (k : Nat) (d : α) (f : α → α) : Tab α := tset t k (f (tget t k d))

/-- The entry of key `k` if it is listed. -/
def tfind {α : Type} : Tab α → Nat → Option α
  | [], _ => none
  | (a, b) :: r, k => if a = k then some b else tfind r k

/-- The table without entry `k`. -/
def tdel {α : Type} : Tab α → Nat → Tab α
  | [], _ => []
  | (a, b) :: r, k => if a = k then tdel r k else (a, b) :: tdel r k

/-- Replace the first entry that meets `p` by `f` of it. -/
def modFirst {α : Type} (p : α → Bool) (f : α → α) : List α → List α
  | [] => []
  | a :: r => if p a then f a :: r else a :: modFirst p f r

/-- Apply `f` to every entry that meets `p`. -/
def modAll {α : Type} (p : α → Bool) (f : α → α) (l : List α) : List α := l.map fun a => if p a then f a else a

/-- A value put into a sorted list, before the first that is not below it. -/
def insertBy {α : Type} (le : α → α → Bool) (a : α) : List α → List α
  | [] => [a]
  | b :: r => if le a b then a :: b :: r else b :: insertBy le a r

/-- A list in ascending order. -/
def sortBy {α : Type} (le : α → α → Bool) : List α → List α
  | [] => []
  | a :: r => insertBy le a (sortBy le r)

/-- The last `n` entries. -/
def lastN {α : Type} (n : Nat) (l : List α) : List α := l.drop (l.length - n)

/-- The sum of `f` over a list. -/
def sumBy {α : Type} (f : α → Nat) (l : List α) : Nat := l.foldl (fun n a => n + f a) 0

/-! ### Numbers, bytes and words (R2) -/

/-- Quotient rounded up. -/
def ceilDiv (a b : Nat) : Nat := (a + b - 1) / b

/-- `n` bytes of `v`, little-endian (R2). -/
def leBytes : Nat → Nat → List Byte
  | 0, _ => []
  | n + 1, v => BitVec.ofNat 8 v :: leBytes n (v / 256)

/-- The number that bytes spell, little-endian. -/
def leNat : List Byte → Nat
  | [] => 0
  | b :: r => b.toNat + 256 * leNat r

/-- Bytes `ofs` to `ofs + len - 1`. -/
def slice (bs : List Byte) (ofs len : Nat) : List Byte := (bs.drop ofs).take len

/-- The little-endian field of `len` bytes at `ofs`. -/
def fieldAt (bs : List Byte) (ofs len : Nat) : Nat := leNat (slice bs ofs len)

/-- Bytes padded with zeros to a multiple of `m`. -/
def padTo (m : Nat) (bs : List Byte) : List Byte :=
  if m = 0 then bs else bs ++ List.replicate ((m - bs.length % m) % m) 0

/-- The 8 bytes of a word. -/
def wordBytes (w : Word) : List Byte := leBytes 8 w.toNat

/-- The bytes of words. -/
def wordsBytes (ws : List Word) : List Byte := ws.flatMap wordBytes

/-- Words from bytes: `n` words, a missing byte being 0. -/
def bytesWords : Nat → List Byte → List Word
  | 0, _ => []
  | n + 1, bs => BitVec.ofNat 64 (leNat (bs.take 8)) :: bytesWords n (bs.drop 8)

/-- All the bytes as words, the last one padded with zeros. -/
def allWords (bs : List Byte) : List Word := bytesWords (ceilDiv bs.length 8) bs

/-- Fields (value, width) packed from bit 0 upward. -/
def packNat : List (Nat × Nat) → Nat
  | [] => 0
  | (v, w) :: r => v % 2 ^ w + 2 ^ w * packNat r

/-- `n` words of a number. -/
def natWords : Nat → Nat → List Word
  | 0, _ => []
  | n + 1, v => BitVec.ofNat 64 v :: natWords n (v / 2 ^ 64)

/-- The number of words, first word lowest. -/
def wordsNat : List Word → Nat
  | [] => 0
  | w :: r => w.toNat + 2 ^ 64 * wordsNat r

/-- The field of `len` bits from bit `lo`. -/
def bitsOf (v lo len : Nat) : Nat := v / 2 ^ lo % 2 ^ len

/-- One bit. -/
def bitOf (v i : Nat) : Bool := v / 2 ^ i % 2 == 1

/-- A number with bit `i` set or cleared. -/
def setBit (v i : Nat) (b : Bool) : Nat :=
  if bitOf v i then (if b then v else v - 2 ^ i) else (if b then v + 2 ^ i else v)

/-- 1 for true. -/
def b2n (b : Bool) : Nat := if b then 1 else 0

/-- Two's complement of width `w`. -/
def ofInt (w : Nat) (x : Int) : Nat := (x % (2 ^ w : Int)).toNat

/-- The signed value of `w` bits. -/
def toInt (w v : Nat) : Int := if v < 2 ^ (w - 1) then (v : Int) else (v : Int) - 2 ^ w

/-- The number of ones among the low `n` bits. -/
def popCount : Nat → Nat → Nat
  | 0, _ => 0
  | n + 1, v => v % 2 + popCount n (v / 2)

/-- The largest value of a 64-bit count. -/
def max64 : Nat := 2 ^ 64 - 1

/-! ### Byte memory: canonical cells, an unlisted byte reads 0 (log 5) -/

/-- One byte of memory. -/
def memGet : List Host.Cell → Nat → Byte
  | [], _ => 0
  | (a, b) :: r, k => if a = k then b else memGet r k

/-- Memory with one byte written; a zero byte is not listed. -/
def memSet : List Host.Cell → Nat → Byte → List Host.Cell
  | [], k, v => if v = 0 then [] else [(k, v)]
  | (a, b) :: r, k, v =>
    if k < a then (if v = 0 then (a, b) :: r else (k, v) :: (a, b) :: r)
    else if k = a then (if v = 0 then r else (k, v) :: r)
    else (a, b) :: memSet r k v

/-- Bytes written from address `k` upward. -/
def memWrite : List Host.Cell → Nat → List Byte → List Host.Cell
  | m, _, [] => m
  | m, k, b :: r => memWrite (memSet m k b) (k + 1) r

/-- `n` bytes read from address `k` upward. -/
def memRead (m : List Host.Cell) (k : Nat) : Nat → List Byte
  | 0 => []
  | n + 1 => memGet m k :: memRead m (k + 1) n

/-- The canonical form: addresses strictly rising from `lo`, no zero byte listed. -/
def memWfFrom (lo : Nat) : List Host.Cell → Bool
  | [] => true
  | (a, b) :: r => decide (lo ≤ a) && decide (b ≠ 0) && memWfFrom (a + 1) r

/-- The canonical form of a byte memory. -/
def Memory.wf (m : List Host.Cell) : Bool := memWfFrom 0 m

/-! ### CRC-32C (R76) -/

/-- One step of the reflected register. -/
def crcBit (c : Nat) : Nat := if c % 2 = 1 then (c / 2) ^^^ 0x82F63B78 else c / 2

/-- The register after one byte. -/
def crcByte (c : Nat) (b : Byte) : Nat :=
  crcBit (crcBit (crcBit (crcBit (crcBit (crcBit (crcBit (crcBit (c ^^^ b.toNat))))))))

/-- The running register after bytes. -/
def crcRun (c : Nat) (bs : List Byte) : Nat := bs.foldl crcByte c

/-- The check value of bytes. -/
def crc32c (bs : List Byte) : Nat := crcRun 0xFFFFFFFF bs ^^^ 0xFFFFFFFF

/-! ### Time (R25 to R27) -/

/-- Whole nanoseconds of fleet time. -/
def TimeUnit.ns (t : TimeUnit) : Nat := t.now / 65536

/-- TS64 of a full time in ns (R26). -/
def ts64Of (ns : Nat) : Nat := ns % 2 ^ 64

/-- TS64 of the time unit (R26). -/
def TimeUnit.ts (t : TimeUnit) : Nat := ts64Of t.ns

/-- SEC of the time unit (R25). -/
def TimeUnit.sec (t : TimeUnit) : Nat := t.ns / 1000000000

/-- SERVO_STATE code (R40). -/
def Servo.code : Servo → Nat
  | .freeRun => 0
  | .acquiring => 1
  | .locked => 2
  | .holdover => 3
  | .stepPending => 4

/-- A TIME96 value in ns: U64 seconds, then U32 nanoseconds (R25, R347). -/
def time96 (bs : List Byte) (ofs : Nat) : Nat := fieldAt bs ofs 8 * 1000000000 + fieldAt bs (ofs + 8) 4

/-- The bytes of a TIME96 value. -/
def time96Bytes (ns : Nat) : List Byte := leBytes 8 (ns / 1000000000) ++ leBytes 4 (ns % 1000000000)

/-- An instant of the grid (PERIOD, PHASE) in ns (R51). -/
def onGrid (period phase ns : Nat) : Bool :=
  period != 0 && ((ts64Of ns : Int) - phase) % period == 0

/-- A legal pair of PERIOD and PHASE (R51). -/
def gridOk (period phase : Nat) : Bool :=
  period % 1000 == 0 && decide (1000 ≤ period) && decide (period ≤ 10000000000) && phase % 1000 == 0 &&
    decide (phase < period)

/-! ### Objects of a part (R347) -/

/-- The key of an object. -/
def objKey (idx sub : Nat) : Nat := idx * 256 + sub

/-- The numeric object as it reads. -/
def Part.rd (p : Part) (idx sub : Nat) : Nat :=
  match tfind p.obj (objKey idx sub) with
  | some v => v
  | none => objDefault idx sub

/-- A BOOL object. -/
def Part.flag (p : Part) (idx sub : Nat) : Bool := p.rd idx sub == 1

/-- The part with a numeric object set. -/
def Part.wr (p : Part) (idx sub v : Nat) : Part := { p with obj := tset p.obj (objKey idx sub) v }

/-- A DOMAIN object as it reads. -/
def Part.rdDom (p : Part) (idx sub : Nat) : List Byte := tget p.dom (objKey idx sub) []

/-- The part with a DOMAIN object set. -/
def Part.wrDom (p : Part) (idx sub : Nat) (v : List Byte) : Part :=
  { p with dom := tset p.dom (objKey idx sub) v }

/-- Bytes of a value of a type code, 0 for a string or DOMAIN (R347). -/
def typeBytes (ty : Nat) : Nat :=
  match ty with
  | 1 => 1 | 2 => 1 | 3 => 2 | 4 => 4 | 5 => 8 | 6 => 4 | 7 => 8 | 8 => 4 | 9 => 8 | 10 => 12 | 13 => 2
  | _ => 0

/-- Bits of an object's value. -/
def objBits (idx sub : Nat) : Nat :=
  match objFind 0 idx sub with
  | some r => 8 * typeBytes r.type
  | none => 64

/-- A count raised by `n`; what it shows past its width is not stated (log 13). -/
def countUp (bits key v n : Nat) : Nat := if v + n < 2 ^ bits then v + n else Config.countPast key v n % 2 ^ bits

/-- The part with a counting object raised by `n`. -/
def Part.bump (p : Part) (idx sub n : Nat) : Part :=
  p.wr idx sub (countUp (objBits idx sub) (objKey idx sub) (p.rd idx sub) n)

/-! ### Event recorder (R376 to R379) -/

/-- An event as it occurs. `noMerge`: never merged under R378; `first`: FIRST_TS64 if it is not the time of the event. -/
structure Event where
  code    : Nat
  unit    : Nat
  param   : Nat
  arg     : Nat
  late    : Bool
  gslot   : Nat
  noMerge : Bool
  first   : Option Nat
deriving DecidableEq, Repr

/-- A plain event. -/
def event (code unit param arg : Nat) : Event :=
  { code := code, unit := unit, param := param, arg := arg, late := false, gslot := 0xFF, noMerge := false, first := none }

/-- The record that an event would make. -/
def Event.toRec (e : Event) (ts : Nat) (uncertain : Bool) : EvRec :=
  { code := e.code, unit := e.unit, param := e.param, rep := 0, uncertain := uncertain, late := e.late, repSat := false,
    gslot := e.gslot,
    arg := e.arg, first := e.first.getD ts, last := ts }

/-- The newest record held. -/
def Recorder.newest (r : Recorder) : Option EvRec := r.log.getLast?

/-- R378: an event that equals the newest record is merged into it. -/
def Recorder.merges (r : Recorder) (e : Event) : Bool :=
  match r.newest with
  | some n => r.mergeable && !e.noMerge && n.code == e.code && n.unit == e.unit && n.param == e.param
  | none => false

/-- R378: one repeat of a record. -/
def EvRec.again (n : EvRec) (arg ts : Nat) : EvRec :=
  if n.rep < 65535 then { n with rep := n.rep + 1, arg := arg, last := ts }
  else { n with repSat := true, arg := arg, last := ts }

/-- The recorder after an event; the second answer lists the TR_EVENT records to be offered: (true: UPDATE) and record;
the third is how many records were overwritten before they were cleared (R376). -/
def Recorder.add (r : Recorder) (cap : Nat) (e : Event) (ts : Nat) (uncertain : Bool) :
    Recorder × List (Bool × EvRec) × Nat :=
  match r.merges e, r.newest with
  | true, some n =>
    ({ r with log := r.log.dropLast ++ [n.again e.arg ts], grown := true }, [], 0)
  | _, n? =>
    let upd : List (Bool × EvRec) :=
      match n? with
      | some n => if r.grown && r.mergeable then [(true, n)] else []
      | none => []
    let rec' := e.toRec ts uncertain
    let full := decide (cap ≤ r.log.length)
    ({ r with
        log := (if full then r.log.drop 1 else r.log) ++ [rec']
        firstNo := if full then r.firstNo + 1 else r.firstNo
        total := r.total + 1
        mergeable := !e.noMerge
        grown := false
        offeredAt := ts },
      upd ++ [(false, rec')], if full then 1 else 0)

/-- The 32 bytes of a record of the event recorder as a number (R377). -/
def EvRec.nat (r : EvRec) : Nat :=
  packNat [(r.code, 16), (r.unit, 16), (r.param, 32), (r.rep, 16), (b2n r.uncertain, 1), (b2n r.late, 1),
    (b2n r.repSat, 1), (0, 13), (r.arg, 32), (r.first, 64), (r.last, 64)]

/-- The 32 bytes of a record. -/
def EvRec.bytes (r : EvRec) : List Byte := leBytes 32 r.nat

/-- A recorder record from its 256 bits (R377). -/
def evRecOf (v : Nat) : EvRec :=
  { code := bitsOf v 0 16, unit := bitsOf v 16 16, param := bitsOf v 32 32, rep := bitsOf v 64 16,
    uncertain := bitOf v 80, late := bitOf v 81, repSat := bitOf v 82, gslot := 0xFF, arg := bitsOf v 96 32,
    first := bitsOf v 128 64, last := bitsOf v 192 64 }

/-- R381: discard the records numbered below `n`; answers how many were discarded. -/
def Recorder.clear (r : Recorder) (n : Nat) : Recorder × Nat :=
  let k := min (n - r.firstNo) r.log.length
  ({ r with log := r.log.drop k, firstNo := r.firstNo + k,
            mergeable := r.mergeable && decide (k < r.log.length) }, k)

/-! ### Loss accumulators (R82) -/

/-- An accumulator with no loss since reset. -/
def LossAcc.zero : LossAcc :=
  { records := 0, bytes := 0, first := 0, last := 0, lstream := none, fresh := false, active := false, reported := 0 }

/-- An accumulator after a loss of `n` records with `bytes` bytes; both counts saturate. -/
def LossAcc.add (a : LossAcc) (n bytes : Nat) (stream : Option Nat) (ts : Nat) : LossAcc :=
  let empty := a.lstream.isNone
  { a with
    records := min (a.records + n) max64
    bytes := min (a.bytes + bytes) max64
    first := if empty then ts else a.first
    last := ts
    lstream := some (match a.lstream, stream with
      | none, some s => s
      | some x, some s => if x = s then s else 0xFFFF
      | _, none => 0xFFFF)
    fresh := true }

/-- The key of an accumulator: activity or TL port, and cause. -/
def lossKey (who cause : Nat) : Nat := who * 16 + cause

/-- The part after a loss. -/
def Part.lose (p : Part) (who cause n bytes : Nat) (stream : Option Nat) (ts : Nat) : Part :=
  { p with loss := tmod p.loss (lossKey who cause) .zero fun a => a.add n bytes stream ts }

/-! ### Scheduled orders (R17 to R23) -/

/-- The rank of an order kind within one instant (R19). -/
def OrderKind.rank : OrderKind → Nat
  | .cut => 0
  | .membership => 1
  | .grid => 2
  | .gateList => 3
  | .model => 4

/-- The highest serial accepted for a target since reset (R20). -/
def Part.heldSerial (p : Part) (k : OrderKind) (target : Nat) : Option Nat :=
  (p.held.find? fun h => h.kind == k && h.target == target).map (·.serial)

/-- R20, R22, R23: how a node answers a scheduled order. -/
inductive OrderAnswer where
  /-- Accepted: it is pending now. -/
  | accepted
  /-- Held already: acknowledged again, nothing more. -/
  | held
  /-- Refused with this abort code. -/
  | refused (abort : Nat)
deriving DecidableEq, Repr

/-- R360: of the abort codes that apply, the lowest; 0 if none does. -/
def lowestAbort (l : List (Bool × Nat)) : Nat :=
  l.foldl (fun m c => if c.1 && (m == 0 || decide (c.2 < m)) then c.2 else m) 0

/-- The answer of a node to an order of this kind, target and serial. -/
def Part.orderAnswer (p : Part) (k : OrderKind) (target serial : Nat) : OrderAnswer :=
  let others := (p.orders.filter fun o => !(o.kind == k && o.target == target)).length
  let stale := match p.heldSerial k target with
    | some h => decide (serial < h)
    | none => false
  if p.heldSerial k target = some serial then .held
  else
    match lowestAbort [(decide (32 ≤ others), 0x28), (stale, 0x2A), (!p.time.everLocked, 0x2B)] with
    | 0 => .accepted
    | a => .refused a

/-- The part with an accepted order pending in place of an earlier one for its target (R20). -/
def Part.putOrder (p : Part) (o : Order) : Part :=
  { p with
    orders := (p.orders.filter fun x => !(x.kind == o.kind && x.target == o.target)) ++ [o]
    held := (p.held.filter fun h => !(h.kind == o.kind && h.target == o.target)) ++
      [{ kind := o.kind, target := o.target, serial := o.serial }] }

/-- The pending order for a target. -/
def Part.order? (p : Part) (k : OrderKind) (target : Nat) : Option Order :=
  p.orders.find? fun o => o.kind == k && o.target == target

/-- The part without the pending order for a target. -/
def Part.dropOrder (p : Part) (k : OrderKind) (target : Nat) : Part :=
  { p with orders := p.orders.filter fun o => !(o.kind == k && o.target == target) }

/-- R19: no order due at or before `eff` ranks before this kind. -/
def Part.turn (p : Part) (k : OrderKind) (eff : Nat) : Bool :=
  p.orders.all fun o => !(decide (o.eff = eff) && decide (o.kind.rank < k.rank))

/-! ### CRC units with registers (R77, R78) -/

/-- A CRC unit after reset. -/
def CrcUnit.zero : CrcUnit :=
  { enable := false, pause := false, paused := false, value := 0xFFFFFFFF, length := 0, busy := false }

/-- The running register after `bs` is fed. -/
def CrcUnit.feed (u : CrcUnit) (bs : List Byte) : CrcUnit :=
  { u with value := BitVec.ofNat 32 (crcRun u.value.toNat bs), length := (u.length + bs.length) % 2 ^ 64 }

/-- R77, R78: bytes of the channel reach the unit while ENABLE is set and the channel is not paused. -/
def CrcUnit.take (u : CrcUnit) (bs : List Byte) : CrcUnit := if u.enable && !u.paused then u.feed bs else u

/-- A CRC unit of a part, by the index of its objects. -/
def Part.crcUnit (p : Part) (k : Nat) : CrcUnit := tget p.crc k .zero

/-- The part after bytes of the channel of a CRC unit. -/
def Part.crcTake (p : Part) (k : Nat) (bs : List Byte) : Part :=
  if (p.crcUnit k).enable then { p with crc := tset p.crc k ((p.crcUnit k).take bs) } else p

/-- CRC_VALUE and CRC_LENGTH loaded by INIT. -/
def CrcUnit.init (u : CrcUnit) : CrcUnit := { u with value := 0xFFFFFFFF, length := 0 }

end Sys2Proof.Machine
end

