-- ==== Sys2Proof/Machine/Float.lean ====
section
/-! DEFINITION. IEEE 754 binary formats on bit patterns: exact arithmetic, then one rounding (R163, R257, R290 and the chapters
that name FP64, FP32 and BF16). -/

namespace Sys2Proof.Machine

/-- A binary format: exponent bits and fraction bits. -/
structure Fmt where
  eb : Nat
  mb : Nat
deriving DecidableEq, Repr

/-- FP64. -/
def fp64 : Fmt := ⟨11, 52⟩

/-- FP32. -/
def fp32 : Fmt := ⟨8, 23⟩

/-- BF16. -/
def bf16 : Fmt := ⟨8, 7⟩

/-- A value: NaN, an infinity, or (-1)^neg × m × 2^e. -/
inductive FVal where
  | nan
  | inf (neg : Bool)
  | fin (neg : Bool) (m : Nat) (e : Int)
deriving DecidableEq, Repr

/-- Largest exponent field. -/
def Fmt.top (f : Fmt) : Nat := 2 ^ f.eb - 1

/-- Exponent bias. -/
def Fmt.bias (f : Fmt) : Nat := 2 ^ (f.eb - 1) - 1

/-- The value of a bit pattern. -/
def Fmt.decode (f : Fmt) (b : Nat) : FVal :=
  let frac := b % 2 ^ f.mb
  let ex := b / 2 ^ f.mb % 2 ^ f.eb
  let neg := b / 2 ^ (f.mb + f.eb) % 2 == 1
  if ex = f.top then (if frac = 0 then .inf neg else .nan)
  else if ex = 0 then .fin neg frac (1 - (f.bias : Int) - f.mb)
  else .fin neg (2 ^ f.mb + frac) ((ex : Int) - f.bias - f.mb)

/-- The quiet NaN that an operation gives. -/
def Fmt.qnan (f : Fmt) : Nat := f.top * 2 ^ f.mb + 2 ^ (f.mb - 1)

/-- An infinity. -/
def Fmt.infBits (f : Fmt) (neg : Bool) : Nat := (b2n neg) * 2 ^ (f.mb + f.eb) + f.top * 2 ^ f.mb

/-- floor(log2(n / d)) of positive n and d. -/
def ratLog (n d : Nat) : Int :=
  let k : Int := (Nat.log2 n : Int) - Nat.log2 d
  if k < 0 then (if n * 2 ^ k.natAbs < d then k - 1 else k) else (if n < d * 2 ^ k.natAbs then k - 1 else k)

/-- Rounding of n/d: to nearest, ties to even, or upward in magnitude. -/
inductive Rnd where
  | even
  | up
  | down
deriving DecidableEq, Repr

/-- An integer quotient rounded. -/
def roundQuot (r : Rnd) (n d : Nat) : Nat :=
  let q := n / d
  let x := n % d
  match r with
  | .down => q
  | .up => if x = 0 then q else q + 1
  | .even => if d < 2 * x ∨ (2 * x = d ∧ q % 2 = 1) then q + 1 else q

/-- The bit pattern of (-1)^neg × (n / d), rounded; an overflow gives infinity. -/
def Fmt.round (f : Fmt) (r : Rnd) (neg : Bool) (n d : Nat) : Nat :=
  let s := (b2n neg) * 2 ^ (f.mb + f.eb)
  if n = 0 then s
  else
    let emin : Int := 1 - f.bias
    let e := max (ratLog n d) emin
    let q := e - f.mb
    let m := if q < 0 then roundQuot r (n * 2 ^ q.natAbs) d else roundQuot r n (d * 2 ^ q.natAbs)
    -- A carry out of the fraction runs into the exponent field by itself.
    let body := (e - emin).toNat * 2 ^ f.mb + m
    if f.top * 2 ^ f.mb ≤ body then f.infBits neg else s + body

/-- The bit pattern of a value. -/
def Fmt.ofVal (f : Fmt) (r : Rnd) : FVal → Nat
  | .nan => f.qnan
  | .inf neg => f.infBits neg
  | .fin neg m e => if e < 0 then f.round r neg m (2 ^ e.natAbs) else f.round r neg (m * 2 ^ e.natAbs) 1

/-- The exact sum of two finite values as a signed integer at exponent `e`. -/
def addAt (n1 : Bool) (m1 : Nat) (e1 : Int) (n2 : Bool) (m2 : Nat) (e2 : Int) : Int × Int :=
  let e := min e1 e2
  let a : Int := (m1 * 2 ^ (e1 - e).natAbs : Nat)
  let b : Int := (m2 * 2 ^ (e2 - e).natAbs : Nat)
  ((if n1 then -a else a) + (if n2 then -b else b), e)

/-- The exact sum. -/
def FVal.add : FVal → FVal → FVal
  | .nan, _ => .nan
  | _, .nan => .nan
  | .inf a, .inf b => if a = b then .inf a else .nan
  | .inf a, _ => .inf a
  | _, .inf b => .inf b
  | .fin n1 m1 e1, .fin n2 m2 e2 =>
    let s := addAt n1 m1 e1 n2 m2 e2
    if s.1 = 0 then .fin (n1 && n2) 0 s.2 else .fin (decide (s.1 < 0)) s.1.natAbs s.2

/-- The negation. -/
def FVal.neg : FVal → FVal
  | .nan => .nan
  | .inf a => .inf (!a)
  | .fin n m e => .fin (!n) m e

/-- The exact product. -/
def FVal.mul : FVal → FVal → FVal
  | .nan, _ => .nan
  | _, .nan => .nan
  | .inf a, .inf b => .inf (a != b)
  | .inf a, .fin n m _ => if m = 0 then .nan else .inf (a != n)
  | .fin n m _, .inf a => if m = 0 then .nan else .inf (a != n)
  | .fin n1 m1 e1, .fin n2 m2 e2 => .fin (n1 != n2) (m1 * m2) (e1 + e2)

/-- Sum, rounded. -/
def Fmt.add (f : Fmt) (a b : Nat) : Nat := f.ofVal .even ((f.decode a).add (f.decode b))

/-- Difference, rounded. -/
def Fmt.sub (f : Fmt) (a b : Nat) : Nat := f.ofVal .even ((f.decode a).add (f.decode b).neg)

/-- Product, rounded. -/
def Fmt.mul (f : Fmt) (a b : Nat) : Nat := f.ofVal .even ((f.decode a).mul (f.decode b))

/-- Quotient, rounded. -/
def Fmt.div (f : Fmt) (a b : Nat) : Nat :=
  match f.decode a, f.decode b with
  | .nan, _ => f.qnan
  | _, .nan => f.qnan
  | .inf _, .inf _ => f.qnan
  | .inf x, .fin n _ _ => f.infBits (x != n)
  | .fin n _ _, .inf y => f.round .even (n != y) 0 1
  | .fin n1 m1 e1, .fin n2 m2 e2 =>
    if m2 = 0 then (if m1 = 0 then f.qnan else f.infBits (n1 != n2))
    else
      let k := e1 - e2
      if k < 0 then f.round .even (n1 != n2) m1 (m2 * 2 ^ k.natAbs) else f.round .even (n1 != n2) (m1 * 2 ^ k.natAbs) m2

/-- Integer square root, bit by bit from bit `k - 1` down. -/
def isqrtFrom : Nat → Nat → Nat → Nat
  | 0, _, r => r
  | k + 1, x, r => if (r + 2 ^ k) * (r + 2 ^ k) ≤ x then isqrtFrom k x (r + 2 ^ k) else isqrtFrom k x r

/-- The integer square root. -/
def isqrt (x : Nat) : Nat := isqrtFrom (Nat.log2 x / 2 + 1) x 0

/-- Square root, rounded. -/
def Fmt.sqrt (f : Fmt) (a : Nat) : Nat :=
  match f.decode a with
  | .nan => f.qnan
  | .inf neg => if neg then f.qnan else f.infBits false
  | .fin neg m e =>
    if m = 0 then a
    else if neg then f.qnan
    else
      -- m × 2^e = x × 2^(2h) with x wide enough; the last bit of 2s + sticky stands for a remainder.
      let up := 2 * f.mb + 8 + (e % 2).toNat
      let x := m * 2 ^ up
      let h := (e - up) / 2
      let s := isqrt x
      let v := 2 * s + (if s * s = x then 0 else 1)
      let k := h - 1
      if k < 0 then f.round .even false v (2 ^ k.natAbs) else f.round .even false (v * 2 ^ k.natAbs) 1

/-- A natural number. -/
def Fmt.ofNat (f : Fmt) (n : Nat) : Nat := f.round .even false n 1

/-- An integer. -/
def Fmt.ofInt (f : Fmt) (x : Int) : Nat := f.round .even (decide (x < 0)) x.natAbs 1

/-- The magnitude. -/
def Fmt.abs (f : Fmt) (a : Nat) : Nat := a % 2 ^ (f.mb + f.eb)

/-- The sign bit. -/
def Fmt.sign (f : Fmt) (a : Nat) : Bool := a / 2 ^ (f.mb + f.eb) % 2 == 1

/-- The same value with its sign turned. -/
def Fmt.negate (f : Fmt) (a : Nat) : Nat := f.abs a + (if f.sign a then 0 else 2 ^ (f.mb + f.eb))

/-- A pattern is a NaN. -/
def Fmt.isNan (f : Fmt) (a : Nat) : Bool := f.decode a == .nan

/-- A pattern is finite. -/
def Fmt.isFin (f : Fmt) (a : Nat) : Bool :=
  match f.decode a with
  | .fin _ _ _ => true
  | _ => false

/-- An order key of numbers: greater key, greater number; both zeros are equal. -/
def Fmt.key (f : Fmt) (a : Nat) : Int := if f.sign a then -(f.abs a : Int) else (f.abs a : Int)

/-- a < b, false with a NaN. -/
def Fmt.lt (f : Fmt) (a b : Nat) : Bool := !f.isNan a && !f.isNan b && decide (f.key a < f.key b)

/-- a ≤ b, false with a NaN. -/
def Fmt.le (f : Fmt) (a b : Nat) : Bool := !f.isNan a && !f.isNan b && decide (f.key a ≤ f.key b)

/-- Conversion between formats. -/
def conv (src dst : Fmt) (r : Rnd) (a : Nat) : Nat := dst.ofVal r (src.decode a)

/-- floor(log2 x) of a positive finite pattern. -/
def Fmt.ilog (f : Fmt) (a : Nat) : Int :=
  match f.decode a with
  | .fin _ m e => if m = 0 then 0 else (Nat.log2 m : Int) + e
  | _ => 0

/-- floor of a finite pattern. -/
def Fmt.floor (f : Fmt) (a : Nat) : Int :=
  match f.decode a with
  | .fin neg m e =>
    let x : Int := if neg then -(m : Int) else m
    if e < 0 then x / (2 ^ e.natAbs : Nat) else x * (2 ^ e.natAbs : Nat)
  | _ => 0

end Sys2Proof.Machine
end

