-- ==== Sys2Proof/Machine/Operands.lean ====
section
/-! DEFINITION. Operand forms: record headers and payload fields, frames, ordered sets and small binary layouts. -/

namespace Sys2Proof

open Sys2Proof.Machine

/-! ### Record headers (R59 to R67) -/

/-- LEN of a record (R60). -/
def Rec.len (r : Rec) : Nat := 3 + r.pay.length

/-- Bytes of a record. -/
def Rec.bytes (r : Rec) : Nat := 8 * r.len

/-- The header of R59 without PARITY. -/
def Rec.headNat (r : Rec) : Nat :=
  packNat [(r.type, 8), (r.len, 8), (r.stream, 16), (r.alive, 8), (r.flags % 128, 8), (r.unit, 10), (0, 6), (r.die, 32),
    (r.gslot, 8), (0, 24), (r.ts64, 64)]

/-- The header with PARITY set so that the 192 bits hold an even number of ones (R67). -/
def Rec.header (r : Rec) : Nat := let h := r.headNat; if popCount 192 h % 2 = 1 then setBit h 47 true else h

/-- The words of a record. -/
def Rec.words (r : Rec) : List Word := natWords 3 r.header ++ r.pay

/-- The payload field that begins at bit `lo` of the record and is `len` bits long. -/
def Rec.fld (r : Rec) (lo len : Nat) : Nat := bitsOf (wordsNat r.pay) (lo - 192) len

/-- The record of a header and payload words; PARITY is left out of FLAGS. -/
def recOf (h : Nat) (pay : List Word) : Rec :=
  { type := bitsOf h 0 8, stream := bitsOf h 16 16, alive := bitsOf h 32 8, flags := bitsOf h 40 7, unit := bitsOf h 48 10,
    die := bitsOf h 64 32, gslot := bitsOf h 96 8, ts64 := bitsOf h 128 64, pay := pay }

/-- A record with flag bit `i` of R61 set. -/
def Rec.setFlag (r : Rec) (i : Nat) : Rec := { r with flags := setBit r.flags i true }

/-- A flag of R61. -/
def Rec.hasFlag (r : Rec) (i : Nat) : Bool := bitOf r.flags i

/-- LEN values that R444 accepts for a TYPE. -/
def lenOk (type len : Nat) : Bool :=
  let within (a b : Nat) : Bool := decide (a ≤ len) && decide (len ≤ b)
  match type with
  | 0x01 => within 6 255
  | 0x02 => len == 5
  | 0x03 => within 8 72
  | 0x04 => len == 8
  | 0x05 => within 6 255
  | 0x06 => within 6 254
  | 0x07 => len == 8 || len == 14 || len == 16 || len == 18 || len == 24
  | 0x08 => len == 16
  | 0x09 => len == 8
  | 0x0A => within 8 252 && len % 4 == 0
  | 0x0B => len == 8
  | 0x0C => len == 8
  | 0x0D => within 7 255
  | 0x0E => len == 81 || len == 126
  | 0x0F => within 7 10
  | 0x10 => len == 12
  | 0x11 => len == 8
  | 0x12 => len == 8
  | 0x13 => len == 20
  | 0x14 => within 8 72
  | _ => false

/-- Units that R65 lists. -/
def unitOk (u : Nat) : Bool :=
  decide (u ≤ 71) || u == 128 || (decide (160 ≤ u) && decide (u ≤ 183)) || (decide (192 ≤ u) && decide (u ≤ 195)) ||
    u == 224 || (decide (512 ≤ u) && decide (u ≤ 521)) || (decide (528 ≤ u) && decide (u ≤ 532)) ||
    (decide (544 ≤ u) && decide (u ≤ 587)) || (decide (600 ≤ u) && decide (u ≤ 617)) ||
    (decide (640 ≤ u) && decide (u ≤ 711))

/-- R66: types that a TU may originate. -/
def tuMaySend (t : Nat) : Bool := decide (1 ≤ t) && decide (t ≤ 0x0E) || t == 0x12 || t == 0x14

/-- R66: types that Fyster may originate. -/
def fyMaySend (t : Nat) : Bool := decide (9 ≤ t) && decide (t ≤ 0x14)

/-- R62, R3: two DIE values name one origin; reserved bits do not count. -/
def dieMatch (a b : Nat) : Bool :=
  if bitOf a 31 then bitOf b 31 && bitsOf a 0 13 == bitsOf b 0 13 else !bitOf b 31 && bitsOf a 0 18 == bitsOf b 0 18

/-- The fault of a record header under R84, as a VCODE of R86; 0 if it is well-formed. `left`: words from this record to
the end of the payload; `die`: the DIE value of the sender; `may`: types the sender may originate. -/
def headerFault (h left die : Nat) (may : Nat → Bool) : Nat :=
  let type := bitsOf h 0 8
  let len := bitsOf h 8 8
  let gslot := bitsOf h 96 8
  if len < 3 then 0x01
  else if left < len then 0x02
  else if type = 0 ∨ 0x15 ≤ type then 0x04
  else if !lenOk type len then 0x03
  else if !may type then 0x05
  else if !unitOk (bitsOf h 48 10) then 0x06
  else if !dieMatch (bitsOf h 64 32) die then 0x07
  else if 4096 ≤ bitsOf h 16 16 then 0x08
  else if 64 ≤ gslot ∧ gslot ≤ 254 then 0x09
  else if popCount 192 h % 2 = 1 then 0x0A
  else 0

/-! ### Frames (R68) -/

/-- Fields of a frame header. -/
structure FrameHead where
  fseq   : Nat
  plen   : Nat
  cls    : Nat
  kind   : Nat
  first  : Bool
  last   : Bool
  ackValid : Bool
  nak    : Bool
  ack    : Nat
deriving DecidableEq, Repr

/-- The fields of a header word. -/
def frameHead (w : Word) : FrameHead :=
  let v := w.toNat
  { fseq := bitsOf v 0 16, plen := bitsOf v 16 13, cls := bitsOf v 29 3, kind := bitsOf v 32 2, first := bitOf v 34,
    last := bitOf v 35, ackValid := bitOf v 36, nak := bitOf v 37, ack := bitsOf v 48 16 }

/-- The header word of fields. -/
def FrameHead.word (f : FrameHead) : Word :=
  BitVec.ofNat 64 (packNat [(f.fseq, 16), (f.plen, 13), (f.cls, 3), (f.kind, 2), (b2n f.first, 1), (b2n f.last, 1),
    (b2n f.ackValid, 1), (b2n f.nak, 1), (0, 10), (f.ack, 16)])

/-- The CRC-32C trailer of a frame: header and payload (R68). -/
def frameCrc (h : Word) (ws : List Word) : Nat := crc32c (wordBytes h ++ wordsBytes ws)

/-- R75: a frame whose KIND or PLEN its sender may not use. `fromTu`: only TU senders use KIND SUMAC (R69). -/
def frameFault (f : FrameHead) (fromTu : Bool) : Nat :=
  match f.kind with
  | 0 => if 24 ≤ f.plen ∧ f.plen ≤ 4096 ∧ f.plen % 8 = 0 then 0 else 0x0B
  | 1 => if !fromTu then 0x0C else if 8 ≤ f.plen ∧ f.plen ≤ 4096 ∧ f.plen % 8 = 0 then 0 else 0x0B
  | 2 => if f.plen = 0 then 0 else 0x0B
  | _ => 0x0C

/-! ### Ordered sets (R407 to R409) -/

/-- N of each KIND; 0 for a reserved one. -/
def tosN (kind : Nat) : Nat :=
  match kind with
  | 1 => 1 | 2 => 6 | 3 => 4 | 4 => 3 | 5 => 2
  | _ => 0

/-- An ordered set from its payload without the CRC. -/
def mkTos (kind : Nat) (body : List Byte) : Tos :=
  let n := tosN kind
  let covered := BitVec.ofNat 8 kind :: BitVec.ofNat 8 n :: body
  { kind := BitVec.ofNat 8 kind, n := BitVec.ofNat 8 n, payload := body ++ leBytes 4 (crc32c covered) }

/-- R409: an ordered set that a receiver takes: this KIND, its N and length, and a good CRC. -/
def Tos.good (t : Tos) (kind : Nat) : Bool :=
  let n := tosN kind
  t.kind.toNat == kind && t.n.toNat == n && t.payload.length == 8 * n &&
    fieldAt t.payload (8 * n - 4) 4 == crc32c (t.kind :: t.n :: t.payload.take (8 * n - 4))

/-- The STATUS ordered set (R408). -/
def mkStatus (state : Nat) (restart retrain : Bool) (next laneMap : Nat) (skew : Option Int) : Tos :=
  mkTos 5 (leBytes 1 state ++ leBytes 1 (b2n restart + 2 * b2n retrain) ++ leBytes 2 next ++ leBytes 1 laneMap ++ leBytes 1 0 ++
    leBytes 2 (match skew with
      | some x => ofInt 16 x
      | none => 0x8000) ++ leBytes 4 0)

/-! ### Loss, violation and time records (R56, R83, R86) -/

/-- The payload words of fields from bit 192 upward, `n` words. -/
def payload (n : Nat) (fs : List (Nat × Nat)) : List Word := natWords n (packNat fs)

end Sys2Proof
end

