-- ==== Sys2Proof/Machine/Flags.lean ====
section
/-! DEFINITION. Record flags and the time uncertainty they rest on: UNCERTAIN (R48, R23), AMBIGUOUS (R55), U (R29) and the
holdover estimate (R47). -/

namespace Sys2Proof.Machine

/-- The holdover error estimate in units of 2^-16 ns × 10^-9 (R47): drift in ppb times the time since entry. -/
def TimeUnit.holdRaw (t : TimeUnit) (ppb : Nat) : Nat :=
  match t.holdAt with
  | some at' => (t.now - at') * ppb
  | none => 0

/-- The holdover estimate in whole ns, rounded up. -/
def TimeUnit.holdNs (t : TimeUnit) (ppb : Nat) : Nat := ceilDiv (t.holdRaw ppb) (65536 * 1000000000)

/-- The hall term of U (R28, R29): 5 ns under High Accuracy, 103 ns under the default profile, 3 ns under LOCAL. -/
def hallNs (profile : Nat) : Nat := if profile = 1 then 5 else if profile = 2 then 103 else 3

/-- The drift that a TU's holdover estimate grows at, in ppb (R47; log 15). -/
def tuDriftPpb : Nat := 50

/-- U of Fyster (R29), saturating where a record carries it. -/
def Fyster.uNs (f : Fyster) : Nat :=
  hallNs (f.part.rd 0x1210 1) + f.part.time.holdNs (f.part.rd 0x1220 4)

/-- U of a TU (R29): its own estimate and its Fyster's. -/
def Tu.uNs (t : Tu) : Nat :=
  hallNs t.fyProfile + t.fyHold + t.part.time.holdNs tuDriftPpb

/-- R48: a TU's record is UNCERTAIN. -/
def Tu.uncertain (t : Tu) : Bool := t.part.time.servo != .locked || t.fyServo != 2

/-- R48: a Fyster record is UNCERTAIN. -/
def Fyster.uncertain (f : Fyster) : Bool := f.part.time.servo != .locked

/-- R55: within ±U of a boundary instant, inclusive; all three in ns. -/
def nearBy (ts bound u : Nat) : Bool := decide (ts ≤ bound + u) && decide (bound ≤ ts + u)

/-- R240: a stamp lies within ±U of the T_f of a cut that the TU has accepted. -/
def Tu.nearCut (t : Tu) (ts : Nat) : Bool := t.cutsPending.any fun f => nearBy ts (ts64Of f) t.uNs

/-- R240 for Fyster. -/
def Fyster.nearCut (f : Fyster) (ts : Nat) : Bool :=
  f.cuts.any fun c => nearBy ts (ts64Of c.2.tf) f.uNs

/-- FLAGS of a record stamped `ts` (R61): UNCERTAIN and AMBIGUOUS. -/
def baseFlags (uncertain ambiguous : Bool) : Nat := packNat [(0, 1), (b2n uncertain, 1), (b2n ambiguous, 1)]

/-- A TU's record before admission: stamp in full ns, origin and flags set; ALIVE comes at admission (R79). -/
def Tu.mkRec (t : Tu) (type stream unit gslot ns : Nat) (pay : List Word) : Rec :=
  { type := type, stream := stream, alive := 0, flags := baseFlags t.uncertain (t.nearCut (ts64Of ns)), unit := unit,
    die := t.die, gslot := gslot, ts64 := ts64Of ns, pay := pay }

/-- Fyster's DIE value (R62). -/
def Fyster.dieVal (f : Fyster) : Nat := 2 ^ 31 + f.part.rd 0x1001 1 % 8192

/-- A record of Fyster before it takes its ALIVE value. -/
def Fyster.mkRec (f : Fyster) (type stream unit gslot ns : Nat) (pay : List Word) : Rec :=
  { type := type, stream := stream, alive := 0, flags := baseFlags f.uncertain (f.nearCut (ts64Of ns)), unit := unit,
    die := f.dieVal, gslot := gslot, ts64 := ts64Of ns, pay := pay }

/-- The self stream (R63). -/
def selfStream : Nat := 0x0FFF

end Sys2Proof.Machine
end

