-- ==== Sys2Proof/Machine/CntOps.lean ====
section
/-! DEFINITION. One event counter (R89 to R101): sources, counting, saturation, banks, staging. -/

namespace Sys2Proof.Machine

/-- A counter after reset (R91, R97). -/
def Cnt.zero : Cnt :=
  { source := 0, percmd := false, val := 0, sat := false, other := 0, otherSat := false, level := false,
    levelAt := 0, resets := 0, swapAt := none, staged := none, latched := 0 }

/-- Legal tile source codes (R93). -/
def tileSource (c : Nat) : Bool :=
  decide (c ≤ 8) || (decide (0x10 ≤ c) && decide (c ≤ 0x17)) ||
    (decide (0x40 ≤ c) && decide (c < 0x40 + 16 * 7) && decide (c % 16 ≤ 9)) ||
    (decide (0xB0 ≤ c) && decide (c < 0xB0 + 16 * 4) && decide (c % 16 ≤ 9)) ||
    (decide (0x100 ≤ c) && decide (c ≤ 0x105)) || c == 0x140 || c == 0x141

/-- Legal uncore source codes (R94). -/
def uncoreSource (c : Nat) : Bool :=
  decide (c ≤ 0x0A) || (decide (0x80 ≤ c) && decide (c < 0x80 + 16 * 24) && decide (c % 16 ≤ 9)) ||
    (decide (0x200 ≤ c) && decide (c < 0x280) && decide (c % 32 ≤ 7)) ||
    (decide (0x280 ≤ c) && decide (c ≤ 0x283)) || (decide (0x300 ≤ c) && decide (c ≤ 0x304)) ||
    (decide (0x340 ≤ c) && decide (c ≤ 0x353))

/-- Tile sources counted in nanoseconds (R93). -/
def tileNs (c : Nat) : Bool := c == 7 || c == 8 || (decide (0x10 ≤ c) && decide (c ≤ 0x17))

/-- Uncore sources counted in nanoseconds (R94). -/
def uncoreNs (c : Nat) : Bool :=
  c == 0x06 || c == 0x0A || (decide (0x80 ≤ c) && decide (c < 0x200) && (c % 16 == 8 || c % 16 == 9)) ||
    (decide (0x200 ≤ c) && decide (c < 0x280) && (c % 32 == 3 || c % 32 == 7)) || c == 0x282 || c == 0x303 || c == 0x304

/-- Counters of tiles (R89). -/
def tileCounters : Nat := 2304

/-- A counter's source code is legal (R91). -/
def sourceOk (c src : Nat) : Bool := if c < tileCounters then tileSource src else uncoreSource src

/-- A counter counts nanoseconds. -/
def Cnt.isNs (x : Cnt) (c : Nat) : Bool := if c < tileCounters then tileNs x.source else uncoreNs x.source

/-- A counter has a second bank (R98). -/
def hasBank (c : Nat) : Bool := if c < tileCounters then decide (24 ≤ c % 32) else decide (2752 ≤ c)

/-- The unit whose descriptors a per-command counter follows: a tile, or 72 for the command processor (R98). -/
def unitOf (c : Nat) : Nat := if c < tileCounters then c / 32 else 72

/-- Per-command counters of a unit in the order of COUNTER_MASK (R129). -/
def unitCounters (u : Nat) : List Nat :=
  if u < 72 then (List.range 8).map fun i => 32 * u + 24 + i else (List.range 64).map fun i => 2752 + i

/-- R95: add `n` events; a saturated counter ignores them. -/
def Cnt.add (x : Cnt) (n : Nat) : Cnt :=
  if x.sat then x else if x.val + n ≤ max64 then { x with val := x.val + n } else { x with val := max64, sat := true }

/-- R90: count the whole nanoseconds that have passed while the condition held. -/
def Cnt.settle (x : Cnt) (ns : Nat) : Cnt :=
  if x.level then { x.add (ns - x.levelAt) with levelAt := ns } else { x with levelAt := ns }

/-- R90 across a time step: counted to `before`, going on from `after`. -/
def Cnt.rebase (x : Cnt) (before after : Nat) : Cnt := { x.settle before with levelAt := after }

/-- R97: a reset. -/
def Cnt.reset (x : Cnt) : Cnt := { x with val := 0, sat := false, resets := x.resets + 1 }

/-- R99, R100: the active bank is retired into the staging entry and the other bank, cleared, becomes active. -/
def Cnt.swap (x : Cnt) (now : Nat) : Cnt :=
  let st := match x.staged with
    | none => (x.val, x.sat)
    | some (v, s) => if v + x.val ≤ max64 then (v + x.val, s || x.sat) else (max64, true)
  { x with staged := some st, val := x.other, sat := x.otherSat, other := 0, otherSat := false, swapAt := some now }

/-- R101: an event of the retired bank joins an occupied staging entry. -/
def Cnt.stageLate (x : Cnt) (n : Nat) : Cnt :=
  match x.staged with
  | some (v, s) => { x with staged := some (if v + n ≤ max64 then (v + n, s) else (max64, true)) }
  | none => x

/-- TR_SATURATE (R96) without its stamp. -/
def saturatePay (c source : Nat) (bank : Bool) (latched : Nat) : List Word :=
  payload 2 [(c, 16), (source, 10), (b2n bank, 1), (0, 37), (ts64Of latched, 64)]

/-- UNIT of a counter's TR_SATURATE (R96). -/
def cntUnit (c : Nat) : Nat := if c < tileCounters then c / 32 else 224

/-- R109: the shortest varint of a 64-bit value. -/
def varint : Nat → Nat → List Byte
  | 0, _ => []
  | k + 1, v => if v < 128 then [BitVec.ofNat 8 v] else BitVec.ofNat 8 (v % 128 + 128) :: varint k (v / 128)

/-- R109: the value of a varint of up to 10 bytes and the bytes behind it; none if it does not decode. -/
def unvarint : Nat → List Byte → Option (Nat × List Byte)
  | 0, _ => none
  | _, [] => none
  | k + 1, b :: r =>
    if b.toNat < 128 then some (b.toNat, r)
    else
      match unvarint k r with
      | some (v, r') => some (b.toNat % 128 + 128 * v, r')
      | none => none

end Sys2Proof.Machine
end

