-- ==== Sys2Proof/Machine/TuOps.lean ====
section
/-! DEFINITION. Operations of a TU that every chapter uses: its clock, the budget enforcer and the queues (R190 to R197),
logging, counting and time records. -/

namespace Sys2Proof.Machine

/-! ### The TU in the state -/

/-- The TU on port `p`. -/
def State.tu (s : State) (p : Port) : Tu := tget s.tus p.val .reset

/-- The state with the TU on port `p` replaced. -/
def State.setTu (s : State) (p : Port) (t : Tu) : State := { s with tus := tset s.tus p.val t }

/-- A TU whose clock has run on by `dt`. -/
def Tu.tick (t : Tu) (dt : Nat) : Tu :=
  { t with part := { t.part with time := { t.part.time with now := t.part.time.now + dt } } }

/-- A command on the TU of port `p`: its clock runs on by `dt`, then the effect `f`. -/
def onTu (p : Port) (dt : Nat) (f : Tu → Tu) (s : State) : State := s.setTu p (f ((s.tu p).tick dt))

/-- An object of a TU. -/
def Tu.rd (t : Tu) (idx sub : Nat) : Nat := t.part.rd idx sub

/-- A TU with a numeric object set. -/
def Tu.wr (t : Tu) (idx sub v : Nat) : Tu := { t with part := t.part.wr idx sub v }

/-- A TU with a counting object raised. -/
def Tu.bump (t : Tu) (idx sub n : Nat) : Tu := { t with part := t.part.bump idx sub n }

/-- Whole nanoseconds of the TU's time. -/
def Tu.ns (t : Tu) : Nat := t.part.time.ns

/-- TS64 of the TU. -/
def Tu.ts (t : Tu) : Nat := t.part.time.ts

/-- An output on a port of the TU; the TL transmit CRC unit takes in a frame's header and payload (R76, R440). -/
def Tu.emit (t : Tu) (o : Out) : Tu :=
  match o with
  | .frame _ h ws _ => { t with out := o :: t.out, part := t.part.crcTake 1 (wordBytes h ++ wordsBytes ws) }
  | _ => { t with out := o :: t.out }

/-- Access levels as numbers (R343). -/
def Level.rank : Level → Nat
  | .observe => 0
  | .operate => 1
  | .service => 2

/-- The answer to a write made at level `lvl` on an object that needs level `need`: LEVEL, or the abort code with nothing
changed, or 0 with the effect `r.1` (R344, R360). -/
def Tu.reply (t : Tu) (lvl : Level) (need : Nat) (r : Tu × Nat) : Tu :=
  if Level.rank lvl < need then t.emit (.answer 5)
  else if r.2 = 0 then r.1.emit (.answer 0)
  else t.emit (.answer r.2)

/-- A fresh free value (log 6). -/
def Tu.free (t : Tu) (p : Port) : Tu × Word := ({ t with fresh := t.fresh + 1 }, Config.freeValue (p.val + 1) t.fresh)

/-! ### Budget enforcer (R191 to R196) -/

/-- Bytes of a requester's queue (R197); requester 6 builds one record at a time, 7 drains elsewhere. -/
def reqCap (r : Nat) : Nat :=
  match r with
  | 0 => 16384 | 1 => 16384 | 2 => 16384 | 3 => 32768 | 4 => 262144 | 5 => 65536
  | _ => 0

/-- Records waiting at a requester. -/
def Tu.queue (t : Tu) (r : Nat) : List QRec := tget t.exp.queues r []

/-- Bytes of records. -/
def recsBytes (l : List Rec) : Nat := sumBy Rec.bytes l

/-- Bytes waiting at a requester. -/
def Tu.queued (t : Tu) (r : Nat) : Nat := sumBy (fun q => q.r.bytes) (t.queue r)

/-- Budget in force, in ns: activities 0 to 7, and 8 for the MACE reserve. -/
def Tu.budget (t : Tu) (a : Nat) : Nat := tget t.exp.budget a (objDefault 0x2A00 (a + 1))

/-- speed_ratio of an activity in 2^-16 (R192). -/
def Tu.ratio (t : Tu) (a : Nat) : Nat := tget t.exp.ratios (if a = 8 then 3 else a) 65536

/-- Used budget of the period, in ps × 2^-16. -/
def Tu.used (t : Tu) (a : Nat) : Nat := if a = 8 then t.exp.taintUsed else tget t.exp.used a 0

/-- The period has a BUDGET drop of this activity: counted once in BUDGET_FULL_PERIODS (R214). -/
def Tu.markFull (t : Tu) (a : Nat) : Tu :=
  let a := if a = 8 then 3 else a
  if t.exp.full.contains a then t
  else ({ t with exp := { t.exp with full := a :: t.exp.full } }).bump 0x2A01 (a + 1) 1

/-- Charge an item of `cost` ps to activity `a` (R191); `fits`: there is queue space for it. Answers 0 when it is admitted,
else the cause of the drop: 1 BUDGET, 2 BUFFER_FULL. -/
def Tu.charge (t : Tu) (a cost : Nat) (fits : Bool) : Tu × Nat :=
  let c := cost * t.ratio a
  let b := t.budget a * 1000 * 65536
  if !t.discovered then (t, 2)
  else if b < c then
    ((if a = 8 then t else t.wr 0x2A00 0x0A (setBit (t.rd 0x2A00 0x0A) a true)).markFull a, 1)
  else if b < t.used a + c then (t.markFull a, 1)
  else if !fits then (t, 2)
  else if a = 8 then ({ t with exp := { t.exp with taintUsed := t.exp.taintUsed + c } }, 0)
  else ({ t with exp := { t.exp with used := tset t.exp.used a (t.used a + c) } }, 0)

/-- A record with the next ALIVE value of its stream, and LOSS_BEFORE if the TU dropped one before it (R79, R80). -/
def Part.admitRec (p : Part) (r : Rec) : Part × Rec :=
  let a := tget p.alive r.stream 0
  let r' := { r with alive := a }
  ({ p with alive := tset p.alive r.stream ((a + 1) % 256), lossy := p.lossy.filter (· != r.stream) },
    if p.lossy.contains r.stream then r'.setFlag 5 else r')

/-- Records admitted in order: each takes its ALIVE value. -/
def Tu.admitAll (t : Tu) : List Rec → Tu × List Rec
  | [] => (t, [])
  | r :: rest =>
    let a := t.part.admitRec r
    let b := Tu.admitAll { t with part := a.1 } rest
    (b.1, a.2 :: b.2)

/-- Records dropped by the TU: counted under cause and activity, the next admitted record of the stream marked. -/
def Tu.lose (t : Tu) (a cause : Nat) (recs : List Rec) : Tu :=
  let a := if a = 8 then 3 else a
  let p := t.part.lose a cause recs.length (recsBytes recs) (recs.head?.map (·.stream)) t.ts
  let streams := (recs.map (·.stream)).filter fun x => !p.lossy.contains x
  { t with part := { p with lossy := p.lossy ++ streams.take 1 } }

/-- Admitted records enter the queue of requester `req`, charged last to activity `a` (R200). -/
def Tu.enqueue (t : Tu) (req a : Nat) (recs : List Rec) : Tu :=
  let x := t.admitAll recs
  { x.1 with exp := { x.1.exp with
      queues := tset x.1.exp.queues req (tget x.1.exp.queues req [] ++ x.2.map fun r => { r := r, act := a }) } }

/-- Offer an item (a record or a whole chain) to activity `a` for requester `req` (R191), without counting it. -/
def Tu.offerRaw (t : Tu) (a req cost : Nat) (recs : List Rec) : Tu × Bool :=
  let c := t.charge a cost (decide (t.queued req + recsBytes recs ≤ reqCap req))
  if c.2 = 0 then (c.1.enqueue req (if a = 8 then 3 else a) recs, true) else (c.1.lose a c.2 recs, false)

/-! ### Counters that the TU's own work drives (R94, R95) -/

/-- A counter. -/
def Tu.cnt (t : Tu) (c : Nat) : Cnt := tget t.cnts c .zero

/-- The TU with a counter replaced. -/
def Tu.setCnt (t : Tu) (c : Nat) (x : Cnt) : Tu := { t with cnts := tset t.cnts c x }

/-- Descriptors of a unit. -/
def Tu.unit (t : Tu) (u : Nat) : UnitDesc :=
  tget t.units u { bank := false, waiting := [], cur := none, prev := none, retired := none, missed := 0, launches := [],
                   merged := 0, swapTs := 0 }

/-- R95, R96: offer TR_SATURATE of a counter: EVENT, requester 1, 20 ns. -/
def Tu.saturate (t : Tu) (c : Nat) : Tu :=
  let x := t.cnt c
  (t.offerRaw 5 1 20000 [(t.mkRec 0x02 selfStream (cntUnit c) 0xFF t.ns
    (saturatePay c x.source (x.percmd && (t.unit (unitOf c)).bank) x.latched)).setFlag 0]).1

/-- R95: the TU with counter `c` changed to `x`, a saturation reported. -/
def Tu.putCnt (t : Tu) (c : Nat) (x : Cnt) : Tu :=
  let was := (t.cnt c).sat
  let t := t.setCnt c x
  if x.sat && !was then t.saturate c else t

/-- R94: an uncore counter that selects source `src` counts `n`, in the active bank. -/
def Tu.internal (t : Tu) (src n : Nat) : Tu :=
  if n = 0 then t
  else
    (t.cnts.filter fun e => decide (tileCounters ≤ e.1) && e.2.source == src).foldl
      (fun t e => t.putCnt e.1 ((t.cnt e.1).add n)) t

/-- Offer an item (a record or a whole chain) to activity `a` for requester `req` (R191), counted under R94; answers whether
it was admitted. -/
def Tu.offer (t : Tu) (a req cost : Nat) (recs : List Rec) : Tu × Bool :=
  let x := t.offerRaw a req cost recs
  let act := if a = 8 then 3 else a
  let t := x.1.internal (0x340 + act) recs.length
  (if x.2 then t else t.internal (0x348 + act) recs.length, x.2)

/-- A record that is admitted without charge (R194). -/
def Tu.sendFree (t : Tu) (r : Rec) : Tu :=
  if t.discovered && decide (t.queued 0 + r.bytes ≤ reqCap 0) then t.enqueue 0 5 [r]
  else (t.lose 5 2 [r]).internal 0x34D 1

/-- R190, R191, R193: a budget period begins: used budgets are cleared and new budgets come into force. -/
def Tu.periodStart (t : Tu) : Tu :=
  { t with exp := { t.exp with
      used := [], taintUsed := 0, full := [], budget := (List.range 9).map fun a => (a, t.rd 0x2A00 (a + 1)) } }

/-! ### Logging and counting -/

/-- The TR_EVENT record of one recorder record (R379). -/
def eventPay (update : Bool) (r : EvRec) : List Word :=
  payload 5 [((if update then 2 else 1), 8), (1, 8), (0, 48), (r.nat, 256)]

/-- Log an event (R378), and offer its TR_EVENT records to EVENT at 20 ns in class 2 (R379, R192). -/
def Tu.log (t : Tu) (e : Event) : Tu :=
  let x := t.part.evr.add 2048 e t.ts t.uncertain
  let t := { t with part := { t.part with evr := x.1 } }
  let t := if x.2.2 = 0 then t else t.bump 0x6000 7 x.2.2
  x.2.1.foldl (fun t o =>
    let r := t.mkRec 0x0A selfStream o.2.unit o.2.gslot t.ns (eventPay o.1 o.2)
    let r := { r with ts64 := o.2.last }
    (t.offer 5 2 20000 [if o.2.late then r.setFlag 3 else r]).1) t

/-- Raise a counting object and log COUNTED (R380). -/
def Tu.counted (t : Tu) (idx sub n : Nat) : Tu :=
  let t := t.bump idx sub n
  t.log (event 0x0F00 224 (idx * 65536 + sub * 256) (t.rd idx sub % 2 ^ 32))

/-- An offset held as twice its value in 2^-16 ps, in ps, rounded toward zero (log 17). -/
def offsetPs (x2 : Int) : Int := x2.tdiv 131072

/-- The payload of TR_TIME (R56). -/
def timePay (ev servo profile port epoch sec : Nat) (offs : Int) (gm : Nat) (u : Nat) (freq : Nat) : List Word :=
  payload 5 [(ev, 8), (servo, 8), (profile, 8), (port, 8), (epoch, 16), (0, 16), (sec, 64), (ofInt 64 offs, 64), (gm, 64),
    (min u 0xFFFFFFFF, 32), (freq, 32)]

/-- A TU emits TR_TIME (R56): UNIT 224, PORT 0xFF, charged to EVENT, class 0 (R192, R202). `late`, `gslot`: for GRID_CHANGE. -/
def Tu.timeRec (t : Tu) (ev : Nat) (offs : Int) (gslot : Nat) (late uncertain : Bool) : Tu :=
  let tm := t.part.time
  let r := t.mkRec 0x0B selfStream 224 gslot t.ns
    (timePay ev tm.servo.code t.fyProfile 0xFF tm.stepEpoch tm.sec offs tm.gm.toNat t.uNs tm.freqAdj.toNat)
  let r := if late then r.setFlag 3 else r
  let r := if uncertain then r.setFlag 1 else r
  (t.offer 5 0 20000 [r]).1

/-! ### Interrupt lines (R438) -/

/-- TU_IRQ. -/
def Tu.irq (t : Tu) : BitVec 16 :=
  let ch (c : Nat) : Bool :=
    match tfind t.part.chans c with
    | some x => (x.out && !x.queue.isEmpty) || x.ackIrq
    | none => false
  BitVec.ofNat 16 (packNat ((List.range 8).map (fun c => (b2n (ch c), 1)) ++
    [(b2n (t.rd 0x2A11 1 != 0 && t.part.flag 0x2A11 3), 1), (b2n t.frz.frozen.isSome, 1),
     (b2n (t.part.evr.log.any fun r => Config.faultCode r.code), 1), (b2n t.win.error, 1)]))

end Sys2Proof.Machine
end

