-- ==== Sys2Proof/Machine/FyOps.lean ====
section
/-! DEFINITION. Operations of Fyster that every chapter uses: its clock, the hindsight ring (R215 to R222), its own records,
logging and counting, the host ring (R417) and MSI-X. -/

namespace Sys2Proof.Machine

/-! ### Fyster in the state -/

/-- Fyster with its clock run on by `dt`. -/
def Fyster.tick (f : Fyster) (dt : Nat) : Fyster :=
  { f with part := { f.part with time := { f.part.time with now := f.part.time.now + dt } } }

/-- A command on Fyster: its clock runs on by `dt`, then the effect `g`. -/
def onFy (dt : Nat) (g : Fyster → Fyster) (s : State) : State := { s with fy := g (s.fy.tick dt) }

/-- A command on a node. -/
def onNode (n : Node) (dt : Nat) (ft : Port → Tu → Tu) (ff : Fyster → Fyster) (s : State) : State :=
  match n with
  | .fyster => onFy dt ff s
  | .tu p => onTu p dt (ft p) s

/-- A command on one end of a tray link. -/
def onEnd (e : End) (dt : Nat) (ft : Port → Tu → Tu) (ff : Port → Fyster → Fyster) (s : State) : State :=
  match e with
  | .fysterEnd p => onFy dt (ff p) s
  | .tuEnd p => onTu p dt (ft p) s

/-- An object of Fyster. -/
def Fyster.rd (f : Fyster) (idx sub : Nat) : Nat := f.part.rd idx sub

/-- Fyster with a numeric object set. -/
def Fyster.wr (f : Fyster) (idx sub v : Nat) : Fyster := { f with part := f.part.wr idx sub v }

/-- Fyster with a counting object raised. -/
def Fyster.bump (f : Fyster) (idx sub n : Nat) : Fyster := { f with part := f.part.bump idx sub n }

/-- Whole nanoseconds of Fyster's time. -/
def Fyster.ns (f : Fyster) : Nat := f.part.time.ns

/-- TS64 of Fyster. -/
def Fyster.ts (f : Fyster) : Nat := f.part.time.ts

/-- An output on a port of Fyster. -/
def Fyster.emit (f : Fyster) (o : Out) : Fyster := { f with out := o :: f.out }

/-- The answer to a write made at level `lvl` on an object that needs level `need` (R344, R360). -/
def Fyster.reply (f : Fyster) (lvl : Level) (need : Nat) (r : Fyster × Nat) : Fyster :=
  if Level.rank lvl < need then f.emit (.answer 5)
  else if r.2 = 0 then r.1.emit (.answer 0)
  else f.emit (.answer r.2)

/-- A fresh free value (log 6). -/
def Fyster.free (f : Fyster) : Fyster × Word := ({ f with fresh := f.fresh + 1 }, Config.freeValue 0 f.fresh)

/-- Fyster's end of the link of port `p`. -/
def Fyster.link (f : Fyster) (p : Nat) : Link := tget f.links p .reset

/-- Fyster with its end of a link replaced. -/
def Fyster.setLink (f : Fyster) (p : Nat) (l : Link) : Fyster := { f with links := tset f.links p l }

/-! ### The ring (R215 to R221) -/

/-- A partition after a reset that clears the ring, with `size` segments (R222). -/
def Partition.empty (size : Nat) : Partition :=
  { size := size, next := 0, segs := [], block := none, overwrites := 0, rate := [] }

/-- The tray partition (R215). -/
def trayPart : Nat := 32

/-- Default size of a partition in segments (R215). -/
def partDefault (p : Nat) : Nat := if p = trayPart then 512 else 4096

/-- A partition. -/
def Fyster.partition (f : Fyster) (p : Nat) : Partition := tget f.ring p (.empty (partDefault p))

/-- Bytes of a segment (R215). -/
def segBytes : Nat := 2097152

/-- A hold covers segment `serial` of partition `p` (R219). -/
def Hold.covers (h : Hold) (p serial : Nat) : Bool :=
  h.ranges.any fun r => r.1 == p && decide (r.2.1 ≤ serial) &&
    (match r.2.2 with
     | some n => decide (serial ≤ n)
     | none => true)

/-- A segment is pinned while a hold covers it (R219). -/
def Fyster.pinned (f : Fyster) (p serial : Nat) : Bool := f.holds.any fun h => h.2.covers p serial

/-- PIN_MASK of a segment (R216). -/
def Fyster.pinMask (f : Fyster) (p serial : Nat) : Nat :=
  f.holds.foldl (fun m h => if h.2.covers p serial then setBit m h.1 true else m) 0

/-- The partition's list without its first segment that is not pinned; without its first segment if all are. -/
def dropOldest (pinned : Nat → Bool) : List Seg → List Seg
  | [] => []
  | s :: r => if pinned s.serial then s :: dropOldest pinned r else r

/-- Bytes of an entry with its header (R217). -/
def Entry.bytes (e : Entry) : Nat := 8 + 8 * e.body.length

/-- R217: an END entry, if there is room for one, closes a segment. -/
def Seg.close (s : Seg) : Seg :=
  if s.closed then s
  else if s.used + 8 ≤ segBytes then { s with closed := true, ended := true, used := s.used + 8 } else { s with closed := true }

/-- The partition takes a segment into use: a free one, else the oldest that is not pinned (R219). -/
def Fyster.newSegment (f : Fyster) (p die : Nat) : Fyster :=
  let q := f.partition p
  let segs := q.segs.map Seg.close
  let exceeds := decide (q.size ≤ segs.length)
  let kept := if exceeds then dropOldest (f.pinned p) segs else segs
  let s : Seg := { serial := q.next, closed := false, hasLoss := false, uncert := false, truncOrphan := false,
                   resumed := false, die := die, epoch := f.resetEpoch, sec := 0, tsFirst := 0, tsLast := 0,
                   used := 64, ended := false, entries := [] }
  { f with ring := tset f.ring p { q with
      segs := kept ++ [s], next := q.next + 1, overwrites := if exceeds then q.overwrites + 1 else q.overwrites } }

/-- Serials of the segments of a partition that holds cover. -/
def Fyster.pinnedSegs (f : Fyster) (p : Nat) : List Nat :=
  ((f.partition p).segs.map (·.serial)).filter fun s => f.pinned p s

/-- The most segments of a partition that holds may cover (R219). -/
def Fyster.pinLimit (f : Fyster) (p : Nat) : Nat := (f.partition p).size * f.rd 0x6800 1 / 8

/-- R219: hold `h`, still open at its new end, gives up the oldest segments that it alone covers, as far as the limit asks. -/
def Fyster.trimOpen (f : Fyster) (p h : Nat) : Fyster :=
  match tfind f.holds h with
  | none => f
  | some x =>
    let surplus := (f.pinnedSegs p).length - f.pinLimit p
    let alone := (f.pinnedSegs p).filter fun s => x.covers p s && !(f.holds.any fun e => e.1 != h && e.2.covers p s)
    match (alone.drop (surplus - 1)).head? with
    | some s =>
      if surplus = 0 ∨ !(x.ranges.any fun r => r.1 == p && r.2.2.isNone) = true then f
      else
        let f := { f with holds := f.holds.map fun (e : Nat × Hold) => if e.1 = h then (h, { e.2 with
          trimmed := true, ranges := e.2.ranges.map fun r => if r.1 = p ∧ r.2.2 = none then (p, s + 1, none) else r }) else e }
        if x.trimmed then f
        else
          { f.bump 0x6809 4 1 with cuts := f.cuts.map fun (c : Nat × CutSlot) =>
              if c.2.cutId = x.tag ∧ x.cause = 1 then (c.1, { c.2 with cflags := setBit c.2.cflags 5 true }) else c }
    | none => f

/-- R219: a new open segment for a partition; holds that are open at their new end cover it, within the limit. -/
def Fyster.takeSegment (f : Fyster) (p die : Nat) : Fyster :=
  (f.holds.map (·.1)).foldl (fun f h => f.trimOpen p h) (f.newSegment p die)

/-- Full time in ns of a stamp, in the era nearest to `now` (R27). -/
def fullNs (now ts64 : Nat) : Nat :=
  let era := now / 2 ^ 64
  let a := era * 2 ^ 64 + ts64
  if a + 2 ^ 63 < now then a + 2 ^ 64 else if now + 2 ^ 63 < a ∧ 2 ^ 64 ≤ a then a - 2 ^ 64 else a

/-- DIE value of the source of a partition (R216). -/
def Fyster.partDie (f : Fyster) (p : Nat) : Nat :=
  if p = trayPart then f.dieVal else f.rd 0x1010 (p + 1) % 2 ^ 18

/-- R217: the records of a RECORDS entry as its header update takes them: stamps, loss and uncertainty. -/
structure EntryNote where
  stamps  : List Nat
  hasLoss : Bool
  uncert  : Bool
deriving DecidableEq, Repr

/-- R217: write one entry; `n`: the stamps of its records (for SUMAC, Fyster's own time). -/
def Fyster.writeEntry (f : Fyster) (p : Nat) (e : Entry) (n : EntryNote) : Fyster :=
  let q := f.partition p
  let fits := match q.segs.getLast? with
    | some s => !s.closed && decide (s.used + e.bytes ≤ segBytes)
    | none => false
  let f := if fits then f else f.takeSegment p (f.partDie p)
  let q := f.partition p
  match q.segs.getLast? with
  | none => f
  | some s =>
    let first := n.stamps.headD f.ts
    let last := n.stamps.foldl max 0
    let s' : Seg :=
      { s with
        sec := if s.entries.isEmpty then fullNs f.ns first / 1000000000 else s.sec
        tsFirst := if s.entries.isEmpty then first else s.tsFirst
        tsLast := max s.tsLast last
        hasLoss := s.hasLoss || n.hasLoss
        uncert := s.uncert || n.uncert
        truncOrphan := s.truncOrphan || e.trunc || e.orphan
        used := s.used + e.bytes
        entries := s.entries ++ [e] }
    let horizon := f.ns - 60000000000
    { f with ring := tset f.ring p { q with
        segs := q.segs.dropLast ++ [s']
        rate := (q.rate.filter fun r => decide (horizon < r.1)) ++ [(f.ns, e.bytes)] } }

/-- R217: a RECORDS entry of partition `p`. -/
def Fyster.writeRecords (f : Fyster) (p cls fseq src : Nat) (hasLoss : Bool) (rs : List Rec) : Fyster :=
  if rs.isEmpty then f
  else
    f.writeEntry p
      { sumac := false, first := false, last := false, trunc := false, orphan := false, cls := cls, fseq := fseq, src := src,
        body := rs.flatMap Rec.words }
      { stamps := rs.map (·.ts64), hasLoss := hasLoss, uncert := rs.any fun r => r.hasFlag 1 }

/-! ### Fyster's own records -/

/-- A record of Fyster with the next ALIVE value of its stream (R79). -/
def Fyster.stamp (f : Fyster) (r : Rec) : Fyster × Rec :=
  let x := f.part.admitRec r
  ({ f with part := x.1 }, x.2)

/-- A record that Fyster originates, written into the tray partition (R8, R215). -/
def Fyster.own (f : Fyster) (r : Rec) : Fyster :=
  let x := f.stamp r
  x.1.writeRecords trayPart 0 0 0xFF (x.2.type == 0x0C) [x.2]

/-- R383: the recorder takes no event: it is frozen, on PFAIL_N from 1 ms after the trigger. -/
def Fyster.evrFrozen (f : Fyster) : Bool :=
  f.part.evr.frozen ||
    (match f.part.evr.flush with
     | some x => x.cause == 1 && decide (fullNs f.ns x.at64 + 1000000 ≤ f.ns)
     | none => false)

/-- R378, R383: log an event; each new or grown record goes out as TR_EVENT (R379); a frozen recorder takes none. -/
def Fyster.log (f : Fyster) (e : Event) : Fyster :=
  let f := if Config.faultCode e.code then f.emit (.msix 67) else f
  let send (f : Fyster) (o : Bool × EvRec) : Fyster :=
    let r := f.mkRec 0x0A selfStream o.2.unit o.2.gslot f.ns (eventPay o.1 o.2)
    let r := { r with ts64 := o.2.last }
    f.own (if o.2.late then r.setFlag 3 else r)
  if f.evrFrozen then send (f.bump 0x6000 0x0A 1) (false, e.toRec f.ts f.uncertain)
  else
    let x := f.part.evr.add 32768 e f.ts f.uncertain
    let f := { f with part := { f.part with evr := x.1 } }
    let f := if x.2.2 = 0 then f else f.bump 0x6000 7 x.2.2
    x.2.1.foldl send f

/-- R380: a count that logs COUNTED, on behalf of unit `unit`. -/
def Fyster.counted (f : Fyster) (unit idx sub n : Nat) : Fyster :=
  let f := f.bump idx sub n
  f.log (event 0x0F00 unit (idx * 65536 + sub * 256) (f.rd idx sub % 2 ^ 32))

/-- Fyster emits TR_TIME (R56): UNIT 513, PORT as given. -/
def Fyster.timeRec (f : Fyster) (ev port : Nat) (offs : Int) (gslot : Nat) (late uncertain : Bool) : Fyster :=
  let tm := f.part.time
  let r := f.mkRec 0x0B selfStream 513 gslot f.ns
    (timePay ev tm.servo.code (f.rd 0x1210 1) port tm.stepEpoch tm.sec offs tm.gm.toNat f.uNs tm.freqAdj.toNat)
  let r := if late then r.setFlag 3 else r
  f.own (if uncertain then r.setFlag 1 else r)

/-! ### START_STATE (R392, R403) -/

/-- R392: the conditions of READY but for LEDGER_BASE. -/
def Fyster.readyBut (f : Fyster) : Bool :=
  f.boot.running && f.boot.hbm && f.rd 0x1001 1 != 0xFFFF &&
    (f.part.time.servo == .locked || (f.part.time.servo == .holdover && f.part.time.everLocked))

/-- R392: START_STATE is READY. -/
def Fyster.ready (f : Fyster) : Bool := f.readyBut && f.rd 0x3600 1 != 0

/-- START_STATE (R403; the order of its states before READY: log 71). -/
def Fyster.startState (f : Fyster) : Nat :=
  if f.boot.failed then 5
  else if !f.boot.running then 0
  else if !f.boot.hbm then 1
  else if f.ready then 4
  else if f.ptp.all fun e => !e.2.up then 2
  else if f.rd 0x1001 1 == 0xFFFF || f.rd 0x3600 1 == 0 then 6
  else 3

/-- R416: a change of START_STATE raises vector 65. -/
def Fyster.startCheck (f : Fyster) : Fyster :=
  if f.startState = f.boot.lastStart then f
  else ({ f with boot := { f.boot with lastStart := f.startState } }).emit (.msix 65)

/-! ### The host ring (R417) -/

/-- The 8-byte head of a host-ring entry (R217 layout). -/
def hostHead (ekind elen : Nat) : List Byte := leBytes 8 (packNat [(ekind, 8), (0, 8), (elen, 13), (0, 19), (0xFF, 8), (0, 8)])

/-- R417: place an entry in the host ring; one that does not fit is counted. -/
def Fyster.hostEntry (f : Fyster) (ekind : Nat) (body : List Byte) : Fyster :=
  let h := f.host
  if h.base = 0 ∨ h.size = 0 then f
  else
    let body := padTo 8 body
    let need := 8 + body.length
    let tail := h.size - h.count % h.size
    let skip := if tail < need then tail else 0
    let free := h.size - (h.count - h.rd)
    if free < skip + need then f.bump 0x1171 3 1
    else
      let at' := h.base + (h.count + skip) % h.size
      let bs := hostHead ekind body.length ++ body
      let f := if skip = 0 then f else f.emit (.hostWrite (h.base + h.count % h.size) (hostHead 0 0))
      let f := (f.emit (.hostWrite at' bs)).emit (.hostWrite h.wrAddr (leBytes 8 (h.count + skip + need)))
      { f with host := { h with count := h.count + skip + need, entries := h.entries ++ [(ekind, bs)] } }

/-- A record to the tray host: into the tray partition and the host ring (R8, R417). -/
def Fyster.hostRec (f : Fyster) (r : Rec) : Fyster :=
  let x := f.stamp r
  (x.1.writeRecords trayPart 0 0 0xFF false [x.2]).hostEntry 1 (wordsBytes x.2.words)

end Sys2Proof.Machine
end

