-- ==== Sys2Proof/Machine/LinkOps.lean ====
section
/-! DEFINITION. One end of a tray link, in the form that both ends share: frames, acknowledgement and replay (R68 to R74),
STATUS and lanes (R408 to R412). -/

namespace Sys2Proof.Machine

/-- `a - b` as sequence numbers modulo 65,536, between -32,768 and 32,767. -/
def seqDiff (a b : Nat) : Int := toInt 16 ((a + 65536 - b % 65536) % 65536)

/-- Last data frame accepted in order (R70). -/
def Link.ackSeq (l : Link) : Nat := (l.rxFseq + 65535) % 65536

/-- The header of a frame that leaves this end; the report rides in it (R70; log 16). -/
def Link.header (l : Link) (fseq plen cls kind : Nat) (first last : Bool) : FrameHead :=
  { fseq := fseq, plen := plen, cls := cls, kind := kind, first := first, last := last, ackValid := true, nak := l.nakDue,
    ack := l.ackSeq }

/-- A frame on the wire. -/
def wireFrame (e : End) (h : FrameHead) (payload : List Word) : Out :=
  .frame e h.word payload (BitVec.ofNat 32 (frameCrc h.word payload))

/-- A held data frame on the wire, with the present report. -/
def Link.wire (l : Link) (e : End) (t : TxFrame) : Out :=
  wireFrame e (l.header t.fseq (8 * t.payload.length) t.cls (if t.sumac then 1 else 0) t.first t.last) t.payload

/-- The reports that rode in a frame are no longer due. -/
def Link.reported (l : Link) : Link := { l with ackDue := false, nakDue := false }

/-- Classes 0 and 1 are reserved (R73, R202). -/
def reservedClass (c : Nat) : Bool := decide (c < 2)

/-- R73: room in the replay buffer for a frame of class `c`. -/
def Link.room (l : Link) (c : Nat) : Bool :=
  decide (l.replay.length < 64) &&
    (reservedClass c || decide ((l.replay.filter fun t => !reservedClass t.cls).length < 56))

/-- A new data frame is sent and held (R70, R72); `now` in 2^-16 ns. -/
def Link.sendData (l : Link) (e : End) (now cls : Nat) (sumac first last : Bool) (payload : List Word) (records : Nat) :
    Link × Out :=
  let t : TxFrame := { fseq := l.txFseq, cls := cls, sumac := sumac, first := first, last := last, payload := payload,
                       records := records, sentAt := now, replays := 0 }
  ({ l.reported with txFseq := (l.txFseq + 1) % 65536, replay := l.replay ++ [t], lastTx := now }, l.wire e t)

/-- A CONTROL frame that carries the report (R70). -/
def Link.control (l : Link) (e : End) : Link × Out :=
  (l.reported, wireFrame e (l.header l.txFseq 0 0 2 false false) [])

/-- R72: frames that an ACKSEQ covers leave the replay buffer. -/
def Link.acked (l : Link) (ack : Nat) : Link :=
  { l with replay := l.replay.filter fun t => decide (0 < seqDiff t.fseq ack) }

/-- R72: every held frame is sent again, in order; answers the link, what goes out, and how many frames. -/
def Link.resend (l : Link) (e : End) (now : Nat) : Link × List Out × Nat :=
  ({ l.reported with replay := l.replay.map fun t => { t with sentAt := now, replays := t.replays + 1 } },
    l.replay.map (l.wire e), l.replay.length)

/-- R72: 16 replays of the oldest held frame without progress. -/
def Link.stuck (l : Link) : Bool :=
  match l.replay.head? with
  | some t => decide (16 ≤ t.replays)
  | none => false

/-- R71: the answer to an arriving data frame with a good CRC. -/
inductive Arrival where
  | inOrder
  | ahead
  | duplicate
  | outOfWindow
deriving DecidableEq, Repr

/-- R71: where a data frame's FSEQ stands. -/
def Link.arrival (l : Link) (fseq : Nat) : Arrival :=
  let d := seqDiff fseq l.rxFseq
  if d = 0 then .inOrder else if 0 < d ∧ d ≤ 64 then .ahead else if -64 ≤ d ∧ d < 0 then .duplicate else .outOfWindow

/-- R71: a NAK is due, once per expected FSEQ until progress. -/
def Link.nak (l : Link) : Link := if l.nakSent then l else { l with nakDue := true, nakSent := true, ackDue := true }

/-- R71: a NAK is due whatever was sent before (a departure that asks for one each time). -/
def Link.nakAgain (l : Link) : Link := { l with nakDue := true, nakSent := true, ackDue := true }

/-- R70: a frame is accepted in order. -/
def Link.accept (l : Link) (now : Nat) : Link :=
  { l with rxFseq := (l.rxFseq + 1) % 65536, nakSent := false, nakDue := false, ackDue := true, lastRx := now }

/-- R74: what an end does when its partner reports RESTART; the frames it held are answered. -/
def Link.partnerRestart (l : Link) : Link × List TxFrame :=
  ({ l with rxFseq := 0, replay := [], txFseq := 0, nakSent := false, nakDue := false, ackDue := false }, l.replay)

/-- The spare's skew as the object shows it (R428). -/
def Link.skewCode (l : Link) : Nat :=
  match l.skew with
  | some x => ofInt 16 x
  | none => 0x8000

/-- STATUS of this end (R408). `restart` only in step 4 of training. -/
def Link.status (l : Link) (restart retrain : Bool) : Tos :=
  mkStatus (if restart || l.st != .up then 1 else 2) restart retrain l.rxFseq l.laneMap.toNat l.skew

/-- R412: the logical lanes on the two lowest-numbered healthy physical lanes; a logical lane whose own physical lane is not
among them moves to the spare (R39; log 68). LANE_MAP with the spare bits; none with fewer than two healthy lanes. -/
def laneAssign (healthy : List Bool) (retired : List Nat) : Option (BitVec 8) :=
  let ok (i : Nat) : Bool := healthy.getD i false && !retired.contains i
  let spare := [(b2n (healthy.getD 2 false), 1), (b2n (!(healthy.getD 2 false)), 1)]
  let map (a b : Nat) : Option (BitVec 8) := some (BitVec.ofNat 8 (packNat ([(a, 2), (b, 2)] ++ spare)))
  if ok 0 && ok 1 then map 0 1
  else if ok 0 && ok 2 then map 0 2
  else if ok 1 && ok 2 then map 2 1
  else none

/-- Physical lane of logical lane 0 of a LANE_MAP. -/
def lane0 (m : BitVec 8) : Nat := bitsOf m.toNat 0 2

/-- TL_STATE (R428). -/
def LinkState.code : LinkState → Nat
  | .down => 0
  | .training => 1
  | .up => 2
  | .retraining => 3

/-! ### Frames of Fyster toward a TU -/

/-- Fyster sends a record that has its ALIVE value to the TU on port `p`: a class 0 frame of its own while the link is up and
a replay entry is free, else it waits in order (R73, R202). -/
def Fyster.sendStamped (f : Fyster) (p : Nat) (r : Rec) : Fyster :=
  let l := f.link p
  let waiting := tget f.toTu p []
  if l.st = .up ∧ l.room 0 = true ∧ waiting.isEmpty = true then
    let y := l.sendData (.fysterEnd (finOf 32 p)) f.part.time.now 0 false false false r.words 1
    (f.setLink p y.1).emit y.2
  else { f with toTu := tset f.toTu p (waiting ++ [r]) }

/-- Fyster sends a record of its own to the TU on port `p`. -/
def Fyster.sendTu (f : Fyster) (p : Nat) (r : Rec) : Fyster :=
  let x := f.stamp r
  x.1.sendStamped p x.2

/-- Send waiting records while entries are free. -/
def drainTo (e : End) (now : Nat) : Nat → Link → List Rec → Link × List Rec × List Out
  | 0, l, ws => (l, ws, [])
  | _ + 1, l, [] => (l, [], [])
  | n + 1, l, r :: ws =>
    if l.st = .up ∧ l.room 0 = true then
      let y := l.sendData e now 0 false false false r.words 1
      let z := drainTo e now n y.1 ws
      (z.1, z.2.1, y.2 :: z.2.2)
    else (l, r :: ws, [])

/-- Records for a TU that waited leave as room allows. -/
def Fyster.drainTu (f : Fyster) (p : Port) : Fyster :=
  let y := drainTo (.fysterEnd p) f.part.time.now 64 (f.link p.val) (tget f.toTu p.val [])
  y.2.2.foldl Fyster.emit { f.setLink p.val y.1 with toTu := tset f.toTu p.val y.2.1 }

/-! ### Counting what a link end does -/

/-- R72, R411: both ends go into a fast retrain; STATUS with RETRAIN_REQ goes out. -/
def Link.askRetrain (l : Link) (e : End) : Link × Out :=
  ({ l with st := .retraining, swapSince := none }, .tos e (l.status false true))

end Sys2Proof.Machine
end

