-- ==== Sys2Proof/Machine/GroupOps.lean ====
section
/-! DEFINITION. Telemetry groups on a Fyster: slots, roles, arm descriptors, the ledger and the metric table (R251 to R266,
R274). -/

namespace Sys2Proof.Machine

/-! ### Group slots and roles (R252, R262) -/

/-- The group in a slot. -/
def Fyster.grp (f : Fyster) (g : Nat) : Option Grp := tfind f.red.groups g

/-- Fyster with a group slot replaced. -/
def Fyster.setGrp (f : Fyster) (g : Nat) (x : Grp) : Fyster := { f with red := { f.red with groups := tset f.red.groups g x } }

/-- A role of a group: level 0 L1, 1 L2, 2 L3. -/
def Grp.role (x : Grp) (level : Nat) (standby : Bool) : Option Role :=
  x.roles.find? fun r => r.level == level && r.standby == standby

/-- The role of a level that this Fyster holds or stands by for. -/
def Grp.roleAt (x : Grp) (level : Nat) : Option Role :=
  match x.roles.find? fun r => r.level == level && r.holder with
  | some r => some r
  | none => x.roles.find? fun r => r.level == level

/-- The role of a level that this Fyster holds now. -/
def Grp.held (x : Grp) (level : Nat) : Option Role := x.roles.find? fun r => r.level == level && r.holder

/-- A group with one role replaced. -/
def Grp.setRole (x : Grp) (r : Role) : Grp :=
  { x with roles := modFirst (fun y => y.level == r.level && y.standby == r.standby && y.index == r.index && y.section_ == r.section_)
                      (fun _ => r) x.roles }

/-- ROLES (R286). -/
def Grp.roleBits (x : Grp) : Nat := x.roles.foldl (fun n r => setBit n (2 * r.level + b2n r.standby) true) 0

/-- The slot holds a group: any state but RELEASED. -/
def Grp.live (x : Grp) : Bool := x.state != 0

/-- GROUP_ID of a group slot, 0 where none is held. -/
def Fyster.groupId (f : Fyster) (g : Nat) : Nat :=
  match f.grp g with
  | some x => if x.live then x.id else 0
  | none => 0

/-- The group slot of a GROUP_ID. -/
def Fyster.slotOf (f : Fyster) (id : Nat) : Option Nat :=
  (f.red.groups.find? fun e => decide (e.1 < 64) && e.2.live && e.2.id == id).map (·.1)

/-! ### The ledger (R261 to R266) -/

/-- Offset of the area of group slot `g` in the ledger region. -/
def areaOf (g : Nat) : Nat := 2097152 + g * 268435456

/-- Offset of the area of a role: level 0 L1, 1 L2, 2 L3. -/
def roleArea (g level : Nat) : Nat := areaOf g + (if level = 0 then 0 else if level = 1 then 1048576 else 134217728)

/-- Size of the area of a role. -/
def roleSize (level : Nat) : Nat := if level = 0 then 1048576 else if level = 1 then 133169152 else 134217728

/-- Offset of a down sub-slot in the area of a role (R262). -/
def downOfs (level k : Nat) : Nat := (if level = 0 then 65536 else 524288) + 256 * k

/-- Offset of an up sub-slot of child `c` in a parent's area. -/
def upOfs (c k : Nat) : Nat := 532480 + (2 * c + k) * 64

/-- Offset of the peer slot in an area of level 1 or 2; the peer table of an L1 area holds entry `i` at 64 `i`. -/
def peerOfs (level i : Nat) : Nat := if level = 0 then 69632 + 64 * i else 528384

/-- Bytes of Fyster's own ledger region. -/
def Fyster.ledger (f : Fyster) (ofs n : Nat) : List Byte := memRead f.red.ledger ofs n

/-- Fyster with bytes of its own ledger region written. -/
def Fyster.putLedger (f : Fyster) (ofs : Nat) (bs : List Byte) : Fyster :=
  { f with red := { f.red with ledger := memWrite f.red.ledger ofs bs } }

/-- Tray index of this Fyster. -/
def Fyster.tray (f : Fyster) : Nat := f.rd 0x1001 1 % 8192

/-- The tray index of a tray named as a DIE value (R62, R274). -/
def trayOf (die : Nat) : Nat := die % 8192

/-- A plain write into the ledger of tray `tray` at base address `base` (R14): into the own ledger when it is this tray's,
otherwise over the hall fabric; `id`: 0 for a write whose completion nobody waits for. -/
def Fyster.remote (f : Fyster) (tray base ofs : Nat) (bs : List Byte) (id : Nat) : Fyster :=
  if tray = f.tray then f.putLedger ofs bs else f.emit (.fabric tray id (base + ofs) bs)

/-! ### Arm descriptors (R274) -/

/-- GROUP_ID. -/
def dGroup (d : List Byte) : Nat := fieldAt d 0 4

/-- ARM_SERIAL. -/
def dSerial (d : List Byte) : Nat := fieldAt d 4 4

/-- DKIND. -/
def dKind (d : List Byte) : Nat := fieldAt d 8 1

/-- GSLOT. -/
def dSlot (d : List Byte) : Nat := fieldAt d 9 1

/-- DIST is RELAYED. -/
def dRelayed (d : List Byte) : Bool := fieldAt d 10 1 == 1

/-- MEMB_EPOCH. -/
def dMemb (d : List Byte) : Nat := fieldAt d 12 4

/-- E in ns. -/
def dEff (d : List Byte) : Nat := time96 d 16

/-- PERIOD_NS. -/
def dPeriod (d : List Byte) : Nat := fieldAt d 28 8

/-- PHASE_NS. -/
def dPhase (d : List Byte) : Nat := fieldAt d 36 8

/-- NMETRIC. -/
def dMetrics (d : List Byte) : Nat := fieldAt d 44 2

/-- NL2. -/
def dNl2 (d : List Byte) : Nat := fieldAt d 46 2

/-- ROOT: tray of the L3 holder, or ROOT_SB: of its standby. -/
def dRoot (d : List Byte) (standby : Bool) : Nat := trayOf (fieldAt d (if standby then 52 else 48) 4)

/-- ROOT_BASE or ROOT_SB_BASE. -/
def dRootBase (d : List Byte) (standby : Bool) : Nat := fieldAt d (if standby then 64 else 56) 8

/-- Bytes of one slot: header and aggregates (R262). -/
def slotBytes (n : Nat) : Nat := 64 + 1152 * n

/-- S rounded up to 4 KiB. -/
def slotAl (n : Nat) : Nat := ceilDiv (slotBytes n) 4096 * 4096

/-- Frames F of a period (R262). -/
def frames (period : Nat) : Nat := if period = 0 then 2 else min 12 (ceilDiv 1000000 period + 2)

/-- A tray entry of a section (R274). -/
structure TrayEntry where
  tray    : Nat
  mask    : Nat
  base    : Nat
  sb      : Nat
  sbBase  : Nat
deriving DecidableEq, Repr

/-- An L2 section (R274). -/
structure Section where
  tray   : Nat
  sb     : Nat
  base   : Nat
  sbBase : Nat
  trays  : List TrayEntry
deriving DecidableEq, Repr

/-- The tray entries at `ofs`. -/
def trayEntries (d : List Byte) : Nat → Nat → List TrayEntry
  | 0, _ => []
  | n + 1, o =>
    { tray := trayOf (fieldAt d o 4), mask := fieldAt d (o + 4) 4, base := fieldAt d (o + 8) 8, sb := trayOf (fieldAt d (o + 16) 4),
      sbBase := fieldAt d (o + 24) 8 } :: trayEntries d n (o + 32)

/-- The section at `ofs`. -/
def sectionAt (d : List Byte) (o : Nat) : Section :=
  { tray := trayOf (fieldAt d o 4), sb := trayOf (fieldAt d (o + 4) 4), base := fieldAt d (o + 8) 8, sbBase := fieldAt d (o + 16) 8,
    trays := trayEntries d (fieldAt d (o + 24) 2) (o + 32) }

/-- The sections from `ofs` on, as far as the descriptor reaches. -/
def sectionsFrom (d : List Byte) : Nat → Nat → List Section
  | 0, _ => []
  | n + 1, o =>
    if d.length < o + 32 then []
    else sectionAt d o :: sectionsFrom d n (o + 32 + 32 * fieldAt d (o + 24) 2)

/-- Offset of the first section. -/
def dSectionsAt (d : List Byte) : Nat := 128 + 32 * dMetrics d

/-- The sections that a descriptor, or a copy of it, holds. -/
def dSections (d : List Byte) : List Section := sectionsFrom d (dNl2 d) (dSectionsAt d)

/-- Offset of section `i`. -/
def sectionOfs (d : List Byte) : Nat → Nat → Nat
  | 0, o => o
  | i + 1, o => sectionOfs d i (o + 32 + 32 * fieldAt d (o + 24) 2)

/-- A section of the group's descriptor. -/
def Grp.section_ (x : Grp) (i : Nat) : Option Section := (dSections x.desc)[i]?

/-- Tray and LEDGER_BASE of the Fyster that holds the parent of a role, or stands by for it (R262, R263). -/
def Grp.parentOf (x : Grp) (r : Role) (standby : Bool) : Option (Nat × Nat) :=
  if r.level = 0 then (x.section_ r.section_).map fun s => if standby then (s.sb, s.sbBase) else (s.tray, s.base)
  else if r.level = 1 then some (dRoot x.desc standby, dRootBase x.desc standby)
  else none

/-- Where the child role of a Fyster writes in its up sub-slot (R263): the offset in the parent's ledger. -/
def Role.upAt (r : Role) (g : Nat) : Nat := roleArea g (r.level + 1) + upOfs r.index (b2n r.standby)

/-- The children of a role (R263): tray and LEDGER_BASE of each child's holder, and of its standby. -/
def Grp.childTrays (x : Grp) (r : Role) : List ((Nat × Nat) × (Nat × Nat)) :=
  if r.level = 2 then (dSections x.desc).map fun s => ((s.tray, s.base), (s.sb, s.sbBase))
  else if r.level = 1 then
    match x.section_ r.section_ with
    | some s => s.trays.map fun e => ((e.tray, e.base), (e.sb, e.sbBase))
    | none => []
  else []

/-! ### The metric table (R257) -/

/-- A metric of a group. -/
structure Metric where
  id      : Nat
  kind    : Nat
  tile    : Bool
  set     : Nat
  code    : Nat
  res     : Nat
  ntile   : Nat
  offset  : Int
  posA    : Nat
  posB    : Nat
  graph   : Nat
  /-- F32 pattern. -/
  scale   : Nat
  work    : Nat
deriving DecidableEq, Repr

/-- Metric `i` of a descriptor. -/
def dMetric (d : List Byte) (i : Nat) : Metric :=
  let o := 128 + 32 * i
  { id := fieldAt d o 2, kind := fieldAt d (o + 2) 1, tile := fieldAt d (o + 3) 1 == 1, set := fieldAt d (o + 4) 1,
    code := fieldAt d (o + 5) 1, res := fieldAt d (o + 6) 1, ntile := fieldAt d (o + 7) 1, offset := toInt 16 (fieldAt d (o + 8) 2),
    posA := fieldAt d (o + 10) 2, posB := fieldAt d (o + 12) 2, graph := fieldAt d (o + 16) 4, scale := fieldAt d (o + 20) 4,
    work := fieldAt d (o + 24) 1 }

/-- The metrics of a descriptor. -/
def dMetricList (d : List Byte) : List Metric := (List.range (dMetrics d)).map (dMetric d)

/-- The entry of a metric breaks R257; `scope`: its SCOPE byte. -/
def metricBad (m : Metric) (scope : Nat) : Bool :=
  decide (4095 < m.id) || m.kind == 0 || decide (6 < m.kind) || decide (1 < scope) || (m.tile && (m.kind == 4 || m.kind == 5)) ||
    (decide (m.kind ≤ 3) && decide (15 < m.set)) || (m.kind != 4 && m.code != 0) || decide (3 < m.res) ||
    (if m.tile && decide (m.kind ≤ 3) then m.ntile == 0 || decide (72 < m.ntile) else m.ntile != 0) ||
    !fp32.isFin m.scale || fp32.sign m.scale || fp32.abs m.scale == 0

/-- Values that one die gives at an instant. -/
def Metric.values (m : Metric) : Nat := if m.tile then (if m.kind ≤ 3 then m.ntile else 72) else 1

/-- s of a metric (R257). -/
def Metric.s (m : Metric) : Nat := 8 * 2 ^ m.res

/-! ### TL ports and dies -/

/-- DIE value of the TU on a TL port (R62). -/
def Fyster.dieOf (f : Fyster) (p : Nat) : Nat := f.rd 0x1010 (p + 1) % 2 ^ 18

/-- The TL port of a DIE value. -/
def Fyster.portOfDie (f : Fyster) (die : Nat) : Option Nat :=
  if bitOf die 31 then none else (List.range 32).find? fun p => f.dieOf p == die % 2 ^ 18

/-- This tray's entry in a descriptor, with section and position (R263). -/
def findTray (secs : List Section) (tray : Nat) : Option (Nat × Nat × TrayEntry) :=
  let all := secs.zipIdx.flatMap fun (s : Section × Nat) => s.1.trays.zipIdx.map fun (e : TrayEntry × Nat) => (s.2, e.2, e.1)
  all.find? fun x => x.2.2.tray == tray

/-- Member TL ports of a group on this tray. -/
def Fyster.members (f : Fyster) (x : Grp) : List Nat :=
  match findTray (dSections x.desc) f.tray with
  | some e => (List.range 32).filter fun p => bitOf e.2.2.mask p
  | none => []

end Sys2Proof.Machine
end

