-- ==== Sys2Proof/Machine/RecovOps.lean ====
section
/-! DEFINITION. Recovery procedures (R399, R400), by row of R400: 1 TL link loss, 2 TU reset, 3 firmware hang, 4 out-of-band
port, 5 PTP master, 6 hall-fabric port, 7 memory error, 8 failed unit, 9 NOR write, 10 tray power controller. -/

namespace Sys2Proof.Machine

/-- A procedure that has never run. -/
def Recovery.zero : Recovery := { running := false, failed := false, starts := [], completions := 0, since := 0, doneAt := 0 }

/-- A procedure of a part. -/
def Part.recovOf (p : Part) (row : Nat) : Recovery := tget p.recov row .zero

/-- R399: one start at `now` ns; the eighth within 60 s without completion sets FAILED. -/
def Recovery.start (r : Recovery) (now : Nat) : Recovery :=
  let starts := (r.starts.filter fun t => decide (now < t + 60000000000)) ++ [now]
  let failed := r.failed || decide (8 ≤ (starts.filter fun t => decide (r.doneAt ≤ t)).length)
  { r with running := true, starts := starts, failed := failed, since := now }

/-- A procedure completes. -/
def Recovery.done (r : Recovery) (now : Nat) : Recovery :=
  if r.running then { r with running := false, failed := false, completions := r.completions + 1, doneAt := now } else r

/-- Starts within the last 60 s. -/
def Recovery.recent (r : Recovery) (now : Nat) : Nat := (r.starts.filter fun t => decide (now < t + 60000000000)).length

/-- R399: the repetition of a FAILED procedure is due. -/
def Recovery.repeatDue (r : Recovery) (now : Nat) : Bool := r.failed && decide (r.since + 10000000000 ≤ now)

/-- Rows of procedures that a fault of another row abandons. -/
def Part.abandons (p : Part) (row : Nat) : List Nat := (p.recov.filter fun e => e.1 != row && e.2.running).map (·.1)

/-- Fyster counts one start of a procedure. -/
def Fyster.recovCount (f : Fyster) (row : Nat) : Fyster :=
  let r := (f.part.recovOf row).start f.ns
  let f := { f with part := { f.part with recov := tset f.part.recov row r } }
  f.log (event 0x0F00 512 (0x1030 * 65536 + 6 * 256) (r.recent f.ns))

/-- R399: a fault starts its procedure; those it abandons start again. -/
def Fyster.recovStart (f : Fyster) (row : Nat) : Fyster :=
  (f.part.abandons row).foldl Fyster.recovCount (f.recovCount row)

/-- A procedure of Fyster completes. -/
def Fyster.recovDone (f : Fyster) (row : Nat) : Fyster :=
  if (f.part.recovOf row).running then
    { f with part := { f.part with recov := tset f.part.recov row ((f.part.recovOf row).done f.ns) } }
  else f

/-- A TU counts one start of a procedure. -/
def Tu.recovCount (t : Tu) (row : Nat) : Tu :=
  let r := (t.part.recovOf row).start t.ns
  let t := { t with part := { t.part with recov := tset t.part.recov row r } }
  t.log (event 0x0F00 224 (0x1030 * 65536 + 6 * 256) (r.recent t.ns))

/-- R399 in a TU. -/
def Tu.recovStart (t : Tu) (row : Nat) : Tu := (t.part.abandons row).foldl Tu.recovCount (t.recovCount row)

/-- A procedure of a TU completes. -/
def Tu.recovDone (t : Tu) (row : Nat) : Tu :=
  if (t.part.recovOf row).running then
    { t with part := { t.part with recov := tset t.part.recov row ((t.part.recovOf row).done t.ns) } }
  else t

end Sys2Proof.Machine
end

