-- ==== Sys2Proof/Machine/TimeOps.lean ====
section
/-! DEFINITION. The servo of a time unit (R40 to R49, R446), in the form that Fyster and every TU share, and what each part
does around it. -/

namespace Sys2Proof.Machine

/-- What a servo operation gives: the time unit, the TR_TIME events in order with twice the offset in 2^-16 ps, and the rate
that the reference needs if an update was made at the limit of R41. -/
structure ServoOut where
  tm    : TimeUnit
  recs  : List (Nat × Int)
  limit : Option Int
deriving DecidableEq, Repr

/-- No event. -/
def TimeUnit.quiet (t : TimeUnit) : ServoOut := { tm := t, recs := [], limit := none }

/-- FREQ_ADJ within ±200 ppm in 0.1 ppb (R41, R56) of a rate that the servo's own law gives (R446, log 7). -/
def clampFreq (v : Word) : BitVec 32 :=
  let x := toInt 32 (v.toNat % 2 ^ 32)
  BitVec.ofNat 32 (ofInt 32 (max (-2000000) (min 2000000 x)))

/-- A step by the offset `off2` (R43, R45, R46): STEP_APPLIED, and ROLLOVER if it crosses a multiple of 2^64 (R27). -/
def TimeUnit.stepBy (t : TimeUnit) (off2 : Int) (epoch : Nat) : ServoOut :=
  let now' := ((t.now : Int) - off2 / 2000).toNat
  { tm := { t with now := now', servo := .acquiring, inLock := 0, outLock := 0, holdAt := none, stepEpoch := epoch % 65536,
                   pending2 := 0, authorised := false, offset2 := off2 }
    recs := (4, off2) :: if now' / 2 ^ 80 = t.now / 2 ^ 80 then [] else [(9, 0)]
    limit := none }

/-- A magnitude above a threshold in ns; the offset is doubled and in 2^-16 ps. -/
def above (off2 : Int) (ns : Nat) : Bool := decide (131072000 * ns < off2.natAbs)

/-- R41, R42: one update of a servo that slews. -/
def TimeUnit.slew (t : TimeUnit) (off2 : Int) (lockNs : Nat) (need : Int) (freq : BitVec 32) : ServoOut :=
  let limited := decide (200000 < need.natAbs)
  let lim := if limited then some need else none
  let t := { t with freqAdj := freq }
  let out := above off2 lockNs
  match t.servo with
  | .locked =>
    if out then
      if 16 ≤ t.outLock + 1 then
        { tm := { t with servo := .acquiring, inLock := 0, outLock := 0 }, recs := [(2, off2)], limit := lim }
      else { tm := { t with outLock := t.outLock + 1 }, recs := [], limit := lim }
    else { tm := { t with outLock := 0 }, recs := [], limit := lim }
  | .acquiring =>
    if limited || out then { tm := { t with inLock := 0 }, recs := [], limit := lim }
    else if 16 ≤ t.inLock + 1 then
      { tm := { t with servo := .locked, everLocked := true, inLock := 0, outLock := 0, lockedAt := t.now },
        recs := [(2, off2)], limit := none }
    else { tm := { t with inLock := t.inLock + 1 }, recs := [], limit := none }
  | _ => { tm := t, recs := [], limit := lim }

/-- R43: an offset above the jump threshold is refused. -/
def TimeUnit.refuse (t : TimeUnit) (off2 : Int) (freq : BitVec 32) : ServoOut :=
  { tm := { t with servo := .stepPending, pendingSerial := countUp 32 0x12300200 t.pendingSerial 1, pending2 := off2,
                   authorised := false, holdAt := some t.now, inLock := 0, outLock := 0, freqAdj := freq }
    recs := [(3, off2)]
    limit := none }

/-- R41 to R45, R47: a usable offset reaches a servo. `epoch`: STEP_EPOCH after a step. -/
def TimeUnit.update (t : TimeUnit) (off2 : Int) (jumpNs lockNs epoch : Nat) (need : Int) (freq : BitVec 32) : ServoOut :=
  let t := { t with offset2 := off2 }
  let big := above off2 jumpNs
  match t.servo with
  | .freeRun => t.stepBy off2 epoch
  | .stepPending =>
    if t.authorised then t.stepBy off2 epoch
    else if big then { tm := { t with pending2 := off2 }, recs := [], limit := none }
    else
      let x := TimeUnit.slew { t with servo := .acquiring, pending2 := 0, holdAt := none, inLock := 0 } off2 lockNs need freq
      { x with recs := (2, off2) :: x.recs }
  | .holdover =>
    if big then t.refuse off2 freq
    else
      let x := TimeUnit.slew { t with servo := .acquiring, holdAt := none, inLock := 0 } off2 lockNs need freq
      { x with recs := (2, off2) :: x.recs }
  | _ => if big then t.refuse off2 freq else t.slew off2 lockNs need freq

/-- R44, R47: usable offsets stop. FREE_RUN has no lock to hold over and stays. -/
def TimeUnit.holdover (t : TimeUnit) (freq : BitVec 32) : ServoOut :=
  match t.servo with
  | .freeRun => t.quiet
  | .holdover => t.quiet
  | .stepPending =>
    { tm := { t with servo := .holdover, pending2 := 0, offset2 := 0, authorised := false }, recs := [(2, t.offset2)],
      limit := none }
  | _ =>
    { tm := { t with servo := .holdover, holdAt := some t.now, inLock := 0, outLock := 0, freqAdj := freq },
      recs := [(2, t.offset2)], limit := none }

/-- R44: the grandmaster identity changes; a pending step is refused anew under a further serial. -/
def TimeUnit.newMaster (t : TimeUnit) (gm : Word) : ServoOut :=
  if t.gm = gm then t.quiet
  else if t.servo = .stepPending then
    { tm := { t with gm := gm, pendingSerial := countUp 32 0x12300200 t.pendingSerial 1, authorised := false },
      recs := [(3, t.pending2)], limit := none }
  else { tm := { t with gm := gm }, recs := [], limit := none }

/-- R45: the abort code that a write of `serial` to STEP_AUTHORISE meets. -/
def TimeUnit.authoriseCode (t : TimeUnit) (serial : Nat) : Nat :=
  if t.servo ≠ .stepPending then 0x27
  else if serial < t.pendingSerial then 0x2A
  else if t.pendingSerial < serial then 0x2D
  else 0

/-! ### Around a TU's servo -/

/-- R49, R90, R107, R190, R203: what a time step does besides its record: nanosecond counters go on from the new time, the
next sample of each set carries STEP, a budget period begins, and shaper credit keeps its elapsed time. -/
def Tu.stepped (t : Tu) (before : Nat) : Tu :=
  { t.periodStart with
    exp := { t.periodStart.exp with
      shapers := t.exp.shapers.map fun (e : Nat × Shaper) => (e.1, { e.2 with accrued := e.2.accrued + t.ns - before }) }
    cnts := t.cnts.map fun e => (e.1, e.2.rebase before t.ns)
    sets := t.sets.map fun e => (e.1, { e.2 with step := true }) }

/-- The effects of a servo operation on the TU: a step ends the budget period (R190); then the records. -/
def Tu.servo (t : Tu) (o : ServoOut) : Tu :=
  let before := t.ns
  let t := { t with part := { t.part with time := o.tm } }
  let t := if o.recs.any fun r => r.1 == 4 then t.stepped before else t
  let t := o.recs.foldl (fun t r => t.timeRec r.1 (offsetPs r.2) 0xFF false false) t
  match o.limit with
  | some need => t.log (event 0x0040 224 0xFF (ofInt 32 need))
  | none => t

/-- R38, R47: the TU loses its offsets; the delay history is emptied at the entry to HOLDOVER. -/
def Tu.holdover (t : Tu) (p : Port) : Tu :=
  let x := t.free p
  let o := x.1.part.time.holdover (clampFreq x.2)
  if o.recs.isEmpty then t else ({ x.1 with mpds := [] }).servo o

/-- R38: an exchange is discarded or missing; 8 in a row put the TU in HOLDOVER. -/
def Tu.missed (t : Tu) (p : Port) : Tu :=
  let t := { t with treq := none, bad := t.bad + 1 }
  if 8 ≤ t.bad then t.holdover p else t

/-- TU_JUMP_THRESHOLD_NS (R43). -/
def Tu.jumpNs (t : Tu) : Nat := t.rd 0x2200 3

/-! ### Around Fyster's servo -/

/-- A PTP port after reset: DISABLED until its port has trained (log 21). -/
def PtpPort.reset : PtpPort :=
  { up := false, retired := false, st := .disabled, foreign := none, sync := none, syncDelay := none, reqSent := none,
    presp := none, delay2 := none, txq := [], txqOvf := false }

/-- Out-of-band port `q`. -/
def Fyster.oob (f : Fyster) (q : Nat) : PtpPort := tget f.ptp q .reset

/-- Fyster with an out-of-band port replaced. -/
def Fyster.setOob (f : Fyster) (q : Nat) (o : PtpPort) : Fyster := { f with ptp := tset f.ptp q o }

/-- The port that is SLAVE. -/
def Fyster.slave (f : Fyster) : Option Nat :=
  if (f.oob 0).st = .slave then some 0 else if (f.oob 1).st = .slave then some 1 else none

/-- The effects of a servo operation on Fyster: the records with PORT the slave port, or 0 without one (log 18). At its first
lock the tray window fills (R332). -/
def Fyster.servo (f : Fyster) (o : ServoOut) : Fyster :=
  let first := o.tm.everLocked && !f.part.time.everLocked
  let f := if f.part.time.servo = .holdover ∧ o.tm.servo ≠ .holdover then f.recovDone 5 else f
  let f := { f with part := { f.part with time := o.tm } }
  let f := if first then { f with dec := { f.dec with tray := List.replicate (f.rd 0x33C0 1) f.ns } } else f
  let port := f.slave.getD 0
  let f := o.recs.foldl (fun f r => f.timeRec r.1 port (offsetPs r.2) 0xFF false false) f
  let f := match o.limit with
    | some need => f.log (event 0x0040 513 port (ofInt 32 need))
    | none => f
  f.startCheck

/-- R47: no port is SLAVE to a qualified master. -/
def Fyster.holdover (f : Fyster) : Fyster :=
  let x := f.free
  let o := x.1.part.time.holdover (clampFreq x.2)
  if o.recs.isEmpty then f else (x.1.servo o).recovStart 5

/-- The lock threshold in force in ns (R42). -/
def Fyster.lockNs (f : Fyster) : Nat :=
  if f.rd 0x1220 2 ≠ 0 then f.rd 0x1220 2 else if f.rd 0x1210 1 = 2 then 100 else 3

/-- STEP_EPOCH after a step of Fyster (R46). -/
def Fyster.nextEpoch (f : Fyster) : Nat :=
  if f.part.time.everLocked then f.part.time.stepEpoch + 1 else f.part.time.stepEpoch

/-- A usable PTP offset reaches Fyster's servo. -/
def Fyster.offset (f : Fyster) (off2 : Int) : Fyster :=
  let x := f.free
  let y := x.1.free
  let f := y.1
  f.servo (f.part.time.update off2 (f.rd 0x1220 1) f.lockNs f.nextEpoch (toInt 32 (x.2.toNat % 2 ^ 32)) (clampFreq y.2))

/-- The order of BMCA between two masters heard (R32): quality, identity, steps, source; on a full tie the lower port. -/
def Foreign.better (a b : Foreign) : Bool :=
  if a.quality ≠ b.quality then decide (a.quality < b.quality)
  else if a.gm ≠ b.gm then decide (a.gm.toNat < b.gm.toNat)
  else if a.steps ≠ b.steps then decide (a.steps < b.steps)
  else decide (a.source.toNat ≤ b.source.toNat)

/-- The master that a port in service hears. -/
def PtpPort.heard (o : PtpPort) : Option Foreign := if o.up && !o.retired then o.foreign else none

/-- The port whose master is best. -/
def Fyster.bestPort (f : Fyster) : Option Nat :=
  match (f.oob 0).heard, (f.oob 1).heard with
  | some a, some b => if a.better b then some 0 else some 1
  | some _, none => some 0
  | none, some _ => some 1
  | none, none => none

/-- The state of a port under BMCA and R32: SLAVE, or the other port's state. -/
def Fyster.portState (f : Fyster) (best : Option Nat) (q : Nat) : PtpState :=
  let o := f.oob q
  if o.retired || !o.up || f.rd 0x1210 1 == 3 then .disabled
  else if best = some q then .slave
  else if best.isNone then .listening
  else if f.part.flag 0x1210 8 then .master
  else .passive

/-- R32, R43, R47: BMCA after any change: port states, UTC offset, MASTER_CHANGE, PORT_SWITCH or HOLDOVER. -/
def Fyster.bmca (f : Fyster) : Fyster :=
  let old := f.slave
  let best := if f.rd 0x1210 1 = 3 then none else f.bestPort
  let s0 := f.portState best 0
  let s1 := f.portState best 1
  let f := (f.setOob 0 { f.oob 0 with st := s0 }).setOob 1 { f.oob 1 with st := s1 }
  match best with
  | none => if old.isSome then f.holdover else f
  | some q =>
    match (f.oob q).heard with
    | none => f
    | some m =>
      let f := f.wr 0x1200 4 (ofInt 32 m.utcOffset)
      let prev := f.part.time.gm
      if prev ≠ m.gm ∧ prev ≠ 0 then
        let o := f.part.time.newMaster m.gm
        let f := { f with part := { f.part with time := { f.part.time with gm := m.gm } } }
        (f.timeRec 5 q 0 0xFF false false).servo o
      else
        let f := { f with part := { f.part with time := { f.part.time with gm := m.gm } } }
        if old.isSome ∧ old ≠ some q then f.timeRec 6 q 0 0xFF false false else f

end Sys2Proof.Machine
end

