-- ==== Sys2Proof/Machine/NoticeOps.lean ====
section
/-! DEFINITION. TR_NOTICE, TR_CONTEST, TR_SIGNATURE and the Thotus Signature Format (R333 to R340). -/

namespace Sys2Proof.Machine

/-! ### CBOR in core deterministic encoding (R339) -/

/-- `n` bytes of `v`, most significant first. -/
def beBytes (n v : Nat) : List Byte := (leBytes n v).reverse

/-- A head of a major type with its argument in the shortest form. -/
def cborHead (major n : Nat) : List Byte :=
  let m := 32 * major
  if n < 24 then beBytes 1 (m + n)
  else if n < 256 then beBytes 1 (m + 24) ++ beBytes 1 n
  else if n < 65536 then beBytes 1 (m + 25) ++ beBytes 2 n
  else if n < 2 ^ 32 then beBytes 1 (m + 26) ++ beBytes 4 n
  else beBytes 1 (m + 27) ++ beBytes 8 n

/-- An unsigned integer. -/
def cborUint (n : Nat) : List Byte := cborHead 0 n

/-- A byte string. -/
def cborBytes (b : List Byte) : List Byte := cborHead 2 b.length ++ b

/-- A text string of these bytes. -/
def cborText (b : List Byte) : List Byte := cborHead 3 b.length ++ b

/-- An array of encoded items. -/
def cborArray (l : List (List Byte)) : List Byte := cborHead 4 l.length ++ l.flatten

/-- An array of unsigned integers. -/
def cborUints (l : List Nat) : List Byte := cborArray (l.map cborUint)

/-- A boolean. -/
def cborBool (b : Bool) : List Byte := beBytes 1 (if b then 0xF5 else 0xF4)

/-- FP16, which CBOR's half-precision floats use. -/
def fp16 : Fmt := ⟨5, 10⟩

/-- An FP32 pattern in the shortest form that keeps its value. -/
def cborFloat (b : Nat) : List Byte :=
  let h := conv fp32 fp16 .even b
  if fp32.isNan b then [0xF9, 0x7E, 0x00]
  else if conv fp16 fp32 .even h = b then 0xF9 :: beBytes 2 h
  else 0xFA :: beBytes 4 b

/-- A map of the entries that are present; keys ascend as they are listed. -/
def cborMap (l : List (Nat × Option (List Byte))) : List Byte :=
  let es := l.filterMap fun e => e.2.map fun v => cborUint e.1 ++ v
  cborHead 5 es.length ++ es.flatten

/-- "FY-2412". -/
def partText : List Byte := [0x46, 0x59, 0x2D, 0x32, 0x34, 0x31, 0x32]

/-- The FP32 NaN that a notice without a rank carries. -/
def f32NaN : Nat := 0x7FC00000

/-! ### TSF (R340) -/

/-- A node's HW_ID. -/
def hwIdOf (node : Nat) : List Byte := (Config.hwId node).toList

/-- HW_ID of the part that a DIE value names: Fyster, or the TU of the port. -/
def Fyster.hwIdOfDie (f : Fyster) (die : Nat) : List Byte :=
  match f.portOfDie die with
  | some p => hwIdOf (p + 1)
  | none => hwIdOf 0

/-- The full time array of key 6, from the TS64 of the header (R27). -/
def Fyster.tsfTime (f : Fyster) (at' : Nat) : List Byte :=
  let ns := fullNs f.ns (ts64Of at')
  cborUints [ns / 1000000000, ns % 1000000000]

/-- R340: a TSF record goes out while the rate allows it. -/
def Fyster.tsf (f : Fyster) (bs : List Byte) : Fyster :=
  if !f.part.flag 0x33C0 3 then f
  else
    let recent := f.dec.tsf.filter fun x => decide (f.ns - 1000000000 < x)
    let f := { f with dec := { f.dec with tsf := recent } }
    if f.rd 0x33C0 5 ≤ recent.length then f.bump 0x33C0 6 1
    else
      let f := { f with dec := { f.dec with tsf := recent ++ [f.ns] } }
      let dest := f.part.rdDom 0x33C0 4
      let f := if dest.length = 18 ∧ ((f.oob 0).up || (f.oob 1).up) = true then
          f.emit (.datagram (BitVec.ofNat 128 (leNat (slice dest 0 16).reverse)) (BitVec.ofNat 16 (fieldAt dest 16 2)) bs)
        else f
      f.hostEntry 3 bs

/-! ### TR_NOTICE (R336, R337) -/

/-- A notice before it has its serial. FP32 values are bit patterns; `at'`: time of the finding in ns. -/
structure Notice where
  cls      : Nat
  action   : Nat
  cause    : Nat
  flags    : Nat
  die      : Nat
  /-- Tile, or 0xFF; for WEAR the full unit number. -/
  unit     : Nat
  dstate   : Nat
  ref      : Nat
  value    : Nat
  thr      : Nat
  rank     : Nat
  related  : Nat
  detail32 : Nat
  detail64 : Nat
  gslot    : Nat
  model    : Nat
  at'      : Nat
deriving DecidableEq, Repr

/-- A notice with nothing but its class and subject. -/
def notice (cls die gslot at' : Nat) : Notice :=
  { cls := cls, action := 0, cause := 0, flags := 0, die := die, unit := 0xFF, dstate := 0, ref := 0xFFFF, value := 0, thr := 0,
    rank := f32NaN, related := 0, detail32 := 0, detail64 := 0, gslot := gslot, model := 0, at' := at' }

/-- Entries of the tray window in force (R329); `g`: the group whose GOV_WINDOW_S applies. -/
def Fyster.trayWindow (f : Fyster) (g : Nat) : Nat :=
  (f.dec.tray.filter fun x => decide (f.ns < x + 1000000000 * f.rd (0x3300 + g) 2)).length

/-- The governor state of a group that has made no request. -/
def Gov.zero : Gov where
  window := []
  rho := 0
  pollAt := 0
  rebuilt := false
  answered := []
  grants := []
  eseq := 0
  entries := []
  fences := []
  groupCount := 0

/-- The governor state of a group. -/
def Fyster.gov (f : Fyster) (g : Nat) : Gov := tget f.dec.govs g .zero

/-- The TR_NOTICE record (R336) under serial `n`. -/
def Fyster.noticeRec (f : Fyster) (x : Notice) (n : Nat) : Rec :=
  let g := if x.gslot = 0xFF then 0 else x.gslot
  f.mkRec 0x10 (if x.gslot = 0xFF then 0x0840 else 0x0800 + x.gslot) 517 x.gslot x.at'
    (payload 9 [(x.cls, 8), (x.action, 8), (x.cause, 8), (x.flags, 8), (n, 32), (x.die, 32), (x.unit % 256, 8), (x.dstate, 8),
      (x.ref, 16), (x.value, 32), (x.thr, 32), (x.rank, 32), (x.related, 32), (f.trayWindow g, 16),
      (if x.gslot = 0xFF then 0 else (f.gov g).groupCount, 16), (x.detail32, 32), (ts64Of f.ns, 64),
      (if x.gslot = 0xFF then 0 else f.groupId g, 32), (x.model, 32), (x.detail64, 64), (0, 64)])

/-- The TSF record of a notice (R339). -/
def Fyster.noticeTsf (f : Fyster) (x : Notice) (n : Nat) : List Byte :=
  let opt (c : Bool) (b : List Byte) : Option (List Byte) := if c then some b else none
  let group := if x.gslot = 0xFF then 0 else f.groupId x.gslot
  cborMap [(0, some (cborUint 1)), (1, some (cborUint 1)), (2, some (cborText partText)), (3, some (cborUint f.tray)),
    (4, some (cborUint (x.die % 2 ^ 18))), (5, some (cborBytes (f.hwIdOfDie x.die))), (6, some (f.tsfTime x.at')),
    (7, opt (group != 0) (cborUint group)), (8, some (cborUint x.cls)), (9, some (cborUint x.action)),
    (10, some (cborUint x.cause)), (11, some (cborUint n)), (12, opt (x.unit != 0xFF) (cborUint x.unit)),
    (13, some (cborFloat x.value)), (14, some (cborFloat x.thr)), (15, opt (!fp32.isNan x.rank) (cborFloat x.rank)),
    (16, opt (x.ref != 0xFFFF) (cborUint x.ref)), (17, opt (x.related != 0) (cborUint x.related)),
    (18, some (cborUint x.flags)), (19, opt (x.model != 0) (cborUint x.model)), (20, some (cborUints [x.detail32, x.detail64]))]

/-- The next notice serial (R336). -/
def Fyster.nextNotice (f : Fyster) : Fyster × Nat :=
  let n := f.rd 0x33C0 7 + 1
  (f.wr 0x33C0 7 n, n)

/-- R337: the notice ring of the tray's L1 area, written by the L1 holder. -/
def Fyster.noticeRing (f : Fyster) (g : Nat) (r : Rec) : Fyster :=
  match f.grp g with
  | none => f
  | some x =>
    if (x.held 0).isNone then f
    else
      let n := tget f.dec.rings g 0
      let o := roleArea g 0 + 131072
      let f := { f with dec := { f.dec with rings := tset f.dec.rings g (n + 1) } }
      let body := slice (wordsBytes r.words ++ List.replicate 128 0) 0 128
      (f.putLedger (o + 64 + 128 * (n % 256)) body).putLedger o (leBytes 8 (n + 1))

/-- R336, R337: a notice to the tray partition, the host, TSF and the notice ring; answers its serial. -/
def Fyster.notify (f : Fyster) (x : Notice) : Fyster × Nat :=
  let y := f.nextNotice
  let f := y.1
  let s := f.stamp (f.noticeRec x y.2)
  let f := (s.1.writeRecords trayPart 0 0 0xFF false [s.2]).hostEntry 1 (wordsBytes s.2.words)
  let f := f.tsf (f.noticeTsf x y.2)
  (if x.gslot = 0xFF then f else f.noticeRing x.gslot s.2, y.2)

/-- R327, R337: a ZOOM notice goes to its TU and to the tray partition only. -/
def Fyster.zoomNotice (f : Fyster) (g p : Nat) (on : Bool) (z at' dstate : Nat) : Fyster :=
  let y := f.nextNotice
  let x := { notice 0x09 (f.dieOf p) g at' with action := if on then 1 else 2, dstate := dstate, detail64 := z }
  let s := y.1.stamp (y.1.noticeRec x y.2)
  (s.1.writeRecords trayPart 0 0 0xFF false [s.2]).sendStamped p s.2

/-- R335: a WEAR notice of a physical unit of node `n`. -/
def Fyster.wearNotice (f : Fyster) (die unit spare at' : Nat) (noSpare : Bool) : Fyster :=
  (f.notify { notice 0x0A die 0xFF at' with
    action := 5, cause := 0x0B, flags := packNat [(0, 6), (b2n noSpare, 1)], unit := unit, detail32 := spare,
    detail64 := unit }).1

/-! ### TR_CONTEST (R333, R334) -/

/-- TR_CONTEST and its TSF record; `loop` and `pin` as the record holds them. -/
def Fyster.contestRec (f : Fyster) (knob set subject g periods loop pin first total at' : Nat) (ended : Bool) : Fyster :=
  let r := f.mkRec 0x11 (0x0880 + g) 517 g at'
    (payload 5 [(knob, 8), (set, 8), (b2n ended, 1), (0, 15), (subject, 32), (periods, 64), (loop, 32), (pin, 32), (ts64Of first, 64),
      (total, 64)])
  let group := f.groupId g
  (f.hostRec r).tsf (cborMap [(0, some (cborUint 1)), (1, some (cborUint 3)), (2, some (cborText partText)),
    (3, some (cborUint f.tray)), (6, some (f.tsfTime at')), (7, if group = 0 then none else some (cborUint group)),
    (35, some (cborUint knob)),
    (36, some (cborArray [cborUint periods, cborUint loop, cborUint pin, cborBool ended]))])

/-- The counts at which a contest is reported: 1,000, and every further 10,000 (R333). -/
def contestDue (n : Nat) : Bool := decide (1000 ≤ n) && n % 10000 == 1000

/-- R333: one period of a knob and subject, contested or not. `key` names knob, set and subject. -/
def Fyster.contestStep (f : Fyster) (key knob set subject g loop pin start at' : Nat) (contested : Bool) : Fyster :=
  let c := (f.dec.contests.find? fun c => c.key == key).getD { key := key, periods := 0, first := 0, total := 0, emitted := false }
  let put (c : Contest) (f : Fyster) : Fyster :=
    { f with dec := { f.dec with contests := (f.dec.contests.filter fun x => x.key != key) ++ [c] } }
  if contested then
    let c := { c with periods := c.periods + 1, first := if c.periods = 0 then start else c.first, total := c.total + 1 }
    let f := f.bump (0x3300 + g) 0x0B 1
    if contestDue c.periods then
      put { c with emitted := true } (f.contestRec knob set subject g c.periods loop pin c.first c.total at' false)
    else put c f
  else
    let f := if c.emitted then f.contestRec knob set subject g c.periods loop pin c.first c.total at' true else f
    if c.total = 0 then f else put { c with periods := 0, emitted := false } f

/-! ### TR_SIGNATURE (R338) -/

/-- TR_SIGNATURE of a SIGNATURE record `s` of the TU on port `p`; `taint`: the notice with its serial, `outcome`: of the
REPLAY record, 0 if none is held; `serial`: of the CORRUPTION notice. -/
def Fyster.signature (f : Fyster) (p : Nat) (s : Rec) (taint : Option Rec) (outcome serial : Nat) : Fyster :=
  let tf (lo len : Nat) : Nat := match taint with
    | some t => t.fld lo len
    | none => 0
  let ts := match taint with
    | some t => t.ts64
    | none => s.ts64
  let gs := match taint with
    | some t => t.gslot
    | none => s.gslot
  let at' := fullNs f.ns ts
  let die := f.dieOf p
  let r := f.mkRec 0x13 0x0841 517 gs at'
    (payload 17 [(s.fld 208 4, 4), (outcome, 4), (s.fld 200 4, 4), (s.fld 204 4, 4), (s.unit, 8), (s.fld 212 1, 1), (0, 7),
      (s.fld 224 32, 32), (die, 32), (s.fld 256 32, 32), (s.fld 288 32, 32), (s.fld 320 256, 256), (s.fld 576 256, 256),
      (s.fld 832 20, 20), (0, 12), (s.fld 864 16, 16), (s.fld 880 16, 16), (tf 256 32, 32), (tf 288 16, 16), (tf 304 16, 16),
      (serial, 32), (tf 320 64, 64), (tf 704 32, 32), (tf 736 32, 32), (0, 128)])
  let group := if gs = 0xFF then 0 else f.groupId gs
  let bins (lo : Nat) : List Byte := cborUints ((List.range 16).map fun i => s.fld (lo + 16 * i) 16)
  (f.hostRec r).tsf (cborMap [(0, some (cborUint 1)), (1, some (cborUint 2)), (2, some (cborText partText)),
    (3, some (cborUint f.tray)), (4, some (cborUint (die % 2 ^ 18))), (5, some (cborBytes (hwIdOf (p + 1)))),
    (6, some (f.tsfTime at')), (7, if group = 0 then none else some (cborUint group)), (11, some (cborUint serial)),
    (12, if s.unit = 0xFF then none else some (cborUint s.unit)), (21, some (cborUint (s.fld 208 4))),
    (22, some (cborUint (s.fld 832 20))), (23, some (cborUints [s.fld 200 4, s.fld 204 4])), (24, some (cborUint (s.fld 256 32))),
    (25, some (cborUint (s.fld 288 32))), (26, some (bins 320)), (27, some (bins 576)), (28, some (cborUint outcome)),
    (29, some (cborUints [s.fld 864 16, s.fld 880 16])), (30, some (cborUints [tf 256 32, tf 288 16, tf 304 16])),
    (31, some (cborUint (tf 320 64))), (32, some (cborArray [cborFloat (tf 704 32), cborFloat (tf 736 32)])),
    (33, some (cborUint (s.fld 224 32))), (34, if s.fld 212 1 = 1 then some (cborBool true) else none)])

end Sys2Proof.Machine
end

