-- ==== Sys2Proof/Machine/AggOps.lean ====
section
/-! DEFINITION. LH256 aggregates and the slots that carry them: insertion, merging, rank and layout (R258 to R260, R264, R269). -/

namespace Sys2Proof.Machine

/-! ### Aggregates (R258) -/

/-- An aggregate of a metric with nothing inserted. -/
def aggZero (metric res : Nat) (offset : Int) : Agg where
  count := 0
  sum := 0
  sumsq := 0
  min := fp64.infBits false
  max := fp64.infBits true
  minDie := 0xFFFFFFFF
  maxDie := 0xFFFFFFFF
  minUnit := 0xFF
  maxUnit := 0xFF
  metric := metric
  res := res
  sat := false
  offset := offset
  zeros := 0
  negatives := 0
  nans := 0
  underflows := 0
  overflows := 0
  contributors := 0
  missing := 0
  noData := 0
  stretched := 0
  bins := []

/-- Largest value of a 32-bit count. -/
def max32 : Nat := 0xFFFFFFFF

/-- A 32-bit count after `n` more, and whether it has saturated. -/
def satAdd (a n : Nat) : Nat := min (a + n) max32

/-- SAT after a count `a` has taken `n` more. -/
def satHit (a n : Nat) : Bool := decide (max32 < a + n)

/-- R259: the bin index of a positive finite FP64 pattern, before the range test. With M the 53-bit significand, the edge
RN(2^(j/s)) is at most M exactly when 2^(53 s + j) < (2 M + 1)^s, since 2^(j/s) is irrational. -/
def binIndex (s : Nat) (offset : Int) (v : Nat) : Int :=
  match fp64.decode v with
  | .fin _ m e =>
    let l := Nat.log2 m
    let big := m * 2 ^ (52 - l)
    let k := min (s - 1) (Nat.log2 ((2 * big + 1) ^ s) - 53 * s)
    (s : Int) * (e + l) + k - offset
  | _ => 0

/-- (DIE, UNIT) order of a tie (R259). -/
def originLt (d1 u1 d2 u2 : Nat) : Bool := decide (d1 < d2) || (d1 == d2 && decide (u1 < u2))

/-- MIN and MAX after a finite value or the extrema of another aggregate. -/
def Agg.extrema (a : Agg) (lo loDie loUnit hi hiDie hiUnit : Nat) : Agg :=
  let a := if fp64.lt lo a.min || (fp64.key lo == fp64.key a.min && originLt loDie loUnit a.minDie a.minUnit) then
      { a with min := lo, minDie := loDie, minUnit := loUnit } else a
  if fp64.lt a.max hi || (fp64.key hi == fp64.key a.max && originLt hiDie hiUnit a.maxDie a.maxUnit) then
    { a with max := hi, maxDie := hiDie, maxUnit := hiUnit } else a

/-- The count that a value raises (R259): 0 NANS, 1 OVERFLOWS, 2 NEGATIVES, 3 ZEROS, 4 UNDERFLOWS, 5 a bin. -/
def valClass (s : Nat) (offset : Int) (v : Nat) : Nat × Nat :=
  match fp64.decode v with
  | .nan => (0, 0)
  | .inf neg => if neg then (2, 0) else (1, 0)
  | .fin neg m _ =>
    if m = 0 then (3, 0)
    else if neg then (2, 0)
    else
      let i := binIndex s offset v
      if i < 0 then (4, 0) else if 255 < i then (1, 0) else (5, i.toNat)

/-- An aggregate with one more value of a class counted. -/
def Agg.tally (a : Agg) (c : Nat × Nat) : Agg :=
  match c.1 with
  | 0 => { a with nans := satAdd a.nans 1, sat := a.sat || satHit a.nans 1 }
  | 1 => { a with overflows := satAdd a.overflows 1, sat := a.sat || satHit a.overflows 1 }
  | 2 => { a with negatives := satAdd a.negatives 1, sat := a.sat || satHit a.negatives 1 }
  | 3 => { a with zeros := satAdd a.zeros 1, sat := a.sat || satHit a.zeros 1 }
  | 4 => { a with underflows := satAdd a.underflows 1, sat := a.sat || satHit a.underflows 1 }
  | _ => { a with bins := tset a.bins c.2 (satAdd (tget a.bins c.2 0) 1), sat := a.sat || satHit (tget a.bins c.2 0) 1 }

/-- R259: insert the value `v` (an FP64 pattern, SCALE taken in). -/
def Agg.insert (a : Agg) (v die unit : Nat) : Agg :=
  let s := 8 * 2 ^ a.res
  let a := { a with count := Nat.min (a.count + 1) max64 }.tally (valClass s a.offset v)
  if fp64.isFin v then
    { a with sum := fp64.add a.sum v, sumsq := fp64.add a.sumsq (fp64.mul v v) }.extrema v die unit v die unit
  else a

/-- R260: two aggregates merge only when these agree. -/
def Agg.agrees (a b : Agg) : Bool := a.metric == b.metric && a.res == b.res && a.offset == b.offset

/-- The bins of two aggregates added; the second answer tells whether one has saturated. -/
def mergeBins (a : Tab Nat) : Tab Nat → Tab Nat × Bool
  | [] => (a, false)
  | (k, n) :: r =>
    let x := mergeBins a r
    (tset x.1 k (satAdd (tget x.1 k 0) n), x.2 || satHit (tget x.1 k 0) n)

/-- R260: a merged with b. -/
def Agg.merge (a b : Agg) : Agg :=
  let bins := mergeBins a.bins b.bins
  let hit := satHit a.zeros b.zeros || satHit a.negatives b.negatives || satHit a.nans b.nans ||
    satHit a.underflows b.underflows || satHit a.overflows b.overflows || satHit a.contributors b.contributors ||
    satHit a.missing b.missing || satHit a.noData b.noData || satHit a.stretched b.stretched || bins.2
  let m : Agg :=
    { a with
      count := Nat.min (a.count + b.count) max64
      sum := fp64.add a.sum b.sum
      sumsq := fp64.add a.sumsq b.sumsq
      sat := a.sat || b.sat || hit
      zeros := satAdd a.zeros b.zeros
      negatives := satAdd a.negatives b.negatives
      nans := satAdd a.nans b.nans
      underflows := satAdd a.underflows b.underflows
      overflows := satAdd a.overflows b.overflows
      contributors := satAdd a.contributors b.contributors
      missing := satAdd a.missing b.missing
      noData := satAdd a.noData b.noData
      stretched := satAdd a.stretched b.stretched
      bins := bins.1 }
  m.extrema b.min b.minDie b.minUnit b.max b.maxDie b.maxUnit

/-- The 128 bytes of an aggregate before its bins. -/
def Agg.head (a : Agg) : Nat :=
  packNat [(a.count, 64), (a.sum, 64), (a.sumsq, 64), (a.min, 64), (a.max, 64), (a.minDie, 32), (a.maxDie, 32),
    (a.minUnit, 8), (a.maxUnit, 8), (a.metric, 16), (a.res, 2), (b2n a.sat, 1), (0, 5), (ofInt 16 a.offset, 16), (0, 8),
    (a.zeros, 32), (a.negatives, 32), (a.nans, 32), (a.underflows, 32), (a.overflows, 32), (a.contributors, 32),
    (a.missing, 32), (a.noData, 32), (a.stretched, 32), (0, 288)]

/-- The 1,152 bytes of an aggregate (R258). -/
def Agg.bytes (a : Agg) : List Byte :=
  leBytes 128 a.head ++ (List.range 256).flatMap fun i => leBytes 4 (tget a.bins i 0)

/-- The aggregate that 1,152 bytes hold. -/
def aggOf (bs : List Byte) : Agg :=
  let v := leNat (slice bs 0 128)
  { count := bitsOf v 0 64, sum := bitsOf v 64 64, sumsq := bitsOf v 128 64, min := bitsOf v 192 64, max := bitsOf v 256 64,
    minDie := bitsOf v 320 32, maxDie := bitsOf v 352 32, minUnit := bitsOf v 384 8, maxUnit := bitsOf v 392 8,
    metric := bitsOf v 400 16, res := bitsOf v 416 2, sat := bitOf v 418, offset := toInt 16 (bitsOf v 424 16),
    zeros := bitsOf v 448 32, negatives := bitsOf v 480 32, nans := bitsOf v 512 32, underflows := bitsOf v 544 32,
    overflows := bitsOf v 576 32, contributors := bitsOf v 608 32, missing := bitsOf v 640 32, noData := bitsOf v 672 32,
    stretched := bitsOf v 704 32,
    bins := ((List.range 256).map fun i => (i, fieldAt bs (128 + 4 * i) 4)).filter fun (e : Nat × Nat) => e.2 != 0 }

/-- Counts below bin `i`. -/
def binsBelow (a : Agg) (i : Nat) : Nat := sumBy (fun e => if e.1 < i then e.2 else 0) a.bins

/-- R269: twice r of the rank. -/
def Agg.rank2 (a : Agg) (v : Nat) : Nat :=
  let n := a.count - a.nans
  match fp64.decode v with
  | .fin neg m _ =>
    if m = 0 then 2 * a.negatives + a.zeros
    else if neg then a.negatives
    else
      let i := binIndex (8 * 2 ^ a.res) a.offset v
      if i < 0 then 2 * (a.negatives + a.zeros) + a.underflows
      else if 255 < i then 2 * n - a.overflows
      else 2 * (a.negatives + a.zeros + a.underflows + binsBelow a i.toNat) + tget a.bins i.toNat 0
  | .inf neg => if neg then a.negatives else 2 * n - a.overflows
  | .nan => 0

/-- R269: the cohort rank as an FP32 pattern; none for NONE. -/
def Agg.rank (a : Agg) (v : Nat) : Option Nat :=
  let n := a.count - a.nans
  if n = 0 ∨ fp64.isNan v = true then none else some (fp32.round .even false (a.rank2 v) (2 * n))

/-! ### Slots (R264) -/

/-- PAYLOAD of a slot. -/
def Contrib.payload (c : Contrib) : List Byte := c.aggs.flatMap Agg.bytes

/-- The 64-byte header. -/
def Contrib.header (c : Contrib) : List Byte :=
  leBytes 64 (packNat [(c.inst, 64), (c.group, 32), (c.serial, 32), (c.memb, 32), (c.roleEpoch, 16), (c.level, 4), (c.kind, 4),
    (c.hflags, 8), (c.aggs.length, 16), (min c.absentTrays 65535, 16), (min c.absentL2 65535, 16), (0, 16), (c.expected, 32),
    (c.covered, 32), (c.absentDies, 32), (c.warmup, 32), (crc32c c.payload, 32), (c.lostTrays, 32), (c.first, 64)])

/-- All bytes of a slot. -/
def Contrib.bytes (c : Contrib) : List Byte := c.header ++ c.payload

/-- Aggregates that the header names. -/
def slotMetrics (bs : List Byte) : Nat := fieldAt bs 24 2

/-- The aggregates of a slot that reaches as far as its header says. -/
def slotAggs (bs : List Byte) : List Agg := (List.range (slotMetrics bs)).map fun i => aggOf (slice bs (64 + 1152 * i) 1152)

/-- R265: PAYLOAD_CRC matches, and the slot is as long as its header says. -/
def slotGood (bs : List Byte) : Bool :=
  let n := slotMetrics bs
  decide (64 + 1152 * n ≤ bs.length) && fieldAt bs 48 4 == crc32c (slice bs 64 (1152 * n))

/-- What a slot holds. -/
def slotOfBytes (bs : List Byte) : Contrib :=
  let v := leNat (slice bs 0 64)
  { inst := bitsOf v 0 64, group := bitsOf v 64 32, serial := bitsOf v 96 32, memb := bitsOf v 128 32,
    roleEpoch := bitsOf v 160 16, level := bitsOf v 176 4, kind := bitsOf v 180 4, hflags := bitsOf v 184 8,
    absentTrays := bitsOf v 208 16, absentL2 := bitsOf v 224 16, expected := bitsOf v 256 32, covered := bitsOf v 288 32,
    absentDies := bitsOf v 320 32, warmup := bitsOf v 352 32, lostTrays := bitsOf v 416 32, first := bitsOf v 448 64,
    aggs := slotAggs bs }

/-- The aggregates of two slots may merge (R260). -/
def Contrib.agrees (a b : Contrib) : Bool :=
  a.aggs.length == b.aggs.length && (a.aggs.zip b.aggs).all fun e => e.1.agrees e.2

/-- HFLAGS of two slots together; PUBLISHED belongs to a summary alone. -/
def orFlags (a b : Nat) : Nat := Nat.lor a b / 2 % 32 * 2

/-- A slot with another merged into it. -/
def Contrib.merge (a b : Contrib) : Contrib :=
  { a with
    hflags := setBit (orFlags a.hflags b.hflags) 5
      (bitOf a.hflags 5 || bitOf b.hflags 5 || (a.aggs.zip b.aggs).any fun e => (e.1.merge e.2).sat)
    absentTrays := a.absentTrays + b.absentTrays
    absentL2 := a.absentL2 + b.absentL2
    expected := satAdd a.expected b.expected
    covered := satAdd a.covered b.covered
    absentDies := satAdd a.absentDies b.absentDies
    warmup := satAdd a.warmup b.warmup
    lostTrays := satAdd a.lostTrays b.lostTrays
    aggs := List.zipWith Agg.merge a.aggs b.aggs }

end Sys2Proof.Machine
end

