-- ==== Sys2Proof/Machine/RelayOps.lean ====
section
/-! DEFINITION. The relay of dictionary accesses to the TUs (R342, R354, R447). -/

namespace Sys2Proof.Machine

/-- The fixed fields of TR_DICT (R447). -/
structure DictMsg where
  dkind  : Nat
  answer : Bool
  level  : Nat
  abort  : Nat
  index  : Nat
  sub    : Nat
  type   : Nat
  rid    : Nat
  offset : Nat
  total  : Nat
  crc    : Nat
  data   : List Byte
deriving DecidableEq, Repr

/-- The payload words of TR_DICT. -/
def DictMsg.pay (m : DictMsg) : List Word :=
  payload 5 [(m.dkind, 8), (b2n m.answer, 1), (m.level, 2), (0, 5), (m.abort, 16), (m.index, 16), (m.sub, 8), (m.type, 8), (m.rid, 16),
    (m.data.length, 16), (m.offset, 32), (m.total, 32), (m.crc, 32)] ++ allWords m.data

/-- The fields of a TR_DICT record. -/
def dictMsg (r : Rec) : DictMsg :=
  { dkind := r.fld 192 8, answer := r.fld 200 1 == 1, level := r.fld 201 2, abort := r.fld 208 16, index := r.fld 224 16,
    sub := r.fld 240 8, type := r.fld 248 8, rid := r.fld 256 16, offset := r.fld 288 32, total := r.fld 320 32,
    crc := r.fld 352 32, data := (wordsBytes (r.pay.drop 5)).take (r.fld 272 16) }

/-- R342: whether a request for node `n` can be relayed: NO_NODE, NODE_UNREACHABLE, or 0. -/
def Fyster.nodeCode (f : Fyster) (n : Nat) : Nat :=
  if 32 < n then 0x10
  else if n = 0 then 0
  else if tget f.nodes (n - 1) 0 = 0 then 0x10
  else if (f.link (n - 1)).st == .up && tget f.nodes (n - 1) 0 == 2 then 0
  else 0x11

/-- R354: an access goes to the TU on port `p`; `why`: who waits for the answer. -/
def Fyster.relay (f : Fyster) (p : Nat) (why : RelayFor) (m : DictMsg) : Fyster :=
  let rid := f.nextRid
  let f := { f with
    nextRid := (rid + 1) % 65536
    relays := f.relays ++ [({ rid := rid, port := p, dkind := m.dkind, index := m.index, sub := m.sub,
                              sentAt := f.part.time.now, why := why } : Relay)] }
  f.sendTu p (f.mkRec 0x14 0x0FF0 512 0xFF f.ns ({ m with rid := rid } : DictMsg).pay)

/-- A WRITE of a short value. -/
def dictWriteMsg (level index sub type : Nat) (data : List Byte) : DictMsg :=
  { dkind := 2, answer := false, level := level, abort := 0, index := index, sub := sub, type := type, rid := 0, offset := 0,
    total := 0, crc := 0, data := data }

/-- A READ. -/
def dictReadMsg (level index sub type : Nat) : DictMsg :=
  { dkind := 1, answer := false, level := level, abort := 0, index := index, sub := sub, type := type, rid := 0, offset := 0,
    total := 0, crc := 0, data := [] }

end Sys2Proof.Machine
end

