-- ==== Sys2Proof/Machine/ArmOps.lean ====
section
/-! DEFINITION. Arming on a Fyster: checks of a descriptor, admission, the arm inbox and the broadcast (R261 to R263, R272 to
R279). -/

namespace Sys2Proof.Machine

/-! ### Groups that a Fyster keeps -/

/-- Where Fyster keeps a group: its slot, or 64 more while it waits for a slot that another group holds (R251). -/
def Fyster.armKey (f : Fyster) (id : Nat) : Option Nat := (f.red.groups.find? fun e => e.2.live && e.2.id == id).map (·.1)

/-- Fyster with the group under a key taken out. -/
def Fyster.dropGrp (f : Fyster) (k : Nat) : Fyster := { f with red := { f.red with groups := tdel f.red.groups k } }

/-- A group is sampled only (R16, R253). -/
def samplingOnly (period : Nat) : Bool := decide (period < 100000)

/-- A role with nothing in it. -/
def newRole (level : Nat) (standby : Bool) (index sect peer : Nat) : Role where
  level := level
  standby := standby
  holder := !standby
  admitted := false
  epoch := 0
  index := index
  section_ := sect
  peer := peer
  peerHb := 0
  seenAt := 0
  children := []
  doneSent := none
  open_ := []
  closed := none
  late := []
  carryTotal := none
  carry := none
  sent := []
  seq := 0

/-! ### Checks of a descriptor (R257, R274) -/

/-- TRAYS (R274). -/
def dTrays (d : List Byte) : Nat := fieldAt d 72 4

/-- Bytes that the sections of a descriptor take from `ofs` on; none where they do not fit. -/
def sectionsEnd (d : List Byte) : Nat → Nat → Option Nat
  | 0, o => some o
  | n + 1, o => if d.length < o + 32 then none else sectionsEnd d n (o + 32 + 32 * fieldAt d (o + 24) 2)

/-- A metric entry with a reserved code. -/
def metricRsv (m : Metric) (scope : Nat) : Bool :=
  m.kind == 0 || decide (6 < m.kind) || decide (1 < scope) || (m.tile && (m.kind == 4 || m.kind == 5))

/-- The metric entries of a descriptor with their SCOPE bytes. -/
def dScoped (d : List Byte) : List (Metric × Nat) :=
  (List.range (dMetrics d)).map fun i => (dMetric d i, fieldAt d (128 + 32 * i + 3) 1)

/-- R274: what is wrong with a descriptor, as the abort code of the write; 0 if nothing. `whole`: it holds every section. -/
def descCode (d : List Byte) (whole : Bool) : Nat :=
  let arm := dKind d == 1
  let okLen := if arm then
      (match sectionsEnd d (dNl2 d) (dSectionsAt d) with
       | some n => !whole || n == d.length
       | none => !whole)
    else d.length == 128
  let ms := dScoped d
  lowestAbort [(d.length < 128 || !okLen, 0x24), (dGroup d == 0 || decide (63 < dSlot d), 0x25),
    (dKind d == 0 || decide (2 < dKind d) || decide (1 < fieldAt d 10 1), 0x26),
    (arm && (dMetrics d == 0 || decide (1024 < dMetrics d) || dNl2 d == 0 || decide (64 < dNl2 d) ||
      (dSections d).any (fun s => s.trays.isEmpty || decide (128 < s.trays.length)) ||
      ms.any (fun m => metricBad m.1 m.2 && !metricRsv m.1 m.2) || !(ms.map (·.1.id)).Nodup), 0x25),
    (arm && ms.any (fun m => metricRsv m.1 m.2), 0x26), (arm && !gridOk (dPeriod d) (dPhase d), 0x25),
    (arm && gridOk (dPeriod d) (dPhase d) && !onGrid (dPeriod d) (dPhase d) (dEff d), 0x29)]

/-- Roles of level `level` that a descriptor places on this tray. -/
def Fyster.placed (f : Fyster) (d : List Byte) (level : Nat) : Nat :=
  let me (t : Nat) : Nat := b2n (t == f.tray)
  if level = 2 then me (dRoot d false) + me (dRoot d true)
  else sumBy (fun s => me s.tray + me s.sb) (dSections d)

/-! ### Admission (R272, R273) -/

/-- A non-negative rational. -/
structure Ratio where
  num : Nat
  den : Nat
deriving DecidableEq, Repr

/-- The sum of two ratios. -/
def Ratio.add (a b : Ratio) : Ratio := { num := a.num * b.den + b.num * a.den, den := a.den * b.den }

/-- A ratio is at most `n / d`. -/
def Ratio.le (a : Ratio) (n d : Nat) : Bool := decide (a.num * d ≤ n * a.den)

/-- The sum of ratios. -/
def ratioSum (l : List Ratio) : Ratio := l.foldl Ratio.add { num := 0, den := 1 }

/-- Children of a role: trays of its section, or sections. -/
def Grp.childCount (x : Grp) (r : Role) : Nat := (x.childTrays r).length

/-- R273: demand of a role in MB/s. -/
def Grp.demand (x : Grp) (r : Role) : Ratio :=
  let s := 1000 * slotBytes (dMetrics x.desc)
  let p := x.period
  let c := x.childCount r
  let rel := dRelayed x.desc
  { num := if r.level = 0 then (if r.standby then s else 2 * s + 16 * p)
           else if r.level = 1 then (c + 1) * (s + 16 * p) + (if rel then (c + 1) * s else 0)
           else (c + 1) * s + 16 * c * p + (if rel then c * s else dTrays x.desc * s)
    den := max p 1 }

/-- Values that one die of the group gives at an instant. -/
def Grp.valuesPerDie (x : Grp) : Nat := sumBy Metric.values (dMetricList x.desc)

/-- Contexts that one member of the group takes (R254). -/
def Grp.ctxPerDie (x : Grp) : Nat := sumBy (fun m => if m.tile then 18 else 1) (dMetricList x.desc)

/-- Admitted roles of all groups on this Fyster, each with its group. -/
def Fyster.admittedRoles (f : Fyster) : List (Grp × Role) :=
  f.red.groups.flatMap fun e => if e.2.live then (e.2.roles.filter (·.admitted)).map fun r => (e.2, r) else []

/-- Contexts in use (R254). -/
def Fyster.ctxUsed (f : Fyster) : Nat :=
  32 + sumBy (fun e => if e.2.level = 0 ∧ e.2.standby = false then (f.members e.1).length * e.1.ctxPerDie else 0) f.admittedRoles

/-- METRIC_SLOTS_USED: NMETRIC of every admitted role of a group that is reduced. -/
def Fyster.metricSlots (f : Fyster) : Nat :=
  sumBy (fun e => if samplingOnly e.1.period then 0 else dMetrics e.1.desc) f.admittedRoles

/-- Admitted demand of a level. -/
def Fyster.demandAt (f : Fyster) (level : Nat) : Ratio :=
  ratioSum ((f.admittedRoles.filter fun e => e.2.level == level && !samplingOnly e.1.period).map fun e => e.1.demand e.2)

/-- DEMAND_MBPS of a level. -/
def Fyster.demandMbps (f : Fyster) (level : Nat) : Nat := ceilDiv (f.demandAt level).num (f.demandAt level).den

/-- Context updates per ns of the admitted L1 roles. -/
def Fyster.ctxRate (f : Fyster) : Ratio :=
  ratioSum ((f.admittedRoles.filter fun e => e.2.level == 0 && !e.2.standby).map fun e =>
    { num := (f.members e.1).length * e.1.valuesPerDie, den := max e.1.period 1 })

/-- Merges per ns of the admitted L2 and L3 roles. -/
def Fyster.mergeRate (f : Fyster) : Ratio :=
  ratioSum ((f.admittedRoles.filter fun e => e.2.level != 0 && !samplingOnly e.1.period).map fun e =>
    { num := e.1.childCount e.2 * dMetrics e.1.desc, den := max e.1.period 1 })

/-- The layout of an L2 or L3 area ends here (R262). -/
def Grp.layoutEnd (x : Grp) (r : Role) : Nat :=
  let al := slotAl (dMetrics x.desc)
  let fr := frames x.period
  let c := x.childCount r
  let t := dTrays x.desc
  1048576 + fr * c * 2 * al + c * 2 * al + fr * al + al + (if r.level = 2 ∨ dRelayed x.desc = true then fr * al else 0) +
    (if r.level = 2 then t * 2048 + t * 16 else 0)

/-- R273: the tests whose failure is a refusal with TOO_LARGE. -/
def Fyster.tooLarge (f : Fyster) (g : Nat) (x : Grp) (r : Role) : Bool :=
  let s := slotBytes (dMetrics x.desc)
  let n := dMetrics x.desc
  if samplingOnly x.period then false
  else if r.level = 0 then
    !r.standby &&
      decide (150000000 < f.rd (0x3410 + g) 3 * 1000000 + 2000000 + 2500 * 32 * x.valuesPerDie + 7000000 + 20 * s)
  else
    decide ((if r.level = 1 then 250000000 else 400000000) < x.childCount r * n * 15625 + 7000000 + 20 * s) ||
      decide (roleSize r.level < x.layoutEnd r)

/-- R273: WAIT_REASON of a role that is not admitted yet; 0 if every test passes. `f` does not count the role. -/
def Fyster.waitReason (f : Fyster) (x : Grp) (r : Role) : Nat :=
  let n := dMetrics x.desc
  let m := (f.members x).length
  let reduced := !samplingOnly x.period
  let l1 := r.level == 0 && !r.standby
  let share := f.rd 0x3600 (4 + r.level) * f.rd 0x3600 3
  if l1 && decide (65536 < f.ctxUsed + m * x.ctxPerDie) then 3
  else if reduced && decide (4096 < f.metricSlots + n) then 4
  else if reduced && !((f.demandAt r.level).add (x.demand r)).le share 100 then 5 + r.level
  else if l1 && !(f.ctxRate.add { num := m * x.valuesPerDie, den := max x.period 1 }).le 3 10 then 8
  else if reduced && r.level != 0 && !(f.mergeRate.add { num := x.childCount r * n, den := max x.period 1 }).le 6 100 then 9
  else 0

/-! ### The arm inbox (R275, R279) -/

/-- Fields of an arm message (R275). `role`: level 1 to 3. -/
structure ArmMsg where
  kind    : Nat
  code    : Nat
  seq     : Nat
  group   : Nat
  serial  : Nat
  role    : Nat
  standby : Bool
  fromStandby : Bool
  index   : Nat
  addr    : Nat
  len     : Nat
  crc     : Nat
  sect    : Nat
  armed   : Nat
  unarmed : Nat
  traysUnarmed : Nat
  traysPartial : Nat
deriving DecidableEq, Repr

/-- Bytes 0 to 51. -/
def ArmMsg.front (m : ArmMsg) : List Byte :=
  leBytes 52 (packNat [(m.kind, 8), (m.code, 8), (m.seq, 16), (m.group, 32), (m.serial, 32), (m.role, 2), (0, 5), (b2n m.standby, 1),
    (b2n m.fromStandby, 1), (0, 7), (m.index, 16), (m.addr, 64), (m.len, 32), (m.crc, 32), (m.sect, 32), (m.armed, 32),
    (m.unarmed, 32), (min m.traysUnarmed 65535, 16), (min m.traysPartial 65535, 16)])

/-- The 64 bytes of a message written at `ts`. -/
def ArmMsg.bytes (m : ArmMsg) (ts : Nat) : List Byte :=
  m.front ++ leBytes 4 (crc32c (m.front ++ leBytes 8 ts)) ++ leBytes 8 ts

/-- The message in 64 bytes. -/
def armMsg (bs : List Byte) : ArmMsg :=
  { kind := fieldAt bs 0 1, code := fieldAt bs 1 1, seq := fieldAt bs 2 2, group := fieldAt bs 4 4, serial := fieldAt bs 8 4,
    role := fieldAt bs 12 1 % 4, standby := bitOf (fieldAt bs 12 1) 7, fromStandby := bitOf (fieldAt bs 13 1) 0,
    index := fieldAt bs 14 2, addr := fieldAt bs 16 8, len := fieldAt bs 24 4, crc := fieldAt bs 28 4, sect := fieldAt bs 32 4,
    armed := fieldAt bs 36 4, unarmed := fieldAt bs 40 4, traysUnarmed := fieldAt bs 44 2, traysPartial := fieldAt bs 46 2 }

/-- R275: a receiver accepts only messages whose MSG_CRC checks. -/
def armGood (bs : List Byte) : Bool :=
  bs.length == 64 && fieldAt bs 52 4 == crc32c (slice bs 0 52 ++ slice bs 56 8)

/-- A message with nothing but its kind and descriptor. -/
def armBlank (kind group serial role : Nat) (standby : Bool) (index : Nat) : ArmMsg where
  kind := kind
  code := 0
  seq := 0
  group := group
  serial := serial
  role := role
  standby := standby
  fromStandby := false
  index := index
  addr := 0
  len := 0
  crc := 0
  sect := 0
  armed := 0
  unarmed := 0
  traysUnarmed := 0
  traysPartial := 0

/-- The key of a child among the arm children of a role: holder 2i, standby 2i + 1; the root's own standby comes last. -/
def armChildKey (index : Nat) (standby : Bool) : Nat := 2 * index + b2n standby

/-- The key of the root's own standby. -/
def rootStandbyKey : Nat := 1000000

/-- The parent role (level 0 to 2) and child key that a NOTICE, ACK or DONE concerns. -/
def ArmMsg.child (m : ArmMsg) : Nat × Nat :=
  if m.role = 3 then (2, rootStandbyKey) else (m.role, armChildKey m.index m.standby)

/-- A child of an arm that has not been notified. -/
def armChild0 : ArmChild :=
  { state := 6, sentAt := 0, resent := false, armed := 0, unarmed := 0, traysUnarmed := 0, traysPartial := 0 }

/-- Fyster with one arm child of a role that holds, of the group under key `k`, changed. -/
def Fyster.modChild (f : Fyster) (k level key : Nat) (h : ArmChild → ArmChild) : Fyster :=
  match f.grp k with
  | none => f
  | some x =>
    let kids (r : Role) : Tab ArmChild := match tfind r.children key with
      | some c => tset r.children key (h c)
      | none => r.children
    let change (r : Role) : Role := { r with children := kids r }
    f.setGrp k { x with roles := modFirst (fun r => r.level == level && r.holder) change x.roles }

/-- R275: a message leaves: SEQ, MSG_CRC and WRITE_TS64 are filled in, and one of the four entries is written. -/
def Fyster.armSend (f : Fyster) (tray base : Nat) (m : ArmMsg) : Fyster :=
  let n := tget f.red.armSeq tray 0
  let bs := ({ m with seq := n % 65536 } : ArmMsg).bytes f.ts
  let f := { f with red := { f.red with armSeq := tset f.red.armSeq tray (n + 1), armSent := f.red.armSent ++ [f.ns] } }
  let ofs := (4 * f.tray + n % 4) * 64
  let f := if tray = f.tray then f.putLedger ofs bs else f
  let f := f.emit (.fabric tray 0 (base + ofs) bs)
  let f := if m.kind = 1 then f.bump 0x3140 6 1 else if m.kind = 4 then f.bump 0x3140 8 1 else f
  if m.kind = 1 ∧ m.fromStandby = false then
    match f.armKey m.group with
    | some k => f.modChild k m.child.1 m.child.2 fun c => { c with sentAt := f.ns, state := if c.state = 6 then 5 else c.state }
    | none => f
  else f

/-- The waiting message that goes next: the first of the group that follows the last served one in turn (R279). -/
def Fyster.armNext (f : Fyster) : Option (Nat × Nat × List Byte) :=
  let key (w : Nat × Nat × List Byte) : Nat := ((f.armKey (armMsg w.2.2).group).getD 0 + 128 - f.red.armTurn % 128 - 1) % 128
  f.red.armWait.foldl (fun best w => match best with
    | none => some w
    | some b => if key w < key b then some w else best) none

/-- R279: waiting messages leave while the rate allows. -/
def Fyster.armPumpN : Nat → Fyster → Fyster
  | 0, f => f
  | n + 1, f =>
    let recent := f.red.armSent.filter fun t => decide (f.ns < t + 100000)
    let f := { f with red := { f.red with armSent := recent } }
    if f.rd 0x3140 4 ≤ recent.length then f
    else
      match f.armNext with
      | none => f
      | some w =>
        let m := armMsg w.2.2
        let f := { f with red := { f.red with
          armWait := f.red.armWait.erase w, armTurn := (f.armKey m.group).getD 0 } }
        Fyster.armPumpN n (f.armSend w.1 w.2.1 m)

/-- R279: waiting messages leave while the rate allows. -/
def Fyster.armPump (f : Fyster) : Fyster := f.armPumpN f.red.armWait.length

/-- A message is to go to the inbox of a tray. -/
def Fyster.armPost (f : Fyster) (tray base : Nat) (m : ArmMsg) : Fyster :=
  { f with red := { f.red with armWait := f.red.armWait ++ [(tray, base, m.bytes 0)] } }.armPump

/-! ### The broadcast (R276) -/

/-- The descriptor that a group follows next: a pending change, else the one in force. -/
def Grp.latest (x : Grp) : List Byte := x.next.getD x.desc

/-- The descriptor copy of a role in the ledger (R262, R276): common part, metric table and its section; the root's whole. -/
def roleCopy (d : List Byte) (r : Role) : List Byte :=
  if r.level = 2 ∨ dKind d ≠ 1 then d
  else
    let o := sectionOfs d r.section_ (dSectionsAt d)
    slice d 0 (dSectionsAt d) ++ slice d o (32 + 32 * fieldAt d (o + 24) 2)

/-- Global address of the descriptor copy that children of a role read. -/
def Fyster.copyAddr (f : Fyster) (g level : Nat) : Nat := f.rd 0x3600 1 + roleArea g level + 64

/-- Fyster with its descriptor copy for a role written into the area. -/
def Fyster.putCopy (f : Fyster) (g : Nat) (d : List Byte) (r : Role) : Fyster :=
  f.putLedger (roleArea g r.level + 64) (if r.level = 0 then roleCopy d r else d)

/-- The NOTICE to a child: role level 1 to 3 asked of it. -/
def Fyster.noticeMsg (f : Fyster) (g level : Nat) (d : List Byte) (role index sect : Nat) (standby : Bool) : ArmMsg :=
  { armBlank 1 (dGroup d) (dSerial d) role standby index with
    addr := f.copyAddr g level, len := d.length, crc := crc32c d,
    sect := if dKind d = 1 then sectionOfs d sect (dSectionsAt d) else 0 }

/-- Tray and base of the children of a role under descriptor `d`, each with its key, index and section. -/
def armTargets (d : List Byte) (r : Role) : List (Nat × (Nat × Nat) × Nat × Nat × Bool) :=
  if r.level = 2 then
    (rootStandbyKey, (dRoot d true, dRootBase d true), 0, 0, true) ::
      ((dSections d).zipIdx.flatMap fun (s : Section × Nat) =>
        [(armChildKey s.2 false, (s.1.tray, s.1.base), s.2, s.2, false), (armChildKey s.2 true, (s.1.sb, s.1.sbBase), s.2, s.2, true)])
  else if r.level = 1 then
    match (dSections d)[r.section_]? with
    | some s =>
      s.trays.zipIdx.flatMap fun (e : TrayEntry × Nat) =>
        [(armChildKey e.2 false, (e.1.tray, e.1.base), e.2, r.section_, false),
         (armChildKey e.2 true, (e.1.sb, e.1.sbBase), e.2, r.section_, true)]
    | none => []
  else []

/-- NOTICE to one child of a role; the root's own standby is asked for the L3 role. -/
def Fyster.notifyChild (f : Fyster) (g : Nat) (d : List Byte) (r : Role) (t : Nat × (Nat × Nat) × Nat × Nat × Bool) : Fyster :=
  let role := if t.1 = rootStandbyKey then 3 else r.level
  f.armPost t.2.1.1 t.2.1.2 (f.noticeMsg g r.level d role t.2.2.1 t.2.2.2.1 t.2.2.2.2)

/-- The 40 bytes of TU_GROUP_ARM (R280). -/
def tuArmBytes (d : List Byte) (kind : Nat) : List Byte :=
  leBytes 12 (packNat [(dGroup d, 32), (dSerial d, 32), (kind, 8)]) ++ slice d 16 12 ++ slice d 28 16

/-- R276: an L1 arms, or takes out, the TU on port `p`. -/
def Fyster.armTu (f : Fyster) (g p : Nat) (d : List Byte) (kind : Nat) : Fyster :=
  if (f.link p).st = .up then
    f.relay p (.arm g (dSerial d)) (dictWriteMsg 1 (0x2C00 + dSlot d) 1 12 (tuArmBytes d kind))
  else f

/-- Member ports under a descriptor. -/
def Fyster.portsOf (f : Fyster) (d : List Byte) : List Nat :=
  match findTray (dSections d) f.tray with
  | some e => (List.range 32).filter fun p => bitOf e.2.2.mask p
  | none => []

/-- R276, R281: a role that this Fyster holds notifies its children of descriptor `d`; `old`: the descriptor before it. -/
def Fyster.broadcast (f : Fyster) (k : Nat) (d old : List Byte) (r : Role) : Fyster :=
  let g := k % 64
  match f.grp k with
  | none => f
  | some x =>
    if r.level = 0 then
      let ps := if dKind d = 1 then f.portsOf d else f.portsOf old
      let gone := if dKind d = 1 then (f.portsOf old).filter fun p => !ps.contains p else []
      let kids : Tab ArmChild := ps.foldl (fun t p => tset t p { armChild0 with state := 5, sentAt := f.ns }) []
      let f := f.setGrp k (x.setRole { r with children := kids, doneSent := none })
      let f := ps.foldl (fun f p => f.armTu g p d (if dKind d = 1 then 1 else 2)) f
      gone.foldl (fun f p => f.armTu g p d 2) f
    else
      let base := if dKind d = 1 then d else old
      let ts := armTargets base r
      let was := if dKind d = 1 ∧ old.isEmpty = false then armTargets old r else []
      let lost := was.filter fun w => !ts.any fun t => t.2.1.1 == w.2.1.1 && t.2.2.2.2 == w.2.2.2.2
      let kids : Tab ArmChild := ts.foldl (fun t c => tset t c.1 armChild0) []
      let f := f.setGrp k (x.setRole { r with children := kids, doneSent := none })
      let f := ts.foldl (fun f t => f.notifyChild g d r t) f
      lost.foldl (fun f t => f.notifyChild g d r t) f

/-! ### Answers upward (R276, R277) -/

/-- R283: a role follows the down sub-slot of its parent's standby when that one carries the higher ROLE_EPOCH. -/
def Fyster.followsStandby (f : Fyster) (g level : Nat) : Bool :=
  let epoch (k : Nat) : Nat := fieldAt (f.ledger (roleArea g level + downOfs level k + 32) 2) 0 2
  decide (epoch 0 < epoch 1)

/-- Tray and LEDGER_BASE of the Fyster that a role answers to under descriptor `d`; the root's standby answers to the root. -/
def armParent (d : List Byte) (r : Role) (standby : Bool) : Option (Nat × Nat) :=
  if r.level = 0 then ((dSections d)[r.section_]?).map fun s => if standby then (s.sb, s.sbBase) else (s.tray, s.base)
  else if r.level = 1 then some (dRoot d standby, dRootBase d standby)
  else some (dRoot d false, dRootBase d false)

/-- Where a role's answers go: the holder of the parent role that it follows. -/
def Fyster.answerUp (f : Fyster) (g : Nat) (x : Grp) (r : Role) (m : ArmMsg) : Fyster :=
  match armParent x.desc r (f.followsStandby g r.level) with
  | some t => f.armPost t.1 t.2 m
  | none => f

/-- A child has given its last answer for now. -/
def ArmChild.final (c : ArmChild) : Bool := c.state == 0 || c.state == 1 || c.state == 2 || c.state == 4 || c.state == 8

/-- Member dies below child index `i` of a role. -/
def Grp.diesBelow (x : Grp) (r : Role) (i : Nat) : Nat :=
  let n (e : TrayEntry) : Nat := popCount 32 e.mask
  if r.level = 2 then ((x.section_ i).map fun s => sumBy n s.trays).getD 0
  else ((x.section_ r.section_).bind fun s => s.trays[i]?).elim 0 n

/-- Trays below child index `i` of a role. -/
def Grp.traysUnder (x : Grp) (r : Role) (i : Nat) : Nat :=
  if r.level = 2 then ((x.section_ i).map (·.trays.length)).getD 0 else 1

/-- R277: totals of a role: dies armed and unarmed, trays unarmed and partial. -/
def Grp.armTotals (x : Grp) (r : Role) : Nat × Nat × Nat × Nat :=
  if r.level = 0 then
    let a := (r.children.filter fun c => c.2.state == 1).length
    if r.admitted then (a, r.children.length - a, 0, 0) else (0, r.children.length, 0, 0)
  else
    let holders := r.children.filter fun c => c.1 % 2 == 0 && c.1 != rootStandbyKey
    let t := holders.foldl (fun (t : Nat × Nat × Nat × Nat) c =>
      let i := c.1 / 2
      if c.2.state = 1 ∨ c.2.state = 2 then
        (t.1 + c.2.armed, t.2.1 + c.2.unarmed, t.2.2.1 + c.2.traysUnarmed,
          t.2.2.2 + c.2.traysPartial + (if r.level = 1 ∧ c.2.state = 2 then 1 else 0))
      else (t.1, t.2.1 + x.diesBelow r i, t.2.2.1 + x.traysUnder r i, t.2.2.2)) (0, 0, 0, 0)
    if r.admitted ∨ samplingOnly x.period = true then t else (0, t.1 + t.2.1, t.2.2.1, t.2.2.2)

/-- Offset of the frames, carries, late buckets, carry total, summaries, taint list and arm status in an L2 or L3 area (R262). -/
def Grp.ofs (x : Grp) (r : Role) (part : Nat) : Nat :=
  let al := slotAl (dMetrics x.desc)
  let fr := frames x.period
  let c := x.childCount r
  let carry := 1048576 + fr * c * 2 * al
  let late := carry + c * 2 * al
  let total := late + fr * al
  let sums := total + al
  let taint := sums + (if r.level = 2 ∨ dRelayed x.desc = true then fr * al else 0)
  match part with
  | 0 => 1048576
  | 1 => carry
  | 2 => late
  | 3 => total
  | 4 => sums
  | 5 => taint
  | _ => taint + dTrays x.desc * 2048

/-- The first tray of section `i`, counted across sections (R262). -/
def firstTray (secs : List Section) (i : Nat) : Nat := sumBy (·.trays.length) (secs.take i)

/-- Arm-status entries that a section's answer settles (R276): all its trays armed, or none; otherwise the entries are not
stated and are free. -/
def Fyster.putArmStatus (f : Fyster) (g : Nat) (x : Grp) (r : Role) (i : Nat) (c : ArmChild) : Fyster :=
  match x.section_ i with
  | none => f
  | some s =>
    s.trays.zipIdx.foldl (fun f (e : TrayEntry × Nat) =>
      let n := popCount 32 e.1.mask
      let o := roleArea g 2 + x.ofs r 6 + 16 * (firstTray (dSections x.desc) i + e.2)
      let entry (st armed unarmed : Nat) : List Byte :=
        leBytes 16 (packNat [(st, 8), (0, 24), (x.serial, 32), (armed, 32), (unarmed, 32)])
      if c.state = 1 ∧ c.traysUnarmed = 0 ∧ c.traysPartial = 0 ∧ c.unarmed = 0 then f.putLedger o (entry 1 n 0)
      else if c.state = 0 ∨ c.state = 4 ∨ c.state = 8 then f.putLedger o (entry 0 0 n)
      else if c.state = 3 then f.putLedger o (entry 3 0 n)
      else
        let a := f.free
        let b := a.1.free
        b.1.putLedger o (wordBytes a.2 ++ wordBytes b.2)) f

/-- R277: ARM_RESULT. -/
def armResult (t : Nat × Nat × Nat × Nat) (trays : Nat) : List Byte :=
  leBytes 4 t.1 ++ leBytes 4 t.2.1 ++ leBytes 2 (trays - t.2.2.1 - t.2.2.2) ++ leBytes 2 t.2.2.2 ++ leBytes 2 t.2.2.1 ++ leBytes 2 0

/-- R277: a role sends DONE, or the root writes ARM_RESULT, once every child is done or UNARMED and the node is admitted or has
reported PARTIAL; nothing is repeated with unchanged totals. -/
def Fyster.armSettle (f : Fyster) (k : Nat) (r : Role) : Fyster :=
  match f.grp k with
  | none => f
  | some x =>
    let t := x.armTotals r
    let sum := (t.1 * 2 + b2n (x.state == 4), t.2.1 * 65536 * 65536 + t.2.2.1 * 65536 + t.2.2.2)
    if !(r.children.all fun c => c.2.final) || x.state == 2 || r.doneSent == some sum then f
    else
      let f := f.setGrp k (x.setRole { r with doneSent := some sum })
      if r.level = 2 ∧ r.holder = true then
        let f := { f with part := f.part.wrDom (0x3100 + k % 64) 7 (armResult t (dTrays x.desc)) }
        (List.range (dSections x.desc).length).foldl (fun f i =>
          f.putArmStatus (k % 64) x r i (tget r.children (armChildKey i false) armChild0)) f
      else
        f.answerUp (k % 64) x r { armBlank 3 x.id (dSerial x.latest) (r.level + 1) r.standby r.index with
          code := b2n (x.state == 4), armed := t.1, unarmed := t.2.1, traysUnarmed := t.2.2.1, traysPartial := t.2.2.2 }

/-- Every role of a group settles. -/
def Fyster.armSettleAll (f : Fyster) (k : Nat) : Fyster :=
  match f.grp k with
  | some x => x.roles.foldl (fun f r =>
      match (f.grp k).bind fun y => y.roles.find? fun q => q.level == r.level && q.standby == r.standby && q.index == r.index with
      | some r => f.armSettle k r
      | none => f) f
  | none => f

/-! ### Admission of a group (R277) -/

/-- R273, R277: every role of the group that is not admitted is tested; answers the group's first WAIT_REASON. -/
def Fyster.admitRole (f : Fyster) (k : Nat) : Fyster × Nat :=
  match f.grp k with
  | none => (f, 0)
  | some x =>
    if 64 ≤ k then (f, 1)
    else
      let step (a : Fyster × Nat) (r : Role) : Fyster × Nat :=
        match a.1.grp k with
        | none => a
        | some y =>
          if r.admitted then a
          else
            let w := a.1.waitReason y r
            if w = 0 then (a.1.setGrp k (y.setRole { r with admitted := true }), a.2) else (a.1, if a.2 = 0 then w else a.2)
      let a := x.roles.foldl step (f, 0)
      let busy := x.roles.any fun r => r.level == 0 && r.holder && r.children.any fun c => c.2.state == 3
      (a.1, if a.2 = 0 ∧ busy = true then 2 else a.2)

/-- R277: the state of the group follows from the test of admission. -/
def Fyster.admitted (f : Fyster) (k : Nat) : Fyster :=
  let a := f.admitRole k
  match a.1.grp k with
  | none => a.1
  | some x =>
    if x.state = 5 then a.1
    else if a.2 = 0 then
      let st := if x.state = 3 then 3 else if x.eff ≤ f.ns ∧ (f.part.order? .membership x.id).isNone = true then 3 else 1
      a.1.setGrp k { x with state := st, wait := 0, partialSent := false }
    else
      let st := if x.state = 3 ∨ x.state = 4 then x.state else 2
      a.1.setGrp k { x with state := st, wait := a.2, waitSince := if x.state = 2 then x.waitSince else f.ns }

end Sys2Proof.Machine
end

