-- ==== Sys2Proof/Machine/PwrOps.lean ====
section
/-! DEFINITION. A power requester (R208 to R210, R388, R424), in the form that a TU and Fyster share. -/

namespace Sys2Proof.Machine

/-- A requester after reset (R213). -/
def PwrReq.zero : PwrReq :=
  { st := .idle, units := 0, n := 0, backoffUs := 0, seq := 0, wanted := false, outstanding := false, since := 0,
    releaseDue := none }

/-- What a requester operation gives: the requester, the messages that leave (1 REQUEST, 2 RELEASE) and the counts of
PWR_COUNTS that rise (3 requests, 4 grants, 5 refusals, 6 timeouts, 7 revocations). -/
structure PwrOut where
  r      : PwrReq
  sends  : List Nat
  counts : List Nat
deriving DecidableEq, Repr

/-- Nothing goes out. -/
def PwrReq.quiet (r : PwrReq) : PwrOut := { r := r, sends := [], counts := [] }

/-- A request leaves. -/
def PwrReq.send (r : PwrReq) (now : Nat) : PwrOut :=
  { r := { r with st := .pending, outstanding := true, since := now, seq := (r.seq + 1) % 256 }, sends := [1],
    counts := [3] }

/-- R208, R209: the operation asks for power. A withdrawn request that is still outstanding stands for it. -/
def PwrReq.ask (r : PwrReq) (units now : Nat) : PwrOut :=
  if r.wanted then r.quiet
  else
    let r := { r with wanted := true, units := units }
    if r.outstanding then { r with st := .pending }.quiet else r.send now

/-- R209: the operation no longer wants power; a grant held is returned. -/
def PwrReq.withdraw (r : PwrReq) (now : Nat) : PwrOut :=
  let r' := { r with wanted := false, st := .idle, n := 0, backoffUs := 0 }
  if r.st = .granted then { r := { r' with releaseDue := some now }, sends := [2], counts := [] } else r'.quiet

/-- R209: one more refusal in a row. -/
def PwrReq.backoff (r : PwrReq) (now : Nat) : PwrReq :=
  let n := r.n + 1
  { r with st := .backoff, n := n, backoffUs := min (100 * 2 ^ (min (n - 1) 10)) 100000, since := now }

/-- R208, R209, R437: GRANT. -/
def PwrReq.grant (r : PwrReq) (now : Nat) : PwrOut :=
  if !r.outstanding then { r := { r with releaseDue := some now }, sends := [2], counts := [] }
  else if r.wanted then { r := { r with st := .granted, outstanding := false, n := 0, backoffUs := 0 }, sends := [], counts := [4] }
  else { r := { r with outstanding := false, releaseDue := some now }, sends := [2], counts := [] }

/-- R209, R437: REFUSE. -/
def PwrReq.refuse (r : PwrReq) (now : Nat) : PwrOut :=
  if r.outstanding && r.wanted && decide (r.st = .pending) then
    { r := ({ r with outstanding := false }.backoff now), sends := [], counts := [5] }
  else { r with outstanding := false }.quiet

/-- R210: REVOKE of a grant held; anything else is discarded (R437). -/
def PwrReq.revoke (r : PwrReq) (now : Nat) : PwrOut :=
  if r.st = .granted then { r := r.backoff now, sends := [], counts := [7] } else r.quiet

/-- R208: no answer within `us`. -/
def PwrReq.timeout (r : PwrReq) (us now : Nat) : PwrOut :=
  if r.st = .pending ∧ r.outstanding = true ∧ r.since + us * 65536000 ≤ now then
    { r := r.backoff now, sends := [], counts := [6] }
  else r.quiet

/-- R209: the backoff has passed and the request is repeated. -/
def PwrReq.retry (r : PwrReq) (now : Nat) : PwrOut :=
  if r.st = .backoff ∧ r.wanted = true ∧ r.since + r.backoffUs * 65536000 ≤ now then r.send now else r.quiet

/-- PWR_STATE (R214). -/
def PwrReq.code (r : PwrReq) : Nat :=
  match r.st with
  | .idle => 0
  | .pending => 1
  | .granted => 2
  | .backoff => 3

/-- A requester of a part. -/
def Part.pwrReq (p : Part) (id : Nat) : PwrReq := tget p.pwr id .zero

/-- The TU with the outcome of a requester operation: messages on TU_PWR_REQ, counts in 0x2B00 + id. -/
def Tu.pwr (t : Tu) (id : Nat) (o : PwrOut) : Tu :=
  let t := { t with part := { t.part with pwr := tset t.part.pwr id o.r } }
  let t := o.sends.foldl (fun t op => t.emit (.power op id o.r.units 0)) t
  o.counts.foldl (fun t c => t.bump (0x2B00 + id) c 1) t

/-- Units that SELF_GRANT holds granted (R389). -/
def Part.pwrHeld (p : Part) : Nat := sumBy (fun e => if e.2.st = .granted then e.2.units else 0) p.pwr

/-- Fyster with the outcome of a requester operation: messages on PWR_REQ, counts in 0x7800 + id. Under SELF_GRANT it
answers its own request at once and sends nothing (R389). -/
def Fyster.pwr (f : Fyster) (id : Nat) (o : PwrOut) : Fyster :=
  let self := f.rd 0x7880 2 == 1
  let now := f.part.time.now
  let f := { f with part := { f.part with pwr := tset f.part.pwr id o.r } }
  let f := o.counts.foldl (fun f c => f.bump (0x7800 + id) c 1) f
  if self then
    if o.sends.contains 1 then
      let fits := decide (f.part.pwrHeld + o.r.units ≤ f.rd 0x7880 3) && !f.boot.pfail
      let a := if fits then o.r.grant now else o.r.refuse now
      let f := { f with part := { f.part with pwr := tset f.part.pwr id a.r } }
      a.counts.foldl (fun f c => f.bump (0x7800 + id) c 1) f
    else f
  else o.sends.foldl (fun f op => f.emit (.power op id o.r.units o.r.seq)) f

/-- A requester of Fyster holds its grant. -/
def Fyster.granted (f : Fyster) (id : Nat) : Bool := (f.part.pwrReq id).st == .granted

end Sys2Proof.Machine
end

