-- ==== Sys2Proof/Machine/ChanOps.lean ====
section
/-! DEFINITION. Mailbox channels (R368 to R375) in the form that Fyster and a TU share: enqueue, wake and status. -/

namespace Sys2Proof.Machine

/-- A channel after reset. -/
def Channel.zero (out : Bool) : Channel :=
  { out := out, queue := [], mseq := 0, idleIntent := false, wake := false, ackCode := 0, ackMseq := 0, ackSender := 0,
    reply := List.replicate 64 0, ackIrq := false, gather := none, copy := none }

/-- Default direction (R368). -/
def chanDefault (fyster : Bool) (c : Nat) : Channel := .zero (if fyster then decide (32 ≤ c) else c == 1)

/-- R374: the WAKE level that a channel shows; `down`: the receiver's domain is reported down. -/
def Channel.wakeLevel (x : Channel) (down : Bool) : Bool := !x.queue.isEmpty && (x.idleIntent || (x.out && down))

/-- R371: CH_STATUS. -/
def Channel.status (x : Channel) : Nat :=
  packNat [(x.queue.length, 5), (b2n (decide (16 ≤ x.queue.length)), 1), (b2n x.out, 1), (b2n x.idleIntent, 1), (b2n x.wake, 1),
    (0, 7), ((x.queue.head?.map (·.mseq)).getD 0, 16)]

/-- A channel of a part. -/
def Part.chan (p : Part) (fyster : Bool) (c : Nat) : Channel := tget p.chans c (chanDefault fyster c)

/-- The part with a channel replaced; a rise of WAKE counts in WAKES (R374, R385). -/
def Part.putChan (p : Part) (c : Nat) (x : Channel) (down : Bool) : Part :=
  let w := x.wakeLevel down
  let p := { p with chans := tset p.chans c { x with wake := w } }
  if w && !x.wake then p.bump (0x6110 + c) 6 1 else p

/-- R369, R370: enqueue a message; none when the queue is full. -/
def Channel.put (x : Channel) (body : List Byte) (stamp : BitVec 32) : Option Channel :=
  if 16 ≤ x.queue.length then none
  else some { x with queue := x.queue ++ [{ body := body, stamp := stamp, mseq := x.mseq }], mseq := (x.mseq + 1) % 65536 }

/-- The domain of die firmware's core is reported down (R437). -/
def Tu.fwDown (t : Tu) : Bool := t.dpcDown.contains 73

/-- A channel of a TU. -/
def Tu.chan (t : Tu) (c : Nat) : Channel := t.part.chan false c

/-- The TU with a channel replaced. -/
def Tu.putChan (t : Tu) (c : Nat) (x : Channel) : Tu := { t with part := t.part.putChan c x t.fwDown }

/-- R369: a message reaches a channel of a TU, or finds it full; answers whether it was enqueued. -/
def Tu.enqueueMsg (t : Tu) (c : Nat) (body : List Byte) (stamp : BitVec 32) : Tu × Bool :=
  match (t.chan c).put body stamp with
  | some x => ((t.putChan c x).bump (0x6110 + c) 3 1, true)
  | none => ((t.bump (0x6110 + c) 4 1).log (event 0x0004 224 c (t.chan c).mseq), false)

/-- A message of the TU itself (PORT 0x05, R370), padded to 64 bytes. -/
def Tu.sendMsg (t : Tu) (c : Nat) (body : List Byte) : Tu × Bool :=
  t.enqueueMsg c (slice (body ++ List.replicate 64 0) 0 64) 0x05

/-- R374: the WAKE levels of all channels follow the domain report. -/
def Tu.rewake (t : Tu) : Tu := (List.range 8).foldl (fun t c => t.putChan c (t.chan c)) t

/-- A channel of Fyster. -/
def Fyster.chan (f : Fyster) (c : Nat) : Channel := f.part.chan true c

/-- Fyster with a channel replaced. -/
def Fyster.putChan (f : Fyster) (c : Nat) (x : Channel) : Fyster := { f with part := f.part.putChan c x false }

/-- R369: a message reaches a channel of Fyster, or finds it full. -/
def Fyster.enqueueMsg (f : Fyster) (c : Nat) (body : List Byte) (stamp : BitVec 32) : Fyster × Bool :=
  match (f.chan c).put body stamp with
  | some x => ((f.putChan c x).bump (0x6110 + c) 3 1, true)
  | none => ((f.bump (0x6110 + c) 4 1).log (event 0x0004 512 c (f.chan c).mseq), false)

end Sys2Proof.Machine
end

