-- ==== Sys2Proof/Machine/SumacOps.lean ====
section
/-! DEFINITION. Sumac: the LZW block format (R223 to R226) and the TU's intake (R197, R228, R449). -/

namespace Sys2Proof.Machine

/-! ### The compressor (R223 to R225) -/

/-- Width of code i (R224). -/
def codeWidth (i : Nat) : Nat := min 16 (max 9 (Nat.log2 (257 + i) + 1))

/-- The compressor between input bytes: dictionary by prefix code × 256 + byte, entries defined, codes written newest
first, the present string's code. -/
structure Lzw where
  dict : Tab Nat
  next : Nat
  codes : List Nat
  cur  : Nat
deriving DecidableEq, Repr

/-- One further input byte (R225). A block ends long before a window of 4,096 bytes has passed with a full dictionary, so
window_poor is never true and no RESET is written. -/
def Lzw.step (z : Lzw) (b : Byte) : Lzw :=
  let k := z.cur * 256 + b.toNat
  match tfind z.dict k with
  | some c => { z with cur := c }
  | none =>
    { dict := if z.next ≤ 65535 then tset z.dict k z.next else z.dict
      next := if z.next ≤ 65535 then z.next + 1 else z.next
      codes := z.cur :: z.codes
      cur := b.toNat }

/-- The codes of an input (R225), END included. -/
def lzwCodes : List Byte → List Nat
  | [] => [257]
  | b :: r =>
    let z := r.foldl Lzw.step { dict := [], next := 258, codes := [], cur := b.toNat }
    (257 :: z.cur :: z.codes).reverse

/-- The body of an LZW block: codes packed least significant bit first, padded to a whole byte. -/
def lzwBody (input : List Byte) : List Byte :=
  let cs := (lzwCodes input).zipIdx.map fun ci => (ci.1, codeWidth ci.2)
  leBytes (ceilDiv (sumBy (·.2) cs) 8) (packNat cs)

/-- A block without its trailer (R223): BKIND and body. -/
def sumacHead (kind bseq : Nat) (input body : List Byte) : List Byte :=
  let pad := (8 - (16 + body.length) % 8) % 8
  let len8 := (16 + body.length + pad) / 8
  leBytes 12 (packNat [(kind, 8), (0, 8), (len8, 16), (input.length, 32), (bseq, 32)]) ++ body ++ List.replicate pad 0

/-- A whole block with its CRC-32C trailer (R223, R225): `plain`: STORED only; `fallback`: the self-check failed (R227). -/
def sumacBlock (plain fallback : Bool) (bseq : Nat) (input : List Byte) : List Byte :=
  let z := lzwBody input
  let h := if plain then sumacHead 2 bseq input input
    else if input.length < z.length then sumacHead 2 bseq input input
    else if fallback then sumacHead 3 bseq input input
    else sumacHead 1 bseq input z
  h ++ leBytes 4 (crc32c h)

/-- BKIND of a block. -/
def blockKind (block : List Byte) : Nat := fieldAt block 0 1

/-- Fragments of at most 4,096 bytes with FIRST and LAST (R228). -/
def fragments (block : List Byte) : List (List Word × Bool × Bool) :=
  let n := ceilDiv block.length 4096
  (List.range n).map fun i => (allWords (slice block (4096 * i) 4096), i == 0, i + 1 == n)

/-! ### The TU's intake (R197, R228, R449) -/

/-- ULEN of the open block. -/
def SumacTu.ulen (z : SumacTu) : Nat := sumBy (fun q => q.r.bytes) z.block

/-- The open block is closed (R228). -/
def Tu.sumacClose (t : Tu) : Tu :=
  if t.sumac.block.isEmpty then t
  else { t with sumac := { t.sumac with closed := t.sumac.closed ++ [t.sumac.block], block := [] } }

/-- The record that Sumac takes next: readout chains before window records (R197). -/
def Tu.sumacNext (t : Tu) : Option Rec :=
  match t.exp.readout with
  | q :: _ => some q.r
  | [] => t.win.recs.head?.map (·.r)

/-- The next record leaves its queue: DRAIN_PTR advances (R147, R197). -/
def Tu.sumacPop (t : Tu) : Tu :=
  match t.exp.readout, t.win.recs with
  | _ :: r, _ => { t with exp := { t.exp with readout := r } }
  | [], w :: r => { t with win := { t.win with recs := r, drainPtr := w.pos + w.r.bytes } }
  | [], [] => t

/-- Sumac takes one record if EXPORT admits it (R192, R449) and there is a place: a block that is full waits until the
blocks before it have left (log 30). Answers whether it took one. -/
def Tu.sumacTake (t : Tu) : Tu × Bool :=
  match t.sumacNext with
  | none => (t, false)
  | some r =>
    let full := decide (65520 < t.sumac.ulen + r.bytes)
    if full && !(t.sumac.closed.isEmpty && t.sumac.frags.isEmpty) then (t, false)
    else
      let c := t.charge 6 (10000 + 250 * r.bytes) true
      if c.2 = 0 then
        let t := if full then c.1.sumacClose else c.1
        let t := t.sumacPop
        ({ t with sumac := { t.sumac with
            block := t.sumac.block ++ [{ r := r, act := 6 }]
            opened := if t.sumac.block.isEmpty then t.part.time.now else t.sumac.opened } }, true)
      else (c.1, false)

/-- Sumac takes records while it can. -/
def Tu.sumacFeedN : Nat → Tu → Tu
  | 0, t => t
  | n + 1, t =>
    let x := t.sumacTake
    if x.2 then Tu.sumacFeedN n x.1 else x.1

/-- Sumac takes every record that its budget and space allow now. -/
def Tu.sumacFeed (t : Tu) : Tu := t.sumacFeedN (t.exp.readout.length + t.win.recs.length)

end Sys2Proof.Machine
end

