-- ==== Sys2Proof/Machine/EvrOps.lean ====
section
/-! DEFINITION. Flushing a TU's event recorder (R382). -/

namespace Sys2Proof.Machine

/-- Records in one FLUSH part (R379). -/
def flushPart : Nat := 62

/-- R382: a trigger of a flush; one that comes during a flush is counted and starts nothing. -/
def Tu.flush (t : Tu) (cause : Nat) : Tu :=
  let e := t.part.evr
  match e.flush with
  | some _ => t.bump 0x6000 9 1
  | none =>
    let n := ceilDiv e.log.length flushPart
    let fl : Flush := { cause := cause, at64 := t.ts, records := e.log, parts := (List.range n).map fun i => (i, 0) }
    let t := { t with part := { t.part with evr := { e with
      flush := if n = 0 then none else some fl, flushSerial := e.flushSerial + 1 } } }
    let t := if n = 0 then t.bump 0x6000 8 1 else t
    t.log (event 0x0002 224 cause (e.log.length))

/-- The TR_EVENT of one FLUSH part (R379). -/
def flushPay (fl : Flush) (serial part : Nat) : List Word :=
  let rs := (fl.records.drop (flushPart * part)).take flushPart
  payload 1 [(3, 8), (rs.length, 8), (part, 8), (ceilDiv fl.records.length flushPart, 8), (serial, 32)] ++
    rs.flatMap fun r => natWords 4 r.nat

/-- R382: one part is offered; one that is not admitted comes again after the last, three times at most. -/
def Tu.flushStep (t : Tu) : Tu :=
  match t.part.evr.flush with
  | none => t
  | some fl =>
    match fl.parts with
    | [] => t
    | (i, k) :: rest =>
      let r := { t.mkRec 0x0A selfStream 224 0xFF t.ns (flushPay fl t.part.evr.flushSerial i) with ts64 := fl.at64 }
      let x := t.offer 5 2 20000 [r]
      let rest := if !x.2 && k < 2 then rest ++ [(i, k + 1)] else rest
      let t := x.1
      let t := { t with part := { t.part with evr := { t.part.evr with
        flush := if rest.isEmpty then none else some { fl with parts := rest } } } }
      if rest.isEmpty then t.bump 0x6000 8 1 else t

end Sys2Proof.Machine
end

