-- ==== Sys2Proof/Machine/TraceOps.lean ====
section
/-! DEFINITION. The trace encoders (R139 to R149, R448), the trace window (R147) and the freeze of the last-events rings
(R154). -/

namespace Sys2Proof.Machine

/-- An encoder after reset: a SYNC with REASON ENABLE is due (R140, R448). -/
def Enc.zero (i : Nat) : Enc :=
  let m := if i = 72 then 2 else 1
  { mode := m, inForce := m, tsInt := 1000, addr := none, outcomes := [], ibase := 0, tbase := 0, due := some 2,
    sinceSync := 0, total := 0, cur := none, writing := 0, lost := none, down := none, ctx := none }

/-- An encoder. -/
def Tu.enc (t : Tu) (i : Nat) : Enc := tget t.encs i (.zero i)

/-- The TU with an encoder replaced. -/
def Tu.setEnc (t : Tu) (i : Nat) (e : Enc) : Tu := { t with encs := tset t.encs i e }

/-- An assembly buffer is at hand (R147). -/
def Enc.bufFree (e : Enc) : Bool := e.cur.isSome || decide (e.writing < 2)

/-- UNIT of a source (R146). -/
def srcUnit (i : Nat) : Nat := if i = 72 then 128 else i

/-! ### The window (R147) -/

/-- Filler that a record of `n` bytes needs at the tail of the window. -/
def Window.filler (w : Window) (n : Nat) : Nat :=
  let room := w.size - w.writePtr % w.size
  if room < n then room else 0

/-- A record of `n` bytes fits the window's free space. -/
def Window.fits (w : Window) (n : Nat) : Bool :=
  w.base != 0 && !w.error && decide (w.filler n + n ≤ w.size - (w.writePtr - w.drainPtr))

/-- Window offsets, 64-byte aligned, of the writes that `n` bytes at offset `ofs` take (R439). -/
def lines64 (ofs n : Nat) : List Nat := (List.range ((ofs + n - 1) / 64 - ofs / 64 + 1)).map fun k => 64 * (ofs / 64 + k)

/-- R439: the master port keeps at most 32 requests outstanding; the oldest waiting writes leave while there is room. -/
def Tu.nocIssue (t : Tu) : Tu :=
  let sent := (t.win.noc.filter fun x => x.sent.isSome).length
  let room := 32 - sent
  let go := ((t.win.noc.filter fun x => x.sent.isNone).take room)
  let n := sent + go.length
  let noc := t.win.noc.zipIdx.map fun xi => if xi.2 < n ∧ xi.1.sent.isNone = true then { xi.1 with sent := some t.part.time.now } else xi.1
  go.foldl (fun t x => t.emit (.nocWrite (t.win.base + x.ofs))) { t with win := { t.win with noc := noc } }

/-- R147: a closed record enters the window; its writes go to the NoC. -/
def Tu.windowPut (t : Tu) (i last : Nat) (r : Rec) : Tu :=
  let w := t.win
  let fill := w.filler r.bytes
  let pos := w.writePtr + fill
  let ofs := pos % w.size
  let head : List NocWr := if fill = 0 then [] else [({ src := i, ofs := w.writePtr % w.size / 64 * 64, sent := none, last := false } : NocWr)]
  let ls := lines64 ofs r.bytes
  let ws : List NocWr := ls.zipIdx.map fun oi => ({ src := i, ofs := oi.1, sent := none, last := oi.2 + 1 == ls.length } : NocWr)
  let t := { t with win := { w with
    writePtr := pos + r.bytes
    recs := w.recs ++ [({ pos := pos, src := i, last := last, r := r } : WinRec)]
    noc := w.noc ++ head ++ ws } }
  ((t.setEnc i { t.enc i with writing := (t.enc i).writing + 1 }).bump 0x2760 6 1).nocIssue.sumacFeed

/-! ### Loss (R147) -/

/-- Packets are lost: `bytes` bytes between `first` and `last`; a loss that waits for its OVERFLOW already takes them in
(log 31). Outcomes pending behind a loss are lost with it. -/
def Enc.lose (e : Enc) (cause bytes first last : Nat) : Enc :=
  { e with lost := some (match e.lost with
    | some l => { l with bytes := l.bytes + bytes, last := last }
    | none => { cause := cause, bytes := bytes, first := first, last := last }) }

/-! ### Records (R146, R147) -/

/-- The TR_TRACE record of an encoder's open record. -/
def Tu.traceRec (t : Tu) (i : Nat) (c : TrOpen) : Rec :=
  t.mkRec 0x05 (0x0400 + i) (srcUnit i) 0xFF c.first
    (payload 2 [(c.bytes.length, 16), (c.syncOfs, 16), (c.mode, 8), (0, 24), (c.ofs, 64)] ++ allWords c.bytes)

/-- R147: the open record of a source is closed and offered to TRACE. -/
def Tu.traceClose (t : Tu) (i : Nat) : Tu :=
  let e := t.enc i
  match e.cur with
  | none => t
  | some c =>
    let r := t.traceRec i c
    let t := t.setEnc i { e with cur := none }
    let x := t.charge 2 (30000 + 500 * r.len) (t.win.fits r.bytes)
    if x.2 = 0 then
      let y := x.1.admitAll [r]
      (y.2.foldl (fun t r => t.windowPut i c.last r) y.1).internal 0x342 1
    else
      let t := ((x.1.lose 2 x.2 [r]).internal 0x342 1).internal 0x34A 1
      let e := t.enc i
      let extra := if e.outcomes.isEmpty then 0 else 1
      (t.setEnc i ({ e with outcomes := [], total := e.total + extra }.lose (if x.2 = 1 then 2 else 3)
        (c.bytes.length + extra) (ts64Of c.first) (ts64Of c.last))).bump 0x2760 8 1

/-- Packet bytes go into the open record, or open one; `ts`: time of the packet's event in ns. -/
def Tu.traceRaw (t : Tu) (i ts : Nat) (sync : Bool) (bs : List Byte) : Tu :=
  if bs.isEmpty then t
  else
    let e := t.enc i
    let c := e.cur.getD { first := ts, last := ts, opened := t.ns, mode := e.inForce, ofs := e.total, syncOfs := 0xFFFF, bytes := [] }
    let c := { c with
      last := ts
      syncOfs := if sync && c.syncOfs == 0xFFFF then c.bytes.length else c.syncOfs
      bytes := c.bytes ++ bs }
    t.setEnc i { e with cur := some c, total := e.total + bs.length,
                        sinceSync := if sync then bs.length else e.sinceSync + bs.length }

/-- `n` more bytes fit the open record: at most 2,000 packet bytes (R146). -/
def Enc.fits (e : Enc) (n : Nat) : Bool :=
  match e.cur with
  | some c => decide (c.bytes.length + n ≤ 2000)
  | none => true

/-! ### Packets (R142 to R145) -/

/-- A zig-zag varint of a 64-bit difference (R144). -/
def zigzag (d : Int) : List Byte :=
  let x := ofInt 64 d
  varint 10 (if x < 2 ^ 63 then 2 * x else 2 * (2 ^ 64 - x) - 1)

/-- The current descriptor of a source: NODE, GRAPH_ID, GRAPH_VER, LAUNCH_SERIAL (R142). -/
def Tu.traceDesc (t : Tu) (i : Nat) : DescId :=
  match (t.unit i).cur with
  | some c => c.1
  | none => { graph := 0, ver := 0, node := 0, launch := 0 }

/-- The SYNC packet (R142). -/
def Tu.syncBytes (t : Tu) (i ts reason addr : Nat) : List Byte :=
  let d := t.traceDesc i
  leBytes 40 (packNat [(4, 8), (reason, 8), (d.node, 16), (d.graph, 32), (d.ver, 16), ((t.enc i).inForce, 8), (0, 40),
    (addr, 64), (ts64Of ts, 64), (d.launch, 64)])

/-- The OVERFLOW packet (R142). -/
def TrLoss.packet (l : TrLoss) : List Byte :=
  leBytes 24 (packNat [(7, 8), (l.cause, 8), (0, 16), (min l.bytes 0xFFFFFFFF, 32), (l.first, 64), (l.last, 64)])

/-- What must stand before a packet of `build` bytes has been written: OVERFLOW and SYNC after a loss, a SYNC that is due,
the SYNC of every 4,096 bytes, and a record with room (R140, R143, R146, R147, R448). -/
def Tu.tracePrep (i ts : Nat) (build : Enc → List Byte) : Nat → Tu → Tu
  | 0, t => t
  | k + 1, t =>
    let e := t.enc i
    if !e.bufFree then t
    else
      match e.lost, e.due, e.addr with
      | some l, _, _ =>
        if e.fits 24 then
          let t := t.traceRaw i ts false l.packet
          Tu.tracePrep i ts build k ((t.setEnc i { t.enc i with lost := none, due := some 5 }).bump (0x2700 + i) 4 1)
        else Tu.tracePrep i ts build k (t.traceClose i)
      | none, some r, some a =>
        if e.fits 40 then
          let t := t.traceRaw i ts true (t.syncBytes i ts r a)
          Tu.tracePrep i ts build k (t.setEnc i { t.enc i with due := none, ibase := a, tbase := ts64Of ts })
        else Tu.tracePrep i ts build k (t.traceClose i)
      | none, none, some _ =>
        let n := (build e).length
        if n != 0 && decide (4096 ≤ e.sinceSync) && e.outcomes.isEmpty then
          Tu.tracePrep i ts build k (t.setEnc i { e with due := some 1 })
        else if e.fits n then t
        else Tu.tracePrep i ts build k (t.traceClose i)
      | none, _, none => if e.fits (build e).length then t else Tu.tracePrep i ts build k (t.traceClose i)

/-- R147: a packet is written, or lost while both assembly buffers are occupied (cause ENCODER). -/
def Tu.tracePut (t : Tu) (i ts : Nat) (build : Enc → List Byte) : Tu :=
  let t := t.tracePrep i ts build 12
  let e := t.enc i
  let bs := build e
  if e.bufFree then t.traceRaw i ts false bs
  else t.setEnc i { e.lose 1 bs.length (ts64Of ts) (ts64Of ts) with total := e.total + bs.length }

/-- A SYNC that is due and a loss that waits are written if they can be (R448). -/
def Tu.traceDue (t : Tu) (i ts : Nat) : Tu :=
  let e := t.enc i
  if e.addr.isSome && (e.due.isSome || e.lost.isSome) then
    if e.bufFree then t.tracePrep i ts (fun _ => []) 12
    else if e.due.isSome then
      t.setEnc i { e.lose 1 40 (ts64Of ts) (ts64Of ts) with due := none, total := e.total + 40 }
    else t
  else t

/-- R145: a TS packet, where one is owed before a packet that carries no TS64. -/
def tsBytes (ts : Nat) (always : Bool) (e : Enc) : List Byte :=
  let d := toInt 64 (ofInt 64 ((ts64Of ts : Int) - e.tbase))
  if always || (e.tsInt != 0 && decide ((e.tsInt : Int) ≤ d)) then 3 :: zigzag d else []

/-- R145: write the TS packet that is owed. -/
def Tu.traceTs (t : Tu) (i ts : Nat) (always : Bool) : Tu :=
  let t := t.traceDue i ts
  if (tsBytes ts always (t.enc i)).isEmpty then t
  else
    let t := t.tracePut i ts (tsBytes ts always)
    t.setEnc i { t.enc i with tbase := ts64Of ts }

/-- The BRANCH byte of outcomes, oldest first (R142). -/
def branchByte (os : List Bool) : Byte :=
  BitVec.ofNat 8 (128 + os.foldl (fun n b => 2 * n + b2n b) 1)

/-- R142: pending outcomes are written as a BRANCH packet. -/
def Tu.traceBranch (t : Tu) (i ts : Nat) : Tu :=
  let e := t.enc i
  if e.outcomes.isEmpty then t
  else
    let t := (t.setEnc i { e with outcomes := [] }).traceTs i ts false
    t.tracePut i ts fun _ => [branchByte e.outcomes]

/-- R140, R143, R149, R448: a SYNC falls due: pending outcomes go first; it is written at once while the next address is
known; a SYNC that already waits stands. -/
def Tu.traceSync (t : Tu) (i ts reason : Nat) : Tu :=
  let t := (t.traceBranch i ts).traceDue i ts
  let e := t.enc i
  (t.setEnc i { e with due := some (e.due.getD reason) }).traceDue i ts

/-- A source that writes packets now: not OFF and its domain up. -/
def Enc.live (e : Enc) : Bool := e.inForce != 0 && e.down.isNone

/-- R143: the current descriptor of a source has changed: SYNC with REASON CONTEXT unless only the node changed. -/
def Tu.traceContext (t : Tu) (i : Nat) : Tu :=
  let d := t.traceDesc i
  let now := some (d.graph, d.ver, d.launch)
  let e := t.enc i
  if e.ctx = now then t
  else
    let t := t.setEnc i { e with ctx := now }
    if e.live then t.traceSync i t.ns 6 else t

/-- R140: a mode comes into force at the packet boundary. -/
def Tu.traceSetMode (t : Tu) (i m : Nat) : Tu :=
  let e := t.enc i
  if e.inForce = m then t
  else
    let t := if e.inForce = 0 then t else t.traceBranch i t.ns
    if m = 0 then
      let t := t.traceClose i
      t.setEnc i { t.enc i with inForce := 0, due := none, addr := none, outcomes := [] }
    else if e.inForce = 0 then t.setEnc i { t.enc i with inForce := m, due := some 2, addr := none }
    else
      let t := t.setEnc i { t.enc i with inForce := m }
      if e.down.isNone then t.traceSync i t.ns 3 else t.setEnc i { t.enc i with due := some 3 }

/-! ### Power states (R148) -/

/-- R148: PWR_DOWN: `state` with bit 7 ABRUPT. A SYNC that still waits for an address comes before any other packet, so
nothing is written then (log 32). -/
def Tu.traceDown (t : Tu) (i state : Nat) (abrupt : Bool) : Tu :=
  let ts := t.ns
  if (t.enc i).inForce = 0 then t.setEnc i { t.enc i with addr := none, down := some (state, false) }
  else
    let t := (t.traceBranch i ts).traceDue i ts
    let e := t.enc i
    if e.due.isSome && e.addr.isNone then t.setEnc i { e with down := some (state, false) }
    else
      let t := t.tracePut i ts fun e => leBytes 24 (packNat [(5, 8), (state, 7), (b2n abrupt, 1), (0, 48), (e.ibase, 64), (ts64Of ts, 64)])
      let t := (t.setEnc i { t.enc i with tbase := ts64Of ts }).traceClose i
      t.setEnc i { t.enc i with addr := none, down := some (state, true) }

/-- R148: the wake of a domain: PWR_UP, then SYNC with REASON POWER_UP under R448. -/
def Tu.traceUp (t : Tu) (i : Nat) (addr : Option Nat) : Tu :=
  let e := t.enc i
  let ts := t.ns
  match e.down with
  | none => t
  | some (state, written) =>
    let t := t.setEnc i { e with down := none, addr := none, due := if e.inForce ≠ 0 ∧ written = true then none else e.due }
    if e.inForce ≠ 0 ∧ written = true then
      let t := t.tracePut i ts fun _ => leBytes 16 (packNat [(6, 8), (state, 8), (0, 48), (ts64Of ts, 64)])
      (t.setEnc i { t.enc i with addr := addr, due := some 4, tbase := ts64Of ts }).traceDue i ts
    else (t.setEnc i { t.enc i with addr := addr }).traceDue i ts

/-! ### Freeze (R154) -/

/-- R154: every enabled source flushes outcomes, writes a TS for F and closes its record. -/
def Tu.traceFreeze (t : Tu) (f : Nat) : Tu :=
  (List.range 73).foldl (fun t i =>
    let e := t.enc i
    if !e.live then t
    else if e.addr.isNone && e.due.isSome && e.lost.isNone then t.traceClose i
    else ((t.traceBranch i f).traceTs i f true).traceClose i) t

/-- R149: at a Clove cut every enabled source writes a SYNC with REASON CUT, stamped T_f, and closes its record. -/
def Tu.traceCut (t : Tu) (tf : Nat) : Tu :=
  (List.range 73).foldl (fun t i =>
    let e := t.enc i
    if !e.live then t
    else if e.addr.isNone then (t.traceBranch i tf).traceClose i
    else (t.traceSync i tf 7).traceClose i) t

/-- A ring. -/
def Tu.ring (t : Tu) (k : Nat) : Ring := tget t.rings k { ents := [], lastWr := none, gap := false, gaps := 0, post := 0 }

/-- The TU with a ring replaced. -/
def Tu.setRing (t : Tu) (k : Nat) (x : Ring) : Tu := { t with rings := tset t.rings k x }

/-- R154, R228, R382: a freeze trigger at the instant `at'` in ns. While the rings are frozen it is only counted. -/
def Tu.freezeRings (t : Tu) (cause at' : Nat) : Tu :=
  let t := t.bump 0x2770 0x0B 1
  if t.frz.frozen.isSome then t
  else
    let t := { t with
      rings := t.rings.map fun (e : Nat × Ring) => (e.1, { e.2 with post := 0 })
      frz := { t.frz with
        frozen := some (cause, ts64Of at')
        readout := if t.part.flag 0x2770 7 && cause != 5 then (List.range 101).map fun k => (k, 0) else [] } }
    let t := (t.traceFreeze at').sumacClose
    if cause = 1 ∨ cause = 2 ∨ cause = 4 then t.flush 2 else t

end Sys2Proof.Machine
end

