-- ==== Sys2Proof/Machine/Counters.lean ====
section
/-! DEFINITION. Event counters and the sampler (04_counters.md): increment taps, bank swaps and DESC_END, selections, resets,
sample sets and zoom. -/

namespace Sys2Proof.Machine

/-! ### Bank swaps (R98 to R101, R129, R130) -/

/-- GSLOT of a graph in PHASE_GROUP_MAP; 0xFF when it is not listed (R123). -/
def mapGroup : Nat → List Byte → Nat → Nat
  | 0, _, _ => 0xFF
  | n + 1, bs, graph =>
    if bs.isEmpty then 0xFF else if fieldAt bs 0 4 = graph then fieldAt bs 4 1 else mapGroup n (bs.drop 8) graph

/-- GSLOT of a graph at this TU (R123). -/
def Tu.graphGroup (t : Tu) (graph : Nat) : Nat := mapGroup 16 (t.part.rdDom 0x2600 0x0A) graph

/-- The TU with the descriptors of a unit replaced. -/
def Tu.setUnit (t : Tu) (u : Nat) (d : UnitDesc) : Tu := { t with units := tset t.units u d }

/-- UNIT of a unit index (R129). -/
def unitNumber (u : Nat) : Nat := if u = 72 then 128 else u

/-- The occupied staging entries of a unit: position in COUNTER_MASK, value, saturated (R129). -/
def Tu.staged (t : Tu) (u : Nat) : List (Nat × Nat × Bool) :=
  ((unitCounters u).zipIdx.filterMap fun ci =>
    match (t.cnt ci.1).staged with
    | some (v, s) => some (ci.2, v, s)
    | none => none)

/-- The DESC_END record of a unit (R129). -/
def Tu.descEnd (t : Tu) (u : Nat) (st : List (Nat × Nat × Bool)) : Rec :=
  let d := t.unit u
  let id := match d.retired with
    | some (x, _) => x
    | none => { graph := 0, ver := 0, node := 0, launch := 0 }
  let start := match d.retired with
    | some (_, s) => s
    | none => 0
  let mask := st.foldl (fun m x => setBit m x.1 true) 0
  let r := t.mkRec 0x03 (0x0380 + u) (unitNumber u) (t.graphGroup id.graph) d.swapTs
    (payload 5 [(4, 4), (0, 4), (st.length, 8), (min d.merged 65535, 16), (id.graph, 32), (id.ver, 16), (id.node, 16),
      (0, 32), (id.launch, 64), (start, 64), (mask, 64)] ++ st.map fun x => BitVec.ofNat 64 x.2.1)
  if st.any fun x => x.2.2 then r.setFlag 0 else r

/-- R130: offer the DESC_END of a unit; when it is admitted its staging entries are cleared. -/
def Tu.offerDescEnd (t : Tu) (u : Nat) : Tu :=
  let st := t.staged u
  if st.isEmpty then t
  else
    let x := t.offer 1 3 (40000 + 4000 * st.length) [t.descEnd u st]
    if x.2 then
      let t := (unitCounters u).foldl (fun t c =>
        if (t.cnt c).staged.isSome then t.setCnt c { t.cnt c with staged := none } else t) x.1
      t.setUnit u { t.unit u with merged := 0 }
    else x.1

/-- The descriptor-start marker takes the oldest dispatched descriptor of the unit. -/
def UnitDesc.start (d : UnitDesc) (bank : Bool) (ts : Nat) : UnitDesc :=
  match d.waiting with
  | [] => { d with cur := none }
  | x :: r =>
    { d with waiting := r, cur := some (x, ts, bank),
             launches := if d.launches.contains x.launch then d.launches else d.launches ++ [x.launch] }

/-- R99 to R101, R130: a descriptor-start marker with this BANK arrives at a unit. -/
def Tu.marker (t : Tu) (u : Nat) (bank : Bool) : Tu :=
  let d := t.unit u
  if bank = d.bank then
    ((t.setUnit u { d.start bank t.ts with missed := d.missed + 1 }).counted 0x2380 3 1).traceContext u
  else
    let cs := (unitCounters u).filter fun c => (t.cnt c).percmd
    let full := !(t.staged u).isEmpty
    let prev := d.cur.map fun c => (c.1, c.2.2)
    let retired := match d.cur with
      | some c => some (c.1, c.2.1)
      | none => none
    let d' := { (d.start bank t.ts) with
      bank := bank, prev := prev, retired := retired, missed := 0,
      merged := (if full then d.merged else 0) + 1 + d.missed, swapTs := t.ns }
    let t := cs.foldl (fun t c =>
      t.setCnt c (((t.cnt c).settle t.ns).swap t.part.time.now)) t
    let t := t.setUnit u d'
    let t := if full then t.bump 0x2380 4 1 else t
    (t.offerDescEnd u).traceContext u

/-! ### Increment taps (R90, R430 to R436) -/

/-- The counters that a tap feeds, each with its lane. -/
def Tu.lanes (t : Tu) (tap : IncTap) : List (Nat × Nat) :=
  let uncore (lo n : Nat) : List (Nat × Nat) :=
    t.cnts.filterMap fun e =>
      if tileCounters ≤ e.1 ∧ lo ≤ e.2.source ∧ e.2.source < lo + n then some (e.1, e.2.source - lo) else none
  match tap with
  | .tile k => ((List.range 32).map fun c => (32 * k.val + c, c)).filter fun cl => (t.cnt cl.1).source != 0
  | .cp => uncore 1 10
  | .fp k => uncore (0x80 + 16 * k.val) 10
  | .hbm k => uncore (0x200 + 32 * k.val) 8
  | .noc => uncore 0x280 4
  | .dpc => uncore 0x300 5

/-- The unit whose marker a tap carries. -/
def tapUnit : IncTap → Option Nat
  | .tile k => some k.val
  | .cp => some 72
  | _ => none

/-- R434: a nanosecond lane takes its level at capture. -/
def Tu.level (t : Tu) (c : Nat) (v : Bool) : Tu := t.putCnt c { (t.cnt c).settle t.ns with level := v }

/-- R90, R98, R101: an increment reaches a counter, tagged with a bank if it is per-command. -/
def Tu.increment (t : Tu) (c n : Nat) (tag : Bool) : Tu :=
  let x := t.cnt c
  if n = 0 then t
  else if x.percmd && tag != (t.unit (unitOf c)).bank then
    if x.staged.isSome then t.setCnt c (x.stageLate n) else t.counted 0x2380 3 1
  else t.putCnt c (x.add n)

/-- R431: an increment beat that meets a full buffer is dropped unless it folds into the newest buffered one. -/
def incDropped (b : IncBeat) (tagged : Bool) : Bool :=
  match b.full with
  | some (bank, dstart) => tagged && (bank != b.bank || dstart || b.dstart)
  | none => false

/-- R90, R431, R434: a beat of an increment tap. -/
def Tu.incBeat (t : Tu) (tap : IncTap) (b : IncBeat) : Tu :=
  let lanes := t.lanes tap
  let lane (i : Nat) : Nat := (b.lanes.getD i 0).toNat
  let ns := lanes.filter fun cl => (t.cnt cl.1).isNs cl.1
  let t := ns.foldl (fun t cl => t.level cl.1 (lane cl.2 % 2 == 1)) t
  if incDropped b (tapUnit tap).isSome then t.counted 0x2380 5 1
  else
    let t := if tap = .cp then { t with cpBank := b.bank } else t
    let t := match (tapUnit tap) with
      | some u => if b.dstart then t.marker u b.bank else t
      | none => t
    let tag := if (tapUnit tap).isSome then b.bank else t.cpBank
    (lanes.filter fun cl => !(t.cnt cl.1).isNs cl.1).foldl (fun t cl => t.increment cl.1 (lane cl.2) tag) t

/-- TAP_INC_BEAT. -/
def execTapIncBeat (dt : Nat) (p : Port) (tap : IncTap) (b : IncBeat) (s : State) : Host.Outcome State Fault Refusal :=
  .next (onTu p dt (fun t => t.incBeat tap b) s)

/-! ### Selection and reset (R91, R97) -/

/-- R91, R97: a write of a counter's selection word. -/
def Tu.wrCntSel (t : Tu) (c v : Nat) : Tu × Nat :=
  let src := bitsOf v 0 10
  let per := bitOf v 10
  let a := lowestAbort [(per && !hasBank c, 0x25), (!sourceOk c src, 0x26)]
  if a ≠ 0 then (t, a)
  else
    let x := (t.cnt c).settle t.ns
    let changed := src != x.source || per != x.percmd
    let y := if changed || bitOf v 16 then x.reset else x
    (t.setCnt c { y with source := src, percmd := per, level := if src = x.source then y.level else false }, 0)

/-- CNT_SEL_WRITE. -/
def execCntSelWrite (dt : Nat) (p : Port) (lvl : Level) (c : Fin 2816) (v : BitVec 32) (s : State) :
    Host.Outcome State Fault Refusal :=
  .next (onTu p dt (fun t => t.reply lvl 1 (t.wrCntSel c.val v.toNat)) s)

/-- COUNTER_RESET. -/
def execCounterReset (dt : Nat) (p : Port) (lvl : Level) (c : Fin 2816) (v : BitVec 32) (s : State) :
    Host.Outcome State Fault Refusal :=
  .next (onTu p dt (fun t => t.reply lvl 1 (t.wrCntSel c.val v.toNat)) s)

/-- R97: every counter is reset. -/
def Tu.resetCounters (t : Tu) : Tu :=
  { t with cntEpoch := t.cntEpoch + 1, cnts := t.cnts.map fun e => (e.1, { e.2.settle t.ns with val := 0, sat := false }) }

/-- R97: a write of CNT_RESET_ALL. -/
def Tu.wrCntResetAll (t : Tu) (v : Nat) : Tu × Nat :=
  if v = 1 then (t.resetCounters, 0) else if v = 0 then (t, 0) else (t, 0x26)

/-- CNT_RESET_ALL. -/
def execCntResetAll (dt : Nat) (p : Port) (lvl : Level) (v : Byte) (s : State) : Host.Outcome State Fault Refusal :=
  .next (onTu p dt (fun t => t.reply lvl 1 (t.wrCntResetAll v.toNat)) s)

/-! ### Sample sets (R103 to R114) -/

/-- A sample set after reset (R116). -/
def SampleSet.zero : SampleSet :=
  { enable := false, follow := false, gslot := 0xFF, period := 1000000, phase := 0, list := [], base := [], first := true,
    prevTs := 0, loopZ := 0, pin := false, pinZ := 0, zoom := 0, step := false, fired := none }

/-- A set. -/
def Tu.set (t : Tu) (k : Nat) : SampleSet := tget t.sets k .zero

/-- The TU with a set replaced. -/
def Tu.setSet (t : Tu) (k : Nat) (x : SampleSet) : Tu := { t with sets := tset t.sets k x }

/-- The group slot that a set follows is sampling: ARMED or DRAINING (R104). -/
def Tu.groupOn (t : Tu) (g : Nat) : Bool :=
  match tfind t.groups g with
  | some x => x.state == 3 || x.state == 5
  | none => false

/-- The base grid of a set (R103). -/
def Tu.baseGrid (t : Tu) (x : SampleSet) : Nat × Nat :=
  if x.follow then
    match tfind t.groups x.gslot with
    | some g => (g.period, g.phase)
    | none => (x.period, x.phase)
  else (x.period, x.phase)

/-- RUNNING (R103). -/
def Tu.setRunning (t : Tu) (x : SampleSet) : Bool :=
  x.enable && t.part.time.everLocked && (!x.follow || t.groupOn x.gslot)

/-- SET_CTRL as it reads (R103). -/
def Tu.setCtrl (t : Tu) (k : Nat) : Nat :=
  let x := t.set k
  packNat [(b2n x.enable, 1), (b2n x.follow, 1), (b2n (t.setRunning x), 1), (0, 5), (x.gslot, 8)]

/-- R327: ZOOM_STATE of a set. -/
def Tu.zoomState (t : Tu) (k : Nat) (late : Bool) : Tu :=
  let x := t.set k
  t.log { event 0x0020 224 k (min (x.zoom / 1000) (2 ^ 31 - 1) + (if x.pin then 2 ^ 31 else 0)) with
          late := late, gslot := x.gslot }

/-- R112: a zoom period that fits a base period. -/
def zoomOk (z period : Nat) : Bool := z % 1000 == 0 && z != 0 && period % z == 0

/-- R113: the zoom asked for: the pin wins over the loop. -/
def SampleSet.wanted (x : SampleSet) (period : Nat) : Nat :=
  let z := if x.pin then x.pinZ else x.loopZ
  if zoomOk z period then z else 0

/-- What one counter of a set reports: state, value, saturated, per-command, bank (R95, R106, R108). -/
structure Latch where
  cnt    : Nat
  state  : Nat
  value  : Nat
  sat    : Bool
  percmd : Bool
  bank   : Bool
  bound  : Bool
deriving DecidableEq, Repr

/-- R95, R97, R99, R106: the report of a counter against a set's baseline. `swapAfter`: a swap is arbitrated in the grant
window after the latch. -/
def Tu.latch (t : Tu) (x : SampleSet) (swapAfter : Bool) (c : Nat) : Latch :=
  let y := t.cnt c
  let b := tfind x.base c
  let resets := y.resets + t.cntEpoch
  let isReset := !x.first && (match b with
    | some b => b.resets != resets
    | none => false)
  let from' := if x.first || isReset || y.percmd then 0 else (match b with
    | some b => b.val
    | none => 0)
  { cnt := c
    state := if isReset then 2 else if y.sat then 1 else 0
    value := y.val - from'
    sat := y.sat
    percmd := y.percmd
    bank := y.percmd && (t.unit (unitOf c)).bank
    bound := y.percmd && (swapAfter || (match y.swapAt with
      | some a => decide (t.part.time.now ≤ a + 163840)
      | none => false)) }

/-- The status nibble (R108). -/
def Latch.nibble (l : Latch) : Nat := l.state + 4 * b2n l.percmd + 8 * b2n l.bank

/-- Status nibbles in bytes, low half first (R108). -/
def nibbles : List Latch → List Byte
  | [] => []
  | [a] => [BitVec.ofNat 8 a.nibble]
  | a :: b :: r => BitVec.ofNat 8 (a.nibble + 16 * b.nibble) :: nibbles r

/-- Bytes of a TR_SAMPLE with these counters before padding (R107). -/
def sampleLen (ls : List Latch) : Nat := 40 + (ls.length + 1) / 2 + sumBy (fun l => (varint 10 l.value).length) ls

/-- R109: the list split in order into records of at most 2,040 bytes. -/
def splitSample : List Latch → List Latch → List (List Latch)
  | [], acc => [acc]
  | l :: r, acc =>
    if !acc.isEmpty && decide (2040 < sampleLen (acc ++ [l])) then acc :: splitSample r [l] else splitSample r (acc ++ [l])

/-- One TR_SAMPLE record (R107). -/
def Tu.sampleRec (t : Tu) (k : Nat) (x : SampleSet) (zoomed : Bool) (ix : Nat) (ls : List Latch) (cont : Bool) : Rec :=
  let body := leBytes 16 (packNat [(k, 4), (0, 4), (ls.length - 1, 8), (ix, 8), (b2n x.first, 1), (b2n zoomed, 1),
    (b2n x.step, 1), (0, 5), (0, 32), (if x.first then 0 else x.prevTs, 64)])
  let r := t.mkRec 0x01 (0x0100 + k) 224 x.gslot t.ns
    (allWords (body ++ nibbles ls ++ ls.flatMap fun l => varint 10 l.value))
  let r := if ls.any (·.sat) then r.setFlag 0 else r
  let r := if ls.any (·.bound) then r.setFlag 4 else r
  if cont then r.setFlag 6 else r

/-- The members of a set's record in order (R64, R109). -/
def Tu.sampleRecs (t : Tu) (k : Nat) (x : SampleSet) (zoomed : Bool) : Nat → List (List Latch) → List Rec
  | _, [] => []
  | ix, [ls] => [t.sampleRec k x zoomed ix ls false]
  | ix, ls :: r => t.sampleRec k x zoomed ix ls true :: t.sampleRecs k x zoomed (ix + ls.length) r

/-- Bytes in the sample buffer (R110). -/
def Tu.samplePeak (t : Tu) : Tu := t.wr 0x2410 2 (max (t.rd 0x2410 2) (t.queued 4))

/-- R105, R106, R110: latch, encode and offer a set at the instant `t.ns`. -/
def Tu.sample (t : Tu) (k : Nat) (zoomed swapAfter : Bool) : Tu :=
  let x := t.set k
  let t := x.list.foldl (fun t c => t.putCnt c { (t.cnt c).settle t.ns with latched := t.ns }) t
  let ls := x.list.map (t.latch x swapAfter)
  let recs := t.sampleRecs k x zoomed 0 (splitSample ls [])
  let o := t.offer 0 4 (40000 + 2200 * x.list.length) recs
  let t := o.1
  if o.2 then
    let base := x.list.foldl (fun b c =>
      tset b c { val := (t.cnt c).val, resets := (t.cnt c).resets + t.cntEpoch }) x.base
    (((t.setSet k { x with base := base, first := false, prevTs := t.ts, step := false }).bump (0x2400 + k) 8
      recs.length).wr (0x2400 + k) 0x0A t.ts).samplePeak
  else t.bump (0x2400 + k) 9 recs.length

/-- R104, R105, R112: an instant of a set's base grid or zoom grid. -/
def Tu.setInstant (t : Tu) (k : Nat) (swapAfter : Bool) : Tu :=
  let x := t.set k
  let g := t.baseGrid x
  let base := onGrid g.1 g.2 t.ns
  let zoomed := x.zoom != 0 && onGrid x.zoom (g.2 % x.zoom) t.ns
  let fresh := match x.fired with
    | some n => decide (n < t.ns)
    | none => true
  if t.setRunning x && (base || zoomed) && fresh then
    let t := t.setSet k { x with fired := some t.ns }
    let want := x.wanted g.1
    let t := if base && want != x.zoom then (t.setSet k { t.set k with zoom := want }).zoomState k false else t
    t.sample k (!base) swapAfter
  else t

/-- SET_GRID_INSTANT. -/
def execSetGridInstant (dt : Nat) (p : Port) (set : Fin 16) (swapAfter : Bool) (s : State) :
    Host.Outcome State Fault Refusal :=
  .next (onTu p dt (fun t => t.setInstant set.val swapAfter) s)

/-- R103, R116: a write of SET_CTRL. -/
def Tu.wrSetCtrl (t : Tu) (k v : Nat) : Tu × Nat :=
  let x := t.set k
  let en := bitOf v 0
  let fol := bitOf v 1
  let gs := bitsOf v 8 8
  let a := lowestAbort
    [(decide (64 ≤ gs) && decide (gs ≤ 254), 0x25),
     (en && fol && gs == 0xFF, 0x25),
     (en && !fol && decide (x.period ≤ x.phase), 0x25),
     (x.enable && (fol != x.follow || gs != x.gslot), 0x27),
     (en && x.list.isEmpty, 0x27)]
  if a ≠ 0 then (t, a)
  else if en && !x.enable then
    (t.setSet k { x with enable := true, follow := fol, gslot := gs, first := true, base := [], fired := none, step := false }, 0)
  else (t.setSet k { x with enable := en, follow := fol, gslot := gs }, 0)

/-- SET_CTRL_WRITE. -/
def execSetCtrlWrite (dt : Nat) (p : Port) (lvl : Level) (set : Fin 16) (v : BitVec 32) (s : State) :
    Host.Outcome State Fault Refusal :=
  .next (onTu p dt (fun t => t.reply lvl 1 (t.wrSetCtrl set.val v.toNat)) s)

/-- U16 values of bytes. -/
def u16s : Nat → List Byte → List Nat
  | 0, _ => []
  | n + 1, bs => fieldAt bs 0 2 :: u16s n (bs.drop 2)

/-- No value occurs twice. -/
def distinct : List Nat → Bool
  | [] => true
  | a :: r => !r.contains a && distinct r

/-- R103: a write of SET_LIST. -/
def Tu.wrSetList (t : Tu) (k : Nat) (v : List Byte) : Tu × Nat :=
  let x := t.set k
  let l := u16s (v.length / 2) v
  let others := sumBy (fun e => if e.1 = k then 0 else e.2.list.length) t.sets
  let a := lowestAbort
    [(decide (512 < v.length) || v.length % 2 == 1, 0x24),
     (!distinct l || l.any fun c => decide (2815 < c), 0x25),
     (x.enable, 0x27),
     (decide (2048 < others + l.length), 0x28)]
  if a ≠ 0 then (t, a) else (t.setSet k { x with list := l, base := [], first := true }, 0)

/-- SET_LIST_WRITE. -/
def execSetListWrite (dt : Nat) (p : Port) (lvl : Level) (set : Fin 16) (v : List Byte) (s : State) :
    Host.Outcome State Fault Refusal :=
  .next (onTu p dt (fun t => t.reply lvl 1 (t.wrSetList set.val v)) s)

/-- R103: a write of SET_PERIOD_NS or SET_PHASE_NS. -/
def Tu.wrSetGrid (t : Tu) (k : Nat) (isPhase : Bool) (v : Nat) : Tu × Nat :=
  let x := t.set k
  let bad := if isPhase then v % 1000 != 0 || decide (10000000000 ≤ v)
    else v % 1000 != 0 || decide (v < 1000) || decide (10000000000 < v)
  let a := lowestAbort [(bad, 0x25), (x.enable, 0x27)]
  if a ≠ 0 then (t, a)
  else (t.setSet k (if isPhase then { x with phase := v } else { x with period := v }), 0)

/-- SET_GRID_WRITE. -/
def execSetGridWrite (dt : Nat) (p : Port) (lvl : Level) (set : Fin 16) (isPhase : Bool) (v : Word) (s : State) :
    Host.Outcome State Fault Refusal :=
  .next (onTu p dt (fun t => t.reply lvl 1 (t.wrSetGrid set.val isPhase v.toNat)) s)

/-- R113, R327: a write of ZOOM_PIN or ZOOM_PIN_PERIOD_NS. -/
def Tu.wrZoomPin (t : Tu) (k : Nat) (isPeriod : Bool) (v : Nat) : Tu × Nat :=
  let x := t.set k
  if isPeriod then
    if v = 0 ∨ zoomOk v (t.baseGrid x).1 = true then (t.setSet k { x with pinZ := v }, 0) else (t, 0x25)
  else if 1 < v then (t, 0x26)
  else if x.pin = (v == 1) then (t, 0)
  else ((t.setSet k { x with pin := v == 1 }).zoomState k false, 0)

/-- ZOOM_PIN_WRITE. -/
def execZoomPinWrite (dt : Nat) (p : Port) (lvl : Level) (set : Fin 16) (isPeriod : Bool) (v : Word) (s : State) :
    Host.Outcome State Fault Refusal :=
  .next (onTu p dt (fun t => t.reply lvl 1 (t.wrZoomPin set.val isPeriod v.toNat)) s)

end Sys2Proof.Machine
end

