-- ==== Sys2Proof/Machine/Arm.lean ====
section
/-! DEFINITION. Arming, membership changes and teardown of telemetry groups (R251, R252, R274 to R282). -/

namespace Sys2Proof.Machine

/-! ### A descriptor reaches a role (R276, R277) -/

/-- The other tray of a role: its standby, or its holder. -/
def peerTray (d : List Byte) (level index sect : Nat) (standby : Bool) : Nat :=
  if level = 2 then dRoot d (!standby)
  else
    match (dSections d)[sect]? with
    | none => 0
    | some s =>
      if level = 1 then (if standby then s.tray else s.sb)
      else ((s.trays[index]?).map fun e => if standby then e.tray else e.sb).getD 0

/-- A group that has just taken its first descriptor. -/
def newGrp (d : List Byte) (now : Nat) : Grp where
  id := dGroup d
  state := 2
  serial := dSerial d
  memb := dMemb d
  desc := d
  next := none
  eff := dEff d
  endAt := none
  release := none
  period := dPeriod d
  phase := dPhase d
  roles := []
  wait := 0
  waitSince := now
  partialSent := false
  summary := none
  missed := 0
  gathered := none
  fired := none
  gw := 0
  taintTotal := 0
  joined := []

/-- Two roles are the same place in the tree. -/
def Role.same (a b : Role) : Bool :=
  a.level == b.level && a.standby == b.standby && a.index == b.index && a.section_ == b.section_

/-- A group with a role it does not hold yet. -/
def Grp.addRole (x : Grp) (r : Role) : Grp := if x.roles.any r.same then x else { x with roles := x.roles ++ [r] }

/-- The order by which Fyster holds a descriptor pending (R17, R20). -/
def armOrderOf (d : List Byte) (late : Bool) : Order :=
  { kind := .membership, target := dGroup d, serial := dSerial d, eff := dEff d, late := late, data := [] }

/-- A part with the pending changes of a group replaced by one (R20). -/
def Part.putArm (p : Part) (o : Order) : Part := (p.dropOrder .grid o.target).putOrder o

/-- R251, R252, R281: Fyster takes an ARM descriptor for a role under key `k`; answers the descriptor before it. -/
def Fyster.takeArm (f : Fyster) (k : Nat) (d : List Byte) (r : Role) : Fyster × List Byte :=
  let hold (f : Fyster) : Fyster := { f with part := f.part.putArm (armOrderOf d (decide (dEff d < f.ns))) }
  match f.grp k with
  | none => ((hold f).setGrp k ((newGrp d f.ns).addRole r), [])
  | some x =>
    if dSerial x.latest = dSerial d then
      (f.setGrp k (x.addRole (if x.next.isSome && !(x.roles.any r.same) then { r with holder := false } else r)), x.desc)
    else if x.state = 3 then
      ((hold f).setGrp k ({ x with next := some d }.addRole (if x.roles.any r.same then r else { r with holder := false })), x.desc)
    else ((hold f).setGrp k ((newGrp d f.ns).addRole r), x.desc)

/-- The key under which a descriptor of this slot and group is kept: the slot, or its waiting place; none if both are taken. -/
def Fyster.armPlace (f : Fyster) (g id : Nat) : Option Nat :=
  let free (k : Nat) : Bool := match f.grp k with
    | none => true
    | some x => !x.live || (x.id == id && x.state != 5)
  if free g then some g else if free (g + 64) then some (g + 64) else none

/-- R276 to R278: the CODE of the ACK to a descriptor that is new to this Fyster; 0 if it is taken. -/
def Fyster.armCode (f : Fyster) (d : List Byte) (m : ArmMsg) (r : Role) : Nat :=
  let reduced := !samplingOnly (dPeriod d)
  let stale := match f.part.heldSerial .membership m.group with
    | some h => decide (m.serial < h)
    | none => false
  let others := (f.part.orders.filter fun o => o.target != m.group || o.kind != .membership).length
  if !f.readyBut then 2
  else if stale then 3
  else if descCode d false != 0 || dGroup d != m.group || dSerial d != m.serial then 4
  else if (r.level != 0 && decide (1 < f.placed d r.level)) || (f.armPlace (dSlot d) m.group).isNone || decide (32 ≤ others) then 5
  else if dKind d == 1 && f.tooLarge (dSlot d) (newGrp d 0) r then 6
  else if dKind d == 1 && reduced && f.rd 0x3600 1 == 0 then 7
  else 0

/-- A role of a group by place. -/
def Grp.place (x : Grp) (r : Role) : Option Role := x.roles.find? r.same

/-- R282, R305: a group slot that is RELEASED loses its model, its rows, its die states and its governor. -/
def Fyster.unbind (f : Fyster) (g : Nat) : Fyster :=
  { f with
    part := f.part.dropOrder .model g
    jun := { f.jun with binds := tdel f.jun.binds g, rows := f.jun.rows.filter (fun r => r.gslot != g),
                        runs := f.jun.runs.filter (fun r => r.gslot != g), scores := tdel f.jun.scores g }
    dec := { f.dec with dies := f.dec.dies.filter (fun d => d.1 / 32 != g), govs := tdel f.dec.govs g }
    taints := tdel f.taints g
    taintCount := tdel f.taintCount g
    taintWrites := f.taintWrites.filter (fun w => w.g != g) }

/-- R282: every role of the group, its contexts and its slot are released; a group that waited for the slot takes it. -/
def Fyster.releaseGrp (f : Fyster) (k : Nat) : Fyster :=
  match f.grp k with
  | none => f
  | some x =>
    let part := ((f.part.dropOrder .membership x.id).dropOrder .grid x.id)
    let clear (p : Part) (s : Nat) : Part := p.wrDom (0x3100 + k % 64) s []
    let f := { f.dropGrp k with part := clear part 7 }
    let f := if k < 64 then f.unbind k else f
    let f := { f with red := { f.red with writes := f.red.writes.filter fun w => w.gslot != k,
                                          ctx := f.red.ctx.filter fun c => c.1 / 2 ^ 32 != k } }
    if k < 64 then
      match f.grp (k + 64) with
      | some y => (f.dropGrp (k + 64)).setGrp k y
      | none => f
    else f

/-- R278, R282: a TEARDOWN descriptor; `r`: the role that it reached. -/
def Fyster.takeTeardown (f : Fyster) (k : Nat) (d : List Byte) : Fyster :=
  match f.grp k with
  | none => f
  | some x =>
    if some (dSerial d) = f.part.heldSerial .membership x.id then f
    else
      let f := { f with part := f.part.putArm (armOrderOf d (decide (dEff d < f.ns))) }
      let f := f.setGrp k { x with next := some d, endAt := some (dEff d) }
      let f := (x.roles.filter (·.holder)).foldl (fun f r => f.broadcast k d x.desc r) f
      if x.state = 1 ∨ x.state = 2 then f.releaseGrp k else f

/-- R276, R277: an ARM descriptor is taken, tested for admission, and passed on. -/
def Fyster.armRole (f : Fyster) (k : Nat) (d : List Byte) (r : Role) : Fyster :=
  let y := f.takeArm k d r
  let f := y.1.admitted k
  match (f.grp k).bind fun x => x.place r with
  | none => f
  | some q =>
    let f := f.putCopy (k % 64) d q
    if q.standby then f else f.broadcast k d y.2 q

/-- CODE of the ACK of a descriptor that is held: WAIT while the group waits. -/
def Fyster.armAckCode (f : Fyster) (k : Nat) : Nat :=
  match f.grp k with
  | some x => if x.state = 2 ∨ x.state = 4 then 1 else 0
  | none => 0

/-- R276: a NOTICE with the descriptor copy that was read for it. -/
def Fyster.armNotice (f : Fyster) (src : Nat) (bs copy : List Byte) : Fyster :=
  let m := armMsg bs
  if !armGood bs || m.kind != 1 || m.role == 0 || copy.length != m.len || crc32c copy != m.crc then f
  else
    let level := m.role - 1
    let arm := dKind copy == 1
    let known := f.armKey m.group
    -- A TEARDOWN travels along the tree that the node holds.
    let tree := if arm then copy else ((known.bind f.grp).map (·.desc)).getD copy
    let sect := ((List.range (dNl2 tree)).find? fun i => sectionOfs tree i (dSectionsAt tree) == m.sect).getD 0
    let r := newRole level m.standby m.index sect (peerTray tree level m.index sect m.standby)
    let held := f.part.heldSerial .membership m.group == some m.serial
    let mine := match known.bind f.grp with
      | some x => x.roles.any r.same
      | none => false
    let answer (code : Nat) (f : Fyster) : Fyster :=
      let holder := armParent tree r false
      let other := armParent tree r true
      let dst := if m.fromStandby || holder.any (fun t => t.1 == src) then holder else other
      match dst with
      | some t => f.armPost t.1 t.2 { armBlank 2 m.group m.serial m.role m.standby m.index with code := code }
      | none => f
    let code := if held && (mine || !arm) then 0 else f.armCode copy m r
    if code ≠ 0 then answer code (f.bump 0x3140 9 1)
    else if !arm then
      match known with
      | some k => (answer 0 f).takeTeardown k copy
      | none => answer 0 f
    else
      match f.armPlace (dSlot copy) m.group with
      | none => answer 5 (f.bump 0x3140 9 1)
      | some k =>
        if held && mine then answer (f.armAckCode k) f
        else
          let f := f.armRole k copy r
          (answer (f.armAckCode k) f).armSettleAll k

/-- ARM_NOTICE_RX. -/
def execArmNoticeRx (dt : Nat) (src : BitVec 16) (msg copy : List Byte) (s : State) : Host.Outcome State Fault Refusal :=
  .next (onFy dt (fun f => f.armNotice src.toNat msg copy) s)

/-! ### The order at the root (R274) -/

/-- R274, R281: the abort code of an ARM_ORDER. -/
def Fyster.armOrderCode (f : Fyster) (v : List Byte) : Nat :=
  let arm := dKind v == 1
  let known := (f.armKey (dGroup v)).bind f.grp
  let r := newRole 2 (f.tray != dRoot v false) 0 0 0
  let atRoot := if arm then f.tray == dRoot v false || (f.tray == dRoot v true && known.any fun x => (x.held 2).isSome)
                else known.any fun x => (x.held 2).isSome
  let late := match known with
    | some x => arm && x.state == 3 && !onGrid x.period x.phase (dEff v)
    | none => false
  let x := newGrp v 0
  lowestAbort [(descCode v true != 0, descCode v true),
    (descCode v true == 0 && !arm && known.isNone, 0x2D), (descCode v true == 0 && !atRoot && (arm || known.isSome), 0x27),
    (descCode v true == 0 && arm && !samplingOnly (dPeriod v) && f.rd 0x3600 1 == 0, 0x27),
    (descCode v true == 0 && arm && (decide (1 < f.placed v 1) || decide (1 < f.placed v 2)), 0x28),
    (descCode v true == 0 && arm && f.tooLarge (dSlot v) x r, 0x28),
    (descCode v true == 0 && arm && (f.armPlace (dSlot v) (dGroup v)).isNone, 0x28), (descCode v true == 0 && late, 0x29),
    (match f.part.orderAnswer .membership (dGroup v) (dSerial v) with
     | .refused a => (true, a)
     | _ => (false, 0))]

/-- R278: the children of a role that are sent the current NOTICE again: UNARMED, NOT_LOCKED, or stale in their up sub-slot. -/
def Fyster.armRetryRole (f : Fyster) (k : Nat) (r : Role) : Fyster :=
  match f.grp k with
  | none => f
  | some x =>
    let d := x.latest
    let g := k % 64
    let again (c : ArmChild) : ArmChild := { c with state := if c.state = 0 ∨ c.state = 4 then 6 else c.state, resent := false }
    if r.level = 0 then
      (r.children.filter fun c => c.2.state == 0 || c.2.state == 4).foldl (fun f c =>
        (f.modChild k 0 c.1 fun c => { c with state := 5, sentAt := f.ns, resent := false }).armTu g c.1 d
          (if dKind d = 1 then 1 else 2)) f
    else
      let base := if dKind d = 1 then d else x.desc
      (armTargets base r).foldl (fun f t =>
        let c := tget r.children t.1 armChild0
        let hb := fieldAt (f.ledger (roleArea g r.level + upOfs (t.1 / 2) (t.1 % 2) + 40) 8) 0 8
        let quiet := t.1 != rootStandbyKey && x.state == 3 && !samplingOnly x.period && decide (hb + 100000 < f.ts)
        if c.state = 0 ∨ c.state = 4 ∨ (quiet = true ∧ c.state ≠ 6 ∧ c.state ≠ 8) then
          (f.modChild k r.level t.1 again).notifyChild g d r t
        else f) f

/-- R274, R278: a write of ARM_ORDER. -/
def Fyster.wrArmOrder (f : Fyster) (v : List Byte) : Fyster × Nat :=
  if descCode v true = 0 ∧ f.part.heldSerial .membership (dGroup v) = some (dSerial v) then
    match f.armKey (dGroup v) with
    | some k =>
      (match (f.grp k).bind fun x => x.held 2 with
       | some r => f.armRetryRole k r
       | none => f, 0)
    | none => (f, 0)
  else
    match f.armOrderCode v with
    | 0 =>
      if dKind v = 1 then
        match f.armPlace (dSlot v) (dGroup v) with
        | some k => ((f.armRole k v { newRole 2 (f.tray != dRoot v false) 0 0 (peerTray v 2 0 0 (f.tray != dRoot v false)) with
                                      holder := true }).armSettleAll k, 0)
        | none => (f, 0x28)
      else
        match f.armKey (dGroup v) with
        | some k => (f.takeTeardown k v, 0)
        | none => (f, 0x2D)
    | a => (f, a)

/-- ARM_ORDER. -/
def execArmOrder (dt : Nat) (lvl : Level) (v : List Byte) (s : State) : Host.Outcome State Fault Refusal :=
  .next (onFy dt (fun f => f.reply lvl 1 (f.wrArmOrder v)) s)

/-! ### Answers of children (R276, R277) -/

/-- The group and parent role that an answer concerns, if its sender is the child that it names. -/
def Fyster.answered (f : Fyster) (src : Nat) (bs : List Byte) (kind : Nat) : Option (Nat × Nat × Nat) :=
  let m := armMsg bs
  if !armGood bs || m.kind != kind then none
  else
    match f.armKey m.group with
    | none => none
    | some k =>
      match f.grp k with
      | none => none
      | some x =>
        let c := m.child
        let d := if dKind x.latest = 1 then x.latest else x.desc
        match x.held c.1 with
        | none => none
        | some r =>
          if f.part.heldSerial .membership m.group = some m.serial ∧
              (armTargets d r).any (fun t => t.1 == c.2 && t.2.1.1 == src) = true then some (k, c.1, c.2)
          else none

/-- R276: an ACK. -/
def Fyster.armAck (f : Fyster) (src : Nat) (bs : List Byte) : Fyster :=
  match f.answered src bs 2 with
  | none => f
  | some (k, level, key) =>
    let m := armMsg bs
    let f := (f.bump 0x3140 7 1).modChild k level key fun c =>
      { c with state := if m.code = 0 then (if c.state = 1 ∨ c.state = 2 then c.state else 7)
                        else if m.code = 1 then (if c.state = 1 ∨ c.state = 2 then c.state else 3)
                        else if m.code = 2 then 4 else 8 }
    f.armSettleAll k

/-- ARM_ACK_RX. -/
def execArmAckRx (dt : Nat) (src : BitVec 16) (msg : List Byte) (s : State) : Host.Outcome State Fault Refusal :=
  .next (onFy dt (fun f => f.armAck src.toNat msg) s)

/-- R277: a DONE. -/
def Fyster.armDone (f : Fyster) (src : Nat) (bs : List Byte) : Fyster :=
  match f.answered src bs 3 with
  | none => f
  | some (k, level, key) =>
    let m := armMsg bs
    let f := f.modChild k level key fun c =>
      { c with state := if m.code = 0 then 1 else 2, armed := m.armed, unarmed := m.unarmed, traysUnarmed := m.traysUnarmed,
               traysPartial := m.traysPartial }
    f.armSettleAll k

/-- ARM_DONE_RX. -/
def execArmDoneRx (dt : Nat) (src : BitVec 16) (msg : List Byte) (s : State) : Host.Outcome State Fault Refusal :=
  .next (onFy dt (fun f => f.armDone src.toNat msg) s)

/-- R276: a RELAY: this standby sends its holder's NOTICE to the child once more. -/
def Fyster.armRelay (f : Fyster) (src : Nat) (bs : List Byte) : Fyster :=
  let m := armMsg bs
  if !armGood bs || m.kind != 4 then f
  else
    match f.armKey m.group with
    | none => f
    | some k =>
      match f.grp k with
      | none => f
      | some x =>
        let d := x.latest
        let base := if dKind d = 1 then d else x.desc
        match x.roles.find? fun r => r.level == m.role && r.standby && r.peer == src with
        | none => f
        | some r =>
          match (armTargets base r).find? fun t => t.1 == armChildKey m.index m.standby with
          | some t =>
            f.armPost t.2.1.1 t.2.1.2
              { f.noticeMsg (k % 64) r.level d r.level t.2.2.1 t.2.2.2.1 t.2.2.2.2 with fromStandby := true }
          | none => f

/-- ARM_RELAY_RX. -/
def execArmRelayRx (dt : Nat) (src : BitVec 16) (msg : List Byte) (s : State) : Host.Outcome State Fault Refusal :=
  .next (onFy dt (fun f => f.armRelay src.toNat msg) s)

/-- R276: a child that has been silent for 200 µs: one resend, by RELAY through the own standby, from here for a TU and for the
root's standby; after a second silence the child is UNARMED. -/
def Fyster.armSilent (f : Fyster) (k level key : Nat) : Fyster :=
  match f.grp k with
  | none => f
  | some x =>
    match x.held level with
    | none => f
    | some r =>
      match tfind r.children key with
      | none => f
      | some c =>
        if c.state ≠ 5 ∨ f.ns < c.sentAt + 200000 then f
        else if c.resent then (f.modChild k level key fun c => { c with state := 0 }).armSettleAll k
        else
          let f := f.modChild k level key fun c => { c with resent := true, sentAt := f.ns }
          let d := x.latest
          let base := if dKind d = 1 then d else x.desc
          if level = 0 then f.armTu (k % 64) key d (if dKind d = 1 then 1 else 2)
          else
            match (armTargets base r).find? fun t => t.1 == key with
            | none => f
            | some t =>
              if key = rootStandbyKey then f.notifyChild (k % 64) d r t
              else
                match armParent base { r with level := level - 1, section_ := if level = 1 then r.section_ else 0 } true with
                | some p => f.armPost p.1 p.2 (armBlank 4 x.id (dSerial d) level (key % 2 == 1) (key / 2))
                | none => f

/-- ARM_ACK_TIMEOUT. -/
def execArmAckTimeout (dt : Nat) (g : GSlot) (role : Fin 3) (child : Nat) (s : State) : Host.Outcome State Fault Refusal :=
  .next (onFy dt (fun f => f.armSilent g.val role.val child) s)

/-! ### Waiting and retrying (R277 to R279) -/

/-- A group that waited for this slot takes it once it is RELEASED. -/
def Fyster.promote (f : Fyster) (g : Nat) : Fyster :=
  match f.grp g, f.grp (g + 64) with
  | none, some y => (f.dropGrp (g + 64)).setGrp g y
  | _, _ => f

/-- R277: TUs that answered that their slot is held are sent their arm again. -/
def Fyster.rearmTus (f : Fyster) (k : Nat) : Fyster :=
  match (f.grp k).bind fun x => (x.held 0).map fun r => (x, r) with
  | some (x, r) =>
    (r.children.filter fun c => c.2.state == 3).foldl (fun f c => f.armTu (k % 64) c.1 x.latest 1) f
  | none => f

/-- R277: a waiting node tests admission again. -/
def Fyster.armRetest (f : Fyster) (g : Nat) : Fyster :=
  let f := f.promote g
  match f.grp g with
  | some x => if x.state = 2 ∨ x.state = 4 then ((f.rearmTus g).admitted g).armSettleAll g else f
  | none => f

/-- ARM_RETEST. -/
def execArmRetest (dt : Nat) (g : GSlot) (s : State) : Host.Outcome State Fault Refusal :=
  .next (onFy dt (fun f => f.armRetest g.val) s)

/-- R277: ARM_WAIT_MS has passed: the node reports PARTIAL. -/
def Fyster.armWaited (f : Fyster) (g : Nat) : Fyster :=
  match f.grp g with
  | some x =>
    if x.state = 2 ∧ x.waitSince + f.rd 0x3140 2 * 1000000 ≤ f.ns then
      (f.setGrp g { x with state := 4, partialSent := true }).armSettleAll g
    else f
  | none => f

/-- ARM_WAIT_EXPIRY. -/
def execArmWaitExpiry (dt : Nat) (g : GSlot) (s : State) : Host.Outcome State Fault Refusal :=
  .next (onFy dt (fun f => f.armWaited g.val) s)

/-- ARM_RETRY. -/
def execArmRetry (dt : Nat) (g : GSlot) (role : Fin 3) (s : State) : Host.Outcome State Fault Refusal :=
  .next (onFy dt (fun f => match (f.grp g.val).bind fun x => x.held role.val with
    | some r => f.armRetryRole g.val r
    | none => f) s)

/-- ARM_NOTICE_PACING. -/
def execArmNoticePacing (dt : Nat) (s : State) : Host.Outcome State Fault Refusal := .next (onFy dt Fyster.armPump s)

/-- R276, R277: the answer of a TU to its arm: 0 or an abort code. -/
def Fyster.armTuAnswer (f : Fyster) (p g serial abort : Nat) : Fyster :=
  match f.grp g with
  | none => f
  | some x =>
    if dSerial x.latest ≠ serial then f
    else
      let f := f.modChild g 0 p fun c =>
        { c with state := if abort = 0 then 1 else if abort = 0x30 then 3 else if abort = 0x2B then 4
                          else if abort = 0x11 ∨ abort = 0x12 then c.state else 8 }
      let f := if (x.roles.any fun r => r.level == 0 && r.holder) ∧ x.state ≠ 3 ∧ x.state ≠ 5 then f.admitted g else f
      f.armSettleAll g

/-! ### The TU's side (R280) -/

/-- A TU group slot after reset. -/
def TGroup.zero : TGroup :=
  { state := 0, id := 0, serial := 0, eff := 0, period := 0, phase := 0, release := 0, leave := none, fired := none }

/-- A group slot of a TU. -/
def Tu.tgroup (t : Tu) (g : Nat) : TGroup := tget t.groups g .zero

/-- The TU with a group slot replaced. -/
def Tu.setGroup (t : Tu) (g : Nat) (x : TGroup) : Tu := { t with groups := tset t.groups g x }

/-- Sets that follow group slot `g`. -/
def Tu.followers (t : Tu) (g : Nat) : List Nat := (List.range 16).filter fun k => (t.set k).follow && (t.set k).gslot == g

/-- E of TU_GROUP_ARM. -/
def taEff (v : List Byte) : Nat := time96 v 12

/-- PERIOD_NS of TU_GROUP_ARM. -/
def taPeriod (v : List Byte) : Nat := fieldAt v 24 8

/-- PHASE_NS of TU_GROUP_ARM. -/
def taPhase (v : List Byte) : Nat := fieldAt v 32 8

/-- R280: the abort code of an ARM. -/
def Tu.armCode (t : Tu) (g : Nat) (v : List Byte) : Nat :=
  let x := t.tgroup g
  let id := fieldAt v 0 4
  lowestAbort [(v.length != 40, 0x24), (id == 0 || decide (999999999 < fieldAt v 20 4) || !gridOk (taPeriod v) (taPhase v), 0x25),
    (gridOk (taPeriod v) (taPhase v) && (!onGrid (taPeriod v) (taPhase v) (taEff v) ||
      (x.state == 3 && x.id == id && !onGrid x.period x.phase (taEff v))), 0x29),
    (x.state != 0 && (x.id != id || x.state == 5), 0x30),
    (match t.part.orderAnswer .membership id (fieldAt v 4 4) with
     | .refused a => (true, a)
     | _ => (false, 0))]

/-- R280: KIND ARM. -/
def Tu.wrArm (t : Tu) (g : Nat) (v : List Byte) : Tu × Nat :=
  let x := t.tgroup g
  let id := fieldAt v 0 4
  let serial := fieldAt v 4 4
  if v.length = 40 ∧ x.state ≠ 0 ∧ x.state ≠ 5 ∧ x.id = id ∧ t.part.heldSerial .membership id = some serial then (t, 0)
  else
    match t.armCode g v with
    | 0 =>
      if x.state ≠ 0 ∧ t.part.heldSerial .membership id = some serial then (t, 0)
      else
        let o : Order := { kind := .membership, target := id, serial := serial, eff := taEff v,
                           late := decide (taEff v < t.ns), data := v }
        let t := { t with part := t.part.putArm o }
        if x.state = 3 then (t.setGroup g { x with serial := serial, leave := none }, 0)
        else
          (t.setGroup g { TGroup.zero with state := 1, id := id, serial := serial, eff := taEff v, period := taPeriod v,
                                           phase := taPhase v }, 0)
    | a => (t, a)

/-- R280, R282: KIND LEAVE; a slot that is still PENDING is released at once. -/
def Tu.wrLeave (t : Tu) (g : Nat) (v : List Byte) : Tu × Nat :=
  let x := t.tgroup g
  let id := fieldAt v 0 4
  let serial := fieldAt v 4 4
  if v.length = 40 ∧ x.id = id ∧ x.serial = serial ∧ id ≠ 0 then (t, 0)
  else
    match lowestAbort [(v.length != 40, 0x24), (id == 0 || decide (999999999 < fieldAt v 20 4), 0x25),
        (x.id == id && decide (serial < x.serial), 0x2A),
        ((x.state == 0 || x.id != id) && !(x.id == id && decide (serial < x.serial)), 0x2D), (!t.part.time.everLocked, 0x2B),
        (x.state != 1 && decide (32 ≤ (t.part.orders.filter fun o => o.target != id || o.kind == .gateList).length), 0x28)] with
    | 0 =>
      if x.state = 1 then
        let part := (t.part.putArm { kind := .membership, target := id, serial := serial, eff := taEff v, late := false, data := v })
        (({ t with part := part.dropOrder .membership id }).setGroup g { x with state := 0, serial := serial }, 0)
      else if x.state = 5 then (t.setGroup g { x with serial := serial }, 0)
      else
        let o : Order := { kind := .membership, target := id, serial := serial, eff := taEff v,
                           late := decide (taEff v < t.ns), data := v }
        (({ t with part := t.part.putArm o }).setGroup g { x with serial := serial, leave := some (taEff v) }, 0)
    | a => (t, a)

/-- TU_GROUP_ARM (R280). -/
def Tu.wrGroupArm (t : Tu) (g : Nat) (v : List Byte) : Tu × Nat :=
  let kind := fieldAt v 8 1
  if v.length = 40 ∧ kind = 2 then t.wrLeave g v
  else if v.length = 40 ∧ kind ≠ 1 then
    (t, if t.armCode g v = 0x25 then 0x25 else 0x26)
  else t.wrArm g v

/-- TU_GROUP_ARM. -/
def execTuGroupArm (dt : Nat) (p : Port) (lvl : Level) (g : GSlot) (v : List Byte) (s : State) :
    Host.Outcome State Fault Refusal :=
  .next (onTu p dt (fun t => t.reply lvl 1 (t.wrGroupArm g.val v)) s)

/-- TU_GROUP_LEAVE. -/
def execTuGroupLeave (dt : Nat) (p : Port) (lvl : Level) (g : GSlot) (v : List Byte) (s : State) :
    Host.Outcome State Fault Refusal :=
  .next (onTu p dt (fun t => t.reply lvl 1 (t.wrGroupArm g.val v)) s)

/-! ### Effective times (R277, R281, R282, R53) -/

/-- R277, R104: at E a PENDING slot of a TU becomes ARMED and the sets that follow it start with FIRST. -/
def Tu.armEffective (t : Tu) (g : Nat) : Tu :=
  let x := t.tgroup g
  if x.state = 1 ∧ x.eff ≤ t.ns ∧ t.part.turn .membership x.eff = true then
    let t := { t with part := t.part.dropOrder .membership x.id }
    let t := t.setGroup g { x with state := 3 }
    (t.followers g).foldl (fun t k => t.setSet k { t.set k with first := true }) t
  else t

/-- R277: at E a PENDING group of Fyster becomes ARMED. -/
def Fyster.armEffective (f : Fyster) (g : Nat) : Fyster :=
  match f.grp g with
  | some x =>
    if x.state = 1 ∧ x.eff ≤ f.ns ∧ f.part.turn .membership x.eff = true then
      ({ f with part := f.part.dropOrder .membership x.id }).setGrp g { x with state := 3 }
    else f
  | none => f

/-- GROUP_ARM_EFFECTIVE. -/
def execGroupArmEffective (dt : Nat) (n : Node) (g : GSlot) (s : State) : Host.Outcome State Fault Refusal :=
  .next (onNode n dt (fun _ t => t.armEffective g.val) (fun f => f.armEffective g.val) s)

/-- The order of a grid change that a membership change leaves behind. -/
def Order.toGrid (o : Order) : Order := { o with kind := .grid }

/-- R281: at E a membership change takes effect at a TU; a grid that differs follows as a grid change. -/
def Tu.memberChange (t : Tu) (g : Nat) : Tu :=
  let x := t.tgroup g
  match t.part.order? .membership x.id with
  | some o =>
    if x.state = 3 ∧ x.leave.isNone = true ∧ o.eff ≤ t.ns ∧ t.part.turn .membership o.eff = true then
      let part := t.part.dropOrder .membership x.id
      if taPeriod o.data = x.period ∧ taPhase o.data = x.phase then { t with part := part }
      else { t with part := part.putOrder o.toGrid }
    else t
  | none => t

/-- The roles of a group under a new descriptor: those that stay, with their new places; roles of the change join. -/
def Fyster.rolesUnder (f : Fyster) (x : Grp) (d : List Byte) : List Role :=
  x.roles.filterMap fun r =>
    let keep (i sect : Nat) : Option Role :=
      some { r with index := i, section_ := sect, holder := r.holder || !r.standby, peer := peerTray d r.level i sect r.standby }
    if r.level = 2 then (if dRoot d r.standby = f.tray then keep 0 0 else none)
    else if r.level = 1 then
      match (dSections d).findIdx? fun s => (if r.standby then s.sb else s.tray) == f.tray with
      | some i => keep i i
      | none => none
    else if r.standby then
      match (dSections d)[r.section_]? with
      | some s => if ((s.trays[r.index]?).map (·.sb)) = some f.tray then keep r.index r.section_ else none
      | none => none
    else (findTray (dSections d) f.tray).bind fun e => keep e.2.1 e.1

/-- R281: at E the new membership, positions and roles take effect; a Fyster without a place drains. -/
def Fyster.memberChange (f : Fyster) (g : Nat) : Fyster :=
  match f.grp g with
  | none => f
  | some x =>
    match x.next with
    | none => f
    | some d =>
      if x.state = 3 ∧ dKind d = 1 ∧ dEff d ≤ f.ns ∧ f.part.turn .membership (dEff d) = true then
        let o := f.part.order? .membership x.id
        let part := f.part.dropOrder .membership x.id
        let roles := f.rolesUnder x d
        if roles.isEmpty then
          ({ f with part := part }).setGrp g { x with
            next := none, state := 5, endAt := some (dEff d), release := some (dEff d + x.period + max x.period 1000000) }
        else
          let part := match o with
            | some o => if dPeriod d = x.period ∧ dPhase d = x.phase then part else part.putOrder o.toGrid
            | none => part
          let fresh := (f.portsOf d).filter fun p => !(f.portsOf x.desc).contains p
          let stays := (f.portsOf d).filter fun p => (f.portsOf x.desc).contains p
          let keep (c : Nat × Ctx) : Bool := c.1 / 2 ^ 32 != g || stays.contains (c.1 / 256 % 32)
          let f := { f with
            red := { f.red with ctx := f.red.ctx.filter keep }
            dec := { f.dec with dies := f.dec.dies.filter fun d => d.1 / 32 != g || stays.contains (d.1 % 32) } }
          ({ f with part := part }).setGrp g { x with
            joined := fresh.foldl (fun t p => tset t p (ts64Of (dEff d))) x.joined
            desc := d, next := none, serial := dSerial d, memb := dMemb d, eff := dEff d, roles := roles }
      else f

/-- MEMBERSHIP_CHANGE. -/
def execMembershipChange (dt : Nat) (n : Node) (g : GSlot) (s : State) : Host.Outcome State Fault Refusal :=
  .next (onNode n dt (fun _ t => t.memberChange g.val) (fun f => f.memberChange g.val) s)

/-- R53, R112: the TU's slot takes its new grid; a zoom that no longer fits ends. -/
def Tu.gridTake (t : Tu) (g : Nat) : Tu :=
  let x := t.tgroup g
  match t.part.order? .grid x.id with
  | some o =>
    if (x.state = 3 ∨ x.state = 5) ∧ o.eff ≤ t.ns ∧ t.part.turn .grid o.eff = true then
      let t := { t with part := t.part.dropOrder .grid x.id }
      let t := t.setGroup g { x with period := taPeriod o.data, phase := taPhase o.data }
      let t := (t.followers g).foldl (fun t k =>
        let s := t.set k
        let t := t.setSet k { s with step := true }
        if s.zoom ≠ 0 ∧ zoomOk s.zoom (taPeriod o.data) = false then
          (t.setSet k { t.set k with zoom := 0 }).zoomState k o.late
        else t) t
      t.timeRec 8 (taPeriod o.data) g o.late false
    else t
  | none => t

/-- R53: Fyster's slot takes its new grid. -/
def Fyster.gridTake (f : Fyster) (g : Nat) : Fyster :=
  match f.grp g with
  | none => f
  | some x =>
    match f.part.order? .grid x.id with
    | some o =>
      if (x.state = 3 ∨ x.state = 5) ∧ o.eff ≤ f.ns ∧ f.part.turn .grid o.eff = true then
        let f := { f with part := f.part.dropOrder .grid x.id }
        let f := f.setGrp g { x with period := dPeriod x.desc, phase := dPhase x.desc }
        f.timeRec 8 (f.slave.getD 0) (dPeriod x.desc) g o.late false
      else f
    | none => f

/-- GRID_CHANGE. -/
def execGridChange (dt : Nat) (n : Node) (g : GSlot) (s : State) : Host.Outcome State Fault Refusal :=
  .next (onNode n dt (fun _ t => t.gridTake g.val) (fun f => f.gridTake g.val) s)

/-- R282: the release time of a slot that drains from `e`. -/
def releaseAt (e period : Nat) : Nat := e + period + max period 1000000

/-- R282: at E_t the TU's slot drains. -/
def Tu.drain (t : Tu) (g : Nat) : Tu :=
  let x := t.tgroup g
  match x.leave with
  | some e =>
    if x.state = 3 ∧ e ≤ t.ns ∧ t.part.turn .membership e = true then
      ({ t with part := t.part.dropOrder .membership x.id }).setGroup g
        { x with state := 5, leave := none, release := releaseAt e x.period }
    else t
  | none => t

/-- R282: at E_t the group drains on Fyster. -/
def Fyster.drain (f : Fyster) (g : Nat) : Fyster :=
  match f.grp g with
  | none => f
  | some x =>
    match x.endAt with
    | some e =>
      if x.state ≠ 5 ∧ e ≤ f.ns ∧ f.part.turn .membership e = true then
        ({ f with part := f.part.dropOrder .membership x.id }).setGrp g { x with state := 5, release := some (releaseAt e x.period) }
      else f
    | none => f

/-- GROUP_DRAIN_EFFECTIVE. -/
def execGroupDrainEffective (dt : Nat) (n : Node) (g : GSlot) (s : State) : Host.Outcome State Fault Refusal :=
  .next (onNode n dt (fun _ t => t.drain g.val) (fun f => f.drain g.val) s)

/-- R280, R282: the TU's slot is released; it keeps its last GROUP_ID and ARM_SERIAL. -/
def Tu.releaseSlot (t : Tu) (g : Nat) : Tu :=
  let x := t.tgroup g
  if x.state = 5 ∧ x.release ≤ t.ns then
    ({ t with part := t.part.dropOrder .grid x.id }).setGroup g { x with state := 0, release := 0 }
  else t

/-- R282: the release of a group on Fyster. -/
def Fyster.releaseDue (f : Fyster) (g : Nat) : Fyster :=
  match f.grp g with
  | some x => if x.state = 5 ∧ x.release.any (· ≤ f.ns) = true then f.releaseGrp g else f
  | none => f

/-- GROUP_RELEASE. -/
def execGroupRelease (dt : Nat) (n : Node) (g : GSlot) (s : State) : Host.Outcome State Fault Refusal :=
  .next (onNode n dt (fun _ t => t.releaseSlot g.val) (fun f => f.releaseDue g.val) s)

end Sys2Proof.Machine
end

