-- ==== Sys2Proof/Machine/Trace.lean ====
section
/-! DEFINITION. The commands of control-flow trace and of the last-events rings (06_trace.md). -/

namespace Sys2Proof.Machine

/-! ### Trace beats (R142 to R148, R431, R434) -/

/-- R431, R448: beats of a trace tap were lost before this point, or this beat is discarded: the stream marks the loss as
OVERFLOW with cause ENCODER and the next address is unknown. How many bytes the lost packets would have taken is not known
to the encoder: a free value (log 33). -/
def Tu.traceTapLoss (t : Tu) (p : Port) (i : Nat) : Tu :=
  if !(t.enc i).live then t.setEnc i { t.enc i with addr := none }
  else
    let t := t.traceBranch i t.ns
    let x := t.free p
    let n := x.2.toNat % 2 ^ 32
    let t := x.1
    t.setEnc i { (t.enc i).lose 1 n t.ts t.ts with addr := none, total := (t.enc i).total + n }

/-- R431: a beat with a reserved code is discarded, counted in TAP_DROPS and logged. -/
def Tu.traceMalformed (t : Tu) (p : Port) (i : Nat) : Tu := (t.counted 0x2380 5 1).traceTapLoss p i

/-- A source's address as its tap gives it (R142): 32 bits for a tile. -/
def beatAddr (i : Nat) (b : TraceBeat) : Nat := if i = 72 then b.addr.toNat else b.addr.toNat % 2 ^ 32

/-- R448: a SYNC or an OVERFLOW waits for an address: this beat supplies it and is absorbed. -/
def Enc.absorbs (e : Enc) : Bool := e.inForce != 0 && e.addr.isNone && (e.due.isSome || e.lost.isSome)

/-- A beat's start: the loss before it. -/
def Tu.beatStart (t : Tu) (p : Port) (i : Nat) (b : TraceBeat) : Tu := if b.lost then t.traceTapLoss p i else t

/-- The encoder takes the address of a beat. -/
def Tu.traceAddr (t : Tu) (i a : Nat) : Tu := t.setEnc i { t.enc i with addr := some a }

/-- The outcomes of a COND beat, oldest first (R434). -/
def beatOuts (b : TraceBeat) : List Bool :=
  (List.range b.nout.toNat).map fun k => bitOf b.outcomes.toNat (b.nout.toNat - 1 - k)

/-- R142: one outcome; a BRANCH byte is written when six are pending. -/
def Tu.traceOutcome (t : Tu) (i : Nat) (o : Bool) : Tu :=
  let e := t.enc i
  let t := t.setEnc i { e with outcomes := e.outcomes ++ [o] }
  if e.outcomes.length = 5 then t.traceBranch i t.ns else t

/-- R143: the SYNC of every 4,096 bytes, written before the outcomes of a beat whose packet would begin beyond them. -/
def Tu.traceInterval (t : Tu) (i : Nat) : Tu :=
  let e := t.enc i
  if 4096 ≤ e.sinceSync + (tsBytes t.ns false e).length then t.traceSync i t.ns 1 else t

/-- R139, R142, R448: a COND beat. -/
def Tu.traceCond (t : Tu) (p : Port) (i : Nat) (b : TraceBeat) : Tu :=
  if b.nout.toNat = 0 ∨ 6 < b.nout.toNat then t.traceMalformed p i
  else
    let t := t.beatStart p i b
    let e := t.enc i
    let a := beatAddr i b
    if e.down.isSome then t
    else if e.absorbs then (t.traceAddr i a).traceDue i t.ns
    else if e.inForce = 2 then
      let t := (t.traceDue i t.ns).traceInterval i
      ((beatOuts b).foldl (fun t o => t.traceOutcome i o) t).traceAddr i a
    else t.traceAddr i a

/-- TRACE_COND_BEAT. -/
def execTraceCondBeat (dt : Nat) (p : Port) (src : Fin 73) (b : TraceBeat) (s : State) : Host.Outcome State Fault Refusal :=
  .next (onTu p dt (fun t => t.traceCond p src.val b) s)

/-- R144, R448: an INDIRECT beat: the target's delta goes out, and the target becomes the base. -/
def Tu.traceIndirect (t : Tu) (p : Port) (i : Nat) (b : TraceBeat) : Tu :=
  let t := t.beatStart p i b
  let e := t.enc i
  let a := beatAddr i b
  if e.down.isSome then t
  else if e.absorbs then (t.traceAddr i a).traceDue i t.ns
  else if e.inForce = 0 then t.traceAddr i a
  else
    let t := (t.traceBranch i t.ns).traceTs i t.ns false
    let t := t.tracePut i t.ns fun e => 2 :: zigzag ((a : Int) - e.ibase)
    t.setEnc i { t.enc i with ibase := a, addr := some a }

/-- TRACE_INDIRECT_BEAT. -/
def execTraceIndirectBeat (dt : Nat) (p : Port) (src : Fin 73) (b : TraceBeat) (s : State) :
    Host.Outcome State Fault Refusal :=
  .next (onTu p dt (fun t => t.traceIndirect p src.val b) s)

/-- R448: a PROGRESS beat gives the next address. -/
def Tu.traceProgress (t : Tu) (p : Port) (i : Nat) (b : TraceBeat) : Tu :=
  let t := t.beatStart p i b
  if (t.enc i).down.isSome then t else (t.traceAddr i (beatAddr i b)).traceDue i t.ns

/-- TRACE_PROGRESS_BEAT. -/
def execTraceProgressBeat (dt : Nat) (p : Port) (src : Fin 73) (b : TraceBeat) (s : State) :
    Host.Outcome State Fault Refusal :=
  .next (onTu p dt (fun t => t.traceProgress p src.val b) s)

/-- R148, R434: a power notice; its address serves a SYNC that waits. -/
def Tu.tracePwr (t : Tu) (p : Port) (i : Nat) (b : TraceBeat) : Tu :=
  if b.state.toNat = 0 then t.traceMalformed p i
  else
    let t := t.beatStart p i b
    let e := t.enc i
    if e.down.isSome then t
    else
      let t := if e.absorbs then t.traceAddr i (beatAddr i b) else t
      t.traceDown i b.state.toNat false

/-- TRACE_PWR_NOTICE. -/
def execTracePwrNotice (dt : Nat) (p : Port) (src : Fin 73) (b : TraceBeat) (s : State) : Host.Outcome State Fault Refusal :=
  .next (onTu p dt (fun t => t.tracePwr p src.val b) s)

/-- R148: a WAKE beat; with the domain up it only gives an address. -/
def Tu.traceWakeBeat (t : Tu) (p : Port) (i : Nat) (b : TraceBeat) : Tu :=
  let t := t.beatStart p i b
  if (t.enc i).down.isSome then t.traceUp i (some (beatAddr i b)) else (t.traceAddr i (beatAddr i b)).traceDue i t.ns

/-- TRACE_WAKE. -/
def execTraceWake (dt : Nat) (p : Port) (src : Fin 73) (b : TraceBeat) (s : State) : Host.Outcome State Fault Refusal :=
  .next (onTu p dt (fun t => t.traceWakeBeat p src.val b) s)

/-- R148, R374, R437: a domain's DPC_DOWN bit rises. -/
def Tu.dpcRise (t : Tu) (bit : Nat) : Tu :=
  if t.dpcDown.contains bit then t
  else
    let t := { t with dpcDown := t.dpcDown ++ [bit] }
    if bit = 73 then t.rewake else if (t.enc bit).down.isSome then t else t.traceDown bit 0 true

/-- DPC_DOWN_RISE. -/
def execDpcDownRise (dt : Nat) (p : Port) (bit : Fin 74) (s : State) : Host.Outcome State Fault Refusal :=
  .next (onTu p dt (fun t => t.dpcRise bit.val) s)

/-- R148, R374: a domain's DPC_DOWN bit falls: the wake, if no WAKE beat came before it. -/
def Tu.dpcFall (t : Tu) (bit : Nat) : Tu :=
  if t.dpcDown.contains bit then
    let t := { t with dpcDown := t.dpcDown.filter (· != bit) }
    if bit = 73 then t.rewake else t.traceUp bit none
  else t

/-- DPC_DOWN_FALL. -/
def execDpcDownFall (dt : Nat) (p : Port) (bit : Fin 74) (s : State) : Host.Outcome State Fault Refusal :=
  .next (onTu p dt (fun t => t.dpcFall bit.val) s)

/-- R146: RECORD_FLUSH_US has passed since the first packet of the open record. -/
def Tu.traceFlush (t : Tu) (i : Nat) : Tu :=
  match (t.enc i).cur with
  | some c => if c.opened + 1000 * t.rd 0x2760 5 ≤ t.ns then t.traceClose i else t
  | none => t

/-- TRACE_FLUSH_TIMER. -/
def execTraceFlushTimer (dt : Nat) (p : Port) (src : Fin 73) (s : State) : Host.Outcome State Fault Refusal :=
  .next (onTu p dt (fun t => t.traceFlush src.val) s)

/-! ### Modes and power (R139 to R141, R210) -/

/-- Tile sources that ask for FULL. -/
def Tu.fullAsked (t : Tu) : List Nat := (List.range 72).filter fun i => (t.enc i).mode == 2

/-- Tile sources in FULL mode. -/
def Tu.fullNow (t : Tu) : List Nat := (List.range 72).filter fun i => (t.enc i).inForce == 2

/-- R141: modes come into force as far as eight FULL tiles, or the grant, allow; FULL tiles keep their places and the
lowest-numbered waiting ones fill up. -/
def Tu.traceApply (t : Tu) : Tu :=
  let t := (List.range 73).foldl (fun t i =>
    if i = 72 ∨ (t.enc i).mode ≠ 2 then t.traceSetMode i (t.enc i).mode else t) t
  let asked := t.fullAsked
  let now := t.part.time.now
  if asked.length ≤ 8 then
    (asked.foldl (fun t i => t.traceSetMode i 2) t).pwr 0 ((t.part.pwrReq 0).withdraw now)
  else if (t.part.pwrReq 0).st = .granted then asked.foldl (fun t i => t.traceSetMode i 2) t
  else
    let wait := asked.filter fun i => (t.enc i).inForce != 2
    let t := (wait.take (8 - t.fullNow.length)).foldl (fun t i => t.traceSetMode i 2) t
    t.pwr 0 ((t.part.pwrReq 0).ask 40 now)

/-- R139, R141: a write of TRACE_MODE. -/
def Tu.wrTraceMode (t : Tu) (i v : Nat) : Tu × Nat :=
  if 2 < v then (t, 0x26) else ((t.setEnc i { t.enc i with mode := v }).traceApply, 0)

/-- TRACE_MODE_WRITE. -/
def execTraceModeWrite (dt : Nat) (p : Port) (lvl : Level) (src : Fin 73) (v : Byte) (s : State) :
    Host.Outcome State Fault Refusal :=
  .next (onTu p dt (fun t => t.reply lvl 1 (t.wrTraceMode src.val v.toNat)) s)

/-- R210: a revoked TRACE_FULL: every FULL tile beyond the eight lowest-numbered goes to INDIRECT. -/
def Tu.traceRevoked (t : Tu) : Tu := (t.fullNow.drop 8).foldl (fun t i => t.traceSetMode i 1) t

/-- R145: a write of TS_INTERVAL_NS. -/
def Tu.wrTsInterval (t : Tu) (i v : Nat) : Tu × Nat :=
  if v = 0 ∨ (100 ≤ v ∧ v ≤ 1000000) then (t.setEnc i { t.enc i with tsInt := v }, 0) else (t, 0x25)

/-- TRACE_TS_INTERVAL_WRITE. -/
def execTraceTsIntervalWrite (dt : Nat) (p : Port) (lvl : Level) (src : Fin 73) (v : BitVec 32) (s : State) :
    Host.Outcome State Fault Refusal :=
  .next (onTu p dt (fun t => t.reply lvl 1 (t.wrTsInterval src.val v.toNat)) s)

/-! ### The window (R147, R439) -/

/-- R147: an accepted write empties the window; unread records are lost and every enabled source marks it. -/
def Tu.windowReset (t : Tu) : Tu :=
  let rs := t.win.recs
  let t := { t with win := { t.win with writePtr := 0, drainPtr := 0, recs := [] } }
  if rs.isEmpty then t
  else
    let t := rs.foldl (fun t w => t.lose 2 2 [w.r]) t
    (List.range 73).foldl (fun t i =>
      if (t.enc i).inForce = 0 then t
      else
        let mine := rs.filter fun w => w.src == i
        let n := sumBy (fun w => w.r.fld 192 16) mine
        let first := (mine.head?.map (·.r.ts64)).getD t.ts
        let last := (mine.getLast?.map (fun w => ts64Of w.last)).getD t.ts
        let t := t.traceBranch i t.ns
        t.setEnc i ((t.enc i).lose 3 n first last)) t

/-- R147: a write of WINDOW_BASE or WINDOW_SIZE. -/
def Tu.wrWindow (t : Tu) (isSize : Bool) (v : Nat) : Tu × Nat :=
  let bad := if isSize then !(List.range 11).any (fun k => v == 16777216 * 2 ^ k) else v % 2097152 != 0
  let idle := (List.range 73).all (fun i => (t.enc i).inForce == 0) && t.win.writePtr == t.win.drainPtr
  let a := lowestAbort [(bad, 0x25), (!(t.win.base == 0 || t.win.error || idle), 0x27)]
  if a ≠ 0 then (t, a)
  else
    let t := t.windowReset
    ({ t with win := if isSize then { t.win with size := v } else { t.win with base := v, error := false } }, 0)

/-- WINDOW_WRITE. -/
def execWindowWrite (dt : Nat) (p : Port) (lvl : Level) (isSize : Bool) (v : Word) (s : State) :
    Host.Outcome State Fault Refusal :=
  .next (onTu p dt (fun t => t.reply lvl 1 (t.wrWindow isSize v.toNat)) s)

/-- R147, R439: the NoC answers the oldest outstanding write, well or with an error. -/
def Tu.nocAnswer (t : Tu) (error : Bool) : Tu :=
  match t.win.noc with
  | [] => t
  | w :: rest =>
    if w.sent.isNone then t
    else
      let t := { t with win := { t.win with noc := rest, error := t.win.error || error } }
      let t := if error then t.log (event 0x0033 224 0 (w.ofs % 2 ^ 32)) else t
      let t := if w.last then
          let t := t.setEnc w.src { t.enc w.src with writing := (t.enc w.src).writing - 1 }
          if (t.enc w.src).live then t.traceDue w.src t.ns else t
        else t
      t.nocIssue

/-- NOC_M_RESPONSE. -/
def execNocMResponse (dt : Nat) (p : Port) (error : Bool) (s : State) : Host.Outcome State Fault Refusal :=
  .next (onTu p dt (fun t => t.nocAnswer error) s)

/-- R439: an answer missing 10 µs after its request counts as ERROR. -/
def Tu.nocTimeout (t : Tu) : Tu :=
  match t.win.noc.head?.bind (·.sent) with
  | some at' => if at' + 10000 * 65536 ≤ t.part.time.now then t.nocAnswer true else t
  | none => t

/-- NOC_RESPONSE_TIMEOUT. -/
def execNocResponseTimeout (dt : Nat) (p : Port) (s : State) : Host.Outcome State Fault Refusal :=
  .next (onTu p dt (fun t => t.nocTimeout) s)

/-! ### Last-events rings (R151 to R157, R171) -/

/-- Depth of a ring (R151). -/
def ringDepth (k : Nat) : Nat := if k < 72 then 256 else if k = 72 then 1024 else if k < 97 then 128 else 64

/-- UNIT of a ring (R151). -/
def ringUnit (k : Nat) : Nat := if k < 72 then k else if k = 72 then 128 else if k < 97 then 160 + (k - 73) else 192 + (k - 97)

/-- Event codes that a ring's tap may carry (R153). -/
def ringCodeOk (k c : Nat) : Bool :=
  if k < 72 then decide (1 ≤ c) && decide (c ≤ 0x0C)
  else if k = 72 then decide (0x20 ≤ c) && decide (c ≤ 0x29)
  else if k < 97 then decide (0x40 ≤ c) && decide (c ≤ 0x47)
  else decide (0x60 ≤ c) && decide (c ≤ 0x64)

/-- The entry of R152. -/
def ringEntry (ts code : Nat) (gap : Bool) (arg16 arg64 : Nat) : BitVec 128 :=
  BitVec.ofNat 128 (packNat [(ts, 40), (code, 7), (b2n gap, 1), (arg16, 16), (arg64, 64)])

/-- R151: an entry is written over the oldest when the ring is full. -/
def Tu.ringWrite (t : Tu) (k code arg16 arg64 : Nat) : Tu :=
  let r := t.ring k
  t.setRing k { r with
    ents := lastN (ringDepth k) (r.ents ++ [ringEntry t.ts code r.gap arg16 arg64])
    lastWr := some t.part.time.now
    gap := false
    gaps := if r.gap then min (r.gaps + 1) 0xFFFFFFFF else r.gaps }

/-- R171: a tracked block of a tile. -/
def Egress.is (e : Egress) (tile seq : Nat) : Bool := e.tile == tile && e.seq == seq

/-- R171: keep the last 16 block sequences of a tile and every block that a notice still names. -/
def Mace.pruneEgress (m : Mace) (tile : Nat) : Mace :=
  let mine := m.egress.filter fun e => e.tile == tile
  let keep := lastN 16 mine
  let named (e : Egress) : Bool :=
    m.windows.any (fun w => e.is w.t.tile w.t.blockSeq) || m.ranges.any (fun r => r.tile == e.tile && r.seqs.contains e.seq)
  { m with egress := m.egress.filter fun e => e.tile != tile || keep.contains e || named e }

/-- R171: TX_BEGIN (true) or TX_END of a block on fabric port `k`. -/
def Tu.egressBeat (t : Tu) (k tile seq : Nat) (begins : Bool) : Tu :=
  let m := t.mace
  let e := (m.egress.find? fun e => e.is tile seq).getD { tile := tile, seq := seq, first := none, last := none, open_ := 0, ports := 0 }
  let e := if begins then { e with first := some (e.first.getD t.ns), open_ := e.open_ + 1, ports := setBit e.ports k true }
    else { e with last := some t.ns, open_ := e.open_ - 1, ports := setBit e.ports k true }
  let known := m.egress.any fun e => e.is tile seq
  let m := { m with egress := if known then modFirst (fun x => x.is tile seq) (fun _ => e) m.egress else m.egress ++ [e] }
  { t with mace := m.pruneEgress tile }

/-- R154: a COMPLETION event: one descriptor fewer awaited; the progress timer restarts when the entry is written. -/
def Tu.completion (t : Tu) (written : Bool) : Tu :=
  { t with frz := { t.frz with awaiting := t.frz.awaiting - 1, progress := if written then t.ns else t.frz.progress } }

/-- R431: the ring's tap lost events before this point: the next entry carries GAP. -/
def Tu.ringGap (t : Tu) (k : Nat) : Tu := t.setRing k { t.ring k with gap := true }

/-- R151, R154: a ring's event is written, falls into the ring's write time (4 ns), or comes after the freeze. -/
def Tu.ringTake (t : Tu) (k : Nat) (b : RingBeat) : Tu × Bool :=
  let r := t.ring k
  if t.frz.frozen.isSome then (t.setRing k { r with post := min (r.post + 1) 0xFFFFFFFF }, false)
  else
    let busy := match r.lastWr with
      | some a => decide (a ≤ t.part.time.now) && decide (t.part.time.now < a + 4 * 65536)
      | none => false
    if busy then (t.ringGap k, false) else (t.ringWrite k b.code.toNat b.arg16.toNat b.arg64.toNat, true)

/-- A beat of a ring tap (R151 to R154, R171, R431). -/
def Tu.ringBeat (t : Tu) (k : Nat) (b : RingBeat) : Tu :=
  let c := b.code.toNat
  let t := if b.lost then t.ringGap k else t
  if !ringCodeOk k c then (t.counted 0x2380 5 1).ringGap k
  else
    let t := if 73 ≤ k ∧ k < 97 ∧ (c = 0x40 ∨ c = 0x41) then
        t.egressBeat (k - 73) b.arg16.toNat (b.arg64.toNat % 2 ^ 32) (c == 0x40) else t
    let x := t.ringTake k b
    let t := if c = 0x23 then x.1.completion x.2 else x.1
    if (c = 0x0B ∨ c = 0x29) ∧ x.2 = true ∧ t.part.flag 0x2770 9 = true then t.freezeRings 4 t.ns else t

/-- RING_EVENT_BEAT. -/
def execRingEventBeat (dt : Nat) (p : Port) (ring : Fin 101) (b : RingBeat) (s : State) : Host.Outcome State Fault Refusal :=
  .next (onTu p dt (fun t => t.ringBeat ring.val b) s)

/-- R152: a ring with no entry for 2^39 ns writes TICK. -/
def Tu.ringTick (t : Tu) (k : Nat) : Tu :=
  let r := t.ring k
  if t.frz.frozen.isNone && decide (r.lastWr.getD 0 + 2 ^ 39 * 65536 ≤ t.part.time.now) then t.ringWrite k 0x7F 0 0 else t

/-- RING_TICK. -/
def execRingTick (dt : Nat) (p : Port) (ring : Fin 101) (s : State) : Host.Outcome State Fault Refusal :=
  .next (onTu p dt (fun t => t.ringTick ring.val) s)

/-- DIE_WDT_RISE (R154). -/
def execDieWdtRise (dt : Nat) (p : Port) (s : State) : Host.Outcome State Fault Refusal :=
  .next (onTu p dt (fun t => if t.part.flag 0x2770 8 then t.freezeRings 1 t.ns else t) s)

/-- R154: a dispatched descriptor has waited for PROGRESS_TIMEOUT_US without a COMPLETION entry. -/
def Tu.progressTimeout (t : Tu) : Tu :=
  let us := t.rd 0x2770 6
  if us ≠ 0 ∧ 0 < t.frz.awaiting ∧ t.frz.progress + 1000 * us ≤ t.ns then t.freezeRings 2 t.ns else t

/-- PROGRESS_TIMEOUT. -/
def execProgressTimeout (dt : Nat) (p : Port) (s : State) : Host.Outcome State Fault Refusal :=
  .next (onTu p dt (fun t => t.progressTimeout) s)

/-- R154: a write of FREEZE. -/
def Tu.wrFreeze (t : Tu) (v : Nat) : Tu × Nat :=
  if 1 < v then (t, 0x26) else if v = 1 then (t.freezeRings 3 t.ns, 0) else (t, 0)

/-- FREEZE. -/
def execFreeze (dt : Nat) (p : Port) (lvl : Level) (v : Byte) (s : State) : Host.Outcome State Fault Refusal :=
  .next (onTu p dt (fun t => t.reply lvl 1 (t.wrFreeze v.toNat)) s)

/-- R155: the rings go on: each writes RESUME with its POST_FREEZE count; the progress timer starts anew. -/
def Tu.resumeRings (t : Tu) : Tu :=
  if t.frz.frozen.isNone then t
  else
    let t := (List.range 101).foldl (fun t k => t.ringWrite k 0x7D 0 (t.ring k).post) t
    { t with frz := { t.frz with frozen := none, readout := [], progress := t.ns } }

/-- R155: a write of RESUME. -/
def Tu.wrResume (t : Tu) (v : Nat) : Tu × Nat :=
  if 1 < v then (t, 0x26)
  else if v = 1 then
    (match t.frz.frozen with
     | some (c, _) => if c = 5 then t else t.resumeRings
     | none => t, 0)
  else (t, 0)

/-- RESUME. -/
def execResume (dt : Nat) (p : Port) (lvl : Level) (v : Byte) (s : State) : Host.Outcome State Fault Refusal :=
  .next (onTu p dt (fun t => t.reply lvl 1 (t.wrResume v.toNat)) s)

/-- R156: the chain of TR_LASTEV records of a frozen ring. -/
def Tu.ringChain (t : Tu) (k : Nat) : List Rec :=
  match t.frz.frozen with
  | none => []
  | some (cause, f) =>
    let r := t.ring k
    let es := r.ents.map (·.toNat)
    let n := max 1 (ceilDiv es.length 124)
    (List.range n).map fun part =>
      let mine := (es.drop (124 * part)).take 124
      let x := t.mkRec 0x06 (0x0500 + k) (ringUnit k) 0xFF t.ns
        (payload 3 [(cause, 8), (mine.length, 8), (part, 8), (0, 8), (ringDepth k, 16), (es.length, 16), (r.post, 32), (r.gaps, 32)] ++
          mine.flatMap fun e => natWords 2 e)
      let x := { x with ts64 := f, flags := baseFlags t.uncertain (t.nearCut f) }
      if part + 1 = n then x else x.setFlag 6

/-- R157: one ring is offered in this 1 µs period; a chain that is not admitted comes again after the last ring, three
times at most. -/
def Tu.readoutStep (t : Tu) : Tu :=
  match t.frz.readout with
  | [] => t
  | (k, n) :: rest =>
    let rs := t.ringChain k
    let x := t.charge 4 (40000 + 1500 * (t.ring k).ents.length) true
    let t := x.1
    if x.2 = 0 then
      let y := t.admitAll rs
      (({ y.1 with
          frz := { y.1.frz with readout := rest }
          exp := { y.1.exp with readout := y.1.exp.readout ++ y.2.map fun r => ({ r := r, act := 4 } : QRec) } }).internal 0x344
        rs.length).sumacFeed
    else
      let t := { t with frz := { t.frz with readout := if n < 2 then rest ++ [(k, n + 1)] else rest } }
      ((((t.lose 4 x.2 rs).bump 0x2770 0x0A 1).internal 0x344 rs.length).internal 0x34C rs.length)

/-- RING_READOUT_PERIOD. -/
def execRingReadoutPeriod (dt : Nat) (p : Port) (s : State) : Host.Outcome State Fault Refusal :=
  .next (onTu p dt (fun t => t.readoutStep) s)

end Sys2Proof.Machine
end

