-- ==== Sys2Proof/Machine/CutOps.lean ====
section
/-! DEFINITION. A Clove cut inside a TU: its TR_CUT records and the end of its snapshot (R235 to R237). -/

namespace Sys2Proof.Machine

/-- The payload of TR_CUT (R236): `n` words, the fields from bit 384 upward. -/
def cutPay (n kind cflags part cutId tf taken : Nat) (rest : List (Nat × Nat)) : List Word :=
  payload n ([(kind, 8), (cflags, 8), (part, 8), (0, 8), (cutId, 32), (ts64Of tf, 64), (ts64Of taken, 64)] ++ rest)

/-- A TR_CUT record of a TU (R236); `ns`: the time that its header carries. -/
def Tu.cutRec (t : Tu) (gslot ns n kind cflags part cutId tf taken : Nat) (rest : List (Nat × Nat)) : Rec :=
  t.mkRec 0x0D selfStream 224 gslot ns (cutPay n kind cflags part cutId tf taken rest)

/-- CFLAGS with bit `i` set (R236). -/
def cflag (f i : Nat) : Nat := setBit f i true

/-- The ring chains of a cut have been sent. -/
def CutSet.chainsSent (c : CutSet) : Bool := c.resume && decide (c.chains ≤ c.sent)

/-- R233 to R235: DONE is offered, with LATE where the cut was taken late, and the rings resume, unless another cut still sends their chains. -/
def Tu.cutDone (t : Tu) (c : CutSet) (cflags : Nat) : Tu :=
  let rest := t.cuts.filter fun x => x.cutId != c.cutId
  let u := { t.part.crcUnit 0x2810 with busy := !rest.isEmpty }
  let t := { t with cuts := rest, part := { t.part with crc := tset t.part.crc 0x2810 u } }
  let r := t.cutRec c.gslot t.ns 5 0x04 cflags 0 c.cutId c.tf c.taken [(c.sent, 32), (c.bytes, 32), (c.ringsId, 32)]
  let t := t.sendFree (if bitOf cflags 0 then r.setFlag 3 else r)
  if c.resume then
    match rest.find? fun x => decide (x.sent < x.chains) with
    | some x => { t with cuts := modFirst (fun y => y.cutId == x.cutId) (fun y => { y with resume := true }) rest }
    | none => t.resumeRings
  else t

/-- The content record that the SNAPSHOT requester offers next (R235): of the cut whose snapshot is being emitted. -/
def Tu.snapNext (t : Tu) : Option Rec := t.cuts.head?.bind fun c => c.todo.head?

/-- R235, R194: the next content record is built for a grant. -/
def Tu.snapTake (t : Tu) : Tu :=
  match t.cuts with
  | [] => t
  | c :: r => { t with cuts := { c with todo := c.todo.drop 1 } :: r }

/-- R235: a content record has been sent into its frame: the digest takes it in; after the last one comes DONE. -/
def Tu.snapSent (t : Tu) (r : Rec) : Tu :=
  let t := { t with part := t.part.crcTake 0x2810 (wordsBytes r.words) }
  match t.cuts with
  | [] => t
  | c :: rest =>
    let c := { c with sent := c.sent + 1, bytes := c.bytes + r.bytes }
    let t := { t with cuts := c :: rest }
    if c.todo.isEmpty then t.cutDone c c.cflags else t

end Sys2Proof.Machine
end

