-- ==== Sys2Proof/Machine/ExportOps.lean ====
section
/-! DEFINITION. The export path of a TU: frame builders, arbiter, shaper credit and gate lists (R197 to R207). -/

namespace Sys2Proof.Machine

/-! ### Frame builders (R197, R203) -/

/-- The shaper of a class; credit is 0 after reset (R203). -/
def Tu.shaper (t : Tu) (c : Nat) : Shaper := tget t.exp.shapers c { build := [], built := [], credit := 0, accrued := 0 }

/-- The TU with the shaper of a class replaced. -/
def Tu.setShaper (t : Tu) (c : Nat) (x : Shaper) : Tu := { t with exp := { t.exp with shapers := tset t.exp.shapers c x } }

/-- The unit that a requester offers next (R197). -/
def Tu.nextUnit (t : Tu) (r : Nat) : Option ExUnit :=
  if r = 7 then t.sumac.frags.head?.map fun f => .fragment f.1 f.2.1 f.2.2
  else if r = 6 then t.snapNext.map fun x => .record { r := x, act := 5 }
  else (t.queue r).head?.map .record

/-- Bytes of a unit. -/
def ExUnit.bytes (u : ExUnit) : Nat :=
  match u with
  | .record q => q.r.bytes
  | .fragment p _ _ => 8 * p.length

/-- The builder takes `n` more bytes into its frame (R203). -/
def Shaper.fits (x : Shaper) (n : Nat) : Bool := !x.build.isEmpty && decide (recsBytes x.build + n ≤ 4096)

/-- A unit needs a new frame: the builder is empty, or its frame closes because the unit does not fit. -/
def Shaper.opens (x : Shaper) (u : ExUnit) : Bool :=
  match u with
  | .record q => !x.fits q.r.bytes
  | .fragment _ _ _ => true

/-- R203: the class has room for the unit: its builder and two built frames. -/
def Shaper.room (x : Shaper) (u : ExUnit) : Bool :=
  match u with
  | .record q => x.fits q.r.bytes || x.build.isEmpty || decide (x.built.length < 2)
  | .fragment _ _ _ => decide (x.built.length < 3)

/-- The builder closes its frame. -/
def Shaper.close (x : Shaper) : Shaper :=
  if x.build.isEmpty then x
  else
    { x with build := [], built := x.built ++ [{ payload := x.build.flatMap Rec.words, records := x.build.length, sumac := false,
                                                 first := false, last := false }] }

/-- R203: a record enters the builder; a frame that is full closes when there is a place for it. -/
def Shaper.put (x : Shaper) (r : Rec) : Shaper :=
  let x := if x.fits r.bytes then x else x.close
  let x := { x with build := x.build ++ [r] }
  if 4096 ≤ recsBytes x.build ∧ x.built.length < 2 then x.close else x

/-- A fragment makes a frame of its own (R68); `n`: records that a first fragment stands for. -/
def Shaper.putFragment (x : Shaper) (p : List Word) (first last : Bool) (n : Nat) : Shaper :=
  { x with built := x.built ++ [{ payload := p, records := n, sumac := true, first := first, last := last }] }

/-! ### The arbiter (R198) -/

/-- WEIGHT of a requester (R198). -/
def Tu.weight (t : Tu) (r : Nat) : Nat := t.rd 0x2A10 (r + 1)

/-- Credit of a requester. -/
def Tu.arbCredit (t : Tu) (r : Nat) : Int := tget t.exp.credit r 0

/-- Requesters that have a unit and room for it (R197). -/
def Tu.asking (t : Tu) : List (Nat × ExUnit) :=
  (List.range 8).filterMap fun r =>
    match t.nextUnit r with
    | some u => if (t.shaper r).room u then some (r, u) else none
    | none => none

/-- A frame of classes 2 to 7 that is opened costs EXPORT 40 ns (R192). -/
def Tu.opening (t : Tu) (r : Nat) (u : ExUnit) : Bool := decide (2 ≤ r) && (t.shaper r).opens u

/-- The unit leaves its requester's queue. -/
def Tu.takeUnit (t : Tu) (r : Nat) : Tu :=
  if r = 7 then { t with sumac := { t.sumac with frags := t.sumac.frags.drop 1 } }
  else if r = 6 then t.snapTake
  else { t with exp := { t.exp with queues := tset t.exp.queues r ((t.queue r).drop 1) } }

/-- R198: requester `r` is granted the path for one unit. -/
def Tu.grantTo (t : Tu) (r : Nat) (u : ExUnit) : Tu :=
  let t := t.takeUnit r
  let x : Tu × ExUnit :=
    match r, u with
    | 6, .record q =>
      let a := t.part.admitRec q.r
      ({ t with part := a.1 }, .record { q with r := a.2 })
    | _, _ => (t, u)
  let t := x.1
  let e := t.exp
  { t with exp := { e with
      credit := if r < 2 then e.credit else tset e.credit r (max (t.arbCredit r - x.2.bytes) (-65536))
      waiting := tset e.waiting r 0
      grant := some { req := r, since := t.part.time.now, unit := x.2 } } }

/-- Of the requesters 2 to 7 that ask, the one with the largest credit, the lower on a tie. -/
def Tu.richest (t : Tu) (l : List (Nat × ExUnit)) : Option (Nat × ExUnit) :=
  l.foldl (fun m x =>
    match m with
    | none => some x
    | some y => if t.arbCredit y.1 < t.arbCredit x.1 then some x else m) none

/-- R198, R449: while the path is free it is granted. A frame that EXPORT has no room for is not opened. -/
def Tu.arbitrate (t : Tu) : Tu :=
  if t.exp.grant.isSome || t.exp.dbgPort.isSome then t
  else
    let want := t.asking
    match want.find? fun x => decide (x.1 < 2) with
    | some x => t.grantTo x.1 x.2
    | none =>
      let c := t.charge 6 40000 true
      let open_ := want.any fun x => t.opening x.1 x.2
      let ok := if c.2 = 0 then want else want.filter fun x => !t.opening x.1 x.2
      match t.richest ok with
      | none => if open_ && c.2 != 0 then c.1 else t
      | some x =>
        if t.opening x.1 x.2 then c.1.grantTo x.1 x.2
        else (if open_ && c.2 != 0 then c.1 else t).grantTo x.1 x.2

/-- R197, R203, R235: a unit has crossed the path into its frame builder. -/
def Tu.deliver (t : Tu) (r : Nat) (u : ExUnit) : Tu :=
  match u with
  | .record q =>
    let t := t.setShaper r ((t.shaper r).put q.r)
    if r = 6 then t.snapSent q.r else t
  | .fragment p f l =>
    let n := if f then (t.sumac.sending.headD []).length else 0
    let t := t.setShaper r ((t.shaper r).putFragment p f l n)
    if l then { t with sumac := { t.sumac with sending := t.sumac.sending.drop 1 } } else t

/-- R198: the granted unit has finished; the path is granted anew. -/
def Tu.unitDone (t : Tu) : Tu :=
  if t.exp.dbgPort.isSome then t
  else
    let t := t.arbitrate
    match t.exp.grant with
    | none => t
    | some g => (({ t with exp := { t.exp with grant := none } }).deliver g.req g.unit).arbitrate

/-- R201: a Clove cut takes the path: what waits at CONTROL goes into its frame before the unit in transfer, which is then
sent whole (log 36). -/
def Tu.cutPreempt (t : Tu) : Tu :=
  if t.exp.grant.isSome && t.exp.dbgPort.isNone then
    (t.queue 0).foldl (fun t q => t.setShaper 0 ((t.shaper 0).put q.r))
      { t with exp := { t.exp with queues := tset t.exp.queues 0 [] } }
  else t.arbitrate

/-! ### Shaper credit (R203, R204) -/

/-- SLOPE and BURST of a class (R202). -/
def Tu.slope (t : Tu) (c : Nat) : Nat := t.rd (0x2A20 + c) 1

/-- BURST of a class in bytes. -/
def Tu.burst (t : Tu) (c : Nat) : Nat := t.rd (0x2A20 + c) 2

/-- R203: credit that a class has gathered by now. -/
def Tu.credit (t : Tu) (c : Nat) : Int :=
  let x := t.shaper c
  min (x.credit + (t.slope c * (t.ns - x.accrued) : Nat)) (1000 * t.burst c : Nat)

/-- The credit of a class is brought up to date. -/
def Tu.accrue (t : Tu) (c : Nat) : Tu := t.setShaper c { t.shaper c with credit := t.credit c, accrued := t.ns }

/-- R204: the charged length of a frame. -/
def Tu.charged (t : Tu) (payload : List Word) : Nat := 12 + 8 * payload.length + t.rd 0x2A30 1

/-! ### Gate lists (R206, R207) -/

/-- Entries of GATE_ADMIN from byte `ofs`. -/
def gateEntries (bs : List Byte) : Nat → Nat → List (Nat × Nat)
  | 0, _ => []
  | n + 1, ofs => (fieldAt bs ofs 4, fieldAt bs (ofs + 4) 1) :: gateEntries bs n (ofs + 8)

/-- The list that GATE_ADMIN spells. -/
def gateOf (bs : List Byte) : GateList :=
  { cycle := fieldAt bs 0 4, phase := fieldAt bs 4 4, entries := gateEntries bs (fieldAt bs 8 1) 16, entry := 0, raw := bs }

/-- R206: abort code of a GATE_ADMIN value. -/
def gateCode (bs : List Byte) : Nat :=
  let g := gateOf bs
  let n := fieldAt bs 8 1
  lowestAbort [(decide (bs.length < 16) || bs.length != 16 + 8 * n, 0x24),
    (decide (g.cycle < 1000) || decide (1000000000 < g.cycle) || decide (g.cycle ≤ g.phase) || n == 0 ||
      decide (64 < n) || (g.entries.any fun e => e.1 % 10 != 0 || decide (e.1 < 100) || e.2 % 4 != 3) ||
      sumBy (·.1) g.entries != g.cycle, 0x25)]

/-- Position in the cycle at an instant in ns. -/
def GateList.pos (g : GateList) (ns : Nat) : Nat := (((ts64Of ns : Int) - g.phase) % g.cycle).toNat

/-- The entry that runs at position `x`, counted from entry `i`. -/
def gateEntryAt : List (Nat × Nat) → Nat → Nat → Nat
  | [], _, i => i - 1
  | e :: r, x, i => if x < e.1 then i else gateEntryAt r (x - e.1) (i + 1)

/-- The entry of the list that runs at an instant. -/
def GateList.at' (g : GateList) (ns : Nat) : Nat := gateEntryAt g.entries (g.pos ns) 0

/-- MASK of an entry. -/
def GateList.mask (g : GateList) (i : Nat) : Nat := (g.entries.getD i (0, 255)).2

/-- The pending gate-list order of the TU, with its list. -/
def Tu.gatePending (t : Tu) : Option (Order × GateList) :=
  (t.part.order? .gateList 0).map fun o => (o, gateOf o.data)

/-- R206: the gate of class `c` is open at an instant under the list in force or a pending one that takes over by then. -/
def Tu.gateOpenAt (t : Tu) (c ns : Nat) : Bool :=
  let g := match t.gatePending with
    | some (o, g) => if o.eff ≤ ns then some g else t.exp.gate
    | none => t.exp.gate
  match g with
  | none => true
  | some g => g.entries.isEmpty || bitOf (g.mask (g.at' ns)) c

/-- R206: the gate of class `c` is open now and stays open until a frame of `bytes` has ended at the link's rate of
24.5 bytes per ns. -/
def Tu.gateOpen (t : Tu) (c bytes : Nat) : Bool :=
  let last := (t.part.time.now + ceilDiv (bytes * 131072) 49) / 65536
  (match t.exp.gate with
   | none => true
   | some g => g.entries.isEmpty || bitOf (g.mask g.entry) c) &&
  (List.range (last - t.ns + 1)).all fun k => t.gateOpenAt c (t.ns + k)

/-- GATE_STATUS (R214). -/
def Tu.gateStatus (t : Tu) : Nat :=
  match t.exp.gate with
  | none => packNat [(0, 17), (b2n t.gatePending.isSome, 1)]
  | some g => packNat [(g.mask g.entry, 8), (g.entry, 8), (b2n (!g.entries.isEmpty), 1), (b2n t.gatePending.isSome, 1)]

end Sys2Proof.Machine
end

