-- ==== Sys2Proof/Machine/Mace.lean ====
section
/-! DEFINITION. Mace in the TU (07_mace.md): check records, verdicts, taint notices, the die's watermark, gating, replay,
signatures and shadow records. -/

namespace Sys2Proof.Machine

/-! ### Check records (R160, R161) -/

/-- A field of a check record. -/
def Chk.fld (c : Chk) (lo len : Nat) : Nat := bitsOf (wordsNat c.words) lo len

/-- BLOCK_SEQ. -/
def Chk.seq (c : Chk) : Nat := c.fld 0 32

/-- IN_FMT. -/
def Chk.fmt (c : Chk) : Nat := c.fld 32 4

/-- SATURATED. -/
def Chk.saturated (c : Chk) : Bool := c.fld 37 1 == 1

/-- REPLAY. -/
def Chk.replay (c : Chk) : Bool := c.fld 38 1 == 1

/-- K. -/
def Chk.k (c : Chk) : Nat := c.fld 40 20

/-- R162: a malformed record. -/
def Chk.malformed (c : Chk) : Bool :=
  decide (9 ≤ c.fmt) || c.k == 0 || c.fld 64 16 == 0 || c.fld 80 16 == 0 || c.fld 39 1 != 0 || c.fld 60 4 != 0 ||
    c.fld 160 96 != 0 || c.desc.isNone || c.words.length != 24

/-- The descriptor that ran the block; all zeros where none is held. -/
def Chk.descId (c : Chk) : DescId := c.desc.getD { graph := 0, ver := 0, node := 0, launch := 0 }

/-- R162: the descriptor of a tile with this bank tag. -/
def UnitDesc.named (d : UnitDesc) (tag : Bool) : Option DescId :=
  match d.cur, d.prev with
  | some c, p => if c.2.2 = tag then some c.1 else (match p with
    | some x => if x.2 = tag then some x.1 else none
    | none => none)
  | none, some x => if x.2 = tag then some x.1 else none
  | none, none => none

/-! ### Comparison (R163, R164) -/

/-- One fold as compared: skipped as AGREE or OVERFLOW, a mismatch of non-finite values, residual, tolerance and ratio as
FP64 patterns. -/
structure Fold where
  agree : Bool
  exceeds  : Bool
  miss  : Bool
  d     : Nat
  tau   : Nat
  q     : Nat
deriving DecidableEq, Repr

/-- A fold is checked when it is not skipped. -/
def Fold.checked (f : Fold) : Bool := !f.agree && !f.exceeds

/-- Class of an FP32 pattern: finite, +Inf, -Inf or NaN. -/
def f32Class (b : Nat) : Nat :=
  match fp32.decode b with
  | .nan => 3
  | .inf neg => if neg then 2 else 1
  | .fin _ _ _ => 0

/-- g of R163 as FP64: √K, or K in LINEAR mode. -/
def tolG (linear : Bool) (k : Nat) : Nat := if linear then fp64.ofNat k else fp64.sqrt (fp64.ofNat k)

/-- The tolerance of a fold (R163); `scale`, `g`: FP64 patterns, `absum`: BF16. -/
def tolerance (fmt scale g k absum : Nat) : Nat :=
  let a := fp64.ofNat (if fmt = 0 then 4 else if fmt = 8 then 0 else 2)
  let b := fp64.ofNat (if fmt = 8 then 4 else 8)
  let z := if fmt = 8 then 0 else 0x3810000000000000
  let s := fp64.mul (conv bf16 fp64 .even absum) 0x3E70000000000000
  fp64.mul scale (fp64.add (fp64.mul s (fp64.add (fp64.mul a g) b)) (fp64.mul z (fp64.ofNat k)))

/-- The ratio q of R163. -/
def ratioQ (d tau : Nat) : Nat :=
  if fp64.abs tau = 0 then (if fp64.abs d = 0 then 0 else fp64.infBits false) else fp64.div (fp64.abs d) tau

/-- Fold `f` of a record. -/
def Chk.fold (c : Chk) (scale g f : Nat) : Fold :=
  let pred := c.fld (256 + 80 * f) 32
  let obs := c.fld (256 + 80 * f + 32) 32
  let ab := c.fld (256 + 80 * f + 64) 16
  let d := fp64.sub (conv fp32 fp64 .even obs) (conv fp32 fp64 .even pred)
  let tau := tolerance c.fmt scale g c.k ab
  let cp := f32Class pred
  let co := f32Class obs
  if cp ≠ 0 ∨ co ≠ 0 then
    { agree := cp == co, exceeds := false, miss := cp != co, d := d, tau := tau, q := fp64.infBits false }
  else if !bf16.isFin ab then { agree := false, exceeds := true, miss := false, d := d, tau := tau, q := 0 }
  else { agree := false, exceeds := false, miss := false, d := d, tau := tau, q := ratioQ d tau }

/-- The 16 folds of a record under the TU's settings. -/
def Tu.folds (t : Tu) (c : Chk) : List Fold :=
  let scale := conv fp32 fp64 .even (t.rd 0x2901 (c.fmt + 1))
  let g := tolG (t.rd 0x2900 2 == 1) c.k
  (List.range 16).map (c.fold scale g)

/-- 1.0 as FP64. -/
def f64One : Nat := 0x3FF0000000000000

/-- A checked fold with q above 1. -/
def Fold.fails (f : Fold) : Bool := f.checked && fp64.lt f64One f.q

/-- The checked fold with the largest q among positions `lo` to `lo + 7`, the lowest on a tie. -/
def largestQ (fs : List Fold) (lo : Nat) : Option (Nat × Fold) :=
  (((fs.zipIdx.drop lo).take 8).map fun x => (x.2 - lo, x.1)).foldl (fun m x =>
    if !x.2.checked then m
    else
      match m with
      | none => some x
      | some y => if fp64.lt y.2.q x.2.q then some x else m) none

/-- The largest q over all checked folds. -/
def maxQ (fs : List Fold) : Nat :=
  fs.foldl (fun m f => if f.checked && fp64.lt m f.q then f.q else m) 0

/-- Verdicts (R164). -/
inductive Verdict where
  | pass
  | fail
  | suspect
  | nonfinite
  | unchecked
deriving DecidableEq, Repr

/-- The verdict that the folds give (R164). -/
def foldVerdict (fs : List Fold) : Verdict :=
  let rows := fs.take 8
  let cols := fs.drop 8
  let r := rows.any Fold.fails
  let c := cols.any Fold.fails
  if !rows.any Fold.checked || !cols.any Fold.checked then .unchecked
  else if r && c then .fail
  else if r || c then .suspect
  else if fs.any (·.agree) then .nonfinite
  else .pass

/-- R164: a FAIL is located. -/
def located (fs : List Fold) : Bool :=
  let rs := (fs.take 8).filter Fold.fails
  let cs := (fs.drop 8).filter Fold.fails
  match rs, cs with
  | [r], [c] => fp64.le (fp64.abs (fp64.sub r.d c.d)) (fp64.add r.tau c.tau)
  | _, _ => false

/-! ### Residual statistics (R168) -/

/-- Statistics of a tile that has seen nothing. -/
def Hist.zero : Hist :=
  { blocks := 0, fails := 0, suspects := 0, nonfinite := 0, unchecked := 0, sumSigned := 0, sumSq := 0, bins := [] }

/-- The bin of qb. -/
def histBin (qb : Nat) : Nat :=
  if qb = 0 then 0 else if !fp64.isFin qb then 31 else (max 1 (min 31 (fp64.ilog qb + 24))).toNat

/-- d / τ of R168; where the quotient is not finite (τ = 0, or folds that differ in class) the spec states no value. -/
def quotient (d tau : Nat) : Nat :=
  let x := fp64.div d tau
  if fp64.isFin x then x else Config.openQuotient d tau

/-- The mean s of R168, in fold order. -/
def meanS (fs : List Fold) : Nat :=
  let cs := fs.filter Fold.checked
  fp64.div (cs.foldl (fun s f => fp64.add s (quotient f.d f.tau)) 0) (fp64.ofNat cs.length)

/-- R168: one compared block. -/
def Hist.add (h : Hist) (fs : List Fold) (v : Verdict) : Hist :=
  let s := meanS fs
  { h with
    blocks := h.blocks + 1
    fails := h.fails + b2n (v == .fail)
    suspects := h.suspects + b2n (v == .suspect)
    nonfinite := h.nonfinite + b2n (v == .nonfinite)
    sumSigned := BitVec.ofNat 64 (fp64.add h.sumSigned.toNat s)
    sumSq := BitVec.ofNat 64 (fp64.add h.sumSq.toNat (fp64.mul s s))
    bins := tmod h.bins (histBin (maxQ fs)) 0 (· + 1) }

/-- The HIST record from bit 192 (R168). -/
def Hist.words (h : Hist) : List Word :=
  payload 21 ([(2, 8), (0, 24), (h.blocks, 32), (h.fails, 32), (min h.suspects 65535, 16), (min h.nonfinite 65535, 16),
    (h.unchecked, 32), (0, 32), (h.sumSigned.toNat, 64), (h.sumSq.toNat, 64)] ++
    (List.range 32).map fun b => (min (tget h.bins b 0) 0xFFFFFFFF, 32))

/-- The TU with a tile's statistics changed. -/
def Tu.modHist (t : Tu) (tile : Nat) (f : Hist → Hist) : Tu :=
  { t with mace := { t.mace with hist := tmod t.mace.hist tile .zero f } }

/-! ### Lanes (R165, R166) -/

/-- A compare lane; lane 8 is the spare. -/
def Mace.lane (m : Mace) (k : Nat) : MLane := tget m.lanes k { inService := decide (k < 8), retired := false, held := none }

/-- Mace with a lane replaced. -/
def Mace.setLane (m : Mace) (k : Nat) (l : MLane) : Mace := { m with lanes := tset m.lanes k l }

/-- Lanes in service. -/
def Mace.inService (m : Mace) : Nat := ((List.range 9).filter fun k => (m.lane k).inService).length

/-- LANE_MAP (R166). -/
def Mace.laneMap (m : Mace) : Nat := (List.range 9).foldl (fun n k => if (m.lane k).inService then setBit n k true else n) 0

/-- Free lanes take waiting records. -/
def Mace.fill (m : Mace) : Mace :=
  (List.range 9).foldl (fun m k =>
    match m.intake with
    | [] => m
    | c :: r =>
      if (m.lane k).inService && (m.lane k).held.isNone then
        { m.setLane k { m.lane k with held := some c } with intake := r }
      else m) m

/-- R166, R24: the spare enters service once the intake queue is empty, and the swap is logged. -/
def Tu.maceSpare (t : Tu) : Tu :=
  let m := t.mace
  if m.intake.isEmpty && decide (m.inService < 8) then
    match (List.range 9).find? fun k => !(m.lane k).inService && !(m.lane k).retired with
    | some k => (({ t with mace := m.setLane k { m.lane k with inService := true } }).bump 0x2D00 5 1).log (event 0x0010 224 224 224)
    | none => t
  else t

/-- Lanes take what waits; then the spare may enter. -/
def Tu.maceFill (t : Tu) : Tu := ({ t with mace := t.mace.fill }).maceSpare

/-! ### Verdict gating (R181) -/

/-- R181: the answer to the fabric ports for a gated block. -/
def Tu.gateAnswer (t : Tu) (c : Chk) (refuse : Bool) : Tu :=
  if !c.gated then t
  else
    let t := t.emit (.gateRel c.tile c.seq refuse)
    let t := t.bump 0x2930 (if refuse then 3 else 2) 1
    t.wr 0x2930 4 (min 0xFFFFFFFF (max (t.rd 0x2930 4) (t.ns - c.tc)))

/-! ### TR_VERDICT (R167) -/

/-- Offer a TR_VERDICT: activity MACE, requester 5. -/
def Tu.verdictRec (t : Tu) (tile gslot ns : Nat) (pay : List Word) : Tu :=
  (t.offer 3 5 Config.verdictCost [t.mkRec 0x07 (0x0600 + tile) tile gslot ns pay]).1

/-! ### Taint notices (R169 to R173) -/

/-- TR_TAINT from bit 192 (R170). -/
def Taint.pay (x : Taint) : List Word :=
  payload 13 [(x.kind, 8), (x.cause, 8), (x.foldR, 4), (x.foldC, 4), (x.tflags, 8), (x.blockSeq, 32), (x.desc.graph, 32),
    (x.desc.ver, 16), (x.desc.node, 16), (x.desc.launch, 64), (ts64Of x.tc, 64), (ts64Of x.verdict, 64),
    (ts64Of x.egFirst, 64), (ts64Of x.egLast, 64), (x.ports, 24), (x.fmt, 4), (0, 4), (x.serial, 32), (x.residR, 32),
    (x.tolR, 32), (x.residC, 32), (x.tolC, 32), (x.brow, 16), (x.bcol, 16), (x.k, 20), (0, 12), (x.lastSeq, 32),
    (x.nblocks, 32), (ts64Of x.lastTc, 64)]

/-- Egress of blocks of a tile as known now: first TX_BEGIN, last TX_END up to `until'`, still in flight, ports (R171). -/
structure Window' where
  first : Option Nat
  last  : Nat
  busy  : Bool
  ports : Nat
deriving DecidableEq, Repr

/-- R171, R172: the egress window of blocks `seqs` of a tile. -/
def Mace.window (m : Mace) (tile : Nat) (seqs : List Nat) (until' : Option Nat) : Window' :=
  (m.egress.filter fun e => e.tile == tile && seqs.contains e.seq).foldl (fun w e =>
    { first := match w.first, e.first with
        | some a, some b => some (min a b)
        | none, x => x
        | x, none => x
      last := match e.last with
        | some x => if (until'.map fun u => decide (x ≤ u)).getD true then max w.last x else w.last
        | none => w.last
      busy := w.busy || decide (0 < e.open_)
      ports := w.ports ||| e.ports }) { first := none, last := 0, busy := false, ports := 0 }

/-- A notice with its window filled in; TFLAGS bits 0 EGRESS_OPEN and 1 EGRESS_NONE. -/
def Taint.withWindow (x : Taint) (w : Window') (open_ : Bool) : Taint :=
  match w.first with
  | none => { x with egFirst := 0, egLast := 0, ports := 0, tflags := setBit (setBit x.tflags 0 false) 1 true }
  | some a =>
    { x with egFirst := a, egLast := if open_ then 0 else w.last, ports := w.ports,
             tflags := setBit (setBit x.tflags 0 open_) 1 false }

/-- Offer one notice of the taint queue on the reserve (R169, R195); once admitted it leaves the queue, enters the history
(R173) and no longer holds W (R174). -/
def Tu.offerTaint (t : Tu) (x : Taint) : Tu :=
  let r := t.mkRec 0x08 0x0680 x.tile x.gslot x.tc x.pay
  let o := t.offer 8 1 30000 [r]
  let t := o.1
  if o.2 then
    let adm := ((t.queue 1).getLast?.map (·.r)).getD r
    { t with mace := { t.mace with
        queue := t.mace.queue.filter (· != x)
        history := lastN 64 (t.mace.history ++ [adm])
        failHeld := if x.kind = 2 then t.mace.failHeld else t.mace.failHeld.filter fun h => h.1 != x.serial } }
  else t

/-- A notice with a serial enters the taint queue and is offered; BLOCK and RANGE also go to die firmware (R173). -/
def Tu.raiseTaint (t : Tu) (x : Taint) : Tu :=
  let t := { t with mace := { t.mace with queue := t.mace.queue ++ [x] } }
  let t := t.offerTaint x
  if x.kind = 2 then t else (t.sendMsg (t.rd 0x2900 9) (wordsBytes (x.pay.take 8))).1

/-- The taint queue is full (R172). -/
def Mace.taintFull (m : Mace) : Bool := decide (64 ≤ m.queue.length)

/-- R172: a FAIL without a notice of its own joins its tile's range. -/
def Mace.joinRange (m : Mace) (x : Taint) : Mace :=
  match m.ranges.find? fun r => r.tile == x.tile with
  | some r =>
    let r' : RangeAcc := { r with
      t := { r.t with lastSeq := x.blockSeq, lastTc := x.tc, nblocks := r.t.nblocks + 1, verdict := x.verdict }
      seqs := r.seqs ++ [x.blockSeq], last := x.verdict }
    { m with ranges := modFirst (fun y => y.tile == x.tile) (fun _ => r') m.ranges }
  | none => { m with ranges := m.ranges ++ [({ tile := x.tile, t := { x with kind := 3 }, seqs := [x.blockSeq], last := x.verdict } : RangeAcc)] }

/-- The notice of a FAIL or of a tainted SUSPECT, without its serial (R170). -/
def Tu.taintOf (t : Tu) (c : Chk) (fs : List Fold) (suspect sigLost : Bool) : Taint :=
  let r := largestQ fs 0
  let k := largestQ fs 8
  let miss := (r.map (·.2.miss)).getD false || (k.map (·.2.miss)).getD false
  let f32 (x : Option Nat) : Nat := (x.map (conv fp64 fp32 .even)).getD 0
  let base : Taint :=
    { kind := 1, cause := if suspect then 3 else if miss then 2 else 1, tile := c.tile,
      foldR := (r.map (·.1)).getD 0xF, foldC := (k.map (·.1)).getD 0xF,
      tflags := packNat [(0, 1), (0, 1), (b2n (c.gated && !suspect), 1), (b2n (!suspect && located fs), 1), (b2n sigLost, 1),
        (b2n c.lateChk, 1)],
      blockSeq := c.seq, desc := c.descId, gslot := t.graphGroup c.descId.graph, tc := c.tc, verdict := t.ns, egFirst := 0,
      egLast := 0, ports := 0, fmt := c.fmt, serial := 0, residR := f32 (r.map (·.2.d)), tolR := f32 (r.map (·.2.tau)),
      residC := f32 (k.map (·.2.d)), tolC := f32 (k.map (·.2.tau)), brow := c.fld 96 16, bcol := c.fld 112 16, k := c.k,
      lastSeq := c.seq, nblocks := 1, lastTc := c.tc }
  let w := t.mace.window c.tile [c.seq] none
  if c.gated && !suspect then base.withWindow { first := none, last := 0, busy := false, ports := 0 } false
  else base.withWindow w w.busy

/-- R169, R172: a FAIL (or tainted SUSPECT) gets a BLOCK notice, or joins a range while the queue is full; answers the
serial, 0 without one. -/
def Tu.taintBlock (t : Tu) (x : Taint) (holds : Bool) : Tu × Nat :=
  let m := t.mace
  if m.taintFull then
    ({ t with mace := { m.joinRange x with
        failHeld := if holds then m.failHeld ++ [(0, x.tile, x.tc)] else m.failHeld } }, 0)
  else
    let n := m.serial + 1
    let x := { x with serial := n }
    let due := t.ns + 1000 * t.rd 0x2900 6
    let t := { t with mace := { m with
      serial := n
      windows := m.windows ++ [({ t := x, due := due } : OpenWin)]
      failHeld := if holds then m.failHeld ++ [(n, x.tile, x.tc)] else m.failHeld } }
    (t.raiseTaint x, n)

/-! ### Replay (R182, R183) -/

/-- The REPLAY record (R183); +∞ stands for a q that none has given. -/
def Tu.replayRec (t : Tu) (r : Replay) (outcome reason : Nat) : Tu :=
  let inf := fp32.infBits false
  let tile := (r.spare.map (·.1)).getD 0xFF
  let qs := (r.spare.map (·.2.2)).getD inf
  let qo := (r.origin.map (·.2)).getD inf
  (t.verdictRec r.tile r.gslot t.ns
    (payload 5 [(3, 8), (outcome, 4), (reason, 4), (tile, 8), (0, 8), (r.serial, 32), (r.seq, 32), (r.ref, 32), (qs, 32), (qo, 32),
      (r.launch, 64), (ts64Of r.at64, 64)])).bump 0x2910 (8 + outcome) 1

/-- The outcome once the replays that matter have arrived (R183). -/
def Replay.outcome (r : Replay) : Option Nat :=
  match r.spare, r.origin with
  | some (_, false, _), _ => some 3
  | some (_, true, _), some (true, _) => some 1
  | some (_, true, _), some (false, _) => some 2
  | some (_, true, _), none => if r.mode = 1 then some 4 else none
  | none, _ => none

/-- A request ends with an outcome. -/
def Tu.replayEnd (t : Tu) (r : Replay) (outcome reason : Nat) : Tu :=
  ({ t with mace := { t.mace with replays := t.mace.replays.filter fun x => x.ref != r.ref } }).replayRec r outcome reason

/-- R182: at a FAIL die firmware is asked for a replay. -/
def Tu.replayAsk (t : Tu) (c : Chk) (serial : Nat) : Tu :=
  let mode := t.rd 0x2900 4
  if mode = 0 then t
  else
    let m := t.mace
    let r : Replay :=
      { ref := m.nextRef, tile := c.tile, mode := mode, accepted := false, seq := c.seq, launch := c.descId.launch,
        serial := serial, gslot := t.graphGroup c.descId.graph, at64 := t.ns, spare := none, origin := none }
    let t := { t with mace := { m with nextRef := (m.nextRef + 1) % 2 ^ 32 } }
    if m.replays.any (fun x => x.tile == c.tile) || decide (4 ≤ m.replays.length) then t.replayRec r 5 2
    else
      let t := { t with mace := { t.mace with replays := t.mace.replays ++ [r] } }
      let d := c.descId
      let body := leBytes 36 (packNat [(0x51, 8), (c.tile, 8), (mode, 8), (0, 8), (r.ref, 32), (c.seq, 32), (d.graph, 32),
        (d.node, 16), (c.fld 96 16, 16), (c.fld 112 16, 16), (0, 16), (d.launch, 64), (serial, 32)])
      ((t.bump 0x2910 8 1).sendMsg (t.rd 0x2900 9) body).1

/-- R182, R183: the verdict of a replayed block reaches its request. -/
def Tu.replayVerdict (t : Tu) (c : Chk) (fs : List Fold) (v : Verdict) : Tu :=
  match t.mace.replays.find? fun r => r.ref == c.fld 128 32 && r.accepted with
  | none => t
  | some r =>
    if v = .pass ∨ v = .nonfinite ∨ v = .fail then
      let q := conv fp64 fp32 .even (maxQ fs)
      let ok := v != .fail
      let r := if c.tile = r.tile then { r with origin := some (ok, q) } else { r with spare := some (c.tile, ok, q) }
      let t := { t with mace := { t.mace with replays := modFirst (fun x => x.ref == r.ref) (fun _ => r) t.mace.replays } }
      match r.outcome with
      | some o => t.replayEnd r o 0
      | none => t
    else t

/-! ### Signature and shadow records (R184 to R186) -/

/-- The SIGNATURE record of a FAIL (R184). -/
def Tu.signature (t : Tu) (c : Chk) (x : Taint) (serial : Nat) (sig : Option TileSig) : Tu :=
  let s := sig.getD { fpRow := 0, fpCol := 0, expRow := [], expCol := [] }
  let bins (l : List (BitVec 16)) : List (Nat × Nat) := (List.range 16).map fun i => ((l.getD i 0).toNat, 16)
  let t := if sig.isNone then t.bump 0x2910 0x0E 1 else t
  t.verdictRec c.tile x.gslot t.ns
    (payload 11 ([(4, 8), (x.foldR, 4), (x.foldC, 4), (c.fmt, 4), (b2n sig.isNone, 1), (0, 11), (serial, 32), (s.fpRow.toNat, 32),
      (s.fpCol.toNat, 32)] ++ bins s.expRow ++ bins s.expCol ++ [(c.k, 20), (0, 12), (c.fld 96 16, 16), (c.fld 112 16, 16)]))

/-- The SHADOW record of a compared block (R185, R186). -/
def Tu.shadowRec (t : Tu) (c : Chk) (fs : List Fold) : Tu :=
  if !t.part.flag 0x2940 1 then t
  else
    let d := c.descId
    t.verdictRec c.tile (t.graphGroup d.graph) t.ns
      (payload 15 ([(5, 8), (c.fmt, 4), (0, 4), (c.fld 96 16, 16), (c.fld 112 16, 16), (d.node, 16), (d.graph, 32), (c.ordinal, 32),
        (t.rd 0x2940 2, 32), (conv fp64 fp32 .even (maxQ fs), 32)] ++
        (List.range 16).map (fun f => (c.fld (256 + 80 * f + 32) 32, 32)) ++
        fs.map fun f => (conv fp64 bf16 .up f.tau, 16)))

/-! ### Verdicts (R164 to R168) -/

/-- Subindex of VERDICT_COUNTS (R188). -/
def Verdict.sub : Verdict → Nat
  | .pass => 2
  | .fail => 3
  | .suspect => 4
  | .nonfinite => 5
  | .unchecked => 6

/-- R164: the verdict UNCHECKED without a comparison; a replay enters no count. `logged`: a malformed record (R162). -/
def Tu.giveUnchecked (t : Tu) (c : Chk) (logged : Bool) : Tu :=
  let t := t.gateAnswer c false
  if c.replay then t
  else
    let t := if logged then t.counted 0x2910 6 1 else t.bump 0x2910 6 1
    t.modHist c.tile fun h => { h with unchecked := h.unchecked + 1 }

/-- R164, R169, R181 to R185: what a verdict brings about. -/
def Tu.giveVerdict (t : Tu) (c : Chk) (sig : Option TileSig) : Tu :=
  if c.malformed then t.giveUnchecked c true
  else if c.saturated then t.giveUnchecked c false
  else
    let fs := t.folds c
    let v := foldVerdict fs
    let t := t.internal 0x353 1
    if c.replay then (t.replayVerdict c fs v).gateAnswer c (v == .fail)
    else if v = .unchecked then t.giveUnchecked c false
    else
      let t := ((t.bump 0x2910 v.sub 1).modHist c.tile fun h => h.add fs v).gateAnswer c (v == .fail)
      let t := t.shadowRec c fs
      if v = .fail then
        let x := t.taintOf c fs false sig.isNone
        let y := t.taintBlock x true
        (y.1.replayAsk c y.2).signature c x y.2 sig
      else if v = .suspect then
        let x := t.taintOf c fs true false
        if t.part.flag 0x2900 8 then (t.taintBlock x false).1 else t.verdictRec c.tile x.gslot t.ns x.pay
      else t

/-- MACE_VERDICT (R164): lane `k` finishes the record it holds and takes the next. -/
def Tu.maceVerdict (t : Tu) (k : Nat) (sig : Option TileSig) : Tu :=
  match (t.mace.lane k).held with
  | none => t
  | some c => (({ t with mace := t.mace.setLane k { t.mace.lane k with held := none } }).giveVerdict c sig).maceFill

/-- MACE_VERDICT. -/
def execMaceVerdict (dt : Nat) (p : Port) (lane : Fin 9) (sig : Option TileSig) (s : State) :
    Host.Outcome State Fault Refusal :=
  .next (onTu p dt (fun t => t.maceVerdict lane.val sig) s)

/-! ### Arrival (R159, R165, R174, R431) -/

/-- R159, R162, R174: what Mace holds of an arriving record. -/
def Tu.chkOf (t : Tu) (tile : Nat) (words : List Word) : Chk :=
  let c : Chk := { tile := tile, tc := t.ns, words := words, desc := none, ordinal := 0, lateChk := decide (t.ns ≤ t.mace.w),
                   gated := t.part.flag 0x2930 1 }
  let d := (t.unit tile).named (c.fld 36 1 == 1)
  { c with desc := d,
           ordinal := ((d.bind fun x => t.binds.find? fun b => b.launch == x.launch).map (·.ordinal)).getD 0 }

/-- R165: a record that is not compared: a loss of activity MACE. -/
def Tu.chkRefused (t : Tu) (c : Chk) (cause : Nat) : Tu :=
  let t := { t with part := t.part.lose 3 cause 1 192 none t.ts }
  (((t.internal 0x343 1).internal 0x34B 1)).giveUnchecked c false

/-- R159, R165, R431: a check record arrives. -/
def Tu.checkRecord (t : Tu) (tile : Nat) (r : CheckRec) : Tu :=
  let c := t.chkOf tile r.words
  let t := { t with mace := { t.mace with lastSeq := tset t.mace.lastSeq tile c.seq } }
  let t := if c.lateChk then t.bump 0x2910 0x12 1 else t
  if !t.part.flag 0x2900 1 then t.giveUnchecked c false
  else if r.bufFull then t.chkRefused c 2
  else
    let x := t.charge 3 25000 (decide (t.mace.intake.length < 64))
    if x.2 = 0 then
      let t := x.1.internal 0x343 1
      ({ t with mace := { t.mace with intake := t.mace.intake ++ [c] } }).maceFill
    else x.1.chkRefused c x.2

/-- CHECK_RECORD. -/
def execCheckRecord (dt : Nat) (p : Port) (tile : Fin 72) (c : CheckRec) (s : State) : Host.Outcome State Fault Refusal :=
  .next (onTu p dt (fun t => t.checkRecord tile.val c) s)

/-- R166: a lane that gave a wrong verdict in its self-test is retired; its record is compared again on another lane. -/
def Tu.laneSelftest (t : Tu) (k : Nat) (pass : Bool) : Tu :=
  let l := t.mace.lane k
  if pass || !l.inService then t
  else
    let m := t.mace.setLane k { inService := false, retired := true, held := none }
    let m := match l.held with
      | some c => { m with intake := c :: m.intake }
      | none => m
    let spare := (List.range 9).any fun k => !(m.lane k).inService && !(m.lane k).retired
    let t := { t with mace := m }
    (if spare then t else t.log (event 0x0011 224 224 4)).maceFill

/-- MACE_LANE_SELFTEST. -/
def execMaceLaneSelftest (dt : Nat) (p : Port) (lane : Fin 9) (pass : Bool) (s : State) :
    Host.Outcome State Fault Refusal :=
  .next (onTu p dt (fun t => t.laneSelftest lane.val pass) s)

/-! ### Later offers (R169, R171 to R173) -/

/-- R169: every notice that waits is offered again in this period. -/
def Tu.taintReoffer (t : Tu) : Tu := t.mace.queue.foldl Tu.offerTaint t

/-- TAINT_REOFFER. -/
def execTaintReoffer (dt : Nat) (p : Port) (s : State) : Host.Outcome State Fault Refusal :=
  .next (onTu p dt (fun t => t.taintReoffer) s)

/-- R171: EGRESS_CLOSE_US after the verdict the FINAL notice carries the final window. -/
def Tu.taintFinal (t : Tu) (serial : Nat) : Tu :=
  match t.mace.windows.find? fun w => w.t.serial == serial with
  | none => t
  | some w =>
    if t.ns < w.due || t.mace.taintFull then t
    else
      let gated := bitOf w.t.tflags 2
      let win := if gated then { first := none, last := 0, busy := false, ports := 0 } else t.mace.window w.t.tile [w.t.blockSeq] none
      let x := { w.t with kind := 2 }.withWindow win false
      let m := { t.mace with windows := t.mace.windows.filter fun y => y.t.serial != serial }
      ({ t with mace := m.pruneEgress w.t.tile }).raiseTaint x

/-- TAINT_FINAL. -/
def execTaintFinal (dt : Nat) (p : Port) (serial : BitVec 32) (s : State) : Host.Outcome State Fault Refusal :=
  .next (onTu p dt (fun t => t.taintFinal serial.toNat) s)

/-- R172: the queue has room: the tile's FAILs without notice get one RANGE notice. -/
def Tu.taintRange (t : Tu) (tile : Nat) : Tu :=
  match t.mace.ranges.find? fun r => r.tile == tile with
  | none => t
  | some r =>
    if t.mace.taintFull then t
    else
      let n := t.mace.serial + 1
      let w := t.mace.window tile r.seqs (some (r.last + 1000 * t.rd 0x2900 6))
      let x := { r.t with serial := n }.withWindow w w.busy
      let m := { t.mace with
        serial := n
        ranges := t.mace.ranges.filter fun y => y.tile != tile
        failHeld := t.mace.failHeld.map fun (h : Nat × Nat × Nat) => if h.1 = 0 ∧ h.2.1 = tile then (n, h.2) else h }
      ({ t with mace := m.pruneEgress tile }).raiseTaint x

/-- TAINT_RANGE_OFFER. -/
def execTaintRangeOffer (dt : Nat) (p : Port) (tile : Fin 72) (s : State) : Host.Outcome State Fault Refusal :=
  .next (onTu p dt (fun t => t.taintRange tile.val) s)

/-- The notice that an admitted TR_TAINT carries (R170). -/
def taintOfRec (r : Rec) : Taint :=
  { kind := r.fld 192 8, cause := r.fld 200 8, tile := r.unit, foldR := r.fld 208 4, foldC := r.fld 212 4, tflags := r.fld 216 8,
    blockSeq := r.fld 224 32,
    desc := { graph := r.fld 256 32, ver := r.fld 288 16, node := r.fld 304 16, launch := r.fld 320 64 },
    gslot := r.gslot, tc := r.fld 384 64, verdict := r.fld 448 64, egFirst := r.fld 512 64, egLast := r.fld 576 64,
    ports := r.fld 640 24, fmt := r.fld 664 4, serial := r.fld 672 32, residR := r.fld 704 32, tolR := r.fld 736 32,
    residC := r.fld 768 32, tolC := r.fld 800 32, brow := r.fld 832 16, bcol := r.fld 848 16, k := r.fld 864 20,
    lastSeq := r.fld 896 32, nblocks := r.fld 928 32, lastTc := r.fld 960 64 }

/-- R169, R173: a write of TAINT_RESEND: the notice enters the taint queue, if that has room, and is offered as a new
record. -/
def Tu.wrTaintResend (t : Tu) (serial : Nat) : Tu × Nat :=
  match (t.mace.history.filter fun r => r.fld 672 32 == serial).getLast? with
  | none => (t, 0x2D)
  | some r =>
    let x := taintOfRec r
    let q := if t.mace.taintFull then t.mace.queue else t.mace.queue ++ [x]
    (({ t with mace := { t.mace with queue := q } }).offerTaint x, 0)

/-- TAINT_RESEND. -/
def execTaintResend (dt : Nat) (p : Port) (lvl : Level) (serial : BitVec 32) (s : State) : Host.Outcome State Fault Refusal :=
  .next (onTu p dt (fun t => t.reply lvl 1 (t.wrTaintResend serial.toNat)) s)

/-! ### The watermark (R174, R175, R177, R178) -/

/-- Blocks that hold the watermark back: tile and T_c (R174). -/
def Mace.holding (m : Mace) : List (Nat × Nat) :=
  let chks := m.intake ++ (List.range 9).filterMap fun k => (m.lane k).held
  ((chks.filter fun c => !c.replay).map fun c => (c.tile, c.tc)) ++ m.failHeld.map (·.2)

/-- R174: W at the instant `p`. -/
def Mace.watermark (m : Mace) (p : Nat) : Nat :=
  let hs := m.holding
  let w (tile : Nat) : Nat :=
    let mine := (hs.filter fun h => h.1 == tile).map (·.2)
    match mine with
    | [] => p - 1000
    | a :: r => r.foldl min a - 1
  max m.w (((List.range 72).map w).foldl min (w 0))

/-- WFLAGS of a die (R177). -/
def Tu.wflags (t : Tu) : Nat :=
  let sv := t.part.time.servo
  packNat [(b2n (sv != .locked && sv != .holdover), 1), (b2n (!t.mace.failHeld.isEmpty), 1), (b2n (decide (t.mace.inService < 8)), 1),
    (b2n (t.part.flag 0x2930 1), 1), (0, 1), (b2n (!t.part.flag 0x2900 1), 1), (b2n t.mace.resetSeen, 1)]

/-- R174, R175, R178: the publication instant: W and the WMK ordered set. -/
def Tu.publishW (t : Tu) (p : Port) : Tu :=
  if t.ts % 4000 ≠ 0 then t
  else
    let sv := t.part.time.servo
    let w := if sv = .locked ∨ sv = .holdover then t.mace.watermark t.ns else t.mace.w
    let t := { t with mace := { t.mace with w := w } }
    if t.link.st = .up then
      let m := t.mace
      let x := mkTos 3 (leBytes 28 (packNat [(m.wmkSeq, 16), (t.wflags, 8), (0, 8), (m.serial, 32), (ts64Of m.w, 64),
        (t.rd 0x2910 3 % 2 ^ 32, 32), (t.rd 0x2910 6 % 2 ^ 32, 32), (0, 32)]))
      ({ t with mace := { m with wmkSeq := (m.wmkSeq + 1) % 65536, resetSeen := false } }).emit (.tos (.tuEnd p) x)
    else t

/-- WATERMARK_PUBLISH. -/
def execWatermarkPublish (dt : Nat) (p : Port) (s : State) : Host.Outcome State Fault Refusal :=
  .next (onTu p dt (fun t => t.publishW p) s)

/-- The payload of TR_WATERMARK (R177). -/
def watermarkPay (scope flags w fails unchecked taints : Nat) : List Word :=
  payload 5 [(scope, 8), (flags, 8), (0, 48), (ts64Of w, 64), (fails, 64), (unchecked, 64), (taints, 64)]

/-- R177 at a TU: an instant of WMK_RECORD_INTERVAL_US. -/
def Tu.wmkRecord (t : Tu) : Tu :=
  if t.ts % (1000 * t.rd 0x2900 7) ≠ 0 then t
  else
    (t.offer 5 1 20000 [t.mkRec 0x09 0x0690 224 0xFF t.ns
      (watermarkPay 0 t.wflags t.mace.w (t.rd 0x2910 3) (t.rd 0x2910 6) t.mace.serial)]).1

/-! ### Histograms, settings, replay timeout, shadow (R168, R181, R183, R185) -/

/-- R168: an instant of HIST_PERIOD_US: a HIST record for every tile that had a block. -/
def Tu.histEnd (t : Tu) : Tu :=
  if t.ts % (1000 * t.rd 0x2900 3) ≠ 0 then t
  else
    let hs := t.mace.hist
    let t := { t with mace := { t.mace with hist := [] } }
    hs.foldl (fun t e => t.verdictRec e.1 0xFF t.ns e.2.words) t

/-- HIST_PERIOD_END. -/
def execHistPeriodEnd (dt : Nat) (p : Port) (s : State) : Host.Outcome State Fault Refusal :=
  .next (onTu p dt (fun t => t.histEnd) s)

/-- R181: a write of GATE_ENABLE. -/
def Tu.wrGateEnable (t : Tu) (v : Nat) : Tu × Nat := if 1 < v then (t, 0x26) else (t.wr 0x2930 1 v, 0)

/-- GATE_ENABLE_WRITE. -/
def execGateEnableWrite (dt : Nat) (p : Port) (lvl : Level) (v : Byte) (s : State) : Host.Outcome State Fault Refusal :=
  .next (onTu p dt (fun t => t.reply lvl 1 (t.wrGateEnable v.toNat)) s)

/-- R181: a write of MACE_ENABLE. -/
def Tu.wrMaceEnable (t : Tu) (v : Nat) : Tu × Nat :=
  let a := lowestAbort [(decide (1 < v), 0x26), (v == 0 && t.part.flag 0x2930 1, 0x27)]
  if a ≠ 0 then (t, a) else (t.wr 0x2900 1 v, 0)

/-- MACE_ENABLE_WRITE. -/
def execMaceEnableWrite (dt : Nat) (p : Port) (lvl : Level) (v : Byte) (s : State) : Host.Outcome State Fault Refusal :=
  .next (onTu p dt (fun t => t.reply lvl 1 (t.wrMaceEnable v.toNat)) s)

/-- R183: the replays needed have not arrived in time. -/
def Tu.replayExpiry (t : Tu) (ref : Nat) : Tu :=
  match t.mace.replays.find? fun r => r.ref == ref with
  | some r => if r.at64 + 1000000 * t.rd 0x2900 5 ≤ t.ns then t.replayEnd r 5 1 else t
  | none => t

/-- REPLAY_TIMEOUT_EXPIRY. -/
def execReplayTimeoutExpiry (dt : Nat) (p : Port) (ref : BitVec 32) (s : State) : Host.Outcome State Fault Refusal :=
  .next (onTu p dt (fun t => t.replayExpiry ref.toNat) s)

/-- R182: firmware's answer to a REPLAY_REQ in the channel's acknowledge register. -/
def Tu.replayAnswer (t : Tu) (ref rcode : Nat) : Tu :=
  match t.mace.replays.find? fun r => r.ref == ref && !r.accepted with
  | none => t
  | some r =>
    match rcode with
    | 0 =>
      { t with mace := { t.mace with
          replays := modFirst (fun x => x.ref == ref) (fun x => { x with accepted := true }) t.mace.replays } }
    | 2 => t.replayEnd r 5 4
    | 3 => t.replayEnd r 5 5
    | _ => t.replayEnd r 5 3

/-- R185: a write of SHADOW_ENABLE; TRUE counts launches from 0. -/
def Tu.wrShadowEnable (t : Tu) (v : Nat) : Tu × Nat :=
  if 1 < v then (t, 0x26)
  else
    let was := t.part.flag 0x2940 1
    let t := if v = 1 ∧ was = false then { t with mace := { t.mace with ordinals := [] } } else t
    (t.wr 0x2940 1 v, 0)

end Sys2Proof.Machine
end

