-- ==== Sys2Proof/Machine/Wear.lean ====
section
/-! DEFINITION. Wear monitors and spare swaps (R24, R102, R166, R227, R271, R310, R335, R402, R412), with the numbers that
log 37 gives to units without a number of R65. -/

namespace Sys2Proof.Machine

/-! ### Readings (R335, R402) -/

/-- The four thresholds of R364 in force. -/
structure WearLimits where
  warn : Nat
  crit : Nat
  ecc  : Nat
  eye  : Nat
deriving DecidableEq, Repr

/-- A monitor that has read nothing. -/
def Wear.zero : Wear := { low := 0, value := 0, worn := false }

/-- The place of a monitor in the wear table, and its ARG less 1 in WORN_NO_SPARE (R380). -/
def monitorIx : Monitor → Nat
  | .margin => 0
  | .ecc => 1
  | .eye => 2

/-- The key of one monitor of one unit; `m` 3: how often the unit has been swapped. -/
def wearKey (unit m : Nat) : Nat := 4 * unit + m

/-- R402: a margin reading outside 0 % to 100 % is discarded. -/
def readingUsable (r : WearReading) : Bool := decide (0 ≤ r.value) && (r.monitor != .margin || decide (r.value ≤ 1000))

/-- R335: one reading of a monitor of a unit; margins are in 0.1 %. -/
def Wear.read (w : Wear) (l : WearLimits) (m : Monitor) (value same : Nat) : Wear :=
  match m with
  | .margin =>
    let low := if value < 10 * l.warn then w.low + 1 else 0
    { low := low, value := value, worn := w.worn || decide (16 ≤ low) || decide (value < 10 * l.crit) }
  | .ecc => { low := 0, value := value, worn := w.worn || decide (l.ecc ≤ value) || decide (3 ≤ same) }
  | .eye =>
    let low := if value < l.eye then w.low + 1 else 0
    { low := low, value := value, worn := w.worn || decide (3 ≤ low) }

/-- A monitor of a unit. -/
def Part.wearOf (p : Part) (unit m : Nat) : Wear := tget p.wear (wearKey unit m) .zero

/-- The unit is worn by some monitor. -/
def Part.worn (p : Part) (unit : Nat) : Bool := (List.range 3).any fun m => (p.wearOf unit m).worn

/-- The monitor that found the unit worn, as ARG of WORN_NO_SPARE. -/
def Part.wornBy (p : Part) (unit : Nat) : Nat := (((List.range 3).find? fun m => (p.wearOf unit m).worn).getD 0) + 1

/-- How often the unit has been swapped. -/
def Part.swaps (p : Part) (unit : Nat) : Nat := (p.wearOf unit 3).low

/-- The part after the swap of a unit: it waits no longer and is evaluated anew. -/
def Part.swapped (p : Part) (unit : Nat) : Part :=
  { p with
    wear := tset ((List.range 3).foldl (fun w m => tdel w (wearKey unit m)) p.wear) (wearKey unit 3)
      { Wear.zero with low := p.swaps unit + 1 }
    swapQ := p.swapQ.filter (· != unit) }

/-- R335: a reading is taken; answers whether the unit has just been found worn. -/
def Part.wearRead (p : Part) (l : WearLimits) (r : WearReading) : Part × Bool :=
  let was := p.worn r.unit
  let w := (p.wearOf r.unit (monitorIx r.monitor)).read l r.monitor r.value.toNat r.sameAddr
  let w := if was then { p.wearOf r.unit (monitorIx r.monitor) with value := r.value.toNat } else w
  let p := { p with wear := tset p.wear (wearKey r.unit (monitorIx r.monitor)) w }
  (p, !was && w.worn)

/-- The lowest reading of a monitor among units, and 0 if there is none. -/
def Part.lowest (p : Part) (m : Nat) (units : Nat → Bool) : Nat :=
  ((p.wear.filter fun e => e.1 % 4 == m && units (e.1 / 4)).map fun e => e.2.value).min?.getD 0

/-! ### Lanes of a link (R412) -/

/-- Physical lanes that carry data in a direction with this LANE_MAP. -/
def lanesUsed (m : BitVec 8) : List Nat := [bitsOf m.toNat 0 2, bitsOf m.toNat 2 2]

/-- R412, R335: the eye monitor finds physical lane `i` of the receive direction worn: none if there is no spare for it. -/
def Link.retire (l : Link) (i now : Nat) : Option Link :=
  if (lanesUsed l.laneMap).contains i then
    if !(lanesUsed l.laneMap).contains 2 && bitOf l.laneMap.toNat 4 && !l.retired.contains 2 then
      some { l with retired := l.retired ++ [i], swapSince := some now }
    else none
  else some { l with retired := l.retired ++ [i] }

/-! ### The TU (R102, R166, R227) -/

/-- Thresholds of a TU. -/
def Tu.limits (t : Tu) : WearLimits := { warn := t.rd 0x2D00 1, crit := t.rd 0x2D00 2, ecc := t.rd 0x2D00 3, eye := t.rd 0x2D00 4 }

/-- A free spare bank (R102). -/
def Tu.freeBank (t : Tu) : Option Nat := (List.range 4).find? fun i => (tfind t.spares i).isNone

/-- A bank already stands on a spare (R24). -/
def Tu.bankSwapped (t : Tu) (b : Nat) : Bool := t.spares.any fun e => e.2 == b

/-- R335: the worn unit stays in service for want of a spare. -/
def Tu.wornNoSpare (t : Tu) (unit : Nat) : Tu :=
  ({ t with part := { t.part with swapQ := t.part.swapQ.filter (· != unit) } }).log (event 0x0011 224 224 (t.part.wornBy unit))

/-- A worn unit of a TU is marked for its spare, or stays in service. -/
def Tu.markWorn (t : Tu) (unit : Nat) : Tu :=
  let mark (t : Tu) : Tu := { t with part := { t.part with swapQ := t.part.swapQ ++ [unit] } }
  if unit < 88 then
    if t.bankSwapped unit then t else if t.freeBank.isSome then mark t else t.wornNoSpare unit
  else if unit < 97 then
    if (List.range 9).any (fun k => !(t.mace.lane k).inService && !(t.mace.lane k).retired) then mark t
    else t.wornNoSpare unit
  else if 100 ≤ unit ∧ unit < 103 then
    match t.link.retire (unit - 100) t.part.time.now with
    | some l => { t with link := l }
    | none => t.wornNoSpare unit
  else t.wornNoSpare unit

/-- R335, R402: one reading of a TU's monitor. -/
def Tu.wearReading (t : Tu) (r : WearReading) : Tu :=
  if !readingUsable r then t
  else
    let x := t.part.wearRead t.limits r
    let t := { t with part := x.1 }
    if x.2 then t.markWorn r.unit else t

/-- R24, R102, R166: the quiesce point of a marked unit of a TU. -/
def Tu.spareSwap (t : Tu) (unit : Nat) : Tu :=
  if !t.part.swapQ.contains unit then t
  else
    let done (t : Tu) : Tu := (({ t with part := t.part.swapped unit }).bump 0x2D00 5 1).log (event 0x0010 224 224 224)
    if unit < 88 then
      match t.freeBank with
      | some i => done (({ t with spares := tset t.spares i unit }).bump 0x2370 2 1)
      | none => t.wornNoSpare unit
    else
      let m := t.mace
      let k := unit - 88
      if !m.intake.isEmpty || (m.lane k).held.isSome then t
      else
        match (List.range 9).find? fun j => !(m.lane j).inService && !(m.lane j).retired with
        | some j =>
          let m := m.setLane k { inService := false, retired := true, held := none }
          done { t with mace := m.setLane j { m.lane j with inService := true } }
        | none => t.wornNoSpare unit

/-! ### Fyster (R271, R310, R335) -/

/-- Thresholds of Fyster. -/
def Fyster.limits (f : Fyster) : WearLimits := { warn := f.rd 0x7000 1, crit := f.rd 0x7000 2, ecc := f.rd 0x7000 3, eye := f.rd 0x7000 4 }

/-- Kinds of unit with a spare. -/
inductive SpareKind where
  | merge (e : Nat)
  | juniper (lane : Nat)
  | sumac (e : Nat)
  | oob (q : Nat)
  | tl (p lane : Nat)
  | hbm (ch : Nat)
  | other
deriving DecidableEq, Repr

/-- The kind of a unit number of Fyster. -/
def spareKind (u : Nat) : SpareKind :=
  if 528 ≤ u ∧ u ≤ 532 then .sumac (u - 528)
  else if 584 ≤ u ∧ u ≤ 585 then .oob (u - 584)
  else if 600 ≤ u ∧ u ≤ 617 then .merge (u - 600)
  else if 640 ≤ u ∧ u ≤ 711 then .juniper (u - 640)
  else if 800 ≤ u ∧ u < 896 then .tl ((u - 800) / 3) ((u - 800) % 3)
  else if 1000 ≤ u ∧ u < 1384 then .hbm (u - 1000)
  else .other

/-- The unit number of R65 under which a unit is reported. -/
def wearUnit (u : Nat) : Nat :=
  match spareKind u with
  | .tl p _ => 544 + p
  | .hbm _ => 512
  | _ => u

/-- The unit that reports a swap. -/
def wearSource (u : Nat) : Nat :=
  match spareKind u with
  | .merge _ => 515
  | .juniper _ => 516
  | .oob _ => 521
  | .tl p _ => 544 + p
  | _ => 512

/-- Logical lane that a physical Juniper lane serves (R310). -/
def Jun.logical (j : Jun) (lane : Nat) : Option Nat :=
  if lane < 64 then (if (tfind j.lanes lane).isNone then some lane else none)
  else (j.lanes.find? fun e => e.2 == lane).map (·.1)

/-- A spare pseudo-channel of the stack has not been used (R335, R421). -/
def Fyster.pcSpare (f : Fyster) (ch : Nat) : Bool :=
  (List.range 32).all fun i => decide (f.part.swaps (1000 + ch / 32 * 32 + i) < 2)

/-- The spare that would take over a unit: its unit number (R335). -/
def Fyster.spareFor (f : Fyster) (u : Nat) : Option Nat :=
  match spareKind u with
  | .merge _ =>
    ((List.range 2).find? fun k => !bitOf (f.rd 0x3400 1) (16 + k) && f.part.swaps (616 + k) == 0).map (616 + ·)
  | .juniper _ => ((List.range 8).find? fun k => bitOf (f.rd 0x4400 2) k).map (704 + ·)
  | .sumac _ => if !bitOf (f.rd 0x4800 1) 4 && f.part.swaps 532 == 0 then some 532 else none
  | .oob q =>
    let o := f.oob (1 - q)
    if o.up && !o.retired then some (584 + (1 - q)) else none
  | .hbm ch => if f.part.swaps u = 0 || (f.part.swaps u = 1 && f.pcSpare ch) then some 512 else none
  | .tl .. => none
  | .other => none

/-- A unit leaves service. -/
def Fyster.outOfService (f : Fyster) (u : Nat) : Fyster :=
  match spareKind u with
  | .merge e => f.wr 0x3400 1 (setBit (f.rd 0x3400 1) e false)
  | .juniper l =>
    let f := if 64 ≤ l then f.wr 0x4400 2 (setBit (f.rd 0x4400 2) (l - 64) false) else f
    match f.jun.logical l with
    | some i => f.wr 0x4400 1 (setBit (f.rd 0x4400 1) i false)
    | none => f
  | .sumac e => f.wr 0x4800 1 (setBit (f.rd 0x4800 1) e false)
  | .oob q => (f.setOob q { f.oob q with retired := true }).bmca
  | _ => f

/-- R310: spare `k` takes over the logical lane of physical lane `l`. -/
def Fyster.laneTakes (f : Fyster) (l k : Nat) : Fyster :=
  match f.jun.logical l with
  | none => f
  | some i =>
    let f := { f with jun := { f.jun with lanes := tset f.jun.lanes i (64 + k) } }
    ((f.wr 0x4400 2 (setBit (f.rd 0x4400 2) k false)).wr 0x4400 1 (setBit (f.rd 0x4400 1) i true)).bump 0x4400 3 1

/-- The spare enters service in place of a unit. -/
def Fyster.intoService (f : Fyster) (u spare : Nat) : Fyster :=
  match spareKind u with
  | .merge _ => (f.wr 0x3400 1 (setBit (f.rd 0x3400 1) (spare - 600) true)).bump 0x3400 2 1
  | .juniper l => f.laneTakes l (spare - 704)
  | .sumac _ => (f.wr 0x4800 1 (setBit (f.rd 0x4800 1) 4 true)).bump 0x4800 2 1
  | .hbm _ => if f.part.swaps u = 0 then f.bump 0x7004 2 1 else f.bump 0x7004 3 1
  | _ => f

/-- R24, R335: the swap of a unit: SWAPS_TOTAL, SPARE_SWAP and a WEAR notice. -/
def Fyster.doSwap (f : Fyster) (u spare : Nat) : Fyster :=
  let f := (f.outOfService u).intoService u spare
  let f := ({ f with part := f.part.swapped u }).bump 0x7000 5 1
  (f.log (event 0x0010 (wearSource u) spare (wearUnit u))).wearNotice f.dieVal (wearUnit u) spare f.ns false

/-- R335: a worn unit without a spare: WORN_NO_SPARE and a notice; `arg` 4 is a unit that failed its self-test. -/
def Fyster.wornNoSpare (f : Fyster) (u arg : Nat) : Fyster :=
  let f := { f with part := { f.part with swapQ := f.part.swapQ.filter (· != u) } }
  let f := if arg = 4 then f else f.bump 0x7000 6 1
  (f.log (event 0x0011 (wearSource u) (wearUnit u) arg)).wearNotice f.dieVal (wearUnit u) 0 f.ns true

/-- A unit is marked for its spare. -/
def Fyster.markSwap (f : Fyster) (u : Nat) : Fyster :=
  if f.part.swapQ.contains u then f else { f with part := { f.part with swapQ := f.part.swapQ ++ [u] } }

/-- The unit does work now: an engine of MERGE_MAP or ENGINE_MAP, a Juniper lane that serves a logical lane. -/
def Fyster.serving (f : Fyster) (u : Nat) : Bool :=
  match spareKind u with
  | .merge e => bitOf (f.rd 0x3400 1) e
  | .juniper l =>
    match f.jun.logical l with
    | some i => bitOf (f.rd 0x4400 1) i
    | none => false
  | .sumac e => bitOf (f.rd 0x4800 1) e
  | _ => true

/-- A spare that does no work is worn or fails: it is no longer there to take over. -/
def Fyster.dropSpare (f : Fyster) (u : Nat) : Fyster :=
  let f := f.outOfService u
  { f with part := f.part.swapped u }

/-- A worn unit of Fyster is marked for its spare, or stays in service. -/
def Fyster.markWorn (f : Fyster) (u : Nat) : Fyster :=
  match spareKind u with
  | .tl p lane =>
    match (f.link p).retire lane f.part.time.now with
    | some l => f.setLink p l
    | none => f.wornNoSpare u (f.part.wornBy u)
  | _ =>
    if !f.serving u then (f.dropSpare u).wearNotice f.dieVal (wearUnit u) 0 f.ns false
    else if (f.spareFor u).isSome then f.markSwap u
    else f.wornNoSpare u (f.part.wornBy u)

/-- R335, R402: one reading of a monitor of Fyster. -/
def Fyster.wearReading (f : Fyster) (r : WearReading) : Fyster :=
  if !readingUsable r then f
  else
    let x := f.part.wearRead f.limits r
    let f := { f with part := x.1 }
    if x.2 then f.markWorn r.unit else f

/-- WEAR_READING. -/
def execWearReading (dt : Nat) (n : Node) (r : WearReading) (s : State) : Host.Outcome State Fault Refusal :=
  .next (onNode n dt (fun _ t => t.wearReading r) (fun f => f.wearReading r) s)

/-- R24: the quiesce point of a marked unit of Fyster. -/
def Fyster.spareSwap (f : Fyster) (u : Nat) : Fyster :=
  if !f.part.swapQ.contains u then f
  else
    match f.spareFor u with
    | some k => (f.doSwap u k).recovDone 8
    | none => f.wornNoSpare u (f.part.wornBy u)

/-- SPARE_SWAP. -/
def execSpareSwap (dt : Nat) (n : Node) (unit : Nat) (s : State) : Host.Outcome State Fault Refusal :=
  .next (onNode n dt (fun _ t => t.spareSwap unit) (fun f => f.spareSwap unit) s)

/-- R166's rule for a unit of Fyster that fails its self-test: out of service at once, the spare at the next boundary. -/
def Fyster.retireNow (f : Fyster) (u : Nat) : Fyster :=
  if f.part.swapQ.contains u && !f.serving u then f
  else if !f.serving u then f.dropSpare u
  else
    let f := (f.outOfService u).recovStart 8
    if (f.spareFor u).isSome then f.markSwap u
    else ({ f with part := f.part.swapped u }).wornNoSpare u 4

/-- R271, R310: a lane or engine that is not retired gave an answer in its self-test. -/
def Fyster.selftest (f : Fyster) (u : Nat) (pass : Bool) : Fyster :=
  if pass || decide (0 < f.part.swaps u) then f else f.retireNow u

/-- MERGE_ENGINE_SELFTEST (R271). -/
def execMergeEngineSelftest (dt : Nat) (e : Fin 18) (pass : Bool) (s : State) : Host.Outcome State Fault Refusal :=
  .next (onFy dt (fun f => f.selftest (600 + e.val) pass) s)

/-- JUNIPER_LANE_SELFTEST (R310). -/
def execJuniperLaneSelftest (dt : Nat) (lane : Fin 72) (pass : Bool) (s : State) : Host.Outcome State Fault Refusal :=
  .next (onFy dt (fun f => f.selftest (640 + lane.val) pass) s)

end Sys2Proof.Machine
end

