-- ==== Sys2Proof/Machine/Sumac.lean ====
section
/-! DEFINITION. Sumac blocks in time: the flush timer and the end of a block (R227 to R229). -/

namespace Sys2Proof.Machine

/-- R228: SUMAC_FLUSH_US have passed since the first byte of the open block. -/
def Tu.sumacFlush (t : Tu) : Tu :=
  if t.sumac.opened + t.rd 0x2800 2 * 65536000 ≤ t.part.time.now then t.sumacClose else t

/-- SUMAC_FLUSH_TIMER. -/
def execSumacFlushTimer (dt : Nat) (p : Port) (s : State) : Host.Outcome State Fault Refusal :=
  .next (onTu p dt Tu.sumacFlush s)

/-- The TU writes only STORED blocks (R227, R228). -/
def Tu.sumacPlain (t : Tu) : Bool := t.rd 0x2800 1 == 1 || t.part.flag 0x2800 8

/-- R227: a FALLBACK block of the TU; three within 1 s set SUMAC_BYPASS. -/
def Tu.sumacFallback (t : Tu) : Tu :=
  let t := t.counted 0x2800 7 1
  let recent := (t.sumac.fallbacks.filter fun x => decide (t.ns < x + 1000000000)) ++ [t.ns]
  let t := { t with sumac := { t.sumac with fallbacks := recent } }
  if 3 ≤ recent.length && !t.part.flag 0x2800 8 then (t.wr 0x2800 8 1).log (event 0x0011 224 224 4) else t

/-- R227, R228: the TU's Sumac has compressed and checked its oldest closed block and releases it as fragments. -/
def Tu.sumacDone (t : Tu) (ok : Bool) : Tu :=
  match t.sumac.closed with
  | [] => t
  | b :: rest =>
    let input := b.flatMap fun q => wordsBytes q.r.words
    let block := sumacBlock t.sumacPlain (!ok) t.sumac.bseq input
    let t := { t with
      sumac := { t.sumac with
        closed := rest, frags := t.sumac.frags ++ fragments block, sending := t.sumac.sending ++ [b]
        bseq := t.sumac.bseq + 1 }
      part := t.part.crcTake 0x2801 (block.take (block.length - 4)) }
    let t := ((t.bump 0x2800 3 1).bump 0x2800 4 input.length).bump 0x2800 5 block.length
    let t := if blockKind block = 2 then t.bump 0x2800 6 1 else t
    if blockKind block = 3 then t.sumacFallback else t

/-- R227: an engine of Fyster finishes a block of a dump. What its CRC unit takes in is the dump's data (log 38). -/
def Fyster.sumacDone (f : Fyster) (e : Nat) (ok : Bool) : Fyster :=
  if !f.serving (528 + e) then f
  else
    let u := f.part.crcUnit (0x4810 + e)
    let f :=
      if u.enable && !u.paused then
        let v := f.free
        let n := v.1.free
        let u := { u with value := v.2.setWidth 32, length := n.2.toNat }
        { n.1 with part := { n.1.part with crc := tset n.1.part.crc (0x4810 + e) u } }
      else f
    if ok then f else (f.counted 512 0x4800 5 1).retireNow (528 + e)

/-- SUMAC_BLOCK_DONE. -/
def execSumacBlockDone (dt : Nat) (n : Node) (engine : Fin 5) (selfOk : Bool) (s : State) : Host.Outcome State Fault Refusal :=
  .next (onNode n dt (fun _ t => t.sumacDone selfOk) (fun f => f.sumacDone engine.val selfOk) s)

end Sys2Proof.Machine
end

