-- ==== Sys2Proof/Machine/Hindsight.lean ====
section
/-! DEFINITION. The hindsight ring's pins and partitions, and dumps (R216 to R221, R226, R244 to R248). -/

namespace Sys2Proof.Machine

/-! ### Pins (R219) -/

/-- Serial of the newest segment of a partition, 0 if none has been taken. -/
def Partition.newest (q : Partition) : Nat := q.next - 1

/-- R219: a range of a new hold in one partition, trimmed at its old end; none if nothing may be covered. The second answer:
it was trimmed. -/
def Fyster.trimRange (f : Fyster) (p old : Nat) (new : Option Nat) : Option (Nat × Nat × Option Nat) × Bool :=
  let wanted := ((f.partition p).segs.map (·.serial)).filter fun s =>
    decide (old ≤ s) && decide (s ≤ new.getD s) && !f.pinned p s
  let room := f.pinLimit p - (f.pinnedSegs p).length
  if wanted.length ≤ room then (some (p, old, new), false)
  else
    match (lastN room wanted).head? with
    | some s => (some (p, s, new), true)
    | none => (none, true)

/-- The lowest free hold of eight. -/
def Fyster.freeHold (f : Fyster) : Option Nat := (List.range 8).find? fun h => (tfind f.holds h).isNone

/-- R219: a hold over these ranges (partition, oldest serial, newest serial); answers false when all eight holds are in use, and
whether it was trimmed. -/
def Fyster.pin (f : Fyster) (tag cause : Nat) (ranges : List (Nat × Nat × Option Nat)) : Fyster × Bool × Bool :=
  match f.freeHold with
  | none => (f, false, false)
  | some h =>
    let xs := ranges.map fun r => f.trimRange r.1 r.2.1 r.2.2
    let trimmed := xs.any (·.2)
    let hold : Hold := { tag := tag, cause := cause, ranges := xs.filterMap (·.1), since := f.ns, trimmed := trimmed }
    let f := { f with holds := tset f.holds h hold }
    (if trimmed then f.bump 0x6809 4 1 else f, true, trimmed)

/-- The holds with this tag are released; answers whether there were any. -/
def Fyster.unpin (f : Fyster) (tag : Nat) : Fyster × Bool :=
  ({ f with holds := f.holds.filter fun h => h.2.tag != tag }, f.holds.any fun h => h.2.tag == tag)

/-- R219: a write of PIN_RELEASE. -/
def Fyster.wrPinRelease (f : Fyster) (tag : Nat) : Fyster × Nat :=
  let x := f.unpin tag
  if x.2 then (x.1, 0) else (f, 0x2D)

/-- PIN_RELEASE. -/
def execPinRelease (dt : Nat) (lvl : Level) (tag : BitVec 32) (s : State) : Host.Outcome State Fault Refusal :=
  .next (onFy dt (fun f => f.reply lvl 1 (f.wrPinRelease tag.toNat)) s)

/-- R219: a hold older than PIN_EXPIRY_S is released; 0 means never. -/
def Fyster.pinExpire (f : Fyster) (h : Nat) : Fyster :=
  match tfind f.holds h with
  | some x =>
    if f.rd 0x6809 2 ≠ 0 ∧ x.since + f.rd 0x6809 2 * 1000000000 < f.ns then { f with holds := tdel f.holds h } else f
  | none => f

/-- PIN_EXPIRY. -/
def execPinExpiry (dt : Nat) (hold : Fin 8) (s : State) : Host.Outcome State Fault Refusal :=
  .next (onFy dt (fun f => f.pinExpire hold.val) s)

/-! ### Partition sizes (R221) -/

/-- R221: a write of PART_SEGMENTS of die partition `p`. -/
def Fyster.wrPartSegments (f : Fyster) (p v : Nat) : Fyster × Nat :=
  let others := sumBy (fun q => if q = p then 0 else (f.partition q).size) (List.range 32)
  let q := f.partition p
  match lowestAbort [(decide (v < 64) || decide (16384 < v), 0x25), (decide (131072 < others + v), 0x28),
      ((f.link p).st != .down || !(f.pinnedSegs p).isEmpty, 0x27)] with
  | 0 => ({ f with ring := tset f.ring p { q with size := v, segs := [], block := none } }, 0)
  | a => (f, a)

/-- PART_SEGMENTS_WRITE. -/
def execPartSegmentsWrite (dt : Nat) (lvl : Level) (part : Fin 32) (v : BitVec 16) (s : State) :
    Host.Outcome State Fault Refusal :=
  .next (onFy dt (fun f => f.reply lvl 2 (f.wrPartSegments part.val v.toNat)) s)

/-! ### Segments as bytes (R216, R217) -/

/-- The 64-byte header of a segment. -/
def Seg.head (s : Seg) (part mask : Nat) : List Byte :=
  leBytes 64 (packNat [(0x54485347, 32), (1, 8), (part, 8), (b2n s.closed, 1), (b2n s.hasLoss, 1), (b2n s.uncert, 1),
    (b2n s.truncOrphan, 1), (b2n s.resumed, 1), (0, 3), (mask, 8), (s.die, 32), (s.epoch, 32), (s.serial, 64), (s.sec, 64),
    (s.tsFirst, 64), (s.tsLast, 64), (s.used, 32), (s.entries.length + b2n s.ended, 32),
    ((s.entries.head?.map (·.fseq)).getD 0, 16), ((s.entries.getLast?.map (·.fseq)).getD 0, 16), (0, 32)])

/-- An entry with its header. -/
def Entry.encode (e : Entry) : List Byte :=
  leBytes 8 (packNat [(if e.sumac then 2 else 1, 8), (b2n e.first, 1), (b2n e.last, 1), (b2n e.trunc, 1), (b2n e.orphan, 1), (0, 4),
    (8 * e.body.length, 13), (e.cls, 3), (e.fseq, 16), (e.src, 8), (0, 8)]) ++ wordsBytes e.body

/-- What of a segment is in use, as bytes. -/
def Seg.bytes (s : Seg) (part mask : Nat) : List Byte :=
  s.head part mask ++ s.entries.flatMap Entry.encode ++ (if s.ended then List.replicate 8 0 else [])

/-! ### Decompression (R226) -/

/-- The string of a code: entry c holds prefix × 256 + byte. -/
def lzwString (dict : Tab Nat) : Nat → Nat → List Byte
  | 0, _ => []
  | n + 1, c =>
    if c < 256 then [BitVec.ofNat 8 c]
    else
      match tfind dict c with
      | some v => lzwString dict n (v / 256) ++ [BitVec.ofNat 8 v]
      | none => []

/-- The decoder between codes. -/
structure Unlzw where
  bits : Nat
  left : Nat
  i    : Nat
  next : Nat
  dict : Tab Nat
  prev : Option Nat
  out  : List Byte

/-- One code of R226: the decoder goes on, has met END, or fails. -/
def Unlzw.step (z : Unlzw) (ulen : Nat) : Option (Unlzw × Bool) :=
  let w := codeWidth z.i
  if z.left < w then none
  else
    let x := z.bits % 2 ^ w
    let z := { z with bits := z.bits / 2 ^ w, left := z.left - w, i := z.i + 1 }
    if x = 257 then some (z, true)
    else if x = 256 then some ({ z with i := 0, next := 258, dict := [], prev := none }, false)
    else
      let of (c : Nat) : List Byte := lzwString z.dict 65536 c
      let s? : Option (List Byte) :=
        if x < 256 ∨ x < z.next then some (of x)
        else
          match z.prev with
          | some p => if x = z.next then some (of p ++ (of p).take 1) else none
          | none => none
      match s? with
      | none => none
      | some s =>
        let grow := match z.prev with
          | some p => decide (z.next ≤ 65535) && !s.isEmpty && (some p).isSome
          | none => false
        let dict := if grow then tset z.dict z.next ((z.prev.getD 0) * 256 + leNat (s.take 1)) else z.dict
        let out := z.out ++ s
        if ulen < out.length then none
        else some ({ z with dict := dict, next := if grow then z.next + 1 else z.next, prev := some x, out := out }, false)

/-- Codes until END; bits after END must be 0. -/
def Unlzw.run (ulen : Nat) : Nat → Unlzw → Option (List Byte)
  | 0, _ => none
  | n + 1, z =>
    match z.step ulen with
    | none => none
    | some (z, true) => if z.bits = 0 ∧ z.out.length = ulen then some z.out else none
    | some (z, false) => Unlzw.run ulen n z

/-- R226: the input bytes of a block that passes every test. -/
def sumacUnpack (b : List Byte) : Option (List Byte) :=
  let kind := fieldAt b 0 1
  let ulen := fieldAt b 4 4
  let body := (b.drop 12).take (b.length - 16)
  if b.length < 16 ∨ kind = 0 ∨ 3 < kind ∨ 8 * fieldAt b 2 2 ≠ b.length ∨ fieldAt b (b.length - 4) 4 ≠ crc32c (b.take (b.length - 4))
  then none
  else if kind = 1 then
    Unlzw.run ulen (body.length + 1) { bits := leNat body, left := 8 * body.length, i := 0, next := 258, dict := [], prev := none, out := [] }
  else if ulen ≤ body.length then some (body.take ulen)
  else none

/-! ### The forms of a dump (R244, R246) -/

/-- Records of a decompressed block as RECORDS entries of at most 4,096 bytes, in the place of the block. -/
def recordEntries (like : Entry) : Nat → List Word → List Word → List Entry
  | 0, _, _ => []
  | n + 1, acc, ws =>
    let entry (b : List Word) : List Entry :=
      if b.isEmpty then [] else [({ like with sumac := false, first := false, last := false, trunc := false, orphan := false, body := b } : Entry)]
    let len := max 1 (bitsOf (wordsNat (ws.take 1)) 8 8)
    if ws.isEmpty then entry acc
    else if 512 < acc.length + len then entry acc ++ recordEntries like n (ws.take len) (ws.drop len)
    else recordEntries like n (acc ++ ws.take len) (ws.drop len)

/-- EXPANDED: the entries of a segment with every complete block replaced; counts the blocks decoded and the bad ones. `acc`:
fragments of the open block. -/
def expandEntries : List Entry → List Entry → List Entry × Nat × Nat
  | [], acc => (acc, 0, 0)
  | e :: r, acc =>
    if !e.sumac then
      let x := expandEntries r acc
      (e :: x.1, x.2)
    else
      let acc' := if e.first then [e] else if acc.isEmpty then [] else acc ++ [e]
      let kept := if e.first then acc else if acc.isEmpty then [e] else []
      if e.last && !acc'.isEmpty then
        let x := expandEntries r []
        match sumacUnpack (acc'.flatMap fun a => wordsBytes a.body) with
        | some bs => (kept ++ recordEntries e (bs.length + 1) [] (allWords bs) ++ x.1, x.2.1 + 1, x.2.2)
        | none => (kept ++ x.1, x.2.1, x.2.2 + 1)
      else
        let x := expandEntries r acc'
        (kept ++ x.1, x.2)

/-- RAW bytes as Sumac blocks of at most 65,520 input bytes each (COMPRESSED); `n` bounds the blocks. -/
def compressRaw : Nat → Nat → List Byte → List Byte
  | 0, _, _ => []
  | n + 1, bseq, bs => if bs.isEmpty then [] else sumacBlock false false bseq (bs.take 65520) ++ compressRaw n (bseq + 1) (bs.drop 65520)

/-- What a dump sends of a segment: its bytes as far as they are known, the length, blocks decoded and blocks left out. A
closed segment is copied whole; what it holds beyond BYTES_USED is not stated. -/
structure SegOut where
  bytes   : List Byte
  length  : Nat
  decoded : Nat
  bad     : Nat

/-- R244: a segment in the form of a dump. -/
def Seg.form (s : Seg) (form part mask : Nat) : SegOut :=
  let raw := s.bytes part mask
  if form = 1 then
    let z := compressRaw 64 0 raw
    { bytes := z, length := z.length, decoded := 0, bad := 0 }
  else if form = 2 then
    let x := expandEntries s.entries []
    let s' := { s with entries := x.1, used := 64 + sumBy Entry.bytes x.1 + 8 * b2n s.ended }
    let z := s'.bytes part mask
    { bytes := z, length := z.length, decoded := x.2.1, bad := x.2.2 }
  else { bytes := raw, length := if s.closed then segBytes else raw.length, decoded := 0, bad := 0 }

/-! ### Dumps (R244 to R248) -/

/-- A dump channel. -/
def Fyster.dump (f : Fyster) (ch : Nat) : Dump :=
  tget f.dumps ch { state := 0, serial := 0, spec := [], todo := [], done := [], bytes := 0, engines := 0, here := false, isOpen := false,
                    unpinned := false, abort := false }

/-- Fyster with a dump channel replaced. -/
def Fyster.setDump (f : Fyster) (ch : Nat) (d : Dump) : Fyster := { f with dumps := tset f.dumps ch d }

/-- Serials that a segment range of a partition names, as far as segments have been taken. -/
def Partition.serials (q : Partition) (lo hi : Nat) : List Nat := (List.range q.next).filter fun s => decide (lo ≤ s) && decide (s ≤ hi)

/-- R244: partitions of a DUMP_SPEC. -/
def specParts (spec : List Byte) : List Nat :=
  (List.range 32).filter (fun p => bitOf (fieldAt spec 4 4) p) ++ if fieldAt spec 8 1 = 1 then [trayPart] else []

/-- The cut-store slot of a cut. -/
def Fyster.cutSlot (f : Fyster) (cut : Nat) : Option (Nat × CutSlot) := f.cuts.find? fun c => c.2.cutId == cut

/-- The segments that a spec names, in order: partition (0xFE: the cut store) and serial. -/
def Fyster.dumpList (f : Fyster) (spec : List Byte) : List (Nat × Nat) :=
  let src := fieldAt spec 0 1
  let sel := fieldAt spec 12 4
  let lo := fieldAt spec 16 8
  let hi := fieldAt spec 24 8
  if src = 1 then
    (specParts spec).flatMap fun p =>
      ((f.partition p).segs.filter fun s => decide (s.tsFirst ≤ hi) && decide (lo ≤ s.tsLast)).map fun s => (p, s.serial)
  else if src = 2 then
    let held := match f.holds.find? fun h => h.2.tag == sel && h.2.cause == 1 with
      | some h => h.2.ranges.flatMap fun r =>
          ((f.partition r.1).serials r.2.1 (r.2.2.getD (f.partition r.1).newest)).map fun s => (r.1, s)
      | none => []
    held ++ (match f.cutSlot sel with
      | some c => if c.2.bytes = 0 then [] else [(0xFE, c.1)]
      | none => [])
  else ((f.partition sel).serials lo hi).map fun s => (sel, s)

/-- R244: the abort code of a DUMP_START on this spec. -/
def Fyster.dumpCode (f : Fyster) (d : Dump) (spec : List Byte) : Nat :=
  let src := fieldAt spec 0 1
  let dest := fieldAt spec 2 1
  let sel := fieldAt spec 12 4
  lowestAbort [
    (spec.length != 72, 0x24),
    (src == 0 || decide (3 < src) || decide (2 < fieldAt spec 1 1) || dest == 0 || decide (4 < dest), 0x26),
    (decide (1 < fieldAt spec 3 1) || decide (1 < fieldAt spec 8 1) || (src == 3 && decide (32 < sel)) ||
      (decide (dest ≤ 2) && fieldAt spec 32 8 % 4096 != 0), 0x25),
    (src == 2 && (f.cutSlot sel).isNone && !(f.holds.any fun h => h.2.tag == sel && h.2.cause == 1), 0x2D),
    (d.state == 1 || d.state == 2, 0x30)]

/-- Sumac engines that a form uses: one for COMPRESSED, those free up to four for EXPANDED (R247). -/
def Fyster.dumpEngines (f : Fyster) (form : Nat) : Nat :=
  let busy := sumBy (fun e => if e.2.state = 1 ∨ e.2.state = 2 then e.2.engines else 0) f.dumps
  if form = 1 then 1 else if form = 2 then min 4 (popCount 5 (f.rd 0x4800 1) - busy) else 0

/-- The present segment of a dump is looked at before it is copied (R246). -/
def Fyster.dumpLook (f : Fyster) (ch : Nat) : Fyster :=
  let d := f.dump ch
  match d.todo with
  | [] => f
  | (p, n) :: _ =>
    let s := (f.partition p).segs.find? fun s => s.serial == n
    f.setDump ch { d with
      here := p == 0xFE || s.isSome
      isOpen := match s with
        | some s => !s.closed
        | none => false }

/-- The address or offset that output byte `o` of a dump goes to: DEST_ADDR + o. -/
def Fyster.dumpWrite (f : Fyster) (ch : Nat) (d : Dump) (o : Nat) (bytes : List Byte) : Fyster :=
  let dest := fieldAt d.spec 2 1
  let addr := fieldAt d.spec 32 8 + o
  if bytes.isEmpty then f
  else if dest = 1 then f.emit (.hostWrite addr bytes)
  else if dest = 2 then f.emit (.fabric 0xFFFF 0 addr bytes)
  else
    let ip := BitVec.ofNat 128 (leNat (slice d.spec 48 16).reverse)
    let port := BitVec.ofNat 16 (fieldAt d.spec 64 2)
    (List.range (ceilDiv bytes.length 8192)).foldl (fun f i =>
      let part := slice bytes (8192 * i) 8192
      f.emit (.datagram ip port (leBytes 16 (packNat [(ch, 8), (d.serial, 24), (part.length, 32), (o + 8192 * i, 64)]) ++ part))) f

/-- A CRC unit takes in `n` bytes that the spec does not give: its value is free (log 38). -/
def Fyster.crcUnknown (f : Fyster) (k n : Nat) : Fyster :=
  let u := f.part.crcUnit k
  if u.enable && !u.paused then
    let x := f.free
    let u := { u with value := x.2.setWidth 32, length := (u.length + n) % 2 ^ 64 }
    { x.1 with part := { x.1.part with crc := tset x.1.part.crc k u } }
  else f

/-- Output bytes of a dump reach its digest unit. -/
def Fyster.dumpDigest (f : Fyster) (ch : Nat) (o : SegOut) : Fyster :=
  if o.bytes.length = o.length then { f with part := f.part.crcTake (0x6820 + ch) o.bytes } else f.crcUnknown (0x6820 + ch) o.length

/-- A dump ends: its power request, its engines and its hold are returned. -/
def Fyster.dumpEnd (f : Fyster) (ch state : Nat) : Fyster :=
  let d := f.dump ch
  let f := f.setDump ch { d with state := state, todo := [], engines := 0, abort := false }
  let f := { f with holds := f.holds.filter fun h => !(h.2.cause == 2 && h.2.tag == d.serial) }
  f.pwr (1 + ch) ((f.part.pwrReq (1 + ch)).withdraw f.part.time.now)

/-- A manifest entry (R248). -/
def DumpEntry.encode (e : DumpEntry) : List Byte :=
  leBytes 32 (packNat [(e.part, 8), (e.state, 8), (0, 16), (e.bad, 32), (e.serial, 64), (e.offset, 64), (e.bytes, 64)])

/-- R248: the manifest goes to the destination and into DUMP_MANIFEST, and the dump is DONE. -/
def Fyster.dumpManifest (f : Fyster) (ch : Nat) : Fyster :=
  let d := f.dump ch
  let m := leBytes 16 (packNat [(d.serial, 32), (d.done.length, 32), (d.bytes, 64)]) ++ d.done.flatMap DumpEntry.encode
  if fieldAt d.spec 40 8 < d.bytes + m.length then f.dumpEnd ch 5
  else
    let f := f.dumpWrite ch d d.bytes m
    let f := f.dumpDigest ch { bytes := m, length := m.length, decoded := 0, bad := 0 }
    let f := f.setDump ch { d with bytes := d.bytes + m.length }
    ({ f with part := f.part.wrDom (0x6840 + ch) 6 m }).dumpEnd ch 3

/-- R247: the power grant is there: the dump runs; one without segments writes its manifest. -/
def Fyster.dumpRun (f : Fyster) (ch : Nat) : Fyster :=
  let d := f.dump ch
  if d.state = 1 ∧ f.granted (1 + ch) = true then
    let f := (f.setDump ch { d with state := 2 }).dumpLook ch
    if d.todo.isEmpty then f.dumpManifest ch else f
  else f

/-- R244, R246, R247: a write of DUMP_START. -/
def Fyster.wrDumpStart (f : Fyster) (ch serial : Nat) : Fyster × Nat :=
  let spec := f.part.rdDom (0x6840 + ch) 1
  match f.dumpCode (f.dump ch) spec with
  | 0 =>
    let todo := f.dumpList spec
    let engines := f.dumpEngines (fieldAt spec 1 1)
    let want := fieldAt spec 3 1 = 1
    let segs := todo.filter fun e => e.1 != 0xFE
    let ranges : List (Nat × Nat × Option Nat) := (segs.map (·.1)).eraseDups.filterMap fun p =>
      let ns := (segs.filter fun e => e.1 == p).map (·.2)
      match ns.head? with
      | some a => some (p, a, some (ns.foldl max a))
      | none => none
    let x := if want then f.pin serial 2 ranges else (f, true, false)
    let d : Dump := { state := 1, serial := serial, spec := spec, todo := todo, done := [], bytes := 0, engines := engines, here := false,
                      isOpen := false, unpinned := !x.2.1, abort := false }
    let f := x.1.setDump ch d
    let f := { f with part := f.part.wrDom (0x6840 + ch) 6 [] }
    ((f.pwr (1 + ch) ((f.part.pwrReq (1 + ch)).ask (150 + 400 * engines) f.part.time.now)).dumpRun ch, 0)
  | a => (f, a)

/-- DUMP_START. -/
def execDumpStart (dt : Nat) (lvl : Level) (ch : Fin 4) (serial : BitVec 32) (s : State) : Host.Outcome State Fault Refusal :=
  .next (onFy dt (fun f => f.reply lvl 1 (f.wrDumpStart ch.val serial.toNat)) s)

/-- R244: a dump that runs stops at the next segment boundary; one that waits for power stops at once. -/
def Fyster.abortDump (f : Fyster) (ch : Nat) : Fyster :=
  let d := f.dump ch
  if d.state = 1 then f.dumpEnd ch 4 else if d.state = 2 then f.setDump ch { d with abort := true } else f

/-- DUMP_ABORT. -/
def execDumpAbort (dt : Nat) (lvl : Level) (ch : Fin 4) (s : State) : Host.Outcome State Fault Refusal :=
  .next (onFy dt (fun f => f.reply lvl 1 (f.abortDump ch.val, 0)) s)

/-- R245, R246: the present segment has been copied, or the destination has answered with an error. -/
def Fyster.dumpStep (f : Fyster) (ch : Nat) (r : DumpStep) : Fyster :=
  let d := f.dump ch
  if d.state ≠ 2 then f
  else
    match r, d.todo with
    | .destError, _ => f.dumpEnd ch 5
    | .copied, [] => f
    | .copied, (p, n) :: rest =>
      let seg := (f.partition p).segs.find? fun s => s.serial == n
      let out : SegOut := match seg with
        | some s => s.form (fieldAt d.spec 1 1) p (f.pinMask p n)
        | none =>
          { bytes := [], length := if p = 0xFE then ((tfind f.cuts n).map (·.bytes)).getD 0 else if d.here then segBytes else 0,
            decoded := 0, bad := 0 }
      let state := if p = 0xFE then 0 else if !d.here then 2 else if seg.isNone then 1 else if d.isOpen then 3 else if d.unpinned then 4
        else 0
      if fieldAt d.spec 40 8 < d.bytes + out.length then f.dumpEnd ch 5
      else
        let e : DumpEntry := { part := p, state := state, bad := out.bad, serial := n, offset := d.bytes, bytes := out.length }
        let f := (f.dumpWrite ch d d.bytes out.bytes).dumpDigest ch out
        let f := if out.decoded = 0 then f else f.bump 0x4800 3 out.decoded
        let f := if out.bad = 0 then f else f.bump 0x4800 4 out.bad
        let f := f.setDump ch { d with todo := rest, done := d.done ++ [e], bytes := d.bytes + out.length }
        if d.abort then f.dumpEnd ch 4 else if rest.isEmpty then f.dumpManifest ch else f.dumpLook ch

/-- DUMP_SEGMENT_DONE. -/
def execDumpSegmentDone (dt : Nat) (ch : Fin 4) (r : DumpStep) (s : State) : Host.Outcome State Fault Refusal :=
  .next (onFy dt (fun f => f.dumpStep ch.val r) s)

end Sys2Proof.Machine
end

