-- ==== Sys2Proof/Machine/Phases.lean ====
section
/-! DEFINITION. Phase tracking (05_phases.md): launches, work items, phases, descriptors, long phases and name tables. -/

namespace Sys2Proof.Machine

/-- Phase codes (R118). -/
def phaseOk (c : Nat) : Bool := decide (c ≤ 3) || (decide (0x10 ≤ c) && decide (c ≤ 0x1B))

/-- OPEN_MASK bit of a phase code (R118). -/
def phaseBit (c : Nat) : Nat := if c ≤ 3 then c else c - 12

/-- The binding of a launch (R132). -/
def Tu.binding (t : Tu) (launch : Nat) : Option Binding := t.binds.find? fun b => b.launch == launch

/-- A live name table (R133). -/
def Tu.nameTab (t : Tu) (graph ver : Nat) : Option NameTab := t.names.find? fun n => n.graph == graph && n.ver == ver

/-- Versions of a graph that are bound to launches, each once. -/
def Tu.boundVersions (t : Tu) (graph : Nat) : List Nat :=
  ((t.binds.filter fun b => b.graph == graph).map (·.ver)).eraseDups

/-! ### Launches (R132 to R135) -/

/-- R132, R134, R185: a launch starts. -/
def Tu.launchStart (t : Tu) (graph ver launch : Nat) (persistent : Bool) : Tu :=
  let flags := if (t.nameTab graph ver).isSome then 0 else if 4 ≤ (t.boundVersions graph).length then 1 else 2
  let shadow := t.part.flag 0x2940 1
  let ord := tget t.mace.ordinals graph 0
  let t := if shadow then { t with mace := { t.mace with ordinals := tset t.mace.ordinals graph (ord + 1) } } else t
  { t with binds := (t.binds.filter fun b => b.launch != launch) ++
      [{ launch := launch, graph := graph, ver := ver, persistent := persistent, flags := flags, ordinal := ord }] }

/-- CP_LAUNCH_START. -/
def execCpLaunchStart (dt : Nat) (p : Port) (graph : BitVec 32) (ver : BitVec 16) (launch : Word) (persistent : Bool)
    (s : State) : Host.Outcome State Fault Refusal :=
  .next (onTu p dt (fun t => t.launchStart graph.toNat ver.toNat launch.toNat persistent) s)

/-- R135: the last launch bound to a version has ended: a version that is not its graph's newest retires. -/
def Tu.retireVersion (t : Tu) (graph ver : Nat) : Tu :=
  let bound := t.binds.any fun b => b.graph == graph && b.ver == ver
  match t.newest.find? fun n => n.1 == graph with
  | some n =>
    if bound || n.2 == ver then t
    else
      ({ t with names := t.names.filter fun x => !(x.graph == graph && x.ver == ver) }).log
        { event 0x0023 224 graph ver with gslot := t.graphGroup graph }
  | none => t

/-- R130, R132, R135: a launch ends. -/
def Tu.launchEnd (t : Tu) (launch : Nat) : Tu :=
  let units := (t.units.filter fun u => u.2.launches.contains launch).map (·.1)
  let t := units.foldl (fun t u =>
    (t.setUnit u { t.unit u with launches := (t.unit u).launches.filter (· != launch) }).offerDescEnd u) t
  match t.binding launch with
  | some b => ({ t with binds := t.binds.filter fun x => x.launch != launch }).retireVersion b.graph b.ver
  | none => t

/-- CP_LAUNCH_END. -/
def execCpLaunchEnd (dt : Nat) (p : Port) (launch : Word) (s : State) : Host.Outcome State Fault Refusal :=
  .next (onTu p dt (fun t => t.launchEnd launch.toNat) s)

/-! ### TR_PHASE (R123, R126 to R128) -/

/-- A slot; `none` when it is free. -/
def Tu.slot (t : Tu) (k : Nat) : Option PhSlot := tget t.slots k none

/-- Open slots with their numbers. -/
def Tu.openSlots (t : Tu) : List (Nat × PhSlot) :=
  t.slots.filterMap fun e =>
    match e.2 with
    | some x => some (e.1, x)
    | none => none

/-- The slot that holds an item. -/
def Tu.slotOf (t : Tu) (launch tag : Nat) : Option (Nat × PhSlot) :=
  t.openSlots.find? fun e => e.2.launch == launch && e.2.tag == tag

/-- The lowest-numbered free slot (R117). -/
def Tu.freeSlot (t : Tu) : Option Nat := (List.range 64).find? fun k => (t.slot k).isNone

/-- The fixed part of CLOSE, OVF_OPEN and UNSLOTTED_CLOSE (R126). -/
def phaseFixed (kind slot nph flags : Nat) (x : PhSlot) (opened : Nat) : List Word :=
  payload 5 [(kind, 4), (x.unit, 4), (slot, 8), (nph, 5), (flags, 11), (x.size, 32), (x.graph, 32), (x.ver, 16), (x.node, 16),
    (x.launch, 64), (x.tag, 32), (x.nameKey, 32), (opened, 64)]

/-- A phase entry of a CLOSE record (R128). -/
def PhEntry.words (e : PhEntry) (opened now : Nat) : List Word :=
  let busy := e.busy + if e.isOpen then now - e.since else 0
  let start := match e.start with
    | some s => if e.noStart then 0 else s - opened
    | none => 0
  let ended := match e.ended with
    | some x => if e.isOpen then 0 else x - opened
    | none => 0
  payload 3 [(e.code, 8), (min e.count 255, 8), (b2n e.noStart, 1), (b2n e.isOpen, 1), (0, 14), (min busy 0xFFFFFFFF, 32),
    (start, 64), (ended, 64)]

/-- R117, R123: the item in a slot closes; its slot is free. -/
def Tu.closeSlot (t : Tu) (k : Nat) (x : PhSlot) (abandoned : Bool) : Tu :=
  let flags := if abandoned then setBit x.flags 5 true else x.flags
  let es := sortBy (fun a b => decide (a.code ≤ b.code)) x.entries
  let r := t.mkRec 0x03 (0x0300 + k) 128 (t.graphGroup x.graph) t.ns
    (phaseFixed 1 k es.length flags x (ts64Of x.opened) ++ es.flatMap fun e => e.words x.opened t.ns)
  let t := { t with slots := tset t.slots k none }
  ((t.offer 1 3 (60000 + 10000 * es.length) [r]).1).bump 0x2600 8 1

/-- A compact record (R124). -/
def Tu.compact (t : Tu) (kind : Nat) (x : PhSlot) (gslot opened : Nat) : Tu :=
  (t.offer 1 3 60000 [t.mkRec 0x03 0x0340 128 gslot t.ns (phaseFixed kind 0xFF 0 x.flags x opened)]).1

/-- A count of PHASE_PROTOCOL_ERRORS without a log entry (R122, R124). -/
def Tu.protocol (t : Tu) : Tu := t.bump 0x2600 7 1

/-! ### Item events (R117 to R124) -/

/-- The item that an OPEN opens (R119 to R121, R132). -/
def Tu.newItem (t : Tu) (o : OpenEv) : PhSlot :=
  let b := t.binding o.launch.toNat
  let graph := match b with
    | some b => b.graph
    | none => 0
  let ver := match b with
    | some b => b.ver
    | none => 0
  let bflags := match b with
    | some b => b.flags
    | none => 2
  let pers := match b with
    | some b => b.persistent
    | none => false
  let key := if bflags = 0 then (match t.nameTab graph ver with
    | some n => ((n.names.find? fun e => e.1 == o.node.toNat).map (·.2)).getD 0
    | none => 0) else 0
  { launch := o.launch.toNat, tag := o.tag.toNat, size := o.size.toNat, unit := o.unit.toNat, node := o.node.toNat,
    graph := graph, ver := ver, nameKey := key,
    flags := bflags + 4 * b2n o.workUnknown + 8 * b2n o.indirect + 16 * b2n pers,
    opened := t.ns, mult := 1, emitN := 0, lastCode := 0xFF, entries := [] }

/-- R117, R122, R124: OPEN. -/
def Tu.cpOpen (t : Tu) (o : OpenEv) : Tu :=
  if !t.part.flag 0x2600 1 then t
  else if 4 ≤ o.unit.toNat then t.counted 0x2600 7 1
  else
    let t := match t.slotOf o.launch.toNat o.tag.toNat with
      | some (k, x) => t.closeSlot k x true
      | none => t
    let x := t.newItem o
    match t.freeSlot with
    | some k =>
      let t := { t with slots := tset t.slots k (some x) }
      t.wr 0x2600 4 (max (t.rd 0x2600 4) t.openSlots.length)
    | none => (t.bump 0x2600 5 1).compact 2 x (t.graphGroup x.graph) (ts64Of x.opened)

/-- CP_OPEN. -/
def execCpOpen (dt : Nat) (p : Port) (o : OpenEv) (s : State) : Host.Outcome State Fault Refusal :=
  .next (onTu p dt (fun t => t.cpOpen o) s)

/-- A phase entry that has seen nothing. -/
def PhEntry.zero (code : Nat) : PhEntry :=
  { code := code, count := 0, busy := 0, start := none, ended := none, noStart := false, isOpen := false, since := 0 }

/-- The entry of a code. -/
def PhSlot.entry (x : PhSlot) (code : Nat) : PhEntry := (x.entries.find? fun e => e.code == code).getD (.zero code)

/-- The slot with the entry of a code replaced. -/
def PhSlot.setEntry (x : PhSlot) (e : PhEntry) : PhSlot :=
  { x with entries := (x.entries.filter fun a => a.code != e.code) ++ [e] }

/-- R122: BEGIN in an entry. -/
def PhEntry.begin' (e : PhEntry) (now : Nat) : PhEntry :=
  if e.isOpen then { e with count := e.count + 1 }
  else { e with count := e.count + 1, start := some (e.start.getD now), isOpen := true, since := now }

/-- R122: END in an entry; the second answer: the END was ignored, the third: it is a protocol error. -/
def PhEntry.end' (e : PhEntry) (now : Nat) : PhEntry × Bool × Bool :=
  if e.isOpen then ({ e with busy := e.busy + (now - e.since), ended := some now, isOpen := false }, false, false)
  else if e.start.isNone then ({ e with noStart := true, ended := some now }, false, true)
  else (e, true, true)

/-- R122, R124: BEGIN. -/
def Tu.cpBegin (t : Tu) (launch tag code : Nat) : Tu :=
  if !t.part.flag 0x2600 1 then t
  else if !phaseOk code then t.counted 0x2600 7 1
  else
    match t.slotOf launch tag with
    | none => t.protocol
    | some (k, x) =>
      { t with slots := tset t.slots k (some { x.setEntry ((x.entry code).begin' t.ns) with lastCode := code }) }

/-- CP_BEGIN. -/
def execCpBegin (dt : Nat) (p : Port) (launch : Word) (tag : BitVec 32) (code : Byte) (s : State) :
    Host.Outcome State Fault Refusal :=
  .next (onTu p dt (fun t => t.cpBegin launch.toNat tag.toNat code.toNat) s)

/-- R122, R124: END. -/
def Tu.cpEnd (t : Tu) (launch tag code : Nat) : Tu :=
  if !t.part.flag 0x2600 1 then t
  else if !phaseOk code then t.counted 0x2600 7 1
  else
    match t.slotOf launch tag with
    | none => t.protocol
    | some (k, x) =>
      let e := (x.entry code).end' t.ns
      let y := x.setEntry e.1
      let y := if e.2.1 then { y with flags := setBit y.flags 6 true } else y
      let t := { t with slots := tset t.slots k (some y) }
      if e.2.2 then t.protocol else t

/-- CP_END. -/
def execCpEnd (dt : Nat) (p : Port) (launch : Word) (tag : BitVec 32) (code : Byte) (s : State) :
    Host.Outcome State Fault Refusal :=
  .next (onTu p dt (fun t => t.cpEnd launch.toNat tag.toNat code.toNat) s)

/-- R123, R124: CLOSE. -/
def Tu.cpClose (t : Tu) (launch tag : Nat) : Tu :=
  if !t.part.flag 0x2600 1 then t
  else
    match t.slotOf launch tag with
    | some (k, x) => t.closeSlot k x false
    | none =>
      let g := match t.binding launch with
        | some b => t.graphGroup b.graph
        | none => 0xFF
      (t.bump 0x2600 6 1).compact 3
        { launch := launch, tag := tag, size := 0, unit := 0, node := 0, graph := 0, ver := 0, nameKey := 0, flags := 0,
          opened := 0, mult := 0, emitN := 0, lastCode := 0, entries := [] } g 0

/-- CP_CLOSE. -/
def execCpClose (dt : Nat) (p : Port) (launch : Word) (tag : BitVec 32) (s : State) : Host.Outcome State Fault Refusal :=
  .next (onTu p dt (fun t => t.cpClose launch.toNat tag.toNat) s)

/-- Index of a dispatched unit: a tile, or 72 for the command processor; none for a reserved code (R119). -/
def dispatchUnit (u : Nat) : Option Nat := if u ≤ 71 then some u else if u = 128 then some 72 else none

/-- R119, R154: DISPATCH. -/
def Tu.cpDispatch (t : Tu) (d : DispatchEv) : Tu :=
  match dispatchUnit d.unit.toNat with
  | none => t.counted 0x2600 7 1
  | some u =>
    let id : DescId := { graph := d.graph.toNat, ver := d.ver.toNat, node := d.node.toNat, launch := d.launch.toNat }
    let x := t.unit u
    { t.setUnit u { x with waiting := x.waiting ++ [id] } with
      frz := { t.frz with awaiting := t.frz.awaiting + 1, progress := if t.frz.awaiting = 0 then t.ns else t.frz.progress } }

/-- CP_DISPATCH. -/
def execCpDispatch (dt : Nat) (p : Port) (d : DispatchEv) (s : State) : Host.Outcome State Fault Refusal :=
  .next (onTu p dt (fun t => t.cpDispatch d) s)

/-! ### Long phases (R125, R131) -/

/-- OPEN_MASK (R131). -/
def PhSlot.openMask (x : PhSlot) : Nat :=
  x.entries.foldl (fun m e => if e.isOpen then setBit m (phaseBit e.code) true else m) 0

/-- R125: the time unit has reached the next crossing of a slot. -/
def Tu.longCrossing (t : Tu) (k : Nat) : Tu :=
  match t.slot k with
  | none => t
  | some x =>
    let at' := x.opened + x.mult * t.rd 0x2600 2
    if t.ns < at' then t
    else
      let n := min (x.emitN + 1) 255
      let r := t.mkRec 0x04 (0x0300 + k) 128 (t.graphGroup x.graph) at'
        (payload 5 [(k, 8), (n, 8), (x.lastCode, 8), (0, 8), (x.openMask, 16), (0, 16), (x.graph, 32), (x.ver, 16), (x.node, 16),
          (x.launch, 64), (x.tag, 32), (x.size, 32), (ts64Of x.opened, 64)])
      let t := { t with slots := tset t.slots k (some { x with mult := 2 * x.mult, emitN := n }) }
      ((t.offer 5 1 20000 [r]).1).bump 0x2600 9 1

/-- LONG_PHASE_CROSSING. -/
def execLongPhaseCrossing (dt : Nat) (p : Port) (slot : Fin 64) (s : State) : Host.Outcome State Fault Refusal :=
  .next (onTu p dt (fun t => t.longCrossing slot.val) s)

/-! ### PHASE_ENABLE and name tables (R133, R134, R138) -/

/-- Every open slot closes with ABANDONED (R138, R396). -/
def Tu.abandonSlots (t : Tu) : Tu := t.openSlots.foldl (fun t e => t.closeSlot e.1 e.2 true) t

/-- R138: a write of PHASE_ENABLE. -/
def Tu.wrPhaseEnable (t : Tu) (v : Nat) : Tu × Nat :=
  if 1 < v then (t, 0x26)
  else if v = 1 then (t.wr 0x2600 1 1, 0)
  else (t.abandonSlots.wr 0x2600 1 0, 0)

/-- PHASE_ENABLE_WRITE. -/
def execPhaseEnableWrite (dt : Nat) (p : Port) (lvl : Level) (v : Byte) (s : State) : Host.Outcome State Fault Refusal :=
  .next (onTu p dt (fun t => t.reply lvl 1 (t.wrPhaseEnable v.toNat)) s)

/-- Node and name key of each entry of a name table (R133). -/
def nameEntries : Nat → List Byte → List (Nat × Nat)
  | 0, _ => []
  | n + 1, bs => (fieldAt bs 0 2, fieldAt bs 4 4) :: nameEntries n (bs.drop 8)

/-- The oldest of the tables that meet `ok`. -/
def oldestTab (ok : NameTab → Bool) (l : List NameTab) : Option NameTab :=
  (l.filter ok).foldl (fun m x =>
    match m with
    | some y => if x.age < y.age then some x else m
    | none => some x) none

/-- R133, R134: a write of NAME_TABLE_LOAD. -/
def Tu.wrNameTable (t : Tu) (v : List Byte) : Tu × Nat :=
  let graph := fieldAt v 0 4
  let ver := fieldAt v 4 2
  let n := fieldAt v 6 2
  let es := nameEntries n (v.drop 16)
  let isBound (x : NameTab) : Bool := t.binds.any fun b => b.graph == x.graph && b.ver == x.ver
  let newest := (t.newest.find? fun x => x.1 == graph).map (·.2)
  let same := t.nameTab graph ver
  let live := t.names.filter fun x => x.graph == graph
  let victim := match same with
    | some x => some x
    | none => if 4 ≤ live.length then oldestTab (fun x => !isBound x && newest != some x.ver) live else none
  let discard := same.isNone && decide (4 ≤ live.length) && live.all isBound
  let kept := match victim with
    | some y => t.names.filter fun x => !(x.graph == y.graph && x.ver == y.ver)
    | none => t.names
  let full := !discard && (decide (64 ≤ kept.length) || decide (16384 < sumBy (fun x => x.names.length) kept + n) ||
    (same.isNone && decide (4 ≤ live.length) && victim.isNone))
  let boundSame := match same with
    | some x => t.binds.any fun b => b.graph == x.graph && b.ver == x.ver && b.flags == 0
    | none => false
  let a := lowestAbort
    [(decide (v.length < 16) || v.length != 16 + 8 * n, 0x24),
     (n == 0 || decide (4096 < n) || es.any (fun e => e.2 == 0) || !distinct (es.map (·.1)), 0x25),
     (boundSame, 0x27),
     (full, 0x28)]
  if a ≠ 0 then (t, a)
  else
    let t : Tu := { t with newest := (t.newest.filter fun (x : Nat × Nat) => x.1 != graph) ++ [(graph, ver)] }
    if discard then (t.counted 0x2610 4 1, 0)
    else
      let age := 1 + t.names.foldl (fun m x => max m x.age) 0
      ({ t with names := kept ++ [{ graph := graph, ver := ver, age := age, names := es }] }, 0)

/-- NAME_TABLE_LOAD. -/
def execNameTableLoad (dt : Nat) (p : Port) (lvl : Level) (v : List Byte) (s : State) : Host.Outcome State Fault Refusal :=
  .next (onTu p dt (fun t => t.reply lvl 1 (t.wrNameTable v)) s)

end Sys2Proof.Machine
end

