-- ==== Sys2Proof/Machine/CutTu.lean ====
section
/-! DEFINITION. The Clove cut in a TU: the order, the capture at T_f, the contents and the end (R230 to R240). -/

namespace Sys2Proof.Machine

/-! ### Orders (R230, R232, R233) -/

/-- The TR_CUT control record that answers or reports: TS64 is the time of sending. -/
def Tu.cutCtl (t : Tu) (gslot kind cflags cutId tf : Nat) (rest : List (Nat × Nat)) : Rec :=
  t.cutRec gslot t.ns 5 kind cflags 0 cutId tf tf rest

/-- ACODE of the answer to a cut order (R236). -/
def ackCode (a : OrderAnswer) (late : Bool) : Nat :=
  match a with
  | .refused 0x2B => 1
  | .refused 0x28 => 2
  | .refused _ => 3
  | .accepted => if late then 4 else 0
  | .held => if late then 4 else 0

/-- R240: cuts whose T_f + U has passed no longer make records AMBIGUOUS. -/
def Tu.pruneCuts (t : Tu) : Tu := { t with cutsPending := t.cutsPending.filter fun f => decide (t.ns ≤ f + t.uNs) }

/-- R232, R233: TR_CUT ORDER reaches the TU, which answers with ACK. -/
def Tu.cutOrderRx (t : Tu) (r : Rec) : Tu :=
  if r.type ≠ 0x0D ∨ r.fld 192 8 ≠ 1 then t
  else
    let id := r.fld 224 32
    let serial := r.fld 384 32
    let tf := fullNs t.ns (r.fld 256 64)
    let a := t.part.orderAnswer .cut id serial
    let late := match a, t.part.order? .cut id with
      | .held, some o => o.late
      | _, _ => decide (tf < t.ns)
    let ack (t : Tu) : Tu := t.sendFree (t.cutCtl r.gslot 2 0 id tf [(serial, 32), (ackCode a late, 8)])
    match a with
    | .accepted =>
      let old := match t.part.order? .cut id with
        | some o => [o.eff]
        | none => []
      let t := t.pruneCuts
      ack { t with
        part := t.part.putOrder { kind := .cut, target := id, serial := serial, eff := tf, late := late,
                                  data := [BitVec.ofNat 8 r.gslot, BitVec.ofNat 8 (r.fld 416 8)] }
        cutsPending := (t.cutsPending.filter fun f => !old.contains f) ++ [tf] }
    | _ => ack t

/-- TR_CUT_ORDER_RX. -/
def execTrCutOrderRx (dt : Nat) (p : Port) (r : Rec) (s : State) : Host.Outcome State Fault Refusal :=
  .next (onTu p dt (fun t => t.cutOrderRx r) s)

/-- R21, R230: TR_CUT CANCELLED removes the pending cut of this CUT_ID and SERIAL before its T_f; otherwise the change stands. -/
def Tu.cutCancelRx (t : Tu) (r : Rec) : Tu :=
  if r.type ≠ 0x0D ∨ r.fld 192 8 ≠ 5 then t
  else
    match t.part.order? .cut (r.fld 224 32) with
    | some o =>
      if o.serial = r.fld 384 32 ∧ t.ns < o.eff then
        { t with part := t.part.dropOrder .cut o.target, cutsPending := t.cutsPending.filter (· != o.eff) }
      else t
    | none => t

/-- TR_CUT_CANCELLED_RX. -/
def execTrCutCancelledRx (dt : Nat) (p : Port) (r : Rec) (s : State) : Host.Outcome State Fault Refusal :=
  .next (onTu p dt (fun t => t.cutCancelRx r) s)

/-! ### The contents (R237) -/

/-- What every record of one cut carries: CUT_ID, T_f and TAKEN in ns, GSLOT, and whether it was taken late. -/
structure CutHead where
  id    : Nat
  tf    : Nat
  taken : Nat
  gslot : Nat
  late  : Bool

/-- CFLAGS of a cut's records so far (R236). -/
def CutHead.flags (h : CutHead) : Nat := b2n h.late

/-- A record of a cut with LATE where it was taken late (R18, R233). -/
def CutHead.mark (h : CutHead) (r : Rec) : Rec := if h.late then r.setFlag 3 else r

/-- A content record: the common part, then the words from bit 384 on. -/
def Tu.snapRec (t : Tu) (h : CutHead) (kind part : Nat) (last : Bool) (ws : List Word) : Rec :=
  let r := t.mkRec 0x0D selfStream 224 h.gslot h.taken (cutPay 3 kind h.flags part h.id h.tf h.taken [] ++ ws)
  h.mark (if last then r else r.setFlag 6)

/-- Lists of at most `n` entries each; `k` bounds their number. -/
def chunks {α : Type} (n : Nat) : Nat → List α → List (List α)
  | 0, _ => []
  | k + 1, l => if l.isEmpty then [] else l.take n :: chunks n k (l.drop n)

/-- A chain of content records, one for each chunk. -/
def Tu.snapChain {α : Type} (t : Tu) (h : CutHead) (kind : Nat) (f : Nat → List α → List Word) (cs : List (List α)) : List Rec :=
  cs.zipIdx.map fun (c : List α × Nat) => t.snapRec h kind c.2 (c.2 + 1 == cs.length) (f c.2 c.1)

/-- A counter as the cut strobe latches it (R234). -/
def Tu.cutLatch (t : Tu) (c : Nat) : Cnt := (t.cnt c).settle t.ns

/-- SNAP_COUNTERS: every counter. -/
def Tu.snapCounters (t : Tu) (h : CutHead) : List Rec :=
  t.snapChain h 0x10 (fun i cs =>
    let xs := cs.map fun c => (c, t.cutLatch c)
    let st := xs.map fun x => leBytes 1 (packNat [(b2n x.2.sat, 2), (b2n x.2.percmd, 1),
      (b2n (x.2.percmd && (t.unit (unitOf x.1)).bank), 1)])
    payload 1 [(216 * i, 16), (cs.length - 1, 8)] ++ allWords st.flatten ++ xs.map fun x => BitVec.ofNat 64 x.2.val)
    (chunks 216 14 (List.range 2816))

/-- SNAP_PERCMD: counters in PERCMD mode. -/
def Tu.snapPercmd (t : Tu) (h : CutHead) : List Rec :=
  let cs := (t.cnts.filter fun e => e.2.percmd && hasBank e.1).map (·.1)
  t.snapChain h 0x11 (fun _ cs => cs.flatMap fun c =>
    let x := t.cutLatch c
    let m := if x.staged.isSome then (t.unit (unitOf c)).merged else 0
    payload 3 [(c, 16), (b2n x.staged.isSome, 1), (0, 15), (m, 16), (0, 16), (x.other, 64), ((x.staged.map (·.1)).getD 0, 64)])
    (chunks 82 16 cs)

/-- SNAP_PHASE: every open slot, in slot order. -/
def Tu.snapPhase (t : Tu) (h : CutHead) : List Rec :=
  t.openSlots.map fun (e : Nat × PhSlot) =>
    let es := sortBy (fun a b => decide (a.code ≤ b.code)) e.2.entries
    t.snapRec h 0x12 0 true (phaseFixed 1 e.1 es.length e.2.flags e.2 (ts64Of e.2.opened) ++ es.flatMap fun x => x.words e.2.opened h.taken)

/-- ALIVE of the last record of a stream. -/
def Part.lastAlive (p : Part) (stream : Nat) : Nat := (tget p.alive stream 0 + 255) % 256

/-- SNAP_SAMPLER: every set that has a list. -/
def Tu.snapSampler (t : Tu) (h : CutHead) : List Rec :=
  (t.sets.filter fun (e : Nat × SampleSet) => !e.2.list.isEmpty).flatMap fun (e : Nat × SampleSet) =>
    let x := e.2
    t.snapChain h 0x13 (fun i cs =>
      payload 4 [(e.1, 4), (b2n (t.setRunning x), 1), (b2n (x.zoom != 0), 1), (0, 2), (cs.length - 1, 8), (245 * i, 8),
        (t.part.lastAlive (0x0100 + e.1), 8), (0, 32), (x.prevTs, 64), (x.zoom, 64), (0, 64)] ++
        cs.map fun c => BitVec.ofNat 64 (((tfind x.base c).map (·.val)).getD 0)) (chunks 245 2 x.list)

/-- Versions that VERSION_STATUS lists: newest, named or bound (R135, R138). -/
def Tu.versions (t : Tu) : List (Nat × Nat) :=
  (t.newest ++ t.names.map (fun n => (n.graph, n.ver)) ++ t.binds.map fun b => (b.graph, b.ver)).eraseDups

/-- An entry of VERSION_STATUS (R138). -/
def Tu.versionStatus (t : Tu) (v : Nat × Nat) : List Byte :=
  leBytes 12 (packNat [(v.1, 32), (v.2, 16), ((t.binds.filter fun b => b.graph == v.1 && b.ver == v.2).length, 16),
    (b2n (t.nameTab v.1 v.2).isSome, 8)])

/-- SNAP_STATE. -/
def Tu.snapState (t : Tu) (h : CutHead) : List Rec :=
  let vs := t.versions
  t.snapChain h 0x14 (fun _ vs =>
    payload 4 [(ts64Of t.mace.w, 64), (t.part.time.servo.code, 8), (0, 8), (t.part.time.stepEpoch, 16), (0, 32), (t.win.writePtr, 64),
      (t.win.drainPtr, 64)] ++ allWords (vs.flatMap t.versionStatus))
    (if vs.isEmpty then [[]] else chunks 163 (vs.length + 1) vs)

/-- SNAP_ALIVE: every stream in use. -/
def Tu.snapAlive (t : Tu) (h : CutHead) : List Rec :=
  let ss := t.part.alive.map (·.1)
  t.snapChain h 0x15 (fun _ cs => allWords (cs.flatMap fun x => leBytes 4 (packNat [(x, 16), (t.part.lastAlive x, 8)])))
    (chunks 496 (ss.length + 1) ss)

/-! ### Link state (R238) -/

/-- An entry of TR_LINKSTATE; ages in ns. -/
def linkEntry (unit u : Nat) (up fseq16 : Bool) (held tx rx txAge rxAge : Nat) : List Word :=
  payload 3 [(unit, 16), (b2n up, 1), (b2n (decide (txAge ≤ u)), 1), (b2n (decide (rxAge ≤ u)), 1), (b2n fseq16, 1), (0, 4), (held, 8),
    (tx, 32), (rx, 32), (min txAge 0xFFFFFFFF, 32), (min rxAge 0xFFFFFFFF, 32)]

/-- The entry of one end of a tray link at the instant `at'` in ns. -/
def Link.stateEntry (l : Link) (unit u at' : Nat) : List Word :=
  linkEntry unit u (l.st == .up) true l.replay.length ((l.txFseq + 65535) % 65536) l.ackSeq (at' - l.lastTx / 65536) (at' - l.lastRx / 65536)

/-- The head of TR_LINKSTATE. -/
def linkStateHead (n cutId tf : Nat) : List Word := payload 3 [(n, 16), (0, 48), (cutId, 32), (0, 32), (ts64Of tf, 64)]

/-- A TU's TR_LINKSTATE: its TL port and 24 fabric ports. -/
def Tu.linkState (t : Tu) (h : CutHead) (taps : List LinkTap) : Rec :=
  h.mark (t.mkRec 0x0E selfStream 224 h.gslot h.taken
    (linkStateHead 25 h.id h.tf ++ t.link.stateEntry 224 t.uNs h.taken ++
      (List.range 24).flatMap fun k =>
        let x := taps.getD k { up := false, tx := 0, rx := 0, txAge := 0xFFFFFFFF, rxAge := 0xFFFFFFFF }
        linkEntry (160 + k) t.uNs x.up false 0 x.tx.toNat x.rx.toNat x.txAge x.rxAge))

/-! ### At T_f (R234, R235) -/

/-- The cut whose chains hold the frozen rings, where a cut has sent or is sending them. -/
def Tu.ringsCut (t : Tu) : Option CutSet := t.cuts.find? fun c => decide (0 < c.chains)

/-- R234: the cut is taken at the present instant. -/
def Tu.takeCut (t : Tu) (o : Order) (taps : List LinkTap) : Tu :=
  let h : CutHead := { id := o.target, tf := o.eff, taken := if o.late then t.ns else o.eff, gslot := leNat (o.data.take 1), late := o.late }
  let t := { t with part := t.part.dropOrder .cut o.target }
  let full := decide (2 ≤ t.cuts.length)
  let froze := t.frz.frozen.isNone
  let byCut := match t.frz.frozen with
    | some (c, _) => c == 5
    | none => false
  let shared := byCut && (match t.ringsCut with
    | some c => decide (c.chains ≤ c.sent)
    | none => false)
  let ringsId := if shared then (t.ringsCut.map (·.ringsId)).getD h.id else h.id
  let old := t
  let t := ((t.freezeRings 5 h.taken).sumacClose).traceCut h.taken
  let chains := if full || shared then [] else (List.range 101).flatMap t.ringChain
  let cflags := packNat [(b2n h.late, 1), (b2n shared, 1), (b2n full, 1)]
  let set : CutSet :=
    { cutId := h.id, tf := h.tf, taken := h.taken, gslot := h.gslot, cflags := cflags
      todo := if full then [] else chains ++ old.snapCounters h ++ old.snapPercmd h ++ old.snapPhase h ++ old.snapSampler h ++
        old.snapState h ++ old.snapAlive h
      sent := 0, bytes := 0, chains := chains.length, ringsId := ringsId, resume := froze }
  let t := ((t.wr 0x2820 2 h.id).bump 0x2820 3 1)
  let t := if h.late then t.bump 0x2820 4 1 else t
  let t := if full then t.bump 0x2820 6 1 else t
  let u := { t.part.crcUnit 0x2810 with enable := true, busy := true }
  let t := if full then t else { t with part := { t.part with crc := tset t.part.crc 0x2810 u.init }, cuts := t.cuts ++ [set] }
  let t := t.sendFree (h.mark (t.cutRec h.gslot h.taken 5 3 h.flags 0 h.id h.tf h.taken [(min t.uNs 0xFFFFFFFF, 32)]))
  let t := t.sendFree (t.linkState h taps)
  let t := if full then t.cutDone set cflags else t
  t.cutPreempt

/-- R17, R19, R234: the TU's time reaches T_f, or the order has come late. -/
def Tu.cloveCut (t : Tu) (cut : Nat) (taps : List LinkTap) : Tu :=
  match t.part.order? .cut cut with
  | some o => if o.eff ≤ t.ns then t.takeCut o taps else t
  | none => t

/-- CLOVE_CUT. -/
def execCloveCut (dt : Nat) (p : Port) (cut : BitVec 32) (taps : List LinkTap) (s : State) : Host.Outcome State Fault Refusal :=
  .next (onTu p dt (fun t => t.cloveCut cut.toNat taps) s)

/-- R235: a snapshot not emitted within CUT_HOLD_MS, here `hold`, is abandoned. -/
def Tu.cutHold (t : Tu) (cut hold : Nat) : Tu :=
  match t.cuts.find? fun c => c.cutId == cut with
  | none => t
  | some c =>
    if t.ns < c.taken + hold * 1000000 then t
    else
      let head := (t.cuts.head?.map (·.cutId)) == some cut
      let inHand := match t.exp.grant with
        | some g => g.req == 6 && head
        | none => false
      let t := if inHand then { t with exp := { t.exp with grant := none } } else t
      (t.bump 0x2820 5 1).cutDone { c with todo := [] } (cflag c.cflags 3)

/-- CUT_HOLD_TIMEOUT; the TU uses the CUT_HOLD_MS of its Fyster (log 39). -/
def execCutHoldTimeout (dt : Nat) (p : Port) (cut : BitVec 32) (s : State) : Host.Outcome State Fault Refusal :=
  .next (onTu p dt (fun t => t.cutHold cut.toNat (s.fy.rd 0x6830 6)) s)

end Sys2Proof.Machine
end

