-- ==== Sys2Proof/Machine/CutFy.lean ====
section
/-! DEFINITION. The Clove cut in Fyster: orders down the tree, acknowledgements, the snapshot, the pin and the summary (R230
to R233, R236, R238, R241 to R243). -/

namespace Sys2Proof.Machine

/-! ### The cut store (R241) -/

/-- A cut as Fyster first holds it. -/
def newCut (cut serial tf scope oflags group gslot : Nat) (issuer : Bool) (raw : List Byte) : CutSlot :=
  { cutId := cut, serial := serial, tf := tf, scope := scope, oflags := oflags, group := group, gslot := gslot, issuer := issuer,
    raw := raw, state := 1, cflags := 0, truncated := false, children := [], resends := 0, acked := [], done := [], late := [],
    missing := [], digests := [], takenAt := none, bytes := 0, waiting := false, summarised := false, newEnd := false, fseqs := [] }

/-- A slot for a cut: its own, else a free one, else one whose cut is over and that no dump reads (log 40). -/
def Fyster.cutPlace (f : Fyster) (cut : Nat) : Option Nat :=
  match f.cutSlot cut with
  | some c => some c.1
  | none =>
    match (List.range 8).find? fun k => (tfind f.cuts k).isNone with
    | some k => some k
    | none =>
      (List.range 8).find? fun k => match tfind f.cuts k with
        | some c => decide (3 ≤ c.state) && f.dumps.all fun d => !d.2.todo.contains (0xFE, k)
        | none => true

/-- Fyster with the slot of a cut changed. -/
def Fyster.modCut (f : Fyster) (cut : Nat) (g : CutSlot → CutSlot) : Fyster :=
  { f with cuts := f.cuts.map fun (c : Nat × CutSlot) => if c.2.cutId = cut then (c.1, g c.2) else c }

/-- A cut that a Fyster has accepted becomes pending. -/
def Fyster.holdCut (f : Fyster) (k : Nat) (c : CutSlot) : Fyster :=
  { f with
    cuts := tset f.cuts k c
    part := f.part.putOrder { kind := .cut, target := c.cutId, serial := c.serial, eff := c.tf, late := decide (c.tf < f.ns), data := [] } }

/-! ### Down the tree (R232) -/

/-- The TR_CUT record ORDER or CANCELLED that Fyster sends to its TUs. -/
def Fyster.cutToTu (f : Fyster) (c : CutSlot) (kind : Nat) (p : Nat) : Fyster :=
  f.sendTu p (f.mkRec 0x0D selfStream 518 c.gslot f.ns (cutPay 5 kind 0 0 c.cutId c.tf c.tf [(c.serial, 32), (c.oflags, 8)]))

/-- An order, or a cancellation as CUT_ID and SERIAL alone (log 41), into a child role's down sub-slot. -/
def Fyster.cutDown (f : Fyster) (g childLevel sub : Nat) (dst : Nat × Nat) (raw : List Byte) : Fyster :=
  f.remote dst.1 dst.2 (roleArea g childLevel + downOfs childLevel sub + 56) (slice (raw ++ List.replicate 32 0) 0 32) 0

/-- A child that has been sent the order now. -/
def cutChild (kind child now : Nat) : CutChild :=
  { kind := kind, child := child, sentAt := now, second := false, acked := false, missing := false, trays := 0, late := 0, absent := 0,
    resent := 0 }

/-- R232: the order, or its cancellation, goes to the TUs on these ports. -/
def Fyster.cutToPorts (f : Fyster) (cut : Nat) (ports : List Nat) (cancel : Bool) : Fyster :=
  match f.cutSlot cut with
  | none => f
  | some (_, c) =>
    let f := ports.foldl (fun f p => f.cutToTu c (if cancel then 5 else 1) p) f
    if cancel then f
    else f.modCut cut fun c => { c with children := c.children ++ ports.map fun p => cutChild 0 p f.ns }

/-- R232: the order, or its cancellation, goes to the children of a role that this Fyster holds or stands by for. -/
def Fyster.cutToRole (f : Fyster) (cut g : Nat) (x : Grp) (r : Role) (cancel : Bool) (raw : List Byte) : Fyster :=
  if r.level = 0 then f.cutToPorts cut (f.members x) cancel
  else
    let cs := x.childTrays r
    let f := cs.foldl (fun f c => f.cutDown g (r.level - 1) (b2n r.standby) c.1 raw) f
    if cancel then f
    else f.modCut cut fun c => { c with children := c.children ++ (List.range cs.length).map fun i => cutChild r.level i f.ns }

/-! ### Acknowledgements (R232) -/

/-- Trays below child `i` of a role. -/
def Grp.traysBelow (x : Grp) (r : Role) (i : Nat) : Nat :=
  if r.level = 2 then ((x.section_ i).map (·.trays.length)).getD 0 else 1

/-- Totals of the children of one kind: trays acknowledged, late, missing, and resends. -/
def CutSlot.totals (c : CutSlot) (kind : Nat) : Nat × Nat × Nat × Nat :=
  let cs := c.children.filter fun x => x.kind == kind
  (sumBy (·.trays) cs, sumBy (·.late) cs, sumBy (·.absent) cs, sumBy (fun x => x.resent + b2n x.second) cs)

/-- The 16 bytes of an acknowledgement in an up sub-slot, from its byte 48 (log 41). -/
def cutAckBytes (cut code : Nat) (n : Nat × Nat × Nat × Nat) : List Byte :=
  leBytes 16 (packNat [(cut, 32), (code, 8), (0, 24), (min n.1 65535, 16), (min n.2.1 65535, 16), (min n.2.2.1 65535, 16),
    (min n.2.2.2 65535, 16)])

/-- What an up sub-slot says of a cut reaches the parent role: child `i`, with its code and totals. -/
def Fyster.cutAckSeen (f : Fyster) (g level i : Nat) (bs : List Byte) : Fyster :=
  let cut := fieldAt bs 0 4
  let code := fieldAt bs 4 1
  match f.cutSlot cut with
  | none => f
  | some (_, c) =>
    if cut = 0 ∨ c.gslot ≠ g ∨ !(code == 0 || code == 4) then f
    else
      f.modCut cut fun c => { c with children := modAll (fun x => x.kind == level && x.child == i) (fun x =>
        if level = 1 then { x with acked := true, missing := false, trays := 1, late := b2n (code == 4), absent := 0 }
        else { x with acked := true, missing := false, trays := fieldAt bs 8 2, late := fieldAt bs 10 2, absent := fieldAt bs 12 2,
                      resent := fieldAt bs 14 2 }) c.children }

/-- R232: a role writes its acknowledgement, with the totals of its own children so far, into its up sub-slot at the role that
wrote the order to it. -/
def Fyster.cutAck (f : Fyster) (g : Nat) (x : Grp) (r : Role) (sub cut code : Nat) : Fyster :=
  match x.parentOf r (sub == 1) with
  | none => f
  | some (tray, base) =>
    let n := match f.cutSlot cut with
      | some c => if r.level = 0 then (1, b2n (code == 4), 0, 0) else c.2.totals r.level
      | none => (0, 0, 0, 0)
    let bs := cutAckBytes cut code n
    let f := f.remote tray base (r.upAt g + 48) bs 0
    if tray = f.tray then f.cutAckSeen g (r.level + 1) r.index bs else f

/-- An L2 role passes on what its children have reported, under the order's own code. -/
def Fyster.cutReport (f : Fyster) (g cut : Nat) : Fyster :=
  match f.grp g, f.cutSlot cut with
  | some x, some (_, c) =>
    match x.roleAt 1 with
    | some r => if c.issuer then f else f.cutAck g x r 0 cut (if (f.part.order? .cut cut).any (·.late) then 4 else 0)
    | none => f
  | _, _ => f

/-- An acknowledgement arrives in an up sub-slot of a role: byte 48 on. -/
def Fyster.cutAckArrives (f : Fyster) (g level i : Nat) (bs : List Byte) : Fyster :=
  let f := f.cutAckSeen g level i bs
  if level = 1 then f.cutReport g (fieldAt bs 0 4) else f

/-- A TU's TR_CUT ACK (R232). -/
def Fyster.cutAckRx (f : Fyster) (p : Nat) (r : Rec) : Fyster :=
  let code := r.fld 416 8
  f.modCut (r.fld 224 32) fun c =>
    if code = 0 ∨ code = 4 then
      { c with
        children := modAll (fun x => x.kind == 0 && x.child == p) (fun x => { x with acked := true, missing := false }) c.children
        acked := if c.acked.contains p then c.acked else c.acked ++ [p]
        late := if code = 4 ∧ !c.late.contains p then c.late ++ [p] else c.late
        missing := c.missing.filter (· != p) }
    else c

/-! ### The order at its issuer (R230, R231) -/

/-- The group slot, serial and T_f of a CUT_ORDER value. -/
def cutTf (v : List Byte) : Nat := time96 v 8

/-- R231: the abort code of a CUT_ORDER. -/
def Fyster.cutCode (f : Fyster) (v : List Byte) : Nat :=
  let cut := fieldAt v 0 4
  let scope := fieldAt v 20 1
  let group := fieldAt v 24 4
  let g := f.slotOf group
  let root := match g.bind f.grp with
    | some x => (x.roleAt 2).isSome
    | none => false
  let lead := if scope = 2 then 100000 else 10000
  lowestAbort [(v.length != 32, 0x24), (cut == 0, 0x25), (scope == 0 || decide (2 < scope) || decide (3 < fieldAt v 21 1), 0x26),
    (scope == 2 && g.isNone, 0x2D), (scope == 2 && g.isSome && !root, 0x27), (decide (cutTf v < f.ns + lead), 0x29),
    ((f.cutPlace cut).isNone, 0x28), (!f.ready, 0x2B),
    (match f.part.orderAnswer .cut cut (fieldAt v 4 4) with
     | .refused a => (true, a)
     | _ => (false, 0))]

/-- R230, R231: a write of CUT_ORDER. -/
def Fyster.wrCutOrder (f : Fyster) (v : List Byte) : Fyster × Nat :=
  let cut := fieldAt v 0 4
  if v.length = 32 ∧ f.part.heldSerial .cut cut = some (fieldAt v 4 4) then (f, 0)
  else
    match f.cutCode v, f.cutPlace cut with
    | 0, some k =>
      let scope := fieldAt v 20 1
      let group := fieldAt v 24 4
      if scope = 1 then
        let f := f.holdCut k (newCut cut (fieldAt v 4 4) (cutTf v) 1 (fieldAt v 21 1) 0 0xFF true v)
        (f.cutToPorts cut (List.range 32) false, 0)
      else
        let g := (f.slotOf group).getD 0
        let f := f.holdCut k (newCut cut (fieldAt v 4 4) (cutTf v) 2 (fieldAt v 21 1) group g true v)
        (match f.grp g with
         | some x =>
           (match x.roleAt 2 with
            | some r => f.cutToRole cut g x r false v
            | none => f)
         | none => f, 0)
    | a, _ => (f, a)

/-- CUT_ORDER. -/
def execCutOrder (dt : Nat) (lvl : Level) (v : List Byte) (s : State) : Host.Outcome State Fault Refusal :=
  .next (onFy dt (fun f => f.reply lvl 1 (f.wrCutOrder v)) s)

/-- R21: the pending cut is dropped. -/
def Fyster.dropCut (f : Fyster) (cut : Nat) : Fyster :=
  { f with part := f.part.dropOrder .cut cut, cuts := f.cuts.filter fun c => c.2.cutId != cut }

/-- R21, R230: a write of CUT_CANCEL. -/
def Fyster.wrCutCancel (f : Fyster) (v : List Byte) : Fyster × Nat :=
  let cut := fieldAt v 0 4
  let serial := fieldAt v 4 4
  if v.length ≠ 8 then (f, 0x24)
  else
    match f.cutSlot cut with
    | none => (f, 0x2D)
    | some (_, c) =>
      match lowestAbort [(decide (serial < c.serial), 0x2A), (decide (c.serial < serial), 0x2D),
          ((f.part.order? .cut cut).isNone || decide (c.tf ≤ f.ns), 0x2E)] with
      | 0 =>
        let f :=
          if c.scope = 1 then f.cutToPorts cut (List.range 32) true
          else
            match f.grp c.gslot with
            | some x =>
              match x.roleAt 2 with
              | some r => f.cutToRole cut c.gslot x r true v
              | none => f
            | none => f
        (f.dropCut cut, 0)
      | a => (f, a)

/-- CUT_CANCEL. -/
def execCutCancel (dt : Nat) (lvl : Level) (v : List Byte) (s : State) : Host.Outcome State Fault Refusal :=
  .next (onFy dt (fun f => f.reply lvl 1 (f.wrCutCancel v)) s)

/-! ### The order at a role (R232, R233) -/

/-- A cancellation lands at a role: it is passed on; the pending cut goes before T_f. -/
def Fyster.cutCancelLands (f : Fyster) (g : Nat) (x : Grp) (r : Role) (raw : List Byte) : Fyster :=
  let cut := fieldAt raw 0 4
  match f.cutSlot cut with
  | none => f
  | some (_, c) =>
    if c.serial ≠ fieldAt raw 4 4 ∨ c.tf ≤ f.ns then f
    else
      let f := f.cutToRole cut g x r true raw
      if (r.level = 0 ∨ (x.roleAt 0).isNone) then f.dropCut cut else f

/-- A cut order lands in a down sub-slot of a role. -/
def Fyster.cutOrderLands (f : Fyster) (g : Nat) (x : Grp) (r : Role) (sub : Nat) (raw : List Byte) : Fyster :=
  let cut := fieldAt raw 0 4
  let serial := fieldAt raw 4 4
  let a := f.part.orderAnswer .cut cut serial
  let late := decide (cutTf raw < f.ns)
  match a with
  | .refused c => f.cutAck g x r sub cut (ackCode (.refused c) late)
  | .held =>
    let code := if (f.part.order? .cut cut).any (·.late) then 4 else 0
    match f.cutSlot cut with
    | some (_, c) =>
      let f := f.cutAck g x r sub cut code
      if c.children.any fun y => y.kind == r.level then f else f.cutToRole cut g x r false raw
    | none => f.cutAck g x r sub cut code
  | .accepted =>
    match f.cutPlace cut with
    | none => f.cutAck g x r sub cut 2
    | some k =>
      let f := f.holdCut k (newCut cut serial (cutTf raw) 2 (fieldAt raw 21 1) (fieldAt raw 24 4) g false raw)
      (f.cutAck g x r sub cut (if late then 4 else 0)).cutToRole cut g x r false raw

/-- R232: what has landed in a down sub-slot. -/
def Fyster.cutLanded (f : Fyster) (g level sub : Nat) : Fyster :=
  let raw := f.ledger (roleArea g level + downOfs level sub + 56) 32
  match f.grp g with
  | none => f
  | some x =>
    match x.roleAt level with
    | none => f
    | some r =>
      if fieldAt raw 0 4 = 0 then f
      else if fieldAt raw 20 1 = 0 then f.cutCancelLands g x r raw
      else f.cutOrderLands g x r sub raw

/-- CUT_ORDER_LANDED. -/
def execCutOrderLanded (dt : Nat) (g : GSlot) (lvlRole : Fin 3) (sub : Fin 2) (s : State) : Host.Outcome State Fault Refusal :=
  .next (onFy dt (fun f => f.cutLanded g.val lvlRole.val sub.val) s)

/-- R232: the second chance of a child, or MISSING after it. -/
def Fyster.cutSilent (f : Fyster) (cut i : Nat) : Fyster :=
  match f.cutSlot cut with
  | none => f
  | some (_, c) =>
    match c.children[i]? with
    | none => f
    | some y =>
      if y.acked ∨ y.missing ∨ f.ns < y.sentAt + f.rd 0x6830 3 * 1000 then f
      else
        let x? := f.grp c.gslot
        let r? := x?.bind fun x => x.roleAt y.kind
        if y.second then
          let n := match x?, r? with
            | some x, some r => if y.kind = 0 then 0 else x.traysBelow r y.child
            | _, _ => 0
          let f := f.modCut cut fun c => { c with
            children := c.children.set i { y with missing := true, absent := n }
            missing := if y.kind = 0 ∧ !c.missing.contains y.child then c.missing ++ [y.child] else c.missing }
          if y.kind = 1 then f.cutReport c.gslot cut else f
        else
          let f := f.modCut cut fun c => { c with
            children := c.children.set i { y with second := true, sentAt := f.ns }, resends := c.resends + 1 }
          if y.kind = 0 then f.cutToTu c 1 y.child
          else
            match x?, r? with
            | some x, some r =>
              match (x.childTrays r)[y.child]? with
              | some t =>
                if y.kind = 2 then f.cutDown c.gslot 1 0 t.2 c.raw else f.cutDown c.gslot 0 (b2n r.standby) t.1 c.raw
              | none => f
            | _, _ => f

/-- CUT_ACK_TIMEOUT; `child`: its place among the children of the cut. -/
def execCutAckTimeout (dt : Nat) (cut : BitVec 32) (child : Nat) (s : State) : Host.Outcome State Fault Refusal :=
  .next (onFy dt (fun f => f.cutSilent cut.toNat child) s)

/-! ### At T_f (R238, R241, R242) -/

/-- Four free values for a hall-fabric port: its sequences and ages are not Thotus state (log 42). -/
def Fyster.fabricEntry (f : Fyster) (k : Nat) : Fyster × List Word :=
  let a := f.free
  let b := a.1.free
  let c := b.1.free
  let d := c.1.free
  (d.1, linkEntry (576 + k) f.uNs (bitOf (f.rd 0x1170 1) k) false 0 (a.2.toNat % 2 ^ 32) (b.2.toNat % 2 ^ 32) (c.2.toNat % 2 ^ 32)
    (d.2.toNat % 2 ^ 32))

/-- Fyster's TR_LINKSTATE: 32 TL ports and eight hall-fabric ports. -/
def Fyster.linkState (f : Fyster) (c : CutSlot) (taken : Nat) (late : Bool) : Fyster :=
  let x := (List.range 8).foldl (fun (a : Fyster × List Word) k =>
    let e := a.1.fabricEntry k
    (e.1, a.2 ++ e.2)) (f, [])
  let r := f.mkRec 0x0E selfStream 518 c.gslot taken
    (linkStateHead 40 c.cutId c.tf ++ ((List.range 32).flatMap fun p => (f.link p).stateEntry (544 + p) f.uNs taken) ++ x.2)
  x.1.own (if late then r.setFlag 3 else r)

/-- The bulk copy of a snapshot is complete: the power is returned (R241). -/
def Fyster.snapCopied (f : Fyster) : Fyster :=
  let f := { f with cuts := f.cuts.map fun (c : Nat × CutSlot) => (c.1, { c.2 with waiting := false }) }
  f.pwr 0 ((f.part.pwrReq 0).withdraw f.part.time.now)

/-- R241: the snapshot of Fyster's own state. Its layout is not stated, so its length and digest are free (log 38). -/
def Fyster.snapshot (f : Fyster) (cut : Nat) : Fyster :=
  let a := f.free
  let b := a.1.free
  let size := a.2.toNat
  let bytes := min size 268435456
  let f := b.1
  let u := { f.part.crcUnit 0x6810 with enable := true, value := b.2.setWidth 32, length := bytes }
  let f := { f with part := { f.part with crc := tset f.part.crc 0x6810 u } }
  let f := f.modCut cut fun c => { c with
    bytes := bytes, truncated := decide (268435456 < size), waiting := decide (16777216 < bytes)
    digests := tset c.digests 32 (b.2.toNat % 2 ^ 32 ^^^ 0xFFFFFFFF)
    fseqs := (List.range 32).map fun p => (p, (f.link p).ackSeq) }
  if 16777216 < bytes then
    let f := f.pwr 0 ((f.part.pwrReq 0).ask 200 f.part.time.now)
    if f.granted 0 then f.snapCopied else f
  else f

/-- Partitions of the dies that take part in a cut, and the tray partition. -/
def Fyster.cutParts (f : Fyster) (c : CutSlot) : List Nat :=
  (if c.scope = 1 then List.range 32 else match f.grp c.gslot with
    | some x => f.members x
    | none => []) ++ [trayPart]

/-- R242: the old end of a cut's hold in a partition. -/
def Fyster.cutOldEnd (f : Fyster) (p tf : Nat) : Nat :=
  let pre := f.rd 0x6830 5
  let q := f.partition p
  match q.segs.find? fun s => pre == 0 || decide (ts64Of (tf - pre * 1000000000) ≤ s.tsLast) with
  | some s => s.serial
  | none => q.next

/-- R242: the pin of a cut. -/
def Fyster.cutPin (f : Fyster) (c : CutSlot) : Fyster :=
  let x := f.pin c.cutId 1 ((f.cutParts c).map fun p => (p, f.cutOldEnd p c.tf, none))
  if x.2.1 then
    if x.2.2 then x.1.modCut c.cutId fun c => { c with cflags := setBit c.cflags 5 true } else x.1
  else (x.1.counted 518 0x6809 3 1).modCut c.cutId fun c => { c with cflags := setBit c.cflags 4 true }

/-- R19, R233, R241, R242: Fyster's time reaches T_f, or the order has come late. -/
def Fyster.takeCut (f : Fyster) (cut : Nat) : Fyster :=
  match f.part.order? .cut cut, f.cutSlot cut with
  | some o, some (_, c) =>
    if f.ns < o.eff then f
    else
      let taken := if o.late then f.ns else o.eff
      let f := { f with part := f.part.dropOrder .cut cut }
      let f := (f.linkState c taken o.late).modCut cut fun c =>
        { c with state := 2, takenAt := some taken, cflags := setBit c.cflags 0 o.late }
      let f := if bitOf c.oflags 1 then f.snapshot cut else f
      if bitOf c.oflags 0 then f.cutPin c else f
  | _, _ => f

/-- FYSTER_CUT. -/
def execFysterCut (dt : Nat) (cut : BitVec 32) (s : State) : Host.Outcome State Fault Refusal :=
  .next (onFy dt (fun f => f.takeCut cut.toNat) s)

/-! ### After T_f (R236, R242, R243) -/

/-- Dies that take part in a cut from this tray and have not sent DONE. -/
def CutSlot.open_ (c : CutSlot) : List Nat :=
  ((c.children.filter fun y => y.kind == 0).map (·.child)).filter fun p => !c.done.contains p && !c.missing.contains p

/-- CUT_STATUS state once every die has sent DONE or is missing (R243, R250). -/
def CutSlot.settle (c : CutSlot) : CutSlot :=
  if c.state = 2 ∧ c.open_.isEmpty = true then { c with state := if c.missing.isEmpty then 3 else 4 } else c

/-- R242: the hold of a cut ends, in one partition, at the segment that is open now. -/
def Fyster.pinEnd (f : Fyster) (cut p : Nat) : Fyster :=
  { f with holds := f.holds.map fun (h : Nat × Hold) =>
      if h.2.tag = cut ∧ h.2.cause = 1 then
        (h.1, { h.2 with ranges := h.2.ranges.map fun r => if r.1 = p ∧ r.2.2 = none then (p, r.2.1, some (f.partition p).newest) else r })
      else h }

/-- R242: the new end is fixed in partition `p` if its DONE and T_f + CUT_POST_MS are past, or CUT_HOLD_MS is. -/
def Fyster.pinEndIfDue (f : Fyster) (c : CutSlot) (p : Nat) : Fyster :=
  let post := decide (c.tf + f.rd 0x6830 4 * 1000000 ≤ f.ns)
  let held := decide (c.tf + f.rd 0x6830 6 * 1000000 ≤ f.ns)
  if held || (post && (p == trayPart || !c.open_.contains p)) then f.pinEnd c.cutId p else f

/-- CUT_PIN_NEW_END. -/
def Fyster.cutNewEnd (f : Fyster) (cut : Nat) : Fyster :=
  match f.cutSlot cut with
  | none => f
  | some (_, c) =>
    if c.takenAt.isNone ∨ f.ns < c.tf + f.rd 0x6830 4 * 1000000 then f
    else ((f.cutParts c).foldl (fun f p => f.pinEndIfDue c p) f).modCut cut fun c => { c with newEnd := true }

/-- CUT_PIN_NEW_END. -/
def execCutPinNewEnd (dt : Nat) (cut : BitVec 32) (s : State) : Host.Outcome State Fault Refusal :=
  .next (onFy dt (fun f => f.cutNewEnd cut.toNat) s)

/-- A TU's DONE reaches Fyster: CUT_STATUS, and the new end of the pin if T_f + CUT_POST_MS is past. -/
def Fyster.cutDoneRx (f : Fyster) (p : Nat) (r : Rec) : Fyster :=
  let cut := r.fld 224 32
  let f := f.modCut cut fun c => ({ c with done := if c.done.contains p then c.done else c.done ++ [p] }).settle
  match f.cutSlot cut with
  | some (_, c) => if c.newEnd then f.pinEndIfDue c p else f
  | none => f

/-- R242: the CFLAGS that Fyster adds to a TU's DONE as it enters the ring: PIN_REFUSED and PIN_TRIMMED (log 43). -/
def Fyster.cutDoneFlags (f : Fyster) (r : Rec) : Rec :=
  match f.cutSlot (r.fld 224 32) with
  | some (_, c) =>
    match r.pay with
    | w :: ws => { r with pay := (w ||| BitVec.ofNat 64 (c.cflags / 16 % 4 * 4096)) :: ws }
    | [] => r
  | none => r

/-- R243: a TU has been reset: its snapshots are lost in every cut it has not finished. -/
def Fyster.cutTuLost (f : Fyster) (p : Nat) : Fyster :=
  { f with cuts := f.cuts.map fun (c : Nat × CutSlot) =>
      if c.2.open_.contains p && c.2.state ≠ 1 then (c.1, ({ c.2 with missing := c.2.missing ++ [p] }).settle) else c }

/-- R236: SUMMARY at T_f + CUT_POST_MS. -/
def Fyster.summarise (f : Fyster) (cut : Nat) : Fyster :=
  match f.cutSlot cut with
  | none => f
  | some (_, c) =>
    if !c.issuer ∨ c.summarised ∨ f.ns < c.tf + f.rd 0x6830 4 * 1000000 then f
    else
      let open_ := match f.grp c.gslot with
        | some x =>
          match x.roleAt 2 with
          | some r => sumBy (fun y => if y.kind = 2 ∧ !y.acked ∧ !y.missing then x.traysBelow r y.child else 0) c.children
          | none => 0
        | none => 0
      let n := c.totals 2
      let late := (c.cflags % 2)
      let n := if c.scope = 1 then (1, late, 0, 0) else n
      let resends := c.resends + sumBy (·.resent) c.children
      let r := f.mkRec 0x0D selfStream 518 c.gslot f.ns (cutPay 5 6 c.cflags 0 c.cutId c.tf (c.takenAt.getD c.tf)
        [(n.1, 32), (n.2.1, 32), (n.2.2.1 + open_, 32), (resends, 32)])
      (f.hostRec r).modCut cut fun c => { c with summarised := true }

/-- CUT_SUMMARY. -/
def execCutSummary (dt : Nat) (cut : BitVec 32) (s : State) : Host.Outcome State Fault Refusal :=
  .next (onFy dt (fun f => f.summarise cut.toNat) s)

end Sys2Proof.Machine
end

