-- ==== Sys2Proof/Machine/ReduceOps.lean ====
section
/-! DEFINITION. Stream contexts: the values of a die for a grid instant, from the records that Fyster has taken in (R114, R137,
R254 to R257). -/

namespace Sys2Proof.Machine

/-! ### TR_SAMPLE payloads (R107 to R109) -/

/-- `n` varints. -/
def varints : Nat → List Byte → Option (List Nat)
  | 0, _ => some []
  | n + 1, bs =>
    match unvarint 10 bs with
    | some (v, r) => if v < 2 ^ 64 then (varints n r).map (v :: ·) else none
    | none => none

/-- Counters of a TR_SAMPLE record. -/
def sampleCount (r : Rec) : Nat := r.fld 200 8 + 1

/-- Status nibble and value of every counter of a record; none where the payload cannot be decoded (R109). -/
def sampleValues (r : Rec) : Option (List (Nat × Nat)) :=
  let n := sampleCount r
  let bs := (wordsBytes r.pay).drop 16
  let nib := (n + 1) / 2
  if bs.length < nib then none
  else
    (varints n (bs.drop nib)).map fun vs =>
      vs.zipIdx.map fun (v : Nat × Nat) => (bitsOf (leNat (bs.take nib)) (4 * v.2) 4, v.1)

/-- The counter at list position `pos`, if the record holds it. -/
def sampleAt (r : Rec) (pos : Nat) : Option (Nat × Nat) :=
  let f := r.fld 208 8
  if pos < f then none else (sampleValues r).bind fun vs => vs[pos - f]?

/-- What is held of a die. -/
def DieObs.zero : DieObs :=
  { phases := [], longs := [], hists := [], losses := [], samples := [], zoomSt := [] }

/-- What Fyster holds of the die on port `p`. -/
def Fyster.obs (f : Fyster) (p : Nat) : DieObs := tget f.red.dies p .zero

/-- R255: a context is used: the cache of 8,192 contexts holds it, and lets go the one used least lately. -/
def Fyster.touchCtx (f : Fyster) (k : Nat) : Fyster :=
  let f := f.bump 0x3000 (if f.red.cache.contains k then 2 else 3) 1
  { f with red := { f.red with cache := (k :: f.red.cache.filter (· != k)).take 8192 } }

/-- The key of the die context of a port (R254). -/
def dieCtxKey (p : Nat) : Nat := 2 ^ 48 + p

/-- Fyster with what it holds of a die replaced: the die context is used. -/
def Fyster.setObs (f : Fyster) (p : Nat) (o : DieObs) : Fyster :=
  let f := f.touchCtx (dieCtxKey p)
  { f with red := { f.red with dies := tset f.red.dies p o } }

/-- The records of a set that make up the contribution of one base instant (R114). -/
structure Span where
  first    : Bool
  interval : Nat
  recs     : List Rec
  uncertain : Bool
deriving DecidableEq, Repr

/-- The records of set `s` for the base instant `g` (TS64); none where the instant's record is missing. -/
def DieObs.span (o : DieObs) (s g : Nat) : Option Span :=
  let rs := o.samples.filter fun r => r.fld 192 4 == s && decide (r.ts64 ≤ g)
  let here := rs.filter fun r => r.ts64 == g && r.fld 217 1 == 0
  if here.isEmpty then none
  else
    let base : Nat := (rs.filter fun r => decide (r.ts64 < g) && r.fld 217 1 == 0).foldl (fun m r => max m (r.ts64 + 1)) 0
    let since := rs.filter fun r => decide (base ≤ r.ts64)
    let firsts : Nat := (since.filter fun r => r.fld 216 1 == 1).foldl (fun m r => max m (r.ts64 + 1)) 0
    let use := since.filter fun r => decide (firsts ≤ r.ts64)
    let prev := use.foldl (fun m r => min m (r.fld 256 64)) g
    some { first := here.any fun r => r.fld 216 1 == 1, interval := g - prev, recs := use,
           uncertain := use.any fun r => r.hasFlag 1 }

/-- The sum of the deltas at a list position; a per-command counter gives the count of its active bank at the instant. -/
def Span.delta (sp : Span) (g pos : Nat) : Option Nat :=
  match (sp.recs.filter fun r => r.ts64 == g).findSome? fun r => sampleAt r pos with
  | none => none
  | some (nib, v) =>
    if bitOf nib 2 then some v
    else some (sumBy (fun r => ((sampleAt r pos).map (·.2)).getD 0) sp.recs)

/-! ### Work items (R137) -/

/-- The phase entries of a TR_PHASE CLOSE record: code, flags, START_OFS_NS and END_OFS_NS. -/
def phaseEntries (r : Rec) : List (Nat × Nat × Nat × Nat) :=
  (List.range (r.fld 208 5)).map fun i =>
    let o := 512 + 192 * i
    (r.fld o 8, r.fld (o + 16) 2, r.fld (o + 64) 64, r.fld (o + 128) 64)

/-- A time over a work size as an FP64 pattern (R137); none where the size does not count. -/
def perUnit (span work size : Nat) (unknown : Bool) : Option Nat :=
  if work = 0 then some (fp64.ofNat span)
  else if unknown || size == 0 then none
  else some (fp64.round .even false span size)

/-- The record is of the metric's graph and work unit (R257). -/
def Metric.ofItem (m : Metric) (r : Rec) : Bool :=
  (m.graph == 0 || r.fld 256 32 == m.graph) && r.fld 196 4 == m.work

/-- The values that one closed item gives a PHASE_TPW or ITEM_TPW metric; `opens`: OVF_OPEN records held. -/
def Metric.itemValues (m : Metric) (opens : List Rec) (r : Rec) : List Nat :=
  let kind := r.fld 192 4
  let work := r.fld 196 4
  let unknown := bitOf (r.fld 213 11) 2
  let abandoned := bitOf (r.fld 213 11) 5
  if kind = 1 then
    if !m.ofItem r || abandoned then []
    else if m.kind = 4 then
      (phaseEntries r).filterMap fun e =>
        if e.1 = m.code ∧ e.2.1 = 0 then perUnit (e.2.2.2 - e.2.2.1) work (r.fld 224 32) unknown else none
    else (perUnit (r.ts64 - r.fld 448 64) work (r.fld 224 32) unknown).toList
  else if kind = 3 ∧ m.kind = 5 then
    match opens.find? fun o => o.fld 192 4 == 2 && o.fld 320 64 == r.fld 320 64 && o.fld 384 32 == r.fld 384 32 with
    | some o =>
      if m.ofItem o then (perUnit (r.ts64 - o.fld 448 64) (o.fld 196 4) (o.fld 224 32) (bitOf (o.fld 213 11) 2)).toList else []
    | none => []
  else []

/-- The mean of FP64 values, added in order. -/
def fpMean (l : List Nat) : Option Nat :=
  if l.isEmpty then none else some (fp64.div (l.foldl fp64.add 0) (fp64.ofNat l.length))

/-- The largest of FP64 values. -/
def fpMax (l : List Nat) : Option Nat :=
  l.foldl (fun m v => match m with
    | none => some v
    | some x => if fp64.lt x v then some v else m) none

/-- The bounds of the open items of a die (R137): time since OPEN at the last TR_LONG_PHASE, over the work size. -/
def DieObs.bounds (o : DieObs) (m : Metric) : List Nat :=
  o.longs.filterMap fun r =>
    if m.graph = 0 ∨ r.fld 256 32 = m.graph then perUnit (r.ts64 - r.fld 448 64) m.work (r.fld 416 32) false else none

/-! ### Values of a metric (R256, R257) -/

/-- The value of one unit for an instant. -/
structure Val where
  tile  : Nat
  kind  : ValKind
  value : Nat
  interval : Nat
  /-- The value is the bound that a TR_LONG_PHASE gives (R137, R322). -/
  hang  : Bool
deriving DecidableEq, Repr

/-- SCALE taken into a value (R257, R259). -/
def Metric.scaled (m : Metric) (v : Nat) : Nat := fp64.mul v (conv fp32 fp64 .even m.scale)

/-- DELTA, RATE or RATIO from the deltas at the metric's positions (R257). -/
def Metric.sampled (m : Metric) (period interval : Nat) (a b : Option Nat) : ValKind × Nat :=
  match a with
  | none => (.missing, 0)
  | some a =>
    if m.kind = 1 then (if interval = period then (.value, m.scaled (fp64.ofNat a)) else (.stretched, 0))
    else if m.kind = 2 then
      (if interval = 0 then (.noData, 0) else (.value, m.scaled (fp64.round .even false (a * 1000000000) interval)))
    else
      match b with
      | none => (.missing, 0)
      | some b => (.value, m.scaled (if b = 0 then fp64.qnan else fp64.round .even false a b))

/-- The values of a metric of one die for the base instant `g`; `list`: the set's counters (R89 gives each its tile). -/
def DieObs.values (o : DieObs) (m : Metric) (list : List Nat) (g period : Nat) : List Val :=
  if m.kind ≤ 3 then
    let n := if m.tile then m.ntile else 1
    let tileOf (i : Nat) : Nat := if m.tile then (list.getD (m.posA + i) 0) / 32 else 255
    match o.span m.set g with
    | none => (List.range n).map fun i => { tile := tileOf i, kind := .missing, value := 0, interval := 0, hang := false }
    | some sp =>
      (List.range n).map fun i =>
        if sp.first then { tile := tileOf i, kind := .warmup, value := 0, interval := 0, hang := false }
        else
          let x := m.sampled period sp.interval (sp.delta g (m.posA + i)) (sp.delta g (m.posB + i))
          { tile := tileOf i, kind := x.1, value := x.2, interval := sp.interval, hang := false }
  else if m.kind ≤ 5 then
    let items := o.phases.filter fun r => decide (r.ts64 ≤ g) && decide (g < r.ts64 + period)
    let mean := fpMean (items.flatMap (m.itemValues o.phases))
    let bound := fpMax (o.bounds m)
    let v := match mean, bound with
      | some a, some b => some (if fp64.lt a b then b else a)
      | some a, none => some a
      | none, b => b
    let hang := match mean, bound with
      | some a, some b => fp64.lt a b
      | none, some _ => true
      | _, none => false
    match v with
    | some v => [{ tile := 255, kind := .value, value := m.scaled v, interval := period, hang := hang }]
    | none => [{ tile := 255, kind := .noData, value := 0, interval := period, hang := false }]
  else
    let hs := o.hists.filter fun r => decide (r.ts64 ≤ g) && decide (g < r.ts64 + period)
    if m.tile then
      hs.map fun r =>
        { tile := r.unit, kind := .value, interval := period, hang := false,
          value := m.scaled (fp64.div (r.fld 384 64) (fp64.ofNat (r.fld 224 32))) }
    else if hs.isEmpty then [{ tile := 255, kind := .noData, value := 0, interval := period, hang := false }]
    else
      let sum := hs.foldl (fun s r => fp64.add s (r.fld 384 64)) 0
      [{ tile := 255, kind := .value, interval := period, hang := false, value := m.scaled (fp64.div sum (fp64.ofNat (sumBy (fun r => r.fld 224 32) hs))) }]

/-! ### Contexts (R254) -/

/-- The key of a context: group slot, metric, TL port and tile (255 at die scope). -/
def ctxKey (g m p tile : Nat) : Nat := g * 2 ^ 32 + (m * 32 + p) * 256 + tile

/-- A context that has no value yet. -/
def Ctx.zero : Ctx :=
  { kind := .missing, value := 0, inst := 0, interval := 0, vals := [], rank := none, stale := false, uncertain := false,
    hang := false, mu := 0, var := 0, sp := 0, sn := 0, n := 0 }

/-- A context. -/
def Fyster.ctx (f : Fyster) (k : Nat) : Ctx := tget f.red.ctx k .zero

/-- Fyster with a context replaced. -/
def Fyster.setCtx (f : Fyster) (k : Nat) (c : Ctx) : Fyster :=
  let f := f.touchCtx k
  { f with red := { f.red with ctx := tset f.red.ctx k c } }

/-- The value of a context for an instant. -/
def Ctx.valueAt (c : Ctx) (g : Nat) : Option Nat := (c.vals.find? fun v => v.1 == g).map (·.2)

/-- A context that takes its value for instant `g`. -/
def Ctx.take (c : Ctx) (g : Nat) (v : Val) (uncertain : Bool) : Ctx :=
  { c with kind := v.kind, value := v.value, inst := g, interval := v.interval, uncertain := uncertain, hang := v.hang,
           vals := if v.kind = .value then lastN 16 (c.vals ++ [(g, v.value)]) else c.vals }

/-! ### Drift of a metric (R319) stays with the decisions; records of a die -/

/-- R8, R114, R137: a record of the die on port `p` that live processing takes in; records too old for any metric go. -/
def Fyster.observe (f : Fyster) (p : Nat) (r : Rec) : Fyster :=
  let o := f.obs p
  let recent (l : List Rec) : List Rec := l.filter fun x => decide (r.ts64 ≤ x.ts64 + 20000000000)
  if r.type = 0x01 then
    match sampleValues r with
    | none => f.counted 515 0x3000 5 1
    | some _ => f.setObs p { o with samples := recent (o.samples ++ [r]) }
  else if r.type = 0x03 then
    let same (x : Rec) : Bool := x.fld 320 64 == r.fld 320 64 && x.fld 384 32 == r.fld 384 32
    let longs := if r.fld 192 4 = 1 then o.longs.filter fun x => !same x else o.longs
    if r.fld 192 4 = 4 then f else f.setObs p { o with phases := recent (o.phases ++ [r]), longs := longs }
  else if r.type = 0x04 then
    let same (x : Rec) : Bool := x.fld 320 64 == r.fld 320 64 && x.fld 384 32 == r.fld 384 32
    f.setObs p { o with longs := (o.longs.filter fun x => !same x) ++ [r] }
  else if r.type = 0x07 then
    if r.fld 192 8 = 2 then f.setObs p { o with hists := recent (o.hists ++ [r]) } else f
  else if r.type = 0x0C then 
    -- The totals are cumulative: of each accumulator the newest record that is too old is still needed.
    let later (x y : Rec) : Bool := x.fld 192 16 == y.fld 192 16 && decide (x.ts64 < y.ts64) && decide (y.ts64 + 20000000000 < r.ts64)
    let l := o.losses ++ [r]
    f.setObs p { o with losses := l.filter fun x => !l.any (later x) }
  else f

end Sys2Proof.Machine
end

