-- ==== Sys2Proof/Machine/Reduce.lean ====
section
/-! DEFINITION. One grid instant of a group on its Fysters: gather, contributions, closes, the summary, carries, take-over and the
ledger's writers (R263 to R270, R283 to R285). -/

namespace Sys2Proof.Machine

/-! ### Instants -/

/-- The group reduces instant `g` on this Fyster: armed from `eff` on, and before any teardown (R253, R281, R282). -/
def Grp.reduces (x : Grp) (g : Nat) : Bool :=
  (x.state == 3 || x.state == 5) && !samplingOnly x.period && onGrid x.period x.phase g && decide (ts64Of x.eff ≤ g) &&
    (match x.endAt with
     | some e => decide (g < ts64Of e)
     | none => true)

/-- The frame of an instant (R262). -/
def Grp.frame (x : Grp) (g : Nat) : Nat := (((g : Int) - x.phase) / x.period).toNat % frames x.period

/-- The aggregates of the group's metrics with nothing inserted. -/
def Grp.blank (x : Grp) : List Agg := (dMetricList x.desc).map fun m => aggZero m.id m.res m.offset

/-- A slot of this group for an instant. -/
def Grp.slot (x : Grp) (g level kind epoch : Nat) : Contrib where
  inst := g
  group := x.id
  serial := x.serial
  memb := x.memb
  roleEpoch := epoch
  level := level
  kind := kind
  hflags := 0
  absentTrays := 0
  absentL2 := 0
  expected := 0
  covered := 0
  absentDies := 0
  warmup := 0
  lostTrays := 0
  first := g
  aggs := x.blank

/-- ROLE_EPOCH of the parent role that a role follows (R266, R283). -/
def Fyster.parentEpoch (f : Fyster) (g level : Nat) : Nat :=
  fieldAt (f.ledger (roleArea g level + downOfs level (b2n (f.followsStandby g level)) + 32) 2) 0 2

/-! ### Writing contributions (R265, R270, R283) -/

/-- The parent role of a role, for the layout of its area. -/
def Role.parent (r : Role) : Role := newRole (r.level + 1) false 0 r.section_ 0

/-- Offset of a role's slot for an instant, or of its carry, in the parent's region. -/
def Grp.slotAt (x : Grp) (k : Nat) (r : Role) (g : Nat) (carry : Bool) : Nat :=
  let al := slotAl (dMetrics x.desc)
  let c := x.childCount r.parent
  let own := (2 * r.index + b2n r.standby) * al
  roleArea k (r.level + 1) + (if carry then x.ofs r.parent 1 else x.ofs r.parent 0 + x.frame g * (c * 2 * al)) + own

/-- R265: a contribution leaves: its aggregates first. -/
def Fyster.writeSlot (f : Fyster) (k : Nat) (r : Role) (c : Contrib) (carry : Bool) : Fyster :=
  match f.grp k with
  | none => f
  | some x =>
    match x.parentOf r (f.followsStandby k r.level) with
    | none => f
    | some (tray, base) =>
      let id := f.red.nextId
      let w : PendWrite := { id := id, gslot := k, role := r.level, tray := tray, base := base, c := c, header := false }
      let f := { f with red := { f.red with nextId := id + 1, writes := f.red.writes ++ [w] } }
      f.remote tray base (x.slotAt k r c.inst carry + 64) c.payload id

/-- The role of a pending write. -/
def Fyster.writer (f : Fyster) (w : PendWrite) : Option (Grp × Role) :=
  (f.grp w.gslot).bind fun x => (x.held w.role).map fun r => (x, r)

/-- Deadline after the instant for the children of a level (R268). -/
def deadline (level : Nat) : Nat := if level = 1 then 150000 else 400000

/-- R265: the fabric has completed a write: after the aggregates the header goes out, after the header the write is over. -/
def Fyster.writeDone (f : Fyster) (id : Nat) : Fyster :=
  match f.red.writes.find? fun w => w.id == id with
  | none => f
  | some w =>
    if w.header then
      let f := { f with red := { f.red with writes := f.red.writes.filter fun y => y.id != id } }
      if w.c.kind ≠ 2 ∧ ts64Of f.ns > w.c.inst + deadline (w.role + 1) then f.bump (0x3480 + w.gslot) 3 1 else f
    else
      match f.writer w with
      | none => { f with red := { f.red with writes := f.red.writes.filter fun y => y.id != id } }
      | some (x, r) =>
        let writes := modFirst (fun (y : PendWrite) => y.id == id) (fun y => { y with header := true }) f.red.writes
        let f := { f with red := { f.red with writes := writes } }
        f.remote w.tray w.base (x.slotAt w.gslot r w.c.inst (w.c.kind == 2)) w.c.header id

/-- FABRIC_WRITE_COMPLETE. -/
def execFabricWriteComplete (dt : Nat) (id : Nat) (s : State) : Host.Outcome State Fault Refusal :=
  .next (onFy dt (fun f => f.writeDone id) s)

/-- A role's own contribution is written and kept for a rewrite. -/
def Fyster.contribute (f : Fyster) (k : Nat) (r : Role) (c : Contrib) : Fyster :=
  match f.grp k with
  | none => f
  | some x =>
    let f := f.setGrp k (x.setRole { r with sent := lastN (frames x.period) (r.sent ++ [c]) })
    f.writeSlot k r c false

/-! ### The L1 (R256, R267, R285) -/

/-- HFLAGS of a slot from whether values were uncertain and whether a count saturated. -/
def slotFlags (uncertain : Bool) (aggs : List Agg) : Nat := packNat [(0, 2), (b2n uncertain, 1), (0, 2), (b2n (aggs.any (·.sat)), 1)]

/-- One metric of one die: its aggregate and contexts after the values of the instant; the third answer tells whether the die
gave a value. -/
def Fyster.insertDie (f : Fyster) (k g p : Nat) (m : Metric) (vals : List Val) (uncertain : Bool) (a : Agg) : Fyster × Agg × Bool :=
  let gave := vals.any fun v => v.kind == .value
  let die := f.dieOf p
  let count (c : ValKind) : Nat := b2n (!gave && vals.any fun v => v.kind == c)
  let a := (vals.filter fun v => v.kind == .value).foldl (fun a v => a.insert v.value die (if m.tile then v.tile else 0xFF)) a
  let a := { a with
    contributors := satAdd a.contributors (b2n gave), missing := satAdd a.missing (count .missing),
    noData := satAdd a.noData (count .noData), stretched := satAdd a.stretched (count .stretched) }
  let f := vals.foldl (fun f v =>
    let key := ctxKey k m.id p (if m.tile then v.tile else 255)
    f.setCtx key ((f.ctx key).take g v uncertain)) f
  (f, a, gave)

/-- What the gather of one die adds. -/
structure DieSum where
  aggs    : List Agg
  covered : Nat
  absent  : Nat
  warmup  : Nat
  uncertain : Bool
deriving DecidableEq, Repr

/-- R256, R267: the values of the die on port `p` inserted, metric by metric; `lists`: the counters of its sample sets. -/
def Fyster.gatherDie (f : Fyster) (x : Grp) (k g : Nat) (lists : Nat → List Nat) (p : Nat) (d : DieSum) : Fyster × DieSum :=
  let ms := dMetricList x.desc
  let o := f.obs p
  let spans := (ms.filter fun m => decide (m.kind ≤ 3)).map fun m => o.span m.set g
  let absent := !spans.isEmpty && spans.all fun s => s.isNone
  let warm := spans.any fun s => s.any (·.first)
  let unc := spans.any fun s => s.any (·.uncertain)
  let step (a : Fyster × List Agg × Bool) (e : Metric × Agg) : Fyster × List Agg × Bool :=
    let y := a.1.insertDie k g p e.1 (o.values e.1 (lists e.1.set) g x.period) unc e.2
    (y.1, a.2.1 ++ [y.2.1], a.2.2 || y.2.2)
  let y := (ms.zip d.aggs).foldl step (f, [], false)
  (y.1, { aggs := y.2.1, covered := d.covered + b2n y.2.2, absent := d.absent + b2n absent, warmup := d.warmup + b2n warm,
          uncertain := d.uncertain || unc })

/-- R267: the member dies armed at this L1, in port order. -/
def Role.armedPorts (r : Role) : List Nat := (r.children.filter fun c => c.2.state == 1).map (·.1)

/-- R267, R285: the L1 closes its gather for `g`; a standby that has taken over writes LOST. -/
def Fyster.gather (f : Fyster) (k g : Nat) (lists : Nat → Nat → List Nat) : Fyster :=
  match f.grp k with
  | none => f
  | some x =>
    let fresh := match x.gathered with
      | some n => decide (n < g)
      | none => true
    if !x.reduces g || !fresh || decide (ts64Of f.ns < g + f.rd (0x3410 + k) 3 * 1000) then f
    else
      let f := f.setGrp k { x with gathered := some g }
      let f := (x.roles.filter fun r => r.level == 0 && r.standby && r.holder).foldl (fun f r =>
        let n := (((x.section_ r.section_).bind fun s => s.trays[r.index]?).map fun e => popCount 32 e.mask).getD 0
        f.contribute k r { x.slot g 1 1 (f.parentEpoch k 0) with expected := n, lostTrays := 1 }) f
      match x.roles.find? fun r => r.level == 0 && !r.standby && r.holder with
      | none => f
      | some r =>
        let ports := r.armedPorts
        let y := ports.foldl (fun (a : Fyster × DieSum) p => a.1.gatherDie x k g (lists p) p a.2)
          (f, { aggs := x.blank, covered := 0, absent := 0, warmup := 0, uncertain := false })
        let f := y.1.bump (0x3480 + k) 1 1
        if r.admitted then
          f.contribute k r { x.slot g 1 0 (f.parentEpoch k 0) with
            expected := ports.length, covered := y.2.covered, absentDies := y.2.absent, warmup := y.2.warmup, aggs := y.2.aggs,
            hflags := slotFlags y.2.uncertain y.2.aggs }
        else f

/-! ### Arrival at a parent (R265, R268, R270) -/

/-- R265: the content of a slot passes every test but its epoch. -/
def Grp.slotOk (x : Grp) (bs : List Byte) : Bool :=
  let c := slotOfBytes bs
  c.group == x.id && decide (x.serial ≤ c.serial) && slotGood bs && c.agrees (x.slot 0 1 0 0)

/-- A late contribution in the bucket of its instant (R268). -/
def Role.toBucket (r : Role) (x : Grp) (c : Contrib) : Role :=
  let b := (r.late.find? fun b => b.inst == c.inst).getD (x.slot c.inst (r.level + 1) 4 r.epoch)
  let m := b.merge { c with absentTrays := b2n (r.level == 1), absentL2 := b2n (r.level == 2) }
  { r with late := (r.late.filter fun b => b.inst != c.inst) ++ [m] }

/-- R266, R268: the bucket of an instant in the ledger. -/
def Fyster.putBucket (f : Fyster) (k g : Nat) (x : Grp) (r : Role) : Fyster :=
  match r.late.find? fun b => b.inst == g with
  | some b => f.putLedger (roleArea k r.level + x.ofs r 2 + x.frame g * slotAl (dMetrics x.desc)) b.bytes
  | none => f

/-- R270: a late contribution joins the writer's own contribution that is still pending. -/
def Fyster.coalesce (f : Fyster) (k : Nat) (r : Role) (c : Contrib) : Option Fyster :=
  match f.red.writes.find? fun w => w.gslot == k && w.role == r.level && w.c.inst == c.inst && w.c.kind != 2 && !w.header with
  | none => none
  | some w =>
    match f.grp k with
    | none => none
    | some x =>
      let m := w.c.merge c
      let m := { m with hflags := setBit m.hflags 4 true, absentTrays := m.absentTrays - b2n (r.level == 1) }
      let writes := modFirst (fun (y : PendWrite) => y.id == w.id) (fun y => { y with c := m }) f.red.writes
      let f := { f with red := { f.red with writes := writes } }
      some ((f.remote w.tray w.base (x.slotAt k r c.inst false + 64) m.payload w.id).bump (0x3480 + k) 4 1)

/-- R265, R268: a child's header has completed: the contribution is merged on time, or late. -/
def Fyster.arrive (f : Fyster) (k level child sub g : Nat) : Fyster :=
  match f.grp k with
  | none => f
  | some x =>
    match x.held level with
    | none => f
    | some r =>
      let al := slotAl (dMetrics x.desc)
      let area := roleArea k level
      let size := slotBytes (dMetrics x.desc)
      let at' := area + x.ofs r 0 + x.frame g * (x.childCount r * 2 * al) + (2 * child + sub) * al
      let cat := area + x.ofs r 1 + (2 * child + sub) * al
      if !r.admitted || level == 0 || samplingOnly x.period || decide (x.childCount r ≤ child) then f
      else if fieldAt (f.ledger cat 64) 0 8 = g ∧ fieldAt (f.ledger (cat + 22) 1) 0 1 / 16 = 2 ∧
          fieldAt (f.ledger at' 8) 0 8 ≠ g then
        -- A carry (R270).
        let bs := f.ledger cat size
        if x.slotOk bs then
          let c := slotOfBytes bs
          let t := match r.carryTotal with
            | some t => { t.merge c with inst := max t.inst c.inst, first := min t.first c.first }
            | none => { c with roleEpoch := r.epoch, level := level + 1 }
          let f := f.setGrp k (x.setRole { r with carryTotal := some t })
          (f.putLedger (area + x.ofs r 3) t.bytes).bump (0x3480 + k) 5 1
        else f.bump (0x3480 + k) 7 1
      else
        let bs := f.ledger at' size
        let c := slotOfBytes bs
        if c.inst ≠ g then f
        else if !(x.slotOk bs) then f.bump (0x3480 + k) 7 1
        else
          let lag := decide (c.memb < x.memb)
          let c := if lag then { c with hflags := setBit c.hflags 3 true } else c
          let f := if lag then f.bump (0x3480 + k) 6 1 else f
          let x := (f.grp k).getD x
          if r.closed.any (fun n => decide (g ≤ n)) then
            match f.coalesce k r c with
            | some f => f
            | none =>
              let r := r.toBucket x c
              ((f.setGrp k (x.setRole r)).putBucket k g x r).bump (0x3480 + k) 2 1
          else
            let o := (r.open_.find? fun o => o.1.inst == g).getD (x.slot g (level + 1) 0 r.epoch, [])
            if o.2.contains child then f
            else
              f.setGrp k (x.setRole { r with open_ := (r.open_.filter fun o => o.1.inst != g) ++ [(o.1.merge c, o.2 ++ [child])] })

/-- CONTRIB_ARRIVAL. -/
def execContribArrival (dt : Nat) (g : GSlot) (role : Fin 3) (child : Nat) (sub : Fin 2) (inst : Word) (s : State) :
    Host.Outcome State Fault Refusal :=
  .next (onFy dt (fun f => f.arrive g.val role.val child sub.val inst.toNat) s)

/-! ### Closes (R267, R268) -/

/-- DIES_EXPECTED of a role: the armed dies that its children reported, or what they contributed. -/
def Role.expected (r : Role) (merged : Nat) : Nat :=
  if r.children.isEmpty then merged
  else sumBy (fun c => if c.1 % 2 = 0 ∧ c.1 ≠ rootStandbyKey then c.2.armed else 0) r.children

/-- R268: what a role has merged for an instant, with the children that have not arrived counted absent. -/
def Grp.closeOf (x : Grp) (r : Role) (g : Nat) : Contrib :=
  let o := (r.open_.find? fun o => o.1.inst == g).getD (x.slot g (r.level + 1) 0 r.epoch, [])
  let missing := x.childCount r - o.2.length
  { o.1 with
    expected := r.expected o.1.expected
    absentTrays := o.1.absentTrays + (if r.level = 1 then missing else 0)
    absentL2 := o.1.absentL2 + (if r.level = 2 then missing else 0) }

/-- A role that has closed an instant: its frame's old bucket is gone. -/
def Role.close (r : Role) (x : Grp) (g : Nat) : Role :=
  { r with open_ := r.open_.filter fun o => decide (g < o.1.inst), closed := some g,
           late := r.late.filter fun b => decide (g < b.inst + frames x.period * x.period) }

/-- R268: an instant can be closed once, from its deadline on. -/
def Fyster.closes (f : Fyster) (x : Grp) (r : Role) (g : Nat) : Bool :=
  x.reduces g && r.admitted && decide (g + deadline r.level ≤ ts64Of f.ns) && !(r.closed.any fun n => decide (g ≤ n))

/-- R268: an L2 closes and writes to the root. -/
def Fyster.l2Close (f : Fyster) (k g : Nat) : Fyster :=
  match f.grp k with
  | none => f
  | some x =>
    match x.held 1 with
    | none => f
    | some r =>
      if f.closes x r g then
        let c := { x.closeOf r g with level := 2, kind := 0, roleEpoch := f.parentEpoch k 1 }
        let r := r.close x g
        ((f.setGrp k (x.setRole r)).bump (0x3480 + k) 1 1).contribute k r c
      else f

/-- L2_CLOSE. -/
def execL2Close (dt : Nat) (g : GSlot) (inst : Word) (s : State) : Host.Outcome State Fault Refusal :=
  .next (onFy dt (fun f => f.l2Close g.val inst.toNat) s)

/-- R267: the root writes its summary, whole or its header alone, into its own frame and the standby root's. -/
def Fyster.putSummary (f : Fyster) (k : Nat) (x : Grp) (r : Role) (c : Contrib) (headerOnly : Bool) : Fyster :=
  let o := roleArea k 2 + x.ofs r 4 + x.frame c.inst * slotAl (dMetrics x.desc)
  let bs := if headerOnly then c.header else c.bytes
  let f := f.putLedger o bs
  let sb := dRoot x.desc (!r.standby)
  if sb = f.tray then f else f.emit (.fabric sb 0 (dRootBase x.desc (!r.standby) + o) bs)

/-- R268: the root closes and writes the summary; a summary that is not complete by G + 800 µs is PARTIAL. -/
def Fyster.rootClose (f : Fyster) (k g : Nat) : Fyster :=
  match f.grp k with
  | none => f
  | some x =>
    match x.held 2 with
    | none => f
    | some r =>
      if f.closes x r g then
        let c := { x.closeOf r g with level := 3, kind := 3, roleEpoch := r.epoch }
        let c := if g + 800000 < ts64Of f.ns then { c with hflags := setBit c.hflags 1 true } else c
        let r := r.close x g
        let f := (f.setGrp k (x.setRole { r with sent := lastN (frames x.period) (r.sent ++ [c]) })).bump (0x3480 + k) 1 1
        f.putSummary k x r c false
      else f

/-- ROOT_CLOSE. -/
def execRootClose (dt : Nat) (g : GSlot) (inst : Word) (s : State) : Host.Outcome State Fault Refusal :=
  .next (onFy dt (fun f => f.rootClose g.val inst.toNat) s)

/-- R267, R268: at G + 1.0 ms the root publishes. -/
def Fyster.publish (f : Fyster) (k g : Nat) : Fyster :=
  let f := match f.grp k with
    | some x => if x.reduces g && decide (g + 1000000 ≤ ts64Of f.ns) then f.rootClose k g else f
    | none => f
  match f.grp k with
  | none => f
  | some x =>
    match x.held 2 with
    | none => f
    | some r =>
      match r.sent.find? fun c => c.inst == g with
      | none => f
      | some c =>
        if decide (g + 1000000 ≤ ts64Of f.ns) && !(bitOf c.hflags 0) then
          let c := { c with hflags := setBit c.hflags 0 true }
          let sent := modFirst (fun (y : Contrib) => y.inst == g) (fun _ => c) r.sent
          (f.setGrp k (x.setRole { r with sent := sent })).putSummary k x r c true
        else f

/-- ROOT_PUBLISH. -/
def execRootPublish (dt : Nat) (g : GSlot) (inst : Word) (s : State) : Host.Outcome State Fault Refusal :=
  .next (onFy dt (fun f => f.publish g.val inst.toNat) s)

/-! ### The summary at its readers (R267, R269) -/

/-- R269: a reader accepts a summary. -/
def Grp.accepts (x : Grp) (g : Nat) (v : List Byte) : Bool :=
  let c := slotOfBytes v
  slotGood v && c.inst == g && bitOf c.hflags 0 && c.group == x.id && c.agrees (x.slot 0 1 0 0)

/-- R267: an L2 under RELAYED copies the summary and names it to its L1s. -/
def Fyster.relaySummary (f : Fyster) (k g : Nat) (x : Grp) (r : Role) (v : List Byte) : Fyster :=
  let f := f.putLedger (roleArea k 1 + x.ofs r 4 + x.frame g * slotAl (dMetrics x.desc)) v
  (x.childTrays r).foldl (fun f c =>
    f.remote c.1.1 c.1.2 (roleArea k 0 + downOfs 0 (b2n r.standby) + 48) (leBytes 8 g) 0) f

/-- R269: the ranks of every member die's value for `g` go into its contexts. -/
def Fyster.writeRanks (f : Fyster) (k g : Nat) (x : Grp) (c : Contrib) (ports : List Nat) : Fyster :=
  (dMetricList x.desc).zip c.aggs |>.foldl (fun f e =>
    ports.foldl (fun f p =>
      (if e.1.tile then List.range 72 else [255]).foldl (fun f t =>
        let key := ctxKey k e.1.id p t
        match tfind f.red.ctx key with
        | none => f
        | some c =>
          let rank := match c.valueAt g with
            | some v => e.2.rank v
            | none => none
          f.setCtx key { c with rank := rank, stale := false }) f) f) f

/-- R267, R269: a summary read by an L2 that relays it or by an L1; answers whether an L1 has accepted it. -/
def Fyster.summaryTake (f : Fyster) (k g : Nat) (v : List Byte) : Fyster × Bool :=
  match f.grp k with
  | none => (f, false)
  | some x =>
    let fresh := match x.summary with
      | some c => decide (c.inst < g)
      | none => true
    if !x.accepts g v then (f, false)
    else
      let f := match x.held 1 with
        | some r => if dRelayed x.desc then f.relaySummary k g x r v else f
        | none => f
      match x.roles.find? fun r => r.level == 0 && !r.standby && r.holder with
      | some r =>
        if fresh then
          let c := slotOfBytes v
          ((f.setGrp k { x with summary := some c }).writeRanks k g x c r.armedPorts, true)
        else (f, false)
      | none => (f, false)

/-- R269: no accepted summary in time. -/
def Fyster.summaryMiss (f : Fyster) (k g : Nat) : Fyster :=
  match f.grp k with
  | none => f
  | some x =>
    let got := x.summary.any fun c => decide (g ≤ c.inst)
    if x.reduces g && (x.held 0).isSome && !got && decide (x.missed < g) && decide (g + 1000000 + x.period / 2 ≤ ts64Of f.ns) then
      let f := (f.setGrp k { x with missed := g }).bump (0x3480 + k) 0x0A 1
      let stale (c : Ctx) : Ctx := { c with stale := true }
      { f with red := { f.red with ctx := f.red.ctx.map fun (c : Nat × Ctx) => if c.1 / 2 ^ 32 = k then (c.1, stale c.2) else c } }
    else f

/-- SUMMARY_MISSED. -/
def execSummaryMissed (dt : Nat) (g : GSlot) (inst : Word) (s : State) : Host.Outcome State Fault Refusal :=
  .next (onFy dt (fun f => f.summaryMiss g.val inst.toNat) s)

/-! ### Carries (R270) -/

/-- R270: a contribution that is still unwritten when its frame is reused goes into the writer's carry, which is then written. -/
def Fyster.reuse (f : Fyster) (k level frame : Nat) : Fyster :=
  match f.grp k with
  | none => f
  | some x =>
    match x.held level with
    | none => f
    | some r =>
      let mine (w : PendWrite) : Bool := w.gslot == k && w.role == level && w.c.kind != 2 && x.frame w.c.inst == frame
      let old := f.red.writes.filter mine
      if old.isEmpty then f
      else
        let carry := old.foldl (fun (c : Option Contrib) w => match c with
          | none => some { w.c with kind := 2 }
          | some c => some { c.merge w.c with inst := max c.inst w.c.inst, first := min c.first w.c.first }) r.carry
        let f := { f with red := { f.red with writes := f.red.writes.filter fun w => !mine w && !(w.gslot == k && w.role == level && w.c.kind == 2) } }
        let r := { r with carry := carry }
        let f := f.setGrp k (x.setRole r)
        match carry with
        | some c => f.writeSlot k r c true
        | none => f

/-- FRAME_REUSE_CARRY. -/
def execFrameReuseCarry (dt : Nat) (g : GSlot) (role : Fin 3) (frame : Nat) (s : State) : Host.Outcome State Fault Refusal :=
  .next (onFy dt (fun f => f.reuse g.val role.val frame) s)

/-! ### Heartbeats and take-over (R266, R283, R284) -/

/-- The trays whose L1 standby tray `t` is, as section and position, in descriptor order. -/
def standbyFor (d : List Byte) (t : Nat) : List (Nat × Nat) :=
  (dSections d).zipIdx.flatMap fun (s : Section × Nat) =>
    s.1.trays.zipIdx.filterMap fun (e : TrayEntry × Nat) => if e.1.sb = t then some (s.2, e.2) else none

/-- Tray, LEDGER_BASE and offset of the peer slot of a role: for an L1 the standby's entry for the tray, and for an L1 standby the
first entry past those that the holder itself stands by for. -/
def Grp.peerPlace (x : Grp) (k : Nat) (r : Role) : Option (Nat × Nat × Nat) :=
  if r.level = 2 then some (dRoot x.desc (!r.standby), dRootBase x.desc (!r.standby), roleArea k 2 + peerOfs 2 0)
  else if r.level = 1 then
    (x.section_ r.section_).map fun s =>
      if r.standby then (s.tray, s.base, roleArea k 1 + peerOfs 1 0) else (s.sb, s.sbBase, roleArea k 1 + peerOfs 1 0)
  else
    match (x.section_ r.section_).bind fun s => s.trays[r.index]? with
    | none => none
    | some e =>
      if r.standby then some (e.tray, e.base, roleArea k 0 + peerOfs 0 (standbyFor x.desc e.tray).length)
      else
        ((standbyFor x.desc e.sb).findIdx? fun y => y == (r.section_, r.index)).map fun i =>
          (e.sb, e.sbBase, roleArea k 0 + peerOfs 0 i)

/-- The peer slot that a role writes (R266). -/
def Fyster.peerBytes (f : Fyster) (x : Grp) (r : Role) : List Byte :=
  leBytes 64 (packNat [(x.id, 32), (x.serial, 32), (r.epoch, 16), (b2n (!r.holder), 8), (0, 40), (f.ts, 64)])

/-- R283: a role writes its peer's slot. -/
def Fyster.heartbeat (f : Fyster) (k : Nat) (x : Grp) (r : Role) : Fyster :=
  match x.peerPlace k r with
  | some (tray, base, ofs) => if tray = f.tray then f else f.remote tray base ofs (f.peerBytes x r) 0
  | none => f

/-- PEER_HEARTBEAT. -/
def execPeerHeartbeat (dt : Nat) (g : GSlot) (role : Fin 3) (s : State) : Host.Outcome State Fault Refusal :=
  .next (onFy dt (fun f => match f.grp g.val with
    | some x =>
      if x.live && !samplingOnly x.period then
        (x.roles.filter fun r => r.level == role.val).foldl (fun f r => f.heartbeat g.val x r) f
      else f
    | none => f) s)

/-- R283: a standby takes over a role: a higher ROLE_EPOCH, TAKEOVER at every child, the holder's peer slot, a count. -/
def Fyster.takeRole (f : Fyster) (k : Nat) (r : Role) : Fyster :=
  match f.grp k with
  | none => f
  | some x =>
    let r := { r with holder := true, epoch := (r.epoch + 1) % 65536 }
    let f := f.setGrp k (x.setRole r)
    let f := (x.childTrays r).foldl (fun f c =>
      f.remote c.1.1 c.1.2 (roleArea k (r.level - 1) + downOfs (r.level - 1) 1 + 32)
        (leBytes 3 (packNat [(r.epoch, 16), (1, 8)])) 0) f
    let f := f.heartbeat k x r
    f.counted 515 (0x3480 + k) 9 1

/-- R283: standbys whose peer has been silent for TAKEOVER_US. -/
def Fyster.takeovers (f : Fyster) (k level : Nat) : Fyster :=
  match f.grp k with
  | none => f
  | some x =>
    if x.state ≠ 3 then f
    else
      (x.roles.filter fun r => r.level == level && r.standby && !r.holder && r.admitted &&
        decide (max r.seenAt x.eff + f.rd 0x3600 0x0B * 1000 ≤ f.ns)).foldl (fun f r => f.takeRole k r) f

/-- TAKEOVER_TIMEOUT. -/
def execTakeoverTimeout (dt : Nat) (g : GSlot) (role : Fin 3) (s : State) : Host.Outcome State Fault Refusal :=
  .next (onFy dt (fun f => f.takeovers g.val role.val) s)

/-- R284: a holder that meets a higher ROLE_EPOCH becomes the standby and logs it under ROLE_EPOCHS. -/
def Fyster.demote (f : Fyster) (k : Nat) (r : Role) (epoch : Nat) : Fyster :=
  match f.grp k with
  | none => f
  | some x =>
    if r.holder ∧ r.epoch < epoch then
      let f := f.setGrp k (x.setRole { r with holder := false, epoch := epoch })
      f.log (event 0x0F00 515 ((0x3480 + k) * 65536 + 8 * 256) epoch)
    else f

/-- R283: a child that finds TAKEOVER with a higher ROLE_EPOCH rewrites what the standby has not closed. -/
def Fyster.followTakeover (f : Fyster) (k level : Nat) : Fyster :=
  match f.grp k with
  | none => f
  | some x =>
    if f.followsStandby k level then
      (x.roles.filter fun r => r.level == level && r.holder).foldl (fun f r =>
        (r.sent.filter fun c => decide (ts64Of f.ns < c.inst + deadline (level + 1))).foldl (fun f c =>
          f.writeSlot k r { c with roleEpoch := f.parentEpoch k level } false) f) f
    else f

/-! ### Inbound ledger writes (R14, R263, R266, R275) -/

/-- A run of bytes lies within a window. -/
def within (ofs n lo size : Nat) : Bool := decide (lo ≤ ofs) && decide (ofs + n ≤ lo + size)

/-- The tray of child `i` of a role on sub-slot `k` (R263). -/
def Grp.childTray (x : Grp) (r : Role) (i k : Nat) : Option Nat :=
  ((x.childTrays r)[i]?).map fun c => if k = 0 then c.1.1 else c.2.1

/-- What an inbound write to a role's area is. -/
inductive LedgerHit where
  | refused
  | down (sub : Nat)
  | peer
  | up (child : Nat)
  | data
deriving DecidableEq, Repr

/-- R263: where a write of `n` bytes at offset `o` of a role's area falls, for a writer on tray `src`. -/
def Grp.ledgerHit (x : Grp) (r : Role) (src o n : Nat) : LedgerHit :=
  let al := slotAl (dMetrics x.desc)
  let c := x.childCount r
  let parent (s : Bool) : Bool := (x.parentOf r s).any fun t => t.1 == src
  let down := (List.range 2).find? fun s => within o n (downOfs r.level s) 256 && parent (s == 1)
  let child (start each : Nat) : Option Nat :=
    if o < start ∨ each = 0 then none
    else
      let j := (o - start) / each
      if within o n (start + j * each) each && decide (j / 2 < c) && (x.childTray r (j / 2) (j % 2) == some src) then some (j / 2)
      else none
  let frame := c * 2 * al
  let fr := x.ofs r 0
  let inFrames := decide (fr ≤ o) && decide (o < fr + frames x.period * frame) && frame != 0
  match down with
  | some s => .down s
  | none =>
    if r.level = 0 then
      if within o n 69632 2048 && x.roles.any (fun q => q.level == 0 && q.peer == src) then .peer
      else if within o n 98432 128 && (dRoot x.desc false == src || dRoot x.desc true == src) then .data
      else .refused
    else if within o n (peerOfs r.level 0) 64 ∧ r.peer = src then .peer
    else if (child 532480 64).isSome ∧ o < 1048576 then
      match child 532480 64 with
      | some i => .up i
      | none => .refused
    else if inFrames then (if (child (fr + (o - fr) / frame * frame) al).isSome then .data else .refused)
    else if decide (x.ofs r 1 ≤ o) && decide (o < x.ofs r 2) then (if (child (x.ofs r 1) al).isSome then .data else .refused)
    else if r.level = 2 ∧ within o n (x.ofs r 4) (frames x.period * al) = true ∧ r.peer = src then .data
    else if r.level = 2 ∧ x.ofs r 5 ≤ o ∧ o < x.ofs r 6 then
      let j := (o - x.ofs r 5) / 2048
      let all := (dSections x.desc).flatMap (·.trays)
      match all[j]? with
      | some e => if within o n (x.ofs r 5 + j * 2048) 2048 && (e.tray == src || e.sb == src) then .data else .refused
      | none => .refused
    else .refused

/-- R284: a peer slot has been written: the heartbeat is seen, and a higher ROLE_EPOCH demotes a holder. -/
def Fyster.peerSeen (f : Fyster) (k level src o : Nat) : Fyster :=
  match f.grp k with
  | none => f
  | some x =>
    let at' := roleArea k level + (if level = 0 then 69632 + (o - 69632) / 64 * 64 else peerOfs level 0)
    let epoch := fieldAt (f.ledger (at' + 8) 2) 0 2
    let hb := fieldAt (f.ledger (at' + 16) 8) 0 8
    (x.roles.filter fun r => r.level == level && r.peer == src).foldl (fun f r =>
      let seen := { r with peerHb := max r.peerHb hb, seenAt := if r.peerHb < hb then f.ns else r.seenAt }
      let f := match f.grp k with
        | some x => f.setGrp k (x.setRole seen)
        | none => f
      f.demote k seen epoch) f

/-- R263, R266: an inbound write to the ledger. -/
def Fyster.ledgerIn (f : Fyster) (src addr : Nat) (v : List Byte) : Fyster :=
  let refuse (f : Fyster) : Fyster := f.counted 515 0x3600 0x0A 1
  let base := f.rd 0x3600 1
  let ofs := addr - base
  if base = 0 ∨ addr < base ∨ f.rd 0x3600 2 < ofs + v.length then refuse f
  else if ofs < 2097152 then (if within ofs v.length (256 * src) 256 then f.putLedger ofs v else refuse f)
  else
    let k := (ofs - 2097152) / 268435456
    let a := (ofs - 2097152) % 268435456
    let level := if a < 1048576 then 0 else if a < 134217728 then 1 else 2
    let o := ofs - roleArea k level
    match f.grp k with
    | none => refuse f
    | some x =>
      match x.roles.filter fun r => r.level == level && x.ledgerHit r src o v.length != .refused with
      | [] => refuse f
      | r :: _ =>
        let f := f.putLedger ofs v
        match x.ledgerHit r src o v.length with
        | .refused => f
        | .data => f
        | .peer => f.peerSeen k level src o
        | .down s => if s = 1 ∧ o < downOfs level 1 + 35 then f.followTakeover k level else f
        | .up i =>
          let w := 532480 + (o - 532480) / 64 * 64
          let epoch := fieldAt (f.ledger (roleArea k level + w + 32) 2) 0 2
          let f := f.demote k r epoch
          if o + v.length ≤ w + 48 then f else f.cutAckArrives k level i (f.ledger (roleArea k level + w + 48) 16)

/-- LEDGER_WRITE_RX. -/
def execLedgerWriteRx (dt : Nat) (src : BitVec 16) (addr : Word) (v : List Byte) (s : State) : Host.Outcome State Fault Refusal :=
  .next (onFy dt (fun f => f.ledgerIn src.toNat addr.toNat v) s)

end Sys2Proof.Machine
end

