-- ==== Sys2Proof/Machine/GovOps.lean ====
section
/-! DEFINITION. Die states, zoom triggers, governor requests and corruption findings (R318, R325, R326, R329 to R331). -/

namespace Sys2Proof.Machine

/-! ### Die states (R318) -/

/-- A die without findings. -/
def DieDec.zero : DieDec where
  dstate := 0
  run := 0
  miss := 0
  strag := false
  episodes := []
  cand := none
  eseq := 0
  excess := none
  trigger := none
  zoomed := 0
  quiet := 0
  zoomAsk := none

/-- The key of the die on port `p` in group slot `g`. -/
def dieKey (g p : Nat) : Nat := g * 32 + p

/-- What is decided of the die on a port in a group. -/
def Fyster.die (f : Fyster) (g p : Nat) : DieDec := tget f.dec.dies (dieKey g p) .zero

/-- Fyster with that replaced. -/
def Fyster.setDie (f : Fyster) (g p : Nat) (d : DieDec) : Fyster :=
  { f with dec := { f.dec with dies := tset f.dec.dies (dieKey g p) d } }

/-- Fyster with the governor state of a group replaced. -/
def Fyster.setGov (f : Fyster) (g : Nat) (x : Gov) : Fyster := { f with dec := { f.dec with govs := tset f.dec.govs g x } }

/-- DSTATE of a die that has no open finding (R318). -/
def DieDec.base (d : DieDec) : Nat := if d.zoomed = 0 then 0 else 1

/-- DIE_STATES (R341). -/
def Fyster.dieStates (f : Fyster) (g : Nat) : List Byte :=
  match f.grp g with
  | some x => (f.members x).flatMap fun p => leBytes 4 (f.dieOf p) ++ leBytes 4 (f.die g p).dstate
  | none => []

/-- R326: a zoom trigger. -/
def Fyster.zoomTrigger (f : Fyster) (g p : Nat) : Fyster :=
  let d := f.die g p
  f.setDie g p { d with trigger := some (d.trigger.getD f.ns), quiet := 0 }

/-! ### The governor slot of the tray (R331) -/

/-- Offset of the request part in the L1 area. -/
def govReq : Nat := 98304

/-- Offset of the grant part. -/
def govGrant : Nat := 98432

/-- The request part. -/
def Gov.request (x : Gov) : List Byte :=
  let one (e : Nat) : List Byte :=
    match x.entries.find? fun y => y.slot == e with
    | some y =>
      leBytes 24 (packNat [(y.eseq, 32), (y.die, 32), (y.kind, 8), (y.cls, 8), (0, 16), (y.score, 32), (y.ts, 64)])
    | none => leBytes 24 0
  leBytes 8 x.eseq ++ (List.range 4).flatMap one ++ leBytes 24 0

/-- R331: the L1 writes its request part. -/
def Fyster.putRequest (f : Fyster) (g : Nat) : Fyster := f.putLedger (roleArea g 0 + govReq) (f.gov g).request

/-- R330, R331: a new entry; answers its ESEQ, or 0 with four entries in use. -/
def Fyster.govEnter (f : Fyster) (g kind die cls score ts : Nat) : Fyster × Nat :=
  let x := f.gov g
  match (List.range 4).find? fun e => !x.entries.any (·.slot == e) with
  | none => (f, 0)
  | some e =>
    let n := x.eseq + 1
    let y : GovEntry := { slot := e, eseq := n, die := die, kind := kind, cls := cls, score := score, ts := ts }
    ((f.setGov g { x with eseq := n, entries := x.entries ++ [y] }).putRequest g, n)

/-- An entry is emptied. -/
def Fyster.govLeave (f : Fyster) (g eseq : Nat) : Fyster :=
  if eseq = 0 then f
  else
    let x := f.gov g
    (f.setGov g { x with entries := x.entries.filter fun y => y.eseq != eseq }).putRequest g

/-- R331: fences enter as entries become free. -/
def Fyster.fencesEnter (f : Fyster) (g : Nat) : Nat → Fyster
  | 0 => f
  | n + 1 =>
    match (f.gov g).fences with
    | [] => f
    | (die, ts) :: rest =>
      let y := f.govEnter g 2 die 0 0 ts
      if y.2 = 0 then f else (y.1.setGov g { y.1.gov g with fences := rest }).fencesEnter g n

/-- A fence is entered, or waits. -/
def Fyster.govFence (f : Fyster) (g die : Nat) : Fyster :=
  let x := f.gov g
  (f.setGov g { x with fences := x.fences ++ [(die, f.ts)] }).fencesEnter g 4

/-! ### Corruption findings (R325) -/

/-- A group whose taint list this tray's L1 writes (R179, R253). -/
def Grp.lists (x : Grp) : Bool :=
  (x.state == 3 || x.state == 5) && !samplingOnly x.period && x.roles.any fun r => r.level == 0 && !r.standby

/-- Groups that list the die on port `p`; `gslot`: of its record. -/
def Fyster.taintGroups (f : Fyster) (p gslot : Nat) : List Nat :=
  (f.red.groups.filter fun e => decide (e.1 < 64) && e.2.lists && (f.members e.2).contains p && (gslot == 0xFF || gslot == e.1)).map
    (·.1)

/-- TAINT_FROM (R170). -/
def taintFrom (r : Rec) : Nat := if bitOf (r.fld 216 8) 1 then r.fld 384 64 else min (r.fld 384 64) (r.fld 512 64)

/-- R325: the die becomes FENCED in a group; its quarantine request, if any, is withdrawn. -/
def Fyster.fence (f : Fyster) (p g : Nat) : Fyster :=
  let d := f.die g p
  if d.dstate = 4 then f
  else
    let f := f.govLeave g d.eseq
    (f.setDie g p { d with dstate := 4, cand := none, eseq := 0 }).govFence g (f.dieOf p)

/-- R325: Fyster acts on a notice that enters a taint list. -/
def Fyster.corruption (f : Fyster) (p : Nat) (r : Rec) : Fyster :=
  let kind := r.fld 192 8
  if kind = 2 then f
  else
    let gs := f.taintGroups p r.gslot
    let slot := if gs.contains r.gslot then r.gslot else 0xFF
    let block := kind == 1 || kind == 3
    let suspect := block && r.fld 200 8 == 3
    let arith := block && !suspect
    let fresh := gs.isEmpty || gs.any fun g => (f.die g p).dstate != 4
    let fence := arith && fresh
    let f := if fence then gs.foldl (fun f g => f.fence p g) { f with dec := { f.dec with tray := f.dec.tray ++ [f.ns] } } else f
    let f := if suspect then gs.foldl (fun f g => f.zoomTrigger g p) f else f
    let y := f.notify { notice 5 (f.dieOf p) slot (fullNs f.ns (r.fld 384 64)) with
      action := if fence then 3 else 0
      cause := if arith then 8 else if suspect then 9 else 0x0A
      flags := b2n fence
      unit := if r.unit ≤ 71 then r.unit else 0xFF
      dstate := if slot = 0xFF then 0 else (f.die slot p).dstate
      related := r.fld 672 32
      detail64 := taintFrom r }
    { y.1 with dec := { y.1.dec with taints := lastN 64 (y.1.dec.taints ++ [(p, r, y.2)]) } }

end Sys2Proof.Machine
end

