-- ==== Sys2Proof/Machine/Time.lean ====
section
/-! DEFINITION. The commands of fleet time (02_fleet_time.md): time transfer over the tray link, PTP, the transmit-timestamp
queue, step authorisation and the periodic records. -/

namespace Sys2Proof.Machine

/-! ### Time transfer (R37 to R39) -/

/-- R37: send TREQ and stamp T1; an exchange still outstanding counts as missing (R38). -/
def Tu.treqSend (t : Tu) (p : Port) : Tu :=
  if t.link.st = .up then
    let t := if t.treq.isSome then t.missed p else t
    let seq := (t.treqSeq + 1) % 65536
    { t with treqSeq := seq, treq := some (seq, t.part.time.now) }.emit
      (.tos (.tuEnd p) (mkTos 1 (leBytes 2 seq ++ leBytes 2 0)))
  else t

/-- TREQ_SEND. -/
def execTreqSend (dt : Nat) (p : Port) (s : State) : Host.Outcome State Fault Refusal :=
  .next (onTu p dt (fun t => t.treqSend p) s)

/-- The TRSP ordered set (R37, R408): T2 and T3 in 2^-16 ns. -/
def Fyster.trsp (f : Fyster) (seq t2 t3 : Nat) : Tos :=
  let tm := f.part.time
  mkTos 2 (leBytes 2 seq ++ leBytes 1 (tm.servo.code + 16 * f.rd 0x1210 1) ++ leBytes 1 0 ++ leBytes 2 tm.stepEpoch ++
    leBytes 2 (t2 % 65536) ++ leBytes 8 (ts64Of (t2 / 65536)) ++ leBytes 8 (ts64Of (t3 / 65536)) ++ leBytes 2 (t3 % 65536) ++
    leBytes 2 0 ++ leBytes 4 (min (tm.holdNs (f.rd 0x1220 4)) 0xFFFFFFFF) ++ leBytes 8 tm.gm.toNat ++ leBytes 4 0)

/-- R409: an ordered set is discarded and counted. -/
def Fyster.tosDiscard (f : Fyster) (p : Port) : Fyster := f.bump (0x1180 + p.val) 7 1

/-- R409 at a TU. -/
def Tu.tosDiscard (t : Tu) : Tu := t.bump 0x2F00 7 1

/-- R37: Fyster answers a TREQ; the answer leaves at once (log 11). -/
def Fyster.treqRx (f : Fyster) (p : Port) (x : Tos) : Fyster :=
  if x.good 1 then f.emit (.tos (.fysterEnd p) (f.trsp (fieldAt x.payload 0 2) f.part.time.now f.part.time.now))
  else f.tosDiscard p

/-- TOS_TREQ_RX. -/
def execTosTreqRx (dt : Nat) (p : Port) (tos : Tos) (s : State) : Host.Outcome State Fault Refusal :=
  .next (onFy dt (fun f => f.treqRx p tos) s)

/-- The lower middle value of a list (R38). -/
def lowerMedian (l : List Int) : Option Int := (sortBy (fun a b => decide (a ≤ b)) l)[(l.length - 1) / 2]?

/-- R37, R38, R43, R46, R397: an exchange that matches; `t2`, `t3` in 2^-16 ns modulo 2^80. -/
def Tu.exchange (t : Tu) (p : Port) (t1 t2 t3 epoch : Nat) : Tu :=
  let t4 := t.part.time.now
  let fwd := toInt 80 (ofInt 80 ((t4 : Int) - t3))
  let back := toInt 80 (ofInt 80 ((t2 : Int) - t1))
  let mpd2 := back + fwd
  let late := match lowerMedian t.mpds with
    | some m => decide (m + 4 * 65536 < mpd2)
    | none => false
  if late then t.missed p
  else
    let theta2 := (fwd - back) * 1000 - t.asym * 65536
    let t := { t with treq := none, bad := 0, mpds := lastN 16 (t.mpds ++ [mpd2]) }
    let t := t.wr 0x2200 6 (ofInt 32 (offsetPs (mpd2 * 1000)))
    if t.part.time.servo = .freeRun ∨ t.restartSeen = true ∨ epoch ≠ t.part.time.stepEpoch then
      ({ t with restartSeen := false }).servo (t.part.time.stepBy theta2 epoch)
    else
      let x := t.free p
      let y := x.1.free p
      y.1.servo (y.1.part.time.update theta2 y.1.jumpNs 3 epoch (toInt 32 (x.2.toNat % 2 ^ 32)) (clampFreq y.2))

/-- R58: a new asymmetry applies at the next exchange; ASYM_WRITTEN. -/
def Tu.takeAsym (t : Tu) : Tu :=
  match t.asymNew with
  | some a => ({ t with asym := a, asymNew := none }).timeRec 0x0B a 0xFF false false
  | none => t

/-- R37, R38, R44, R397: a TRSP arrives. -/
def Tu.trspRx (t : Tu) (p : Port) (x : Tos) : Tu :=
  if !x.good 2 then t.tosDiscard
  else
    let b := x.payload
    let st := fieldAt b 2 1
    let t := { t with fyServo := st % 16, fyProfile := st / 16, fyHold := fieldAt b 28 4 }
    let t := t.servo (t.part.time.newMaster (BitVec.ofNat 64 (fieldAt b 32 8)))
    match t.treq with
    | none => t
    | some (seq, t1) =>
      if fieldAt b 0 2 ≠ seq ∨ t1 + 20000 * 65536 < t.part.time.now then t.missed p
      else if st % 16 = 0 then { t with treq := none }
      else
        t.takeAsym.exchange p t1 (fieldAt b 8 8 * 65536 + fieldAt b 6 2) (fieldAt b 16 8 * 65536 + fieldAt b 24 2)
          (fieldAt b 4 2)

/-- TOS_TRSP_RX. -/
def execTosTrspRx (dt : Nat) (p : Port) (tos : Tos) (s : State) : Host.Outcome State Fault Refusal :=
  .next (onTu p dt (fun t => t.trspRx p tos) s)

/-- R38: the outstanding exchange is 20 µs old. -/
def Tu.trspTimeout (t : Tu) (p : Port) : Tu :=
  match t.treq with
  | some (_, t1) => if t1 + 20000 * 65536 ≤ t.part.time.now then t.missed p else t
  | none => t

/-- TRSP_TIMEOUT. -/
def execTrspTimeout (dt : Nat) (p : Port) (s : State) : Host.Outcome State Fault Refusal :=
  .next (onTu p dt (fun t => t.trspTimeout p) s)

/-! ### PTP (R30 to R33) -/

/-- R33: Fyster discards the message. -/
def Fyster.ptpBad (f : Fyster) (m : PtpMsg) : Bool :=
  !m.decodable || !m.typeRead || m.version != 2 || m.domain != f.rd 0x1210 2 || !m.ptpTime || m.forbidden ||
    f.rd 0x1210 1 == 3

/-- R33: Announce: the master that the port hears. -/
def Fyster.announce (f : Fyster) (q : Nat) (m : PtpMsg) : Fyster :=
  let o := f.oob q
  if m.qualified && o.up && !o.retired then
    let x : Foreign := { source := m.source, quality := m.quality, gm := m.gm, steps := m.steps, utcOffset := m.utcOffset }
    let take := match o.foreign with
      | some y => y.source == x.source || x.better y
      | none => true
    if take then (f.setOob q { o with foreign := some x }).bmca else f
  else f

/-- The sender is the master of the slave port. -/
def Fyster.fromMaster (f : Fyster) (q : Nat) (m : PtpMsg) : Bool :=
  let o := f.oob q
  decide (o.st = .slave) &&
    (match o.foreign with
     | some x => x.source == m.source
     | none => false)

/-- R43, R45: receive minus origin of a Sync is known: with a path delay it is a usable offset. -/
def Fyster.syncPair (f : Fyster) (q : Nat) (d : Int) : Fyster :=
  let o := { f.oob q with sync := none, syncDelay := some d }
  let f := f.setOob q o
  match o.delay2 with
  | some dl => f.offset (1000 * (2 * d - dl) - 131072 * toInt 32 (f.rd 0x7C11 (q + 1)))
  | none => f

/-- Twice the path delay when this end's transmit stamp is not known to any command: free (log 7). -/
def Fyster.freeDelay (f : Fyster) (q : Nat) : Fyster :=
  let x := f.free
  x.1.setOob q { x.1.oob q with reqSent := none, presp := none, delay2 := some (x.2.toNat : Int) }

/-- R33: a message that is not discarded. -/
def Fyster.ptpTake (f : Fyster) (q : Nat) (m : PtpMsg) : Fyster :=
  let now := f.part.time.now
  let o := f.oob q
  let seq := m.seq.toNat
  match m.mtype.toNat with
  | 0x0 =>
    if f.fromMaster q m then
      if m.twoStep then f.setOob q { o with sync := some (seq, now, m.correction) }
      else f.syncPair q ((now : Int) - m.stamp - m.correction)
    else f
  | 0x8 =>
    match o.sync with
    | some (s, rx, c) =>
      if f.fromMaster q m && s == seq then f.syncPair q ((rx : Int) - m.stamp - c - m.correction) else f
    | none => f
  | 0x9 =>
    if f.fromMaster q m && f.rd 0x1210 3 == 0 then
      match o.reqSent, o.syncDelay with
      | some (s, t3), some d =>
        if s = seq then
          f.setOob q { o with reqSent := none, delay2 := some (d + ((m.stamp : Int) - t3 - m.correction)) }
        else f.freeDelay q
      | _, _ => f.freeDelay q
    else f
  | 0x3 =>
    if f.rd 0x1210 3 == 1 then
      match o.reqSent with
      | some (s, t1) =>
        if s = seq then
          if m.twoStep then f.setOob q { o with presp := some (seq, now, m.stamp) }
          else f.setOob q { o with reqSent := none, delay2 := some ((now : Int) - t1 - m.correction) }
        else f.freeDelay q
      | none => f.freeDelay q
    else f
  | 0xA =>
    match o.presp, o.reqSent with
    | some (s, t4, t2), some (_, t1) =>
      if s = seq then
        f.setOob q { o with reqSent := none, presp := none,
                            delay2 := some (((t4 : Int) - t1) - ((m.stamp : Int) - t2) - m.correction) }
      else f
    | _, _ => f
  | 0xB => f.announce q m
  | _ => f

/-- R33: a PTP message arrives. -/
def Fyster.ptpRx (f : Fyster) (q : Nat) (m : PtpMsg) : Fyster :=
  if f.ptpBad m then f.bump (0x1250 + q) (if m.typeRead then m.mtype.toNat + 1 else 0x11) 1 else f.ptpTake q m

/-- PTP_MESSAGE_RX. -/
def execPtpMessageRx (dt : Nat) (q : Fin 2) (m : PtpMsg) (s : State) : Host.Outcome State Fault Refusal :=
  .next (onFy dt (fun f => f.ptpRx q.val m) s)

/-- R32: the slave port has lost its master. -/
def Fyster.announceLost (f : Fyster) (q : Nat) : Fyster :=
  if (f.oob q).st = .slave then (f.setOob q { f.oob q with foreign := none, sync := none }).bmca else f

/-- ANNOUNCE_TIMEOUT. -/
def execAnnounceTimeout (dt : Nat) (q : Fin 2) (s : State) : Host.Outcome State Fault Refusal :=
  .next (onFy dt (fun f => f.announceLost q.val) s)

/-- R34, R36: a two-step event message leaves; its stamp is queued or dropped. -/
def Fyster.eventTx (f : Fyster) (q txid mtype seq : Nat) : Fyster :=
  let o := f.oob q
  let now := f.part.time.now
  if f.rd 0x1210 1 = 3 then f
  else if 64 ≤ o.txq.length then
    let f := f.bump 0x1240 (q + 1) 1
    if o.txqOvf then f
    else (f.setOob q { o with txqOvf := true }).timeRec 7 q 0 0xFF false false
  else
    f.setOob q { o with
      txq := o.txq ++ [(txid, mtype, now, seq)]
      reqSent := if mtype = 1 ∨ mtype = 2 then some (seq, now) else o.reqSent }

/-- PTP_EVENT_TX. -/
def execPtpEventTx (dt : Nat) (q : Fin 2) (txid : BitVec 16) (mtype : BitVec 4) (seq : BitVec 16) (s : State) :
    Host.Outcome State Fault Refusal :=
  .next (onFy dt (fun f => f.eventTx q.val txid.toNat mtype.toNat seq.toNat) s)

/-- The 24 bytes of a queue entry (R34). -/
def txqBytes (e : Nat × Nat × Nat × Nat) : List Byte :=
  let ns := e.2.2.1 / 65536
  leBytes 24 (packNat [(e.1, 16), (e.2.1, 4), (0, 11), (1, 1), (e.2.2.1 % 65536, 16), (0, 16), (ns / 1000000000, 64),
    (ns % 1000000000, 32), (e.2.2.2, 16), (0, 16)])

/-- R35: a read takes the oldest entry, or answers VALID 0. -/
def Fyster.txqRead (f : Fyster) (q : Nat) : Fyster :=
  let o := f.oob q
  match o.txq with
  | [] => f.emit (.value (leBytes 24 0))
  | e :: r => (f.setOob q { o with txq := r, txqOvf := false }).emit (.value (txqBytes e))

/-- TXQ_READ. -/
def execTxqRead (dt : Nat) (q : Fin 2) (s : State) : Host.Outcome State Fault Refusal :=
  .next (onFy dt (fun f => f.txqRead q.val) s)

/-! ### Step authorisation (R45) -/

/-- A write of STEP_AUTHORISE. -/
def Fyster.wrStepAuthorise (f : Fyster) (serial : Nat) : Fyster × Nat :=
  match f.part.time.authoriseCode serial with
  | 0 => ({ f with part := { f.part with time := { f.part.time with authorised := true } } }, 0)
  | a => (f, a)

/-- A write of TU_STEP_AUTHORISE. -/
def Tu.wrStepAuthorise (t : Tu) (serial : Nat) : Tu × Nat :=
  match t.part.time.authoriseCode serial with
  | 0 => ({ t with part := { t.part with time := { t.part.time with authorised := true } } }, 0)
  | a => (t, a)

/-- STEP_AUTHORISE. -/
def execStepAuthorise (dt : Nat) (lvl : Level) (serial : BitVec 32) (s : State) : Host.Outcome State Fault Refusal :=
  .next (onFy dt (fun f => f.reply lvl 1 (f.wrStepAuthorise serial.toNat)) s)

/-- TU_STEP_AUTHORISE. -/
def execTuStepAuthorise (dt : Nat) (p : Port) (lvl : Level) (serial : BitVec 32) (s : State) :
    Host.Outcome State Fault Refusal :=
  .next (onTu p dt (fun t => t.reply lvl 1 (t.wrStepAuthorise serial.toNat)) s)

/-! ### Periodic records (R27, R56, R423, R438) -/

/-- A whole second of the time unit (R56). -/
def TimeUnit.atSecond (t : TimeUnit) : Bool := t.now % (65536 * 1000000000) == 0

/-- R56, R438: a whole second at the TU. -/
def Tu.second (t : Tu) : Tu :=
  if t.part.time.atSecond then
    let t := if t.part.flag 0x2E00 5 then t.emit .pulse else t
    if t.part.time.servo = .locked then t.timeRec 1 (offsetPs t.part.time.offset2) 0xFF false false else t
  else t

/-- R56, R423: a whole second at Fyster. -/
def Fyster.second (f : Fyster) : Fyster :=
  if f.part.time.atSecond then
    let f := if f.part.flag 0x1173 1 then f.emit .pulse else f
    if f.part.time.servo = .locked then
      f.timeRec 1 (f.slave.getD 0) (offsetPs f.part.time.offset2) 0xFF false false
    else f
  else f

/-- TIME_SECOND_TICK. -/
def execTimeSecondTick (dt : Nat) (n : Node) (s : State) : Host.Outcome State Fault Refusal :=
  .next (onNode n dt (fun _ t => t.second) (fun f => f.second) s)

/-- R27: the time unit stands at a multiple of 2^64 ns after 0. -/
def TimeUnit.atRollover (t : TimeUnit) : Bool := t.now % 2 ^ 80 == 0 && t.now != 0

/-- TS64_ROLLOVER. -/
def execTs64Rollover (dt : Nat) (n : Node) (s : State) : Host.Outcome State Fault Refusal :=
  .next (onNode n dt
    (fun _ t => if t.part.time.atRollover then t.timeRec 9 0 0xFF false false else t)
    (fun f => if f.part.time.atRollover then f.timeRec 9 (f.slave.getD 0) 0 0xFF false false else f) s)

/-- R52: a grid instant of group slot `g`: the latch strobe; an instant fires once, and none before the first lock
(R49, R50). -/
def Tu.gridInstant (t : Tu) (g : Nat) : Tu :=
  match tfind t.groups g with
  | some x =>
    let fresh := match x.fired with
      | some n => decide (n < t.ns)
      | none => true
    if (x.state = 3 ∨ x.state = 5) ∧ t.part.time.everLocked = true ∧ onGrid x.period x.phase t.ns = true ∧ fresh = true then
      { t with groups := tset t.groups g { x with fired := some t.ns } }
    else t
  | none => t

/-- GRID_INSTANT. -/
def execGridInstant (dt : Nat) (p : Port) (g : GSlot) (s : State) : Host.Outcome State Fault Refusal :=
  .next (onTu p dt (fun t => t.gridInstant g.val) s)

/-- R31: under LOCAL the time unit is LOCKED to Fyster's own reference, which is named as grandmaster. -/
def Fyster.localStable (f : Fyster) : Fyster :=
  if f.rd 0x1210 1 = 3 ∧ f.part.time.servo ≠ .locked then
    f.servo
      { tm := { f.part.time with servo := .locked, everLocked := true, holdAt := none, inLock := 0, outLock := 0,
                                 lockedAt := f.part.time.now, gm := Config.clockIdentity, pending2 := 0,
                                 authorised := false }
        recs := [(2, f.part.time.offset2)]
        limit := none }
  else f

/-- LOCAL_REFERENCE_STABLE. -/
def execLocalReferenceStable (dt : Nat) (s : State) : Host.Outcome State Fault Refusal :=
  .next (onFy dt (fun f => f.localStable) s)

end Sys2Proof.Machine
end

