-- ==== Sys2Proof/Machine/Watermark.lean ====
section
/-! DEFINITION. Watermarks and taint lists on Fyster, and the group watermark at the TUs (R175 to R179). -/

namespace Sys2Proof.Machine

/-! ### Watermark state of a TL port -/

/-- A port whose TU has sent no WMK yet. -/
def PortWmk.zero : PortWmk where
  w := 0
  seen := false
  flags := 0
  waiting := []
  resends := []
  listed := []
  lastSerial := 0
  failTotal := 0
  failLow := 0
  unchecked := 0
  uncheckedLow := 0
  gapFrom := none

/-- The watermark state of a port. -/
def Fyster.wmkOf (f : Fyster) (p : Nat) : PortWmk := tget f.wmk p .zero

/-- Fyster with the watermark state of a port replaced. -/
def Fyster.setWmk (f : Fyster) (p : Nat) (x : PortWmk) : Fyster := { f with wmk := tset f.wmk p x }

/-- The serial of a notice is held: in a taint list, or given up as lost. -/
def PortWmk.holds (x : PortWmk) (n : Nat) : Bool := decide (n ≤ x.lastSerial) || x.listed.contains n

/-- The run of held serials grows over what is listed beyond it. -/
def advance : Nat → List Nat → Nat → Nat
  | 0, _, n => n
  | k + 1, l, n => if l.contains (n + 1) then advance k l (n + 1) else n

/-- A serial becomes held. -/
def PortWmk.mark (x : PortWmk) (n : Nat) : PortWmk :=
  if x.holds n then x
  else
    let l := n :: x.listed
    let last := advance l.length l x.lastSerial
    { x with lastSerial := last, listed := l.filter fun m => decide (last < m), resends := x.resends.filter fun r => r.1 != n }

/-! ### Taint lists (R179) -/

/-- A taint entry goes into place `n` of this tray's ring at the root. -/
def Fyster.taintPut (f : Fyster) (g n : Nat) (r : Rec) : Fyster :=
  match f.grp g with
  | none => f
  | some x =>
    let secs := dSections x.desc
    match findTray secs f.tray with
    | none => f
    | some e =>
      let root := newRole 2 false 0 0 0
      let ofs := roleArea g 2 + x.ofs root 5 + (firstTray secs e.1 + e.2.1) * 2048 + 128 * (n % 16)
      f.remote (dRoot x.desc false) (dRootBase x.desc false) ofs (wordsBytes r.words) 0

/-- Entries of this tray in a group's list: the last 16 (R179). -/
def Fyster.taintList (f : Fyster) (g : Nat) : List Rec := tget f.taints g []

/-- R179: GW covers the entry that the next one overwrites. -/
def Fyster.taintRoom (f : Fyster) (g : Nat) : Bool :=
  let l := f.taintList g
  if l.length < 16 then true
  else
    match l.head?, f.grp g with
    | some r, some x => decide (r.fld 960 64 ≤ x.gw)
    | _, _ => true

/-- R179: an entry is written; W waits for the write to complete (R175). -/
def Fyster.taintIssue (f : Fyster) (g p : Nat) (r : Rec) : Fyster :=
  let n := tget f.taintCount g 0
  let w : TaintWrite := { g := g, port := p, serial := r.fld 672 32, held := false, r := r }
  { f.taintPut g n r with
    taints := tset f.taints g (lastN 16 (f.taintList g ++ [r]))
    taintCount := tset f.taintCount g (n + 1)
    taintWrites := f.taintWrites ++ [w] }

/-- R179: a new entry of a group's list, held back while the ring has no room for it. -/
def Fyster.taintEnter (f : Fyster) (g p : Nat) (r : Rec) : Fyster :=
  if f.taintRoom g && !f.taintWrites.any (fun w => w.g == g && w.held) then f.taintIssue g p r
  else { f with taintWrites := f.taintWrites ++ [({ g := g, port := p, serial := r.fld 672 32, held := true, r := r } : TaintWrite)] }

/-- Entries held back are written in order as GW makes room. -/
def Fyster.taintRelease (f : Fyster) (g : Nat) : Nat → Fyster
  | 0 => f
  | n + 1 =>
    match f.taintWrites.find? fun w => w.g == g && w.held with
    | none => f
    | some w => if f.taintRoom g then (({ f with taintWrites := f.taintWrites.erase w }).taintIssue g w.port w.r).taintRelease g n else f

/-- R179, R325: an entry goes into the list of every group of the die, and to the tray host; the decision unit acts on it. -/
def Fyster.taintAll (f : Fyster) (p gslot : Nat) (r : Rec) : Fyster :=
  ((f.taintGroups p gslot).foldl (fun f g => f.taintEnter g p r) (f.hostEntry 1 (wordsBytes r.words))).corruption p r

/-- R179: a FINAL rewrites the entry of its serial in place. -/
def Fyster.taintFinalIn (f : Fyster) (g : Nat) (r : Rec) : Fyster :=
  let same (x : Rec) : Bool := x.die == r.die && x.fld 672 32 == r.fld 672 32 && (x.fld 192 8 == 1 || x.fld 192 8 == 2)
  let l := f.taintList g
  let f := { f with taintWrites := f.taintWrites.map fun w => if w.g == g && w.held && same w.r then { w with r := r } else w }
  match l.findIdx? same with
  | none => f
  | some i =>
    ({ f with taints := tset f.taints g (l.set i r) }).taintPut g (tget f.taintCount g 0 - l.length + i) r

/-- A GAP (4, RESET_GAP) or LOST (5, NOTICE_LOST) entry of the die on port `p` from `lo` to `hi` (R175, R178, R179). -/
def Fyster.gapEntry (f : Fyster) (p kind serial lo hi : Nat) : Rec :=
  { (f.mkRec 0x08 0x0680 224 0xFF lo
      (payload 13 [(kind, 8), (kind, 8), (15, 4), (15, 4), (2, 8), (0, 160), (ts64Of lo, 64), (f.ts, 64), (0, 128), (0, 32), (serial, 32),
        (0, 224), (1, 32), (ts64Of hi, 64)])) with die := f.dieOf p }

/-! ### Taking W (R175, R178) -/

/-- R175, R178: W is taken once every notice it names is held and its list writes have completed; after a TU reset the gap
is listed first. -/
def Fyster.wmkTake (f : Fyster) (p : Nat) : Nat → Fyster
  | 0 => f
  | n + 1 =>
    let x := f.wmkOf p
    match x.waiting with
    | [] => f
    | m :: rest =>
      if x.lastSerial < m.last ∨ f.taintWrites.any (fun w => w.port == p && decide (w.serial ≤ m.last)) = true then f
      else
        match x.gapFrom with
        | some old =>
          if m.uncertain || decide (m.w ≤ old) then (f.setWmk p { x with waiting := rest }).wmkTake p n
          else ((f.setWmk p { x with gapFrom := none }).taintAll p 0xFF (f.gapEntry p 4 0 old m.w)).wmkTake p n
        | none => (f.setWmk p { x with waiting := rest, w := max x.w m.w, seen := true }).wmkTake p n

/-- Every W that is ready is taken. -/
def Fyster.wmkSettle (f : Fyster) (p : Nat) : Fyster := f.wmkTake p (2 * (f.wmkOf p).waiting.length + 1)

/-- R178: what RESET_SEEN brings. -/
def PortWmk.afterReset (x : PortWmk) : PortWmk :=
  { x with gapFrom := if x.seen then some (x.gapFrom.getD x.w) else none, waiting := [], resends := [], listed := [], lastSerial := 0,
           failLow := 0, uncheckedLow := 0 }

/-- R175: a WMK joins those that wait; one that names no further serial replaces the last. -/
def PortWmk.queue (x : PortWmk) (m : WmkWait) : PortWmk :=
  match x.waiting.getLast? with
  | some l =>
    if l.last = m.last then { x with waiting := x.waiting.dropLast ++ [{ m with since := l.since }] }
    else { x with waiting := x.waiting ++ [m] }
  | none => { x with waiting := [m] }

/-- R175: a WMK with its totals, which continue over a TU reset. -/
def PortWmk.take (x : PortWmk) (flags last w fails unchecked now : Nat) : PortWmk :=
  let x := if bitOf flags 6 then x.afterReset else x
  let up (low v : Nat) : Nat := (v + 2 ^ 32 - low) % 2 ^ 32
  let x := { x with flags := flags, failTotal := x.failTotal + up x.failLow fails, failLow := fails,
                    unchecked := x.unchecked + up x.uncheckedLow unchecked, uncheckedLow := unchecked }
  x.queue { w := w, last := last, since := now, uncertain := bitOf flags 0 }

/-- R175, R409: a WMK arrives. -/
def Fyster.wmkRx (f : Fyster) (p : Port) (t : Tos) : Fyster :=
  if !t.good 3 then f.tosDiscard p
  else
    let b := t.payload
    (f.setWmk p.val ((f.wmkOf p.val).take (fieldAt b 2 1) (fieldAt b 4 4) (fieldAt b 8 8) (fieldAt b 16 4) (fieldAt b 20 4)
      f.ns)).wmkSettle p.val

/-- TOS_WMK_RX. -/
def execTosWmkRx (dt : Nat) (p : Port) (tos : Tos) (s : State) : Host.Outcome State Fault Refusal :=
  .next (onFy dt (fun f => f.wmkRx p tos) s)

/-- R175, R179: a TR_TAINT of the die on port `p` has been received; a serial is listed once, a FINAL rewrites its entry. -/
def Fyster.taintRx (f : Fyster) (p : Nat) (r : Rec) : Fyster :=
  let n := r.fld 672 32
  let x := f.wmkOf p
  if x.holds n then
    if r.fld 192 8 = 2 then (f.taintGroups p r.gslot).foldl (fun f g => f.taintFinalIn g r) (f.hostEntry 1 (wordsBytes r.words))
    else f
  else ((f.setWmk p (x.mark n)).taintAll p r.gslot r).wmkSettle p

/-- R175: the serials that a WMK names and that are not held. -/
def PortWmk.missing (x : PortWmk) (m : WmkWait) : List Nat :=
  ((List.range (m.last - x.lastSerial)).map fun i => x.lastSerial + 1 + i).filter fun n => !x.holds n

/-- R175: TAINT_WAIT_US after the WMK that named them, missing notices are asked for by TAINT_RESEND. -/
def Fyster.taintWait (f : Fyster) (p : Nat) : Fyster :=
  let x := f.wmkOf p
  let wait := 1000 * f.rd 0x4100 1
  if f.nodeCode (p + 1) ≠ 0 then f
  else
    match x.waiting.find? fun m => !(x.missing m).isEmpty with
    | none => f
    | some m =>
      if f.ns < m.since + wait then f
      else
        let due := (x.missing m).filter fun n => match x.resends.find? fun r => r.1 == n with
          | some r => decide (r.2 + wait ≤ f.ns)
          | none => true
        due.foldl (fun f n =>
          let x := f.wmkOf p
          let x := { x with resends := (x.resends.filter fun r => r.1 != n) ++ [(n, f.ns)] }
          (f.setWmk p x).relay p (.resend n) (dictWriteMsg 1 0x2910 0x10 4 (leBytes 4 n))) f

/-- TAINT_WAIT_TIMEOUT. -/
def execTaintWaitTimeout (dt : Nat) (p : Port) (s : State) : Host.Outcome State Fault Refusal :=
  .next (onFy dt (fun f => f.taintWait p.val) s)

/-- R175: the TU's answer to TAINT_RESEND: after a refusal the notice is listed as LOST. -/
def Fyster.resendAnswer (f : Fyster) (p n abort : Nat) : Fyster :=
  let x := f.wmkOf p
  if x.holds n then f
  else if abort = 0 then
    f.setWmk p { x with resends := (x.resends.filter fun r => r.1 != n) ++ [(n, f.ns)] }
  else
    let hi := match x.waiting.find? fun m => decide (n ≤ m.last) with
      | some m => m.w
      | none => x.w
    ((f.setWmk p (x.mark n)).bump 0x4100 2 1).taintAll p 0xFF (f.gapEntry p 5 n x.w hi) |>.wmkSettle p

/-- R175, R179: a write of a taint-list entry has completed. -/
def Fyster.taintDone (f : Fyster) (p g n : Nat) : Fyster :=
  match f.taintWrites.find? fun w => w.g == g && w.port == p && w.serial == n && !w.held with
  | none => f
  | some w => ({ f with taintWrites := f.taintWrites.erase w }).wmkSettle p

/-- TAINT_LIST_WRITE_DONE. -/
def execTaintListWriteDone (dt : Nat) (p : Port) (g : GSlot) (serial : BitVec 32) (s : State) : Host.Outcome State Fault Refusal :=
  .next (onFy dt (fun f => f.taintDone p.val g.val serial.toNat) s)

/-! ### Up and down the roles (R176, R266) -/

/-- A watermark entry (R176). -/
structure WmkEntry where
  w      : Nat
  fails  : Nat
  unchecked : Nat
  taints : Nat
  flags  : Nat
deriving DecidableEq, Repr

/-- The 32 bytes of an entry. -/
def WmkEntry.bytes (e : WmkEntry) : List Byte :=
  leBytes 32 (packNat [(e.w, 64), (e.fails, 64), (e.unchecked, 64), (e.taints, 32), (e.flags, 32)])

/-- An entry from its bytes. -/
def wmkEntry (b : List Byte) : WmkEntry :=
  { w := fieldAt b 0 8, fails := fieldAt b 8 8, unchecked := fieldAt b 16 8, taints := fieldAt b 24 4, flags := fieldAt b 28 4 }

/-- Minimum of W, sums of the totals, and every flag of both. -/
def WmkEntry.join (a b : WmkEntry) : WmkEntry :=
  { w := min a.w b.w, fails := a.fails + b.fails, unchecked := a.unchecked + b.unchecked, taints := a.taints + b.taints,
    flags := Nat.lor a.flags b.flags }

/-- The entries of several children joined. -/
def joinAll : List WmkEntry → WmkEntry
  | [] => { w := 0, fails := 0, unchecked := 0, taints := 0, flags := 0 }
  | e :: r => r.foldl WmkEntry.join e

/-- What a die contributes to a group (R178). -/
def Fyster.dieWmk (f : Fyster) (x : Grp) (p : Nat) : WmkEntry :=
  let m := f.wmkOf p
  { w := max m.w (tget x.joined p 0), fails := m.failTotal, unchecked := m.unchecked, taints := 0, flags := m.flags }

/-- The tray minimum of a group with its totals, and the DIE value that sets it (R176, R189). -/
def Fyster.trayWmk (f : Fyster) (g : Nat) (x : Grp) : WmkEntry × Nat :=
  let es := (f.members x).map fun p => (p, f.dieWmk x p)
  let e := joinAll (es.map (·.2))
  let who := match es.find? fun y => y.2.w == e.w with
    | some y => f.dieOf y.1
    | none => 0
  ({ e with taints := tget f.taintCount g 0 }, who)

/-- R266: the sub-slot of a child that its parent uses: the higher ROLE_EPOCH, then the newer heartbeat; answers its entry,
with STALE once it has not been rewritten for 100 µs, and whether it is stale. -/
def Fyster.childWmk (f : Fyster) (g level i : Nat) : WmkEntry × Bool :=
  let at' (k : Nat) : List Byte := f.ledger (roleArea g level + upOfs i k) 48
  let key (b : List Byte) : Nat := fieldAt b 32 2 * 2 ^ 64 + fieldAt b 40 8
  let b := if key (at' 0) < key (at' 1) then at' 1 else at' 0
  let e := wmkEntry b
  let stale := decide (fieldAt b 40 8 + 100000 < f.ts)
  ({ e with flags := setBit e.flags 4 (stale || bitOf e.flags 4) }, stale)

/-- The joined entries of a role's children, and how many are stale. -/
def Fyster.childrenWmk (f : Fyster) (g : Nat) (x : Grp) (r : Role) : WmkEntry × Nat :=
  let es := (List.range (x.childCount r)).map fun i => f.childWmk g r.level i
  (joinAll (es.map (·.1)), (es.filter (·.2)).length)

/-- R176, R266: a role's entry in its up sub-slot at the parent that it follows. -/
def Fyster.wmkUp (f : Fyster) (g : Nat) (x : Grp) (r : Role) (e : WmkEntry) : Fyster :=
  match x.parentOf r (f.followsStandby g r.level) with
  | none => f
  | some (tray, base) =>
    let tail := packNat [(f.parentEpoch g r.level, 16), (x.state, 8), (0, 40), (f.ts, 64)]
    f.remote tray base (r.upAt g) (e.bytes ++ leBytes 16 tail) 0

/-- R176, R266: GW and the sums in a down sub-slot of every child, holder and standby alike. -/
def Fyster.wmkDown (f : Fyster) (g : Nat) (x : Grp) (r : Role) (e : WmkEntry) : Fyster :=
  let k := b2n r.standby
  let tail := packNat [(r.epoch, 16), (b2n (r.standby && r.holder), 8), (0, 40), (f.ts, 64)]
  let bs := e.bytes ++ leBytes 16 tail
  let ofs := roleArea g (r.level - 1) + downOfs (r.level - 1) k
  (x.childTrays r).foldl (fun f c =>
    let f := f.remote c.1.1 c.1.2 ofs bs 0
    if c.2.1 = c.1.1 then f else f.remote c.2.1 c.2.2 ofs bs 0) f

/-- The entry of the down sub-slot that a role follows. -/
def Fyster.downWmk (f : Fyster) (g level : Nat) : WmkEntry :=
  wmkEntry (f.ledger (roleArea g level + downOfs level (b2n (f.followsStandby g level))) 32)

/-- R189: the objects that show GW and the sums. -/
def Fyster.showGw (f : Fyster) (g : Nat) (e : WmkEntry) : Fyster :=
  (((f.wr (0x4010 + g) 1 e.w).wr (0x4010 + g) 2 e.fails).wr (0x4010 + g) 3 e.unchecked).wr (0x4010 + g) 4 e.taints

/-- R176: GW and TAINT_TOTAL to a member TU in WMKD. -/
def Fyster.wmkd (f : Fyster) (g seq : Nat) (e : WmkEntry) (p : Nat) : Fyster :=
  if (f.link p).st = .up then
    f.emit (.tos (.fysterEnd (finOf 32 p))
      (mkTos 4 (leBytes 20 (packNat [(seq, 16), (g, 8), (e.flags, 8), (e.taints, 32), (e.w, 64), (0, 32)]))))
  else f

/-- R176, R178: an L1 writes its tray's entry and passes GW to its TUs. -/
def Fyster.l1WmkOwn (f : Fyster) (g : Nat) (x : Grp) (r : Role) : Fyster :=
  let e := f.trayWmk g x
  let f := ((f.wr (0x4010 + g) 5 e.1.w).wr (0x4010 + g) 6 e.2).wmkUp g x r e.1
  let d := f.downWmk g 0
  let f := f.setGrp g ({ x with gw := d.w, taintTotal := d.taints }.setRole { r with seq := (r.seq + 1) % 65536 })
  let f := (f.members x).foldl (fun f p => f.wmkd g r.seq d p) (f.showGw g d)
  f.taintRelease g f.taintWrites.length

/-- R285: an L1 standby that has taken over holds W and sets STALE; the totals of the tray are not known to it. -/
def Fyster.l1WmkLost (f : Fyster) (g : Nat) (x : Grp) (r : Role) : Fyster :=
  let d := f.downWmk g 0
  let a := f.free
  let b := a.1.free
  let c := b.1.free
  c.1.wmkUp g x r { w := d.w, fails := a.2.toNat, unchecked := b.2.toNat, taints := c.2.toNat % 2 ^ 32, flags := 16 }

/-- The group acts at this watermark instant (R176, R253). -/
def Fyster.wmkInstant (f : Fyster) (x : Grp) : Bool := f.ts % 4000 == 0 && (x.state == 3 || x.state == 5) && !samplingOnly x.period

/-- R176: an L1 at a watermark instant. -/
def Fyster.l1Wmk (f : Fyster) (g : Nat) : Fyster :=
  match f.grp g with
  | none => f
  | some x =>
    if f.wmkInstant x then
      (x.roles.filter fun r => r.level == 0 && r.holder).foldl (fun f r =>
        if r.standby then f.l1WmkLost g x r else f.l1WmkOwn g ((f.grp g).getD x) r) f
    else f

/-- L1_WMK_TICK. -/
def execL1WmkTick (dt : Nat) (g : GSlot) (s : State) : Host.Outcome State Fault Refusal := .next (onFy dt (fun f => f.l1Wmk g.val) s)

/-- R176: an L2 at a watermark instant: up to the root, and GW down to its L1s. -/
def Fyster.l2Wmk (f : Fyster) (g : Nat) : Fyster :=
  match f.grp g with
  | none => f
  | some x =>
    match x.held 1 with
    | none => f
    | some r =>
      if f.wmkInstant x then
        let e := f.childrenWmk g x r
        ((f.wr (0x4010 + g) 7 e.2).wmkUp g x r e.1).wmkDown g x r (f.downWmk g 1)
      else f

/-- L2_WMK_TICK. -/
def execL2WmkTick (dt : Nat) (g : GSlot) (s : State) : Host.Outcome State Fault Refusal := .next (onFy dt (fun f => f.l2Wmk g.val) s)

/-- R176: the root at a watermark instant. -/
def Fyster.rootWmk (f : Fyster) (g : Nat) : Fyster :=
  match f.grp g with
  | none => f
  | some x =>
    match x.held 2 with
    | none => f
    | some r =>
      if f.wmkInstant x then
        let e := f.childrenWmk g x r
        ((f.wr (0x4010 + g) 7 e.2).showGw g e.1).wmkDown g x r e.1
      else f

/-- ROOT_WMK_TICK. -/
def execRootWmkTick (dt : Nat) (g : GSlot) (s : State) : Host.Outcome State Fault Refusal := .next (onFy dt (fun f => f.rootWmk g.val) s)

/-- R176: a TU receives WMKD: GROUP_WMK, GROUP_TAINTS, and a beat of CP_GWMK per change. -/
def Tu.wmkdRx (t : Tu) (tos : Tos) : Tu :=
  let g := fieldAt tos.payload 2 1
  if !tos.good 4 then t.tosDiscard
  else if 64 ≤ g then t
  else
    let w := fieldAt tos.payload 8 8
    let n := fieldAt tos.payload 4 4
    if t.rd 0x2911 (g + 1) = w ∧ t.rd 0x2912 (g + 1) = n then t
    else ((t.wr 0x2911 (g + 1) w).wr 0x2912 (g + 1) n).emit (.gwmk g w n)

/-- TOS_WMKD_RX. -/
def execTosWmkdRx (dt : Nat) (p : Port) (tos : Tos) (s : State) : Host.Outcome State Fault Refusal :=
  .next (onTu p dt (fun t => t.wmkdRx tos) s)

/-! ### TR_WATERMARK (R177) -/

/-- TR_WATERMARK of Fyster. -/
def Fyster.wmkOwn (f : Fyster) (scope gslot : Nat) (e : WmkEntry) : Fyster :=
  f.own (f.mkRec 0x09 selfStream 520 gslot f.ns (watermarkPay scope e.flags e.w e.fails e.unchecked e.taints))

/-- R177: Fyster's records of scope TRAY and GROUP, one of each per group slot that it holds. -/
def Fyster.wmkRecord (f : Fyster) : Fyster :=
  if f.ts % 1000000 ≠ 0 then f
  else
    (f.red.groups.filter fun e => decide (e.1 < 64) && (e.2.state == 3 || e.2.state == 5)).foldl (fun f e =>
      let g := e.1
      let f := f.wmkOwn 1 g (f.trayWmk g e.2).1
      f.wmkOwn 2 g { w := f.rd (0x4010 + g) 1, fails := f.rd (0x4010 + g) 2, unchecked := f.rd (0x4010 + g) 3,
                     taints := f.rd (0x4010 + g) 4, flags := (f.downWmk g 0).flags }) f

/-- WMK_RECORD_TICK. -/
def execWmkRecordTick (dt : Nat) (n : Node) (s : State) : Host.Outcome State Fault Refusal :=
  .next (onNode n dt (fun _ t => t.wmkRecord) Fyster.wmkRecord s)

end Sys2Proof.Machine
end

