-- ==== Sys2Proof/Machine/Shadow.lean ====
section
/-! DEFINITION. Shadow pairing (R185 to R187). -/

namespace Sys2Proof.Machine

/-- A side that has shown nothing. -/
def ShadowSide.zero : ShadowSide := { blocks := 0, high := 0, bad := false }

/-- A pair whose run has not begun. -/
def shadowPair (cand partner : Nat) (running : Bool) : ShadowPair where
  cand := cand
  partner := partner
  running := running
  waiting := []
  candSide := .zero
  partSide := .zero
  compared := 0
  mismatched := 0
  unpaired := 0
  result := 0

/-- The result object of R188: 32 bytes per pair. -/
def ShadowPair.status (x : ShadowPair) : List Byte :=
  leBytes 8 x.result ++ leBytes 8 x.compared ++ leBytes 8 x.mismatched ++ leBytes 8 x.unpaired

/-- SHADOW_STATUS. -/
def Fyster.shadowStatus (f : Fyster) : List Byte := f.dec.shadows.flatMap fun x => x.2.status

/-- SHADOW_PAIRS as it reads. -/
def Fyster.shadowPairs (f : Fyster) : List Byte := f.dec.shadows.flatMap fun x => leBytes 4 x.2.cand ++ leBytes 4 x.2.partner

/-- Fyster with a pair replaced. -/
def Fyster.setShadow (f : Fyster) (k : Nat) (x : ShadowPair) : Fyster :=
  { f with dec := { f.dec with shadows := tset f.dec.shadows k x } }

/-- The pairs that a value of SHADOW_PAIRS names. -/
def pairsOf : Nat → List Byte → List (Nat × Nat)
  | 0, _ => []
  | n + 1, v => (fieldAt v 0 4, fieldAt v 4 4) :: pairsOf n (v.drop 8)

/-- SHADOW_ENABLE of a die as its TU holds it. -/
def Fyster.shadowOn (f : Fyster) (tus : Tab Tu) (die : Nat) : Bool :=
  match f.portOfDie die with
  | some p => (tget tus p .reset).part.flag 0x2940 1
  | none => false

/-- R185: a write of SHADOW_PAIRS; a pair that stays in its place keeps its state. -/
def Fyster.wrShadowPairs (f : Fyster) (tus : Tab Tu) (v : List Byte) : Fyster × Nat :=
  let ps := pairsOf (v.length / 8) v
  let off (d : Nat) : Bool := (f.portOfDie d).isNone
  let a := lowestAbort [(v.length % 8 != 0, 0x24), (ps.any fun x => off x.1 || off x.2, 0x25), (decide (16 < ps.length), 0x28)]
  if a ≠ 0 then (f, a)
  else
    let mk (e : (Nat × Nat) × Nat) : Nat × ShadowPair :=
      match tfind f.dec.shadows e.2 with
      | some x => if (x.cand, x.partner) = e.1 then (e.2, x) else (e.2, shadowPair e.1.1 e.1.2 (f.shadowOn tus e.1.1))
      | none => (e.2, shadowPair e.1.1 e.1.2 (f.shadowOn tus e.1.1))
    ({ f with dec := { f.dec with shadows := ps.zipIdx.map mk } }, 0)

/-- SHADOW_PAIRS_WRITE. -/
def execShadowPairsWrite (dt : Nat) (lvl : Level) (v : List Byte) (s : State) : Host.Outcome State Fault Refusal :=
  .next (onFy dt (fun f => f.reply lvl 1 (f.wrShadowPairs s.tus v)) s)

/-- The key by which records pair (R187). -/
def shadowKey (r : Rec) : List Nat := [r.fld 320 32, r.fld 256 32, r.fld 240 16, r.fld 288 32, r.fld 208 16, r.fld 224 16]

/-- A finite value or an infinity above zero. -/
def FVal.positive : FVal → Bool
  | .nan => false
  | .inf n => !n
  | .fin n m _ => !n && m != 0

/-- The magnitude of a value. -/
def FVal.mag : FVal → FVal
  | .nan => .nan
  | .inf _ => .inf false
  | .fin _ m e => .fin false m e

/-- R187: |OBS_a - OBS_b| > TAU_a + TAU_b for fold `i`; a fold whose OBS is not finite counts as not checked (log 58). -/
def foldMismatch (a b : Rec) (i : Nat) : Bool :=
  let obs (r : Rec) : FVal := fp32.decode (r.fld (384 + 32 * i) 32)
  let tau (r : Rec) : FVal := bf16.decode (r.fld (896 + 16 * i) 16)
  fp32.isFin (a.fld (384 + 32 * i) 32) && fp32.isFin (b.fld (384 + 32 * i) 32) &&
    (((obs a).add (obs b).neg).mag.add ((tau a).add (tau b)).neg).positive

/-- R187: the blocks of two records mismatch. -/
def shadowMismatch (a b : Rec) : Bool := (List.range 16).any (foldMismatch a b)

/-- 2^-4 as FP32. -/
def f32Sixteenth : Nat := 0x3D800000

/-- A side after one more block. -/
def ShadowSide.block (x : ShadowSide) (r : Rec) : ShadowSide :=
  { x with blocks := x.blocks + 1, high := x.high + b2n (fp32.le f32Sixteenth (r.fld 352 32)) }

/-- R187: a SHADOW record meets its partner, or waits for it. -/
def ShadowPair.take (x : ShadowPair) (cand : Bool) (r : Rec) (now : Nat) : ShadowPair :=
  let x := if cand then { x with candSide := x.candSide.block r } else { x with partSide := x.partSide.block r }
  match x.waiting.find? fun w => w.cand != cand && shadowKey w.r == shadowKey r with
  | some w =>
    { x with waiting := x.waiting.erase w, compared := x.compared + 1, mismatched := x.mismatched + b2n (shadowMismatch w.r r) }
  | none => { x with waiting := x.waiting ++ [({ cand := cand, r := r, since := now } : ShadowRec)] }

/-- R187: what a record of the die on port `p` means to the pairs: SHADOW records pair, and a FAIL or SUSPECT counts against
its die. -/
def Fyster.shadowRx (f : Fyster) (p : Nat) (r : Rec) : Fyster :=
  let shadow := r.type == 0x07 && r.fld 192 8 == 5
  let bad := r.type == 0x07 && r.fld 192 8 == 1 || r.type == 0x08 && (r.fld 192 8 == 1 || r.fld 192 8 == 3)
  if !shadow && !bad then f
  else
    let die := f.dieOf p
    let one (x : ShadowPair) : ShadowPair :=
      let c := dieMatch x.cand die
      let q := dieMatch x.partner die
      if !x.running || !(c || q) then x
      else if shadow then x.take c r f.ns
      else if c then { x with candSide := { x.candSide with bad := true } }
      else { x with partSide := { x.partSide with bad := true } }
    { f with dec := { f.dec with shadows := f.dec.shadows.map fun x => (x.1, one x.2) } }

/-- R187: records of a pair whose partner has not arrived within 10 ms. -/
def Fyster.shadowUnpaired (f : Fyster) (k : Nat) : Fyster :=
  match tfind f.dec.shadows k with
  | none => f
  | some x =>
    let late (w : ShadowRec) : Bool := decide (w.since + 10000000 ≤ f.ns)
    f.setShadow k { x with waiting := x.waiting.filter fun w => !late w, unpaired := x.unpaired + (x.waiting.filter late).length }

/-- SHADOW_PAIR_TIMEOUT. -/
def execShadowPairTimeout (dt : Nat) (pair : Fin 16) (s : State) : Host.Outcome State Fault Refusal :=
  .next (onFy dt (fun f => f.shadowUnpaired pair.val) s)

/-- R187: the candidate's fraction of high blocks lies above SHADOW_MAX_RATIO times the partner's fraction plus 10^-6; a side
without blocks has fraction 0. -/
def ratioHigh (c p : ShadowSide) (ratio : Nat) : Bool :=
  let cn := max c.blocks 1
  let pn := max p.blocks 1
  match fp32.decode ratio with
  | .fin _ m e =>
    let num := m * 2 ^ e.toNat
    let den := 2 ^ (-e).toNat
    decide (cn * (num * p.high * 1000000 + den * pn) < c.high * pn * den * 1000000)
  | _ => false

/-- R187: the result of a run. -/
def Fyster.shadowResult (f : Fyster) (x : ShadowPair) : Nat :=
  if x.partSide.bad then 3
  else if x.compared < f.rd 0x4200 2 ∨ f.rd 0x4200 5 * x.candSide.blocks < x.unpaired * 1000000 then 4
  else if x.candSide.bad || decide (0 < x.mismatched) || ratioHigh x.candSide x.partSide (f.rd 0x4200 3) then 2
  else 1

/-- R187: SHADOW_ENABLE has fallen on the candidate of pair `k`: the run is decided and announced. -/
def Fyster.shadowDecide (f : Fyster) (k : Nat) (x : ShadowPair) : Fyster :=
  let n := f.shadowResult x
  let f := f.setShadow k { x with running := false, result := n, waiting := [] }
  (f.notify { notice 6 x.cand 0xFF f.ns with detail32 := n, detail64 := x.partner }).1

/-- R185, R187: SHADOW_ENABLE of the die on port `p` has changed. -/
def Fyster.shadowEdge (f : Fyster) (p : Nat) (on : Bool) : Fyster :=
  let die := f.dieOf p
  (f.dec.shadows.filter fun x => dieMatch x.2.cand die && x.2.running != on).foldl (fun f x =>
    if on then f.setShadow x.1 (shadowPair x.2.cand x.2.partner true) else f.shadowDecide x.1 x.2) f

/-- The state after a command on the TU of port `p`, with what a change of its SHADOW_ENABLE means to Fyster. -/
def shadowWatch (p : Port) (s t : State) : State :=
  let on (x : State) : Bool := (x.tu p).part.flag 0x2940 1
  if on s == on t then t else { t with fy := t.fy.shadowEdge p.val (on t) }

/-- SHADOW_ENABLE_WRITE. -/
def execShadowEnableWrite (dt : Nat) (p : Port) (lvl : Level) (v : Byte) (s : State) : Host.Outcome State Fault Refusal :=
  .next (shadowWatch p s (onTu p dt (fun t => t.reply lvl 1 (t.wrShadowEnable v.toNat)) s))

end Sys2Proof.Machine
end

