-- ==== Sys2Proof/Machine/JuniperOps.lean ====
section
/-! DEFINITION. Juniper's model images, front stage and lanes (R290 to R302). -/

namespace Sys2Proof.Machine

/-! ### The model image (R297 to R300) -/

/-- NCLASS. -/
def mClasses (b : List Byte) : Nat := fieldAt b 5 1 % 16

/-- OUT_MODE. -/
def mMode (b : List Byte) : Nat := fieldAt b 5 1 / 16

/-- DIE_ROWS. -/
def mDieRows (b : List Byte) : Bool := bitOf (fieldAt b 6 1) 0

/-- TILE_ROWS. -/
def mTileRows (b : List Byte) : Bool := bitOf (fieldAt b 6 1) 1

/-- MODEL_ID. -/
def mId (b : List Byte) : Nat := fieldAt b 8 4

/-- NRAW. -/
def mRaw (b : List Byte) : Nat := fieldAt b 12 2

/-- NFEAT. -/
def mFeat (b : List Byte) : Nat := fieldAt b 14 2

/-- NTREE. -/
def mTree (b : List Byte) : Nat := fieldAt b 16 2

/-- IMAGE_LEN. -/
def mLen (b : List Byte) : Nat := fieldAt b 20 4

/-- OFS_RAW, OFS_FEAT, OFS_EDGE and OFS_TREE. -/
def mOfs (b : List Byte) (k : Nat) : Nat := fieldAt b (24 + 4 * k) 4

/-- BASE of a class. -/
def mBase (b : List Byte) (c : Nat) : Nat := fieldAt b (40 + 4 * c) 4

/-- LEAF_SCALE of a class. -/
def mScale (b : List Byte) (c : Nat) : Nat := fieldAt b (72 + 4 * c) 4

/-- A raw-input descriptor (R298). -/
structure RawIn where
  src   : Nat
  xform : Nat
  staleMissing : Bool
  tileFromDie  : Bool
  sel   : Nat
  mul   : Nat
  add   : Nat
deriving DecidableEq, Repr

/-- Raw-input descriptor `i`. -/
def mRawIn (b : List Byte) (i : Nat) : RawIn :=
  let o := mOfs b 0 + 16 * i
  { src := fieldAt b o 1, xform := fieldAt b (o + 1) 1, staleMissing := bitOf (fieldAt b (o + 2) 1) 0,
    tileFromDie := bitOf (fieldAt b (o + 2) 1) 1, sel := fieldAt b (o + 4) 2, mul := fieldAt b (o + 8) 4, add := fieldAt b (o + 12) 4 }

/-- A feature descriptor (R299) with its edges. -/
structure Feat where
  op    : Nat
  substValid : Bool
  nedge : Nat
  subst : Nat
  a     : Nat
  b     : Nat
  ofs   : Nat
  edges : List Nat
deriving DecidableEq, Repr

/-- Feature descriptor `i`. -/
def mFeature (b : List Byte) (i : Nat) : Feat :=
  let o := mOfs b 1 + 16 * i
  let n := fieldAt b (o + 2) 1
  let e := fieldAt b (o + 8) 4
  { op := fieldAt b o 1, substValid := bitOf (fieldAt b (o + 1) 1) 0, nedge := n, subst := fieldAt b (o + 3) 1, a := fieldAt b (o + 4) 2,
    b := fieldAt b (o + 6) 2, ofs := e, edges := (List.range n).map fun j => fieldAt b (mOfs b 2 + e + 4 * j) 4 }

/-- NBIN of a feature (R293). -/
def Feat.bins (f : Feat) : Nat := if f.op = 8 then 2 else f.nedge + 1

/-- DEPTH of tree `t`. -/
def tDepth (b : List Byte) (t : Nat) : Nat := fieldAt b (mOfs b 3 + 1536 * t) 1 % 16

/-- CLASS of tree `t`. -/
def tClass (b : List Byte) (t : Nat) : Nat := fieldAt b (mOfs b 3 + 1536 * t) 1 / 16 % 8

/-- FEATURE and THR of node `n` of tree `t`. -/
def tNode (b : List Byte) (t n : Nat) : Nat × Nat :=
  let v := fieldAt b (mOfs b 3 + 1536 * t + 4 + 4 * n) 4
  (bitsOf v 0 10, bitsOf v 10 8)

/-- Leaf `j` of tree `t`. -/
def tLeaf (b : List Byte) (t j : Nat) : Int := toInt 16 (fieldAt b (mOfs b 3 + 1536 * t + 1024 + 2 * j) 2)

/-! ### The check of an image (R302) -/

/-- The first code whose condition holds. -/
def firstCode (l : List (Bool × Nat)) : Nat :=
  match l.find? (·.1) with
  | some c => c.2
  | none => 0

/-- The first fault of indexed parts: code + index × 65,536. -/
def firstFault (n : Nat) (code : Nat → Nat) : Nat :=
  match (List.range n).find? fun i => code i != 0 with
  | some i => code i + i * 65536
  | none => 0

/-- Extents of the tables of an image: offset and bytes; the edge area reaches to the next table or the end of the image. -/
def mExtents (b : List Byte) : List (Nat × Nat) :=
  let tables := [(mOfs b 0, 16 * mRaw b), (mOfs b 1, 16 * mFeat b), (mOfs b 3, 1536 * mTree b)]
  let later := (tables.map (·.1)).filter fun o => decide (mOfs b 2 < o)
  (mOfs b 2, later.foldl min (mLen b) - mOfs b 2) :: tables

/-- Two extents share a byte. -/
def overlap (a b : Nat × Nat) : Bool := decide (a.1 < b.1 + b.2) && decide (b.1 < a.1 + a.2)

/-- Some pair of extents overlaps. -/
def overlaps : List (Nat × Nat) → Bool
  | [] => false
  | a :: r => r.any (overlap a) || overlaps r

/-- R302: OFFSETS. -/
def mOfsBad (b : List Byte) : Bool :=
  let es := mExtents b
  es.any (fun e => e.1 % 16 != 0 || decide (e.1 < 256) || decide (mLen b < e.1 + e.2)) || overlaps es

/-- R302: the header's error. -/
def headFault (b : List Byte) : Nat :=
  let fin (x : Nat) : Bool := fp32.isFin x
  firstCode [
    (fieldAt b 0 4 != 0x4A554E50, 1), (fieldAt b 4 1 != 1, 2), (mLen b != b.length || decide (8388608 < mLen b), 3),
    (mClasses b == 0 || decide (8 < mClasses b) || mRaw b == 0 || decide (512 < mRaw b) || mFeat b == 0 || decide (1024 < mFeat b) ||
      mTree b == 0 || decide (4096 < mTree b), 4),
    (mOfsBad b, 5), (decide (2 < mMode b) || (!mDieRows b && !mTileRows b), 6),
    ((List.range (mClasses b)).any fun c => !fin (mBase b c) || !fin (mScale b c), 9)]

/-- SRC and SEL that R290 lists. -/
def rawListed (r : RawIn) : Bool :=
  match r.src with
  | 1 | 2 | 3 | 4 | 5 => decide (r.sel ≤ 4095)
  | 6 => decide (r.sel ≤ 5)
  | 7 => decide (r.sel ≤ 2)
  | 8 | 9 | 10 => r.sel == 0
  | _ => false

/-- R302: the error of a raw input. -/
def rawFault (r : RawIn) : Nat :=
  firstCode [(!rawListed r, 7), (decide (4 < r.xform), 8), (!fp32.isFin r.mul || !fp32.isFin r.add, 9)]

/-- Strictly increasing edges. -/
def rising : List Nat → Bool
  | [] => true
  | [_] => true
  | a :: b :: r => fp32.lt a b && rising (b :: r)

/-- R302: the error of feature `i`. -/
def featFault (b : List Byte) (i : Nat) : Nat :=
  let f := mFeature b i
  let area := ((mExtents b).head?.map (·.2)).getD 0
  let bad (x : Nat) : Bool := if x < 512 then decide (mRaw b ≤ x) else decide (i ≤ x - 512)
  let two := f.op != 0 && f.op != 8
  firstCode [
    (decide (8 < f.op), 0x0A), (bad f.a || (two && bad f.b), 0x0B),
    (f.edges.any (fun e => !fp32.isFin e) || !rising f.edges || decide (area < f.ofs + 4 * f.nedge) || f.ofs % 4 != 0 ||
      (f.op == 8 && f.nedge != 0), 0x0C),
    (decide (f.nedge < f.subst) || (f.op == 8 && f.substValid), 0x0D)]

/-- R302: the error of tree `t`; `bins`: NBIN of every feature. -/
def treeFault (b : List Byte) (bins : List Nat) (t : Nat) : Nat :=
  let d := tDepth b t
  let nodes := (List.range (2 ^ d - 1)).map (tNode b t)
  if d = 0 ∨ 8 < d then 0x0E
  else
    firstCode [(decide (mClasses b ≤ tClass b t), 0x0F), (nodes.any fun n => decide (bins.length ≤ n.1), 0x10),
      (nodes.any fun n => n.2 == 0 || decide (bins.getD n.1 0 ≤ n.2), 0x11)]

/-- SLOT_ERROR of an image (R302): header, raw inputs, features and trees in this order. -/
def imageFault (b : List Byte) : Nat :=
  let h := headFault b
  if h ≠ 0 then h
  else
    let r := firstFault (mRaw b) fun i => rawFault (mRawIn b i)
    if r ≠ 0 then r
    else
      let f := firstFault (mFeat b) (featFault b)
      if f ≠ 0 then f
      else firstFault (mTree b) (treeFault b ((List.range (mFeat b)).map fun i => (mFeature b i).bins))

/-! ### Front stage (R290 to R294) -/

/-- 1.0 as FP32. -/
def f32One : Nat := 0x3F800000

/-- log2 of a pattern of FP64 (R291): exact for powers of two; others as the engine gives it (log 8). -/
def log2Of (x : Nat) : Nat :=
  match fp64.decode x with
  | .nan => fp64.qnan
  | .inf neg => if neg then fp64.qnan else fp64.infBits false
  | .fin neg m e =>
    if m = 0 then fp64.infBits true
    else if neg then fp64.qnan
    else if m = 2 ^ Nat.log2 m then fp64.ofInt (e + Nat.log2 m)
    else Config.log2 x

/-- R291: the transforms. -/
def transform (code x : Nat) : Nat :=
  if fp64.isNan x then fp64.qnan
  else
    match code with
    | 1 => log2Of x
    | 2 => fp64.abs x
    | 3 =>
      let y := log2Of (fp64.add f64One (fp64.abs x))
      if fp64.sign x then fp64.negate y else y
    | 4 => fp64.div f64One x
    | _ => x

/-- R290: y = MUL × T(x) + ADD in FP64, rounded to FP32. -/
def RawIn.value (r : RawIn) (x : Nat) : Nat :=
  conv fp64 fp32 .even (fp64.add (fp64.mul (conv fp32 fp64 .even r.mul) (transform r.xform x)) (conv fp32 fp64 .even r.add))

/-- R292: one operation on FP32 patterns. -/
def featOp (op a b : Nat) : Nat :=
  let nan := fp32.isNan a || fp32.isNan b
  match op with
  | 0 => a
  | 1 => fp32.add a b
  | 2 => fp32.sub a b
  | 3 => fp32.mul a b
  | 4 => fp32.div a b
  | 5 => if nan then fp32.qnan else if fp32.lt b a then b else a
  | 6 => if nan then fp32.qnan else if fp32.lt a b then b else a
  | 7 => fp32.abs (fp32.sub a b)
  | _ => if fp32.isNan a then f32One else 0

/-- R292: the unbinned values of features `i` to `i + n - 1`; `vs`: those before. -/
def featValues (b : List Byte) (raws : List Nat) : Nat → Nat → List Nat → List Nat
  | 0, _, vs => vs
  | n + 1, i, vs =>
    let f := mFeature b i
    let arg (x : Nat) : Nat := if x < 512 then raws.getD x fp32.qnan else vs.getD (x - 512) fp32.qnan
    featValues b raws n (i + 1) (vs ++ [featOp f.op (arg f.a) (arg f.b)])

/-- R293: the bin of a value that is no NaN. -/
def Feat.bin (f : Feat) (v : Nat) : Nat :=
  if f.op = 8 then b2n (v == f32One) else (f.edges.filter fun e => fp32.le e v).length

/-- R294: the bins of the features and how many were substituted, or the feature that rejects the row. -/
def binRow : List (Feat × Nat) → Nat → List Nat × Nat × Option Nat
  | [], _ => ([], 0, none)
  | (f, v) :: r, i =>
    if fp32.isNan v ∧ f.op ≠ 8 then
      if f.substValid then
        let x := binRow r (i + 1)
        (f.subst :: x.1, x.2.1 + 1, x.2.2)
      else ([], 0, some i)
    else
      let x := binRow r (i + 1)
      (f.bin v :: x.1, x.2)

/-! ### Lanes (R295, R296) -/

/-- R295: the walk through the comparison vector: `k` steps from node `i`. -/
def walk (c : Nat → Nat) : Nat → Nat → Nat
  | 0, i => i
  | k + 1, i => walk c k (2 * i + 1 + c i)

/-- R295: the leaf that a tree gives. -/
def evalTree (b : List Byte) (t : Nat) (bins : List Nat) : Int :=
  let d := tDepth b t
  let c (n : Nat) : Nat := b2n (decide ((tNode b t n).2 ≤ bins.getD (tNode b t n).1 0))
  tLeaf b t (walk c d 0 - (2 ^ d - 1))

/-- R296: the exact sum of a class. -/
def classSum (b : List Byte) (bins : List Nat) (c : Nat) : Int :=
  (List.range (mTree b)).foldl (fun s t => if tClass b t = c then s + evalTree b t bins else s) 0

/-- R296: raw of a class: BASE + LEAF_SCALE × sum in FP64, rounded to FP32. -/
def classRaw (b : List Byte) (bins : List Nat) (c : Nat) : Nat :=
  let f (x : Nat) : Nat := conv fp32 fp64 .even x
  conv fp64 fp32 .even (fp64.add (f (mBase b c)) (fp64.mul (f (mScale b c)) (fp64.ofInt (classSum b bins c))))

/-- R296: the outputs of the classes. -/
def classOut (b : List Byte) (bins : List Nat) : List Nat :=
  let raws := (List.range (mClasses b)).map (classRaw b bins)
  match mMode b with
  | 1 => raws.map Config.logistic
  | 2 => (List.range raws.length).map fun c => Config.softmax c raws
  | _ => raws

/-- R296: the class with the largest output, the lower on a tie. -/
def topClass (out : List Nat) : Nat :=
  (out.zipIdx.foldl (fun (m : Option (Nat × Nat)) x =>
    match m with
    | none => some x
    | some y => if fp32.lt y.1 x.1 then some x else m) none).elim 0 (·.2)

/-- What scoring one row gives: outputs and substitutions, or the rejecting feature (R294, R296). -/
inductive RowResult where
  | scored (out : List Nat) (nsubst : Nat)
  | rejected (feature : Nat)
deriving DecidableEq, Repr

/-- R292 to R296: a row of transformed raw inputs through a model. -/
def scoreRow (b : List Byte) (raws : List Nat) : RowResult :=
  let fs := (List.range (mFeat b)).map (mFeature b)
  let x := binRow (fs.zip (featValues b raws (mFeat b) 0 [])) 0
  match x.2.2 with
  | some i => .rejected i
  | none => .scored (classOut b x.1) x.2.1

/-! ### Engine time (R306) -/

/-- T_front in ns. -/
def tFront (b : List Byte) : Ratio := { num := 48640 + 304 * mRaw b + 40 * mFeat b, den := 1216 }

/-- T_lanes in ns with `l` lanes. -/
def tLanes (b : List Byte) (l : Nat) : Ratio := { num := 100 * mTree b, den := 95 * l }

/-- a ≤ b. -/
def Ratio.leR (a b : Ratio) : Bool := decide (a.num * b.den ≤ b.num * a.den)

/-- t_row. -/
def tRow (b : List Byte) (l : Nat) : Ratio := if (tFront b).leR (tLanes b l) then tLanes b l else tFront b

/-- min(T_front, T_lanes). -/
def tLow (b : List Byte) (l : Nat) : Ratio := if (tFront b).leR (tLanes b l) then tFront b else tLanes b l

/-- T_inst for `n` rows. -/
def tInst (b : List Byte) (l n : Nat) : Ratio := Ratio.add { num := n * (tRow b l).num, den := (tRow b l).den } (tLow b l)

end Sys2Proof.Machine
end

