-- ==== Sys2Proof/Machine/Juniper.lean ====
section
/-! DEFINITION. Juniper's slots, bindings, rows and runs (R288 to R289, R301 to R316). -/

namespace Sys2Proof.Machine

/-! ### Slots (R301 to R303) -/

/-- An empty slot. -/
def MSlot.zero : MSlot := { state := 0, image := [], error := 0, fetch := false, fed := false }

/-- A model slot. -/
def Fyster.mslot (f : Fyster) (s : Nat) : MSlot := tget f.jun.slots s .zero

/-- Fyster with a model slot replaced. -/
def Fyster.setMslot (f : Fyster) (s : Nat) (x : MSlot) : Fyster := { f with jun := { f.jun with slots := tset f.jun.slots s x } }

/-- A group without a model. -/
def Bind.zero : Bind := { slot := 0xFF, serial := 0, eff := 0, old := none, shareNum := 0, shareDen := 1 }

/-- The model binding of a group. -/
def Fyster.bind (f : Fyster) (g : Nat) : Bind := tget f.jun.binds g .zero

/-- Fyster with a binding replaced. -/
def Fyster.setBind (f : Fyster) (g : Nat) (x : Bind) : Fyster := { f with jun := { f.jun with binds := tset f.jun.binds g x } }

/-- SLOT of a MODEL_ORDER (R304). -/
def moSlot (v : List Byte) : Nat := fieldAt v 16 1

/-- SERIAL of a MODEL_ORDER. -/
def moSerial (v : List Byte) : Nat := fieldAt v 12 4

/-- Groups that use a slot or have an order pending for it (R317). -/
def Fyster.slotGroups (f : Fyster) (s : Nat) : List Nat :=
  (List.range 64).filter fun g =>
    let b := f.bind g
    b.slot == s || b.old.any (·.1 == s) || (f.part.order? .model g).any (fun o => moSlot o.data == s) ||
      f.jun.rows.any fun r => r.gslot == g && r.mslot == s

/-- R301, R312: a slot is BOUND. -/
def Fyster.slotBound (f : Fyster) (s : Nat) : Bool :=
  !(f.slotGroups s).isEmpty || ((f.jun.batch.state == 1 || f.jun.batch.state == 2) && fieldAt f.jun.batch.spec 0 1 == s)

/-- SLOT_STATE (R301). -/
def Fyster.slotState (f : Fyster) (s : Nat) : Nat := if (f.mslot s).state = 2 ∧ f.slotBound s = true then 4 else (f.mslot s).state

/-- SLOT_INFO (R317). -/
def Fyster.slotInfo (f : Fyster) (s : Nat) : List Byte :=
  let b := (f.mslot s).image
  if (f.mslot s).state ≠ 2 then []
  else
    leBytes 20 (packNat [(mClasses b, 8), (mMode b, 8), (b2n (mDieRows b), 1), (b2n (mTileRows b), 1), (0, 14), (mRaw b, 16),
      (mFeat b, 16), (mTree b, 16), (0, 16), (mLen b, 32)])

/-- R301, R78: the bytes of a staged image pass its digest unit unless it is PAUSED. -/
def Fyster.stageFeed (f : Fyster) (s : Nat) : Fyster :=
  let x := f.mslot s
  let u := f.part.crcUnit (0x4420 + s)
  if x.state ≠ 1 ∨ x.fed = true ∨ u.paused = true then f
  else
    let u := ({ u with enable := true }.init).feed x.image
    ({ f with part := { f.part with crc := tset f.part.crc (0x4420 + s) u } }).setMslot s { x with fed := true }

/-- R301: a slot takes staging bytes. -/
def Fyster.stage (f : Fyster) (s : Nat) (bytes : List Byte) (fetch : Bool) : Fyster :=
  (f.setMslot s { state := 1, image := bytes, error := 0, fetch := fetch, fed := false }).stageFeed s

/-- R301: a staging write is refused while the slot is STAGING or BOUND, or for a length above 8 MiB. -/
def Fyster.stageCode (f : Fyster) (s len : Nat) : Nat :=
  lowestAbort [(f.slotState s == 1 || f.slotState s == 4, 0x27), (decide (8388608 < len), 0x25)]

/-- R301: a DOMAIN write of MODEL_IMAGE. -/
def Fyster.wrModelImage (f : Fyster) (s : Nat) (v : List Byte) : Fyster × Nat :=
  if f.stageCode s v.length ≠ 0 then (f, f.stageCode s v.length) else (f.stage s v false, 0)

/-- MODEL_IMAGE. -/
def execModelImage (dt : Nat) (lvl : Level) (slot : Fin 3) (v : List Byte) (s : State) : Host.Outcome State Fault Refusal :=
  .next (onFy dt (fun f => f.reply lvl 1 (f.wrModelImage slot.val v)) s)

/-- R301: a write of STAGE_FROM; `fetched`: what stands at the address. -/
def Fyster.wrStageFrom (f : Fyster) (s : Nat) (v fetched : List Byte) : Fyster × Nat :=
  let len := fieldAt v 8 4
  let space := fieldAt v 12 1
  let a := lowestAbort [(v.length != 16, 0x24), (space != 1 && space != 2, 0x26), (f.stageCode s len != 0, f.stageCode s len)]
  if a ≠ 0 then (f, a) else (f.stage s (fetched.take len) true, 0)

/-- STAGE_FROM. -/
def execStageFrom (dt : Nat) (lvl : Level) (slot : Fin 3) (v fetched : List Byte) (s : State) : Host.Outcome State Fault Refusal :=
  .next (onFy dt (fun f => f.reply lvl 1 (f.wrStageFrom slot.val v fetched)) s)

/-- R301: a fetch met an error answer. -/
def Fyster.stageError (f : Fyster) (s : Nat) : Fyster :=
  let x := f.mslot s
  if x.state = 1 ∧ x.fetch = true then f.setMslot s { x with state := 3, error := 0x12 } else f

/-- STAGE_FETCH_ERROR. -/
def execStageFetchError (dt : Nat) (slot : Fin 3) (s : State) : Host.Outcome State Fault Refusal :=
  .next (onFy dt (fun f => f.stageError slot.val) s)

/-- R302: Juniper has checked a staged image. -/
def Fyster.modelChecked (f : Fyster) (s : Nat) : Fyster :=
  let x := f.mslot s
  if x.state ≠ 1 ∨ x.fed = false then f
  else
    let e := imageFault x.image
    f.setMslot s { x with state := if e = 0 then 2 else 3, error := e }

/-- MODEL_CHECK_DONE. -/
def execModelCheckDone (dt : Nat) (slot : Fin 3) (s : State) : Host.Outcome State Fault Refusal :=
  .next (onFy dt (fun f => f.modelChecked slot.val) s)

/-! ### Binding (R304, R305, R308, R309) -/

/-- Lanes in service: L (R306, R310). -/
def Fyster.lanes (f : Fyster) : Nat := popCount 64 (f.rd 0x4400 1)

/-- rows_max (R308). -/
def rowsMax (b : List Byte) (members : Nat) : Nat := members * (b2n (mDieRows b) + 72 * b2n (mTileRows b))

/-- U of a model for a group at a period (R308). -/
def shareOf (b : List Byte) (members period : Nat) : Ratio :=
  let t := tInst b 64 (rowsMax b members)
  { num := t.num, den := t.den * period }

/-- The shares admitted, without that of group `g`. -/
def Fyster.otherShares (f : Fyster) (g : Nat) : Ratio :=
  ratioSum ((f.jun.binds.filter fun e => e.1 != g).map fun e => { num := e.2.shareNum, den := e.2.shareDen })

/-- A ratio in parts per million, rounded down. -/
def Ratio.ppm (r : Ratio) : Nat := r.num * 1000000 / r.den

/-- UTIL_ADMITTED_PPM (R309). -/
def Fyster.utilPpm (f : Fyster) : Nat := (f.otherShares 64).ppm

/-- ADMITTED_PPM (R317). -/
def Fyster.admittedPpm (f : Fyster) (g : Nat) : Nat := Ratio.ppm { num := (f.bind g).shareNum, den := (f.bind g).shareDen }

/-- PERIOD and PHASE of a group's grid in force at `e`. -/
def Grp.gridAt (x : Grp) (e : Nat) : Nat × Nat :=
  match x.next with
  | some d => if dKind d = 1 ∧ dEff d ≤ e then (dPeriod d, dPhase d) else (x.period, x.phase)
  | none => (x.period, x.phase)

/-- The digest of a slot names its whole image (R303, R304). -/
def Fyster.digestOk (f : Fyster) (s digest : Nat) : Bool :=
  let u := f.part.crcUnit (0x4420 + s)
  (u.value ^^^ 0xFFFFFFFF).toNat == digest && u.length == mLen (f.mslot s).image

/-- R304: the metric table has a metric of a scope. -/
def Grp.hasScope (x : Grp) (tile : Bool) : Bool := (dMetricList x.desc).any fun m => m.tile == tile

/-- U that an order would take (R308); an unbind takes none. -/
def Fyster.orderShare (f : Fyster) (x : Grp) (v : List Byte) : Ratio :=
  if moSlot v = 0xFF then { num := 0, den := 1 }
  else shareOf (f.mslot (moSlot v)).image (f.members x).length (max (x.gridAt (time96 v 0)).1 1)

/-- R304, R309: why an order is refused; 0 for none. -/
def Fyster.modelOrderCode (f : Fyster) (g : Nat) (v : List Byte) : Nat :=
  let e := time96 v 0
  let s := moSlot v
  match f.grp g with
  | none => lowestAbort [(v.length != 24, 0x24), (true, 0x27)]
  | some x =>
    let grid := x.gridAt e
    let img := (f.mslot s).image
    let bound := decide (s ≤ 2)
    let u := f.orderShare x v
    let all := (f.otherShares g).add u
    lowestAbort [(v.length != 24, 0x24), (!(x.state == 1 || x.state == 2 || x.state == 3), 0x27), (!bound && s != 0xFF, 0x25),
      (decide (1000000000 ≤ fieldAt v 8 4), 0x25), (!onGrid grid.1 grid.2 e, 0x29),
      (bound && (f.mslot s).state != 2, 0x27), (bound && !f.digestOk s (fieldAt v 20 4), 0x2C),
      (bound && ((mDieRows img && !x.hasScope false) || (mTileRows img && !x.hasScope true)), 0x27),
      (bound && !(u.le 1 1 && all.le (f.rd 0x4400 5) 100), 0x28)]

/-- R304: a write of MODEL_ORDER. -/
def Fyster.wrModelOrder (f : Fyster) (g : Nat) (v : List Byte) : Fyster × Nat :=
  match f.part.orderAnswer .model g (moSerial v) with
  | .held => if v.length = 24 then (f, 0) else (f, 0x24)
  | a =>
    let c := f.modelOrderCode g v
    let ca := match a with
      | .refused x => x
      | _ => 0
    let code := lowestAbort [(c != 0, c), (ca != 0, ca)]
    match f.grp g with
    | some x =>
      if code ≠ 0 then (f, code)
      else
        let e := time96 v 0
        let u := f.orderShare x v
        let o : Order := { kind := .model, target := g, serial := moSerial v, eff := e, late := decide (e < f.ns), data := v }
        let f := { f with part := f.part.putOrder o }
        (f.setBind g { f.bind g with shareNum := u.num, shareDen := u.den }, 0)
    | none => (f, code)

/-- MODEL_ORDER. -/
def execModelOrder (dt : Nat) (lvl : Level) (g : GSlot) (v : List Byte) (s : State) : Host.Outcome State Fault Refusal :=
  .next (onFy dt (fun f => f.reply lvl 1 (f.wrModelOrder g.val v)) s)

/-- R305, R380: at E, or at late arrival, the new binding is in force and the change is logged. -/
def Fyster.modelTake (f : Fyster) (g : Nat) : Fyster :=
  match f.part.order? .model g with
  | none => f
  | some o =>
    if o.eff ≤ f.ns ∧ f.part.turn .model o.eff = true then
      let b := f.bind g
      let n := moSlot o.data
      let f := { f with part := f.part.dropOrder .model g }
      let f := f.setBind g { b with slot := n, serial := o.serial, eff := o.eff, old := some (b.slot, b.serial) }
      let f := (((f.wr (0x4430 + g) 6 0).wr (0x4430 + g) 7 0).wr (0x4430 + g) 8 0).wr (0x4430 + g) 9 0
      f.log { event 0x0021 516 (b.slot * 65536 + g * 256 + n) o.serial with
        late := o.late, gslot := g, noMerge := true, first := some (ts64Of o.eff) }
    else f

/-- MODEL_SWAP. -/
def execModelSwap (dt : Nat) (g : GSlot) (s : State) : Host.Outcome State Fault Refusal :=
  .next (onFy dt (fun f => f.modelTake g.val) s)

/-- R305: slot and serial of a binding for an instant: those before it for an instant before E. -/
def Bind.at' (b : Bind) (inst : Nat) : Nat × Nat :=
  match b.old with
  | some o => if inst < ts64Of b.eff then o else (b.slot, b.serial)
  | none => (b.slot, b.serial)

/-- R305: slot and serial whose rows an instant has; slot 0xFF for none. -/
def Fyster.modelAt (f : Fyster) (g inst : Nat) : Nat × Nat :=
  let b := f.bind g
  match f.part.order? .model g with
  | some o => if ts64Of o.eff ≤ inst then (moSlot o.data, o.serial) else b.at' inst
  | none => b.at' inst

/-! ### Building rows (R288 to R290) -/

/-- A value as the sources give it: FP64. -/
abbrev F64 := Nat

/-- A NaN for a value that a source cannot give. -/
def noValue : F64 := fp64.qnan

/-- The context that a METRIC source reads for a row: none if its scope does not fit (R290). -/
def Fyster.rowCtx (f : Fyster) (k p tile : Nat) (m : Metric) (r : RawIn) : Option Ctx :=
  if tile = 255 then (if m.tile then none else some (f.ctx (ctxKey k m.id p 255)))
  else if m.tile then some (f.ctx (ctxKey k m.id p tile))
  else if r.tileFromDie then some (f.ctx (ctxKey k m.id p 255))
  else none

/-- R290: a METRIC source. -/
def metricValue (r : RawIn) (c : Ctx) (inst period : Nat) : F64 :=
  match r.src with
  | 1 => if c.kind = .value ∧ c.inst = inst then c.value else noValue
  | 2 =>
    if c.stale && r.staleMissing then noValue
    else
      match c.rank with
      | some v => conv fp32 fp64 .even v
      | none => noValue
  | 3 => (c.valueAt (inst - period)).getD noValue
  | 4 => c.sp
  | _ => c.sn

/-- HIST records of a die, or of one tile of it, stamped in the period that ends at `inst` (R290). -/
def DieObs.histsIn (o : DieObs) (inst period tile : Nat) : List Rec :=
  o.hists.filter fun h => decide (h.ts64 ≤ inst) && decide (inst < h.ts64 + period) && (tile == 255 || h.unit == tile)

/-- R290: a MACE source. -/
def maceValue (sel : Nat) (hs : List Rec) : F64 :=
  let sum (lo len : Nat) : Nat := sumBy (fun h => h.fld lo len) hs
  let blocks := sum 224 32
  match sel with
  | 0 => fp64.ofNat blocks
  | 1 => fp64.ofNat (sum 256 32)
  | 2 => fp64.ofNat (sum 288 16)
  | 3 => fp64.ofNat (sum 320 32)
  | 4 => if hs.isEmpty then noValue else fp64.div (hs.foldl (fun s h => fp64.add s (h.fld 384 64)) 0) (fp64.ofNat blocks)
  | _ =>
    if hs.isEmpty then noValue
    else fp64.div (fp64.ofNat (sumBy (fun b => sum (512 + 32 * (20 + b)) 32) (List.range 12))) (fp64.ofNat blocks)

/-- Records lost by a die over the period, from the totals of its TR_LOSS (R83, R290): of every accumulator that the causes
take in, the growth of the total up to `inst`. -/
def DieObs.lost (o : DieObs) (sel inst period : Nat) : Nat :=
  let mine := o.losses.filter fun r =>
    match sel with
    | 0 => r.fld 192 8 == 1
    | 1 => r.fld 192 8 == 5
    | _ => true
  let keys := (mine.map fun r => r.fld 192 16).foldl (fun l k => if l.contains k then l else k :: l) []
  let total (k upTo : Nat) : Nat :=
    (mine.filter fun r => r.fld 192 16 == k && decide (r.ts64 ≤ upTo)).foldl (fun n r => max n (r.fld 256 64)) 0
  sumBy (fun k => total k inst - total k (inst - period)) keys

/-- R290: the value x of a raw input; the second answer says that the group's table does not hold its metric. -/
def Fyster.rawValue (f : Fyster) (k : Nat) (x : Grp) (inst p tile : Nat) (r : RawIn) : F64 × Bool :=
  if r.src ≤ 5 then
    match (dMetricList x.desc).find? fun m => m.id == r.sel with
    | none => (noValue, true)
    | some m =>
      match f.rowCtx k p tile m r with
      | some c => (metricValue r c inst x.period, false)
      | none => (noValue, false)
  else
    let v := match r.src with
      | 6 => maceValue r.sel ((f.obs p).histsIn inst x.period tile)
      | 7 => fp64.round .even false ((f.obs p).lost r.sel inst x.period * 1000000000) x.period
      | 8 => fp64.ofNat (if tile = 255 then p else tile)
      | 9 => 0
      | _ => fp64.ofNat x.period
    (v, false)

/-- The contexts that a row stands on. -/
def Fyster.rowCtxs (f : Fyster) (k : Nat) (x : Grp) (p tile : Nat) : List Ctx :=
  ((dMetricList x.desc).filter fun m => m.tile == (tile != 255)).map fun m => f.ctx (ctxKey k m.id p tile)

/-- R289: RANK_LAG. -/
def Grp.rankLag (x : Grp) (inst : Nat) : Nat :=
  match x.summary with
  | some c => min 255 ((inst - c.inst) / x.period)
  | none => 255

/-- One row of instant `inst` (R288, R289). -/
def Fyster.buildRow (f : Fyster) (k : Nat) (x : Grp) (inst : Nat) (m : Nat × Nat) (p tile : Nat) : Row :=
  let b := (f.mslot m.1).image
  let ins := (List.range (mRaw b)).map (mRawIn b)
  let vs := ins.map fun r => (r.value (f.rawValue k x inst p tile r).1, (f.rawValue k x inst p tile r).2)
  let cs := f.rowCtxs k x p tile
  { gslot := k, inst := inst, port := p, tile := tile, mslot := m.1, serial := m.2, raws := vs.map (·.1), lag := x.rankLag inst,
    stale := cs.any (·.stale), uncertain := cs.any (fun c => c.uncertain && c.inst == inst), unbound := vs.any (·.2) }

/-- R288: the die, or a tile of it, gave at least one value for `inst`. -/
def Fyster.gave (f : Fyster) (k : Nat) (x : Grp) (inst p tile : Nat) : Bool :=
  if tile = 255 then
    (dMetricList x.desc).any fun m =>
      (if m.tile then List.range 72 else [255]).any fun t =>
        let c := f.ctx (ctxKey k m.id p t)
        c.kind == .value && c.inst == inst
  else (f.rowCtxs k x p tile).any fun c => c.kind == .value && c.inst == inst

/-! ### Reports (R313 to R315) -/

/-- R315: G is a report instant. -/
def Fyster.reportInstant (f : Fyster) (g inst period : Nat) : Bool :=
  let pr := f.rd (0x4430 + g) 4 * 1000000
  pr != 0 && decide ((inst - period) / pr < inst / pr)

/-- A run of a group. -/
def Jun.run? (j : Jun) (g inst : Nat) : Option InstRun := j.runs.find? fun r => r.gslot == g && r.inst == inst

/-- Fyster with a run replaced. -/
def Fyster.setRun (f : Fyster) (r : InstRun) : Fyster :=
  { f with jun := { f.jun with runs := modFirst (fun (x : InstRun) => x.gslot == r.gslot && x.inst == r.inst) (fun _ => r) f.jun.runs } }

/-- R314: the SUMMARY of a run. -/
def Fyster.runSummary (f : Fyster) (r : InstRun) : Fyster :=
  let x := f.mkRec 0x0F (0x0700 + r.gslot) 516 r.gslot r.inst
    (payload 5 [(2, 8), (0, 24), (r.modelId, 32), (r.scored, 32), (r.rejected, 32), (r.skipped, 32), (r.absent, 32), (r.reported, 32),
      (r.suppressed, 32), (f.lanes, 8), (0, 8), (r.rejFeature, 16), (min 0xFFFFFFFF (r.finish - r.inst), 32)])
  f.hostRec { x with ts64 := r.inst }

/-- R314, R315: a run whose last row is done ends, with its SUMMARY where one is due. -/
def Fyster.endRuns (f : Fyster) : Fyster :=
  let done (r : InstRun) : Bool := !f.jun.rows.any fun x => x.gslot == r.gslot && x.inst == r.inst
  let exceeds := f.jun.runs.filter done
  let f := { f with jun := { f.jun with runs := f.jun.runs.filter fun r => !done r } }
  exceeds.foldl (fun f r =>
    let f := f.wr 0x4400 0x0A (max (f.rd 0x4400 0x0A) (min 0xFFFFFFFF (r.finish - r.inst)))
    let period := ((f.grp r.gslot).map (·.period)).getD 0
    if f.reportInstant r.gslot r.inst period || decide (0 < r.rejected + r.skipped) then f.runSummary r else f) f

/-- R313: TR_SCORE of a row. -/
def Fyster.rowRecord (f : Fyster) (r : Row) (out : List Nat) (sflags nsubst : Nat) : Fyster :=
  let b := (f.mslot r.mslot).image
  let n := out.length
  let x := f.mkRec 0x0F (0x0700 + r.gslot) 516 r.gslot r.inst
    (payload (3 + ceilDiv n 2) ([(1, 4), (r.mslot, 2), (0, 2), (n, 4), (topClass out, 3), (0, 1), (sflags, 8), (r.lag, 8), (mId b, 32),
      (f.dieOf r.port, 32), (r.tile, 8), (0, 8), (nsubst, 16), (r.serial, 32), (0, 32)] ++ out.map fun v => (v, 32)))
  let x := { x with ts64 := r.inst }
  f.hostRec (if r.uncertain then x.setFlag 1 else x)

/-! ### Release (R288, R289, R307) -/

/-- R307, R308: the rows of a run that have not started are skipped. -/
def Fyster.skipRun (f : Fyster) (g inst : Nat) : Fyster :=
  match f.jun.run? g inst with
  | none => f
  | some r =>
    let mine (x : Row) : Bool := x.gslot == g && x.inst == inst
    let n := (f.jun.rows.filter mine).length
    let f := { f with jun := { f.jun with rows := f.jun.rows.filter fun x => !mine x } }
    let f := f.setRun { r with skipped := r.skipped + n }
    let f := if n = 0 then f else (f.bump (0x4430 + g) 8 n).bump 0x4400 8 n
    f.endRuns

/-- R288, R289: the rows of an instant are released; those of the group's earlier instants have met their deadline. -/
def Fyster.releaseRows (f : Fyster) (k inst : Nat) : Fyster :=
  let f := (f.jun.runs.filter fun r => r.gslot == k && decide (r.inst < inst)).foldl (fun f r => f.skipRun k r.inst) f
  match f.grp k with
  | none => f
  | some x =>
    let m := f.modelAt k inst
    let b := f.bind k
    let f := if b.old.isSome && decide (ts64Of b.eff ≤ inst) then f.setBind k { b with old := none } else f
    let live := (x.state == 3 || x.state == 5) && !samplingOnly x.period && x.endAt.all fun e => decide (inst < ts64Of e)
    match x.roles.find? fun r => r.level == 0 && !r.standby && r.holder with
    | none => f
    | some r =>
      if !live || decide (2 < m.1) || (f.mslot m.1).state != 2 then f
      else
        let img := (f.mslot m.1).image
        let ports := r.armedPorts
        let dies := if mDieRows img then ports.filter fun p => f.gave k x inst p 255 else []
        let given := ports.filter fun p => f.gave k x inst p 255
        let tiles : List (Nat × Nat) := if mTileRows img then
          ports.flatMap fun p => ((List.range 72).filter fun t => f.gave k x inst p t).map fun t => (p, t) else []
        let rows := (dies.map fun p => f.buildRow k x inst m p 255) ++ tiles.map fun t => f.buildRow k x inst m t.1 t.2
        let gone := ports.length - given.length
        let absent := gone * (b2n (mDieRows img) + 72 * b2n (mTileRows img))
        let run : InstRun :=
          { gslot := k, inst := inst, mslot := m.1, modelId := mId img, released := f.ns, deadline := f.ns + x.period, scored := 0,
            rejected := 0, skipped := 0, absent := absent, reported := 0, suppressed := 0, rejFeature := 0xFFFF, spentNum := 0,
            spentDen := 1, finish := inst }
        let f := if rows.any (·.unbound) then f.bump 0x4400 9 1 else f
        let f := if absent = 0 then f else f.bump (0x4430 + k) 9 absent
        ({ f with jun := { f.jun with rows := f.jun.rows ++ rows, runs := f.jun.runs ++ [run] } }).endRuns

/-- R307, R308: the rows of an instant have met their deadline, or the group's share is spent. -/
def Fyster.rowsOver (f : Fyster) (r : InstRun) : Bool :=
  let b := f.bind r.gslot
  let period := ((f.grp r.gslot).map (·.period)).getD 0
  decide (r.deadline ≤ max f.jun.busyUntil r.released) ||
    decide (b.shareNum * period * r.spentDen ≤ r.spentNum * b.shareDen)

/-- R307: a row not started by its deadline or share is skipped. -/
def Fyster.rowsDeadline (f : Fyster) (g inst : Nat) : Fyster :=
  match f.jun.run? g inst with
  | some r => if f.rowsOver r || decide (r.deadline ≤ f.ns) then f.skipRun g inst else f
  | none => f

/-- ROW_DEADLINE. -/
def execRowDeadline (dt : Nat) (g : GSlot) (inst : Word) (s : State) : Host.Outcome State Fault Refusal :=
  .next (onFy dt (fun f => f.rowsDeadline g.val inst.toNat) s)

/-! ### Scoring (R296, R307, R311, R312, R315) -/

/-- R307: the run that is served next: the earliest deadline. -/
def Jun.nextRun (j : Jun) : Option InstRun :=
  j.runs.foldl (fun (m : Option InstRun) r =>
    if j.rows.any fun x => x.gslot == r.gslot && x.inst == r.inst then
      match m with
      | none => some r
      | some y => if r.deadline < y.deadline then some r else m
    else m) none

/-- R315: the latest score of a row. -/
def Fyster.putScore (f : Fyster) (g : Nat) (x : Score) : Fyster :=
  let l := tget f.jun.scores g []
  let same (y : Score) : Bool := y.die == x.die && y.tile == x.tile
  let l := if l.any same then modFirst same (fun _ => x) l else l ++ [x]
  { f with jun := { f.jun with scores := tset f.jun.scores g l } }

/-- SCORE_TABLE (R317). -/
def Fyster.scoreTable (f : Fyster) (g : Nat) : List Byte :=
  (tget f.jun.scores g []).flatMap fun x =>
    leBytes 8 x.inst ++ leBytes 4 x.die ++ leBytes 4 (packNat [(x.tile, 8), (x.top, 8), (x.mslot, 8), (x.sflags, 8)]) ++
      (List.range 8).flatMap fun c => leBytes 4 (x.out.getD c 0)

/-- R296, R315: a released row has been scored. -/
def Fyster.rowDone (f : Fyster) (run : InstRun) (r : Row) : Fyster :=
  let b := (f.mslot r.mslot).image
  let t := Ratio.add { num := run.spentNum, den := run.spentDen } (tRow b (max f.lanes 1))
  let run := { run with spentNum := t.num, spentDen := t.den, finish := max run.finish f.ts }
  let f := { f with jun := { f.jun with rows := f.jun.rows.erase r, busyUntil := f.ns } }
  match scoreRow b r.raws with
  | .rejected i =>
    let f := f.setRun { run with rejected := run.rejected + 1, rejFeature := if run.rejected = 0 then i else run.rejFeature }
    ((f.bump (0x4430 + r.gslot) 7 1).bump 0x4400 7 1).endRuns
  | .scored out nsubst =>
    let period := ((f.grp r.gslot).map (·.period)).getD 0
    let thr := fp32.le (f.rd (0x4430 + r.gslot) 3) (out.getD (topClass out) 0)
    let per := r.tile == 255 && f.reportInstant r.gslot r.inst period
    let sflags := packNat [(b2n (r.tile != 255), 1), (b2n r.stale, 1), (b2n (decide (0 < nsubst)), 1), (b2n per, 1), (b2n thr, 1),
      (b2n r.unbound, 1)]
    let room := decide (run.reported < f.rd (0x4430 + r.gslot) 5)
    let due := thr || per
    let f := f.setRun { run with scored := run.scored + 1, reported := run.reported + b2n (due && room),
                                 suppressed := run.suppressed + b2n (due && !room) }
    let f := f.putScore r.gslot { inst := r.inst, die := f.dieOf r.port, tile := r.tile, top := topClass out, mslot := r.mslot,
                                  sflags := sflags, out := out }
    let f := (f.bump (0x4430 + r.gslot) 6 1).bump 0x4400 6 1
    let h : HealthRow := { gslot := r.gslot, inst := r.inst, port := r.port, tile := r.tile, model := mId b, serial := r.serial,
                           staleRank := r.stale || decide (1 < r.lag), out := out }
    let f := { f with dec := { f.dec with health := f.dec.health ++ [h] } }
    (if due && room then f.rowRecord r out sflags nsubst else f).endRuns

/-- The 8-byte head of a row result and the outputs (R311). -/
def rowResult (x : RowResult) : List Byte :=
  match x with
  | .rejected i => leBytes 8 (packNat [(1, 8), (0, 8), (i, 16), (0, 32)])
  | .scored out n => leBytes 8 (packNat [(0, 8), (topClass out, 8), (0xFFFF, 16), (n, 16), (0, 16)]) ++ out.flatMap (leBytes 4)

/-- R311: a write of ROW_SUBMIT; its answer comes with the result. `why`: who waits for it. -/
def Fyster.wrRowSubmit (f : Fyster) (v : List Byte) (why : Option RelayFor) : Fyster × Nat :=
  let s := fieldAt v 0 1
  let img := (f.mslot s).image
  let a := lowestAbort [(decide (v.length < 8), 0x24), (decide (2 < s), 0x25), ((f.mslot s).state != 2, 0x27),
    (v.length != 8 + 4 * mRaw img, 0x24), (f.jun.demand.isSome, 0x30)]
  if a ≠ 0 then (f, a)
  else
    let raws := (List.range (mRaw img)).map fun i => (mRawIn img i).value (conv fp32 fp64 .even (fieldAt v (8 + 4 * i) 4))
    ({ f with jun := { f.jun with demand := some { slot := s, raws := raws, since := f.ns, why := why } } }, 0)

/-- ROW_SUBMIT: a write that is refused is answered now, one that is taken when the row is scored or 10 ms have passed. -/
def execRowSubmit (dt : Nat) (lvl : Level) (v : List Byte) (s : State) : Host.Outcome State Fault Refusal :=
  .next (onFy dt (fun f =>
    let r := f.wrRowSubmit v none
    if Level.rank lvl < 1 then f.emit (.answer 5) else if r.2 = 0 then r.1 else f.emit (.answer r.2)) s)

/-- R312: the batch requester's power is returned. -/
def Fyster.batchEnd (f : Fyster) (state : Nat) : Fyster :=
  ({ f with jun := { f.jun with batch := { f.jun.batch with state := state } } }).pwr 5 ((f.part.pwrReq 5).withdraw f.part.time.now)

/-- R312: the spec of a batch run breaks its layout. -/
def batchSpecCode (v : List Byte) : Nat :=
  let sp := fieldAt v 1 1
  lowestAbort [(v.length != 48, 0x24), (decide (2 < fieldAt v 0 1), 0x25), (sp == 0 || decide (3 < sp), 0x26), (fieldAt v 4 4 == 0, 0x25)]

/-- R312: a write of BATCH_SPEC. -/
def Fyster.wrBatchSpec (f : Fyster) (v : List Byte) : Fyster × Nat :=
  if batchSpecCode v ≠ 0 then (f, batchSpecCode v)
  else if f.jun.batch.state = 1 ∨ f.jun.batch.state = 2 then (f, 0x27)
  else ({ f with jun := { f.jun with batch := { f.jun.batch with spec := v } } }, 0)

/-- R312: a write of BATCH_START. -/
def Fyster.wrBatchStart (f : Fyster) (serial : Nat) : Fyster × Nat :=
  let b := f.jun.batch
  let busy := b.state == 1 || b.state == 2
  let a := lowestAbort [(busy || b.spec.isEmpty || (f.mslot (fieldAt b.spec 0 1)).state != 2, 0x27)]
  if a ≠ 0 then (f, a)
  else
    let f := { f with jun := { f.jun with batch := { b with state := 1, serial := serial, rows := 0 } } }
    let f := f.pwr 5 ((f.part.pwrReq 5).ask 250 f.part.time.now)
    (if f.granted 5 then { f with jun := { f.jun with batch := { f.jun.batch with state := 2 } } } else f, 0)

/-- BATCH_START. -/
def execBatchStart (dt : Nat) (lvl : Level) (serial : BitVec 32) (s : State) : Host.Outcome State Fault Refusal :=
  .next (onFy dt (fun f => f.reply lvl 1 (f.wrBatchStart serial.toNat)) s)

/-- R312: a write of BATCH_ABORT. -/
def Fyster.wrBatchAbort (f : Fyster) (v : Nat) : Fyster × Nat :=
  if 1 < v then (f, 0x26)
  else if v = 1 ∧ (f.jun.batch.state = 1 ∨ f.jun.batch.state = 2) then (f.batchEnd 4, 0)
  else (f, 0)

/-- BATCH_ABORT. -/
def execBatchAbort (dt : Nat) (lvl : Level) (v : Byte) (s : State) : Host.Outcome State Fault Refusal :=
  .next (onFy dt (fun f => f.reply lvl 1 (f.wrBatchAbort v.toNat)) s)

/-- `n` free FP32 values: rows of a batch run stand in memory outside the model. -/
def Fyster.freeRow : Nat → Fyster → Fyster × List Nat
  | 0, f => (f, [])
  | n + 1, f =>
    let x := f.free
    let y := Fyster.freeRow n x.1
    (y.1, x.2.toNat % 2 ^ 32 :: y.2)

/-- R312: one row of the batch run. -/
def Fyster.batchRow (f : Fyster) : Fyster :=
  let b := f.jun.batch
  let img := (f.mslot (fieldAt b.spec 0 1)).image
  let each := 8 + 4 * mClasses img
  if fieldAt b.spec 24 8 < (b.rows + 1) * each then f.batchEnd 5
  else
    let x := Fyster.freeRow (mRaw img) f
    let raws := x.2.zipIdx.map fun v => (mRawIn img v.2).value (conv fp32 fp64 .even v.1)
    let out := rowResult (scoreRow img raws)
    let bytes := (out ++ List.replicate each 0).take each
    let at' := fieldAt b.spec 16 8 + b.rows * each
    let f := match fieldAt b.spec 1 1 with
      | 1 => x.1.emit (.hostWrite at' bytes)
      | 2 => x.1.emit (.fabric f.tray 0 at' bytes)
      | _ => x.1
    let f := { f with jun := { f.jun with batch := { b with rows := b.rows + 1 } } }
    if b.rows + 1 = fieldAt b.spec 4 4 then f.batchEnd 3 else f

/-- R307, R311, R312: the lanes finish a row: a released one first, else the one on demand, else one of the batch run. The
second answer: the write of ROW_SUBMIT that is answered now. -/
def Fyster.rowStep (f : Fyster) : Fyster × Option (Option RelayFor) :=
  let exceeds := f.jun.runs.filter fun r => f.rowsOver r
  let f := exceeds.foldl (fun f r => f.skipRun r.gslot r.inst) f
  match f.jun.nextRun with
  | some run =>
    match f.jun.rows.find? fun x => x.gslot == run.gslot && x.inst == run.inst with
    | some r => (f.rowDone run r, none)
    | none => (f, none)
  | none =>
    match f.jun.demand with
    | some d =>
      let res := rowResult (scoreRow (f.mslot d.slot).image d.raws)
      ({ f with part := f.part.wrDom 0x4470 2 res, jun := { f.jun with demand := none, busyUntil := f.ns } }, some d.why)
    | none => (if f.jun.batch.state = 2 then f.batchRow else f, none)

/-- R311: no result within 10 ms; answers whose write gets BUSY. -/
def Fyster.demandLate (f : Fyster) : Fyster × Option (Option RelayFor) :=
  match f.jun.demand with
  | some d => if d.since + 10000000 ≤ f.ns then ({ f with jun := { f.jun with demand := none } }, some d.why) else (f, none)
  | none => (f, none)

end Sys2Proof.Machine
end

