-- ==== Sys2Proof/Machine/Decide.lean ====
section
/-! DEFINITION. The decision unit at a grid instant: governor answers, stragglers, drift, health scores and zoom (R318 to R330,
R333). -/

namespace Sys2Proof.Machine

/-! ### The straggler rule (R320 to R322) -/

/-- 2^(n / d) as FP64: exact where d divides n, otherwise as the engine gives it (log 8). -/
def pow2 (n d : Int) : Nat :=
  if n % d = 0 then
    let e := n / d
    if 0 ≤ e then fp64.round .even false (2 ^ e.toNat) 1 else fp64.round .even false 1 (2 ^ (-e).toNat)
  else Config.exp2 (fp64.div (fp64.ofInt n) (fp64.ofInt d))

/-- The bin in which the count passes `t2` / 2 (R320); none past the last one. -/
def binPast (a : Agg) (t2 : Nat) : Nat → Nat → Nat → Option Nat
  | 0, _, _ => none
  | n + 1, i, c =>
    let c' := c + tget a.bins i 0
    if t2 < 2 * c' then some i else binPast a t2 n (i + 1) c'

/-- R320: quantile(a, 0.5) as FP64. -/
def Agg.median (a : Agg) : Nat :=
  let s : Int := 8 * 2 ^ a.res
  let t2 := a.count - a.nans
  let c0 := a.negatives + a.zeros
  let c1 := c0 + a.underflows
  if t2 < 2 * c0 then 0
  else if t2 < 2 * c1 then pow2 a.offset s
  else
    match binPast a t2 256 0 c1 with
    | some i => pow2 (2 * (i + a.offset) + 1) (2 * s)
    | none => pow2 (256 + a.offset) s

/-- The aggregate of a metric in a summary, with the metric. -/
def Grp.aggFor (x : Grp) (c : Contrib) (id : Nat) : Option (Metric × Agg) :=
  ((dMetricList x.desc).zip c.aggs).find? fun e => e.1.id == id

/-- FP64 to FP32. -/
def toF32 (v : Nat) : Nat := conv fp64 fp32 .even v

/-- R322: the entry of CAUSE_TABLE with the highest rank at or above STRAG_RANK: cause, metric, rank. -/
def Fyster.stragCause (f : Fyster) (k p : Nat) : Option (Nat × Nat × Nat) :=
  let t := f.part.rdDom (0x3200 + k) 6
  let thr := f.rd (0x3200 + k) 2
  (List.range (t.length / 4)).foldl (fun (m : Option (Nat × Nat × Nat)) i =>
    let id := fieldAt t (4 * i) 2
    match (f.ctx (ctxKey k id p 255)).rank with
    | none => m
    | some r =>
      if !fp32.le thr r then m
      else
        match m with
        | none => some (fieldAt t (4 * i + 2) 1, id, r)
        | some b => if fp32.lt b.2.2 r then some (fieldAt t (4 * i + 2) 1, id, r) else m) none

/-- R321, R322: the straggler rule for one die at instant `inst` with summary `c`. -/
def Fyster.straggler (f : Fyster) (k inst p : Nat) (x : Grp) (c : Contrib) : Fyster :=
  let id := f.rd (0x3200 + k) 1
  let ctx := f.ctx (ctxKey k id p 255)
  match x.aggFor c id, ctx.valueAt inst with
  | some (_, a), some v =>
    if fp64.isNan v then f
    else
      let d := f.die k p
      let thr := fp64.mul a.median (fp64.add f64One (conv fp32 fp64 .even (f.rd (0x3200 + k) 3)))
      let hit := (a.rank v).any (fun r => fp32.le (f.rd (0x3200 + k) 2) r) && fp64.le thr v
      let d := if hit then { d with run := d.run + 1, miss := 0 } else { d with run := 0, miss := d.miss + 1 }
      let on := !d.strag && decide (f.rd (0x3200 + k) 4 ≤ d.run)
      let off := d.strag && decide (f.rd (0x3200 + k) 5 ≤ d.miss)
      let note (cls cause ref rank : Nat) : Notice :=
        { notice cls (f.dieOf p) k inst with cause := cause, ref := ref, rank := rank, value := toF32 v, thr := toF32 thr,
                                             dstate := d.dstate }
      let own := (a.rank v).getD f32NaN
      if on then
        let n := if ctx.hang then note 1 0x0C id own
          else match f.stragCause k p with
            | some y => note 1 y.1 y.2.1 y.2.2
            | none => note 1 0 id own
        ((f.setDie k p { d with strag := true }).notify n).1.zoomTrigger k p
      else if off then ((f.setDie k p { d with strag := false }).notify (note 2 0 id own)).1
      else f.setDie k p d
  | _, _ => f

/-! ### Drift (R323) -/

/-- FP64 constants of R323. -/
def f64Pow (e : Int) : Nat := pow2 e 1

/-- max of two FP64 values that are no NaN. -/
def f64Max (a b : Nat) : Nat := if fp64.lt a b then b else a

/-- One entry of DRIFT_TABLE. -/
structure DriftEntry where
  id    : Nat
  zoom  : Bool
  cause : Nat
  k     : Nat
  h     : Nat
  warm  : Nat
  lam   : Nat
deriving DecidableEq, Repr

/-- Entry `i` of DRIFT_TABLE. -/
def driftEntry (t : List Byte) (i : Nat) : DriftEntry :=
  let o := 16 * i
  { id := fieldAt t o 2, zoom := bitOf (fieldAt t (o + 2) 1) 0, cause := fieldAt t (o + 3) 1, k := conv fp32 fp64 .even (fieldAt t (o + 4) 4),
    h := conv fp32 fp64 .even (fieldAt t (o + 8) 4), warm := fieldAt t (o + 12) 2, lam := fieldAt t (o + 14) 1 }

/-- R254: a context holds its sums as F32; here the same value as FP64. -/
def asF32 (v : Nat) : Nat := conv fp32 fp64 .even (toF32 v)

/-- R323: a context after value `v`; the second answer is an alarm: the sums at the alarm. -/
def Ctx.drift (c : Ctx) (e : DriftEntry) (v : Nat) : Ctx × Option (Nat × Nat) :=
  let warm := decide (e.warm ≤ c.n)
  let lam := if warm then f64Pow (-(e.lam : Int)) else fp64.div f64One (fp64.ofNat (c.n + 1))
  let sd := f64Max (f64Max (fp64.sqrt c.var) (fp64.mul (f64Pow (-20)) (fp64.abs c.mu))) (f64Pow (-40))
  let dx := fp64.sub v c.mu
  let z := fp64.div dx sd
  let sp := asF32 (f64Max 0 (fp64.sub (fp64.add c.sp z) e.k))
  let sn := asF32 (f64Max 0 (fp64.sub (fp64.sub c.sn z) e.k))
  let alarm := warm && (fp64.lt e.h sp || fp64.lt e.h sn)
  let four := fp64.ofNat 4
  let zc := if fp64.lt z (fp64.negate four) then fp64.negate four else if fp64.lt four z then four else z
  let dv := if warm then fp64.mul zc sd else dx
  let var := fp64.mul (fp64.sub f64One lam) (fp64.add c.var (fp64.mul (fp64.mul lam dv) dv))
  let c' := { c with mu := fp64.add c.mu (fp64.mul lam dv), var := var, n := min (c.n + 1) 65535,
                     sp := if alarm then 0 else if warm then sp else c.sp, sn := if alarm then 0 else if warm then sn else c.sn }
  (c', if alarm then some (sp, sn) else none)

/-- R323: one value of one entry of DRIFT_TABLE. -/
def Fyster.driftOne (f : Fyster) (k inst p tile : Nat) (e : DriftEntry) : Fyster :=
  let key := ctxKey k e.id p tile
  let c := f.ctx key
  match c.valueAt inst with
  | none => f
  | some v =>
    if fp64.isNan v then f
    else
      let y := c.drift e v
      let f := f.setCtx key y.1
      match y.2 with
      | none => f
      | some (sp, sn) =>
        let up := fp64.lt e.h sp
        let down := fp64.lt e.h sn
        let f := (f.notify { notice 3 (f.dieOf p) k inst with
          cause := e.cause, unit := if tile = 255 then 0xFF else tile, dstate := (f.die k p).dstate, ref := e.id,
          value := toF32 (f64Max sp sn), thr := toF32 e.h, rank := c.rank.getD f32NaN, detail32 := b2n up + 2 * b2n down }).1
        if e.zoom then f.zoomTrigger k p else f

/-- R323: every entry of DRIFT_TABLE for one die. -/
def Fyster.drift (f : Fyster) (k inst p : Nat) (x : Grp) : Fyster :=
  let t := f.part.rdDom (0x3200 + k) 7
  (List.range (t.length / 16)).foldl (fun f i =>
    let e := driftEntry t i
    match (dMetricList x.desc).find? fun m => m.id == e.id with
    | none => f
    | some m => (if m.tile then List.range 72 else [255]).foldl (fun f tile => f.driftOne k inst p tile e) f) f

/-! ### Health scores (R324, R328, R330) -/

/-- One entry of HEALTH_TABLE; thresholds as FP32. -/
structure HealthEntry where
  cause : Nat
  note  : Bool
  zoom  : Bool
  quar  : Bool
  persist : Nat
  watch : Nat
  thr   : Nat
  top   : Nat
deriving DecidableEq, Repr

/-- The entry of class `c`. -/
def healthEntry (t : List Byte) (c : Nat) : HealthEntry :=
  let o := 20 * c
  let act := fieldAt t (o + 1) 1
  { cause := fieldAt t o 1, note := bitOf act 0, zoom := bitOf act 1, quar := bitOf act 2, persist := fieldAt t (o + 2) 2,
    watch := fieldAt t (o + 4) 4, thr := fieldAt t (o + 8) 4, top := fieldAt t (o + 12) 4 }

/-- The grant part that the root has written (R331). -/
def Fyster.grantPart (f : Fyster) (k : Nat) : List Byte := f.ledger (roleArea k 0 + govGrant) 128

/-- The raise that the tray knows: FP32 (R331). -/
def Fyster.raise (f : Fyster) (k : Nat) : Nat := fieldAt (f.grantPart k) 32 4

/-- R328: Q_eff as FP64. -/
def Fyster.qEff (f : Fyster) (k : Nat) (e : HealthEntry) : Nat :=
  let w (v : Nat) : Nat := conv fp32 fp64 .even v
  fp64.add (w e.thr) (fp64.mul (w (f.raise k)) (fp64.sub (w e.top) (w e.thr)))

/-- A notice about a scored row. -/
def Fyster.rowNotice (f : Fyster) (cls : Nat) (r : HealthRow) (c : Nat) (e : HealthEntry) (action held thr at' : Nat) : Notice :=
  { notice cls (f.dieOf r.port) r.gslot at' with
    action := action, cause := e.cause
    flags := packNat [(0, 1), (held, 2), (0, 1), (b2n (fp32.abs (f.raise r.gslot) != 0), 1), (b2n r.staleRank, 1)]
    unit := if r.tile = 255 then 0xFF else r.tile, dstate := (f.die r.gslot r.port).dstate, ref := c, value := r.out.getD c 0, thr := thr,
    related := r.serial, model := r.model }

/-- An episode that has not begun. -/
def Episode.zero : Episode := { watching := false, below := 0, exceeds := 0, underQ := 0 }

/-- R324: one class of one scored row. -/
def Fyster.healthClass (f : Fyster) (r : HealthRow) (c : Nat) (e : HealthEntry) : Fyster :=
  let k := r.gslot
  let d := f.die k r.port
  let key := r.tile * 8 + c
  let ep := tget d.episodes key .zero
  let v := r.out.getD c 0
  let up := fp32.le e.watch v
  let q := f.qEff k e
  let exceeds := fp64.le q (conv fp32 fp64 .even v)
  let starts := up && !ep.watching
  let below := if up then 0 else ep.below + 1
  let ep' : Episode :=
    { watching := if up then true else ep.watching && decide (below < e.persist), below := below,
      exceeds := if exceeds then ep.exceeds + 1 else 0, underQ := if exceeds then 0 else ep.underQ + 1 }
  let f := f.setDie k r.port { d with episodes := tset d.episodes key ep' }
  let f := if starts && e.note then (f.notify (f.rowNotice 4 r c e 0 0 e.watch r.inst)).1 else f
  let f := if starts && e.zoom then f.zoomTrigger k r.port else f
  if e.quar && exceeds && r.tile != 255 then (f.notify (f.rowNotice 4 r c e 0 0 (toF32 q) r.inst)).1 else f

/-- Classes of HEALTH_TABLE that are acted on. -/
def Fyster.healthClasses (f : Fyster) (k : Nat) (out : List Nat) : List (Nat × HealthEntry) :=
  let t := f.part.rdDom (0x3200 + k) 8
  ((List.range (min out.length (t.length / 20))).map fun c => (c, healthEntry t c)).filter fun e => e.2.note || e.2.zoom || e.2.quar

/-- out - Q_eff of a class, FP64. -/
def Fyster.overQ (f : Fyster) (k : Nat) (out : List Nat) (e : Nat × HealthEntry) : Nat :=
  fp64.sub (conv fp32 fp64 .even (out.getD e.1 0)) (f.qEff k e.2)

/-- The class with the largest excess, the lower on a tie. -/
def bestClass (l : List (Nat × Nat)) : Option (Nat × Nat) :=
  l.foldl (fun m x =>
    match m with
    | none => some x
    | some y => if fp64.lt y.2 x.2 then some x else m) none

/-- R330: a held die's entry is withdrawn: RELEASED, and the die is in service again. -/
def Fyster.release (f : Fyster) (k p : Nat) (r : HealthRow) (c : Nat) (e : HealthEntry) : Fyster :=
  let d := f.die k p
  let f := f.govLeave k d.eseq
  let f := f.setDie k p { d with dstate := if d.dstate = 2 then d.base else d.dstate, cand := none, eseq := 0 }
  if d.dstate = 2 then (f.notify (f.rowNotice 8 r c e 0 0 (toF32 (f.qEff k e)) r.inst)).1 else f

/-- R324, R330: a scored row, class by class; a die row may make its die a candidate or release it. -/
def Fyster.healthRow (f : Fyster) (r : HealthRow) : Fyster :=
  let k := r.gslot
  let cs := f.healthClasses k r.out
  let f := cs.foldl (fun f e => f.healthClass r e.1 e.2) f
  if r.tile ≠ 255 then f
  else
    let d := f.die k r.port
    let ex : List (Nat × Nat) := cs.map fun e => (e.1, f.overQ k r.out e)
    let d := { d with excess := (bestClass ex).map fun (e : Nat × Nat) => e.2 }
    let ready : List (Nat × Nat) := (cs.filter fun (e : Nat × HealthEntry) =>
      e.2.quar && decide (max e.2.persist 1 ≤ (tget d.episodes (255 * 8 + e.1) Episode.zero).exceeds)).map fun e =>
      (e.1, f.overQ k r.out e)
    match d.cand with
    | none =>
      match bestClass ready with
      | some (c, _) =>
        if d.dstate = 3 ∨ d.dstate = 4 then f.setDie k r.port d
        else f.setDie k r.port { d with cand := some (c, r.out.getD c 0, r) }
      | none => f.setDie k r.port d
    | some (c, _, _) =>
      let f := f.setDie k r.port d
      match cs.find? fun (e : Nat × HealthEntry) => e.1 == c with
      | some e =>
        if max e.2.persist 1 ≤ (tget d.episodes (255 * 8 + c) .zero).underQ then f.release k r.port r c e.2
        else f
      | none => f

/-- The HEALTH_TABLE entry of a class in force. -/
def Fyster.entryOf (f : Fyster) (k c : Nat) : HealthEntry := healthEntry (f.part.rdDom (0x3200 + k) 8) c

/-- R330: a candidate becomes SUSPECT_HELD; `held`: 1 HELD_TRAY, 2 HELD_GROUP. -/
def Fyster.suspect (f : Fyster) (k p held at' : Nat) : Fyster :=
  let d := f.die k p
  match d.cand with
  | some (c, _, r) =>
    if d.dstate = 2 then f
    else
      let f := f.setDie k p { d with dstate := 2 }
      let e := f.entryOf k c
      (f.notify (f.rowNotice 7 r c e 0 held (toF32 (f.qEff k e)) at')).1
  | none => f

/-- R330: GRANTED: the tray entry, the quarantine request, QUAR_REQUESTED. -/
def Fyster.quarantine (f : Fyster) (k p at' : Nat) : Fyster :=
  let d := f.die k p
  match d.cand with
  | some (c, _, r) =>
    let f := f.govLeave k d.eseq
    let f := f.setDie k p { d with dstate := 3, cand := none, eseq := 0 }
    let f := { f with dec := { f.dec with tray := f.dec.tray ++ [f.ns] } }
    let e := f.entryOf k c
    (f.notify (f.rowNotice 4 r c e 4 0 (toF32 (f.qEff k e)) at')).1
  | none => f

/-- R330: steps 1 and 2 for a candidate without an entry; R332: without GOV_ENABLE the tray window does not hold it. -/
def Fyster.propose (f : Fyster) (k p at' : Nat) : Fyster :=
  let d := f.die k p
  match d.cand with
  | some (c, score, _) =>
    if d.eseq ≠ 0 ∨ d.dstate = 3 ∨ d.dstate = 4 then f
    else if f.part.flag (0x3300 + k) 0x0C && decide (f.rd 0x33C0 1 ≤ f.trayWindow k) then f.suspect k p 1 at'
    else
      let y := f.govEnter k 1 (f.dieOf p) c score f.ts
      if y.2 = 0 then f.suspect k p 2 at' else y.1.setDie k p { d with eseq := y.2 }
  | none => f

/-- R330 to R332: the governor's answer to a die's entry; an answer that is overdue holds the die. -/
def Fyster.govAnswer (f : Fyster) (k p at' : Nat) : Fyster :=
  let d := f.die k p
  if d.eseq = 0 then f
  else
    let b := f.grantPart k
    match (f.gov k).entries.find? fun y => y.eseq == d.eseq with
    | none => f
    | some y =>
      let mine := fieldAt b (8 * y.slot) 4 == d.eseq
      let a := fieldAt b (8 * y.slot + 4) 1
      let stale := decide (fieldAt b 40 8 + 10000 * f.rd (0x3300 + k) 9 < f.ts)
      if mine && a == 1 then f.quarantine k p at'
      else if (mine && a == 2) || stale then f.suspect k p 2 at'
      else f

/-- R331: what the grant part says to the tray: the group count, and fences that have been counted. -/
def Fyster.govSync (f : Fyster) (k : Nat) : Fyster :=
  let b := f.grantPart k
  let x := f.gov k
  let counted := x.entries.filter fun y => y.kind == 2 && fieldAt b (8 * y.slot) 4 == y.eseq && fieldAt b (8 * y.slot + 4) 1 == 3
  let f := f.setGov k { x with groupCount := fieldAt b 36 2 }
  (counted.foldl (fun f y => f.govLeave k y.eseq) f).fencesEnter k 4

/-! ### Zoom (R326, R327, R333) -/

/-- The largest multiple of 1,000 at most `m` × 1,000 that divides `period`; 0 for none. -/
def largestZ (period : Nat) : Nat → Nat
  | 0 => 0
  | m + 1 => if period % (1000 * (m + 1)) = 0 then 1000 * (m + 1) else largestZ period m

/-- R326: Z of a group. -/
def Fyster.zoomZ (f : Fyster) (k period : Nat) : Nat :=
  if f.rd (0x3200 + k) 9 ≠ 0 then f.rd (0x3200 + k) 9 else largestZ period (period / 10000)

/-- R326: rank of a die's state. -/
def DieDec.rank (d : DieDec) : Nat := if d.dstate = 4 then 0 else if d.dstate = 2 then 1 else 2

/-- R326: one die goes before another: state, excess, earlier trigger, lower port. -/
def zoomBefore (a b : Nat × DieDec) : Bool :=
  if a.2.rank ≠ b.2.rank then decide (a.2.rank < b.2.rank)
  else
    let gt : Bool := match a.2.excess, b.2.excess with
      | some x, some y => fp64.lt y x
      | some _, none => true
      | none, _ => false
    let lt : Bool := match a.2.excess, b.2.excess with
      | some x, some y => fp64.lt x y
      | none, some _ => true
      | _, none => false
    if gt then true
    else if lt then false
    else if a.2.trigger.getD 0 ≠ b.2.trigger.getD 0 then decide (a.2.trigger.getD 0 < b.2.trigger.getD 0)
    else decide (a.1 ≤ b.1)

/-- R326: a die's trigger at this instant: held by its state, or ending after ZOOM_HOLD instants without a trigger. -/
def Fyster.zoomAge (f : Fyster) (k p : Nat) : Fyster :=
  let d := f.die k p
  if d.dstate = 2 ∨ d.dstate = 4 then f.zoomTrigger k p
  else if d.trigger.isNone then f
  else if f.rd (0x3200 + k) 0x0A < d.quiet + 1 then f.setDie k p { d with trigger := none, quiet := 0 }
  else f.setDie k p { d with quiet := d.quiet + 1 }

/-- R327: the zoom of one die: a change is sent, a notice without its ZOOM_STATE is repeated. -/
def Fyster.zoomSet (f : Fyster) (k inst p z : Nat) : Fyster :=
  let d := f.die k p
  if d.zoomed ≠ z then
    let d := { d with zoomed := z, zoomAsk := some z }
    let d := if d.dstate ≤ 1 then { d with dstate := d.base } else d
    (f.setDie k p d).zoomNotice k p (z != 0) z inst d.dstate
  else if d.zoomAsk.isSome then f.zoomNotice k p (z != 0) z inst d.dstate
  else f

/-- R333: the zoom contests of a die, set by set, from ZOOM_STATE. -/
def Fyster.zoomContest (f : Fyster) (k inst p period : Nat) : Fyster :=
  (f.obs p).zoomSt.foldl (fun f s =>
    let loop := (f.die k p).zoomed / 1000
    f.contestStep ((k * 32 + p) * 16 + s.1) 1 s.1 (f.dieOf p) k loop s.2.1 (inst - period) inst (s.2.2 && s.2.1 != loop)) f

/-- R326, R327: zoom at an instant. -/
def Fyster.zoomStep (f : Fyster) (k inst : Nat) (x : Grp) (ports : List Nat) : Fyster :=
  let f := ports.foldl (fun f p => f.zoomAge k p) f
  let ds := sortBy zoomBefore ((ports.map fun p => (p, f.die k p)).filter fun d => d.2.trigger.isSome)
  let chosen := (ds.take (f.rd (0x3200 + k) 0x0B)).map (·.1)
  let z := f.zoomZ k x.period
  let f := ports.foldl (fun f p => f.zoomSet k inst p (if chosen.contains p then z else 0)) f
  ports.foldl (fun f p => f.zoomContest k inst p x.period) f

/-- R327: a ZOOM_STATE of set `set` of the die on port `p`. -/
def Fyster.zoomState (f : Fyster) (p gslot set zUs : Nat) (pin : Bool) : Fyster :=
  let o := f.obs p
  let f := f.setObs p { o with zoomSt := tset o.zoomSt set (zUs, pin) }
  if 64 ≤ gslot then f
  else
    let d := f.die gslot p
    match d.zoomAsk with
    | some z => if pin || 1000 * zUs == z then f.setDie gslot p { d with zoomAsk := none } else f
    | none => f

/-! ### The evaluation (R319) -/

/-- R319: the decisions of one die for an instant, up to its health scores. -/
def Fyster.decideDie (f : Fyster) (k inst : Nat) (x : Grp) (c : Contrib) (p : Nat) : Fyster :=
  let f := ((f.govAnswer k p inst).straggler k inst p x c).drift k inst p x
  let mine (r : HealthRow) : Bool := r.gslot == k && r.port == p && decide (r.inst ≤ inst)
  let rows := f.dec.health.filter mine
  let f := { f with dec := { f.dec with health := f.dec.health.filter fun r => !mine r } }
  (rows.foldl (fun f r => f.healthRow r) f).propose k p inst

/-- R319: the decisions for a grid instant. -/
def Fyster.decide_ (f : Fyster) (k inst : Nat) : Fyster :=
  match f.grp k with
  | none => f
  | some x =>
    match x.summary, x.roles.find? fun r => r.level == 0 && !r.standby && r.holder with
    | some c, some r =>
      let ports := r.armedPorts
      let f := ports.foldl (fun f p => f.decideDie k inst x c p) (f.govSync k)
      f.zoomStep k inst x ports
    | _, _ => f

/-- SUMMARY_READ (R269, R319). -/
def execSummaryRead (dt : Nat) (g : GSlot) (inst : Word) (v : List Byte) (s : State) : Host.Outcome State Fault Refusal :=
  .next (onFy dt (fun f =>
    let y := f.summaryTake g.val inst.toNat v
    if y.2 then y.1.decide_ g.val inst.toNat else y.1) s)

/-- The counter list of a sample set of the TU on port `p`, as Fyster knows it (log 56). -/
def setLists (tus : Tab Tu) (p set : Nat) : List Nat := ((tget tus p .reset).set set).list

/-- L1_GATHER_CLOSE (R267, R288, R289). -/
def execL1GatherClose (dt : Nat) (g : GSlot) (inst : Word) (s : State) : Host.Outcome State Fault Refusal :=
  .next (onFy dt (fun f =>
    let y := f.gather g.val inst.toNat (setLists s.tus)
    let done (f : Fyster) : Option Nat := (f.grp g.val).bind (·.gathered)
    if done f = done y then y else y.releaseRows g.val inst.toNat) s)

end Sys2Proof.Machine
end

