-- ==== Sys2Proof/Machine/Gov.lean ====
section
/-! DEFINITION. The governor at the group's root, zoom at the TU, returned dies and signatures (R318, R327 to R334, R338). -/

namespace Sys2Proof.Machine

/-! ### The raise (R328) -/

/-- The loop's raise: ((F - D) / F)^2 as FP32. -/
def Fyster.rhoLoop (f : Fyster) (g : Nat) : Nat :=
  let d := f.rd (0x3300 + g) 3
  let fl := f.rd (0x3300 + g) 4
  if 0 < fl ∧ d < fl then fp32.round .even false ((fl - d) * (fl - d)) (fl * fl) else 0

/-- The raise in force: the pinned value, or the loop's. -/
def Fyster.rhoNow (f : Fyster) (g : Nat) : Nat :=
  if f.part.flag (0x3300 + g) 6 then f.rd (0x3300 + g) 7 else f.rhoLoop g

/-- R328: the root takes the raise in force; a change between zero and non-zero gives a GOVERNOR notice. -/
def Fyster.takeRho (f : Fyster) (g : Nat) : Fyster :=
  match (f.grp g).bind fun x => x.held 2 with
  | none => f
  | some _ =>
    let old := (f.gov g).rho
    let new := f.rhoNow g
    let f := (f.setGov g { f.gov g with rho := new }).wr (0x3300 + g) 5 new
    if (fp32.abs old == 0) == (fp32.abs new == 0) then f
    else
      (f.notify { notice 0x0B f.dieVal g f.ns with
        flags := packNat [(0, 3), (b2n (f.part.flag (0x3300 + g) 6), 1), (1, 1)], value := new }).1

/-- A write of SPARE_POOL_DEPTH or SPARE_POOL_FLOOR. -/
def Fyster.wrSparePool (f : Fyster) (g : Nat) (isFloor : Bool) (v : Nat) : Fyster × Nat :=
  ((f.wr (0x3300 + g) (if isFloor then 4 else 3) v).takeRho g, 0)

/-- SPARE_POOL_WRITE (R328). -/
def execSparePoolWrite (dt : Nat) (lvl : Level) (g : GSlot) (isFloor : Bool) (v : BitVec 32) (s : State) :
    Host.Outcome State Fault Refusal :=
  .next (onFy dt (fun f => f.reply lvl 1 (f.wrSparePool g.val isFloor v.toNat)) s)

/-- A write of GOV_RAISE_PIN (a BOOL) or GOV_RAISE_PIN_VALUE (0.0 to 1.0). -/
def Fyster.wrRaisePin (f : Fyster) (g : Nat) (isValue : Bool) (v : Nat) : Fyster × Nat :=
  let bad := if isValue then fp32.isNan v || !fp32.le 0 v || fp32.lt 0x3F800000 v else decide (1 < v)
  if bad then (f, 0x25) else ((f.wr (0x3300 + g) (if isValue then 7 else 6) v).takeRho g, 0)

/-- GOV_RAISE_PIN_WRITE (R328). -/
def execGovRaisePin (dt : Nat) (lvl : Level) (g : GSlot) (isValue : Bool) (v : BitVec 32) (s : State) :
    Host.Outcome State Fault Refusal :=
  .next (onFy dt (fun f => f.reply lvl 1 (f.wrRaisePin g.val isValue v.toNat)) s)

/-! ### The root's poll (R329, R331, R332) -/

/-- An entry of a request part as the root reads it. -/
structure GovReq where
  tray  : Nat
  slot  : Nat
  eseq  : Nat
  kind  : Nat
  score : Nat
  ts    : Nat
deriving DecidableEq, Repr

/-- The entries of a request part that are in use. -/
def govReqs (tray : Nat) (b : List Byte) : List GovReq :=
  (List.range 4).filterMap fun e =>
    let o := 8 + 24 * e
    if fieldAt b o 4 = 0 then none
    else
      some ({ tray := tray, slot := e, eseq := fieldAt b o 4, kind := fieldAt b (o + 8) 1, score := fieldAt b (o + 12) 4,
              ts := fieldAt b (o + 16) 8 } : GovReq)

/-- R331: fences in TS64 order, ties by tray. -/
def fenceBefore (a b : GovReq) : Bool := decide (a.ts < b.ts) || (a.ts == b.ts && decide (a.tray ≤ b.tray))

/-- R331: quarantines by descending score, then ascending TS64, then ascending tray index. -/
def quarBefore (a b : GovReq) : Bool := fp32.lt b.score a.score || (!fp32.lt a.score b.score && fenceBefore a b)

/-- The answer that an entry has had: GRANTED or COUNTED. -/
def Gov.had (x : Gov) (r : GovReq) : Option Nat :=
  (x.answered.find? fun a => a.1 == r.tray && a.2.1 == r.eseq).map fun a => a.2.2

/-- An entry is counted: a fence, or a quarantine that is granted; `at'`: now. -/
def Gov.count (x : Gov) (r : GovReq) (answer at' : Nat) : Gov :=
  { x with
    window := x.window ++ [at']
    answered := x.answered ++ [(r.tray, r.eseq, answer)]
    grants := if answer = 1 then tset x.grants r.tray ((at' :: tget x.grants r.tray []).take 4) else x.grants }

/-- One entry is answered; `limit`: of the window, none without GOV_ENABLE. -/
def Gov.serve (limit : Option Nat) (at' : Nat) (a : Gov × List (GovReq × Nat)) (r : GovReq) : Gov × List (GovReq × Nat) :=
  match a.1.had r with
  | some n => (a.1, a.2 ++ [(r, n)])
  | none =>
    if r.kind = 2 then (a.1.count r 3 at', a.2 ++ [(r, 3)])
    else if limit.all fun n => decide (a.1.window.length < n) then (a.1.count r 1 at', a.2 ++ [(r, 1)])
    else (a.1, a.2 ++ [(r, 2)])

/-- R332: grant times that a tray's grant part holds, in full time. -/
def grantTimes (now : Nat) (b : List Byte) : List Nat :=
  ((List.range 4).map fun i => fieldAt b (128 + 56 + 8 * i) 8).filterMap fun t => if t = 0 then none else some (fullNs now t)

/-- The grant part of a tray (R331). -/
def Fyster.grantBytes (f : Fyster) (g epoch : Nat) (x : Gov) (tray : Nat) (ans : List (GovReq × Nat)) : List Byte :=
  let one (e : Nat) : List Byte :=
    match ans.find? fun a => a.1.tray == tray && a.1.slot == e with
    | some a => leBytes 8 (packNat [(a.1.eseq, 32), (a.2, 8)])
    | none => leBytes 8 0
  let times := tget x.grants tray []
  (List.range 4).flatMap one ++
    leBytes 24 (packNat [(x.rho, 32), (x.window.length, 16), (f.rd (0x3300 + g) 1, 16), (f.ts, 64), (epoch, 16)]) ++
    (List.range 4).flatMap (fun i => leBytes 8 (ts64Of (times.getD i 0))) ++ leBytes 40 0

/-- R331: one poll of the root holder `r`. -/
def Fyster.govPoll (f : Fyster) (g : Nat) (d : Grp) (r : Role) (reqs : List (Nat × List Byte)) : Fyster :=
  let f := f.takeRho g
  let x := f.gov g
  let x := if r.standby && !x.rebuilt then
      { x with rebuilt := true, window := reqs.flatMap fun q => grantTimes f.ns q.2
               grants := reqs.foldl (fun m q => tset m q.1 (grantTimes f.ns q.2)) [] }
    else x
  let all := reqs.flatMap fun q => govReqs q.1 q.2
  let x := { x with
    pollAt := f.ns
    window := x.window.filter fun t => decide (f.ns < t + 1000000000 * f.rd (0x3300 + g) 2)
    answered := x.answered.filter fun a => all.any fun q => q.tray == a.1 && q.eseq == a.2.1 }
  let limit := if f.part.flag (0x3300 + g) 0x0C then some (f.rd (0x3300 + g) 1) else none
  let order := sortBy fenceBefore (all.filter fun q => q.kind == 2) ++ sortBy quarBefore (all.filter fun q => q.kind == 1)
  let y := order.foldl (Gov.serve limit f.ns) (x, [])
  let f := (f.setGov g y.1).wr (0x3300 + g) 8 (y.1.window.length % 65536)
  let f := ((dSections d.desc).flatMap (·.trays)).foldl (fun f e =>
    f.remote e.tray e.base (roleArea g 0 + govGrant) (f.grantBytes g r.epoch y.1 e.tray y.2) 0) f
  let pin := f.rd (0x3300 + g) 7
  let loop := f.rhoLoop g
  f.contestStep (2 ^ 40 + g) 2 0xFF d.id g loop pin (f.ns - 1000 * f.rd (0x3300 + g) 9) f.ns
    (f.part.flag (0x3300 + g) 6 && loop != pin)

/-- GOV_POLL (R331). -/
def execGovPoll (dt : Nat) (g : GSlot) (reqs : List (Nat × List Byte)) (s : State) : Host.Outcome State Fault Refusal :=
  .next (onFy dt (fun f =>
    match f.grp g.val with
    | none => f
    | some d =>
      match d.held 2 with
      | none => f
      | some r =>
        if samplingOnly d.period ∨ f.ns < (f.gov g.val).pollAt + 1000 * f.rd (0x3300 + g.val) 9 then f
        else f.govPoll g.val d r reqs) s)

/-! ### Returned dies (R318) -/

/-- A write of DIE_RETURNED: a die of this tray leaves QUAR_REQUESTED or FENCED. -/
def Fyster.wrDieReturned (f : Fyster) (g die : Nat) : Fyster × Nat :=
  match f.portOfDie die with
  | none => (f, 0)
  | some p =>
    let d := f.die g p
    (if d.dstate = 3 ∨ d.dstate = 4 then f.setDie g p { d with dstate := d.base } else f, 0)

/-- DIE_RETURNED_WRITE (R318). -/
def execDieReturned (dt : Nat) (lvl : Level) (g : GSlot) (die : BitVec 32) (s : State) : Host.Outcome State Fault Refusal :=
  .next (onFy dt (fun f => f.reply lvl 1 (f.wrDieReturned g.val die.toNat)) s)

/-! ### Signatures (R338) -/

/-- The taint of a serial and the serial of its CORRUPTION notice, as far as Fyster still holds them. -/
def Fyster.taintOf (f : Fyster) (p serial : Nat) : Option Rec × Nat :=
  match f.dec.taints.reverse.find? fun t => t.1 == p && t.2.1.fld 672 32 == serial with
  | some t => (some t.2.1, t.2.2)
  | none => (none, 0)

/-- R338: TR_SIGNATURE of a SIGNATURE record with the outcome that is known. -/
def Fyster.signNow (f : Fyster) (p : Nat) (s : Rec) (outcome : Nat) : Fyster :=
  let t := f.taintOf p (s.fld 224 32)
  f.signature p s t.1 outcome t.2

/-- R338: a SIGNATURE or REPLAY record of the TU on port `p` arrives. -/
def Fyster.signatureRx (f : Fyster) (p : Nat) (r : Rec) : Fyster :=
  if r.fld 192 8 = 4 then
    match f.dec.replays.find? fun x => x.1 == p && x.2.fld 224 32 == r.fld 224 32 with
    | some x => f.signNow p r (x.2.fld 200 4)
    | none =>
      { f with dec := { f.dec with sigs := f.dec.sigs ++ [{ port := p, serial := r.fld 224 32, r := r, since := f.ns }] } }
  else
    let f := { f with dec := { f.dec with replays := lastN 64 (f.dec.replays ++ [(p, r)]) } }
    match f.dec.sigs.find? fun x => x.port == p && x.serial == r.fld 224 32 with
    | none => f
    | some x =>
      let f := { f with dec := { f.dec with sigs := f.dec.sigs.filter fun y => y != x } }
      f.signNow p x.r (r.fld 200 4)

/-- SIG_WAIT_TIMEOUT (R338). -/
def execSigWaitTimeout (dt : Nat) (p : Port) (serial : BitVec 32) (s : State) : Host.Outcome State Fault Refusal :=
  .next (onFy dt (fun f =>
    match f.dec.sigs.find? fun x => x.port == p.val && x.serial == serial.toNat with
    | none => f
    | some x =>
      if f.ns < x.since + 1000000 * f.rd 0x33C0 8 then f
      else { f with dec := { f.dec with sigs := f.dec.sigs.filter fun y => y != x } }.signNow p.val x.r 0) s)

/-! ### Zoom at the TU (R327) -/

/-- A ZOOM notice at the TU: the loop's request of every set that follows its GSLOT, each answered with ZOOM_STATE. -/
def Tu.zoomNotice (t : Tu) (r : Rec) : Tu :=
  let z := if r.fld 200 8 = 1 then r.fld 640 64 else 0
  ((List.range 16).filter fun k => (t.set k).follow && (t.set k).gslot == r.gslot).foldl (fun t k =>
    (t.setSet k { t.set k with loopZ := z }).zoomState k false) t

/-- ZOOM_NOTICE_RX (R327). -/
def execZoomNoticeRx (dt : Nat) (p : Port) (r : Rec) (s : State) : Host.Outcome State Fault Refusal :=
  .next (onTu p dt (fun t => if r.type = 0x10 ∧ r.fld 192 8 = 9 then t.zoomNotice r else t) s)

end Sys2Proof.Machine
end

