-- ==== Sys2Proof/Machine/Crc.lean ====
section
/-! DEFINITION. The commands of the CRC units with registers (R77, R78, R229, R440) and the loss reports (R82). -/

namespace Sys2Proof.Machine

/-- The key of a CRC unit on Fyster or a TU; none where the part has no such unit. -/
def crcKey (fyster : Bool) : CrcId → Option Nat
  | .snapshot => some (if fyster then 0x6810 else 0x2810)
  | .sumac e => if fyster then some (0x4810 + e.val) else if e = 0 then some 0x2801 else none
  | .model s => if fyster then some (0x4420 + s.val) else none
  | .dump ch => if fyster then some (0x6820 + ch.val) else none
  | .tlTx => if fyster then none else some 1
  | .tlRx => if fyster then none else some 2

/-- A unit in the link's path: it never pauses (R440). -/
def crcInPath (k : Nat) : Bool := decide (k < 3)

/-- CHANNEL of a unit (R77). -/
def crcChannel (k : Nat) : Nat :=
  if 0x4810 ≤ k ∧ k < 0x4815 then k - 0x4810
  else if 0x4420 ≤ k ∧ k < 0x4423 then k - 0x4420
  else if 0x6820 ≤ k ∧ k < 0x6824 then k - 0x6820
  else 0

/-- CRC_CTRL as it reads (R77). -/
def Part.crcCtrl (p : Part) (k : Nat) : Nat :=
  let u := p.crcUnit k
  packNat [(b2n u.enable, 1), (b2n u.pause, 1), (b2n u.paused, 1), (0, 5), (crcChannel k, 8)]

/-- The part with a CRC unit replaced. -/
def Part.setCrc (p : Part) (k : Nat) (u : CrcUnit) : Part := { p with crc := tset p.crc k u }

/-- R77, R78: a write to CRC_CTRL: ENABLE and PAUSE where they are written, and INIT. -/
def Part.crcControl (p : Part) (k : Nat) (enable pause : Option Bool) (init : Bool) : Part × Nat :=
  let u := p.crcUnit k
  let pause := if crcInPath k then none else pause
  if pause == some true && u.busy then (p, 0x27)
  else
    let u := { u with enable := enable.getD u.enable }
    let u : CrcUnit := match pause with
      | some true => { u with pause := true }
      | some false => { u with pause := false, paused := false }
      | none => u
    (p.setCrc k (if init then u.init else u), 0)

/-- R78: the channel has come to rest. -/
def Part.crcRest (p : Part) (k : Nat) : Part :=
  let u := p.crcUnit k
  if u.pause && !u.busy && !crcInPath k then p.setCrc k { u with paused := true } else p

/-- R78, R440: a write of CRC_VALUE or CRC_LENGTH; `down`: the TL is down. -/
def Part.crcRestore (p : Part) (k : Nat) (isLength : Bool) (v : Nat) (down : Bool) : Part × Nat :=
  let u := p.crcUnit k
  if !(if crcInPath k then down else u.paused) then (p, 0x27)
  else
    let u : CrcUnit := if isLength then { u with length := v } else { u with value := BitVec.ofNat 32 v }
    (p.setCrc k u, 0)

/-- A TU after a write to a CRC unit of its own. -/
def Tu.onCrc (t : Tu) (u : CrcId) (g : Nat → Part → Part × Nat) : Tu × Nat :=
  match crcKey false u with
  | some k => let y := g k t.part; ({ t with part := y.1 }, y.2)
  | none => (t, 0x20)

/-- R78: a channel that is no longer paused goes on. -/
def Fyster.crcResume (f : Fyster) (k : Nat) : Fyster :=
  if 0x4420 ≤ k ∧ k < 0x4423 then f.stageFeed (k - 0x4420) else f

/-- Fyster after a write to a CRC unit of its own. -/
def Fyster.onCrc (f : Fyster) (u : CrcId) (g : Nat → Part → Part × Nat) : Fyster × Nat :=
  match crcKey true u with
  | some k => let y := g k f.part; ({ f with part := y.1 }.crcResume k, y.2)
  | none => (f, 0x20)

/-- CRC_ENABLE (R77). -/
def execCrcEnable (dt : Nat) (n : Node) (lvl : Level) (u : CrcId) (v : Bool) (s : State) : Host.Outcome State Fault Refusal :=
  .next (onNode n dt (fun _ t => t.reply lvl 1 (t.onCrc u fun k p => p.crcControl k (some v) none false))
    (fun f => f.reply lvl 1 (f.onCrc u fun k p => p.crcControl k (some v) none false)) s)

/-- CRC_PAUSE (R78). -/
def execCrcPause (dt : Nat) (n : Node) (lvl : Level) (u : CrcId) (v : Bool) (s : State) : Host.Outcome State Fault Refusal :=
  .next (onNode n dt (fun _ t => t.reply lvl 1 (t.onCrc u fun k p => p.crcControl k none (some v) false))
    (fun f => f.reply lvl 1 (f.onCrc u fun k p => p.crcControl k none (some v) false)) s)

/-- CRC_PAUSED (R78). -/
def execCrcPaused (dt : Nat) (n : Node) (u : CrcId) (s : State) : Host.Outcome State Fault Refusal :=
  .next (onNode n dt (fun _ t => (t.onCrc u fun k p => (p.crcRest k, 0)).1) (fun f => (f.onCrc u fun k p => (p.crcRest k, 0)).1) s)

/-- CRC_INIT (R77). -/
def execCrcInit (dt : Nat) (n : Node) (lvl : Level) (u : CrcId) (s : State) : Host.Outcome State Fault Refusal :=
  .next (onNode n dt (fun _ t => t.reply lvl 1 (t.onCrc u fun k p => p.crcControl k none none true))
    (fun f => f.reply lvl 1 (f.onCrc u fun k p => p.crcControl k none none true)) s)

/-- CRC_VALUE_WRITE (R78). -/
def execCrcValueWrite (dt : Nat) (n : Node) (lvl : Level) (u : CrcId) (isLength : Bool) (v : Word) (s : State) :
    Host.Outcome State Fault Refusal :=
  .next (onNode n dt (fun _ t => t.reply lvl 1 (t.onCrc u fun k p => p.crcRestore k isLength v.toNat (t.link.st != .up)))
    (fun f => f.reply lvl 1 (f.onCrc u fun k p => p.crcRestore k isLength v.toNat false)) s)

/-! ### Loss reports (R82, R83) -/

/-- The payload of TR_LOSS: cause, activity, TL port and the accumulator. -/
def lossPay (cause activity port : Nat) (a : LossAcc) : List Word :=
  payload 5 [(cause, 8), (activity, 8), (a.lstream.getD 0xFFFF, 16), (port, 8), (0, 24), (a.records, 64), (a.bytes, 64),
    (a.first, 64), (a.last, 64)]

/-- An accumulator once a TR_LOSS has restated it: a new interval begins. -/
def LossAcc.restart (a : LossAcc) (now : Nat) : LossAcc :=
  { a with first := 0, last := 0, lstream := none, fresh := false, reported := now }

/-- R82: at the end of a period: the accumulator after it, and whether a TR_LOSS is due. -/
def LossAcc.period (a : LossAcc) (now intervalUs : Nat) : LossAcc × Bool :=
  if a.fresh then
    if !a.active || decide (a.reported + 1000 * intervalUs ≤ now) then ({ a.restart now with active := true }, true)
    else ({ a with fresh := false }, false)
  else if a.active then ({ a.restart now with active := false }, true)
  else (a, false)

/-- An accumulator of a part. -/
def Part.acc (p : Part) (who cause : Nat) : LossAcc := tget p.loss (lossKey who cause) .zero

/-- The part with an accumulator replaced. -/
def Part.setAcc (p : Part) (who cause : Nat) (a : LossAcc) : Part := { p with loss := tset p.loss (lossKey who cause) a }

/-- R82: a TU's accumulator of an activity and a cause. -/
def Tu.lossReport (t : Tu) (activity cause : Nat) : Tu :=
  let a := t.part.acc activity cause
  let y := a.period t.ns (t.rd 0x2110 0x10)
  let t := { t with part := t.part.setAcc activity cause y.1 }
  if y.2 then t.sendFree (t.mkRec 0x0C selfStream 224 0xFF t.ns (lossPay cause activity 0xFF a)) else t

/-- Fyster's TR_LOSS of a TL port and a cause. -/
def Fyster.lossRec (f : Fyster) (port cause : Nat) : Rec :=
  f.mkRec 0x0C selfStream 514 0xFF f.ns (lossPay cause 0xFF port (f.part.acc port cause))

/-- R82: Fyster's accumulator of a TL port and a cause. -/
def Fyster.lossReport (f : Fyster) (port cause : Nat) : Fyster :=
  let y := (f.part.acc port cause).period f.ns (f.rd 0x1160 1)
  let r := f.lossRec port cause
  let f := { f with part := f.part.setAcc port cause y.1 }
  if y.2 then (f.own r).observe port r else f

/-- LOSS_REPORT (R82). -/
def execLossReport (dt : Nat) (n : Node) (cause : Fin 10) (acc : Nat) (s : State) : Host.Outcome State Fault Refusal :=
  .next (onNode n dt (fun _ t => t.lossReport acc cause.val) (fun f => f.lossReport acc cause.val) s)

end Sys2Proof.Machine
end

