-- ==== Sys2Proof/Machine/Events.lean ====
section
/-! DEFINITION. The event recorder's commands, the flush to NOR, and the mailbox channels (R368 to R384). -/

namespace Sys2Proof.Machine

/-! ### Recorder (R379, R381, R382) -/

/-- R379: the newest record has grown and a second has passed since it was last offered. -/
def Recorder.updateDue (r : Recorder) (now : Nat) : Bool := r.grown && r.mergeable && decide (r.offeredAt + 1000000000 ≤ now)

/-- R379: a TU offers the grown record as UPDATE. -/
def Tu.evrUpdate (t : Tu) : Tu :=
  match t.part.evr.newest with
  | none => t
  | some n =>
    if !t.part.evr.updateDue t.ts then t
    else
      let t := { t with part := { t.part with evr := { t.part.evr with grown := false, offeredAt := t.ts } } }
      let r := { t.mkRec 0x0A selfStream n.unit n.gslot t.ns (eventPay true n) with ts64 := n.last }
      (t.offer 5 2 20000 [if n.late then r.setFlag 3 else r]).1

/-- R379: Fyster writes the grown record as UPDATE. -/
def Fyster.evrUpdate (f : Fyster) : Fyster :=
  match f.part.evr.newest with
  | none => f
  | some n =>
    if !f.part.evr.updateDue f.ts then f
    else
      let f := { f with part := { f.part with evr := { f.part.evr with grown := false, offeredAt := f.ts } } }
      let r := { f.mkRec 0x0A selfStream n.unit n.gslot f.ns (eventPay true n) with ts64 := n.last }
      f.own (if n.late then r.setFlag 3 else r)

/-- EVR_UPDATE_TIMER (R379). -/
def execEvrUpdateTimer (dt : Nat) (n : Node) (s : State) : Host.Outcome State Fault Refusal :=
  .next (onNode n dt (fun _ t => t.evrUpdate) (fun f => f.evrUpdate) s)

/-- A write of EVR_CLEAR at a TU. -/
def Tu.wrEvrClear (t : Tu) (n : Nat) : Tu × Nat :=
  if t.part.evr.total < n then (t, 0x25)
  else
    let y := t.part.evr.clear n
    ({ t with part := { t.part with evr := y.1 } }.log (event 0x0001 224 0 y.2), 0)

/-- A write of EVR_CLEAR at Fyster. -/
def Fyster.wrEvrClear (f : Fyster) (n : Nat) : Fyster × Nat :=
  if f.part.evr.total < n then (f, 0x25)
  else
    let y := f.part.evr.clear n
    ({ f with part := { f.part with evr := y.1 } }.log (event 0x0001 512 0 y.2), 0)

/-- EVR_CLEAR (R381). -/
def execEvrClear (dt : Nat) (n : Node) (v : Word) (s : State) : Host.Outcome State Fault Refusal :=
  .next (onNode n dt (fun _ t => t.reply .observe 0 (t.wrEvrClear v.toNat)) (fun f => f.reply .observe 0 (f.wrEvrClear v.toNat)) s)

/-! ### The flush to NOR (R383, R384) -/

/-- R384: the erased flush slots. -/
def Fyster.erasedSlots (f : Fyster) : List Nat :=
  (List.range 4).filter fun s => (tfind f.flushNor s).isNone && !f.norTorn.contains s && f.norSlot != some s

/-- R383, R384: the trigger of a flush of Fyster's recorder; cause 1 PFAIL, 3 SOFTWARE, 4 FAULT. On PFAIL the recorder freezes
1 ms later, otherwise at once. -/
def Fyster.flush (f : Fyster) (cause : Nat) : Fyster :=
  if f.part.evr.flush.isSome then f.bump 0x6000 9 1
  else
    match f.erasedSlots with
    | [] => f.counted 512 0x6000 9 1
    | s :: _ =>
      let f := f.log (event 0x0002 512 cause f.part.evr.log.length)
      let x : Flush := { cause := cause, at64 := f.ts, records := [], parts := [] }
      { f with norSlot := some s, part := { f.part with evr := { f.part.evr with flush := some x, frozen := cause != 1 } } }

/-- FLUSH_SERIAL of the next flush: flushes since manufacture. -/
def Fyster.nextFlush (f : Fyster) : Nat := f.flushNor.foldl (fun n e => max n e.2.serial) 0 + 1

/-- R384: the header is written and the flush has ended. -/
def Fyster.norWritten (f : Fyster) : Fyster :=
  match f.norSlot, f.part.evr.flush with
  | some s, some x =>
    let e := f.part.evr
    let n : NorFlush :=
      { serial := f.nextFlush, cause := x.cause, at64 := x.at64, sec := fullNs f.ns x.at64 / 1000000000, epoch := f.resetEpoch,
        ownFirst := e.firstNo, own := e.log, ports := f.images.map fun e => (e.1, e.2.recs) }
    let hold := x.cause == 1 && f.boot.pfail
    { f with
      flushNor := tset f.flushNor s n, norSlot := none
      part := { f.part with evr := { e with flush := none, frozen := hold } } }.bump 0x6000 8 1
  | _, _ => f

/-- The 172 bytes of a flush header that HDR_CRC covers (R384). -/
def NorFlush.head (n : NorFlush) : List Byte :=
  leBytes 44 (packNat [(0x45564C46, 32), (n.serial, 32), (n.cause, 8), (0, 56), (n.at64, 64), (n.sec, 64), (n.epoch, 32),
    (n.own.length, 32), (n.ownFirst, 32)]) ++ (List.range 32).flatMap fun p => leBytes 4 (tget n.ports p []).length

/-- A region that reads as erased beyond its bytes. -/
def norRegion (size : Nat) (bs : List Byte) : List Byte := bs ++ List.replicate (size - bs.length) 0xFF

/-- The bytes of a flush slot (R384); an erased byte reads 0xFF (log 63). -/
def NorFlush.bytes (n : NorFlush) : List Byte :=
  norRegion 4096 (n.head ++ leBytes 4 (crc32c n.head)) ++ norRegion 1048576 (n.own.flatMap EvRec.bytes) ++
    (List.range 32).flatMap fun p => norRegion 32768 ((tget n.ports p []).flatMap EvRec.bytes)

/-- R384: firmware's erase completes: the slot with the lowest FLUSH_SERIAL, while no slot is erased. -/
def Fyster.eraseDone (f : Fyster) : Fyster :=
  if !f.boot.running || !f.erasedSlots.isEmpty then f
  else
    match sortBy (fun (a b : Nat × NorFlush) => decide (a.2.serial ≤ b.2.serial)) f.flushNor with
    | e :: _ => { f with flushNor := tdel f.flushNor e.1 }
    | [] => { f with norTorn := f.norTorn.drop 1 }

/-- NOR_SLOT_ERASE_DONE (R384). -/
def execNorSlotEraseDone (dt : Nat) (s : State) : Host.Outcome State Fault Refusal := .next (onFy dt (fun f => f.eraseDone) s)

/-- A write of EVR_FLUSH at a TU. -/
def Tu.wrEvrFlush (t : Tu) (v : Nat) : Tu × Nat := if 1 < v then (t, 0x26) else (if v = 1 then t.flush 3 else t, 0)

/-- A write of EVR_FLUSH at Fyster. -/
def Fyster.wrEvrFlush (f : Fyster) (v : Nat) : Fyster × Nat := if 1 < v then (f, 0x26) else (if v = 1 then f.flush 3 else f, 0)

/-- EVR_FLUSH (R382, R383). -/
def execEvrFlush (dt : Nat) (n : Node) (lvl : Level) (v : Byte) (s : State) : Host.Outcome State Fault Refusal :=
  .next (onNode n dt (fun _ t => t.reply lvl 1 (t.wrEvrFlush v.toNat)) (fun f => f.reply lvl 1 (f.wrEvrFlush v.toNat)) s)

/-- R382: a record is a TR_EVENT SINGLE of code PFAIL. -/
def isPfailEvent (r : Rec) : Bool := r.type == 0x0A && r.fld 192 8 == 1 && r.fld 256 16 == 3

/-- PFAIL_EVENT_RX (R382). -/
def execPfailEventRx (dt : Nat) (p : Port) (r : Rec) (s : State) : Host.Outcome State Fault Refusal :=
  .next (onTu p dt (fun t => if isPfailEvent r then t.flush 1 else t) s)

/-! ### Mailbox channels (R368 to R375) -/

/-- Number of channels of a TU. -/
def tuChannels : Nat := 8

/-- PORT of a stamp (R370). -/
def stampPort (stamp : BitVec 32) : Nat := stamp.toNat % 256

/-- R369: a write that is no doorbell at a TU. -/
def Tu.badDoorbell (t : Tu) (c : Nat) (stamp : BitVec 32) : Tu :=
  (t.bump (0x6110 + c) 5 1).log (event 0x0005 224 c stamp.toNat)

/-- R369 at a TU: a write to the send address of channel `c`. -/
def Tu.doorbell (t : Tu) (c : Nat) (stamp : BitVec 32) (v : List Byte) : Tu :=
  if tuChannels ≤ c then t.emit .addressError
  else if v.length ≠ 64 ∨ (t.chan c).out = true then t.badDoorbell c stamp
  else (t.putChan c { t.chan c with ackIrq := false }).enqueueMsg c v stamp |>.1

/-- R413: an inbound fabric access that Fyster does not accept. -/
def Fyster.fabricRefuse (f : Fyster) : Fyster := (f.emit .addressError).counted 512 0x1170 3 1

/-- R369, R413, R416 at Fyster: a write to the send address of channel `c`. The management cores write to OUT channels as
well; a message there raises vector `c`. -/
def Fyster.doorbell (f : Fyster) (c : Nat) (stamp : BitVec 32) (v : List Byte) : Fyster :=
  let out := (f.chan c).out
  if stampPort stamp = 0x12 ∧ f.rd 0x1170 2 = 0 then f.fabricRefuse
  else if v.length ≠ 64 ∨ (out = true ∧ stampPort stamp ≠ 0x13) then
    (f.bump (0x6110 + c) 5 1).log (event 0x0005 512 c stamp.toNat)
  else
    let y := (f.putChan c { f.chan c with ackIrq := false }).enqueueMsg c v stamp
    if out && y.2 then y.1.emit (.msix c) else y.1

/-- MBOX_DOORBELL (R369). -/
def execMboxDoorbell (dt : Nat) (n : Node) (ch : Fin 64) (stamp : BitVec 32) (v : List Byte) (s : State) :
    Host.Outcome State Fault Refusal :=
  .next (onNode n dt (fun _ t => t.doorbell ch.val stamp v) (fun f => f.doorbell ch.val stamp v) s)

/-- R372: a channel after its head message is acknowledged; none with an empty queue. -/
def Channel.acknowledge (x : Channel) (rcode : BitVec 16) (reply : List Byte) : Option (Channel × Msg) :=
  match x.queue with
  | [] => none
  | m :: rest =>
    some ({ x with
      queue := rest, ackCode := rcode, ackMseq := BitVec.ofNat 16 m.mseq, ackSender := m.stamp, ackIrq := true
      reply := slice (reply ++ List.replicate 64 0) 0 64 }, m)

/-- R372 at a TU; firmware's answer to REPLAY_REQ reaches Mace (R182). -/
def Tu.ack (t : Tu) (c : Nat) (rcode : BitVec 16) (reply : List Byte) : Tu :=
  match (t.chan c).acknowledge rcode reply with
  | none => t.bump (0x6110 + c) 5 1
  | some (x, m) =>
    let t := t.putChan c x
    if x.out && fieldAt m.body 0 1 == 0x51 then t.replayAnswer (fieldAt m.body 4 4) rcode.toNat else t

/-- R372 at Fyster; an acknowledgement on an IN channel raises its vector. -/
def Fyster.ack (f : Fyster) (c : Nat) (rcode : BitVec 16) (reply : List Byte) : Fyster :=
  match (f.chan c).acknowledge rcode reply with
  | none => f.bump (0x6110 + c) 5 1
  | some (x, _) =>
    let f := f.putChan c x
    if x.out then f else f.emit (.msix c)

/-- MBOX_ACK (R372). -/
def execMboxAck (dt : Nat) (n : Node) (ch : Fin 64) (rcode : BitVec 16) (reply : List Byte) (s : State) :
    Host.Outcome State Fault Refusal :=
  .next (onNode n dt (fun _ t => if tuChannels ≤ ch.val then t.emit .addressError else t.ack ch.val rcode reply)
    (fun f => f.ack ch.val rcode reply) s)

/-- IDLE_INTENT_WRITE (R374, R375). -/
def execIdleIntentWrite (dt : Nat) (n : Node) (ch : Fin 64) (v : Bool) (s : State) : Host.Outcome State Fault Refusal :=
  .next (onNode n dt
    (fun _ t => if tuChannels ≤ ch.val then t.emit .addressError else t.putChan ch.val { t.chan ch.val with idleIntent := v })
    (fun f => f.putChan ch.val { f.chan ch.val with idleIntent := v }) s)

/-- A write of CH_DIR at a TU (R368). -/
def Tu.wrChDir (t : Tu) (c v : Nat) : Tu × Nat :=
  if tuChannels ≤ c then (t, 0x20)
  else
    let x := t.chan c
    let a := lowestAbort [(decide (1 < v), 0x26), (!x.queue.isEmpty || (v == 0 && t.rd 0x2900 9 == c), 0x27)]
    if a ≠ 0 then (t, a) else (t.putChan c { x with out := v == 1 }, 0)

/-- A write of CH_DIR at Fyster (R368). -/
def Fyster.wrChDir (f : Fyster) (c v : Nat) : Fyster × Nat :=
  let x := f.chan c
  let a := lowestAbort [(decide (1 < v), 0x26), (!x.queue.isEmpty, 0x27)]
  if a ≠ 0 then (f, a) else (f.putChan c { x with out := v == 1 }, 0)

/-- CH_DIR_WRITE (R368). -/
def execChDirWrite (dt : Nat) (n : Node) (lvl : Level) (ch : Fin 64) (v : Byte) (s : State) : Host.Outcome State Fault Refusal :=
  .next (onNode n dt (fun _ t => t.reply lvl 1 (t.wrChDir ch.val v.toNat)) (fun f => f.reply lvl 1 (f.wrChDir ch.val v.toNat)) s)

/-- A write of TAINT_MBOX_CH (R368). -/
def Tu.wrTaintMbox (t : Tu) (v : Nat) : Tu × Nat :=
  let a := lowestAbort [(decide (7 < v), 0x25), (!(t.chan v).out, 0x27)]
  if a ≠ 0 then (t, a) else (t.wr 0x2900 9 v, 0)

/-- TAINT_MBOX_CH_WRITE (R368). -/
def execTaintMboxChWrite (dt : Nat) (p : Port) (lvl : Level) (v : Byte) (s : State) : Host.Outcome State Fault Refusal :=
  .next (onTu p dt (fun t => t.reply lvl 1 (t.wrTaintMbox v.toNat)) s)

end Sys2Proof.Machine
end

