-- ==== Sys2Proof/Machine/Answer.lean ====
section
/-! DEFINITION. Messages of the Thotus dictionary protocol as Fyster sends them (R349, R350), its answers and aborts (R353,
R360, R361), mailbox replies (R373), and what becomes of a TU's answer to a relayed access (R354, R447). -/

namespace Sys2Proof.Machine

/-! ### Messages (R349) -/

/-- Header fields of a message that Fyster sends. -/
structure TdpOut where
  mtype   : Nat
  session : Nat
  seq     : Nat
  node    : Nat
  tagged  : Bool
  abort   : Nat
  index   : Nat
  sub     : Nat
  type    : Nat
  ts      : Nat
deriving DecidableEq, Repr

/-- The message up to its tag; `vlen`: value bytes as the header counts them (log 67). -/
def TdpOut.bytes (h : TdpOut) (vlen : Nat) (value : List Byte) : List Byte :=
  let v := padTo 8 value
  leBytes 32 (packNat [(1, 8), (h.mtype, 8), (32 + v.length + (if h.tagged then 16 else 0), 16), (h.session, 32), (h.seq, 32),
    (h.node, 8), (b2n h.tagged, 1), (0, 1), (0, 6), (h.abort, 16), (h.index, 16), (h.sub, 8), (h.type, 8), (vlen, 32),
    (h.ts, 64)]) ++ v

/-- R353: a kept message with REPEAT set. -/
def asRepeat (bs : List Byte) : List Byte :=
  match bs.drop 13 with
  | b :: r => bs.take 13 ++ (b ||| 2) :: r
  | [] => bs

/-- A message leaves; its tag, a MAC under a key that stays in the security block, is a free value (R351). -/
def Fyster.sendDatagram (f : Fyster) (dst : BitVec 128) (port : BitVec 16) (tagged : Bool) (bs : List Byte) : Fyster :=
  if tagged then
    let a := f.free
    let b := a.1.free
    b.1.emit (.datagram dst port (bs ++ wordBytes a.2 ++ wordBytes b.2))
  else f.emit (.datagram dst port bs)

/-! ### Sessions and sources (R351, R352, R361) -/

/-- A session that AUTH_ACK has opened. -/
def Fyster.session? (f : Fyster) (id : Nat) : Option Session := f.sessions.find? fun s => s.id == id && s.live

/-- Fyster with a session changed. -/
def Fyster.modSession (f : Fyster) (id : Nat) (g : Session → Session) : Fyster :=
  { f with sessions := f.sessions.map fun (s : Session) => if s.id = id then g s else s }

/-- A source address that has done nothing yet. -/
def Source.new (a : BitVec 128) : Source := { addr := a, fails := [], locked := none, times := [], aborts := [] }

/-- What Fyster knows of a source address. -/
def Fyster.source (f : Fyster) (a : BitVec 128) : Source := (f.sources.find? fun s => s.addr == a).getD (.new a)

/-- Fyster with a source replaced. -/
def Fyster.putSource (f : Fyster) (s : Source) : Fyster :=
  { f with sources := (f.sources.filter fun (x : Source) => x.addr != s.addr) ++ [s] }

/-- Times that lie within the last `ms` milliseconds. -/
def recentMs (now ms : Nat) (l : List Nat) : List Nat := l.filter fun t => decide (now < t + ms * 1000000)

/-! ### Answers -/

/-- The request that an answer belongs to. -/
structure Ask where
  session : Nat
  src     : BitVec 128
  port    : BitVec 16
  seq     : Nat
  mtype   : Nat
  node    : Nat
  index   : Nat
  sub     : Nat
deriving DecidableEq, Repr

/-- R350: the answer type of a request; a segment or acknowledgement has none of its own. -/
def answerType (mtype : Nat) : Nat :=
  match mtype with
  | 0x05 => 0x06 | 0x10 => 0x11 | 0x12 => 0x13 | 0x20 => 0x22 | 0x21 => 0x22 | 0x25 => 0x26 | 0x30 => 0x31 | 0x32 => 0x31
  | _ => 0x3F

/-- The 16 answers that a session keeps, with one more (R353). -/
def keepAnswer (l : List Kept) (k : Kept) : List Kept := (l ++ [k]).drop (l.length + 1 - 16)

/-- The header of a message to the sender of a request, tagged if it belongs to an open session (R351). -/
def Fyster.outHead (f : Fyster) (a : Ask) (mtype abort type ts : Nat) : TdpOut :=
  { mtype := mtype, session := a.session, seq := a.seq, node := a.node, tagged := (f.session? a.session).isSome, abort := abort,
    index := a.index, sub := a.sub, type := type, ts := ts }

/-- R361: log an abort of a request from an address. -/
def Fyster.logAbort (f : Fyster) (a : Ask) (abort : Nat) : Fyster :=
  f.log (event (0x0200 + abort) 512 (a.src.toNat % 2 ^ 32) (a.mtype % 256 * 256))

/-- R361: an abort answer leaves unless its source has had its number of them in the last second. -/
def Fyster.sendAbort (f : Fyster) (a : Ask) (tagged : Bool) (bs : List Byte) : Fyster :=
  let s := f.source a.src
  let recent := recentMs f.ns 1000 s.aborts
  if f.rd 0x1100 7 ≤ recent.length then (f.putSource { s with aborts := recent }).bump 0x1101 4 1
  else ((f.putSource { s with aborts := recent ++ [f.ns] }).bump 0x1101 3 1).sendDatagram a.src a.port tagged bs

/-- R352, R359: a session ends, and with it its transfers and subscriptions. -/
def Fyster.closeSession (f : Fyster) (id : Nat) : Fyster :=
  { f with
    sessions := f.sessions.filter fun (s : Session) => s.id != id
    xfers := f.xfers.filter fun (x : Xfer) => x.session != id
    subs := f.subs.filter fun (x : Sub) => x.session != id }

/-- R352: the answer to SEQ 0xFFFFFFFF ends the session. -/
def Fyster.closeIfLast (f : Fyster) (a : Ask) : Fyster := if a.seq = 0xFFFFFFFF then f.closeSession a.session else f

/-- A request is answered with its own answer type, value or abort code, and the answer is kept (R353); a session that has ended
gets no answer. -/
def Fyster.answer (f : Fyster) (a : Ask) (abort type ts : Nat) (value : List Byte) : Fyster :=
  if a.session ≠ 0 ∧ (f.session? a.session).isNone = true then f
  else
    let h := f.outHead a (answerType a.mtype) abort type ts
    let bs := h.bytes value.length value
    let f := f.modSession a.session fun s => { s with kept := keepAnswer s.kept { seq := a.seq, bytes := bs } }
    (if abort = 0 then f.sendDatagram a.src a.port h.tagged bs else (f.logAbort a abort).sendAbort a h.tagged bs).closeIfLast a

/-- A request that fails before its own answer type applies (R350). `keep`: the answer is one of a performed request. -/
def Fyster.refuse (f : Fyster) (a : Ask) (tagged keep : Bool) (abort : Nat) : Fyster :=
  let h := { f.outHead a 0x3F abort 0 f.ts with tagged := tagged && (f.session? a.session).isSome }
  let bs := h.bytes 0 []
  let f := if keep then f.modSession a.session fun s => { s with kept := keepAnswer s.kept { seq := a.seq, bytes := bs } } else f
  let f := (f.logAbort a abort).sendAbort a h.tagged bs
  if keep then f.closeIfLast a else f

/-! ### Block transfers (R355 to R358) -/

/-- A transfer. -/
def Fyster.xfer? (f : Fyster) (id : Nat) : Option Xfer := f.xfers.find? fun x => x.id == id

/-- Fyster with a transfer changed. -/
def Fyster.modXfer (f : Fyster) (id : Nat) (g : Xfer → Xfer) : Fyster :=
  { f with xfers := f.xfers.map fun (x : Xfer) => if x.id = id then g x else x }

/-- Fyster without a transfer. -/
def Fyster.dropXfer (f : Fyster) (id : Nat) : Fyster := { f with xfers := f.xfers.filter fun (x : Xfer) => x.id != id }

/-- A message of a transfer as an answer to its session. -/
def Fyster.xferAsk (f : Fyster) (x : Xfer) (mtype seq : Nat) : Ask :=
  let s := f.session? x.session
  { session := x.session, src := (s.map (·.src)).getD 0, port := (s.map (·.port)).getD 0, seq := seq, mtype := mtype,
    node := x.node, index := x.index, sub := x.sub }

/-- Segments of a value. -/
def segCount (n : Nat) : Nat := ceilDiv n 512

/-- BLK_SEG of a read (R350, R356); it carries the SEQ of the INIT. -/
def Fyster.sendSeg (f : Fyster) (x : Xfer) (n : Nat) : Fyster :=
  let a := f.xferAsk x 0x20 x.seq
  let data := slice x.bytes (512 * n) (min 512 (x.total - 512 * n))
  let h := f.outHead a 0x23 0 0x0C f.ts
  f.sendDatagram a.src a.port h.tagged (h.bytes data.length (leBytes 4 x.id ++ leBytes 4 n ++ data))

/-- R356: the segments up to the acknowledged one plus WINDOW leave. -/
def Fyster.sendWindow (f : Fyster) (id : Nat) : Fyster :=
  match f.xfer? id with
  | none => f
  | some x =>
    let stop := min (segCount x.total) (x.next + 8)
    ((List.range (stop - x.sent)).foldl (fun f i => f.sendSeg x (x.sent + i)) f).modXfer id fun x => { x with sent := stop, ackAt := f.ns }

/-- BLK_INIT_ANS, and the first segments of a read. -/
def Fyster.xferOpen (f : Fyster) (id : Nat) (ts : Nat) : Fyster :=
  match f.xfer? id with
  | none => f
  | some x =>
    let f := f.modXfer id fun x => { x with ready := true, lastAt := f.ns }
    let v := leBytes 2 x.id ++ leBytes 2 8 ++ (if x.write then [] else leBytes 4 x.total ++ leBytes 4 x.crc)
    let f := f.answer (f.xferAsk x (if x.write then 0x21 else 0x20) x.seq) 0 0x0C ts v
    if x.write then f else f.sendWindow id

/-- An INIT that the serving node refuses. -/
def Fyster.xferRefuse (f : Fyster) (id abort ts : Nat) : Fyster :=
  match f.xfer? id with
  | none => f
  | some x => (f.answer (f.xferAsk x (if x.write then 0x21 else 0x20) x.seq) abort 0 ts []).dropXfer id

/-- BLK_END_ANS ends a transfer. -/
def Fyster.xferEnd (f : Fyster) (id seq abort ts : Nat) : Fyster :=
  match f.xfer? id with
  | none => f
  | some x => (f.answer (f.xferAsk x 0x25 seq) abort 0x0C ts (leBytes 8 x.id)).dropXfer id

/-! ### Relayed parts of a DOMAIN value (R447) -/

/-- COPY_READ at an offset. -/
def copyReadMsg (level index sub ofs : Nat) : DictMsg := { dictReadMsg level index sub 0x0C with dkind := 6, offset := ofs }

/-- COPY. -/
def copyMsg (level index sub : Nat) : DictMsg := { dictReadMsg level index sub 0x0C with dkind := 5 }

/-- SEGMENT: 512 bytes of a value at an offset. -/
def segmentMsg (level index sub ofs : Nat) (v : List Byte) : DictMsg :=
  { dictWriteMsg level index sub 0x0C (slice v ofs (min 512 (v.length - ofs))) with dkind := 3, offset := ofs }

/-- COMMIT. -/
def commitMsg (level index sub total crc : Nat) : DictMsg :=
  { dictWriteMsg level index sub 0x0C [] with dkind := 4, total := total, crc := crc }

/-- The next part of a value on its way to a TU: the segment at `ofs`, or the COMMIT. -/
def partMsg (level index sub ofs : Nat) (v : List Byte) : DictMsg :=
  if ofs < v.length then segmentMsg level index sub ofs v else commitMsg level index sub v.length (crc32c v)

/-- A copy or a staged value of the TU on port `p` is under way: its one copy and its one buffer are taken. -/
def Fyster.domainBusy (f : Fyster) (p : Nat) : Bool := f.relays.any fun r => r.port == p && decide (3 ≤ r.dkind)

/-! ### Mailbox replies (R345, R373) -/

/-- The REPLY of a dictionary message: its head with LEN, TOTAL_LEN and DATA filled in. -/
def dictReply (body : List Byte) (type total : Nat) (data : List Byte) : List Byte :=
  slice body 0 5 ++ leBytes 1 type ++ leBytes 2 data.length ++ slice body 8 4 ++ leBytes 4 total ++ data

/-- A dictionary message on a channel of Fyster is answered: REPLY, return code, DICT_ABORT. -/
def Fyster.mboxAnswer (f : Fyster) (c abort type total : Nat) (data : List Byte) : Fyster :=
  match (f.chan c).queue with
  | [] => f
  | m :: _ =>
    let f := if abort = 0 then f
      else f.log (event (0x0200 + abort) 512 m.stamp.toNat (fieldAt m.body 0 1 * 256))
    f.ack c (BitVec.ofNat 16 abort) (if abort = 0 then dictReply m.body type total data else dictReply m.body type 0 [])

/-- A dictionary message on a channel of a TU is answered. -/
def Tu.mboxAnswer (t : Tu) (c abort type total : Nat) (data : List Byte) : Tu :=
  match (t.chan c).queue with
  | [] => t
  | m :: _ =>
    let t := if abort = 0 then t
      else t.log (event (0x0200 + abort) 224 m.stamp.toNat (fieldAt m.body 0 1 * 256))
    t.ack c (BitVec.ofNat 16 abort) (if abort = 0 then dictReply m.body type total data else dictReply m.body type 0 [])

/-- R450: the 48 bytes of a TU channel's copy from an offset. -/
def Tu.mboxCopyAnswer (t : Tu) (c ofs : Nat) : Tu :=
  match (t.chan c).copy with
  | none => t.mboxAnswer c 0x27 0x0C 0 []
  | some k =>
    if k.bytes.length ≤ ofs ∧ ofs ≠ 0 then t.mboxAnswer c 0x25 0x0C 0 []
    else t.mboxAnswer c 0 0x0C k.bytes.length (slice k.bytes ofs (min 48 (k.bytes.length - ofs)))

/-- R450: the 48 bytes of a channel's copy from an offset. -/
def Fyster.mboxCopyAnswer (f : Fyster) (c ofs : Nat) : Fyster :=
  match (f.chan c).copy with
  | none => f.mboxAnswer c 0x27 0x0C 0 []
  | some k =>
    if k.bytes.length ≤ ofs ∧ ofs ≠ 0 then f.mboxAnswer c 0x25 0x0C 0 []
    else f.mboxAnswer c 0 0x0C k.bytes.length (slice k.bytes ofs (min 48 (k.bytes.length - ofs)))

/-! ### Subscriptions (R359) -/

/-- R359: a subscription has read its value: a change is counted, and NOTIFY goes out when it is due. -/
def Fyster.subValue (f : Fyster) (id type : Nat) (v : List Byte) : Fyster :=
  match f.subs.find? fun s => s.id == id with
  | none => f
  | some s =>
    let changed := match s.last with
      | some x => x != v
      | none => false
    let s := { s with last := some v, changes := if changed then s.changes + 1 else s.changes, dirty := s.dirty || changed }
    let gap := decide (s.sentAt + s.interval * 1000000 ≤ f.ns)
    let due := (gap && (s.periodic || s.dirty)) || decide (s.sentAt + 10000000000 ≤ f.ns)
    let put (f : Fyster) (s : Sub) : Fyster := { f with subs := f.subs.map fun (x : Sub) => if x.id = id then s else x }
    if !due then put f s
    else
      match f.session? s.session with
      | none => put f s
      | some c =>
        let f := (put f { s with sentAt := f.ns, dirty := false }).bump 0x1101 8 1
        let h : TdpOut := { mtype := 0x33, session := s.session, seq := f.rd 0x1101 8 % 2 ^ 32, node := s.node, tagged := true,
                            abort := 0, index := s.index, sub := s.sub, type := type, ts := f.ts }
        f.sendDatagram c.src c.port true (h.bytes v.length (leBytes 2 s.id ++ leBytes 2 0 ++ leBytes 4 s.changes ++ v))

/-- The SUBSCRIBE of a subscription as an answer to its session. -/
def Fyster.subAsk (f : Fyster) (x : Sub) (seq : Nat) : Ask :=
  let s := f.session? x.session
  { session := x.session, src := (s.map (·.src)).getD 0, port := (s.map (·.port)).getD 0, seq := seq, mtype := 0x30,
    node := x.node, index := x.index, sub := x.sub }

/-- A new subscription has been read for the first time: SUBSCRIBE is answered, and a read that fails ends it. -/
def Fyster.subOpen (f : Fyster) (id seq abort ts : Nat) (v : List Byte) : Fyster :=
  match f.subs.find? fun x => x.id == id with
  | none => f
  | some x =>
    let others := f.subs.filter fun (y : Sub) => y.id != id
    if abort ≠ 0 then { f with subs := others }.answer (f.subAsk x seq) abort 0 ts []
    else
      { f with subs := others ++ [{ x with last := some v, readAt := f.ns, sentAt := f.ns }] }.answer (f.subAsk x seq) 0 3 ts
        (leBytes 2 id)

/-! ### Writes whose answer comes later (R311, R354) -/

/-- The write that waits as `why` is answered with `abort`. -/
def Fyster.closeWrite (f : Fyster) (why : RelayFor) (node index sub abort ts : Nat) : Fyster :=
  match why with
  | .request session src port seq mtype =>
    f.answer { session := session, src := src, port := port, seq := seq, mtype := mtype, node := node, index := index, sub := sub }
      abort 0 ts []
  | .mailbox ch _ _ _ => f.mboxAnswer ch abort 0 0 []
  | .blkWrite x seq => f.xferEnd x seq abort ts
  | _ => f

/-! ### What becomes of a TU's answer -/

/-- The level that a relay carries on behalf of a session (R343). -/
def Fyster.levelOf (f : Fyster) (session : Nat) : Nat := ((f.session? session).map (·.level)).getD 0

/-- A part of a copy for a block read has come. -/
def Fyster.readPart (f : Fyster) (x p : Nat) (ts : Nat) (data : List Byte) : Fyster :=
  match f.xfer? x with
  | none => f
  | some v =>
    let bytes := v.bytes ++ data
    let f := f.modXfer x fun v => { v with bytes := bytes, lastAt := f.ns }
    if v.total ≤ bytes.length then
      if crc32c bytes = v.crc then f.xferOpen x ts else f.xferRefuse x 0x30 ts
    else f.relay p (.blkPart x) (copyReadMsg (f.levelOf v.session) v.index v.sub bytes.length)

/-- A part of a copy for a mailbox channel has come. -/
def Fyster.mboxPart (f : Fyster) (c p total crc : Nat) (m : DictMsg) : Fyster :=
  match (f.chan c).copy with
  | none => f
  | some k =>
    let k := { k with bytes := k.bytes ++ m.data }
    let f := f.putChan c { f.chan c with copy := some k }
    if total ≤ k.bytes.length then
      if crc32c k.bytes = crc then f.mboxCopyAnswer c 0
      else (f.putChan c { f.chan c with copy := none }).mboxAnswer c 0x30 0x0C 0 []
    else f.relay p (.mailbox c k.bytes.length total crc) (copyReadMsg m.level m.index m.sub k.bytes.length)

/-- The next part of a mailbox value toward a TU. -/
def Fyster.mboxNext (f : Fyster) (c p ofs total : Nat) (m : DictMsg) : Fyster :=
  let v := match (f.chan c).gather with
    | some g => memRead g.bytes 0 total
    | none => []
  f.relay p (.mailbox c (ofs + 512) total 0) (partMsg m.level m.index m.sub ofs v)

/-- A channel whose copy, or whose gathered value, has come to its end. -/
def Channel.drop (x : Channel) (dkind : Nat) : Channel :=
  if dkind = 5 ∨ dkind = 6 then { x with copy := none } else if dkind = 3 ∨ dkind = 4 then { x with gather := none } else x

/-- A relayed mailbox access is answered, or goes on with its next part. -/
def Fyster.mboxRelayed (f : Fyster) (c ofs total crc p : Nat) (m : DictMsg) : Fyster :=
  if m.abort ≠ 0 then (f.putChan c ((f.chan c).drop m.dkind)).mboxAnswer c m.abort m.type 0 []
  else
    match m.dkind with
    | 1 => f.mboxAnswer c 0 m.type m.data.length (m.data.take 48)
    | 5 =>
      let k : Copy := { node := p + 1, index := m.index, sub := m.sub, bytes := [] }
      let f := f.putChan c { f.chan c with copy := some k }
      if m.total = 0 then f.mboxCopyAnswer c 0
      else f.relay p (.mailbox c 0 m.total m.crc) (copyReadMsg m.level m.index m.sub 0)
    | 6 => f.mboxPart c p total crc m
    | 3 => f.mboxNext c p ofs total m
    | k => (f.putChan c ((f.chan c).drop k)).mboxAnswer c 0 m.type 0 []

/-- R354: the answer to a relayed access goes to whoever waits for it; `m` holds the access and its outcome. -/
def Fyster.relayAnswer (f : Fyster) (r : Relay) (m : DictMsg) (ts : Nat) : Fyster :=
  match r.why with
  | .request session src port seq mtype =>
    f.answer { session := session, src := src, port := port, seq := seq, mtype := mtype, node := r.port + 1, index := r.index,
               sub := r.sub } m.abort m.type ts m.data
  | .mailbox c ofs total crc => f.mboxRelayed c ofs total crc r.port { m with dkind := r.dkind, index := r.index, sub := r.sub }
  | .subscription id => if m.abort = 0 then f.subValue id m.type m.data else f
  | .subscribe id seq => f.subOpen id seq m.abort ts m.data
  | .blkRead x =>
    if m.abort ≠ 0 then f.xferRefuse x m.abort ts
    else
      match f.xfer? x with
      | none => f
      | some v =>
        let f := f.modXfer x fun v => { v with total := m.total, crc := m.crc }
        if m.total = 0 then f.xferOpen x ts else f.relay r.port (.blkPart x) (copyReadMsg (f.levelOf v.session) v.index v.sub 0)
  | .blkPart x => if m.abort ≠ 0 then f.xferRefuse x m.abort ts else f.readPart x r.port ts m.data
  | .blkWrite x seq =>
    if m.abort ≠ 0 ∨ r.dkind = 4 then f.xferEnd x seq m.abort ts
    else
      match f.xfer? x with
      | none => f
      | some v =>
        (f.modXfer x fun v => { v with sent := v.sent + 1, lastAt := f.ns }).relay r.port (.blkWrite x seq)
          (partMsg (f.levelOf v.session) v.index v.sub (512 * (v.sent + 1)) v.bytes)
  | .digest cut =>
    if m.abort = 0 then f.modCut cut fun c => { c with digests := tset c.digests r.port (leNat m.data ^^^ 0xFFFFFFFF) } else f
  | .arm g serial => f.armTuAnswer r.port g serial m.abort
  | .resend serial => f.resendAnswer r.port serial m.abort
  | .own => f

/-- The outcome of an access that ends without an answer of the TU. -/
def failedMsg (r : Relay) (abort : Nat) : DictMsg :=
  { dictReadMsg 0 r.index r.sub 0 with dkind := r.dkind, answer := true, abort := abort, rid := r.rid }

/-- R354, R342: every access in flight to the TU on port `p` ends with this abort code. -/
def Fyster.failRelays (f : Fyster) (p abort : Nat) : Fyster :=
  let gone := f.relays.filter fun r => r.port == p
  gone.foldl (fun f r => f.relayAnswer r (failedMsg r abort) f.ts)
    { f with relays := f.relays.filter fun r => r.port != p }

/-! ### Answers of Juniper's on-demand rows (R311) -/

/-- The write of ROW_SUBMIT that waited is answered. -/
def Fyster.rowAnswer (f : Fyster) (why : Option RelayFor) (abort : Nat) : Fyster :=
  match why with
  | none => f.emit (.answer abort)
  | some w => f.closeWrite w 0 0x4470 1 abort f.ts

/-- JUNIPER_ROW_SCORED (R296, R311). -/
def execJuniperRowScored (dt : Nat) (s : State) : Host.Outcome State Fault Refusal :=
  .next (onFy dt (fun f =>
    let r := f.rowStep
    match r.2 with
    | some why => r.1.rowAnswer why 0
    | none => r.1) s)

/-- ROW_SUBMIT_TIMEOUT (R311). -/
def execRowSubmitTimeout (dt : Nat) (s : State) : Host.Outcome State Fault Refusal :=
  .next (onFy dt (fun f =>
    let r := f.demandLate
    match r.2 with
    | some why => r.1.rowAnswer why 0x30
    | none => r.1) s)

end Sys2Proof.Machine
end

