-- ==== Sys2Proof/Machine/Export.lean ====
section
/-! DEFINITION. Budgets, the export arbiter, the shaper, gate lists and the TU's power requests (08_export.md). -/

namespace Sys2Proof.Machine

/-! ### Budgets (R190 to R193, R449) -/

/-- R190 to R193: a budget period begins at TS64 mod 1,000 = 0: used budgets are cleared, the speed ratios come from the
completion-time monitors, and what EXPORT refused is offered again. -/
def Tu.budgetPeriod (t : Tu) (ratios : List Nat) : Tu :=
  if t.ts % 1000 ≠ 0 then t
  else
    let t := t.periodStart
    let t := { t with exp := { t.exp with ratios := (List.range 8).map fun a => (a, min 65536 (ratios.getD a 65536)) } }
    t.sumacFeed.arbitrate

/-- BUDGET_PERIOD_START. -/
def execBudgetPeriodStart (dt : Nat) (p : Port) (ratios : List Nat) (s : State) : Host.Outcome State Fault Refusal :=
  .next (onTu p dt (fun t => t.budgetPeriod ratios) s)

/-- R193: a write of BUDGET_NS or TAINT_RESERVE_NS (sub 0 to 8 counts from subindex 01). -/
def Tu.wrBudget (t : Tu) (a v : Nat) : Tu × Nat :=
  let others := sumBy (fun i => if i = a then 0 else t.rd 0x2A00 (i + 1)) (List.range 9)
  if 4000 < v ∨ 8000 < others + v then (t, 0x25)
  else
    let t := t.wr 0x2A00 (a + 1) v
    (if a = 8 then t else t.wr 0x2A00 0x0A (setBit (t.rd 0x2A00 0x0A) a false), 0)

/-- BUDGET_WRITE. -/
def execBudgetWrite (dt : Nat) (p : Port) (lvl : Level) (sub : Fin 9) (v : BitVec 16) (s : State) :
    Host.Outcome State Fault Refusal :=
  .next (onTu p dt (fun t => t.reply lvl 1 (t.wrBudget sub.val v.toNat)) s)

/-! ### The arbiter (R198 to R201) -/

/-- R199: one window start passes for requester `r`, which asks without a grant. -/
def Tu.starve (t : Tu) (r : Nat) : Tu :=
  let n := tget t.exp.waiting r 0 + 1
  let t := { t with exp := { t.exp with waiting := tset t.exp.waiting r n } }
  if n = 64 then (t.wr 0x2A11 1 (setBit (t.rd 0x2A11 1) r true)).log (event 0x0030 224 r 64) else t

/-- R198, R199: a window starts at TS64 mod 1,000 = 0: requesters that still ask are counted, and every credit grows. -/
def Tu.arbWindow (t : Tu) : Tu :=
  if t.ts % 1000 ≠ 0 then t
  else
    let t := t.arbitrate
    let asks := (t.asking.map (·.1)).filter fun r => !(r ≥ 2 && (t.nextUnit r).any (t.opening r) && (t.charge 6 40000 true).2 != 0)
    let t := { t with exp := { t.exp with waiting := t.exp.waiting.filter fun e => asks.contains e.1 } }
    let t := asks.foldl Tu.starve t
    { t with exp := { t.exp with
        credit := (List.range 6).map fun i => (i + 2, min (t.arbCredit (i + 2) + t.weight (i + 2)) 65536) } }

/-- ARB_WINDOW_START. -/
def execArbWindowStart (dt : Nat) (p : Port) (s : State) : Host.Outcome State Fault Refusal :=
  .next (onTu p dt (fun t => t.arbWindow) s)

/-- R199: a write of ARB_STARVE_CLEAR. -/
def Tu.wrStarveClear (t : Tu) (mask : Nat) : Tu × Nat :=
  (t.wr 0x2A11 1 ((List.range 8).foldl (fun n i => if bitOf mask i then setBit n i false else n) (t.rd 0x2A11 1)), 0)

/-- ARB_STARVE_CLEAR. -/
def execArbStarveClear (dt : Nat) (p : Port) (lvl : Level) (mask : Byte) (s : State) : Host.Outcome State Fault Refusal :=
  .next (onTu p dt (fun t => t.reply lvl 1 (t.wrStarveClear mask.toNat)) s)

/-- EXPORT_UNIT_DONE. -/
def execExportUnitDone (dt : Nat) (p : Port) (s : State) : Host.Outcome State Fault Refusal :=
  .next (onTu p dt (fun t => t.unitDone) s)

/-- R200: the records that a reset of requester `r` discards, with the unit in transfer. -/
def Tu.wdgRecords (t : Tu) (r : Nat) (u : ExUnit) : List QRec :=
  if r = 7 then t.sumac.sending.flatten ++ t.sumac.closed.flatten ++ t.sumac.block
  else (match u with
    | .record q => [q]
    | .fragment _ _ _ => []) ++ (if r = 6 then [] else t.queue r)

/-- R200: the export watchdog ends a hold of 100 µs. -/
def Tu.exportWdg (t : Tu) : Tu :=
  match t.exp.grant with
  | none => t
  | some g =>
    if t.part.time.now < g.since + 100 * 65536000 then t
    else
      let recs := t.wdgRecords g.req g.unit
      let t := { t with exp := { t.exp with
        grant := none, queues := if g.req < 6 then tset t.exp.queues g.req [] else t.exp.queues } }
      let t := if g.req = 7 then { t with sumac := { t.sumac with block := [], closed := [], frags := [], sending := [] } } else t
      let t := recs.foldl (fun t q => t.lose q.act 4 [q.r]) t
      let t := (t.bump 0x2A12 (g.req + 1) 1).log (event 0x0031 224 g.req recs.length)
      match t.cuts with
      | c :: _ => if g.req = 6 ∧ c.todo.isEmpty = true then t.cutDone c c.cflags else t.arbitrate
      | [] => t.arbitrate

/-- EXPORT_WATCHDOG. -/
def execExportWatchdog (dt : Nat) (p : Port) (s : State) : Host.Outcome State Fault Refusal :=
  .next (onTu p dt (fun t => t.exportWdg) s)

/-- R201: the debug port takes the path; `since` of the interrupted grant holds the time it has been in use. -/
def Tu.debugTake (t : Tu) : Tu :=
  if t.exp.dbgPort.isSome then t
  else
    { t with exp := { t.exp with
        grant := none
        dbgPort := some (t.exp.grant.map fun (g : Grant) => { g with since := t.part.time.now - g.since }) } }

/-- DEBUG_EXPORT_REQ. -/
def execDebugExportReq (dt : Nat) (p : Port) (s : State) : Host.Outcome State Fault Refusal :=
  .next (onTu p dt (fun t => t.debugTake) s)

/-- The class 0 records that the debug port has sent (R438): each begins at a 32-byte word; words that spell no record are
left out. -/
def debugRecords : Nat → List Word → List Rec
  | 0, _ => []
  | n + 1, ws =>
    let h := wordsNat (ws.take 3)
    let len := bitsOf h 8 8
    if ws.length < len ∨ len < 3 then []
    else recOf h ((ws.take len).drop 3) :: debugRecords n (ws.drop (4 * ceilDiv len 4))

/-- R201: the debug port releases the path; what it interrupted goes on. -/
def Tu.debugFree (t : Tu) (ws : List Word) : Tu :=
  match t.exp.dbgPort with
  | none => t
  | some g =>
    let t := (debugRecords ws.length ws).foldl (fun t r => t.setShaper 0 ((t.shaper 0).put r)) t
    let t := { t with exp := { t.exp with
      dbgPort := none, grant := g.map fun (g : Grant) => { g with since := t.part.time.now - g.since } } }
    let req := match g with
      | some g => g.req
      | none => 0xFF
    (t.log (event 0x0032 224 req (min (ceilDiv ws.length 4) 0xFFFFFFFF))).arbitrate

/-- DEBUG_EXPORT_RELEASE. -/
def execDebugExportRelease (dt : Nat) (p : Port) (words : List Word) (s : State) : Host.Outcome State Fault Refusal :=
  .next (onTu p dt (fun t => t.debugFree words) s)

/-! ### The shaper (R202 to R204) -/

/-- R203: a class's frame that could be sent: a built one, or the builder's if no further unit is ready for it. -/
def Tu.readyFrame (t : Tu) (c : Nat) : Option Built :=
  let x := t.shaper c
  match x.built with
  | b :: _ => some b
  | [] =>
    let busy := (t.exp.grant.any fun g => g.req == c) ||
      (match t.nextUnit c with
       | some (.record q) => x.fits q.r.bytes
       | _ => false)
    if busy then none else x.close.built.head?

/-- R73, R203, R206: the class may start its frame. -/
def Tu.eligible (t : Tu) (c : Nat) : Bool :=
  match t.readyFrame c with
  | some b => decide (0 ≤ t.credit c) && t.link.room c && t.gateOpen c (12 + 8 * b.payload.length)
  | none => false

/-- R203, R204: the lowest eligible class sends its frame. -/
def Tu.frameStart (t : Tu) (p : Port) : Tu :=
  if t.link.st ≠ .up then t
  else
    match (List.range 8).find? fun c => t.eligible c with
    | none => t
    | some c =>
      match t.readyFrame c with
      | none => t
      | some b =>
        let t := t.accrue c
        let x := t.shaper c
        let x := if x.built.isEmpty then x.close else x
        let t := t.setShaper c { x with built := x.built.drop 1, credit := x.credit - 1000 * t.charged b.payload }
        let y := t.link.sendData (.tuEnd p) t.part.time.now c b.sumac b.first b.last b.payload b.records
        let t := ({ t with link := y.1 }).emit y.2
        let t := t.bump (0x2A20 + c) 4 1
        ((t.internal 0x350 1).internal 0x351 (12 + 8 * b.payload.length)).arbitrate

/-- SHAPER_FRAME_START. -/
def execShaperFrameStart (dt : Nat) (p : Port) (s : State) : Host.Outcome State Fault Refusal :=
  .next (onTu p dt (fun t => t.frameStart p) s)

/-- R202: a write of SHAPER_SLOPE_MBPS. -/
def Tu.wrSlope (t : Tu) (c v : Nat) : Tu × Nat :=
  let others := sumBy (fun i => if i = c then 0 else t.slope i) (List.range 8)
  if 24500 < v ∨ 24500 < others + v then (t, 0x25) else ((t.accrue c).wr (0x2A20 + c) 1 v, 0)

/-- R202: a write of SHAPER_BURST. -/
def Tu.wrBurst (t : Tu) (c v : Nat) : Tu × Nat :=
  if v < 4363 ∨ 1048576 < v then (t, 0x25) else ((t.accrue c).wr (0x2A20 + c) 2 v, 0)

/-! ### Gate lists (R206, R207) -/

/-- R206: the entry that runs now takes over. -/
def Tu.gateAdvance (t : Tu) : Tu :=
  match t.exp.gate with
  | none => t
  | some g => { t with exp := { t.exp with gate := some { g with entry := g.at' t.ns } } }

/-- GATE_ENTRY_ADVANCE. -/
def execGateEntryAdvance (dt : Nat) (p : Port) (s : State) : Host.Outcome State Fault Refusal :=
  .next (onTu p dt (fun t => t.gateAdvance) s)

/-- R206: a write of GATE_ADMIN. -/
def Tu.wrGateAdmin (t : Tu) (v : List Byte) : Tu × Nat :=
  match gateCode v with
  | 0 => ({ t with part := t.part.wrDom 0x2A40 1 v }, 0)
  | a => (t, a)

/-- R207: a write of GATE_ORDER. -/
def Tu.wrGateOrder (t : Tu) (v : List Byte) : Tu × Nat :=
  let admin := t.part.rdDom 0x2A40 1
  let g := gateOf admin
  let eff := time96 v 0
  let serial := fieldAt v 12 4
  if v.length ≠ 16 then (t, 0x24)
  else
    match t.part.orderAnswer .gateList 0 serial with
    | .held => (t, 0)
    | a =>
      let code := match a with
        | .refused c => c
        | _ => 0
      let code := lowestAbort [(code != 0, code), (admin.isEmpty, 0x27), (!admin.isEmpty && g.pos eff != 0, 0x29)]
      if code ≠ 0 then (t, code)
      else
        ({ t with part := t.part.putOrder { kind := .gateList, target := 0, serial := serial, eff := eff,
                                            late := decide (eff < t.ns), data := admin } }, 0)

/-- GATE_ORDER. -/
def execGateOrder (dt : Nat) (p : Port) (lvl : Level) (v : List Byte) (s : State) : Host.Outcome State Fault Refusal :=
  .next (onTu p dt (fun t => t.reply lvl 1 (t.wrGateOrder v)) s)

/-- R207, R18, R19: at E, or at late arrival, the new list replaces the old. -/
def Tu.gateTakeover (t : Tu) : Tu :=
  match t.gatePending with
  | none => t
  | some (o, g) =>
    if t.ns < o.eff ∨ t.part.turn .gateList o.eff = false then t
    else
      let t := { t with part := t.part.dropOrder .gateList 0, exp := { t.exp with gate := some { g with entry := g.at' t.ns } } }
      t.log { event 0x0022 224 o.serial (g.pos t.ns) with late := o.late }

/-- GATE_LIST_TAKEOVER. -/
def execGateListTakeover (dt : Nat) (p : Port) (s : State) : Host.Outcome State Fault Refusal :=
  .next (onTu p dt (fun t => t.gateTakeover) s)

/-! ### Power requests (R208 to R210) -/

/-- R208, R437: GRANT: the operation starts, or the stale grant is released. -/
def Tu.powerGrant (t : Tu) (id : Nat) : Tu :=
  let o := (t.part.pwrReq id).grant t.part.time.now
  let t := t.pwr id o
  if id = 0 ∧ o.r.st = .granted then t.traceApply else t

/-- POWER_GRANT. -/
def execPowerGrant (dt : Nat) (p : Port) (id : Fin 16) (s : State) : Host.Outcome State Fault Refusal :=
  .next (onTu p dt (fun t => t.powerGrant id.val) s)

/-- R209, R437: REFUSE; for an ID with nothing outstanding it is discarded and counted (log 72). -/
def Tu.powerRefuse (t : Tu) (id : Nat) : Tu :=
  let r := t.part.pwrReq id
  let t := if r.outstanding then t else t.bump (0x2B00 + id) 0xF0 1
  t.pwr id (r.refuse t.part.time.now)

/-- POWER_REFUSE. -/
def execPowerRefuse (dt : Nat) (p : Port) (id : Fin 16) (s : State) : Host.Outcome State Fault Refusal :=
  .next (onTu p dt (fun t => t.powerRefuse id.val) s)

/-- R210, R437: REVOKE: the operation returns to its unpowered setting; without a grant held it is discarded and counted
(log 72). -/
def Tu.powerRevoke (t : Tu) (id : Nat) : Tu :=
  let held := (t.part.pwrReq id).st == .granted
  let t := if held then t else t.bump (0x2B00 + id) 0xF0 1
  let t := t.pwr id ((t.part.pwrReq id).revoke t.part.time.now)
  if id = 0 ∧ held = true then t.traceRevoked else t

/-- POWER_REVOKE. -/
def execPowerRevoke (dt : Nat) (p : Port) (id : Fin 16) (s : State) : Host.Outcome State Fault Refusal :=
  .next (onTu p dt (fun t => t.powerRevoke id.val) s)

/-- POWER_ANSWER_TIMEOUT (R208). -/
def execPowerAnswerTimeout (dt : Nat) (p : Port) (id : Fin 16) (s : State) : Host.Outcome State Fault Refusal :=
  .next (onTu p dt (fun t => t.pwr id.val ((t.part.pwrReq id.val).timeout 10 t.part.time.now)) s)

/-- POWER_BACKOFF_EXPIRY (R209). -/
def execPowerBackoffExpiry (dt : Nat) (p : Port) (id : Fin 16) (s : State) : Host.Outcome State Fault Refusal :=
  .next (onTu p dt (fun t => t.pwr id.val ((t.part.pwrReq id.val).retry t.part.time.now)) s)

end Sys2Proof.Machine
end

