-- ==== Sys2Proof/Machine/Links.lean ====
section
/-! DEFINITION. Link management: STATUS, acknowledgement and replay at an end (R70 to R74, R408), training, retraining and lane
swaps (R410 to R412), discovery (R391), and the out-of-band and hall-fabric ports (R400, R413, R414). -/

namespace Sys2Proof.Machine

/-! ### Frames that a restart loses (R74) -/

/-- The activity that a record of a type is charged to (R192, R194). -/
def activityOf (type : Nat) : Nat :=
  match type with
  | 1 => 0 | 3 => 1 | 5 => 2 | 6 => 4 | 7 => 3 | 8 => 3 | 0x14 => 7
  | _ => 5

/-- The records of a payload that was built record by record. -/
def splitRecs : Nat → List Word → List Rec
  | 0, _ => []
  | n + 1, ws =>
    let h := wordsNat (ws.take 3)
    let len := bitsOf h 8 8
    if ws.isEmpty || decide (len < 3) then [] else recOf h ((ws.take len).drop 3) :: splitRecs n (ws.drop len)

/-- R74: a TU counts the frames it held as lost with cause LINK_RESTART: records by activity; a Sumac fragment under EXPORT. -/
def Tu.loseFrames (t : Tu) (l : List TxFrame) : Tu :=
  l.foldl (fun t x =>
    if x.sumac then
      { t with part := t.part.lose 6 8 x.records (8 * x.payload.length) none t.ts }
    else (splitRecs 512 x.payload).foldl (fun t r => t.lose (activityOf r.type) 8 [r]) t) t

/-- R74: Fyster counts the records of the frames it held in the accumulator of the port and LINK_RESTART. -/
def Fyster.loseFrames (f : Fyster) (p : Nat) (l : List TxFrame) : Fyster :=
  l.foldl (fun f x =>
    (splitRecs 512 x.payload).foldl (fun f r =>
      { f with part := f.part.lose p 8 1 r.bytes (some r.stream) f.ts }) f) f

/-! ### A link goes down and comes back -/

/-- R38, R400: the TU's end is down: HOLDOVER, and the delay history is emptied. -/
def Tu.linkDown (t : Tu) (p : Port) : Tu := { t.holdover p with mpds := [], treq := none }

/-- R362: Fyster's end is down: a present TU is in training again. -/
def Fyster.linkDown (f : Fyster) (p : Nat) : Fyster :=
  if tget f.nodes p 0 = 2 then { f with nodes := tset f.nodes p 1 } else f

/-- A TU asks for a fast retrain (R72, R411, R412): STATUS with RETRAIN_REQ, and its end is down. -/
def Tu.askRetrain (t : Tu) (p : Port) : Tu :=
  if t.link.st ≠ .up then t
  else
    let x := t.link.askRetrain (.tuEnd p)
    (({ t with link := x.1 }).emit x.2).linkDown p

/-- Fyster asks for a fast retrain; RETRAINS counts it. -/
def Fyster.askRetrain (f : Fyster) (p : Port) : Fyster :=
  if (f.link p.val).st ≠ .up then f
  else
    let x := (f.link p.val).askRetrain (.fysterEnd p)
    (((f.setLink p.val x.1).emit x.2).linkDown p.val).bump (0x1140 + p.val) 0x0A 1

/-- R411: an end goes into a fast retrain without asking for it. -/
def Link.retrain (l : Link) : Link := { l with st := .retraining, swapSince := none, failedAt := none }

/-! ### Acknowledgement and replay (R70 to R72) -/

/-- R72: an ACKSEQ reaches a TU. -/
def Tu.takeAck (t : Tu) (ack : Nat) : Tu := { t with link := t.link.acked ack }

/-- R72, R73: an ACKSEQ reaches Fyster; records that waited for room leave. -/
def Fyster.takeAck (f : Fyster) (p : Port) (ack : Nat) : Fyster :=
  (f.setLink p.val ((f.link p.val).acked ack)).drainTu p

/-- R72: a TU replays what it holds; after 16 replays without progress it asks for a retrain. -/
def Tu.replay (t : Tu) (p : Port) : Tu :=
  if t.link.stuck then t.askRetrain p
  else
    let x := t.link.resend (.tuEnd p) t.part.time.now
    (x.2.1.foldl Tu.emit { t with link := x.1 }).bump 0x2110 0x12 x.2.2

/-- R72: Fyster replays what it holds. -/
def Fyster.replay (f : Fyster) (p : Port) : Fyster :=
  if (f.link p.val).stuck then f.askRetrain p
  else
    let x := (f.link p.val).resend (.fysterEnd p) f.part.time.now
    (x.2.1.foldl Fyster.emit (f.setLink p.val x.1)).bump (0x1140 + p.val) 4 x.2.2

/-- R72: the oldest held frame has waited 4 µs. -/
def Link.replayDue (l : Link) (now : Nat) : Bool :=
  l.st == .up && (match l.replay.head? with
    | some t => decide (t.sentAt + 4000 * 65536 ≤ now)
    | none => false)

/-- REPLAY_TIMEOUT (R72). -/
def execReplayTimeout (dt : Nat) (e : End) (s : State) : Host.Outcome State Fault Refusal :=
  .next (onEnd e dt (fun p t => if t.link.replayDue t.part.time.now then t.replay p else t)
    (fun p f => if (f.link p.val).replayDue f.part.time.now then f.replay p else f) s)

/-- ACK_CONTROL_SEND (R70). -/
def execAckControlSend (dt : Nat) (e : End) (s : State) : Host.Outcome State Fault Refusal :=
  .next (onEnd e dt
    (fun p t =>
      if t.link.st = .up ∧ t.link.ackDue = true then
        let x := t.link.control (.tuEnd p)
        ({ t with link := x.1 }).emit x.2
      else t)
    (fun p f =>
      if (f.link p.val).st = .up ∧ (f.link p.val).ackDue = true then
        let x := (f.link p.val).control (.fysterEnd p)
        (f.setLink p.val x.1).emit x.2
      else f) s)

/-! ### STATUS (R74, R408) -/

/-- Fields of STATUS. -/
structure StatusMsg where
  restart : Bool
  retrain : Bool
  next    : Nat
  laneMap : Nat
deriving DecidableEq, Repr

/-- The fields of a STATUS that was taken. -/
def statusMsg (t : Tos) : StatusMsg :=
  { restart := bitOf (fieldAt t.payload 1 1) 0, retrain := bitOf (fieldAt t.payload 1 1) 1, next := fieldAt t.payload 2 2,
    laneMap := fieldAt t.payload 4 1 }

/-- The sequence number before another. -/
def seqBefore (n : Nat) : Nat := (n + 65535) % 65536

/-- R74: a STATUS reaches a TU: a partner that was reset, the frames it has, its lanes. -/
def Tu.takeStatus (t : Tu) (m : StatusMsg) : Tu :=
  let t := { t with link := { t.link with partnerMap := BitVec.ofNat 8 m.laneMap } }
  if m.restart then
    let x := t.link.partnerRestart
    ({ t with link := x.1, restartSeen := true }).loseFrames x.2
  else t.takeAck (seqBefore m.next)

/-- R82, R137: with a TU's reset its open work items are gone, and its loss totals begin anew. -/
def DieObs.restarted (o : DieObs) : DieObs := { o with longs := [], losses := o.losses.filter fun r => r.fld 200 8 == 0xFF }

/-- R74, R80, R243, R354, R400: the TU on port `p` has been reset. -/
def Fyster.tuRestarted (f : Fyster) (p : Nat) : Fyster :=
  let f := { f with expect := f.expect.filter fun e => e.1 / 65536 != p
                    red := { f.red with dies := f.red.dies.map fun (e : Nat × DieObs) => if e.1 = p then (p, e.2.restarted) else e } }
  ((f.failRelays p 0x11).cutTuLost p).recovStart 2

/-- R74: a STATUS reaches Fyster. -/
def Fyster.takeStatus (f : Fyster) (p : Port) (m : StatusMsg) : Fyster :=
  let f := f.setLink p.val { f.link p.val with partnerMap := BitVec.ofNat 8 m.laneMap }
  if m.restart then
    let x := (f.link p.val).partnerRestart
    ((f.setLink p.val x.1).loseFrames p.val x.2).tuRestarted p.val
  else f.takeAck p (seqBefore m.next)

/-- TOS_STATUS_RX (R74, R408, R411); RETRAIN_REQ during training is ignored. -/
def execTosStatusRx (dt : Nat) (e : End) (tos : Tos) (s : State) : Host.Outcome State Fault Refusal :=
  .next (onEnd e dt
    (fun p t =>
      if !tos.good 5 then t.tosDiscard
      else
        let t := t.takeStatus (statusMsg tos)
        if (statusMsg tos).retrain && t.link.st == .up then ({ t with link := t.link.retrain }).linkDown p else t)
    (fun p f =>
      if !tos.good 5 then f.tosDiscard p
      else
        let f := f.takeStatus p (statusMsg tos)
        if (statusMsg tos).retrain && (f.link p.val).st == .up then
          (f.setLink p.val (f.link p.val).retrain).linkDown p.val
        else f) s)

/-- STATUS_SEND_TIMER (R408). -/
def execStatusSendTimer (dt : Nat) (e : End) (s : State) : Host.Outcome State Fault Refusal :=
  .next (onEnd e dt
    (fun p t => if t.link.st = .up then t.emit (.tos (.tuEnd p) (t.link.status false false)) else t)
    (fun p f => if (f.link p.val).st = .up then f.emit (.tos (.fysterEnd p) ((f.link p.val).status false false)) else f) s)

/-! ### Loss of link and attempts (R400, R410, R411) -/

/-- TL_LINK_LOSS (R400, R411): the link is down and the end tries a fast retrain at once. -/
def execTlLinkLoss (dt : Nat) (e : End) (s : State) : Host.Outcome State Fault Refusal :=
  .next (onEnd e dt
    (fun p t => if t.link.st = .up then (({ t with link := t.link.retrain }).linkDown p).recovStart 1 else t)
    (fun p f =>
      if (f.link p.val).st = .up then ((f.setLink p.val (f.link p.val).retrain).linkDown p.val).recovStart 1 else f) s)

/-- R411: an attempt has failed: the link is down and the next attempt starts 10 ms later. -/
def Link.failed (l : Link) (now : Nat) : Link :=
  if l.st = .up then l else { l with st := .down, failedAt := some now }

/-- TL_TRAINING_ATTEMPT_FAILED (R411). -/
def execTlTrainingAttemptFailed (dt : Nat) (e : End) (s : State) : Host.Outcome State Fault Refusal :=
  .next (onEnd e dt (fun _ t => { t with link := t.link.failed t.part.time.now })
    (fun p f => f.setLink p.val ((f.link p.val).failed f.part.time.now)) s)

/-- R411: a full training starts 10 ms after the last attempt failed. -/
def Link.attempt (l : Link) (now : Nat) : Link :=
  match l.failedAt with
  | some t => if l.st = .down ∧ t + 10000000 * 65536 ≤ now then { l with st := .training, failedAt := none } else l
  | none => l

/-- TL_RETRAIN_ATTEMPT (R411). -/
def execTlRetrainAttempt (dt : Nat) (e : End) (s : State) : Host.Outcome State Fault Refusal :=
  .next (onEnd e dt (fun _ t => { t with link := t.link.attempt t.part.time.now })
    (fun p f => f.setLink p.val ((f.link p.val).attempt f.part.time.now)) s)

/-- A write of TL_RETRAIN at a TU (R411). -/
def Tu.wrTlRetrain (t : Tu) (p : Port) (v : Nat) : Tu × Nat := if 1 < v then (t, 0x26) else (if v = 1 then t.askRetrain p else t, 0)

/-- A write of TL_RETRAIN at Fyster (R411). -/
def Fyster.wrTlRetrain (f : Fyster) (p : Port) (v : Nat) : Fyster × Nat :=
  if 1 < v then (f, 0x26) else (if v = 1 then f.askRetrain p else f, 0)

/-- TL_RETRAIN (R411). -/
def execTlRetrain (dt : Nat) (e : End) (lvl : Level) (v : Byte) (s : State) : Host.Outcome State Fault Refusal :=
  .next (onEnd e dt (fun p t => t.reply lvl 1 (t.wrTlRetrain p v.toNat)) (fun p f => f.reply lvl 1 (f.wrTlRetrain p v.toNat)) s)

/-- R24, R412: the quiesce point of a direction whose lane swap waits. -/
def Link.quiesced (l : Link) : Bool := l.swapSince.isSome && l.st == .up && !l.ackDue && !l.nakDue

/-- R412: the swap has waited 10 ms. -/
def Link.swapLate (l : Link) (now : Nat) : Bool :=
  l.st == .up && (match l.swapSince with
    | some t => decide (t + 10000000 * 65536 ≤ now)
    | none => false)

/-- LANE_SWAP_QUIESCE (R412). -/
def execLaneSwapQuiesce (dt : Nat) (e : End) (s : State) : Host.Outcome State Fault Refusal :=
  .next (onEnd e dt (fun p t => if t.link.quiesced then t.askRetrain p else t)
    (fun p f => if (f.link p.val).quiesced then f.askRetrain p else f) s)

/-- LANE_SWAP_QUIESCE_TIMEOUT (R412). -/
def execLaneSwapQuiesceTimeout (dt : Nat) (e : End) (s : State) : Host.Outcome State Fault Refusal :=
  .next (onEnd e dt (fun p t => if t.link.swapLate t.part.time.now then t.askRetrain p else t)
    (fun p f => if (f.link p.val).swapLate f.part.time.now then f.askRetrain p else f) s)

/-! ### The end of a training (R39, R391, R410, R412) -/

/-- R412: the spare carries data now and did not before: the lane that it stands for. -/
def swappedLane (old new : BitVec 8) : Option Nat :=
  if (lanesUsed new).contains 2 && !(lanesUsed old).contains 2 then (lanesUsed old).find? fun i => !(lanesUsed new).contains i
  else none

/-- R39: the TU's asymmetry is corrected by the skew `d`; without a measured skew it is kept and the TU holds over. -/
def Tu.moveLane0 (t : Tu) (p : Port) (d : Option Int) : Tu :=
  match d with
  | some d =>
    let t := { t with asym := t.asym + d }
    t.timeRec 0x0A (t.asym * 131072) 0xFF false false
  | none => (t.timeRec 0x0A (t.asym * 131072) 0xFF false true).holdover p

/-- The link after step 4 of R410: up, with its lanes and skew. -/
def Link.trained (l : Link) (m : BitVec 8) (skew : Option Int) : Link :=
  { l with st := .up, laneMap := m, skew := skew, restart := false, swapSince := none, failedAt := none, nakSent := false }

/-- R74: replay resumes after a training. -/
def Tu.resumeReplay (t : Tu) (p : Port) : Tu :=
  if t.link.replay.isEmpty then t
  else
    let x := t.link.resend (.tuEnd p) t.part.time.now
    (x.2.1.foldl Tu.emit { t with link := x.1 }).bump 0x2110 0x12 x.2.2

/-- R74: replay resumes, then records that waited leave. -/
def Fyster.resumeReplay (f : Fyster) (p : Port) : Fyster :=
  if (f.link p.val).replay.isEmpty then f.drainTu p
  else
    let x := (f.link p.val).resend (.fysterEnd p) f.part.time.now
    ((x.2.1.foldl Fyster.emit (f.setLink p.val x.1)).bump (0x1140 + p.val) 4 x.2.2).drainTu p

/-- R410, R412: a TU's end completes a training: its lanes, STATUS of step 4, the partner's STATUS. The delay history is emptied
(R38). With fewer than two healthy lanes, or a STATUS that is not taken, the link does not come up. -/
def Tu.trainingDone (t : Tu) (p : Port) (r : TrainResult) : Tu :=
  if t.link.st = .up ∨ t.powered = false then t
  else if !r.status.good 5 then t.tosDiscard
  else
    match laneAssign r.healthy t.link.retired with
    | none => { t with link := t.link.failed t.part.time.now }
    | some m =>
      let old := t.link
      let t := t.emit (.tos (.tuEnd p) (mkStatus 1 old.restart false old.rxFseq m.toNat r.skew))
      let t := ({ t with link := old.trained m r.skew, mpds := [], treq := none }).takeStatus (statusMsg r.status)
      let t := match swappedLane old.laneMap m with
        | some _ => (t.bump 0x2D00 5 1).log (event 0x0010 224 224 224)
        | none => t
      let t := if lane0 old.laneMap ≠ lane0 m ∧ old.restart = false then t.moveLane0 p old.skew else t
      (t.resumeReplay p).recovDone 1

/-- R391: what Fyster gives a TU at discovery: die ID, calibration entries, TL asymmetry. -/
def Tu.discover (t : Tu) (die asym : Nat) (trims : List Nat) (p : Nat) : Tu :=
  let t := trims.zipIdx.foldl (fun (t : Tu) x => t.wr (0x7C40 + p) (x.2 + 1) x.1) t
  if t.discovered then t else { t with discovered := true, die := die, asym := toInt 32 asym }

/-- The calibration value of an object as 32 bits (R365). -/
def Fyster.cal (f : Fyster) (idx sub : Nat) : Nat :=
  match tfind f.part.obj (objKey idx sub) with
  | some v => v
  | none => (Config.factory (objKey idx sub)).toNat

/-- R391: Fyster discovers the TU on port `p`, if a die ID is written for it. -/
def Fyster.discovers (f : Fyster) (p : Nat) : Fyster :=
  if f.rd 0x1010 (p + 1) = 0xFFFFFFFF then
    { f.wr 0x1030 7 (setBit (f.rd 0x1030 7) p true) with nodes := tset f.nodes p 1 }
  else ({ f.wr 0x1030 7 (setBit (f.rd 0x1030 7) p false) with nodes := tset f.nodes p 2 }).recovDone 2

/-- The push of R391 into the TU on port `p`. -/
def Fyster.pushTo (f : Fyster) (p : Nat) (t : Tu) : Tu :=
  if tget f.nodes p 0 = 2 then
    t.discover (f.rd 0x1010 (p + 1)) (f.cal 0x7C10 (p + 1)) ((List.range 3).map fun i => f.cal (0x7C40 + p) (i + 1)) p
  else t

/-- R410, R412: Fyster's end completes a training. -/
def Fyster.trainingDone (f : Fyster) (p : Port) (r : TrainResult) : Fyster :=
  let l := f.link p.val
  if l.st = .up ∨ f.boot.running = false ∨ f.boot.hbm = false then f
  else if !r.status.good 5 then f.tosDiscard p
  else
    match laneAssign r.healthy l.retired with
    | none => (f.setLink p.val (l.failed f.part.time.now)).wornNoSpare (800 + 3 * p.val) 3
    | some m =>
      let f := f.emit (.tos (.fysterEnd p) (mkStatus 1 l.restart false l.rxFseq m.toNat r.skew))
      let f := f.takeStatus p (statusMsg r.status)
      let f := f.setLink p.val ((f.link p.val).trained m r.skew)
      let f := match swappedLane l.laneMap m with
        | some _ =>
          ((f.bump 0x7000 5 1).log (event 0x0010 (544 + p.val) (544 + p.val) (544 + p.val))).wearNotice f.dieVal (544 + p.val)
            (544 + p.val) f.ns false
        | none => f
      ((f.discovers p.val).resumeReplay p).recovDone 1

/-- R39 for the direction that Fyster receives: the correction that the TU makes; none if logical lane 0 has not moved. -/
def Fyster.lane0Move (before after : Link) : Option (Option Int) :=
  if before.st ≠ .up ∧ after.st = .up ∧ before.restart = false ∧ lane0 before.laneMap ≠ lane0 after.laneMap then
    some (before.skew.map fun d => -d)
  else none

/-- TL_TRAINING_DONE (R39, R391, R410). -/
def execTlTrainingDone (dt : Nat) (e : End) (r : TrainResult) (s : State) : Host.Outcome State Fault Refusal :=
  match e with
  | .tuEnd p => .next (onTu p dt (fun t => t.trainingDone p r) s)
  | .fysterEnd p =>
    let f0 := s.fy.tick dt
    let f := f0.trainingDone p r
    let came := (f0.link p.val).st != .up && (f.link p.val).st == .up
    let t := s.tu p
    let t := match Fyster.lane0Move (f0.link p.val) (f.link p.val) with
      | some d => t.moveLane0 p d
      | none => t
    .next (if came then ({ s with fy := f }).setTu p (f.pushTo p.val t) else { s with fy := f })

/-- A write of PORT_DIE_ID (R391): it completes a pending discovery. -/
def Fyster.wrPortDieId (f : Fyster) (p v : Nat) : Fyster × Nat :=
  let f := f.wr 0x1010 (p + 1) v
  (if bitOf (f.rd 0x1030 7) p && (f.link p).st == .up then f.discovers p else f, 0)

/-! ### Out-of-band and hall-fabric ports (R32, R390, R400, R413) -/

/-- An out-of-band port has trained. -/
def Fyster.oobUp (f : Fyster) (q : Nat) : Fyster := ((f.setOob q { f.oob q with up := true }).wr (0x1110 + q) 7 1).bmca

/-- OOB_TRAINING_DONE (R390). -/
def execOobTrainingDone (dt : Nat) (q : Fin 2) (s : State) : Host.Outcome State Fault Refusal :=
  .next (onFy dt (fun f => if f.boot.running && !(f.oob q.val).up then f.oobUp q.val else f) s)

/-- R32, R400: an out-of-band port loses its link. -/
def Fyster.oobDown (f : Fyster) (q : Nat) : Fyster :=
  if !(f.oob q).up then f
  else
    (((f.setOob q { f.oob q with up := false, foreign := none, sync := none, syncDelay := none }).wr (0x1110 + q) 7 0).bmca).recovStart 4

/-- OOB_LINK_DOWN. -/
def execOobLinkDown (dt : Nat) (q : Fin 2) (s : State) : Host.Outcome State Fault Refusal :=
  .next (onFy dt (fun f => f.oobDown q.val) s)

/-- OOB_RETRAIN_TIMER (R400). -/
def execOobRetrainTimer (dt : Nat) (q : Fin 2) (ok : Bool) (s : State) : Host.Outcome State Fault Refusal :=
  .next (onFy dt (fun f =>
    if f.boot.running && !(f.oob q.val).up && ok then (f.oobUp q.val).recovDone 4 else f) s)

/-- FABRIC_PORT_DOWN (R400, R413). -/
def execFabricPortDown (dt : Nat) (k : Fin 8) (s : State) : Host.Outcome State Fault Refusal :=
  .next (onFy dt (fun f =>
    if bitOf (f.rd 0x1170 1) k.val then (f.wr 0x1170 1 (setBit (f.rd 0x1170 1) k.val false)).recovStart 6 else f) s)

/-- FABRIC_RETRAIN_TIMER (R400); a port that has not trained since reset comes up in the same way (log 70). -/
def execFabricRetrainTimer (dt : Nat) (k : Fin 8) (ok : Bool) (s : State) : Host.Outcome State Fault Refusal :=
  .next (onFy dt (fun f => if ok then (f.wr 0x1170 1 (setBit (f.rd 0x1170 1) k.val true)).recovDone 6 else f) s)

/-- FABRIC_INBOUND_REFUSED (R413). -/
def execFabricInboundRefused (dt : Nat) (_isWrite : Bool) (_addr : Word) (s : State) : Host.Outcome State Fault Refusal :=
  .next (onFy dt (fun f => f.fabricRefuse) s)

/-- PORT_DIE_ID_WRITE (R391). -/
def execPortDieIdWrite (dt : Nat) (p : Port) (lvl : Level) (v : BitVec 32) (s : State) : Host.Outcome State Fault Refusal :=
  let f0 := s.fy.tick dt
  let f := f0.reply lvl 2 (f0.wrPortDieId p.val v.toNat)
  .next (if tget f0.nodes p.val 0 != 2 && tget f.nodes p.val 0 == 2 then ({ s with fy := f }).setTu p (f.pushTo p.val (s.tu p))
    else { s with fy := f })

end Sys2Proof.Machine
end

