-- ==== Sys2Proof/Machine/Power.lean ====
section
/-! DEFINITION. Power failure and NOR (R365, R383, R384, R393, R398), resets of Fyster and of a TU (R222, R390 to R397), tray
power admission (R388, R424), temperature (R426), the host ring and the PCIe endpoint (R415 to R418). -/

namespace Sys2Proof.Machine

/-! ### Stores into NOR (R365, R393) -/

/-- A store of values into the sector that is not in force; one under way starts again with the new values. -/
def NorStore.start (n : NorStore) (v : List (Nat × Nat)) : NorStore := { n with busy := some (v, false), failed := false }

/-- R398: a store is abandoned; the older sector stays in force. -/
def NorStore.abandon (n : NorStore) : NorStore := { n with busy := none }

/-- The values of the sector in force. -/
def NorStore.values (n : NorStore) : Option (List (Nat × Nat)) := if n.inForce = 0 then n.sector0 else n.sector1

/-- R365: the new sector has read back: it is in force and the other is erased. -/
def NorStore.stored (n : NorStore) : NorStore :=
  match n.busy with
  | none => n
  | some (v, _) =>
    if n.inForce = 0 then { n with inForce := 1, sector0 := none, sector1 := some v, busy := none, failed := false }
    else { n with inForce := 0, sector0 := some v, sector1 := none, busy := none, failed := false }

/-- R400: a store did not read back: it is retried once, then FAILED. The second answer: it is retried. -/
def NorStore.missed (n : NorStore) : NorStore × Bool :=
  match n.busy with
  | none => (n, false)
  | some (v, again) => if again then ({ n with busy := none, failed := true }, false) else ({ n with busy := some (v, true) }, true)

/-- Numeric objects that R393 and R414 keep in NOR. -/
def persistentObj (key : Nat) : Bool :=
  let i := key / 256
  let s := key % 256
  (i == 0x1001 && s == 1) || i == 0x1010 || i == 0x1100 || (i == 0x1030 && s == 4) ||
    ((i == 0x1110 || i == 0x1111) && decide (2 ≤ s) && s != 7) || (i == 0x1210 && decide (s ≤ 8)) ||
    (i == 0x1220 && decide (1 ≤ s) && decide (s ≤ 4)) || (i == 0x3600 && s != 2 && decide (s ≤ 6)) ||
    (i == 0x7880 && (s == 2 || s == 3))

/-- Calibration objects and the factory record (R365, R393). -/
def calObj (key : Nat) : Bool := decide (0x7C0000 ≤ key) && decide (key < 0x7C6000)

/-- The persistent values as NOR holds them: numbers by key; an address of 16 bytes as its number plus 2^128. -/
def Fyster.persistent (f : Fyster) : List (Nat × Nat) :=
  (f.part.obj.filter fun e => persistentObj e.1) ++
    (f.part.dom.filter fun e => persistentObj e.1).map fun e => (e.1 + 2 ^ 32, leNat e.2 + if e.2.isEmpty then 0 else 2 ^ 128)

/-- R393: a persistent object has changed: it is stored within 200 ms. -/
def Fyster.persist (f : Fyster) : Fyster := { f with objNor := f.objNor.start f.persistent }

/-- The numeric part of stored values. -/
def norObj (l : List (Nat × Nat)) : Tab Nat := (l.filter fun e => decide (e.1 < 2 ^ 32)).foldl (fun t e => tset t e.1 e.2) []

/-- The addresses of stored values. -/
def norDom (l : List (Nat × Nat)) : Tab (List Byte) :=
  (l.filter fun e => decide (2 ^ 32 ≤ e.1)).foldl (fun t e =>
    tset t (e.1 - 2 ^ 32) (if e.2 < 2 ^ 128 then [] else leBytes 16 e.2)) []

/-! ### A reset of Fyster (R222, R390, R394) -/

/-- R222: a segment as the scan after a warm reset leaves it. -/
def Seg.scanned (s : Seg) : Seg := if s.closed then s else { s with closed := true, resumed := true }

/-- R222: a partition after the scan. -/
def Partition.scanned (q : Partition) : Partition := { q with segs := q.segs.map Seg.scanned, block := none, overwrites := 0, rate := [] }

/-- R222: the hold of tag 0xFFFFFFFF and cause RESET over every segment that the scan found. -/
def Fyster.resetHold (f : Fyster) : Fyster :=
  let ranges : List (Nat × Nat × Option Nat) := f.ring.filterMap fun e =>
    match e.2.segs.head? with
    | some s => some (e.1, s.serial, some e.2.newest)
    | none => none
  if ranges.isEmpty then f else (f.pin 0xFFFFFFFF 3 ranges).1

/-- A recorder that a reset keeps (R376): a flush under way has ended without its header, and FLUSH_SERIAL counts from the reset
(R379). -/
def Recorder.kept (r : Recorder) : Recorder := { r with flush := none, flushSerial := 0, frozen := false }

/-- Boot logic: image A, else image B; with neither, the cores stay in reset (R390). -/
def bootWith (imageA imageB : Bool) (kind : Nat) (last : Nat) : Boot :=
  { running := imageA || imageB, failed := !(imageA || imageB), image := if imageA then 0 else 1, imgA := imageA, imgB := imageB,
    hbm := false, kind := kind, pfail := false, persistLost := false, lastStart := last }

/-- What every reset of Fyster keeps: NOR, what the calibration and persistent objects hold, RESET_EPOCH raised by one, the
numbers of sessions and of free values, and what has left on its ports. -/
def Fyster.resetBase (f : Fyster) (kind : Nat) (imageA imageB : Bool) : Fyster :=
  let part : Part := { Part.reset with
    obj := f.part.obj.filter fun e => persistentObj e.1 || calObj e.1
    dom := f.part.dom.filter fun e => persistentObj e.1 }
  { Fyster.reset with
    part := part
    nextSession := f.nextSession
    calNor := f.calNor, objNor := f.objNor, flushNor := f.flushNor
    norTorn := match f.norSlot with
      | some s => f.norTorn ++ [s]
      | none => f.norTorn
    boot := bootWith imageA imageB kind 0
    resetEpoch := f.resetEpoch + 1
    out := f.out
    fresh := f.fresh }

/-- R401: after a warm boot TAINT_SERIAL expectations go on from the taint lists. -/
def PortWmk.warm (x : PortWmk) : PortWmk := { PortWmk.zero with listed := x.listed, lastSerial := x.lastSerial }

/-- R394: a reset of Fyster: 1 POWER_ON, 2 RESET_PIN, 3 COLD_REQ, 4 WARM_REQ, 5 WATCHDOG. -/
def Fyster.resetAs (f : Fyster) (kind : Nat) (imageA imageB : Bool) : Fyster :=
  let g := f.resetBase kind imageA imageB
  let g := if 3 ≤ kind then { g with images := f.images, part := { g.part with evr := f.part.evr.kept } } else g
  let g := if 4 ≤ kind then
      ({ g with
        ring := f.ring.map fun (e : Nat × Partition) => (e.1, e.2.scanned)
        red := { Red.reset with ledger := f.red.ledger }
        taints := f.taints, taintCount := f.taintCount
        wmk := f.wmk.map fun (e : Nat × PortWmk) => (e.1, e.2.warm) }).resetHold
    else g
  let g := if kind = 5 then g.recovStart 3 else g
  g.startCheck

/-- R398: the supplies fall away: NOR alone remains, with the older sector in force where a store was cut off. -/
def Fyster.powerLost (f : Fyster) : Fyster :=
  let stored := (f.objNor.values.getD []) ++ (f.calNor.values.getD [])
  { Fyster.reset with
    part := { Part.reset with obj := norObj stored, dom := norDom stored }
    nextSession := f.nextSession
    calNor := f.calNor.abandon, objNor := f.objNor.abandon, flushNor := f.flushNor
    norTorn := match f.norSlot with
      | some s => f.norTorn ++ [s]
      | none => f.norTorn
    resetEpoch := f.resetEpoch
    out := f.out
    fresh := f.fresh }

/-- FYSTER_POWER_LOSS (R398). -/
def execFysterPowerLoss (dt : Nat) (s : State) : Host.Outcome State Fault Refusal := .next (onFy dt (fun f => f.powerLost) s)

/-- FYSTER_POWER_ON (R390). -/
def execFysterPowerOn (dt : Nat) (imageA imageB : Bool) (s : State) : Host.Outcome State Fault Refusal :=
  .next (onFy dt (fun f => f.powerLost.resetAs 1 imageA imageB) s)

/-- RESET_PIN (R394). -/
def execResetPin (dt : Nat) (imageA imageB : Bool) (s : State) : Host.Outcome State Fault Refusal :=
  .next (onFy dt (fun f => f.resetAs 2 imageA imageB) s)

/-- A write of RESET_REQUEST (R394): the reset follows the answer. -/
def Fyster.wrResetRequest (f : Fyster) (v : Nat) : Fyster × Nat :=
  if v = 1 ∨ v = 2 then ({ f with resetAfter := some (if v = 2 then 3 else 4) }, 0) else (f, 0x26)

/-- A reset that a write has ordered is done once the write has been answered. -/
def Fyster.resetIfOrdered (f : Fyster) : Fyster :=
  match f.resetAfter with
  | some k => if k = 3 ∨ k = 4 then f.resetAs k f.boot.imgA f.boot.imgB else f
  | none => f

/-- RESET_REQUEST as a command of its own: the images are those that verify at this boot. -/
def Fyster.resetRequest (f : Fyster) (lvl : Level) (v : Nat) (imageA imageB : Bool) : Fyster :=
  if Level.rank lvl < 2 then f.emit (.answer 5)
  else
    let g := { f with boot := { f.boot with imgA := imageA, imgB := imageB } }
    (g.reply lvl 2 (g.wrResetRequest v)).resetIfOrdered

/-- COLD_RESET_REQUEST. -/
def execColdResetRequest (dt : Nat) (lvl : Level) (imageA imageB : Bool) (s : State) : Host.Outcome State Fault Refusal :=
  .next (onFy dt (fun f => f.resetRequest lvl 2 imageA imageB) s)

/-- WARM_RESET_REQUEST. -/
def execWarmResetRequest (dt : Nat) (lvl : Level) (imageA imageB : Bool) (s : State) : Host.Outcome State Fault Refusal :=
  .next (onFy dt (fun f => f.resetRequest lvl 1 imageA imageB) s)

/-- R394: the watchdog: the flush of R383 steps 3 and 4, then the reset; with no slot to flush into, the reset at once. -/
def Fyster.watchdog (f : Fyster) (imageA imageB : Bool) : Fyster :=
  if !f.boot.running then f
  else
    let f := f.flush 4
    if f.norSlot.isSome then { f with resetAfter := some 5, boot := { f.boot with imgA := imageA, imgB := imageB } }
    else f.resetAs 5 imageA imageB

/-- FW_WATCHDOG_EXPIRY. -/
def execFwWatchdogExpiry (dt : Nat) (imageA imageB : Bool) (s : State) : Host.Outcome State Fault Refusal :=
  .next (onFy dt (fun f => f.watchdog imageA imageB) s)

/-- HBM_TRAINING_DONE (R390): the TL ports may train. -/
def execHbmTrainingDone (dt : Nat) (s : State) : Host.Outcome State Fault Refusal :=
  .next (onFy dt (fun f =>
    if f.boot.running && !f.boot.hbm then
      let f := { f with boot := { f.boot with hbm := true } }
      let f := (List.range 32).foldl (fun f p => f.setLink p { f.link p with st := .training }) f
      (f.recovDone 3).startCheck
    else f) s)

/-! ### Power failure (R383, R398) -/

/-- R382, R383: TR_EVENT PFAIL to the TU on port `p`. -/
def Fyster.pfailTo (f : Fyster) (p : Nat) : Fyster :=
  if tget f.nodes p 0 = 2 then
    let e : EvRec := { code := 3, unit := 512, param := 0, rep := 0, uncertain := false, late := false, repSat := false, gslot := 0xFF,
                       arg := 0, first := f.ts, last := f.ts }
    f.sendTu p (f.mkRec 0x0A selfStream 512 0xFF f.ns (eventPay false e))
  else f

/-- R398: PFAIL_N is recognised; before step 2 of R390 it does nothing. -/
def Fyster.pfail (f : Fyster) : Fyster :=
  if !f.boot.running || f.boot.pfail then f
  else
    let f := { f with boot := { f.boot with pfail := true } }
    let f := (f.log (event 0x0003 512 0 0)).flush 1
    let f := (List.range 32).foldl Fyster.pfailTo f
    let f := (List.range 4).foldl (fun f ch =>
      if (f.dump ch).state = 1 ∨ (f.dump ch).state = 2 then f.dumpEnd ch 4 else f) f
    let f := if f.jun.batch.state = 1 ∨ f.jun.batch.state = 2 then f.batchEnd 4 else f
    ({ f with calNor := f.calNor.abandon, objNor := f.objNor.abandon }).emit (.msix 66)

/-- PFAIL_RECOGNISED. -/
def execPfailRecognised (dt : Nat) (s : State) : Host.Outcome State Fault Refusal := .next (onFy dt (fun f => f.pfail) s)

/-- PFAIL_GLITCH (R398, R380). -/
def execPfailGlitch (dt : Nat) (s : State) : Host.Outcome State Fault Refusal :=
  .next (onFy dt (fun f => f.counted 512 0x1030 8 1) s)

/-- R398: PFAIL_N rises: a recorder that no flush holds is released. -/
def Fyster.pfailOver (f : Fyster) : Fyster :=
  let f := { f with boot := { f.boot with pfail := false } }
  if f.part.evr.flush.isNone then { f with part := { f.part with evr := { f.part.evr with frozen := false } } } else f

/-- PFAIL_DEASSERT. -/
def execPfailDeassert (dt : Nat) (s : State) : Host.Outcome State Fault Refusal := .next (onFy dt (fun f => f.pfailOver) s)

/-- NOR_FLUSH_DONE (R384): the header is written; a watchdog reset that waited for it follows (R394). -/
def execNorFlushDone (dt : Nat) (s : State) : Host.Outcome State Fault Refusal :=
  .next (onFy dt (fun f =>
    let f := f.norWritten
    if f.resetAfter = some 5 ∧ f.norSlot = none then f.resetAs 5 f.boot.imgA f.boot.imgB else f) s)

/-! ### A reset of a TU (R213, R395) -/

/-- R395: a TU is reset: 1 POWER_ON, 2 RESET_IN, 3 REQUEST, 4 INTERNAL. Only POWER_ON empties its recorder and clears
DIE_RESETS_SEEN. -/
def Tu.resetAs (t : Tu) (kind : Nat) : Tu :=
  let p := if kind = 1 then Part.reset
    else { Part.reset with evr := t.part.evr.kept, obj := t.part.obj.filter fun e => e.1 == objKey 0x2E00 3 }
  { Tu.reset with part := p, powered := true, lastReset := kind, out := t.out, fresh := t.fresh }

/-- TU_POWER_ON. -/
def execTuPowerOn (dt : Nat) (p : Port) (s : State) : Host.Outcome State Fault Refusal := .next (onTu p dt (fun t => t.resetAs 1) s)

/-- TU_RESET_IN. -/
def execTuResetIn (dt : Nat) (p : Port) (s : State) : Host.Outcome State Fault Refusal := .next (onTu p dt (fun t => t.resetAs 2) s)

/-- A write of TU_RESET_REQUEST, but for the reset itself. -/
def Tu.wrResetRequest (t : Tu) (v : Nat) : Tu × Nat := if 1 < v then (t, 0x26) else (t, 0)

/-- TU_RESET_REQUEST (R395): the reset follows the answer. NODE_STATE reads RESETTING until the TU trains again (log 67). -/
def execTuResetRequest (dt : Nat) (p : Port) (lvl : Level) (v : Byte) (s : State) : Host.Outcome State Fault Refusal :=
  let t := (s.tu p).tick dt
  let r := t.wrResetRequest v.toNat
  let t := t.reply lvl 2 r
  .next (if 2 ≤ Level.rank lvl ∧ v.toNat = 1 then
      ({ s with fy := { s.fy with nodes := if tget s.fy.nodes p.val 0 = 2 then tset s.fy.nodes p.val 3 else s.fy.nodes } }).setTu p
        (t.resetAs 3)
    else s.setTu p t)

/-- R382, R395: an internal fault: with the TL up the log is flushed first, and the reset follows the last part. -/
def Tu.internalFault (t : Tu) : Tu :=
  if t.link.st = .up then
    let t := t.flush 4
    if t.part.evr.flush.isSome then { t with faultReset := true } else t.resetAs 4
  else t.resetAs 4

/-- TU_INTERNAL_FAULT. -/
def execTuInternalFault (dt : Nat) (p : Port) (s : State) : Host.Outcome State Fault Refusal :=
  .next (onTu p dt (fun t => t.internalFault) s)

/-- EVR_FLUSH_PART (R382); after the last part a fault's reset follows (R395). -/
def execEvrFlushPart (dt : Nat) (p : Port) (s : State) : Host.Outcome State Fault Refusal :=
  .next (onTu p dt (fun t =>
    let t := t.flushStep
    if t.faultReset && t.part.evr.flush.isNone then t.resetAs 4 else t) s)

/-- R396: the die-reset indication: slots close with ABANDONED, every launch has ended, the trace sources write PWR_DOWN with
ABRUPT. -/
def Tu.dieReset (t : Tu) : Tu :=
  let t := (t.bump 0x2E00 3 1).abandonSlots
  let launches := (t.binds.map (·.launch) ++ t.units.flatMap fun u => u.2.launches).eraseDups
  let t := launches.foldl Tu.launchEnd t
  (List.range 73).foldl (fun t i => if (t.enc i).down.isSome then t else t.traceDown i 0 true) t

/-- DIE_RESET_INDICATION. -/
def execDieResetIndication (dt : Nat) (p : Port) (s : State) : Host.Outcome State Fault Refusal :=
  .next (onTu p dt (fun t => t.dieReset) s)

/-! ### Tray power (R387 to R389, R424) -/

/-- R424: the fields of an answer on PWR_ACK: requester, OP, SEQ; none with a bad CRC or a reserved OP. -/
def powerAnswer (m : Word) : Option (Nat × Nat × Nat) :=
  let v := m.toNat
  let op := bitsOf v 4 4
  if bitsOf v 32 32 = crc32c (leBytes 4 v) ∧ 8 ≤ op ∧ op ≤ 10 then some (bitsOf v 0 4, op, bitsOf v 24 8) else none

/-- The operation that waited for power goes on (R241, R247, R312, R387). -/
def Fyster.powered (f : Fyster) (id : Nat) : Fyster :=
  if !f.granted id then f
  else if id = 0 then f.snapCopied
  else if id ≤ 4 then f.dumpRun (id - 1)
  else if id = 5 ∧ f.jun.batch.state = 1 then { f with jun := { f.jun with batch := { f.jun.batch with state := 2 } } }
  else f

/-- R388: the operation returns to its unpowered state. -/
def Fyster.unpowered (f : Fyster) (id : Nat) : Fyster :=
  if 1 ≤ id ∧ id ≤ 4 ∧ (f.dump (id - 1)).state = 2 then f.setDump (id - 1) { f.dump (id - 1) with state := 1 }
  else if id = 5 ∧ f.jun.batch.state = 2 then { f with jun := { f.jun with batch := { f.jun.batch with state := 1 } } }
  else f

/-- R388, R424: an answer of the tray power controller. One that cannot be taken is discarded and counted (log 72). -/
def Fyster.powerMsg (f : Fyster) (m : Word) : Fyster :=
  match powerAnswer m with
  | none => f.bump 0x7880 0xF0 1
  | some (id, op, seq) =>
    let r := f.part.pwrReq id
    if r.seq ≠ seq ∨ (op ≠ 10 ∧ r.outstanding = false) then f.bump 0x7880 0xF0 1
    else
      let now := f.part.time.now
      match op with
      | 8 =>
        let r := if f.boot.pfail then { r with wanted := false } else r
        ((f.pwr id (r.grant now)).recovDone 10).powered id
      | 9 => (f.pwr id (r.refuse now)).recovDone 10
      | _ => if r.st = .granted then (f.pwr id (r.revoke now)).unpowered id else f

/-- TRAY_PWR_GRANT. -/
def execTrayPwrGrant (dt : Nat) (m : Word) (s : State) : Host.Outcome State Fault Refusal := .next (onFy dt (fun f => f.powerMsg m) s)

/-- TRAY_PWR_REFUSE. -/
def execTrayPwrRefuse (dt : Nat) (m : Word) (s : State) : Host.Outcome State Fault Refusal := .next (onFy dt (fun f => f.powerMsg m) s)

/-- TRAY_PWR_REVOKE. -/
def execTrayPwrRevoke (dt : Nat) (m : Word) (s : State) : Host.Outcome State Fault Refusal := .next (onFy dt (fun f => f.powerMsg m) s)

/-- TRAY_PWR_TIMEOUT (R388, R400). -/
def execTrayPwrTimeout (dt : Nat) (id : Fin 16) (s : State) : Host.Outcome State Fault Refusal :=
  .next (onFy dt (fun f =>
    let o := (f.part.pwrReq id.val).timeout (f.rd 0x7880 4) f.part.time.now
    if o.counts.isEmpty then f else (f.pwr id.val o).recovStart 10) s)

/-- TRAY_PWR_BACKOFF_EXPIRY (R209, R388, R389). -/
def execTrayPwrBackoffExpiry (dt : Nat) (id : Fin 16) (s : State) : Host.Outcome State Fault Refusal :=
  .next (onFy dt (fun f => (f.pwr id.val ((f.part.pwrReq id.val).retry f.part.time.now)).powered id.val) s)

/-- TRAY_PWR_RELEASE_REPEAT (R424): every RELEASE goes out twice, 20 µs apart; under SELF_GRANT nothing is sent. -/
def execTrayPwrReleaseRepeat (dt : Nat) (id : Fin 16) (s : State) : Host.Outcome State Fault Refusal :=
  .next (onFy dt (fun f =>
    let r := f.part.pwrReq id.val
    match r.releaseDue with
    | some t =>
      if t + 20000 * 65536 ≤ f.part.time.now then
        let f := { f with part := { f.part with pwr := tset f.part.pwr id.val { r with releaseDue := none } } }
        if f.rd 0x7880 2 = 1 then f else f.emit (.power 2 id.val r.units r.seq)
      else f
    | none => f) s)

/-! ### Temperature (R426, R428) -/

/-- R426: a reading in 0.01 °C: the highest since reset, the crossing in the log, and THERM_N at the hard limit. -/
def Fyster.temperature (f : Fyster) (hbm : Bool) (centi : Int) : Fyster :=
  let sub := if hbm then 3 else 2
  let hard : Int := if hbm then 10000 else 11500
  let high := match tfind f.part.obj (objKey 0x1173 sub) with
    | some v => max (toInt 16 v) centi
    | none => centi
  let f := f.wr 0x1173 sub (ofInt 16 (min 32767 (max (-32768) high)))
  let f := if hard ≤ centi then { f with thermal := true } else f
  f.log (event 0x0F00 512 (0x1173 * 65536 + sub * 256) (ofInt 32 centi))

/-- THERMAL_LIMIT. -/
def execThermalLimit (dt : Nat) (hbm : Bool) (centi : Int) (s : State) : Host.Outcome State Fault Refusal :=
  .next (onFy dt (fun f => f.temperature hbm centi) s)

/-! ### PCIe (R415 to R418) -/

/-- HOST_RING_INT (R417). -/
def execHostRingInt (dt : Nat) (s : State) : Host.Outcome State Fault Refusal :=
  .next (onFy dt (fun f =>
    let h := f.host
    if h.raised < h.count ∧ h.raisedAt + h.intUs * 1000 ≤ f.ns then
      ({ f with host := { h with raised := h.count, raisedAt := f.ns } }).emit (.msix 64)
    else f) s)

/-- BAR2_WRITE (R418): discarded, counted and logged (log 72). -/
def execBar2Write (dt : Nat) (_offset : Word) (_v : List Byte) (s : State) : Host.Outcome State Fault Refusal :=
  .next (onFy dt (fun f =>
    let f := f.bump 0x1171 0xF0 1
    f.log (event 0x0F00 512 (0x1171 * 65536) (f.rd 0x1171 0xF0 % 2 ^ 32))) s)

/-- The host-ring registers after a reset of the endpoint. -/
def HostRing.reset : HostRing :=
  { base := 0, size := 0, wrAddr := 0, rd := 0, intUs := 100, aperture := 0, count := 0, raised := 0, raisedAt := 0, entries := [] }

/-- PCIE_RESET (R394, R415): the endpoint alone. -/
def execPcieReset (dt : Nat) (s : State) : Host.Outcome State Fault Refusal :=
  .next (onFy dt (fun f => { f with host := .reset }.wr 0x1171 2 0) s)

/-- R416: a write that the ring and aperture registers do not take. -/
def Fyster.ringRegRefused (f : Fyster) : Fyster :=
  let f := f.bump 0x1171 0xF1 1
  f.log (event 0x0F00 512 (0x1171 * 65536) (f.rd 0x1171 0xF1 % 2 ^ 32))

/-- The entries of the host ring that are left once `n` more bytes have been consumed. -/
def freeEntries : Nat → List (Nat × List Byte) → List (Nat × List Byte)
  | _, [] => []
  | n, e :: r => if e.2.length ≤ n then freeEntries (n - e.2.length) r else e :: r

/-- R416: a power of two. -/
def powerOfTwo (v : Nat) : Bool := v != 0 && popCount 64 v == 1

/-- R416: a host write to the ring and aperture registers. A write at another offset is discarded. -/
def Fyster.ringReg (f : Fyster) (offset v : Nat) : Fyster :=
  let h := f.host
  let put (ok : Bool) (h' : HostRing) : Fyster := if h.base = 0 ∧ ok = true then { f with host := h' } else f.ringRegRefused
  match offset with
  | 0x200000 => put (v % 4096 == 0) { h with base := v }
  | 0x200008 => put (powerOfTwo v && decide (65536 ≤ v) && decide (v ≤ 1073741824)) { h with size := v }
  | 0x200010 => put (v % 8 == 0) { h with wrAddr := v }
  | 0x200018 =>
    if h.rd ≤ v ∧ v ≤ h.count then { f with host := { h with rd := v, entries := freeEntries (v - h.rd) h.entries } }
    else f.ringRegRefused
  | 0x200020 => put (decide (10 ≤ v % 2 ^ 32) && decide (v % 2 ^ 32 ≤ 10000)) { h with intUs := v % 2 ^ 32 }
  | 0x300000 => put (v % 2097152 == 0) { h with aperture := v }
  | _ => f

/-- HOST_RING_REGISTER_WRITE. -/
def execHostRingRegisterWrite (dt : Nat) (offset : BitVec 24) (v : Word) (s : State) : Host.Outcome State Fault Refusal :=
  .next (onFy dt (fun f => f.ringReg offset.toNat v.toNat) s)

end Sys2Proof.Machine
end

