-- ==== Sys2Proof/Machine/ReadTu.lean ====
section
/-! DEFINITION. What the objects of a TU read (R347, R348): numbers, strings and DOMAIN values that stand in the state under a name of
their own, and every other object as it was last written or counted. -/

namespace Sys2Proof.Machine

/-- Bytes of a text of the dictionary. -/
def asciiBytes (l : List Nat) : List Byte := l.map fun c => BitVec.ofNat 8 c

/-- VENDOR (R362): "Rhoica". -/
def vendorText : List Byte := asciiBytes [0x52, 0x68, 0x6F, 0x69, 0x63, 0x61]

/-- PART of a TU (R362): "TDU-2". -/
def tuPartText : List Byte := asciiBytes [0x54, 0x44, 0x55, 0x2D, 0x32]

/-- PART of Fyster (R362): "FY-2412". -/
def fyPartText : List Byte := asciiBytes [0x46, 0x59, 0x2D, 0x32, 0x34, 0x31, 0x32]

/-- Identity numbers of a node (R362). -/
def identityNat (node s : Nat) : Nat :=
  match s with
  | 5 => (Config.fwVersion node).toNat
  | 6 => 1
  | 7 => (Config.capabilities node).toNat
  | _ => node

/-- Identity texts and HW_ID of a node (R362). -/
def identityBytes (node s : Nat) : List Byte :=
  match s with
  | 1 => vendorText
  | 2 => if node = 0 then fyPartText else tuPartText
  | 3 => Config.stepping node
  | _ => (Config.hwId node).toList

/-- Records lost with a cause, over all activities or ports. -/
def Part.lostBy (p : Part) (cause : Nat) : Nat :=
  min (sumBy (fun (e : Nat × LossAcc) => if e.1 % 16 = cause then e.2.records else 0) p.loss) max64

/-- Records lost in one accumulator. -/
def Part.lostAt (p : Part) (who cause : Nat) : Nat :=
  match tfind p.loss (lossKey who cause) with
  | some a => a.records
  | none => 0

/-- EVR_DATA from record `first` on (R381): the head and up to 512 records of a log whose oldest record is `oldest`. -/
def evrData (oldest first : Nat) (log : List EvRec) : List Byte :=
  let from' := min (max first oldest) (oldest + log.length)
  let rs := (log.drop (from' - oldest)).take 512
  leBytes 8 from' ++ leBytes 8 rs.length ++ rs.flatMap EvRec.bytes

/-- TL_LANE_MAP of an end (R428): its own receive map, and the map that the partner reported. -/
def Link.mapObject (l : Link) : Nat := l.laneMap.toNat + 256 * l.partnerMap.toNat

/-- Link objects of an end (R428, R429): state, maps, skew. -/
def Link.objNat (l : Link) (s : Nat) : Nat :=
  match s with
  | 1 => l.st.code
  | 2 => l.mapObject
  | _ => l.skewCode

/-- Requester objects (R214): state and backoff. -/
def PwrReq.objNat (r : PwrReq) (s : Nat) : Nat := if s = 1 then r.code else r.backoffUs

/-- CRC objects (R77). -/
def Part.crcObj (p : Part) (k s : Nat) : Nat :=
  match s with
  | 1 => p.crcCtrl k
  | 2 => (p.crcUnit k).value.toNat
  | _ => (p.crcUnit k).length

/-! ### A TU -/

/-- TU_START_STATE (R404). -/
def Tu.startState (t : Tu) : Nat :=
  if !t.powered then 0
  else if t.discovered then (if t.part.time.everLocked then 4 else 3)
  else if t.link.st = .up then 2
  else 1

/-- MACE_STATUS (0x2900:0B). -/
def Tu.maceStatus (t : Tu) : Nat :=
  packNat [(b2n (bitOf t.wflags 2), 1), (b2n (bitOf t.wflags 1), 1), (b2n (bitOf t.wflags 3), 1), (b2n (t.part.flag 0x2940 1), 1)]

/-- TRACE_STATUS (0x2760:07). -/
def Tu.traceStatus (t : Tu) : Nat :=
  let r := t.part.pwrReq 0
  packNat [(b2n t.win.error, 1), (b2n (r.wanted && r.st != .granted), 1), (b2n (r.st == .granted), 1)]

/-- SPARE_MAP (0x2370:01). -/
def Tu.spareMap (t : Tu) : Nat := packNat ((List.range 4).map fun i => ((tfind t.spares i).getD 0xFF, 8))

/-- Objects of a sample set (R103). -/
def SampleSet.objNat (x : SampleSet) (stored s : Nat) : Nat :=
  match s with
  | 1 => packNat [(b2n x.enable, 1), (b2n x.follow, 1), (0, 6), (x.gslot, 8)]
  | 2 => x.period
  | 3 => x.phase
  | 5 => x.zoom
  | 6 => b2n x.pin
  | 7 => x.pinZ
  | _ => stored

/-- Selection word of a counter (R91). -/
def Cnt.selWord (x : Cnt) : Nat := packNat [(x.source, 10), (b2n x.percmd, 1), (0, 6), (b2n x.sat, 1)]

/-- Objects of a trace encoder (R139, R145). -/
def Enc.objNat (e : Enc) (stored s : Nat) : Nat :=
  match s with
  | 1 => e.mode
  | 2 => e.tsInt
  | 3 => e.total
  | 5 => e.inForce
  | _ => stored

/-- TU_SERVO objects (0x2200). -/
def Tu.timeObj (t : Tu) (s : Nat) : Nat :=
  let tm := t.part.time
  match s with
  | 1 => tm.servo.code
  | 2 => ofInt 64 (offsetPs (if tm.servo = .stepPending then tm.pending2 else tm.offset2))
  | 4 => tm.pendingSerial
  | 7 => min t.uNs 0xFFFFFFFF
  | _ => t.rd 0x2200 s

/-- Loss objects of a TU (R88). -/
def Tu.lossObj (t : Tu) (s : Nat) : Nat :=
  if 1 ≤ s ∧ s ≤ 8 then t.part.lostAt (s - 1) 1
  else
    match s with
    | 9 => t.part.lostBy 2
    | 0x0A => t.part.lostBy 3
    | 0x0B => t.part.lostBy 4
    | 0x0D => t.part.lostBy 8
    | 0x0F => t.part.lostBy 9
    | _ => t.rd 0x2110 s

/-- Window and freeze objects (R147, R154). -/
def Tu.windowObj (t : Tu) (s : Nat) : Nat :=
  match s with
  | 1 => t.win.base
  | 2 => t.win.size
  | 3 => t.win.writePtr
  | 4 => t.win.drainPtr
  | 7 => t.traceStatus
  | _ => t.rd 0x2760 s

/-- Freeze objects (R154). -/
def Tu.freezeObj (t : Tu) (s : Nat) : Nat :=
  match s with
  | 3 => b2n t.frz.frozen.isSome
  | 4 => (t.frz.frozen.map (·.1)).getD 0
  | 5 => ts64Of ((t.frz.frozen.map (·.2)).getD 0)
  | _ => t.rd 0x2770 s

/-- Group-slot objects of a TU (R252). -/
def TGroup.objNat (x : TGroup) (s : Nat) : Nat :=
  match s with
  | 2 => x.state
  | 3 => x.id
  | 4 => x.serial
  | _ => ts64Of x.release

/-- Phase-tracker objects (R117, R133). -/
def Tu.phaseObj (t : Tu) (i s : Nat) : Nat :=
  match i, s with
  | 0x2600, 3 => t.openSlots.length
  | 0x2610, 2 => t.names.length
  | 0x2610, 3 => sumBy (fun n => n.names.length) t.names
  | _, _ => t.rd i s

/-- The value of a counter now (R95): its active bank. -/
def Tu.cntValue (t : Tu) (c : Nat) : Nat := ((t.cnt c).settle t.ns).val

/-- A numeric object of the TU on port `p`. -/
def Tu.objNat (t : Tu) (p : Port) (i s : Nat) : Nat :=
  if i = 0x1000 then identityNat (p.val + 1) s
  else if i = 0x1001 then t.die
  else if i = 0x2110 then t.lossObj s
  else if i = 0x2200 then t.timeObj s
  else if 0x2300 ≤ i ∧ i < 0x2348 then (t.cnt (32 * (i - 0x2300) + (s - 1))).selWord
  else if 0x2350 ≤ i ∧ i < 0x2360 then (t.cnt (tileCounters + 32 * (i - 0x2350) + (s - 1))).selWord
  else if i = 0x2370 ∧ s = 1 then t.spareMap
  else if i = 0x2380 ∧ s = 2 then (t.cnts.filter fun e => e.2.sat).length
  else if 0x2400 ≤ i ∧ i < 0x2410 then (t.set (i - 0x2400)).objNat (t.rd i s) s
  else if i = 0x2410 ∧ s = 1 then t.queued 4
  else if 0x2500 ≤ i ∧ i < 0x2548 then t.cntValue (32 * (i - 0x2500) + (s - 1))
  else if 0x2550 ≤ i ∧ i < 0x2560 then t.cntValue (tileCounters + 32 * (i - 0x2550) + (s - 1))
  else if i = 0x2600 ∨ i = 0x2610 then t.phaseObj i s
  else if 0x2700 ≤ i ∧ i < 0x2749 then (t.enc (i - 0x2700)).objNat (t.rd i s) s
  else if i = 0x2760 then t.windowObj s
  else if i = 0x2770 then t.freezeObj s
  else if i = 0x2801 ∨ i = 0x2810 then t.part.crcObj i s
  else if i = 0x2820 ∧ s = 1 then
    (if !t.cuts.isEmpty then 2 else if t.part.orders.any fun o => o.kind == .cut then 1 else 0)
  else if i = 0x2900 ∧ s = 0x0A then t.mace.laneMap
  else if i = 0x2900 ∧ s = 0x0B then t.maceStatus
  else if i = 0x2910 ∧ s = 1 then ts64Of t.mace.w
  else if i = 0x2910 ∧ s = 7 then t.mace.serial
  else if i = 0x2910 ∧ s = 0x0F then t.mace.queue.length
  else if 0x2A20 ≤ i ∧ i < 0x2A28 ∧ s = 3 then ofInt 32 (t.credit (i - 0x2A20) / 1000)
  else if i = 0x2A40 ∧ s = 4 then t.gateStatus
  else if i = 0x2B00 ∧ s ≤ 2 then (t.part.pwrReq 0).objNat s
  else if 0x2C00 ≤ i ∧ i < 0x2C40 then (t.tgroup (i - 0x2C00)).objNat s
  else if i = 0x2D00 ∧ s = 6 then t.part.lowest 0 fun u => decide (u < 97)
  else if i = 0x2D00 ∧ s = 7 then t.part.lowest 2 fun u => decide (100 ≤ u) && decide (u < 103)
  else if i = 0x2E00 ∧ s = 2 then t.lastReset
  else if i = 0x2E00 ∧ s = 4 then t.startState
  else if i = 0x2E00 ∧ s = 6 then (Config.winBase (p.val + 1)).toNat
  else if i = 0x2F00 ∧ s ≤ 3 then t.link.objNat s
  else if i = 0x6000 ∧ s = 1 then 2048
  else if i = 0x6000 ∧ s = 2 then t.part.evr.total
  else if 0x6110 ≤ i ∧ i < 0x6118 ∧ s = 1 then b2n (t.chan (i - 0x6110)).out
  else if 0x6110 ≤ i ∧ i < 0x6118 ∧ s = 2 then (t.chan (i - 0x6110)).status
  else t.rd i s

/-- A string or DOMAIN object of the TU on port `p`. -/
def Tu.objBytes (t : Tu) (p : Port) (i s : Nat) : List Byte :=
  if i = 0x1000 then identityBytes (p.val + 1) s
  else if 0x2400 ≤ i ∧ i < 0x2410 then (t.set (i - 0x2400)).list.flatMap (leBytes 2)
  else if i = 0x2610 then t.versions.flatMap t.versionStatus
  else if i = 0x2771 then (t.ring (s - 1)).ents.flatMap fun e => leBytes 16 e.toNat
  else if i = 0x2910 then t.mace.history.flatMap fun r => wordsBytes r.words
  else if i = 0x2920 then wordsBytes (tget t.mace.hist (s - 1) .zero).words
  else if i = 0x2A40 ∧ s = 3 then
    (match t.exp.gate with
     | some g => g.raw
     | none => [])
  else if i = 0x6000 then evrData t.part.evr.firstNo (t.rd 0x6000 3) t.part.evr.log
  else t.part.rdDom i s

/-- The value of an object of a TU, and its type code (R347). -/
def Tu.objRead (t : Tu) (p : Port) (r : ObjRow) (i s : Nat) : List Byte :=
  if typeBytes r.type = 0 then t.objBytes p i s else leBytes (typeBytes r.type) (t.objNat p i s)

/-- R344, R347, R348: a read: abort code, type and value. -/
def Tu.readObj (t : Tu) (p : Port) (i s : Nat) : Nat × Nat × List Byte :=
  match objFind 2 i s with
  | none => (objMissing 2 i, 0, [])
  | some r => if r.acc = 2 then (0x22, 0, []) else (0, r.type, t.objRead p r i s)

end Sys2Proof.Machine
end

