-- ==== Sys2Proof/Machine/ReadFy.lean ====
section
/-! DEFINITION. What the objects of Fyster read (R347, R348): numbers, strings and DOMAIN values that stand in the state under a
name of their own, and every other object as it was last written or counted. -/

namespace Sys2Proof.Machine

/-! ### Start-up, sessions and ports -/

/-- RECOVERY_STATE (R399): one entry for each procedure that has ever started. -/
def Fyster.recoveryState (f : Fyster) : List Byte :=
  f.part.recov.flatMap fun (e : Nat × Recovery) =>
    leBytes 8 (packNat [(e.1, 8), (if e.2.failed then 2 else b2n e.2.running, 8), (e.2.recent f.ns, 16), (e.2.completions, 32)])

/-- Objects 0x1030. -/
def Fyster.bootObj (f : Fyster) (s : Nat) : Nat :=
  match s with
  | 1 => f.startState
  | 3 => f.boot.kind
  | 5 => f.boot.image
  | _ => f.rd 0x1030 s

/-- SESSION_TABLE (R352). -/
def Fyster.sessionTable (f : Fyster) : List Byte :=
  (f.sessions.filter (·.live)).flatMap fun (s : Session) =>
    leBytes 16 (packNat [(s.id, 32), (s.key, 32), (s.level, 8), (0, 24), (s.high, 32)]) ++ leBytes 16 s.src.toNat

/-- Loss objects of a TL port (R88). -/
def Fyster.portLoss (f : Fyster) (p s : Nat) : Nat :=
  match s with
  | 5 => f.part.lostAt p 5
  | 6 => f.part.lostAt p 6
  | 7 => f.part.lostAt p 3
  | 8 => f.part.lostAt p 7
  | _ => f.rd (0x1140 + p) s

/-- Objects 0x1200 (R57). -/
def Fyster.timeObj (f : Fyster) (s : Nat) : Nat :=
  match s with
  | 3 => f.part.time.servo.code
  | 5 => min f.uNs 0xFFFFFFFF
  | 6 => f.part.time.stepEpoch
  | _ => f.rd 0x1200 s

/-- Objects 0x1230 (R43, R57). -/
def Fyster.stepObj (f : Fyster) (s : Nat) : Nat :=
  match s with
  | 1 => if f.part.time.servo = .stepPending then ofInt 64 (f.part.time.pending2.tdiv 131072000) else 0
  | 2 => f.part.time.pendingSerial
  | _ => f.rd 0x1230 s

/-! ### Groups -/

/-- ROLES (R286): the roles that this Fyster holds or stands by for. -/
def Grp.rolesByte (x : Grp) : Nat :=
  packNat ((List.range 6).map fun i => (b2n (x.roles.any fun r => r.level == i / 2 && r.standby == (i % 2 == 1)), 1))

/-- Objects 0x3100 + g. -/
def Fyster.groupObj (f : Fyster) (g s : Nat) : Nat :=
  match f.grp g with
  | none => 0
  | some x =>
    match s with
    | 1 => x.id
    | 2 => x.state
    | 3 => x.serial
    | 4 => x.memb
    | 5 => x.rolesByte
    | _ => x.wait

/-- ROLE_EPOCHS (R283). -/
def Fyster.roleEpochs (f : Fyster) (g : Nat) : Nat :=
  match f.grp g with
  | none => 0
  | some x => packNat ((List.range 3).map fun l => (((x.roles.filter fun r => r.level == l).map (·.epoch)).max?.getD 0, 16))

/-- Objects 0x3410 + g. -/
def Fyster.gridObj (f : Fyster) (g s : Nat) : Nat :=
  match f.grp g, s with
  | some x, 1 => x.period
  | some x, 2 => x.phase
  | none, 1 => 0
  | none, 2 => 0
  | _, _ => f.rd (0x3410 + g) s

/-- GOV_TRAY_COUNT (R329): entries within the longest window of the groups held. -/
def Fyster.govTrayCount (f : Fyster) : Nat :=
  let gs := (f.red.groups.filter fun e => e.2.live && decide (e.1 < 64)).map (·.1)
  if gs.isEmpty then (f.dec.tray.filter fun t => decide (f.ns < t + 3600000000000)).length
  else (gs.map f.trayWindow).foldl max 0

/-! ### Juniper -/

/-- Objects 0x4410 + s. -/
def Fyster.slotObj (f : Fyster) (m s : Nat) : Nat :=
  match s with
  | 3 => f.slotState m
  | 4 => (f.mslot m).error
  | 5 => if (f.mslot m).state = 2 then mId (f.mslot m).image else 0
  | _ => (f.slotGroups m).foldl (fun v g => setBit v g true) 0

/-- Numeric objects 0x4430 + g. -/
def Fyster.bindObj (f : Fyster) (g s : Nat) : Nat :=
  match s with
  | 1 => (f.bind g).slot
  | 0x0C => f.admittedPpm g
  | _ => f.rd (0x4430 + g) s

/-! ### The ring, cuts and dumps -/

/-- PART_OLDEST_TS64. -/
def Fyster.partOldest (f : Fyster) (p : Nat) : Nat :=
  (((f.partition p).segs.find? fun s => !s.entries.isEmpty).map (·.tsFirst)).getD 0

/-- PART_RATE_BPS: bytes a second over the last 60 s. -/
def Fyster.partRate (f : Fyster) (p : Nat) : Nat :=
  sumBy (fun (r : Nat × Nat) => if f.ns < r.1 + 60000000000 then r.2 else 0) (f.partition p).rate / 60

/-- PIN_HOLD (R219). -/
def Hold.bytes (h : Hold) : List Byte :=
  leBytes 4 h.tag ++ leBytes 4 h.cause ++ h.ranges.flatMap fun r =>
    leBytes 4 r.1 ++ leBytes 8 r.2.1 ++ leBytes 8 (r.2.2.getD max64)

/-- CUT_STATUS (R250). -/
def CutSlot.status (c : CutSlot) : List Byte :=
  leBytes 32 (packNat [(c.cutId, 32), (c.state, 8), (c.cflags, 8), (b2n c.truncated, 8), (0, 8), (ts64Of c.tf, 64),
    (c.acked.length, 32), (c.done.length, 32), (c.late.length, 32), (c.missing.length, 32)])

/-- CUT_DIGESTS (R235). -/
def CutSlot.digestBytes (c : CutSlot) : List Byte := (List.range 33).flatMap fun i => leBytes 4 (tget c.digests i 0)

/-- Dump objects (R248). -/
def Fyster.dumpObj (f : Fyster) (ch s : Nat) : Nat := if s = 3 then (f.dump ch).state else (f.dump ch).bytes

/-! ### The recorder's NOR slots (R384) -/

/-- The bytes of flush slot `s`. -/
def Fyster.norBytes (f : Fyster) (s : Nat) (ofs : Nat) : List Byte :=
  let size := 2101248
  match tfind f.flushNor s with
  | some n => slice n.bytes ofs 16384
  | none =>
    (List.range (min 16384 (size - ofs))).map fun i =>
      if f.norTorn.contains s && decide (4096 ≤ ofs + i) then Config.tornByte s (ofs + i) else 0xFF

/-! ### Spares and wear (R364) -/

/-- Swaps of the units from `lo` to `hi`. -/
def Fyster.swapsIn (f : Fyster) (lo hi : Nat) : Nat :=
  sumBy (fun (e : Nat × Wear) => if e.1 % 4 = 3 ∧ lo ≤ e.1 / 4 ∧ e.1 / 4 ≤ hi then e.2.low else 0) f.part.wear

/-- Total, free and swaps of a kind of spare (R364). -/
def Fyster.spareCount (f : Fyster) (kind : Nat) : Nat × Nat × Nat :=
  match kind with
  | 1 => (2, ((List.range 2).filter fun k => !bitOf (f.rd 0x3400 1) (16 + k) && f.part.swaps (616 + k) == 0).length, f.rd 0x3400 2)
  | 2 => (8, popCount 8 (f.rd 0x4400 2), f.rd 0x4400 3)
  | 3 => (1, b2n (!bitOf (f.rd 0x4800 1) 4 && f.part.swaps 532 == 0), f.rd 0x4800 2)
  | 4 => (12, 12 - f.rd 0x7004 3, f.rd 0x7004 3)
  | 5 => (Config.rowRepairs, Config.rowRepairs - f.rd 0x7004 2, f.rd 0x7004 2)
  | 6 =>
    (32, ((List.range 32).filter fun p =>
        !(lanesUsed (f.link p).laneMap).contains 2 && bitOf (f.link p).laneMap.toNat 4 && !(f.link p).retired.contains 2).length,
      f.rd 0x7000 5 - sumBy (fun (e : Nat × Wear) => if e.1 % 4 = 3 then e.2.low else 0) f.part.wear)
  | _ => (1, b2n ((f.oob 0).up && (f.oob 1).up && !(f.oob 0).retired && !(f.oob 1).retired), f.swapsIn 584 585)

/-- SPARE_STATUS. -/
def Fyster.spareStatus (f : Fyster) : List Byte :=
  (List.range 7).flatMap fun i =>
    let c := f.spareCount (i + 1)
    leBytes 8 (packNat [(i + 1, 8), (c.1, 8), (c.2.1, 8), (0, 8), (c.2.2, 32)])

/-- MARGIN_MIN: merge engines, Juniper lanes, Sumac engines, other stages. -/
def Fyster.marginMin (f : Fyster) (s : Nat) : Nat :=
  let kind (u : Nat) : Nat :=
    match spareKind u with
    | .merge _ => 1
    | .juniper _ => 2
    | .sumac _ => 3
    | _ => 4
  f.part.lowest 0 fun u => kind u == s

/-- EYE_PCT of TL port s − 1, or of out-of-band port s − 33. -/
def Fyster.eyePct (f : Fyster) (s : Nat) : Nat :=
  if s ≤ 32 then f.part.lowest 2 fun u => decide (800 + 3 * (s - 1) ≤ u) && decide (u < 803 + 3 * (s - 1))
  else f.part.lowest 2 fun u => u == 584 + (s - 33)

/-- ECC_CORR_LAST_H: corrections in the last hour, all instances. -/
def Fyster.eccLast (f : Fyster) : Nat := sumBy (fun (e : Nat × Wear) => if e.1 % 4 = 1 then e.2.value else 0) f.part.wear

/-! ### Calibration (R365, R366) -/

/-- The 199 calibration objects in ascending order of index and subindex. -/
def calKeys : List (Nat × Nat) :=
  let run (i n : Nat) : List (Nat × Nat) := (List.range n).map fun k => (i, k + 1)
  run 0x7C01 16 ++ run 0x7C02 8 ++ run 0x7C10 32 ++ run 0x7C11 2 ++ run 0x7C12 1 ++ run 0x7C13 32 ++ run 0x7C20 4 ++ run 0x7C30 8 ++
    (List.range 32).flatMap fun p => run (0x7C40 + p) 3

/-- The head of CAL_IMAGE up to FACTORY_TS64 (R366). -/
def calHead : List Byte := leBytes 8 (packNat [(0x4C414354, 32), (1, 16), (199, 16)]) ++ (Config.hwId 0).toList

/-- CAL_IMAGE (R366): a head of 32 bytes and an entry of 8 bytes for each object. -/
def Fyster.calImage (f : Fyster) : List Byte :=
  calHead ++ wordBytes Config.factoryTs ++ calKeys.flatMap fun k =>
    leBytes 8 (packNat [(k.1, 16), (k.2, 8), (if k.1 = 0x7C30 then 8 else 6, 8), (f.cal k.1 k.2, 32)])

/-- CAL_DIGEST. -/
def Fyster.calDigest (f : Fyster) : Nat := crc32c f.calImage

/-! ### The dictionary of Fyster -/

/-- Numeric objects below 0x2000. -/
def Fyster.objNat1 (f : Fyster) (i s : Nat) : Nat :=
  if i = 0x1000 then identityNat 0 s
  else if i = 0x1020 then tget f.nodes (s - 1) 0
  else if i = 0x1030 then f.bootObj s
  else if i = 0x1101 ∧ s = 1 then (f.sessions.filter (·.live)).length
  else if (i = 0x1110 ∨ i = 0x1111) ∧ s = 1 then (Config.ethAddr (i - 0x1110)).toNat
  else if 0x1140 ≤ i ∧ i < 0x1160 then f.portLoss (i - 0x1140) s
  else if i = 0x1171 ∧ s = 1 then Config.pciIds.toNat
  else if 0x1180 ≤ i ∧ i < 0x11A0 ∧ s ≤ 3 then (f.link (i - 0x1180)).objNat s
  else if i = 0x1200 then f.timeObj s
  else if i = 0x1230 then f.stepObj s
  else f.rd i s

/-- Numeric objects from 0x3000 to 0x5FFF. -/
def Fyster.objNat2 (f : Fyster) (i s : Nat) : Nat :=
  if i = 0x3000 ∧ s = 1 then f.ctxUsed
  else if 0x3100 ≤ i ∧ i < 0x3140 then f.groupObj (i - 0x3100) s
  else if i = 0x33C0 ∧ s = 2 then f.govTrayCount
  else if i = 0x3400 ∧ s = 3 then f.metricSlots
  else if 0x3410 ≤ i ∧ i < 0x3450 then f.gridObj (i - 0x3410) s
  else if 0x3480 ≤ i ∧ i < 0x34C0 ∧ s = 8 then f.roleEpochs (i - 0x3480)
  else if i = 0x3600 ∧ 7 ≤ s ∧ s ≤ 9 then f.demandMbps (s - 7)
  else if i = 0x4400 ∧ s = 4 then f.utilPpm
  else if 0x4410 ≤ i ∧ i < 0x4413 then f.slotObj (i - 0x4410) s
  else if (0x4420 ≤ i ∧ i < 0x4423) ∨ (0x4810 ≤ i ∧ i < 0x4815) then f.part.crcObj i s
  else if 0x4430 ≤ i ∧ i < 0x4470 then f.bindObj (i - 0x4430) s
  else if i = 0x4480 ∧ s = 3 then f.jun.batch.state
  else if i = 0x4480 ∧ s = 4 then f.jun.batch.rows
  else f.rd i s

/-- Numeric objects from 0x6000 upward. -/
def Fyster.objNat3 (f : Fyster) (i s : Nat) : Nat :=
  if i = 0x6000 ∧ s = 1 then 32768
  else if i = 0x6000 ∧ s = 2 then f.part.evr.total
  else if 0x6110 ≤ i ∧ i < 0x6150 ∧ s = 1 then b2n (f.chan (i - 0x6110)).out
  else if 0x6110 ≤ i ∧ i < 0x6150 ∧ s = 2 then (f.chan (i - 0x6110)).status
  else if i = 0x6800 ∧ s = 3 then f.resetEpoch
  else if i = 0x6802 then (f.partition (s - 1)).size
  else if i = 0x6803 then f.partOldest (s - 1)
  else if i = 0x6804 then (f.pinnedSegs (s - 1)).length
  else if i = 0x6805 then f.partRate (s - 1)
  else if i = 0x6806 then (f.partition (s - 1)).overwrites
  else if i = 0x6810 ∨ (0x6820 ≤ i ∧ i < 0x6824) then f.part.crcObj i s
  else if 0x6840 ≤ i ∧ i < 0x6844 then f.dumpObj (i - 0x6840) s
  else if i = 0x7001 then f.marginMin s
  else if i = 0x7003 then f.eyePct s
  else if i = 0x7004 ∧ s = 4 then f.eccLast
  else if 0x7800 ≤ i ∧ i < 0x7807 ∧ s ≤ 2 then (f.part.pwrReq (i - 0x7800)).objNat s
  else if i = 0x7880 ∧ s = 1 then f.part.pwrHeld
  else if i = 0x7C00 ∧ s = 2 then f.calDigest
  else if i = 0x7C00 ∧ s = 6 then Config.factoryTs.toNat
  else if 0x7C01 ≤ i then f.cal i s
  else f.rd i s

/-- A numeric object of Fyster. -/
def Fyster.objNat (f : Fyster) (i s : Nat) : Nat :=
  if i < 0x2000 then f.objNat1 i s else if i < 0x6000 then f.objNat2 i s else f.objNat3 i s

/-- String and DOMAIN objects below 0x6000. -/
def Fyster.objBytes1 (f : Fyster) (i s : Nat) : List Byte :=
  if i = 0x1000 then identityBytes 0 s
  else if i = 0x1030 then f.recoveryState
  else if i = 0x1102 then f.sessionTable
  else if i = 0x1171 then Config.hbmMap
  else if i = 0x1200 then time96Bytes f.ns
  else if 0x3100 ≤ i ∧ i < 0x3140 ∧ s = 8 then ((f.grp (i - 0x3100)).map (·.latest)).getD []
  else if 0x3200 ≤ i ∧ i < 0x3240 ∧ s = 0x0C then f.dieStates (i - 0x3200)
  else if i = 0x4200 ∧ s = 4 then f.shadowStatus
  else if 0x4410 ≤ i ∧ i < 0x4413 then f.slotInfo (i - 0x4410)
  else if 0x4430 ≤ i ∧ i < 0x4470 ∧ s = 0x0A then f.scoreTable (i - 0x4430)
  else if 0x4430 ≤ i ∧ i < 0x4470 then ((f.part.order? .model (i - 0x4430)).map (·.data)).getD []
  else if i = 0x4480 then f.jun.batch.spec
  else f.part.rdDom i s

/-- String and DOMAIN objects from 0x6000 upward. -/
def Fyster.objBytes2 (f : Fyster) (i s : Nat) : List Byte :=
  if i = 0x6000 then evrData f.part.evr.firstNo (f.rd 0x6000 3) f.part.evr.log
  else if i = 0x6001 then evrData 0 (f.rd 0x6000 3) (((tfind f.images (s - 1)).map PortImage.recs).getD [])
  else if i = 0x6010 then f.norBytes (s - 1) (f.rd 0x6010 5)
  else if i = 0x6808 then ((tfind f.holds (s - 1)).map Hold.bytes).getD []
  else if i = 0x6831 then ((tfind f.cuts (s - 1)).map CutSlot.status).getD []
  else if i = 0x6832 then ((tfind f.cuts (s - 1)).map CutSlot.digestBytes).getD []
  else if i = 0x7002 then f.spareStatus
  else if i = 0x7C00 then f.calImage
  else f.part.rdDom i s

/-- A string or DOMAIN object of Fyster, and TIME_NOW. -/
def Fyster.objBytes (f : Fyster) (i s : Nat) : List Byte := if i < 0x6000 then f.objBytes1 i s else f.objBytes2 i s

/-- The value of an object of Fyster (R347). -/
def Fyster.objRead (f : Fyster) (r : ObjRow) (i s : Nat) : List Byte :=
  if typeBytes r.type = 0 ∨ r.type = 10 then f.objBytes i s else leBytes (typeBytes r.type) (f.objNat i s)

/-- R344, R347, R348: a read: abort code, type and value. -/
def Fyster.readObj (f : Fyster) (i s : Nat) : Nat × Nat × List Byte :=
  match objFind 1 i s with
  | none => (objMissing 1 i, 0, [])
  | some r => if r.acc = 2 then (0x22, 0, []) else (0, r.type, f.objRead r i s)

end Sys2Proof.Machine
end

