-- ==== Sys2Proof/Machine/Dict.lean ====
section
/-! DEFINITION. Writes of objects (R343 to R348, R360): the checks that every object shares, and for each object its own. -/

namespace Sys2Proof.Machine

/-! ### Checks that every write shares (R344, R347, R360) -/

/-- The longest value of a DOMAIN object that can be written (R355). -/
def domLimit (i s : Nat) : Nat :=
  if i = 0x1110 ∨ i = 0x1111 then 16
  else if 0x2400 ≤ i ∧ i < 0x2410 then 512
  else if i = 0x2600 then 128
  else if i = 0x2610 then 32784
  else if i = 0x2A40 then (if s = 1 then 528 else 16)
  else if 0x2C00 ≤ i ∧ i < 0x2C40 then 40
  else if i = 0x3140 then 297088
  else if 0x3200 ≤ i ∧ i < 0x3240 then (if s = 6 then 64 else if s = 7 then 1024 else 160)
  else if i = 0x33C0 then 18
  else if i = 0x4200 then 128
  else if 0x4410 ≤ i ∧ i < 0x4413 then (if s = 1 then 8388608 else 16)
  else if 0x4430 ≤ i ∧ i < 0x4470 then 24
  else if i = 0x4470 then 2056
  else if i = 0x4480 then 48
  else if i = 0x6830 then (if s = 1 then 32 else 8)
  else if 0x6840 ≤ i ∧ i < 0x6844 then 72
  else if i = 0x7C00 then 1624
  else 8388608

/-- A numeric value as R347 and the object's range read it. -/
def objValue (type v : Nat) : Int :=
  match type with
  | 6 => toInt 32 v
  | 7 => toInt 64 v
  | 13 => toInt 16 v
  | 8 => if v = 0x80000000 then 0 else (v : Int)
  | _ => (v : Int)

/-- A value outside the range stated for its object. -/
def outOfRange (r : ObjRow) (v : Nat) : Bool :=
  match r.range with
  | some (a, b) => decide (objValue r.type v < a) || decide (b < objValue r.type v)
  | none => false

/-- The abort codes that hold whatever the object does with a value: 0 if none. `level`: 0 observe, 1 operate, 2 service. -/
def ObjRow.code' (r : ObjRow) (level i s : Nat) (v : List Byte) : Nat :=
  let n := typeBytes r.type
  lowestAbort [(decide (level < r.level), 5), (r.acc == 0 || r.acc == 3, 0x23),
    (if n = 0 then decide (domLimit i s < v.length) else v.length != n, 0x24),
    (n != 0 && !r.code && outOfRange r (leNat v), 0x25), (n != 0 && r.code && outOfRange r (leNat v), 0x26),
    (r.type == 1 && decide (1 < leNat v), 0x26)]

/-- The abort code of a write before the object's own checks (R348, R360). -/
def writeCode (nodes level i s : Nat) (v : List Byte) : Nat :=
  match objFind nodes i s with
  | none => objMissing nodes i
  | some r => r.code' level i s v

/-! ### Objects of a TU -/

/-- A write of CRC_CTRL, CRC_VALUE or CRC_LENGTH of unit `k` (R77, R78). -/
def Part.wrCrc (p : Part) (k s v : Nat) : Part × Nat :=
  if s = 1 then p.crcControl k (some (bitOf v 0)) (some (bitOf v 1)) (bitOf v 3) else p.crcRestore k (s == 3) v false

/-- Graph IDs of a PHASE_GROUP_MAP value, and its group slots. -/
def groupMapOf (v : List Byte) : List (Nat × Nat) := (List.range (v.length / 8)).map fun i => (fieldAt v (8 * i) 4, fieldAt v (8 * i + 4) 1)

/-- A write of PHASE_GROUP_MAP (R123). -/
def Tu.wrGroupMap (t : Tu) (v : List Byte) : Tu × Nat :=
  let l := groupMapOf v
  match lowestAbort [(v.length % 8 != 0 || decide (128 < v.length), 0x24), (!distinct (l.map (·.1)) || l.any fun e => decide (63 < e.2), 0x25)] with
  | 0 => ({ t with part := t.part.wrDom 0x2600 0x0A v }, 0)
  | a => (t, a)

/-- R364: MARGIN_CRIT_PCT stays below MARGIN_WARN_PCT. -/
def marginBad (warn crit s v : Nat) : Bool := if s = 1 then decide (v ≤ crit) else s == 2 && decide (warn ≤ v)

/-- Objects 0x2000 to 0x26FF with rules of their own. -/
def Tu.wrObj1 (t : Tu) (i s : Nat) (v : List Byte) (n : Nat) : Tu × Nat :=
  if i = 0x2200 ∧ s = 5 then t.wrStepAuthorise n
  else if 0x2300 ≤ i ∧ i < 0x2348 then t.wrCntSel (32 * (i - 0x2300) + (s - 1)) n
  else if 0x2350 ≤ i ∧ i < 0x2360 then t.wrCntSel (tileCounters + 32 * (i - 0x2350) + (s - 1)) n
  else if i = 0x2380 then t.wrCntResetAll n
  else if 0x2400 ≤ i ∧ i < 0x2410 then
    (match s with
     | 1 => t.wrSetCtrl (i - 0x2400) n
     | 2 => t.wrSetGrid (i - 0x2400) false n
     | 3 => t.wrSetGrid (i - 0x2400) true n
     | 4 => t.wrSetList (i - 0x2400) v
     | 6 => t.wrZoomPin (i - 0x2400) false n
     | _ => t.wrZoomPin (i - 0x2400) true n)
  else if i = 0x2600 ∧ s = 1 then t.wrPhaseEnable n
  else if i = 0x2600 ∧ s = 0x0A then t.wrGroupMap v
  else if i = 0x2610 then t.wrNameTable v
  else (t.wr i s n, 0)

/-- Objects 0x2700 to 0x29FF with rules of their own. -/
def Tu.wrObj2 (t : Tu) (i s : Nat) (n : Nat) : Tu × Nat :=
  if 0x2700 ≤ i ∧ i < 0x2749 then (if s = 1 then t.wrTraceMode (i - 0x2700) n else t.wrTsInterval (i - 0x2700) n)
  else if i = 0x2760 ∧ s ≤ 2 then t.wrWindow (s == 2) n
  else if i = 0x2770 ∧ s = 1 then t.wrFreeze n
  else if i = 0x2770 ∧ s = 2 then t.wrResume n
  else if i = 0x2770 ∧ s = 6 ∧ n ≠ 0 ∧ n < 1000 then (t, 0x25)
  else if i = 0x2801 ∨ i = 0x2810 then let x := t.part.wrCrc i s n; ({ t with part := x.1 }, x.2)
  else if i = 0x2900 ∧ s = 1 then t.wrMaceEnable n
  else if i = 0x2900 ∧ s = 7 ∧ n % 4 ≠ 0 then (t, 0x25)
  else if i = 0x2900 ∧ s = 9 then t.wrTaintMbox n
  else if i = 0x2910 then t.wrTaintResend n
  else if i = 0x2930 then t.wrGateEnable n
  else if i = 0x2940 ∧ s = 1 then t.wrShadowEnable n
  else (t.wr i s n, 0)

/-- Objects 0x2A00 and above with rules of their own. -/
def Tu.wrObj3 (t : Tu) (p : Port) (i s : Nat) (v : List Byte) (n : Nat) : Tu × Nat :=
  if i = 0x2A00 then t.wrBudget (s - 1) n
  else if i = 0x2A11 ∧ s = 2 then t.wrStarveClear n
  else if 0x2A20 ≤ i ∧ i < 0x2A28 then (if s = 1 then t.wrSlope (i - 0x2A20) n else t.wrBurst (i - 0x2A20) n)
  else if i = 0x2A40 then (if s = 1 then t.wrGateAdmin v else t.wrGateOrder v)
  else if 0x2C00 ≤ i ∧ i < 0x2C40 then t.wrGroupArm (i - 0x2C00) v
  else if i = 0x2D00 ∧ marginBad (t.rd 0x2D00 1) (t.rd 0x2D00 2) s n = true then (t, 0x25)
  else if i = 0x2E00 ∧ s = 1 then t.wrResetRequest n
  else if i = 0x2F00 then t.wrTlRetrain p n
  else if i = 0x6000 ∧ s = 5 then t.wrEvrClear n
  else if i = 0x6000 ∧ s = 6 then t.wrEvrFlush n
  else if 0x6110 ≤ i ∧ i < 0x6118 then t.wrChDir (i - 0x6110) n
  else (t.wr i s n, 0)

/-- A write of an object of a TU: the TU after it and the abort code; with a code nothing changes. -/
def Tu.wrObj (t : Tu) (p : Port) (level i s : Nat) (v : List Byte) : Tu × Nat :=
  match writeCode 2 level i s v with
  | 0 =>
    let r := if i < 0x2700 then t.wrObj1 i s v (leNat v) else if i < 0x2A00 then t.wrObj2 i s (leNat v) else t.wrObj3 p i s v (leNat v)
    if r.2 = 0 then r else (t, r.2)
  | a => (t, a)

/-! ### Calibration (R365 to R367) -/

/-- R365: the session holds an arm that is younger than 10 s. -/
def Fyster.calArmed (f : Fyster) (session : Nat) : Bool :=
  match (f.session? session).bind (·.armedAt) with
  | some t => decide (f.ns ≤ t + 10000000000)
  | none => false

/-- R365: a write of CAL_ARM. -/
def Fyster.wrCalArm (f : Fyster) (session v : Nat) : Fyster × Nat :=
  if v = f.calDigest then (f.modSession session fun s => { s with armedAt := some f.ns }, 0) else (f, 0x2C)

/-- R365: the calibration set has changed: the arm is spent, the change is counted, and the set goes to NOR. -/
def Fyster.calChanged (f : Fyster) (session : Nat) : Fyster :=
  let f := f.modSession session fun s => { s with armedAt := none }
  let f := (f.wr 0x7C00 1 1).bump 0x7C00 3 1
  { f with calNor := f.calNor.start (f.part.obj.filter fun e => calObj e.1) }

/-- The refusals of a calibration write (R365): BUSY while a store is in progress, CAL_LOCKED without an arm. -/
def Fyster.calCode (f : Fyster) (session : Nat) : Nat :=
  lowestAbort [(f.calNor.busy.isSome, 0x30), (!f.calArmed session, 0x50)]

/-- R365: a write of one calibration object. -/
def Fyster.wrCal (f : Fyster) (session i s v : Nat) : Fyster × Nat :=
  match f.calCode session with
  | 0 => ((f.wr i s v).calChanged session, 0)
  | a => (f, a)

/-- Entry `k` of a calibration image: index, subindex, type and value. -/
def calEntry (v : List Byte) (k : Nat) : Nat × Nat × Nat × Nat :=
  let o := 32 + 8 * k
  (fieldAt v o 2, fieldAt v (o + 2) 1, fieldAt v (o + 3) 1, fieldAt v (o + 4) 4)

/-- R367: the image is of this device and names the 199 objects in order. -/
def calMatches (v : List Byte) : Bool :=
  v.take 24 == calHead &&
    (List.range 199).map (fun k => ((calEntry v k).1, (calEntry v k).2.1)) == calKeys &&
    (List.range 199).all fun k => (calEntry v k).2.2.1 == (if (calEntry v k).1 = 0x7C30 then 8 else 6)

/-- A value of the image lies outside its object's range. -/
def calOutside (v : List Byte) : Bool :=
  (List.range 199).any fun k =>
    match objFind 1 (calEntry v k).1 (calEntry v k).2.1 with
    | some r => outOfRange r (calEntry v k).2.2.2
    | none => false

/-- R367: a write of CAL_IMAGE. -/
def Fyster.wrCalImage (f : Fyster) (session : Nat) (v : List Byte) : Fyster × Nat :=
  match lowestAbort [(v.length != 1624, 0x24), (v.length == 1624 && calOutside v, 0x25), (f.calCode session != 0, f.calCode session),
      (v.length == 1624 && !calMatches v, 0x51)] with
  | 0 =>
    (((List.range 199).foldl (fun (f : Fyster) k => f.wr (calEntry v k).1 (calEntry v k).2.1 (calEntry v k).2.2.2) f).calChanged session, 0)
  | a => (f, a)

/-! ### Objects of Fyster -/

/-- Entries of `size` bytes of a table. -/
def tableRows (size : Nat) (v : List Byte) : List (List Byte) := (List.range (v.length / size)).map fun i => slice v (size * i) size

/-- R322: a CAUSE_TABLE value. -/
def causeTableCode (v : List Byte) : Nat :=
  let l := tableRows 4 v
  lowestAbort [(v.length % 4 != 0 || decide (64 < v.length), 0x24), (l.any fun e => decide (4095 < fieldAt e 0 2), 0x25),
    (l.any fun e => decide (0x0C < fieldAt e 2 1), 0x26)]

/-- R323: a DRIFT_TABLE value. -/
def driftTableCode (v : List Byte) : Nat :=
  let l := tableRows 16 v
  lowestAbort [(v.length % 16 != 0 || decide (1024 < v.length), 0x24),
    (l.any fun e => decide (4095 < fieldAt e 0 2) || decide (fieldAt e 14 1 < 4) || decide (16 < fieldAt e 14 1), 0x25),
    (l.any fun e => decide (1 < fieldAt e 2 1) || decide (0x0C < fieldAt e 3 1), 0x26)]

/-- R324: a HEALTH_TABLE value. -/
def healthTableCode (v : List Byte) : Nat :=
  let l := tableRows 20 v
  lowestAbort [(v.length % 20 != 0 || decide (160 < v.length), 0x24),
    (l.any fun e => !fp32.le (fieldAt e 8 4) (fieldAt e 12 4), 0x25),
    (l.any fun e => decide (0x0C < fieldAt e 0 1) || decide (7 < fieldAt e 1 1), 0x26)]

/-- A DOMAIN object kept as it is written if its code is 0. -/
def Fyster.keepDom (f : Fyster) (i s : Nat) (v : List Byte) (a : Nat) : Fyster × Nat :=
  if a = 0 then ({ f with part := f.part.wrDom i s v }, 0) else (f, a)

/-- A numeric object kept as it is written unless it is out of range. -/
def Fyster.keepNat (f : Fyster) (i s n : Nat) (bad : Bool) : Fyster × Nat := if bad then (f, 0x25) else (f.wr i s n, 0)

/-- Objects below 0x2000 with rules of their own (R31, R32, R362, R394, R413, R414). -/
def Fyster.wrObj1 (f : Fyster) (i s : Nat) (v : List Byte) (n : Nat) : Fyster × Nat :=
  if i = 0x1001 then
    let r := f.keepNat i s n (decide (8191 < n) && n != 0xFFFF)
    (r.1.startCheck, r.2)
  else if i = 0x1010 then f.wrPortDieId (s - 1) n
  else if i = 0x1030 ∧ s = 2 then f.wrResetRequest n
  else if i = 0x1110 ∨ i = 0x1111 then
    if s = 4 ∨ s = 6 then f.keepDom i s v (if v.length = 0 ∨ v.length = 16 then 0 else 0x24)
    else
      let q := i - 0x1110
      (if (f.oob q).retired then (f.setOob q { f.oob q with retired := false }).bmca.wr i s n else f.wr i s n, 0)
  else if i = 0x1170 then f.keepNat i s n (n % 65536 != 0)
  else if 0x1180 ≤ i ∧ i < 0x11A0 then f.wrTlRetrain (Fin.ofNat 32 (i - 0x1180)) n
  else if i = 0x1210 then ((f.wr i s n).bmca, 0)
  else if i = 0x1230 then f.wrStepAuthorise n
  else (f.wr i s n, 0)

/-- R261: a write of LEDGER_BASE. -/
def Fyster.wrLedgerBase (f : Fyster) (n : Nat) : Fyster × Nat :=
  match lowestAbort [(n % 2097152 != 0, 0x25), (f.red.groups.any fun e => e.2.live, 0x27)] with
  | 0 => (f.wr 0x3600 1 n, 0)
  | a => (f, a)

/-- R286: the admitted demand of some level is above its share of REDUCE_FABRIC_MBPS. -/
def Fyster.demandAbove (f : Fyster) : Bool :=
  (List.range 3).any fun l => !(f.demandAt l).le (f.rd 0x3600 (4 + l) * f.rd 0x3600 3) 100

/-- R286: a write of REDUCE_FABRIC_MBPS or of a SHARE_PCT. -/
def Fyster.wrShare (f : Fyster) (s n : Nat) : Fyster × Nat :=
  let x := f.wr 0x3600 s n
  match lowestAbort [(decide (100 < x.rd 0x3600 4 + x.rd 0x3600 5 + x.rd 0x3600 6), 0x25), (x.demandAbove, 0x28)] with
  | 0 => (x, 0)
  | a => (f, a)

/-- Objects 0x3000 to 0x43FF with rules of their own. -/
def Fyster.wrObj2 (f : Fyster) (tus : Tab Tu) (i s : Nat) (v : List Byte) (n : Nat) : Fyster × Nat :=
  if i = 0x3140 ∧ s = 1 then f.wrArmOrder v
  else if 0x3200 ≤ i ∧ i < 0x3240 then
    (match s with
     | 1 => f.keepNat i s n (decide (4095 < n) && n != 0xFFFF)
     | 6 => f.keepDom i s v (causeTableCode v)
     | 7 => f.keepDom i s v (driftTableCode v)
     | 8 => f.keepDom i s v (healthTableCode v)
     | 9 => f.keepNat i s n (n != 0 &&
         (match f.grp (i - 0x3200) with
          | some x => !zoomOk n x.period
          | none => n % 1000 != 0))
     | _ => (f.wr i s n, 0))
  else if 0x3300 ≤ i ∧ i < 0x3340 then
    (match s with
     | 3 => f.wrSparePool (i - 0x3300) false n
     | 4 => f.wrSparePool (i - 0x3300) true n
     | 6 => f.wrRaisePin (i - 0x3300) false n
     | 7 => f.wrRaisePin (i - 0x3300) true n
     | 0x0A => f.wrDieReturned (i - 0x3300) n
     | _ => (f.wr i s n, 0))
  else if i = 0x33C0 ∧ s = 4 then f.keepDom i s v (if v.length = 0 ∨ v.length = 18 then 0 else 0x24)
  else if i = 0x3600 ∧ s = 1 then
    let r := f.wrLedgerBase n
    (r.1.startCheck, r.2)
  else if i = 0x3600 ∧ 3 ≤ s ∧ s ≤ 6 then f.wrShare s n
  else if i = 0x4200 ∧ s = 1 then
    let r := f.wrShadowPairs tus v
    if r.2 = 0 then ({ r.1 with part := r.1.part.wrDom i s v }, 0) else r
  else (f.wr i s n, 0)

/-- What STAGE_FROM fetches: bytes outside the model (log 76). -/
def Fyster.fetched (f : Fyster) (v : List Byte) : List Byte :=
  (List.range (fieldAt v 8 4)).map fun i => Config.fetchedByte (fieldAt v 0 8 + i) f.fresh

/-- Objects 0x4400 to 0x5FFF with rules of their own; `why`: who waits for the answer of ROW_SUBMIT. -/
def Fyster.wrObj3 (f : Fyster) (i s : Nat) (v : List Byte) (n : Nat) (why : Option RelayFor) : Fyster × Nat :=
  if 0x4410 ≤ i ∧ i < 0x4413 then
    if s = 1 then f.wrModelImage (i - 0x4410) v
    else
      let r := f.wrStageFrom (i - 0x4410) v (f.fetched v)
      ({ r.1 with fresh := r.1.fresh + 1 }, r.2)
  else if (0x4420 ≤ i ∧ i < 0x4423) ∨ (0x4810 ≤ i ∧ i < 0x4815) then
    let x := f.part.wrCrc i s n
    ({ f with part := x.1 }.crcResume i, x.2)
  else if 0x4430 ≤ i ∧ i < 0x4470 ∧ s = 2 then f.wrModelOrder (i - 0x4430) v
  else if i = 0x4470 then f.wrRowSubmit v why
  else if i = 0x4480 then
    (match s with
     | 1 => f.wrBatchSpec v
     | 2 => f.wrBatchStart n
     | _ => f.wrBatchAbort n)
  else (f.wr i s n, 0)

/-- Objects 0x6000 to 0x6FFF with rules of their own. -/
def Fyster.wrObj4 (f : Fyster) (i s : Nat) (v : List Byte) (n : Nat) : Fyster × Nat :=
  if i = 0x6000 ∧ s = 5 then f.wrEvrClear n
  else if i = 0x6000 ∧ s = 6 then f.wrEvrFlush n
  else if i = 0x6010 then f.keepNat i s n (n % 16384 != 0)
  else if 0x6110 ≤ i ∧ i < 0x6150 then f.wrChDir (i - 0x6110) n
  else if i = 0x6802 then f.wrPartSegments (s - 1) n
  else if i = 0x6809 ∧ s = 1 then f.wrPinRelease n
  else if i = 0x6810 ∨ (0x6820 ≤ i ∧ i < 0x6824) then let x := f.part.wrCrc i s n; ({ f with part := x.1 }, x.2)
  else if i = 0x6830 ∧ s = 1 then f.wrCutOrder v
  else if i = 0x6830 ∧ s = 2 then f.wrCutCancel v
  else if 0x6840 ≤ i ∧ i < 0x6844 then
    (match s with
     | 1 => f.keepDom i s v (if v.length = 72 then 0 else 0x24)
     | 2 => f.wrDumpStart (i - 0x6840) n
     | _ => (if n = 1 then f.abortDump (i - 0x6840) else f, 0))
  else (f.wr i s n, 0)

/-- R387, R364: SCRUB_RATE HIGH asks for power as requester 6; NORMAL withdraws. -/
def Fyster.wrScrub (f : Fyster) (n : Nat) : Fyster :=
  let now := f.part.time.now
  let f := f.wr 0x7004 1 n
  if n = 1 then f.pwr 6 ((f.part.pwrReq 6).ask 120 now) else f.pwr 6 ((f.part.pwrReq 6).withdraw now)

/-- Objects 0x7000 and above with rules of their own. -/
def Fyster.wrObj5 (f : Fyster) (session i s : Nat) (v : List Byte) (n : Nat) : Fyster × Nat :=
  if i = 0x7000 ∧ marginBad (f.rd 0x7000 1) (f.rd 0x7000 2) s n = true then (f, 0x25)
  else if i = 0x7004 then (f.wrScrub n, 0)
  else if i = 0x7C00 ∧ s = 4 then f.wrCalArm session n
  else if i = 0x7C00 then f.wrCalImage session v
  else if 0x7C01 ≤ i then f.wrCal session i s n
  else (f.wr i s n, 0)

/-- R393: a persistent object that has been written is stored. -/
def Fyster.persistIf (f : Fyster) (i s : Nat) : Fyster := if persistentObj (objKey i s) then f.persist else f

/-- A write of an object of Fyster: Fyster after it and the abort code; with a code nothing changes. `session`: the session that
writes, 0 for none; `why`: who waits for an answer that comes later (R311). -/
def Fyster.wrObj (f : Fyster) (tus : Tab Tu) (session level i s : Nat) (v : List Byte) (why : Option RelayFor) : Fyster × Nat :=
  match writeCode 1 level i s v with
  | 0 =>
    let n := leNat v
    let r :=
      if i < 0x2000 then f.wrObj1 i s v n
      else if i < 0x4400 then f.wrObj2 tus i s v n
      else if i < 0x6000 then f.wrObj3 i s v n why
      else if i < 0x7000 then f.wrObj4 i s v n
      else f.wrObj5 session i s v n
    if r.2 = 0 then (r.1.persistIf i s, 0) else (f, r.2)
  | a => (f, a)

/-- ROW_SUBMIT is answered when its row has been scored (R311). -/
def answersLater (i s code : Nat) : Bool := i == 0x4470 && s == 1 && code == 0

/-! ### What a write of Fyster brings to the TUs (R365, R391) -/

/-- Ports to which a written object of Fyster is pushed. -/
def pushPorts (i s : Nat) : List Nat :=
  if i = 0x1010 ∨ i = 0x7C10 then [s - 1]
  else if 0x7C40 ≤ i ∧ i < 0x7C60 then [i - 0x7C40]
  else if i = 0x7C00 ∧ s = 5 then List.range 32
  else []

/-- R365: what the TU on port `p` takes from a write: its entries, and a TL asymmetry for its next exchange. -/
def Fyster.pushWrite (f : Fyster) (i p : Nat) (t : Tu) : Tu :=
  let was := t.discovered
  let t := if was || t.link.st == .up then f.pushTo p t else t
  if was && t.discovered && tget f.nodes p 0 == 2 && (i == 0x7C10 || i == 0x7C00) then
    { t with asymNew := some (toInt 32 (f.cal 0x7C10 (p + 1))) }
  else t

/-- Fyster's state and what it pushes after a write of its object. -/
def State.afterWrite (s : State) (f : Fyster) (i sub : Nat) : State :=
  (pushPorts i sub).foldl (fun (s : State) p => { s with tus := tset s.tus p (f.pushWrite i p (tget s.tus p .reset)) }) { s with fy := f }

/-- A write of Fyster's dictionary: `answer` puts the outcome on its way; a reset that the write orders follows it. -/
def State.writeFy (s : State) (f : Fyster) (session level i sub : Nat) (v : List Byte) (why : Option RelayFor)
    (answer : Fyster → Nat → Fyster) : State :=
  let r := f.wrObj s.tus session level i sub v why
  if r.2 = 0 then
    let g := if answersLater i sub r.2 then r.1 else answer r.1 0
    let t := s.afterWrite g i sub
    { t with fy := t.fy.resetIfOrdered }
  else { s with fy := answer f r.2 }

/-- A write of the dictionary of the TU on port `p`; TU_RESET_REQUEST resets the TU at once, whatever was to be answered. -/
def State.writeTu (s : State) (p : Port) (t : Tu) (level i sub : Nat) (v : List Byte) (answer : Tu → Nat → Tu) : State :=
  let r := t.wrObj p level i sub v
  if r.2 = 0 ∧ i = 0x2E00 ∧ sub = 1 ∧ leNat v = 1 then
    let nodes := if tget s.fy.nodes p.val 0 = 2 then tset s.fy.nodes p.val 3 else s.fy.nodes
    ({ s with fy := { s.fy with nodes := nodes } }).setTu p ((answer r.1 0).resetAs 3)
  else shadowWatch p s (s.setTu p (answer r.1 r.2))

/-! ### Commands -/

/-- OBJECT_WRITE (R347). -/
def execObjectWrite (dt : Nat) (n : Node) (lvl : Level) (index : BitVec 16) (sub : Byte) (v : List Byte) (s : State) :
    Host.Outcome State Fault Refusal :=
  .next (match n with
    | .fyster =>
      s.writeFy (s.fy.tick dt) 0 (Level.rank lvl) index.toNat sub.toNat v none fun f a => f.emit (.answer a)
    | .tu p =>
      s.writeTu p ((s.tu p).tick dt) (Level.rank lvl) index.toNat sub.toNat v fun t a => t.emit (.answer a))

/-- CAL_ARM (R365). -/
def execCalArm (dt : Nat) (session : BitVec 32) (lvl : Level) (v : BitVec 32) (s : State) : Host.Outcome State Fault Refusal :=
  .next (onFy dt (fun f =>
    f.reply lvl 2 (if (f.session? session.toNat).isNone then (f, 3) else f.wrCalArm session.toNat v.toNat)) s)

/-- The objects that CAL_WRITE writes: those of R365 with a value. -/
def calIndex (i : Nat) : Bool := decide (0x7C01 ≤ i) && decide (i < 0x7C60)

/-- CAL_WRITE (R365). -/
def execCalWrite (dt : Nat) (session : BitVec 32) (lvl : Level) (index : BitVec 16) (sub : Byte) (v : BitVec 32) (s : State) :
    Host.Outcome State Fault Refusal :=
  let f := s.fy.tick dt
  .next (if calIndex index.toNat then
      s.writeFy f session.toNat (Level.rank lvl) index.toNat sub.toNat (leBytes 4 v.toNat) none fun f a => f.emit (.answer a)
    else { s with fy := f.emit (.answer (objMissing 1 index.toNat)) })

/-- CAL_IMAGE (R367). -/
def execCalImage (dt : Nat) (session : BitVec 32) (lvl : Level) (v : List Byte) (s : State) : Host.Outcome State Fault Refusal :=
  .next (s.writeFy (s.fy.tick dt) session.toNat (Level.rank lvl) 0x7C00 5 v none fun f a => f.emit (.answer a))

/-- R400: a store into NOR has ended: read back, retried after an erase, or FAILED. -/
def Fyster.norStoreDone (f : Fyster) (cal ok : Bool) : Fyster :=
  let put (f : Fyster) (n : NorStore) : Fyster := if cal then { f with calNor := n } else { f with objNor := n }
  let n := if cal then f.calNor else f.objNor
  if n.busy.isNone then f
  else if ok then
    let f := put f n.stored
    if f.calNor.failed || f.objNor.failed then f else f.recovDone 9
  else
    let x := n.missed
    if x.2 then (put f x.1).recovStart 9
    else
      let f := put f x.1
      let r := f.part.recovOf 9
      { f with part := { f.part with recov := tset f.part.recov 9 { r with running := true, failed := true, since := f.ns } } }

/-- NOR_STORE_DONE (R365, R393, R400). -/
def execNorStoreDone (dt : Nat) (cal : Bool) (ok : Bool) (s : State) : Host.Outcome State Fault Refusal :=
  .next (onFy dt (fun f => f.norStoreDone cal ok) s)

/-- R399: the first step of a repeated procedure of Fyster: a link that is down trains again, a failed store starts again. -/
def Fyster.recovAgain (f : Fyster) (row : Nat) : Fyster :=
  match row with
  | 1 => (List.range 32).foldl (fun f p => if (f.link p).st = .down then f.setLink p { f.link p with st := .training, failedAt := none } else f) f
  | 9 =>
    let f := if f.calNor.failed then { f with calNor := f.calNor.start (f.part.obj.filter fun e => calObj e.1) } else f
    if f.objNor.failed then f.persist else f
  | _ => f

/-- R399: the first step of a repeated procedure of a TU. -/
def Tu.recovAgain (t : Tu) (row : Nat) : Tu :=
  if row = 1 ∧ t.link.st = .down then { t with link := { t.link with st := .training, failedAt := none } } else t

/-- RECOVERY_RETRY (R399). -/
def execRecoveryRetry (dt : Nat) (n : Node) (row : Fin 12) (s : State) : Host.Outcome State Fault Refusal :=
  .next (onNode n dt
    (fun _ t => if (t.part.recovOf row.val).repeatDue t.ns then (t.recovCount row.val).recovAgain row.val else t)
    (fun f => if (f.part.recovOf row.val).repeatDue f.ns then (f.recovCount row.val).recovAgain row.val else f) s)

end Sys2Proof.Machine
end

