-- ==== Sys2Proof/Machine/Relay.lean ====
section
/-! DEFINITION. Relayed dictionary accesses at a TU (R447, R357, R358, R192, R196), and their answers at Fyster (R354). -/

namespace Sys2Proof.Machine

/-! ### At a TU -/

/-- The TR_DICT record of a TU. -/
def Tu.dictRec (t : Tu) (m : DictMsg) : Rec := t.mkRec 0x14 0x0FF0 224 0xFF t.ns m.pay

/-- The answer to a request: the outcome of the access. -/
def DictMsg.reply (m : DictMsg) (abort type total crc : Nat) (data : List Byte) : DictMsg :=
  { m with answer := true, abort := abort, type := type, total := total, crc := crc, data := data }

/-- An answer that says no more than its code. -/
def DictMsg.fail (m : DictMsg) (abort : Nat) : DictMsg := m.reply abort m.type 0 0 []

/-- R192: the cost of an access with `n` bytes of data, in ps. -/
def dictCost (n : Nat) : Nat := 60000 + 1000 * ceilDiv n 8

/-- R196, R82: an access that DICT has no room for is counted as one record lost with the value bytes of its request; `stream`: of
a relayed request, none for a mailbox message. -/
def Tu.dictLost (t : Tu) (cause bytes : Nat) (stream : Option Nat) : Tu :=
  ({ t with part := t.part.lose 7 cause 1 bytes stream t.ts }).internal 0x34F 1

/-- R354, R196: the access `m` is charged with `n` bytes of data; admitted, it answers what `act` gives; otherwise BUSY, and nothing
is done. -/
def Tu.dictServe (t : Tu) (m : DictMsg) (n : Nat) (act : Tu → Tu × DictMsg) : Tu :=
  let size := 64 + 8 * ceilDiv n 8
  let c := t.charge 7 (dictCost n) (decide (t.queued 0 + size ≤ reqCap 0))
  let t := c.1.internal 0x347 1
  if c.2 = 0 then
    let x := act t
    x.1.enqueue 0 7 [x.1.dictRec x.2]
  else (t.dictLost c.2 m.data.length (some 0x0FF0)).sendFree (t.dictRec (m.fail 0x30))

/-- A request of kind `k` that TR_DICT carries to a TU. -/
def dictReq (r : Rec) (k : Nat) : Option DictMsg :=
  if r.type = 0x14 ∧ (dictMsg r).answer = false ∧ (dictMsg r).dkind = k ∧ (dictMsg r).level ≤ 2 then some (dictMsg r) else none

/-- R447: READ. -/
def Tu.dictRead (t : Tu) (p : Port) (m : DictMsg) : Tu :=
  let v := t.readObj p m.index m.sub
  let ans := if v.1 ≠ 0 then m.fail v.1 else if 512 < v.2.2.length then m.fail 0x43 else m.reply 0 v.2.1 0 0 v.2.2
  t.dictServe m ans.data.length fun t => (t, ans)

/-- TR_DICT_READ. -/
def execTrDictRead (dt : Nat) (p : Port) (r : Rec) (s : State) : Host.Outcome State Fault Refusal :=
  .next (onTu p dt (fun t =>
    match dictReq r 1 with
    | some m => t.dictRead p m
    | none => t) s)

/-- R347: the TYPE of a write is not that of its object. -/
def typeBad (nodes i s type : Nat) : Bool :=
  match objFind nodes i s with
  | some r => r.type != type
  | none => false

/-- The code of a write whose TYPE is wrong. -/
def typeCode (nodes level i s : Nat) (v : List Byte) : Nat :=
  let a := writeCode nodes level i s v
  lowestAbort [(true, 0x24), (a != 0, a)]

/-- A write by WRITE or COMMIT at a TU, its answer charged already. -/
def State.dictWriteTu (s : State) (p : Port) (t : Tu) (m : DictMsg) (v : List Byte) : State :=
  let answer (t : Tu) (a : Nat) : Tu := t.enqueue 0 7 [t.dictRec (m.fail a)]
  if typeBad 2 m.index m.sub m.type then s.setTu p (answer t (typeCode 2 m.level m.index m.sub v))
  else s.writeTu p t m.level m.index m.sub v answer

/-- TR_DICT_WRITE (R447). -/
def execTrDictWrite (dt : Nat) (p : Port) (r : Rec) (s : State) : Host.Outcome State Fault Refusal :=
  let t := (s.tu p).tick dt
  .next (match dictReq r 2 with
    | none => s.setTu p t
    | some m =>
      let c := t.charge 7 (dictCost m.data.length) (decide (t.queued 0 + 64 ≤ reqCap 0))
      let t := c.1.internal 0x347 1
      if c.2 = 0 then s.dictWriteTu p t m m.data
      else s.setTu p ((t.dictLost c.2 m.data.length (some 0x0FF0)).sendFree (t.dictRec (m.fail 0x30))))

/-- R347, R450: the code of a segment: the object is a DOMAIN, and the bytes stay within 64 KiB and its limit. -/
def segmentCode (nodes i s ofs len : Nat) : Nat :=
  match objFind nodes i s with
  | none => objMissing nodes i
  | some r => if r.type ≠ 12 ∨ 65536 < ofs + len ∨ domLimit i s < ofs + len then 0x24 else 0

/-- R447: SEGMENT. -/
def Tu.dictSegment (t : Tu) (m : DictMsg) : Tu :=
  t.dictServe m m.data.length fun t =>
    match segmentCode 2 m.index m.sub m.offset m.data.length with
    | 0 => ({ t with staging := memWrite t.staging m.offset m.data }, m.fail 0)
    | a => ({ t with staging := [] }, m.fail a)

/-- TR_DICT_SEGMENT. -/
def execTrDictSegment (dt : Nat) (p : Port) (r : Rec) (s : State) : Host.Outcome State Fault Refusal :=
  .next (onTu p dt (fun t =>
    match dictReq r 3 with
    | some m => t.dictSegment m
    | none => t) s)

/-- R357: what a COMMIT of `total` bytes finds wrong before the object looks at the value. -/
def commitCode (total crc : Nat) (v : List Byte) : Nat :=
  if 65536 < total then 0x24 else if crc32c v ≠ crc then 0x41 else 0

/-- TR_DICT_COMMIT (R447, R357): the staged value is applied as one access. -/
def execTrDictCommit (dt : Nat) (p : Port) (r : Rec) (s : State) : Host.Outcome State Fault Refusal :=
  let t := (s.tu p).tick dt
  .next (match dictReq r 4 with
    | none => s.setTu p t
    | some m =>
      let c := t.charge 7 (dictCost 0) (decide (t.queued 0 + 64 ≤ reqCap 0))
      let t := c.1.internal 0x347 1
      if c.2 = 0 then
        let v := memRead t.staging 0 (min m.total 65536)
        let t := { t with staging := [] }
        match commitCode m.total m.crc v with
        | 0 => s.dictWriteTu p t m v
        | a => s.setTu p (t.enqueue 0 7 [t.dictRec (m.fail a)])
      else s.setTu p ((t.dictLost c.2 m.data.length (some 0x0FF0)).sendFree (t.dictRec (m.fail 0x30))))

/-- The value of a DOMAIN object of a TU for a copy (R358): the abort code, or the bytes. -/
def Tu.copyOf (t : Tu) (p : Port) (i s : Nat) : Nat × List Byte :=
  let v := t.readObj p i s
  if v.1 ≠ 0 then (v.1, []) else if v.2.1 ≠ 12 then (0x24, []) else if 20480 < v.2.2.length then (0x43, []) else (0, v.2.2)

/-- R447, R358: COPY. -/
def Tu.dictCopy (t : Tu) (p : Port) (m : DictMsg) : Tu :=
  t.dictServe m 0 fun t =>
    let c := t.copyOf p m.index m.sub
    if c.1 ≠ 0 then (t, m.fail c.1)
    else
      ({ t with dcopy := some { node := p.val + 1, index := m.index, sub := m.sub, bytes := c.2 } },
        m.reply 0 0x0C c.2.length (crc32c c.2) [])

/-- TR_DICT_COPY. -/
def execTrDictCopy (dt : Nat) (p : Port) (r : Rec) (s : State) : Host.Outcome State Fault Refusal :=
  .next (onTu p dt (fun t =>
    match dictReq r 5 with
    | some m => t.dictCopy p m
    | none => t) s)

/-- R447: COPY_READ. -/
def Tu.dictCopyRead (t : Tu) (m : DictMsg) : Tu :=
  let ans :=
    match t.dcopy with
    | some k =>
      if k.index ≠ m.index ∨ k.sub ≠ m.sub then m.fail 0x27
      else if k.bytes.length ≤ m.offset then m.fail 0x25
      else m.reply 0 0x0C 0 0 (slice k.bytes m.offset (min 512 (k.bytes.length - m.offset)))
    | none => m.fail 0x27
  t.dictServe m ans.data.length fun t => (t, ans)

/-- TR_DICT_COPY_READ. -/
def execTrDictCopyRead (dt : Nat) (p : Port) (r : Rec) (s : State) : Host.Outcome State Fault Refusal :=
  .next (onTu p dt (fun t =>
    match dictReq r 6 with
    | some m => t.dictCopyRead m
    | none => t) s)

/-! ### At Fyster -/

/-- R354: a TU's answer on port `p`: it goes to the access with its RID and kind. -/
def Fyster.dictAnswer (f : Fyster) (p : Nat) (r : Rec) : Fyster :=
  let m := dictMsg r
  if r.type ≠ 0x14 ∨ m.answer = false then f
  else
    match f.relays.find? fun x => x.rid == m.rid && x.port == p && x.dkind == m.dkind with
    | none => f
    | some x => ({ f with relays := f.relays.filter fun (y : Relay) => y.rid != x.rid }).relayAnswer x m r.ts64

/-- TR_DICT_ANSWER_RX. -/
def execTrDictAnswerRx (dt : Nat) (p : Port) (r : Rec) (s : State) : Host.Outcome State Fault Refusal :=
  .next (onFy dt (fun f => f.dictAnswer p.val r) s)

/-- R354: 200 µs without an answer. -/
def Fyster.nodeTimeout (f : Fyster) (rid : Nat) : Fyster :=
  match f.relays.find? fun x => x.rid == rid with
  | none => f
  | some x =>
    if f.part.time.now < x.sentAt + 200000 * 65536 then f
    else
      ({ f with relays := f.relays.filter fun (y : Relay) => y.rid != x.rid }).relayAnswer x (failedMsg x 0x12) f.ts

/-- NODE_TIMEOUT. -/
def execNodeTimeout (dt : Nat) (rid : BitVec 16) (s : State) : Host.Outcome State Fault Refusal :=
  .next (onFy dt (fun f => f.nodeTimeout rid.toNat) s)

end Sys2Proof.Machine
end

