-- ==== Sys2Proof/Machine/Tdp.lean ====
section
/-! DEFINITION. The Thotus dictionary protocol as Fyster receives it (R349 to R361): sessions, requests, block transfers and
subscriptions. -/

namespace Sys2Proof.Machine

/-! ### Messages (R349, R350) -/

/-- A message: its header, its value, where it came from, and whether it is well formed. -/
structure TdpMsg where
  version : Nat
  mtype   : Nat
  session : Nat
  seq     : Nat
  node    : Nat
  tagged  : Bool
  index   : Nat
  sub     : Nat
  type    : Nat
  value   : List Byte
  src     : BitVec 128
  port    : BitVec 16
  tagOk   : Bool
  shape   : Bool
deriving DecidableEq, Repr

/-- VLEN fits the message type (R350); a type that no client sends fits none. -/
def vlenOk (mtype vlen : Nat) : Bool :=
  match mtype with
  | 0x01 => vlen == 24
  | 0x03 => vlen == 16
  | 0x05 => vlen == 0
  | 0x10 => vlen == 0
  | 0x12 => decide (vlen ≤ 512)
  | 0x20 => vlen == 0
  | 0x21 => vlen == 8
  | 0x23 => decide (vlen ≤ 512)
  | 0x24 => vlen == 8
  | 0x25 => vlen == 8
  | 0x30 => vlen == 4
  | 0x32 => vlen == 2
  | _ => false

/-- The message of a datagram; none if it is too short for a header or LENGTH disagrees with it (R361). -/
def tdpMsg (m : Datagram) : Option TdpMsg :=
  let b := m.bytes
  let mtype := fieldAt b 1 1
  let tagged := bitOf (fieldAt b 13 1) 0
  let vlen := fieldAt b 20 4
  let n := vlen + (if mtype = 0x23 then 8 else 0)
  let whole := 32 + 8 * ceilDiv n 8 + (if tagged then 16 else 0)
  if b.length < 32 ∨ fieldAt b 2 2 ≠ b.length then none
  else some {
    version := fieldAt b 0 1, mtype := mtype, session := fieldAt b 4 4, seq := fieldAt b 8 4, node := fieldAt b 12 1,
    tagged := tagged, index := fieldAt b 16 2, sub := fieldAt b 18 1, type := fieldAt b 19 1, value := slice b 32 n,
    src := m.src, port := m.port, tagOk := m.tagOk,
    shape := vlenOk mtype vlen && b.length == whole && decide (b.length ≤ 1232) && (fieldAt b 4 4 != 0 || !tagged) }

/-- The message of a datagram if the management cores run and it is of a type. -/
def Fyster.tdpFor (f : Fyster) (m : Datagram) (mtype : Nat) : Option TdpMsg :=
  match tdpMsg m with
  | some h => if f.boot.running = true ∧ h.mtype = mtype then some h else none
  | none => none

/-- The request of a message. -/
def TdpMsg.ask (h : TdpMsg) : Ask :=
  { session := h.session, src := h.src, port := h.port, seq := h.seq, mtype := h.mtype, node := h.node, index := h.index,
    sub := h.sub }

/-- Who waits for a relayed READ or WRITE of a message. -/
def TdpMsg.why (h : TdpMsg) : RelayFor := .request h.session h.src h.port h.seq h.mtype

/-! ### Failures (R352) -/

/-- R352: a HELLO or AUTH of an address has failed. -/
def Fyster.authFail (f : Fyster) (a : BitVec 128) : Fyster :=
  let s := f.source a
  let fails := recentMs f.ns 60000 s.fails ++ [f.ns]
  let s := if f.rd 0x1100 5 ≤ fails.length then { s with fails := [], locked := some f.ns } else { s with fails := fails }
  (f.putSource s).bump 0x1101 6 1

/-- R352: HELLO of an address is refused. -/
def Fyster.lockedOut (f : Fyster) (a : BitVec 128) : Bool :=
  match (f.source a).locked with
  | some t => decide (f.ns < t + f.rd 0x1100 6 * 1000000000)
  | none => false

/-- R352: a message of a session with a bad tag; the sixteenth closes the session. -/
def Fyster.badTag (f : Fyster) (h : TdpMsg) : Fyster :=
  let f := (f.modSession h.session fun s => { s with badTags := s.badTags + 1 }).bump 0x1101 6 1
  let f := f.refuse h.ask false false 4
  match f.session? h.session with
  | some s => if 16 ≤ s.badTags then f.closeSession h.session else f
  | none => f

/-! ### Admission of a request (R351 to R353, R361) -/

/-- The abort code that a message's header and tag give. -/
def Fyster.headCode (f : Fyster) (h : TdpMsg) : Nat :=
  let live := (f.session? h.session).isSome
  lowestAbort [(!h.shape, 1), (h.version != 1, 2), (h.session != 0 && !live, 3), (live && !(h.tagged && h.tagOk), 4)]

/-- A message with a sound header and tag keeps its session alive and says where the client is; any other is answered. -/
def Fyster.tdpHead (f : Fyster) (h : TdpMsg) : Fyster × Bool :=
  match f.headCode h with
  | 0 => (f.modSession h.session fun s => { s with lastAt := f.ns, src := h.src, port := h.port }, true)
  | 4 => (f.badTag h, false)
  | a => (f.refuse h.ask (h.tagged && h.tagOk) false a, false)

/-- The session of a transfer or subscription that an access waits for, and the SEQ of its request. -/
def Fyster.waitsFor (f : Fyster) (w : RelayFor) : Option (Nat × Nat) :=
  match w with
  | .request s _ _ q _ => some (s, q)
  | .blkRead x => (f.xfer? x).map fun x => (x.session, x.seq)
  | .blkPart x => (f.xfer? x).map fun x => (x.session, x.seq)
  | .blkWrite x q => (f.xfer? x).map fun x => (x.session, q)
  | .subscribe id q => (f.subs.find? fun x => x.id == id).map fun x => (x.session, q)
  | _ => none

/-- Accesses under way for someone: relayed ones, and a row at Juniper (R311). -/
def Fyster.waits (f : Fyster) : List RelayFor := f.relays.map (·.why) ++ (f.jun.demand.bind (·.why)).toList

/-- A request is under way. -/
def Fyster.inFlight (f : Fyster) (session seq : Nat) : Bool := f.waits.any fun w => f.waitsFor w == some (session, seq)

/-- Requests of a client under way (R353); without a session the client is a source address and port. -/
def Fyster.outstanding (f : Fyster) (h : TdpMsg) : Nat :=
  (f.waits.filter fun w =>
    (if h.session = 0 then
      (match w with
       | .request s a p _ _ => s == 0 && a == h.src && p == h.port
       | _ => false)
     else (f.waitsFor w).map (·.1) == some h.session)).length

/-- A sessionless request (R361). -/
def Fyster.admitOpen (f : Fyster) (h : TdpMsg) : Fyster × Bool :=
  let s := f.source h.src
  let times := recentMs f.ns 1000 s.times
  match lowestAbort [(decide (16 ≤ f.outstanding h), 0x30), (decide (f.rd 0x1100 3 ≤ times.length), 0x31)] with
  | 0 => ((f.putSource { s with times := times ++ [f.ns] }).bump 0x1101 2 1, true)
  | a => (f.refuse h.ask false false a, false)

/-- R353: the session has received this SEQ. -/
def Session.received (s : Session) (seq : Nat) : Bool := seq == s.high || s.seen.contains seq

/-- R353: the session after a SEQ that it had not received. -/
def Session.take (s : Session) (seq : Nat) : Session :=
  let high := max s.high seq
  { s with high := high, seen := (min s.high seq :: s.seen).filter fun q => decide (high ≤ q + 64) }

/-- A request of a session (R353, R361): repeated, refused, or performed. -/
def Fyster.admitSeq (f : Fyster) (h : TdpMsg) (s : Session) : Fyster × Bool :=
  if h.seq ≠ 0 ∧ s.received h.seq = true then
    match s.kept.find? fun k => k.seq == h.seq with
    | some k => ((f.bump 0x1101 7 1).sendDatagram h.src h.port true (asRepeat k.bytes), false)
    | none => if f.inFlight h.session h.seq then (f, false) else (f.refuse h.ask true false 6, false)
  else if h.seq = 0 ∨ h.seq + 64 < s.high then (f.refuse h.ask true false 6, false)
  else
    let times := recentMs f.ns 1000 s.times
    match lowestAbort [(decide (16 ≤ f.outstanding h), 0x30), (decide (f.rd 0x1100 4 ≤ times.length), 0x31)] with
    | 0 => ((f.modSession h.session fun s => { s.take h.seq with times := times ++ [f.ns] }).bump 0x1101 2 1, true)
    | a => (f.refuse h.ask true false a, false)

/-- A request: true if it is performed now. -/
def Fyster.tdpTake (f : Fyster) (h : TdpMsg) : Fyster × Bool :=
  let a := f.tdpHead h
  if a.2 = false then a
  else
    match a.1.session? h.session with
    | some s => a.1.admitSeq h s
    | none => a.1.admitOpen h

/-- A request that changes Fyster alone. -/
def Fyster.request (f : Fyster) (m : Datagram) (mtype : Nat) (act : Fyster → TdpMsg → Fyster) : Fyster :=
  match f.tdpFor m mtype with
  | none => f
  | some h => if (f.tdpTake h).2 then act (f.tdpTake h).1 h else (f.tdpTake h).1

/-- A request that changes the tray. -/
def State.request (s : State) (dt : Nat) (m : Datagram) (mtype : Nat) (act : State → Fyster → TdpMsg → State) : State :=
  let f := s.fy.tick dt
  match f.tdpFor m mtype with
  | none => { s with fy := f }
  | some h => if (f.tdpTake h).2 then act s (f.tdpTake h).1 h else { s with fy := (f.tdpTake h).1 }

/-! ### Sessions (R351, R352) -/

/-- Sessions and provisional sessions fill Fyster's table. -/
def Fyster.sessionsFull (f : Fyster) : Bool := decide (16 ≤ f.sessions.length)

/-- HELLO (R351): the security block is asked, or the client is refused. -/
def Fyster.tdpHello (f : Fyster) (h : TdpMsg) : Fyster :=
  let s := f.source h.src
  let times := recentMs f.ns 1000 s.times
  let level := fieldAt h.value 4 1
  let code := lowestAbort [(!h.shape, 1), (h.version != 1, 2), (f.lockedOut h.src, 4), (level != 1 && level != 2, 0x26),
    (f.sessionsFull, 0x28), (decide (f.rd 0x1100 3 ≤ times.length), 0x31)]
  if code = 0 then
    let f := f.putSource { s with times := times ++ [f.ns] }
    { f with hellos := f.hellos ++ [({ src := h.src, port := h.port, key := fieldAt h.value 0 4, level := level, seq := h.seq } : Hello)] }
  else (if code = 4 then f.bump 0x1101 6 1 else f).refuse { h.ask with session := 0 } false false code

/-- TDP_HELLO. -/
def execTdpHello (dt : Nat) (m : Datagram) (s : State) : Host.Outcome State Fault Refusal :=
  .next (onFy dt (fun f =>
    match f.tdpFor m 1 with
    | some h => f.tdpHello h
    | none => f) s)

/-- The HELLO of `h` as a request. -/
def Hello.ask (h : Hello) : Ask :=
  { session := 0, src := h.src, port := h.port, seq := h.seq, mtype := 1, node := 0xFF, index := 0, sub := 0 }

/-- A provisional session. -/
def Hello.provisional (h : Hello) (id ns : Nat) : Session :=
  { id := id, key := h.key, level := h.level, src := h.src, port := h.port, live := false, proof := none, since := ns, lastAt := ns,
    high := 0, seen := [], kept := [], badTags := 0, times := [], armedAt := none }

/-- A message of the opening of a session. -/
def openOut (mtype session seq : Nat) (tagged : Bool) (ts : Nat) : TdpOut :=
  { mtype := mtype, session := session, seq := seq, node := 0xFF, tagged := tagged, abort := 0, index := 0, sub := 0, type := 0,
    ts := ts }

/-- R351: the security block has answered: CHALLENGE, or AUTH_FAILED; LIMIT if the table has filled meanwhile. -/
def Fyster.challenge (f : Fyster) (a : SecLeave) : Fyster :=
  match f.hellos.find? fun h => h.src == a.src with
  | none => f
  | some h =>
    let f := { f with hellos := f.hellos.erase h }
    if a.leave = false then (f.authFail h.src).refuse h.ask false false 4
    else if f.sessionsFull then f.refuse h.ask false false 0x28
    else
      let id := f.nextSession
      let f := { f with
        nextSession := id % (2 ^ 32 - 1) + 1
        sessions := f.sessions ++ [h.provisional id f.ns] }
      f.sendDatagram h.src h.port false ((openOut 2 id h.seq false f.ts).bytes 16 (slice (a.nonce ++ List.replicate 16 0) 0 16))

/-- TDP_CHALLENGE_READY. -/
def execTdpChallengeReady (dt : Nat) (a : SecLeave) (s : State) : Host.Outcome State Fault Refusal :=
  .next (onFy dt (fun f => if f.boot.running then f.challenge a else f) s)

/-- AUTH (R351): PROOF goes to the security block; later than 5 s it fails. -/
def Fyster.tdpAuth (f : Fyster) (h : TdpMsg) : Fyster :=
  match lowestAbort [(!h.shape, 1), (h.version != 1, 2)] with
  | 0 =>
    match f.sessions.find? fun s => s.id == h.session with
    | none =>
      if h.session = 0 ∨ f.nextSession ≤ h.session then f.refuse h.ask false false 3
      else (f.authFail h.src).refuse h.ask false false 4
    | some s =>
      if s.live then if h.tagged && h.tagOk then f.refuse h.ask true false 3 else f.badTag h
      else if s.proof.isSome then f
      else if s.since + 5000000000 < f.ns then ((f.closeSession h.session).authFail h.src).refuse h.ask false false 4
      else f.modSession h.session fun s => { s with proof := some h.seq, src := h.src, port := h.port }
  | a => f.refuse h.ask false false a

/-- TDP_AUTH. -/
def execTdpAuth (dt : Nat) (m : Datagram) (s : State) : Host.Outcome State Fault Refusal :=
  .next (onFy dt (fun f =>
    match f.tdpFor m 3 with
    | some h => f.tdpAuth h
    | none => f) s)

/-- R351: PROOF has been checked: AUTH_ACK, or AUTH_FAILED and the provisional session is discarded. -/
def Fyster.authChecked (f : Fyster) (id : Nat) (ok : Bool) : Fyster :=
  match f.sessions.find? fun s => s.id == id && !s.live with
  | none => f
  | some s =>
    match s.proof with
    | none => f
    | some seq =>
      if ok then
        let f := f.modSession id fun s => { s with live := true, proof := none, lastAt := f.ns }
        f.sendDatagram s.src s.port true ((openOut 4 id seq true f.ts).bytes 8 (leBytes 8 (f.rd 0x1100 2)))
      else
        ((f.closeSession id).authFail s.src).refuse
          { session := id, src := s.src, port := s.port, seq := seq, mtype := 3, node := 0xFF, index := 0, sub := 0 } false false 4

/-- TDP_AUTH_CHECKED. -/
def execTdpAuthChecked (dt : Nat) (session : BitVec 32) (ok : Bool) (s : State) : Host.Outcome State Fault Refusal :=
  .next (onFy dt (fun f => if f.boot.running then f.authChecked session.toNat ok else f) s)

/-- TDP_AUTH_TIMEOUT (R351). -/
def execTdpAuthTimeout (dt : Nat) (session : BitVec 32) (s : State) : Host.Outcome State Fault Refusal :=
  .next (onFy dt (fun f =>
    match f.sessions.find? fun s => s.id == session.toNat with
    | some x => if x.live = false ∧ x.proof.isNone = true ∧ x.since + 5000000000 ≤ f.ns then f.closeSession x.id else f
    | none => f) s)

/-- R352: CLOSE. -/
def Fyster.tdpClose (f : Fyster) (h : TdpMsg) : Fyster :=
  if h.session = 0 then f.answer h.ask 3 0 f.ts [] else (f.answer h.ask 0 0 f.ts []).closeSession h.session

/-- TDP_CLOSE. -/
def execTdpClose (dt : Nat) (m : Datagram) (s : State) : Host.Outcome State Fault Refusal :=
  .next (onFy dt (fun f => f.request m 0x05 fun f h => f.tdpClose h) s)

/-- SESSION_IDLE_TIMEOUT (R352). -/
def execSessionIdleTimeout (dt : Nat) (session : BitVec 32) (s : State) : Host.Outcome State Fault Refusal :=
  .next (onFy dt (fun f =>
    match f.session? session.toNat with
    | some x => if x.lastAt + f.rd 0x1100 2 * 1000000000 ≤ f.ns then f.closeSession x.id else f
    | none => f) s)

/-- AUTH_LOCKOUT_EXPIRY (R352). -/
def execAuthLockoutExpiry (dt : Nat) (addr : BitVec 128) (s : State) : Host.Outcome State Fault Refusal :=
  .next (onFy dt (fun f =>
    let x := f.source addr
    if x.locked.isSome = true ∧ f.lockedOut addr = false then f.putSource { x with locked := none } else f) s)

/-- R361: a datagram that is dropped is counted; a message of a type that no client sends is answered MALFORMED, except
CLOSE_ACK. -/
def Fyster.tdpDrop (f : Fyster) (m : Datagram) : Fyster :=
  match tdpMsg m with
  | none => f.bump 0x1101 5 1
  | some h => if ([0x01, 0x03, 0x05, 0x06, 0x10, 0x12, 0x20, 0x21, 0x23, 0x24, 0x25, 0x30, 0x32] : List Nat).contains h.mtype then f
              else f.refuse h.ask (h.tagged && h.tagOk) false 1

/-- TDP_MALFORMED_DROP. -/
def execTdpMalformedDrop (dt : Nat) (m : Datagram) (s : State) : Host.Outcome State Fault Refusal :=
  .next (onFy dt (fun f => if f.boot.running then f.tdpDrop m else f) s)

/-! ### READ and WRITE (R350, R342) -/

/-- READ. -/
def Fyster.tdpRead (f : Fyster) (h : TdpMsg) : Fyster :=
  match f.nodeCode h.node with
  | 0 =>
    if h.node = 0 then
      let v := f.readObj h.index h.sub
      if v.1 ≠ 0 then f.answer h.ask v.1 0 f.ts []
      else if 512 < v.2.2.length then f.answer h.ask 0x43 0 f.ts []
      else f.answer h.ask 0 v.2.1 f.ts v.2.2
    else f.relay (h.node - 1) h.why (dictReadMsg (f.levelOf h.session) h.index h.sub h.type)
  | a => f.answer h.ask a 0 f.ts []

/-- TDP_READ. -/
def execTdpRead (dt : Nat) (m : Datagram) (s : State) : Host.Outcome State Fault Refusal :=
  .next (onFy dt (fun f => f.request m 0x10 fun f h => f.tdpRead h) s)

/-- WRITE. -/
def State.tdpWrite (s : State) (f : Fyster) (h : TdpMsg) : State :=
  let level := f.levelOf h.session
  match f.nodeCode h.node with
  | 0 =>
    if h.node ≠ 0 then
      { s with fy := f.relay (h.node - 1) h.why (dictWriteMsg level h.index h.sub h.type h.value) }
    else if typeBad 1 h.index h.sub h.type then
      { s with fy := f.answer h.ask (typeCode 1 level h.index h.sub h.value) 0 f.ts [] }
    else s.writeFy f h.session level h.index h.sub h.value (some h.why) fun f a => f.answer h.ask a h.type f.ts []
  | a => { s with fy := f.answer h.ask a 0 f.ts [] }

/-- TDP_WRITE. -/
def execTdpWrite (dt : Nat) (m : Datagram) (s : State) : Host.Outcome State Fault Refusal :=
  .next (s.request dt m 0x12 fun s f h => s.tdpWrite f h)

/-! ### Block transfers (R355 to R358) -/

/-- R355: no further transfer may begin for the session. -/
def Fyster.xfersFull (f : Fyster) (session : Nat) : Bool := (f.xfers.any fun x => x.session == session) || decide (8 ≤ f.xfers.length)

/-- The transfer that an INIT opens. -/
def TdpMsg.xfer (h : TdpMsg) (id ns : Nat) (write : Bool) (total crc : Nat) (bytes : List Byte) : Xfer :=
  { id := id, session := h.session, node := h.node, index := h.index, sub := h.sub, write := write, total := total, crc := crc,
    bytes := bytes, next := 0, sent := 0, sinceAck := 0, lastAt := ns, ackAt := ns, seq := h.seq, ready := false }

/-- A new transfer, and its XFER_ID. -/
def Fyster.newXfer (f : Fyster) (h : TdpMsg) (write : Bool) (total crc : Nat) (bytes : List Byte) : Fyster × Nat :=
  let id := f.nextXfer
  ({ f with
      nextXfer := id % 65535 + 1
      xfers := f.xfers ++ [h.xfer id f.ns write total crc bytes] }, id)

/-- BLK_READ_INIT of an object of Fyster. -/
def Fyster.blkReadOwn (f : Fyster) (h : TdpMsg) : Fyster :=
  let v := f.readObj h.index h.sub
  match lowestAbort [(v.1 != 0, v.1), (v.1 == 0 && v.2.1 != 12, 0x24), (f.xfersFull h.session, 0x44)] with
  | 0 =>
    let x := f.newXfer h false v.2.2.length (crc32c v.2.2) v.2.2
    x.1.xferOpen x.2 f.ts
  | a => f.answer h.ask a 0 f.ts []

/-- BLK_READ_INIT of an object of a TU: its copy is fetched first (R358, R447). -/
def Fyster.blkReadTu (f : Fyster) (h : TdpMsg) : Fyster :=
  let p := h.node - 1
  match lowestAbort [(f.nodeCode h.node != 0, f.nodeCode h.node), (f.xfersFull h.session, 0x44), (f.domainBusy p, 0x30)] with
  | 0 =>
    let x := f.newXfer h false 0 0 []
    x.1.relay p (.blkRead x.2) (copyMsg (f.levelOf h.session) h.index h.sub)
  | a => f.answer h.ask a 0 f.ts []

/-- BLK_READ_INIT. -/
def Fyster.blkReadInit (f : Fyster) (h : TdpMsg) : Fyster :=
  if h.session = 0 then f.answer h.ask 3 0 f.ts [] else if h.node = 0 then f.blkReadOwn h else f.blkReadTu h

/-- The command BLK_READ_INIT. -/
def execBlkReadInit (dt : Nat) (m : Datagram) (s : State) : Host.Outcome State Fault Refusal :=
  .next (onFy dt (fun f => f.request m 0x20 fun f h => f.blkReadInit h) s)

/-- R355: what an INIT of a block write finds wrong with its object. -/
def blkWriteCode (nodes i s total : Nat) : Nat :=
  match objFind nodes i s with
  | none => objMissing nodes i
  | some r => lowestAbort [(r.type != 12, 0x24), (decide (domLimit i s < total), 0x43)]

/-- BLK_WRITE_INIT. -/
def Fyster.blkWriteInit (f : Fyster) (h : TdpMsg) : Fyster :=
  let total := fieldAt h.value 0 4
  let node := f.nodeCode h.node
  let obj := blkWriteCode (if h.node = 0 then 1 else 2) h.index h.sub total
  match lowestAbort [(h.session == 0, 3), (node != 0, node), (node == 0 && obj != 0, obj), (f.xfersFull h.session, 0x44)] with
  | 0 =>
    let x := f.newXfer h true total (fieldAt h.value 4 4) []
    x.1.xferOpen x.2 f.ts
  | a => f.answer h.ask a 0 f.ts []

/-- The command BLK_WRITE_INIT. -/
def execBlkWriteInit (dt : Nat) (m : Datagram) (s : State) : Host.Outcome State Fault Refusal :=
  .next (onFy dt (fun f => f.request m 0x21 fun f h => f.blkWriteInit h) s)

/-- The transfer that a message names, if it is one of its session in this direction. -/
def Fyster.xferOf (f : Fyster) (h : TdpMsg) (write : Bool) : Option Xfer :=
  f.xfers.find? fun x => x.id == fieldAt h.value 0 2 && x.session == h.session && x.write == write

/-- R356: BLK_ACK of what has been received in order; it is kept as the answer to the segment. -/
def Fyster.sendAck (f : Fyster) (h : TdpMsg) (id : Nat) : Fyster :=
  match f.xfer? id with
  | none => f
  | some x =>
    let bs := (f.outHead h.ask 0x24 0 0 f.ts).bytes 8 (leBytes 4 x.id ++ leBytes 4 (x.next + 2 ^ 32 - 1))
    let f := f.modXfer id fun x => { x with sinceAck := 0 }
    let f := f.modSession h.session fun s => { s with kept := keepAnswer s.kept { seq := h.seq, bytes := bs } }
    f.sendDatagram h.src h.port true bs

/-- BLK_SEG (R356). -/
def Fyster.blkSeg (f : Fyster) (h : TdpMsg) : Fyster :=
  let no := fieldAt h.value 4 4
  let data := h.value.drop 8
  match f.xferOf h true with
  | none => f.answer h.ask (if h.session = 0 then 3 else 0x40) 0 f.ts []
  | some x =>
    let f := f.modXfer x.id fun x => { x with lastAt := f.ns }
    if no = x.next ∧ no < segCount x.total then
      if data.length ≠ min 512 (x.total - 512 * no) then f.answer h.ask 1 0 f.ts []
      else
        let f := f.modXfer x.id fun x => { x with bytes := x.bytes ++ data, next := x.next + 1, sinceAck := x.sinceAck + 1 }
        (if x.sinceAck = 3 then f.sendAck h x.id else f).closeIfLast h.ask
    else (f.sendAck h x.id).closeIfLast h.ask

/-- The command BLK_SEG. -/
def execBlkSeg (dt : Nat) (m : Datagram) (s : State) : Host.Outcome State Fault Refusal :=
  .next (onFy dt (fun f => f.request m 0x23 fun f h => f.blkSeg h) s)

/-- R356: Fyster sends again from the acknowledged segment on. -/
def Fyster.resendSegs (f : Fyster) (id : Nat) : Fyster := (f.modXfer id fun x => { x with sent := x.next }).sendWindow id

/-- BLK_ACK (R356). -/
def Fyster.blkAck (f : Fyster) (h : TdpMsg) : Fyster :=
  let upto := (fieldAt h.value 4 4 + 1) % 2 ^ 32
  match f.xferOf h false with
  | none => f.refuse h.ask true false (if h.session = 0 then 3 else 0x40)
  | some x =>
    let f := f.modXfer x.id fun x => { x with lastAt := f.ns, ackAt := f.ns }
    if x.ready = false ∨ x.sent < upto then f
    else if x.next < upto then (f.modXfer x.id fun x => { x with next := upto }).sendWindow x.id
    else f.resendSegs x.id

/-- The command BLK_ACK; an acknowledgement is no request under R353. -/
def execBlkAck (dt : Nat) (m : Datagram) (s : State) : Host.Outcome State Fault Refusal :=
  .next (onFy dt (fun f =>
    match f.tdpFor m 0x24 with
    | none => f
    | some h => if (f.tdpHead h).2 then (f.tdpHead h).1.blkAck h else (f.tdpHead h).1) s)

/-- The parts of a transfer are on their way to a TU. -/
def Fyster.partsUnderWay (f : Fyster) (id : Nat) : Bool :=
  f.waits.any fun w =>
    match w with
    | .blkWrite x _ => x == id
    | _ => false

/-- BLK_END of a write to a TU: the value goes there part by part (R357, R447). -/
def Fyster.blkEndTu (f : Fyster) (h : TdpMsg) (x : Xfer) : Fyster :=
  let p := x.node - 1
  match f.nodeCode x.node with
  | 0 =>
    if f.domainBusy p then f.answer h.ask 0x30 0 f.ts []
    else
      (f.modXfer x.id fun x => { x with sent := 0 }).relay p (.blkWrite x.id h.seq)
        (partMsg (f.levelOf h.session) x.index x.sub 0 x.bytes)
  | a => f.xferEnd x.id h.seq a f.ts

/-- BLK_END (R357, R358). -/
def State.blkEnd (s : State) (f : Fyster) (h : TdpMsg) : State :=
  match f.xferOf h true, f.xferOf h false with
  | some x, _ =>
    let f := f.modXfer x.id fun x => { x with lastAt := f.ns }
    if f.partsUnderWay x.id then { s with fy := f.answer h.ask 0x30 0 f.ts [] }
    else if x.bytes.length ≠ x.total ∨ crc32c x.bytes ≠ x.crc then { s with fy := f.xferEnd x.id h.seq 0x41 f.ts }
    else if x.node ≠ 0 then { s with fy := f.blkEndTu h x }
    else
      s.writeFy f h.session (f.levelOf h.session) x.index x.sub x.bytes (some (.blkWrite x.id h.seq)) fun f a =>
        f.xferEnd x.id h.seq a f.ts
  | none, some x => { s with fy := f.xferEnd x.id h.seq 0 f.ts }
  | none, none => { s with fy := f.answer h.ask (if h.session = 0 then 3 else 0x40) 0 f.ts [] }

/-- The command BLK_END. -/
def execBlkEnd (dt : Nat) (m : Datagram) (s : State) : Host.Outcome State Fault Refusal :=
  .next (s.request dt m 0x25 fun s f h => s.blkEnd f h)

/-- BLOCK_RESEND_TIMER (R356): 100 ms without an acknowledgement. -/
def execBlockResendTimer (dt : Nat) (xfer : BitVec 16) (s : State) : Host.Outcome State Fault Refusal :=
  .next (onFy dt (fun f =>
    match f.xfer? xfer.toNat with
    | some x =>
      if x.write = false ∧ x.ready = true ∧ x.next < x.sent ∧ x.ackAt + 100000000 ≤ f.ns then f.resendSegs x.id else f
    | none => f) s)

/-- R355: 1 s without a message. -/
def Fyster.blockTimeout (f : Fyster) (id : Nat) : Fyster :=
  match f.xfer? id with
  | none => f
  | some x =>
    if f.ns < x.lastAt + 1000000000 then f
    else (f.refuse (f.xferAsk x (if x.write then 0x21 else 0x20) 0) true false 0x42).dropXfer id

/-- BLOCK_TIMEOUT. -/
def execBlockTimeout (dt : Nat) (xfer : BitVec 16) (s : State) : Host.Outcome State Fault Refusal :=
  .next (onFy dt (fun f => f.blockTimeout xfer.toNat) s)

/-! ### Subscriptions (R359) -/

/-- R359: no further subscription may begin for the session. -/
def Fyster.subsFull (f : Fyster) (session : Nat) : Bool :=
  decide (32 ≤ (f.subs.filter fun x => x.session == session).length) || decide (256 ≤ f.subs.length)

/-- The object of a SUBSCRIBE at Fyster: its abort code. -/
def Fyster.subObjCode (f : Fyster) (h : TdpMsg) : Nat :=
  let v := f.readObj h.index h.sub
  if v.1 ≠ 0 then v.1 else if 512 < v.2.2.length then 0x43 else 0

/-- The subscription that a SUBSCRIBE begins. -/
def TdpMsg.newSub (h : TdpMsg) (id ns : Nat) (periodic : Bool) (ms : Nat) : Sub :=
  { id := id, session := h.session, node := h.node, index := h.index, sub := h.sub, periodic := periodic, interval := ms, last := none,
    changes := 0, sentAt := ns, readAt := ns, dirty := false }

/-- SUBSCRIBE: the value is read once, and the answer tells whether it can be. -/
def Fyster.subscribe (f : Fyster) (h : TdpMsg) : Fyster :=
  let mode := fieldAt h.value 0 1
  let ms := fieldAt h.value 2 2
  let node := f.nodeCode h.node
  let obj := if h.node = 0 then f.subObjCode h else 0
  match lowestAbort [(h.session == 0, 3), (node != 0, node), (obj != 0, obj), (ms == 0 || decide (60000 < ms), 0x25),
      (mode != 1 && mode != 2, 0x26), (f.subsFull h.session, 0x28)] with
  | 0 =>
    let id := f.nextSub
    let f := { f with
      nextSub := id % 65535 + 1
      subs := f.subs ++ [h.newSub id f.ns (mode == 2) ms] }
    if h.node = 0 then f.subOpen id h.seq 0 f.ts (f.readObj h.index h.sub).2.2
    else f.relay (h.node - 1) (.subscribe id h.seq) (dictReadMsg (f.levelOf h.session) h.index h.sub h.type)
  | a => f.answer h.ask a 0 f.ts []

/-- The command SUBSCRIBE. -/
def execSubscribe (dt : Nat) (m : Datagram) (s : State) : Host.Outcome State Fault Refusal :=
  .next (onFy dt (fun f => f.request m 0x30 fun f h => f.subscribe h) s)

/-- UNSUBSCRIBE. -/
def Fyster.unsubscribe (f : Fyster) (h : TdpMsg) : Fyster :=
  let id := fieldAt h.value 0 2
  if h.session = 0 then f.answer h.ask 3 0 f.ts []
  else if f.subs.any fun x => x.id == id && x.session == h.session then
    { f with subs := f.subs.filter fun (x : Sub) => x.id != id }.answer h.ask 0 3 f.ts (leBytes 2 id)
  else f.answer h.ask 0x2D 0 f.ts []

/-- The command UNSUBSCRIBE. -/
def execUnsubscribe (dt : Nat) (m : Datagram) (s : State) : Host.Outcome State Fault Refusal :=
  .next (onFy dt (fun f => f.request m 0x32 fun f h => f.unsubscribe h) s)

/-- A subscription has begun to read its value. -/
def Fyster.subRead (f : Fyster) (id : Nat) : Fyster :=
  { f with subs := f.subs.map fun (x : Sub) => if x.id = id then { x with readAt := f.ns } else x }

/-- R359: the value of a subscription is read: an own object each 1 ms, an object of a TU every MIN_INTERVAL_MS and no more often
than every 10 ms. -/
def Fyster.subscriptionCheck (f : Fyster) (id : Nat) : Fyster :=
  match f.subs.find? fun x => x.id == id with
  | none => f
  | some x =>
    let gap := if x.node = 0 then 1 else max 10 x.interval
    if x.last.isNone = true ∨ f.ns < x.readAt + gap * 1000000 then f
    else
      let g := f.subRead id
      if x.node = 0 then
        let v := f.readObj x.index x.sub
        if v.1 ≠ 0 ∨ 512 < v.2.2.length then g else g.subValue id v.2.1 v.2.2
      else if f.nodeCode x.node ≠ 0 ∨ (f.waits.any fun w => w == .subscription id) = true then g
      else g.relay (x.node - 1) (.subscription id) (dictReadMsg (f.levelOf x.session) x.index x.sub 0)

/-- SUBSCRIPTION_CHECK. -/
def execSubscriptionCheck (dt : Nat) (sub : BitVec 16) (s : State) : Host.Outcome State Fault Refusal :=
  .next (onFy dt (fun f => f.subscriptionCheck sub.toNat) s)

end Sys2Proof.Machine
end

