-- ==== Sys2Proof/Machine/Mbox.lean ====
section
/-! DEFINITION. Dictionary messages in mailbox channels (R345, R370, R373, R450): the head message of an IN channel is served and
acknowledged. -/

namespace Sys2Proof.Machine

/-- A dictionary message (R373). -/
structure MboxReq where
  node  : Nat
  index : Nat
  sub   : Nat
  type  : Nat
  len   : Nat
  ofs   : Nat
  total : Nat
  data  : List Byte
  stamp : BitVec 32
deriving DecidableEq, Repr

/-- The head message of an IN channel. -/
def Channel.headIn (x : Channel) : Option Msg := if x.out then none else x.queue.head?

/-- The head message of an IN channel if it is a dictionary message of a code. -/
def Channel.dictReq (x : Channel) (code : Nat) : Option MboxReq :=
  match x.headIn with
  | none => none
  | some m =>
    let b := m.body
    if fieldAt b 0 1 ≠ code then none
    else some { node := fieldAt b 1 1, index := fieldAt b 2 2, sub := fieldAt b 4 1, type := fieldAt b 5 1, len := fieldAt b 6 2,
                ofs := fieldAt b 8 4, total := fieldAt b 12 4, data := slice b 16 (min 48 (fieldAt b 6 2)), stamp := m.stamp }

/-- Subindex of MBOX_LEVEL for a PORT (R370); 0 for a PORT without one. -/
def levelSub (fyster : Bool) (port : Nat) : Nat :=
  match fyster, port with
  | false, 1 => 2
  | false, 2 => 3
  | false, 3 => 4
  | false, 6 => 5
  | true, 0x11 => 6
  | true, 0x12 => 7
  | true, 0x13 => 8
  | _, _ => 0

/-- R370: MBOX_LEVEL of a sender: 0 none, 1 observe, 2 operate. -/
def Part.mboxLevel (p : Part) (fyster : Bool) (stamp : BitVec 32) : Nat :=
  match levelSub fyster (stampPort stamp) with
  | 0 => 0
  | s => p.rd 0x6100 s

/-- What is wrong with a dictionary message before its object is looked at; `node`: it names a node that the channel cannot. -/
def MboxReq.code (q : MboxReq) (node : Bool) (level : Nat) (busy : Bool) : Nat :=
  lowestAbort [(decide (48 < q.len) || node, 1), (level == 0, 5), (busy, 0x30)]

/-- A channel's copy is of the object that a read names (R450). -/
def Channel.copyOf (x : Channel) (q : MboxReq) : Bool :=
  match x.copy with
  | some k => k.node == q.node && k.index == q.index && k.sub == q.sub
  | none => false

/-- R373: the bytes gathered on a channel for the sender and the object of a message. -/
def Channel.gathered (x : Channel) (q : MboxReq) : Option (List Host.Cell) :=
  match x.gather with
  | some g => if g.sender = q.stamp ∧ g.node = q.node ∧ g.index = q.index ∧ g.sub = q.sub then some g.bytes else none
  | none => none

/-- R373: a segment is placed; one of another sender or object discards what was gathered. -/
def Channel.place (x : Channel) (q : MboxReq) : Channel :=
  let bytes := memWrite ((x.gathered q).getD []) q.ofs q.data
  { x with gather := some { sender := q.stamp, node := q.node, index := q.index, sub := q.sub, bytes := bytes } }

/-! ### At a TU -/

/-- R196, R373: a dictionary message is charged to DICT with `n` bytes; true if it is not admitted, `lost` value
bytes then being lost. A TU that is not discovered has nothing to share
its stages with. -/
def Tu.mboxCharge (t : Tu) (n lost : Nat) : Tu × Bool :=
  let c := if t.discovered then t.charge 7 (dictCost n) true else (t, 0)
  let t := c.1.internal 0x347 1
  if c.2 = 0 then (t, false) else (t.dictLost c.2 lost none, true)

/-- DICT_READ at a TU. -/
def Tu.mboxRead (t : Tu) (p : Port) (c : Nat) (q : MboxReq) : Tu :=
  let v := t.readObj p q.index q.sub
  let ch := t.mboxCharge (if v.1 ≠ 0 then 0 else min 48 v.2.2.length) 0
  let t := ch.1
  match q.code (q.node != 0) (t.part.mboxLevel false q.stamp) ch.2 with
  | 0 =>
    if v.1 ≠ 0 then t.mboxAnswer c v.1 q.type 0 []
    else if v.2.1 ≠ 12 then t.mboxAnswer c 0 v.2.1 v.2.2.length (v.2.2.take 48)
    else if q.ofs = 0 then
      if 20480 < v.2.2.length then t.mboxAnswer c 0x43 q.type 0 []
      else
        let k : Copy := { node := q.node, index := q.index, sub := q.sub, bytes := v.2.2 }
        (t.putChan c { t.chan c with copy := some k }).mboxCopyAnswer c 0
    else if (t.chan c).copyOf q then t.mboxCopyAnswer c q.ofs
    else t.mboxAnswer c 0x27 q.type 0 []
  | a => t.mboxAnswer c a q.type 0 []

/-- DICT_WRITE at a TU. -/
def State.mboxWriteTu (s : State) (p : Port) (t : Tu) (c : Nat) (q : MboxReq) : State :=
  let ch := t.mboxCharge q.len q.len
  let t := ch.1
  let level := t.part.mboxLevel false q.stamp
  match q.code (q.node != 0) level ch.2 with
  | 0 =>
    if typeBad 2 q.index q.sub q.type then s.setTu p (t.mboxAnswer c (typeCode 2 (level - 1) q.index q.sub q.data) q.type 0 [])
    else s.writeTu p t (level - 1) q.index q.sub q.data fun t a => t.mboxAnswer c a q.type 0 []
  | a => s.setTu p (t.mboxAnswer c a q.type 0 [])

/-- DICT_SEGMENT at a TU. -/
def Tu.mboxSegment (t : Tu) (c : Nat) (q : MboxReq) : Tu :=
  let ch := t.mboxCharge q.len q.len
  let t := ch.1
  match q.code (q.node != 0) (t.part.mboxLevel false q.stamp) ch.2 with
  | 0 =>
    (match segmentCode 2 q.index q.sub q.ofs q.data.length with
     | 0 => (t.putChan c ((t.chan c).place q)).mboxAnswer c 0 q.type 0 []
     | a => (t.putChan c { t.chan c with gather := none }).mboxAnswer c a q.type 0 [])
  | a => t.mboxAnswer c a q.type 0 []

/-- What a DICT_COMMIT finds wrong before the object looks at the value. -/
def MboxReq.commitCode (q : MboxReq) (x : Channel) : Nat :=
  lowestAbort [(decide (65536 < q.total), 0x24), ((x.gathered q).isNone, 0x27)]

/-- DICT_COMMIT at a TU. -/
def State.mboxCommitTu (s : State) (p : Port) (t : Tu) (c : Nat) (q : MboxReq) : State :=
  let ch := t.mboxCharge 0 0
  let t := ch.1
  let level := t.part.mboxLevel false q.stamp
  let x := t.chan c
  let own := q.commitCode x
  match lowestAbort [(q.code (q.node != 0) level ch.2 != 0, q.code (q.node != 0) level ch.2), (own != 0, own)] with
  | 0 =>
    s.writeTu p (t.putChan c { x with gather := none }) (level - 1) q.index q.sub
      (memRead ((x.gathered q).getD []) 0 q.total) fun t a => t.mboxAnswer c a q.type 0 []
  | a => s.setTu p (t.mboxAnswer c a q.type 0 [])

/-! ### At Fyster -/

/-- The head message of a channel is being served: a relay or a row waits on its behalf. -/
def Fyster.mboxServing (f : Fyster) (c : Nat) : Bool :=
  f.waits.any fun w =>
    match w with
    | .mailbox ch _ _ _ => ch == c
    | _ => false

/-- A dictionary message at the head of channel `c` of Fyster that is not being served. -/
def Fyster.mboxReq (f : Fyster) (c code : Nat) : Option MboxReq := if f.mboxServing c then none else (f.chan c).dictReq code

/-- A dictionary message on Fyster: its code before its object is looked at, the node's included (R342). -/
def Fyster.mboxCode (f : Fyster) (q : MboxReq) : Nat :=
  let a := q.code false (f.part.mboxLevel true q.stamp) false
  let n := f.nodeCode q.node
  lowestAbort [(a != 0, a), (n != 0, n)]

/-- The level of a message's sender as R343 counts levels. -/
def Fyster.mboxLevel (f : Fyster) (q : MboxReq) : Nat := f.part.mboxLevel true q.stamp - 1

/-- DICT_READ of an object of Fyster. -/
def Fyster.mboxReadOwn (f : Fyster) (c : Nat) (q : MboxReq) : Fyster :=
  let v := f.readObj q.index q.sub
  if v.1 ≠ 0 then f.mboxAnswer c v.1 q.type 0 []
  else if v.2.1 ≠ 12 then f.mboxAnswer c 0 v.2.1 v.2.2.length (v.2.2.take 48)
  else if q.ofs = 0 then
    let k : Copy := { node := 0, index := q.index, sub := q.sub, bytes := v.2.2 }
    (f.putChan c { f.chan c with copy := some k }).mboxCopyAnswer c 0
  else if (f.chan c).copyOf q then f.mboxCopyAnswer c q.ofs
  else f.mboxAnswer c 0x27 q.type 0 []

/-- DICT_READ of an object of a TU: a DOMAIN value by a copy, any other by one relayed read (R354, R358). -/
def Fyster.mboxReadTu (f : Fyster) (c : Nat) (q : MboxReq) : Fyster :=
  let p := q.node - 1
  let domain := match objFind 2 q.index q.sub with
    | some r => r.type == 12
    | none => false
  if !domain then f.relay p (.mailbox c 0 0 0) (dictReadMsg (f.mboxLevel q) q.index q.sub q.type)
  else if q.ofs ≠ 0 then
    if (f.chan c).copyOf q then f.mboxCopyAnswer c q.ofs else f.mboxAnswer c 0x27 q.type 0 []
  else if f.domainBusy p then f.mboxAnswer c 0x30 q.type 0 []
  else f.relay p (.mailbox c 0 0 0) (copyMsg (f.mboxLevel q) q.index q.sub)

/-- DICT_READ at Fyster. -/
def Fyster.mboxRead (f : Fyster) (c : Nat) (q : MboxReq) : Fyster :=
  match f.mboxCode q with
  | 0 => if q.node = 0 then f.mboxReadOwn c q else f.mboxReadTu c q
  | a => f.mboxAnswer c a q.type 0 []

/-- DICT_WRITE at Fyster. -/
def State.mboxWriteFy (s : State) (f : Fyster) (c : Nat) (q : MboxReq) : State :=
  let level := f.mboxLevel q
  match f.mboxCode q with
  | 0 =>
    if q.node ≠ 0 then
      { s with fy := f.relay (q.node - 1) (.mailbox c 0 0 0) (dictWriteMsg level q.index q.sub q.type q.data) }
    else if typeBad 1 q.index q.sub q.type then
      { s with fy := f.mboxAnswer c (typeCode 1 level q.index q.sub q.data) q.type 0 [] }
    else s.writeFy f 0 level q.index q.sub q.data (some (.mailbox c 0 0 0)) fun f a => f.mboxAnswer c a q.type 0 []
  | a => { s with fy := f.mboxAnswer c a q.type 0 [] }

/-- DICT_SEGMENT at Fyster: the value for a TU is gathered here as well. -/
def Fyster.mboxSegment (f : Fyster) (c : Nat) (q : MboxReq) : Fyster :=
  match f.mboxCode q with
  | 0 =>
    (match segmentCode (if q.node = 0 then 1 else 2) q.index q.sub q.ofs q.data.length with
     | 0 => (f.putChan c ((f.chan c).place q)).mboxAnswer c 0 q.type 0 []
     | a => (f.putChan c { f.chan c with gather := none }).mboxAnswer c a q.type 0 [])
  | a => f.mboxAnswer c a q.type 0 []

/-- DICT_COMMIT at Fyster. -/
def State.mboxCommitFy (s : State) (f : Fyster) (c : Nat) (q : MboxReq) : State :=
  let level := f.mboxLevel q
  let x := f.chan c
  let p := q.node - 1
  let own := q.commitCode x
  let v := memRead ((x.gathered q).getD []) 0 (min q.total 65536)
  match lowestAbort [(f.mboxCode q != 0, f.mboxCode q), (own != 0, own), (q.node != 0 && f.domainBusy p, 0x30)] with
  | 0 =>
    if q.node ≠ 0 then { s with fy := f.relay p (.mailbox c 512 q.total 0) (partMsg level q.index q.sub 0 v) }
    else
      s.writeFy (f.putChan c { x with gather := none }) 0 level q.index q.sub v (some (.mailbox c 0 0 0)) fun f a =>
        f.mboxAnswer c a q.type 0 []
  | a => { s with fy := f.mboxAnswer c a q.type 0 [] }

/-! ### Commands -/

/-- DICT_READ. -/
def execDictRead (dt : Nat) (n : Node) (ch : Fin 64) (s : State) : Host.Outcome State Fault Refusal :=
  .next (onNode n dt
    (fun p t =>
      match (t.chan ch.val).dictReq 0x60 with
      | some q => t.mboxRead p ch.val q
      | none => t)
    (fun f =>
      match f.mboxReq ch.val 0x60 with
      | some q => f.mboxRead ch.val q
      | none => f) s)

/-- DICT_WRITE. -/
def execDictWrite (dt : Nat) (n : Node) (ch : Fin 64) (s : State) : Host.Outcome State Fault Refusal :=
  .next (match n with
    | .fyster =>
      let f := s.fy.tick dt
      (match f.mboxReq ch.val 0x61 with
       | some q => s.mboxWriteFy f ch.val q
       | none => { s with fy := f })
    | .tu p =>
      let t := (s.tu p).tick dt
      (match (t.chan ch.val).dictReq 0x61 with
       | some q => s.mboxWriteTu p t ch.val q
       | none => s.setTu p t))

/-- DICT_SEGMENT. -/
def execDictSegment (dt : Nat) (n : Node) (ch : Fin 64) (s : State) : Host.Outcome State Fault Refusal :=
  .next (onNode n dt
    (fun _ t =>
      match (t.chan ch.val).dictReq 0x62 with
      | some q => t.mboxSegment ch.val q
      | none => t)
    (fun f =>
      match f.mboxReq ch.val 0x62 with
      | some q => f.mboxSegment ch.val q
      | none => f) s)

/-- DICT_COMMIT. -/
def execDictCommit (dt : Nat) (n : Node) (ch : Fin 64) (s : State) : Host.Outcome State Fault Refusal :=
  .next (match n with
    | .fyster =>
      let f := s.fy.tick dt
      (match f.mboxReq ch.val 0x63 with
       | some q => s.mboxCommitFy f ch.val q
       | none => { s with fy := f })
    | .tu p =>
      let t := (s.tu p).tick dt
      (match (t.chan ch.val).dictReq 0x63 with
       | some q => s.mboxCommitTu p t ch.val q
       | none => s.setTu p t))

/-- R373: a code that is no dictionary message. -/
def otherCode (code : Nat) : Bool := decide (code < 0x60) || decide (0x63 < code)

/-- R373 at a TU: the head message is answered MALFORMED. -/
def Tu.mboxReserved (t : Tu) (c : Nat) : Tu :=
  match (t.chan c).headIn with
  | some m => if otherCode (fieldAt m.body 0 1) then t.ack c 1 [] else t
  | none => t

/-- R373 at Fyster: a message with a code from 0x80 on goes to firmware, which acknowledges it. -/
def Fyster.mboxReserved (f : Fyster) (c : Nat) : Fyster :=
  match (f.chan c).headIn with
  | some m =>
    let code := fieldAt m.body 0 1
    if 0x80 ≤ code then f.emit (.firmware c m.body) else if otherCode code then f.ack c 1 [] else f
  | none => f

/-- MBOX_RESERVED_CODE (R373). -/
def execMboxReservedCode (dt : Nat) (n : Node) (ch : Fin 64) (s : State) : Host.Outcome State Fault Refusal :=
  .next (onNode n dt (fun _ t => t.mboxReserved ch.val) (fun f => f.mboxReserved ch.val) s)

end Sys2Proof.Machine
end

