-- ==== Sys2Proof/Machine/Ingest.lean ====
section
/-! DEFINITION. Frames as a link end receives them (R70, R71, R75), the records in them (R80, R81, R84, R445), the ring entry that
Fyster writes (R217, R220), and what Fyster's live consumers do with a record (R8). -/

namespace Sys2Proof.Machine

/-! ### Payloads (R445) -/

/-- LEN of TR_VERDICT by KIND (R167, R168, R183, R184, R186). -/
def verdictLen (kind : Nat) : Nat :=
  match kind with
  | 1 => 16 | 2 => 24 | 3 => 8 | 4 => 14 | 5 => 18
  | _ => 0

/-- TR_PHASE: KIND, NPH and the LEN that they give (R126); the entries of DESC_END are read by no consumer. -/
def phasePayOk (r : Rec) : Bool :=
  match r.fld 192 4 with
  | 1 => decide (r.fld 208 5 ≤ 16) && r.len == 8 + 3 * r.fld 208 5
  | 2 => r.len == 8
  | 3 => r.len == 8
  | 4 => true
  | _ => false

/-- TR_EVENT: EKIND, NREC and LEN (R379). -/
def eventPayOk (r : Rec) : Bool :=
  let kind := r.fld 192 8
  let n := r.fld 200 8
  r.len == 4 + 4 * n && ((kind == 1 || kind == 2) && n == 1 || kind == 3 && decide (1 ≤ n) && decide (n ≤ 62))

/-- TR_DICT: DKIND, LEVEL and the LEN that VLEN gives (R447). -/
def dictPayOk (r : Rec) (answer : Bool) : Bool :=
  let m := dictMsg r
  decide (1 ≤ m.dkind) && decide (m.dkind ≤ 6) && m.answer == answer && decide (m.level ≤ 2) &&
    r.len == 8 + ceilDiv (r.fld 272 16) 8

/-- TR_CUT: KIND, and LEN 8 of a control kind (R236); no consumer reads the contents. -/
def cutPayOk (r : Rec) : Bool :=
  let kind := r.fld 192 8
  decide (1 ≤ kind) && decide (kind ≤ 6) && r.len == 8 || decide (0x10 ≤ kind) && decide (kind ≤ 0x15)

/-- R445: the payload of a record that its receiver acts on passes its chapter's check. `fromTu`: Fyster is the receiver. -/
def payloadOk (r : Rec) (fromTu : Bool) : Bool :=
  match r.type with
  | 0x03 => phasePayOk r
  | 0x07 => r.len == verdictLen (r.fld 192 8)
  | 0x08 => decide (1 ≤ r.fld 192 8) && decide (r.fld 192 8 ≤ 5)
  | 0x0A => eventPayOk r
  | 0x0C => decide (1 ≤ r.fld 192 8) && decide (r.fld 192 8 ≤ 9)
  | 0x0D => cutPayOk r
  | 0x12 => decide (1 ≤ r.fld 192 8) && decide (r.fld 192 8 ≤ 12)
  | 0x14 => dictPayOk r fromTu
  | _ => true

/-! ### TR_VIOLATION (R85, R86) -/

/-- The payload of TR_VIOLATION. -/
def violPay (vcode port supp fseq ofs header total : Nat) : List Word :=
  payload 5 [(vcode, 8), (port, 8), (min supp 65535, 16), (fseq, 16), (ofs, 16), (header, 192), (total, 64)]

/-- R85: one more violation of the partner: the link after it, and whether it is reported now (none in the last 10 µs). -/
def Link.violation (l : Link) (now : Nat) : Link × Bool :=
  let l := { l with violTotal := l.violTotal + 1 }
  let recent := match l.violAt with
    | some t => decide (now < t + 10000)
    | none => false
  if recent then ({ l with violSupp := l.violSupp + 1 }, false) else ({ l with violSupp := 0, violAt := some now }, true)

/-- A TU answers a malformed record or frame. -/
def Tu.violate (t : Tu) (vcode fseq ofs header : Nat) : Tu :=
  let supp := t.link.violSupp
  let x := t.link.violation t.ns
  let t := { t with link := x.1 }
  if x.2 then t.sendFree (t.mkRec 0x12 selfStream 224 0xFF t.ns (violPay vcode 0xFF supp fseq ofs header x.1.violTotal)) else t

/-- Fyster answers a malformed record or frame of the TU on port `p`, and writes the answer into the die's partition. -/
def Fyster.violate (f : Fyster) (p vcode fseq ofs header : Nat) : Fyster :=
  let supp := (f.link p).violSupp
  let x := (f.link p).violation f.ns
  let f := (f.setLink p x.1).bump (0x1140 + p) 9 1
  if x.2 then
    let s := f.stamp (f.mkRec 0x12 selfStream 514 0xFF f.ns (violPay vcode p supp fseq ofs header x.1.violTotal))
    (s.1.writeRecords p 0 0 0xFF false [s.2]).sendStamped p s.2
  else f

/-- R380: COUNTED for a count that Fyster keeps in an accumulator. -/
def Fyster.logCount (f : Fyster) (p sub cause : Nat) : Fyster :=
  f.log (event 0x0F00 514 ((0x1140 + p) * 65536 + sub * 256) (f.part.lostAt p cause % 2 ^ 32))

/-! ### A record at Fyster -/

/-- R84: a malformed record: counted, logged and answered; a malformed TR_VIOLATION is not answered. -/
def Fyster.malformed (f : Fyster) (p vcode fseq ofs header bytes : Nat) : Fyster :=
  let f := { f with part := f.part.lose p 7 1 bytes none f.ts }
  let f := f.logCount p 8 7
  if bitsOf header 0 8 = 0x12 then f else f.violate p vcode fseq ofs header

/-- R81: a byte-parity error hits a record between decoder and ring. -/
def Fyster.parityDrop (f : Fyster) (p : Nat) (r : Rec) : Fyster :=
  ({ f with part := f.part.lose p 3 1 r.bytes (some r.stream) f.ts }).logCount p 7 3

/-- R80: how a record's ALIVE value stands to the last of its stream: repeated, or how many were lost before it. -/
inductive Alive where
  | repeated
  | after (lost : Nat)
deriving DecidableEq, Repr

/-- R80. -/
def aliveCheck (last : Option Expect) (r : Rec) : Alive :=
  match last with
  | none => .after 0
  | some e =>
    let d := (r.alive + 511 - e.alive) % 256
    if d < 255 then .after d else if r.ts64 ≤ e.ts64 then .repeated else .after 256

/-- The key of a stream of a port. -/
def expectKey (p stream : Nat) : Nat := p * 65536 + stream

/-- R80: the TR_LOSS that Fyster writes before an accepted record; its interval ends here (R82). -/
def Fyster.transportLoss (f : Fyster) (p n stream : Nat) : Fyster × Rec :=
  let f := { f with part := f.part.lose p 5 n 0 (some stream) f.ts }
  let a := f.part.acc p 5
  let x := f.stamp (f.lossRec p 5)
  ({ x.1 with part := x.1.part.setAcc p 5 { a.restart f.ns with fresh := a.fresh } }.observe p x.2, x.2)

/-- Records of a frame that enter the ring, each with its words as received. -/
abbrev RingRecs := List (Rec × List Word)

/-- R80: a well-formed record meets the alive check: what enters the ring. -/
def Fyster.aliveTake (f : Fyster) (p : Nat) (r : Rec) (raw : List Word) : Fyster × RingRecs :=
  match aliveCheck (tfind f.expect (expectKey p r.stream)) r with
  | .repeated => ({ f with part := f.part.lose p 6 1 r.bytes (some r.stream) f.ts }, [])
  | .after n =>
    let f := { f with expect := tset f.expect (expectKey p r.stream) { alive := r.alive, ts64 := r.ts64 } }
    if n = 0 then (f, [(r, raw)])
    else
      let x := f.transportLoss p n r.stream
      (x.1, [(x.2, x.2.words), (r, raw)])

/-- R84: the records of an accepted frame, from word `at'` of its payload, record `i` on. -/
def Fyster.takeRecords (p fseq : Nat) (hits : List Nat) : Nat → Fyster → Nat → Nat → List Word → Fyster × RingRecs
  | 0, f, _, _, _ => (f, [])
  | n + 1, f, at', i, ws =>
    if ws.isEmpty then (f, [])
    else
      let h := wordsNat (ws.take 3)
      let len := bitsOf h 8 8
      let fault := headerFault h ws.length (f.partDie p) tuMaySend
      if fault = 1 ∨ fault = 2 then (f.malformed p fault fseq (8 * at') h (8 * ws.length), [])
      else
        let r := recOf h ((ws.take len).drop 3)
        let x : Fyster × RingRecs :=
          if fault ≠ 0 then (f.malformed p fault fseq (8 * at') h (8 * len), [])
          else if hits.contains i then (f.parityDrop p r, [])
          else f.aliveTake p r (ws.take len)
        let y := takeRecords p fseq hits n x.1 (at' + len) (i + 1) (ws.drop len)
        (y.1, x.2 ++ y.2)

/-! ### Live consumers (R8) -/

/-- R383: a FLUSH part is copied into the port image, unless the recorder is frozen. -/
def Fyster.flushIn (f : Fyster) (p : Nat) (r : Rec) : Fyster :=
  if f.evrFrozen then f
  else
    let rs := (List.range (r.fld 200 8)).map fun i => evRecOf (r.fld (256 + 256 * i) 256)
    let serial := r.fld 224 32
    let fresh : PortImage := { serial := serial, at64 := r.ts64, parts := [] }
    let x := match tfind f.images p with
      | some x => if x.serial = serial ∧ x.at64 = r.ts64 then x else fresh
      | none => fresh
    { f with images := tset f.images p { x with parts := tset x.parts (r.fld 208 8) rs } }

/-- A TU's event: a zoom state (R327), a spare swap or a worn unit (R335), a part of a flush. -/
def Fyster.eventRx (f : Fyster) (p : Nat) (r : Rec) : Fyster :=
  let e := evRecOf (r.fld 256 256)
  if r.fld 192 8 = 3 then f.flushIn p r
  else if e.code = 0x0020 then f.zoomState p r.gslot e.param (e.arg % 2 ^ 31) (bitOf e.arg 31)
  else if r.fld 192 8 = 1 ∧ e.code = 0x0010 then f.wearNotice (f.dieOf p) e.arg e.param (fullNs f.ns e.last) false
  else if r.fld 192 8 = 1 ∧ e.code = 0x0011 then f.wearNotice (f.dieOf p) e.param 0 (fullNs f.ns e.last) true
  else f

/-- R235: after DONE, firmware reads the TU's snapshot digest. -/
def Fyster.askDigest (f : Fyster) (p : Nat) (cut : Nat) : Fyster :=
  if f.boot.running = true ∧ f.nodeCode (p + 1) = 0 ∧ (f.cutSlot cut).isSome = true then
    f.relay p (.digest cut) (dictReadMsg 0 0x2810 2 4)
  else f

/-- TR_CUT of a TU at the cut logic (R232, R242). -/
def Fyster.cutRx (f : Fyster) (p : Nat) (r : Rec) : Fyster :=
  match r.fld 192 8 with
  | 2 => f.cutAckRx p r
  | 4 => (f.cutDoneRx p r).askDigest p (r.fld 224 32)
  | _ => f

/-- TR_VERDICT at the contexts, the signatures and the shadow pairs. -/
def Fyster.verdictRx (f : Fyster) (p : Nat) (r : Rec) : Fyster :=
  match r.fld 192 8 with
  | 2 => f.observe p r
  | 3 => f.signatureRx p r
  | 4 => f.signatureRx p r
  | _ => f.shadowRx p r

/-- R8: a record goes to its live consumers; TR_DICT is taken by a command of its own. -/
def Fyster.consume (f : Fyster) (p : Nat) (r : Rec) : Fyster :=
  match r.type with
  | 0x01 => f.observe p r
  | 0x03 => f.observe p r
  | 0x04 => f.observe p r
  | 0x07 => f.verdictRx p r
  | 0x08 => (f.shadowRx p r).taintRx p r
  | 0x0A => f.eventRx p r
  | 0x0C => f.observe p r
  | 0x0D => f.cutRx p r
  | 0x12 => f.counted 514 (0x1140 + p) 0xF0 1
  | _ => f

/-- R445: a record that its consumer cannot read is counted and logged instead. -/
def Fyster.consumeOrSkip (f : Fyster) (p : Nat) (r : Rec) : Fyster :=
  if payloadOk r true then f.consume p r
  else if r.type = 0x03 ∨ r.type = 0x0C then f.counted 515 0x3000 5 1
  else f.counted 514 0x1160 2 1

/-! ### The ring entry of a frame (R217, R220) -/

/-- The record as it enters the ring: Fyster adds CFLAGS to a TU's DONE (R242). -/
def Fyster.ringWords (f : Fyster) (x : Rec × List Word) : List Word :=
  if x.1.type = 0x0D ∧ x.1.fld 192 8 = 4 then x.2.take 3 ++ (f.cutDoneFlags x.1).pay else x.2

/-- A RECORDS entry. -/
def Fyster.writeKept (f : Fyster) (p : Nat) (m : FrameHead) (l : RingRecs) : Fyster :=
  if l.isEmpty then f
  else
    f.writeEntry p
      { sumac := false, first := false, last := false, trunc := false, orphan := false, cls := m.cls, fseq := m.fseq, src := p,
        body := l.flatMap f.ringWords }
      { stamps := l.map (·.1.ts64), hasLoss := l.any fun x => x.1.type == 0x0C && bitOf x.1.die 31
        uncert := l.any fun x => x.1.hasFlag 1 }

/-- R220: a fragment of `n` bytes at a partition whose open block holds `open_` bytes: TRUNC, ORPHAN, and the open block after it. -/
def sumacOpen (open_ : Option Nat) (first last : Bool) (n : Nat) : Bool × Bool × Option Nat :=
  match open_ with
  | none => (false, !first, if first && !last then some n else none)
  | some k =>
    if first then (true, false, if last then none else some n)
    else if 65536 < k then (true, false, none)
    else (false, false, if last then none else some (k + n))

/-- A SUMAC entry. -/
def Fyster.writeFragment (f : Fyster) (p : Nat) (m : FrameHead) (ws : List Word) : Fyster :=
  let x := sumacOpen (f.partition p).block m.first m.last (8 * ws.length)
  let f := f.writeEntry p
    { sumac := true, first := m.first, last := m.last, trunc := x.1, orphan := x.2.1, cls := m.cls, fseq := m.fseq, src := p, body := ws }
    { stamps := [f.ts], hasLoss := false, uncert := false }
  let f := { f with ring := tset f.ring p { f.partition p with block := x.2.2 } }
  if x.1 || x.2.1 then f.bump 0x6800 4 1 else f

/-! ### Frames at Fyster -/

/-- An accepted frame (R75, R217): its payload, or the answer to its fault. -/
def Fyster.acceptFrame (f : Fyster) (p : Nat) (m : FrameHead) (x : RawFrame) : Fyster :=
  let fault := frameFault m true
  if fault ≠ 0 then
    let f := f.violate p fault m.fseq 0xFFFF x.header.toNat
    f.log (event 0x0F00 514 ((0x1140 + p) * 65536 + 9 * 256) (f.rd (0x1140 + p) 9 % 2 ^ 32))
  else if m.kind = 1 then f.writeFragment p m x.payload
  else
    let y := Fyster.takeRecords p m.fseq x.parityHit 512 f 0 0 x.payload
    y.2.foldl (fun f r => if bitOf r.1.die 31 then f else f.consumeOrSkip p r.1) (y.1.writeKept p m y.2)

/-- A frame whose trailer agrees with its header and payload. -/
def frameSound (x : RawFrame) : Bool :=
  !x.fecError && x.crc.toNat == frameCrc x.header x.payload && (frameHead x.header).plen == 8 * x.payload.length

/-- R70, R72: the report that rides in a header. -/
def Fyster.takeReport (f : Fyster) (p : Port) (m : FrameHead) : Fyster :=
  if !m.ackValid then f
  else
    let f := f.takeAck p m.ack
    if m.nak && !(f.link p.val).replay.isEmpty then f.replay p else f

/-- R71: a frame with a bad CRC. -/
def Fyster.badFrame (f : Fyster) (p : Nat) (fec : Bool) : Fyster :=
  let f := (f.setLink p (f.link p).nak).bump (0x1140 + p) 2 1
  if fec then f.bump (0x1180 + p) 6 1 else f

/-- R70, R71: a data frame at Fyster. -/
def Fyster.frameRx (f : Fyster) (p : Port) (x : RawFrame) : Fyster :=
  let m := frameHead x.header
  if (f.link p.val).st ≠ .up then f
  else if !frameSound x then f.badFrame p.val x.fecError
  else if m.kind = 2 then f
  else
    let f := f.takeReport p m
    let l := f.link p.val
    match l.arrival m.fseq with
    | .inOrder => ((f.setLink p.val (l.accept f.part.time.now)).bump (0x1140 + p.val) 1 1).acceptFrame p.val m x
    | .ahead => f.setLink p.val l.nak
    | .duplicate => (f.setLink p.val { l with ackDue := true }).bump (0x1140 + p.val) 3 1
    | .outOfWindow => (f.setLink p.val l.nakAgain).counted 514 (0x1140 + p.val) 3 1

/-- R71: a CONTROL frame at Fyster. -/
def Fyster.controlRx (f : Fyster) (p : Port) (x : RawFrame) : Fyster :=
  let m := frameHead x.header
  if (f.link p.val).st ≠ .up then f
  else if !frameSound x then f.badFrame p.val x.fecError
  else if m.kind ≠ 2 then f
  else
    let f := if m.plen = 0 then f else f.violate p.val 0x0B m.fseq 0xFFFF x.header.toNat
    let f := f.takeReport p m
    let l := f.link p.val
    if 0 < seqDiff m.fseq l.rxFseq then f.setLink p.val l.nakAgain else f

/-! ### Frames at a TU -/

/-- The DIE value of the Fyster of a TU (R1, R62). -/
def Tu.fyDie (t : Tu) : Nat := 2 ^ 31 + t.die / 32

/-- R84: a malformed record from Fyster. -/
def Tu.malformed (t : Tu) (vcode fseq ofs header : Nat) : Tu :=
  let t := t.counted 0x2110 0x0C 1
  if bitsOf header 0 8 = 0x12 then t else t.violate vcode fseq ofs header

/-- R81: a byte-parity error hits a record from Fyster. -/
def Tu.parityDrop (t : Tu) (r : Rec) : Tu :=
  let t := { t with part := t.part.lose 5 3 1 r.bytes (some r.stream) t.ts }
  t.log (event 0x0F00 224 (0x2110 * 65536 + 0x0A * 256) (t.part.lostBy 3 % 2 ^ 32))

/-- A record from Fyster: TR_VIOLATION is counted and logged (R85), one that cannot be read is counted (R445); the others that a TU
acts on are taken by commands of their own. -/
def Tu.consume (t : Tu) (r : Rec) : Tu :=
  if !payloadOk r false then t.counted 0x2110 0x0C 1 else if r.type = 0x12 then t.counted 0x2110 0x0E 1 else t

/-- R84: the records of an accepted frame. -/
def Tu.takeRecords (fseq : Nat) (hits : List Nat) : Nat → Tu → Nat → Nat → List Word → Tu
  | 0, t, _, _, _ => t
  | n + 1, t, at', i, ws =>
    if ws.isEmpty then t
    else
      let h := wordsNat (ws.take 3)
      let len := bitsOf h 8 8
      let fault := headerFault h ws.length t.fyDie fyMaySend
      if fault = 1 ∨ fault = 2 then t.malformed fault fseq (8 * at') h
      else
        let r := recOf h ((ws.take len).drop 3)
        let t := if fault ≠ 0 then t.malformed fault fseq (8 * at') h else if hits.contains i then t.parityDrop r else t.consume r
        takeRecords fseq hits n t (at' + len) (i + 1) (ws.drop len)

/-- An accepted frame at a TU. -/
def Tu.acceptFrame (t : Tu) (m : FrameHead) (x : RawFrame) : Tu :=
  let fault := frameFault m false
  if fault ≠ 0 then (t.violate fault m.fseq 0xFFFF x.header.toNat).counted 0x2110 0xF0 1
  else Tu.takeRecords m.fseq x.parityHit 512 t 0 0 x.payload

/-- R70, R72: the report that rides in a header. -/
def Tu.takeReport (t : Tu) (p : Port) (m : FrameHead) : Tu :=
  if !m.ackValid then t
  else
    let t := t.takeAck m.ack
    if m.nak && !t.link.replay.isEmpty then t.replay p else t

/-- R71: a frame with a bad CRC. -/
def Tu.badFrame (t : Tu) (fec : Bool) : Tu :=
  let t := ({ t with link := t.link.nak }).bump 0x2110 0x11 1
  if fec then t.bump 0x2F00 6 1 else t

/-- R440: the receive CRC unit takes in what it checks. -/
def Tu.rxCrc (t : Tu) (x : RawFrame) : Tu := { t with part := t.part.crcTake 2 (wordBytes x.header ++ wordsBytes x.payload) }

/-- R70, R71: a data frame at a TU. -/
def Tu.frameRx (t : Tu) (p : Port) (x : RawFrame) : Tu :=
  let m := frameHead x.header
  if t.link.st ≠ .up then t
  else
    let t := t.rxCrc x
    if !frameSound x then t.badFrame x.fecError
    else if m.kind = 2 then t
    else
      let t := t.takeReport p m
      match t.link.arrival m.fseq with
      | .inOrder => ({ t with link := t.link.accept t.part.time.now }).acceptFrame m x
      | .ahead => { t with link := t.link.nak }
      | .duplicate => ({ t with link := { t.link with ackDue := true } }).bump 0x2110 0xF1 1
      | .outOfWindow => ({ t with link := t.link.nakAgain }).counted 0x2110 0xF1 1

/-- R71: a CONTROL frame at a TU. -/
def Tu.controlRx (t : Tu) (p : Port) (x : RawFrame) : Tu :=
  let m := frameHead x.header
  if t.link.st ≠ .up then t
  else
    let t := t.rxCrc x
    if !frameSound x then t.badFrame x.fecError
    else if m.kind ≠ 2 then t
    else
      let t := if m.plen = 0 then t else t.violate 0x0B m.fseq 0xFFFF x.header.toNat
      let t := t.takeReport p m
      if 0 < seqDiff m.fseq t.link.rxFseq then { t with link := t.link.nakAgain } else t

/-! ### Commands -/

/-- FRAME_RX. -/
def execFrameRx (dt : Nat) (e : End) (x : RawFrame) (s : State) : Host.Outcome State Fault Refusal :=
  .next (onEnd e dt (fun p t => t.frameRx p x) (fun p f => f.frameRx p x) s)

/-- CONTROL_FRAME_RX. -/
def execControlFrameRx (dt : Nat) (e : End) (x : RawFrame) (s : State) : Host.Outcome State Fault Refusal :=
  .next (onEnd e dt (fun p t => t.controlRx p x) (fun p f => f.controlRx p x) s)

end Sys2Proof.Machine
end

