-- ==== Sys2Proof/Machine/Dispatch.lean ====
section
/-! DEFINITION. The command dispatch: one arm per constructor of `Instr`. -/

namespace Sys2Proof.Machine

def exec (i : Instr) (s : State) : Host.Outcome State Fault Refusal :=
  match i with
  | .treqSend dt p => Sys2Proof.Machine.execTreqSend dt p s
  | .tosTreqRx dt p tos => Sys2Proof.Machine.execTosTreqRx dt p tos s
  | .tosTrspRx dt p tos => Sys2Proof.Machine.execTosTrspRx dt p tos s
  | .trspTimeout dt p => Sys2Proof.Machine.execTrspTimeout dt p s
  | .ptpMessageRx dt q m => Sys2Proof.Machine.execPtpMessageRx dt q m s
  | .announceTimeout dt q => Sys2Proof.Machine.execAnnounceTimeout dt q s
  | .ptpEventTx dt q txid mtype seq => Sys2Proof.Machine.execPtpEventTx dt q txid mtype seq s
  | .txqRead dt q => Sys2Proof.Machine.execTxqRead dt q s
  | .stepAuthorise dt lvl serial => Sys2Proof.Machine.execStepAuthorise dt lvl serial s
  | .tuStepAuthorise dt p lvl serial => Sys2Proof.Machine.execTuStepAuthorise dt p lvl serial s
  | .timeSecondTick dt n => Sys2Proof.Machine.execTimeSecondTick dt n s
  | .ts64Rollover dt n => Sys2Proof.Machine.execTs64Rollover dt n s
  | .gridInstant dt p g => Sys2Proof.Machine.execGridInstant dt p g s
  | .setGridInstant dt p set swapAfter => Sys2Proof.Machine.execSetGridInstant dt p set swapAfter s
  | .gridChange dt n g => Sys2Proof.Machine.execGridChange dt n g s
  | .tosWmkRx dt p tos => Sys2Proof.Machine.execTosWmkRx dt p tos s
  | .tosWmkdRx dt p tos => Sys2Proof.Machine.execTosWmkdRx dt p tos s
  | .tosStatusRx dt e tos => Sys2Proof.Machine.execTosStatusRx dt e tos s
  | .statusSendTimer dt e => Sys2Proof.Machine.execStatusSendTimer dt e s
  | .frameRx dt e f => Sys2Proof.Machine.execFrameRx dt e f s
  | .controlFrameRx dt e f => Sys2Proof.Machine.execControlFrameRx dt e f s
  | .ackControlSend dt e => Sys2Proof.Machine.execAckControlSend dt e s
  | .replayTimeout dt e => Sys2Proof.Machine.execReplayTimeout dt e s
  | .lossReport dt n cause acc => Sys2Proof.Machine.execLossReport dt n cause acc s
  | .crcEnable dt n lvl u v => Sys2Proof.Machine.execCrcEnable dt n lvl u v s
  | .crcPause dt n lvl u v => Sys2Proof.Machine.execCrcPause dt n lvl u v s
  | .crcPaused dt n u => Sys2Proof.Machine.execCrcPaused dt n u s
  | .crcInit dt n lvl u => Sys2Proof.Machine.execCrcInit dt n lvl u s
  | .crcValueWrite dt n lvl u isLength v => Sys2Proof.Machine.execCrcValueWrite dt n lvl u isLength v s
  | .tapIncBeat dt p tap b => Sys2Proof.Machine.execTapIncBeat dt p tap b s
  | .cntSelWrite dt p lvl c v => Sys2Proof.Machine.execCntSelWrite dt p lvl c v s
  | .counterReset dt p lvl c v => Sys2Proof.Machine.execCounterReset dt p lvl c v s
  | .cntResetAll dt p lvl v => Sys2Proof.Machine.execCntResetAll dt p lvl v s
  | .setCtrlWrite dt p lvl set v => Sys2Proof.Machine.execSetCtrlWrite dt p lvl set v s
  | .setListWrite dt p lvl set v => Sys2Proof.Machine.execSetListWrite dt p lvl set v s
  | .setGridWrite dt p lvl set isPhase v => Sys2Proof.Machine.execSetGridWrite dt p lvl set isPhase v s
  | .zoomPinWrite dt p lvl set isPeriod v => Sys2Proof.Machine.execZoomPinWrite dt p lvl set isPeriod v s
  | .spareSwap dt n unit => Sys2Proof.Machine.execSpareSwap dt n unit s
  | .wearReading dt n r => Sys2Proof.Machine.execWearReading dt n r s
  | .cpLaunchStart dt p graph ver launch persistent => Sys2Proof.Machine.execCpLaunchStart dt p graph ver launch persistent s
  | .cpLaunchEnd dt p launch => Sys2Proof.Machine.execCpLaunchEnd dt p launch s
  | .cpOpen dt p o => Sys2Proof.Machine.execCpOpen dt p o s
  | .cpBegin dt p launch tag code => Sys2Proof.Machine.execCpBegin dt p launch tag code s
  | .cpEnd dt p launch tag code => Sys2Proof.Machine.execCpEnd dt p launch tag code s
  | .cpClose dt p launch tag => Sys2Proof.Machine.execCpClose dt p launch tag s
  | .cpDispatch dt p d => Sys2Proof.Machine.execCpDispatch dt p d s
  | .longPhaseCrossing dt p slot => Sys2Proof.Machine.execLongPhaseCrossing dt p slot s
  | .phaseEnableWrite dt p lvl v => Sys2Proof.Machine.execPhaseEnableWrite dt p lvl v s
  | .nameTableLoad dt p lvl v => Sys2Proof.Machine.execNameTableLoad dt p lvl v s
  | .traceCondBeat dt p src b => Sys2Proof.Machine.execTraceCondBeat dt p src b s
  | .traceIndirectBeat dt p src b => Sys2Proof.Machine.execTraceIndirectBeat dt p src b s
  | .traceProgressBeat dt p src b => Sys2Proof.Machine.execTraceProgressBeat dt p src b s
  | .tracePwrNotice dt p src b => Sys2Proof.Machine.execTracePwrNotice dt p src b s
  | .traceWake dt p src b => Sys2Proof.Machine.execTraceWake dt p src b s
  | .dpcDownRise dt p bit => Sys2Proof.Machine.execDpcDownRise dt p bit s
  | .dpcDownFall dt p bit => Sys2Proof.Machine.execDpcDownFall dt p bit s
  | .traceFlushTimer dt p src => Sys2Proof.Machine.execTraceFlushTimer dt p src s
  | .traceModeWrite dt p lvl src v => Sys2Proof.Machine.execTraceModeWrite dt p lvl src v s
  | .traceTsIntervalWrite dt p lvl src v => Sys2Proof.Machine.execTraceTsIntervalWrite dt p lvl src v s
  | .windowWrite dt p lvl isSize v => Sys2Proof.Machine.execWindowWrite dt p lvl isSize v s
  | .nocMResponse dt p error => Sys2Proof.Machine.execNocMResponse dt p error s
  | .nocResponseTimeout dt p => Sys2Proof.Machine.execNocResponseTimeout dt p s
  | .ringEventBeat dt p ring b => Sys2Proof.Machine.execRingEventBeat dt p ring b s
  | .ringTick dt p ring => Sys2Proof.Machine.execRingTick dt p ring s
  | .dieWdtRise dt p => Sys2Proof.Machine.execDieWdtRise dt p s
  | .progressTimeout dt p => Sys2Proof.Machine.execProgressTimeout dt p s
  | .freeze dt p lvl v => Sys2Proof.Machine.execFreeze dt p lvl v s
  | .resume dt p lvl v => Sys2Proof.Machine.execResume dt p lvl v s
  | .ringReadoutPeriod dt p => Sys2Proof.Machine.execRingReadoutPeriod dt p s
  | .checkRecord dt p tile c => Sys2Proof.Machine.execCheckRecord dt p tile c s
  | .maceVerdict dt p lane sig => Sys2Proof.Machine.execMaceVerdict dt p lane sig s
  | .maceLaneSelftest dt p lane pass => Sys2Proof.Machine.execMaceLaneSelftest dt p lane pass s
  | .taintReoffer dt p => Sys2Proof.Machine.execTaintReoffer dt p s
  | .taintFinal dt p serial => Sys2Proof.Machine.execTaintFinal dt p serial s
  | .taintRangeOffer dt p tile => Sys2Proof.Machine.execTaintRangeOffer dt p tile s
  | .taintResend dt p lvl serial => Sys2Proof.Machine.execTaintResend dt p lvl serial s
  | .watermarkPublish dt p => Sys2Proof.Machine.execWatermarkPublish dt p s
  | .taintWaitTimeout dt p => Sys2Proof.Machine.execTaintWaitTimeout dt p s
  | .taintListWriteDone dt p g serial => Sys2Proof.Machine.execTaintListWriteDone dt p g serial s
  | .l1WmkTick dt g => Sys2Proof.Machine.execL1WmkTick dt g s
  | .l2WmkTick dt g => Sys2Proof.Machine.execL2WmkTick dt g s
  | .rootWmkTick dt g => Sys2Proof.Machine.execRootWmkTick dt g s
  | .wmkRecordTick dt n => Sys2Proof.Machine.execWmkRecordTick dt n s
  | .histPeriodEnd dt p => Sys2Proof.Machine.execHistPeriodEnd dt p s
  | .gateEnableWrite dt p lvl v => Sys2Proof.Machine.execGateEnableWrite dt p lvl v s
  | .maceEnableWrite dt p lvl v => Sys2Proof.Machine.execMaceEnableWrite dt p lvl v s
  | .replayTimeoutExpiry dt p ref => Sys2Proof.Machine.execReplayTimeoutExpiry dt p ref s
  | .shadowEnableWrite dt p lvl v => Sys2Proof.Machine.execShadowEnableWrite dt p lvl v s
  | .shadowPairTimeout dt pair => Sys2Proof.Machine.execShadowPairTimeout dt pair s
  | .shadowPairsWrite dt lvl v => Sys2Proof.Machine.execShadowPairsWrite dt lvl v s
  | .budgetPeriodStart dt p ratios => Sys2Proof.Machine.execBudgetPeriodStart dt p ratios s
  | .budgetWrite dt p lvl sub v => Sys2Proof.Machine.execBudgetWrite dt p lvl sub v s
  | .arbWindowStart dt p => Sys2Proof.Machine.execArbWindowStart dt p s
  | .arbStarveClear dt p lvl mask => Sys2Proof.Machine.execArbStarveClear dt p lvl mask s
  | .exportUnitDone dt p => Sys2Proof.Machine.execExportUnitDone dt p s
  | .exportWatchdog dt p => Sys2Proof.Machine.execExportWatchdog dt p s
  | .debugExportReq dt p => Sys2Proof.Machine.execDebugExportReq dt p s
  | .debugExportRelease dt p words => Sys2Proof.Machine.execDebugExportRelease dt p words s
  | .shaperFrameStart dt p => Sys2Proof.Machine.execShaperFrameStart dt p s
  | .gateEntryAdvance dt p => Sys2Proof.Machine.execGateEntryAdvance dt p s
  | .gateOrder dt p lvl v => Sys2Proof.Machine.execGateOrder dt p lvl v s
  | .gateListTakeover dt p => Sys2Proof.Machine.execGateListTakeover dt p s
  | .powerGrant dt p id => Sys2Proof.Machine.execPowerGrant dt p id s
  | .powerRefuse dt p id => Sys2Proof.Machine.execPowerRefuse dt p id s
  | .powerRevoke dt p id => Sys2Proof.Machine.execPowerRevoke dt p id s
  | .powerAnswerTimeout dt p id => Sys2Proof.Machine.execPowerAnswerTimeout dt p id s
  | .powerBackoffExpiry dt p id => Sys2Proof.Machine.execPowerBackoffExpiry dt p id s
  | .pinRelease dt lvl tag => Sys2Proof.Machine.execPinRelease dt lvl tag s
  | .pinExpiry dt hold => Sys2Proof.Machine.execPinExpiry dt hold s
  | .partSegmentsWrite dt lvl part v => Sys2Proof.Machine.execPartSegmentsWrite dt lvl part v s
  | .sumacFlushTimer dt p => Sys2Proof.Machine.execSumacFlushTimer dt p s
  | .sumacBlockDone dt n engine selfOk => Sys2Proof.Machine.execSumacBlockDone dt n engine selfOk s
  | .cutOrder dt lvl v => Sys2Proof.Machine.execCutOrder dt lvl v s
  | .cutCancel dt lvl v => Sys2Proof.Machine.execCutCancel dt lvl v s
  | .cutOrderLanded dt g lvlRole sub => Sys2Proof.Machine.execCutOrderLanded dt g lvlRole sub s
  | .trCutOrderRx dt p r => Sys2Proof.Machine.execTrCutOrderRx dt p r s
  | .trCutCancelledRx dt p r => Sys2Proof.Machine.execTrCutCancelledRx dt p r s
  | .cutAckTimeout dt cut child => Sys2Proof.Machine.execCutAckTimeout dt cut child s
  | .cloveCut dt p cut taps => Sys2Proof.Machine.execCloveCut dt p cut taps s
  | .fysterCut dt cut => Sys2Proof.Machine.execFysterCut dt cut s
  | .cutHoldTimeout dt p cut => Sys2Proof.Machine.execCutHoldTimeout dt p cut s
  | .cutSummary dt cut => Sys2Proof.Machine.execCutSummary dt cut s
  | .dumpStart dt lvl ch serial => Sys2Proof.Machine.execDumpStart dt lvl ch serial s
  | .dumpAbort dt lvl ch => Sys2Proof.Machine.execDumpAbort dt lvl ch s
  | .dumpSegmentDone dt ch r => Sys2Proof.Machine.execDumpSegmentDone dt ch r s
  | .armOrder dt lvl v => Sys2Proof.Machine.execArmOrder dt lvl v s
  | .armNoticeRx dt src msg copy => Sys2Proof.Machine.execArmNoticeRx dt src msg copy s
  | .armAckRx dt src msg => Sys2Proof.Machine.execArmAckRx dt src msg s
  | .armDoneRx dt src msg => Sys2Proof.Machine.execArmDoneRx dt src msg s
  | .armRelayRx dt src msg => Sys2Proof.Machine.execArmRelayRx dt src msg s
  | .armAckTimeout dt g role child => Sys2Proof.Machine.execArmAckTimeout dt g role child s
  | .armRetest dt g => Sys2Proof.Machine.execArmRetest dt g s
  | .armWaitExpiry dt g => Sys2Proof.Machine.execArmWaitExpiry dt g s
  | .armRetry dt g role => Sys2Proof.Machine.execArmRetry dt g role s
  | .tuGroupArm dt p lvl g v => Sys2Proof.Machine.execTuGroupArm dt p lvl g v s
  | .tuGroupLeave dt p lvl g v => Sys2Proof.Machine.execTuGroupLeave dt p lvl g v s
  | .groupArmEffective dt n g => Sys2Proof.Machine.execGroupArmEffective dt n g s
  | .membershipChange dt n g => Sys2Proof.Machine.execMembershipChange dt n g s
  | .groupDrainEffective dt n g => Sys2Proof.Machine.execGroupDrainEffective dt n g s
  | .groupRelease dt n g => Sys2Proof.Machine.execGroupRelease dt n g s
  | .l1GatherClose dt g inst => Sys2Proof.Machine.execL1GatherClose dt g inst s
  | .fabricWriteComplete dt id => Sys2Proof.Machine.execFabricWriteComplete dt id s
  | .contribArrival dt g role child sub inst => Sys2Proof.Machine.execContribArrival dt g role child sub inst s
  | .l2Close dt g inst => Sys2Proof.Machine.execL2Close dt g inst s
  | .rootClose dt g inst => Sys2Proof.Machine.execRootClose dt g inst s
  | .rootPublish dt g inst => Sys2Proof.Machine.execRootPublish dt g inst s
  | .summaryRead dt g inst v => Sys2Proof.Machine.execSummaryRead dt g inst v s
  | .summaryMissed dt g inst => Sys2Proof.Machine.execSummaryMissed dt g inst s
  | .frameReuseCarry dt g role frame => Sys2Proof.Machine.execFrameReuseCarry dt g role frame s
  | .mergeEngineSelftest dt e pass => Sys2Proof.Machine.execMergeEngineSelftest dt e pass s
  | .peerHeartbeat dt g role => Sys2Proof.Machine.execPeerHeartbeat dt g role s
  | .takeoverTimeout dt g role => Sys2Proof.Machine.execTakeoverTimeout dt g role s
  | .ledgerWriteRx dt src addr v => Sys2Proof.Machine.execLedgerWriteRx dt src addr v s
  | .fabricInboundRefused dt isWrite addr => Sys2Proof.Machine.execFabricInboundRefused dt isWrite addr s
  | .juniperRowScored dt => Sys2Proof.Machine.execJuniperRowScored dt s
  | .rowDeadline dt g inst => Sys2Proof.Machine.execRowDeadline dt g inst s
  | .juniperLaneSelftest dt lane pass => Sys2Proof.Machine.execJuniperLaneSelftest dt lane pass s
  | .modelImage dt lvl slot v => Sys2Proof.Machine.execModelImage dt lvl slot v s
  | .stageFrom dt lvl slot v fetched => Sys2Proof.Machine.execStageFrom dt lvl slot v fetched s
  | .modelCheckDone dt slot => Sys2Proof.Machine.execModelCheckDone dt slot s
  | .modelOrder dt lvl g v => Sys2Proof.Machine.execModelOrder dt lvl g v s
  | .modelSwap dt g => Sys2Proof.Machine.execModelSwap dt g s
  | .rowSubmit dt lvl v => Sys2Proof.Machine.execRowSubmit dt lvl v s
  | .batchStart dt lvl serial => Sys2Proof.Machine.execBatchStart dt lvl serial s
  | .batchAbort dt lvl v => Sys2Proof.Machine.execBatchAbort dt lvl v s
  | .zoomNoticeRx dt p r => Sys2Proof.Machine.execZoomNoticeRx dt p r s
  | .govPoll dt g reqs => Sys2Proof.Machine.execGovPoll dt g reqs s
  | .sparePoolWrite dt lvl g isFloor v => Sys2Proof.Machine.execSparePoolWrite dt lvl g isFloor v s
  | .govRaisePin dt lvl g isValue v => Sys2Proof.Machine.execGovRaisePin dt lvl g isValue v s
  | .dieReturned dt lvl g die => Sys2Proof.Machine.execDieReturned dt lvl g die s
  | .sigWaitTimeout dt p serial => Sys2Proof.Machine.execSigWaitTimeout dt p serial s
  | .tdpHello dt m => Sys2Proof.Machine.execTdpHello dt m s
  | .tdpChallengeReady dt a => Sys2Proof.Machine.execTdpChallengeReady dt a s
  | .tdpAuth dt m => Sys2Proof.Machine.execTdpAuth dt m s
  | .tdpAuthChecked dt session ok => Sys2Proof.Machine.execTdpAuthChecked dt session ok s
  | .tdpAuthTimeout dt session => Sys2Proof.Machine.execTdpAuthTimeout dt session s
  | .tdpClose dt m => Sys2Proof.Machine.execTdpClose dt m s
  | .tdpRead dt m => Sys2Proof.Machine.execTdpRead dt m s
  | .tdpWrite dt m => Sys2Proof.Machine.execTdpWrite dt m s
  | .blkReadInit dt m => Sys2Proof.Machine.execBlkReadInit dt m s
  | .blkWriteInit dt m => Sys2Proof.Machine.execBlkWriteInit dt m s
  | .blkSeg dt m => Sys2Proof.Machine.execBlkSeg dt m s
  | .blkAck dt m => Sys2Proof.Machine.execBlkAck dt m s
  | .blkEnd dt m => Sys2Proof.Machine.execBlkEnd dt m s
  | .blockResendTimer dt xfer => Sys2Proof.Machine.execBlockResendTimer dt xfer s
  | .blockTimeout dt xfer => Sys2Proof.Machine.execBlockTimeout dt xfer s
  | .subscribe dt m => Sys2Proof.Machine.execSubscribe dt m s
  | .unsubscribe dt m => Sys2Proof.Machine.execUnsubscribe dt m s
  | .subscriptionCheck dt sub => Sys2Proof.Machine.execSubscriptionCheck dt sub s
  | .sessionIdleTimeout dt session => Sys2Proof.Machine.execSessionIdleTimeout dt session s
  | .authLockoutExpiry dt addr => Sys2Proof.Machine.execAuthLockoutExpiry dt addr s
  | .tdpMalformedDrop dt m => Sys2Proof.Machine.execTdpMalformedDrop dt m s
  | .trDictRead dt p r => Sys2Proof.Machine.execTrDictRead dt p r s
  | .trDictWrite dt p r => Sys2Proof.Machine.execTrDictWrite dt p r s
  | .trDictSegment dt p r => Sys2Proof.Machine.execTrDictSegment dt p r s
  | .trDictCommit dt p r => Sys2Proof.Machine.execTrDictCommit dt p r s
  | .trDictCopy dt p r => Sys2Proof.Machine.execTrDictCopy dt p r s
  | .trDictCopyRead dt p r => Sys2Proof.Machine.execTrDictCopyRead dt p r s
  | .trDictAnswerRx dt p r => Sys2Proof.Machine.execTrDictAnswerRx dt p r s
  | .nodeTimeout dt rid => Sys2Proof.Machine.execNodeTimeout dt rid s
  | .calArm dt session lvl v => Sys2Proof.Machine.execCalArm dt session lvl v s
  | .calWrite dt session lvl index sub v => Sys2Proof.Machine.execCalWrite dt session lvl index sub v s
  | .calImage dt session lvl v => Sys2Proof.Machine.execCalImage dt session lvl v s
  | .norStoreDone dt cal ok => Sys2Proof.Machine.execNorStoreDone dt cal ok s
  | .objectWrite dt n lvl index sub v => Sys2Proof.Machine.execObjectWrite dt n lvl index sub v s
  | .mboxDoorbell dt n ch stamp v => Sys2Proof.Machine.execMboxDoorbell dt n ch stamp v s
  | .dictRead dt n ch => Sys2Proof.Machine.execDictRead dt n ch s
  | .dictWrite dt n ch => Sys2Proof.Machine.execDictWrite dt n ch s
  | .dictSegment dt n ch => Sys2Proof.Machine.execDictSegment dt n ch s
  | .dictCommit dt n ch => Sys2Proof.Machine.execDictCommit dt n ch s
  | .mboxReservedCode dt n ch => Sys2Proof.Machine.execMboxReservedCode dt n ch s
  | .mboxAck dt n ch rcode reply => Sys2Proof.Machine.execMboxAck dt n ch rcode reply s
  | .idleIntentWrite dt n ch v => Sys2Proof.Machine.execIdleIntentWrite dt n ch v s
  | .chDirWrite dt n lvl ch v => Sys2Proof.Machine.execChDirWrite dt n lvl ch v s
  | .taintMboxChWrite dt p lvl v => Sys2Proof.Machine.execTaintMboxChWrite dt p lvl v s
  | .evrUpdateTimer dt n => Sys2Proof.Machine.execEvrUpdateTimer dt n s
  | .evrClear dt n v => Sys2Proof.Machine.execEvrClear dt n v s
  | .evrFlush dt n lvl v => Sys2Proof.Machine.execEvrFlush dt n lvl v s
  | .pfailEventRx dt p r => Sys2Proof.Machine.execPfailEventRx dt p r s
  | .evrFlushPart dt p => Sys2Proof.Machine.execEvrFlushPart dt p s
  | .norFlushDone dt => Sys2Proof.Machine.execNorFlushDone dt s
  | .pfailRecognised dt => Sys2Proof.Machine.execPfailRecognised dt s
  | .pfailGlitch dt => Sys2Proof.Machine.execPfailGlitch dt s
  | .pfailDeassert dt => Sys2Proof.Machine.execPfailDeassert dt s
  | .fysterPowerOn dt imageA imageB => Sys2Proof.Machine.execFysterPowerOn dt imageA imageB s
  | .resetPin dt imageA imageB => Sys2Proof.Machine.execResetPin dt imageA imageB s
  | .coldResetRequest dt lvl imageA imageB => Sys2Proof.Machine.execColdResetRequest dt lvl imageA imageB s
  | .warmResetRequest dt lvl imageA imageB => Sys2Proof.Machine.execWarmResetRequest dt lvl imageA imageB s
  | .fwWatchdogExpiry dt imageA imageB => Sys2Proof.Machine.execFwWatchdogExpiry dt imageA imageB s
  | .hbmTrainingDone dt => Sys2Proof.Machine.execHbmTrainingDone dt s
  | .oobTrainingDone dt q => Sys2Proof.Machine.execOobTrainingDone dt q s
  | .tlTrainingDone dt e t => Sys2Proof.Machine.execTlTrainingDone dt e t s
  | .portDieIdWrite dt p lvl v => Sys2Proof.Machine.execPortDieIdWrite dt p lvl v s
  | .tuPowerOn dt p => Sys2Proof.Machine.execTuPowerOn dt p s
  | .tuResetIn dt p => Sys2Proof.Machine.execTuResetIn dt p s
  | .tuResetRequest dt p lvl v => Sys2Proof.Machine.execTuResetRequest dt p lvl v s
  | .tuInternalFault dt p => Sys2Proof.Machine.execTuInternalFault dt p s
  | .dieResetIndication dt p => Sys2Proof.Machine.execDieResetIndication dt p s
  | .tlLinkLoss dt e => Sys2Proof.Machine.execTlLinkLoss dt e s
  | .tlRetrainAttempt dt e => Sys2Proof.Machine.execTlRetrainAttempt dt e s
  | .tlRetrain dt e lvl v => Sys2Proof.Machine.execTlRetrain dt e lvl v s
  | .laneSwapQuiesce dt e => Sys2Proof.Machine.execLaneSwapQuiesce dt e s
  | .laneSwapQuiesceTimeout dt e => Sys2Proof.Machine.execLaneSwapQuiesceTimeout dt e s
  | .oobLinkDown dt q => Sys2Proof.Machine.execOobLinkDown dt q s
  | .oobRetrainTimer dt q ok => Sys2Proof.Machine.execOobRetrainTimer dt q ok s
  | .fabricPortDown dt k => Sys2Proof.Machine.execFabricPortDown dt k s
  | .fabricRetrainTimer dt k ok => Sys2Proof.Machine.execFabricRetrainTimer dt k ok s
  | .recoveryRetry dt n row => Sys2Proof.Machine.execRecoveryRetry dt n row s
  | .trayPwrGrant dt m => Sys2Proof.Machine.execTrayPwrGrant dt m s
  | .trayPwrRefuse dt m => Sys2Proof.Machine.execTrayPwrRefuse dt m s
  | .trayPwrRevoke dt m => Sys2Proof.Machine.execTrayPwrRevoke dt m s
  | .trayPwrTimeout dt id => Sys2Proof.Machine.execTrayPwrTimeout dt id s
  | .trayPwrBackoffExpiry dt id => Sys2Proof.Machine.execTrayPwrBackoffExpiry dt id s
  | .trayPwrReleaseRepeat dt id => Sys2Proof.Machine.execTrayPwrReleaseRepeat dt id s
  | .thermalLimit dt hbm centi => Sys2Proof.Machine.execThermalLimit dt hbm centi s
  | .hostRingInt dt => Sys2Proof.Machine.execHostRingInt dt s
  | .bar2Write dt offset v => Sys2Proof.Machine.execBar2Write dt offset v s
  | .pcieReset dt => Sys2Proof.Machine.execPcieReset dt s
  | .fysterPowerLoss dt => Sys2Proof.Machine.execFysterPowerLoss dt s
  | .localReferenceStable dt => Sys2Proof.Machine.execLocalReferenceStable dt s
  | .tlTrainingAttemptFailed dt e => Sys2Proof.Machine.execTlTrainingAttemptFailed dt e s
  | .norSlotEraseDone dt => Sys2Proof.Machine.execNorSlotEraseDone dt s
  | .armNoticePacing dt => Sys2Proof.Machine.execArmNoticePacing dt s
  | .stageFetchError dt slot => Sys2Proof.Machine.execStageFetchError dt slot s
  | .rowSubmitTimeout dt => Sys2Proof.Machine.execRowSubmitTimeout dt s
  | .cutPinNewEnd dt cut => Sys2Proof.Machine.execCutPinNewEnd dt cut s
  | .hostRingRegisterWrite dt offset v => Sys2Proof.Machine.execHostRingRegisterWrite dt offset v s

end Sys2Proof.Machine
end

