-- ==== Sys2Proof/Safety.lean ====
section
/-! DEFINITION. The terms in which claims about the tray are made: where a command acts, what it answers, which parts of a node
its reporting touches, and the form of the table of TUs. -/

namespace Sys2Proof

/-- Where a command acts: on Fyster alone, on the TU of one port alone, or on Fyster and a TU together. -/
inductive Site where
  | fyster
  | tu (p : Port)
  | tray
deriving DecidableEq, Repr

/-- The site of a node. -/
def Node.site : Node → Site
  | .fyster => .fyster
  | .tu p => .tu p

/-- The site of one end of a tray link. -/
def End.site : End → Site
  | .fysterEnd _ => .fyster
  | .tuEnd p => .tu p

/-- Where each command acts. -/
def Instr.site (i : Instr) : Site :=
  match i with
  | .treqSend _ p => .tu p
  | .tosTreqRx _ _ _ => .fyster
  | .tosTrspRx _ p _ => .tu p
  | .trspTimeout _ p => .tu p
  | .ptpMessageRx _ _ _ => .fyster
  | .announceTimeout _ _ => .fyster
  | .ptpEventTx _ _ _ _ _ => .fyster
  | .txqRead _ _ => .fyster
  | .stepAuthorise _ _ _ => .fyster
  | .tuStepAuthorise _ p _ _ => .tu p
  | .timeSecondTick _ n => n.site
  | .ts64Rollover _ n => n.site
  | .gridInstant _ p _ => .tu p
  | .setGridInstant _ p _ _ => .tu p
  | .gridChange _ n _ => n.site
  | .tosWmkRx _ _ _ => .fyster
  | .tosWmkdRx _ p _ => .tu p
  | .tosStatusRx _ e _ => e.site
  | .statusSendTimer _ e => e.site
  | .frameRx _ e _ => e.site
  | .controlFrameRx _ e _ => e.site
  | .ackControlSend _ e => e.site
  | .replayTimeout _ e => e.site
  | .lossReport _ n _ _ => n.site
  | .crcEnable _ n _ _ _ => n.site
  | .crcPause _ n _ _ _ => n.site
  | .crcPaused _ n _ => n.site
  | .crcInit _ n _ _ => n.site
  | .crcValueWrite _ n _ _ _ _ => n.site
  | .tapIncBeat _ p _ _ => .tu p
  | .cntSelWrite _ p _ _ _ => .tu p
  | .counterReset _ p _ _ _ => .tu p
  | .cntResetAll _ p _ _ => .tu p
  | .setCtrlWrite _ p _ _ _ => .tu p
  | .setListWrite _ p _ _ _ => .tu p
  | .setGridWrite _ p _ _ _ _ => .tu p
  | .zoomPinWrite _ p _ _ _ _ => .tu p
  | .spareSwap _ n _ => n.site
  | .wearReading _ n _ => n.site
  | .cpLaunchStart _ p _ _ _ _ => .tu p
  | .cpLaunchEnd _ p _ => .tu p
  | .cpOpen _ p _ => .tu p
  | .cpBegin _ p _ _ _ => .tu p
  | .cpEnd _ p _ _ _ => .tu p
  | .cpClose _ p _ _ => .tu p
  | .cpDispatch _ p _ => .tu p
  | .longPhaseCrossing _ p _ => .tu p
  | .phaseEnableWrite _ p _ _ => .tu p
  | .nameTableLoad _ p _ _ => .tu p
  | .traceCondBeat _ p _ _ => .tu p
  | .traceIndirectBeat _ p _ _ => .tu p
  | .traceProgressBeat _ p _ _ => .tu p
  | .tracePwrNotice _ p _ _ => .tu p
  | .traceWake _ p _ _ => .tu p
  | .dpcDownRise _ p _ => .tu p
  | .dpcDownFall _ p _ => .tu p
  | .traceFlushTimer _ p _ => .tu p
  | .traceModeWrite _ p _ _ _ => .tu p
  | .traceTsIntervalWrite _ p _ _ _ => .tu p
  | .windowWrite _ p _ _ _ => .tu p
  | .nocMResponse _ p _ => .tu p
  | .nocResponseTimeout _ p => .tu p
  | .ringEventBeat _ p _ _ => .tu p
  | .ringTick _ p _ => .tu p
  | .dieWdtRise _ p => .tu p
  | .progressTimeout _ p => .tu p
  | .freeze _ p _ _ => .tu p
  | .resume _ p _ _ => .tu p
  | .ringReadoutPeriod _ p => .tu p
  | .checkRecord _ p _ _ => .tu p
  | .maceVerdict _ p _ _ => .tu p
  | .maceLaneSelftest _ p _ _ => .tu p
  | .taintReoffer _ p => .tu p
  | .taintFinal _ p _ => .tu p
  | .taintRangeOffer _ p _ => .tu p
  | .taintResend _ p _ _ => .tu p
  | .watermarkPublish _ p => .tu p
  | .taintWaitTimeout _ _ => .fyster
  | .taintListWriteDone _ _ _ _ => .fyster
  | .l1WmkTick _ _ => .fyster
  | .l2WmkTick _ _ => .fyster
  | .rootWmkTick _ _ => .fyster
  | .wmkRecordTick _ n => n.site
  | .histPeriodEnd _ p => .tu p
  | .gateEnableWrite _ p _ _ => .tu p
  | .maceEnableWrite _ p _ _ => .tu p
  | .replayTimeoutExpiry _ p _ => .tu p
  | .shadowEnableWrite _ _ _ _ => .tray
  | .shadowPairTimeout _ _ => .fyster
  | .shadowPairsWrite _ _ _ => .tray
  | .budgetPeriodStart _ p _ => .tu p
  | .budgetWrite _ p _ _ _ => .tu p
  | .arbWindowStart _ p => .tu p
  | .arbStarveClear _ p _ _ => .tu p
  | .exportUnitDone _ p => .tu p
  | .exportWatchdog _ p => .tu p
  | .debugExportReq _ p => .tu p
  | .debugExportRelease _ p _ => .tu p
  | .shaperFrameStart _ p => .tu p
  | .gateEntryAdvance _ p => .tu p
  | .gateOrder _ p _ _ => .tu p
  | .gateListTakeover _ p => .tu p
  | .powerGrant _ p _ => .tu p
  | .powerRefuse _ p _ => .tu p
  | .powerRevoke _ p _ => .tu p
  | .powerAnswerTimeout _ p _ => .tu p
  | .powerBackoffExpiry _ p _ => .tu p
  | .pinRelease _ _ _ => .fyster
  | .pinExpiry _ _ => .fyster
  | .partSegmentsWrite _ _ _ _ => .fyster
  | .sumacFlushTimer _ p => .tu p
  | .sumacBlockDone _ n _ _ => n.site
  | .cutOrder _ _ _ => .fyster
  | .cutCancel _ _ _ => .fyster
  | .cutOrderLanded _ _ _ _ => .fyster
  | .trCutOrderRx _ p _ => .tu p
  | .trCutCancelledRx _ p _ => .tu p
  | .cutAckTimeout _ _ _ => .fyster
  | .cloveCut _ p _ _ => .tu p
  | .fysterCut _ _ => .fyster
  | .cutHoldTimeout _ _ _ => .tray
  | .cutSummary _ _ => .fyster
  | .dumpStart _ _ _ _ => .fyster
  | .dumpAbort _ _ _ => .fyster
  | .dumpSegmentDone _ _ _ => .fyster
  | .armOrder _ _ _ => .fyster
  | .armNoticeRx _ _ _ _ => .fyster
  | .armAckRx _ _ _ => .fyster
  | .armDoneRx _ _ _ => .fyster
  | .armRelayRx _ _ _ => .fyster
  | .armAckTimeout _ _ _ _ => .fyster
  | .armRetest _ _ => .fyster
  | .armWaitExpiry _ _ => .fyster
  | .armRetry _ _ _ => .fyster
  | .tuGroupArm _ p _ _ _ => .tu p
  | .tuGroupLeave _ p _ _ _ => .tu p
  | .groupArmEffective _ n _ => n.site
  | .membershipChange _ n _ => n.site
  | .groupDrainEffective _ n _ => n.site
  | .groupRelease _ n _ => n.site
  | .l1GatherClose _ _ _ => .tray
  | .fabricWriteComplete _ _ => .fyster
  | .contribArrival _ _ _ _ _ _ => .fyster
  | .l2Close _ _ _ => .fyster
  | .rootClose _ _ _ => .fyster
  | .rootPublish _ _ _ => .fyster
  | .summaryRead _ _ _ _ => .fyster
  | .summaryMissed _ _ _ => .fyster
  | .frameReuseCarry _ _ _ _ => .fyster
  | .mergeEngineSelftest _ _ _ => .fyster
  | .peerHeartbeat _ _ _ => .fyster
  | .takeoverTimeout _ _ _ => .fyster
  | .ledgerWriteRx _ _ _ _ => .fyster
  | .fabricInboundRefused _ _ _ => .fyster
  | .juniperRowScored _ => .fyster
  | .rowDeadline _ _ _ => .fyster
  | .juniperLaneSelftest _ _ _ => .fyster
  | .modelImage _ _ _ _ => .fyster
  | .stageFrom _ _ _ _ _ => .fyster
  | .modelCheckDone _ _ => .fyster
  | .modelOrder _ _ _ _ => .fyster
  | .modelSwap _ _ => .fyster
  | .rowSubmit _ _ _ => .fyster
  | .batchStart _ _ _ => .fyster
  | .batchAbort _ _ _ => .fyster
  | .zoomNoticeRx _ p _ => .tu p
  | .govPoll _ _ _ => .fyster
  | .sparePoolWrite _ _ _ _ _ => .fyster
  | .govRaisePin _ _ _ _ _ => .fyster
  | .dieReturned _ _ _ _ => .fyster
  | .sigWaitTimeout _ _ _ => .fyster
  | .tdpHello _ _ => .fyster
  | .tdpChallengeReady _ _ => .fyster
  | .tdpAuth _ _ => .fyster
  | .tdpAuthChecked _ _ _ => .fyster
  | .tdpAuthTimeout _ _ => .fyster
  | .tdpClose _ _ => .fyster
  | .tdpRead _ _ => .fyster
  | .tdpWrite _ _ => .tray
  | .blkReadInit _ _ => .fyster
  | .blkWriteInit _ _ => .fyster
  | .blkSeg _ _ => .fyster
  | .blkAck _ _ => .fyster
  | .blkEnd _ _ => .tray
  | .blockResendTimer _ _ => .fyster
  | .blockTimeout _ _ => .fyster
  | .subscribe _ _ => .fyster
  | .unsubscribe _ _ => .fyster
  | .subscriptionCheck _ _ => .fyster
  | .sessionIdleTimeout _ _ => .fyster
  | .authLockoutExpiry _ _ => .fyster
  | .tdpMalformedDrop _ _ => .fyster
  | .trDictRead _ p _ => .tu p
  | .trDictWrite _ _ _ => .tray
  | .trDictSegment _ p _ => .tu p
  | .trDictCommit _ _ _ => .tray
  | .trDictCopy _ p _ => .tu p
  | .trDictCopyRead _ p _ => .tu p
  | .trDictAnswerRx _ _ _ => .fyster
  | .nodeTimeout _ _ => .fyster
  | .calArm _ _ _ _ => .fyster
  | .calWrite _ _ _ _ _ _ => .tray
  | .calImage _ _ _ _ => .tray
  | .norStoreDone _ _ _ => .fyster
  | .objectWrite _ _ _ _ _ _ => .tray
  | .mboxDoorbell _ n _ _ _ => n.site
  | .dictRead _ n _ => n.site
  | .dictWrite _ _ _ => .tray
  | .dictSegment _ n _ => n.site
  | .dictCommit _ _ _ => .tray
  | .mboxReservedCode _ n _ => n.site
  | .mboxAck _ n _ _ _ => n.site
  | .idleIntentWrite _ n _ _ => n.site
  | .chDirWrite _ n _ _ _ => n.site
  | .taintMboxChWrite _ p _ _ => .tu p
  | .evrUpdateTimer _ n => n.site
  | .evrClear _ n _ => n.site
  | .evrFlush _ n _ _ => n.site
  | .pfailEventRx _ p _ => .tu p
  | .evrFlushPart _ p => .tu p
  | .norFlushDone _ => .fyster
  | .pfailRecognised _ => .fyster
  | .pfailGlitch _ => .fyster
  | .pfailDeassert _ => .fyster
  | .fysterPowerOn _ _ _ => .fyster
  | .resetPin _ _ _ => .fyster
  | .coldResetRequest _ _ _ _ => .fyster
  | .warmResetRequest _ _ _ _ => .fyster
  | .fwWatchdogExpiry _ _ _ => .fyster
  | .hbmTrainingDone _ => .fyster
  | .oobTrainingDone _ _ => .fyster
  | .tlTrainingDone _ _ _ => .tray
  | .portDieIdWrite _ _ _ _ => .tray
  | .tuPowerOn _ p => .tu p
  | .tuResetIn _ p => .tu p
  | .tuResetRequest _ _ _ _ => .tray
  | .tuInternalFault _ p => .tu p
  | .dieResetIndication _ p => .tu p
  | .tlLinkLoss _ e => e.site
  | .tlRetrainAttempt _ e => e.site
  | .tlRetrain _ e _ _ => e.site
  | .laneSwapQuiesce _ e => e.site
  | .laneSwapQuiesceTimeout _ e => e.site
  | .oobLinkDown _ _ => .fyster
  | .oobRetrainTimer _ _ _ => .fyster
  | .fabricPortDown _ _ => .fyster
  | .fabricRetrainTimer _ _ _ => .fyster
  | .recoveryRetry _ n _ => n.site
  | .trayPwrGrant _ _ => .fyster
  | .trayPwrRefuse _ _ => .fyster
  | .trayPwrRevoke _ _ => .fyster
  | .trayPwrTimeout _ _ => .fyster
  | .trayPwrBackoffExpiry _ _ => .fyster
  | .trayPwrReleaseRepeat _ _ => .fyster
  | .thermalLimit _ _ _ => .fyster
  | .hostRingInt _ => .fyster
  | .bar2Write _ _ _ => .fyster
  | .pcieReset _ => .fyster
  | .fysterPowerLoss _ => .fyster
  | .localReferenceStable _ => .fyster
  | .tlTrainingAttemptFailed _ e => e.site
  | .norSlotEraseDone _ => .fyster
  | .armNoticePacing _ => .fyster
  | .stageFetchError _ _ => .fyster
  | .rowSubmitTimeout _ => .fyster
  | .cutPinNewEnd _ _ => .fyster
  | .hostRingRegisterWrite _ _ _ => .fyster

namespace Machine

/-- A command completes in a state that differs from `s` in the TU of port `p` alone, and that TU is as `Q` says. -/
def TuNext (c : Instr) (s : State) (p : Port) (Q : Tu → Prop) : Prop := ∃ t, exec c s = .next (s.setTu p t) ∧ Q t

/-- A command completes in a state that differs from `s` in Fyster alone, and Fyster is as `Q` says. -/
def FyNext (c : Instr) (s : State) (Q : Fyster → Prop) : Prop := ∃ f, exec c s = .next { s with fy := f } ∧ Q f

/-- Counts that a TU's reporting itself raises: overwritten event records (R376), and the budget marks of a drop (R193, R214). -/
def tuReportKeys : List Nat := objKey 0x6000 7 :: objKey 0x2A00 0x0A :: (List.range 8).map fun a => objKey 0x2A01 (a + 1)

/-- A TU without the objects of keys `ks` and without what reporting touches: outputs, the number of the next free value, export
queues and budgets, the counters that count the TU's own work, the event log, stream and loss bookkeeping, and the counts of
`tuReportKeys`. Two TUs with equal forms agree in everything else. -/
def Tu.bareBut (t : Tu) (ks : List Nat) : Tu :=
  { t with
    out := [], fresh := 0, exp := .reset, cnts := []
    part := { t.part with evr := .reset, alive := [], lossy := [], loss := [],
                          obj := t.part.obj.filter fun e => !(tuReportKeys ++ ks).contains e.1 } }

/-- A TU without what reporting touches. -/
abbrev Tu.bare (t : Tu) : Tu := t.bareBut []

/-- Counts that Fyster's reporting itself raises: overwritten and frozen-out event records (R376, R383), entries that the host
ring had no room for (R417), and holds that a full partition has trimmed (R219). -/
def fyReportKeys : List Nat := [objKey 0x6000 7, objKey 0x6000 0x0A, objKey 0x1171 3, objKey 0x6809 4]

/-- A hold without what a trim under R219 changes: the first segment of its ranges that are open at their new end. -/
def Hold.untrimmed (x : Hold) : Hold :=
  { x with trimmed := false, ranges := x.ranges.map fun r => if r.2.2 = none then (r.1, 0, none) else r }

/-- Fyster without the objects of keys `ks` and without what reporting touches: outputs, the number of the next free value, the
hindsight ring, the host ring's entries, the START_STATE last reported, the event log, stream bookkeeping, what a full partition
trims off holds (R219), and the counts of `fyReportKeys`. -/
def Fyster.bareBut (f : Fyster) (ks : List Nat) : Fyster :=
  { f with
    holds := f.holds.map fun (e : Nat × Hold) => (e.1, e.2.untrimmed)
    cuts := f.cuts.map fun (e : Nat × CutSlot) => (e.1, { e.2 with cflags := setBit e.2.cflags 5 true })
    out := [], fresh := 0, ring := [], host := { f.host with count := 0, entries := [] }
    boot := { f.boot with lastStart := 0 }
    part := { f.part with evr := .reset, alive := [], lossy := [],
                          obj := f.part.obj.filter fun e => !(fyReportKeys ++ ks).contains e.1 } }

/-- Fyster without what reporting touches. -/
abbrev Fyster.bare (f : Fyster) : Fyster := f.bareBut []

/-- A counting object one or more higher than it was (R380); past its width the spec states no value (log 13). -/
def raised (idx sub old n : Nat) : Nat := countUp (objBits idx sub) (objKey idx sub) old n

/-- The arm child `key` of the role of `level` that Fyster holds in the group under key `k` (R276). -/
def Fyster.armChildAt (f : Fyster) (k level key : Nat) : Option ArmChild :=
  ((f.grp k).bind fun x => x.held level).bind fun r => tfind r.children key

/-- The table of TUs is in its canonical form: ports strictly rising, and only the 32 ports of a tray (R1). -/
def State.TuTable (s : State) : Prop := (s.tus.map Prod.fst).Pairwise (· < ·) ∧ ∀ e ∈ s.tus, e.1 < 32

end Machine

end Sys2Proof
end

