-- ==== Sys2Proof/WellFormed.lean ====
section
/-! DEFINITION. Which commands an interface of the tray can bring: the sizes that the spec gives to what a command carries. A
meaning is total, and takes an ill-formed command as it stands; the check says what the hardware can be asked to do. -/

namespace Sys2Proof

/-- A data or CONTROL frame: PLEN has 13 bits, and no more than PLEN bytes follow the header (R68). -/
def RawFrame.wf (f : RawFrame) : Bool := decide (f.payload.length ≤ 1023)

/-- An ordered set: N counts blocks of 8 bytes of payload (R407). -/
def Tos.wf (t : Tos) : Bool := t.payload.length == 8 * t.n.toNat

/-- A record: every header field in its width, and LEN in 8 bits (R59, R60). -/
def Rec.wf (r : Rec) : Bool :=
  decide (r.type < 256) && decide (r.stream < 65536) && decide (r.alive < 256) && decide (r.flags < 128) && decide (r.unit < 1024) &&
    decide (r.die < 2 ^ 32) && decide (r.gslot < 256) && decide (r.ts64 < 2 ^ 64) && decide (r.pay.length ≤ 252)

/-- A UDP datagram (R349). -/
def Datagram.wf (m : Datagram) : Bool := decide (m.bytes.length ≤ 65507)

/-- A signature: 16 bins a side (R184). -/
def TileSig.wf (x : TileSig) : Bool := x.expRow.length == 16 && x.expCol.length == 16

/-- Lanes of an increment tap (R434, R435, R436). -/
def tapLanes : IncTap → Nat
  | .tile _ => 32
  | .cp => 10
  | .fp _ => 10
  | .hbm _ => 8
  | .noc => 4
  | .dpc => 5

/-- An accumulator of a node: an activity of a TU, a TL port of Fyster (R82). -/
def lossOwnerWf (n : Node) (acc : Nat) : Bool :=
  match n with
  | .tu _ => decide (acc < 8)
  | .fyster => decide (acc < 32)

/-- A mailbox channel of a node: a TU has 8, Fyster 64 (R368). -/
def channelWf (n : Node) (ch : Fin 64) : Bool :=
  match n with
  | .tu _ => decide (ch.val < 8)
  | .fyster => true

/-- The command can be brought to the tray. -/
def Instr.wf (c : Instr) : Bool :=
  match c with
  | .treqSend .. => true
  | .tosTreqRx _ _ t => t.wf
  | .tosTrspRx _ _ t => t.wf
  | .trspTimeout .. => true
  | .ptpMessageRx .. => true
  | .announceTimeout .. => true
  | .ptpEventTx .. => true
  | .txqRead .. => true
  | .stepAuthorise .. => true
  | .tuStepAuthorise .. => true
  | .timeSecondTick .. => true
  | .ts64Rollover .. => true
  | .gridInstant .. => true
  | .setGridInstant .. => true
  | .gridChange .. => true
  | .tosWmkRx _ _ t => t.wf
  | .tosWmkdRx _ _ t => t.wf
  | .tosStatusRx _ _ t => t.wf
  | .statusSendTimer .. => true
  | .frameRx _ _ f => f.wf
  | .controlFrameRx _ _ f => f.wf
  | .ackControlSend .. => true
  | .replayTimeout .. => true
  | .lossReport _ n _ acc => lossOwnerWf n acc
  | .crcEnable .. => true
  | .crcPause .. => true
  | .crcPaused .. => true
  | .crcInit .. => true
  | .crcValueWrite .. => true
  | .tapIncBeat _ _ tap b => b.lanes.length == tapLanes tap
  | .cntSelWrite .. => true
  | .counterReset .. => true
  | .cntResetAll .. => true
  | .setCtrlWrite .. => true
  | .setListWrite .. => true
  | .setGridWrite .. => true
  | .zoomPinWrite .. => true
  | .spareSwap .. => true
  | .wearReading .. => true
  | .cpLaunchStart .. => true
  | .cpLaunchEnd .. => true
  | .cpOpen .. => true
  | .cpBegin .. => true
  | .cpEnd .. => true
  | .cpClose .. => true
  | .cpDispatch _ _ x => decide (x.unit.toNat < 72) || x.unit == 128
  | .longPhaseCrossing .. => true
  | .phaseEnableWrite .. => true
  | .nameTableLoad .. => true
  | .traceCondBeat .. => true
  | .traceIndirectBeat .. => true
  | .traceProgressBeat .. => true
  | .tracePwrNotice .. => true
  | .traceWake .. => true
  | .dpcDownRise .. => true
  | .dpcDownFall .. => true
  | .traceFlushTimer .. => true
  | .traceModeWrite .. => true
  | .traceTsIntervalWrite .. => true
  | .windowWrite .. => true
  | .nocMResponse .. => true
  | .nocResponseTimeout .. => true
  | .ringEventBeat .. => true
  | .ringTick .. => true
  | .dieWdtRise .. => true
  | .progressTimeout .. => true
  | .freeze .. => true
  | .resume .. => true
  | .ringReadoutPeriod .. => true
  | .checkRecord _ _ _ c => c.words.length == 24
  | .maceVerdict _ _ _ sig => match sig with | some x => x.wf | none => true
  | .maceLaneSelftest .. => true
  | .taintReoffer .. => true
  | .taintFinal .. => true
  | .taintRangeOffer .. => true
  | .taintResend .. => true
  | .watermarkPublish .. => true
  | .taintWaitTimeout .. => true
  | .taintListWriteDone .. => true
  | .l1WmkTick .. => true
  | .l2WmkTick .. => true
  | .rootWmkTick .. => true
  | .wmkRecordTick .. => true
  | .histPeriodEnd .. => true
  | .gateEnableWrite .. => true
  | .maceEnableWrite .. => true
  | .replayTimeoutExpiry .. => true
  | .shadowEnableWrite .. => true
  | .shadowPairTimeout .. => true
  | .shadowPairsWrite .. => true
  | .budgetPeriodStart _ _ ratios => ratios.length == 8 && ratios.all fun x => decide (x ≤ 65536)
  | .budgetWrite .. => true
  | .arbWindowStart .. => true
  | .arbStarveClear .. => true
  | .exportUnitDone .. => true
  | .exportWatchdog .. => true
  | .debugExportReq .. => true
  | .debugExportRelease .. => true
  | .shaperFrameStart .. => true
  | .gateEntryAdvance .. => true
  | .gateOrder .. => true
  | .gateListTakeover .. => true
  | .powerGrant .. => true
  | .powerRefuse .. => true
  | .powerRevoke .. => true
  | .powerAnswerTimeout .. => true
  | .powerBackoffExpiry .. => true
  | .pinRelease .. => true
  | .pinExpiry .. => true
  | .partSegmentsWrite .. => true
  | .sumacFlushTimer .. => true
  | .sumacBlockDone .. => true
  | .cutOrder .. => true
  | .cutCancel .. => true
  | .cutOrderLanded .. => true
  | .trCutOrderRx _ _ r => r.wf
  | .trCutCancelledRx _ _ r => r.wf
  | .cutAckTimeout .. => true
  | .cloveCut _ _ _ taps => taps.length == 25
  | .fysterCut .. => true
  | .cutHoldTimeout .. => true
  | .cutSummary .. => true
  | .dumpStart .. => true
  | .dumpAbort .. => true
  | .dumpSegmentDone .. => true
  | .armOrder .. => true
  | .armNoticeRx .. => true
  | .armAckRx .. => true
  | .armDoneRx .. => true
  | .armRelayRx .. => true
  | .armAckTimeout .. => true
  | .armRetest .. => true
  | .armWaitExpiry .. => true
  | .armRetry .. => true
  | .tuGroupArm .. => true
  | .tuGroupLeave .. => true
  | .groupArmEffective .. => true
  | .membershipChange .. => true
  | .groupDrainEffective .. => true
  | .groupRelease .. => true
  | .l1GatherClose .. => true
  | .fabricWriteComplete .. => true
  | .contribArrival .. => true
  | .l2Close .. => true
  | .rootClose .. => true
  | .rootPublish .. => true
  | .summaryRead _ _ _ v => decide (v.length ≤ 65536)
  | .summaryMissed .. => true
  | .frameReuseCarry .. => true
  | .mergeEngineSelftest .. => true
  | .peerHeartbeat .. => true
  | .takeoverTimeout .. => true
  | .ledgerWriteRx .. => true
  | .fabricInboundRefused .. => true
  | .juniperRowScored .. => true
  | .rowDeadline .. => true
  | .juniperLaneSelftest .. => true
  | .modelImage .. => true
  | .stageFrom _ _ _ _ fetched => decide (fetched.length ≤ 8388608)
  | .modelCheckDone .. => true
  | .modelOrder .. => true
  | .modelSwap .. => true
  | .rowSubmit .. => true
  | .batchStart .. => true
  | .batchAbort .. => true
  | .zoomNoticeRx _ _ r => r.wf
  | .govPoll _ _ reqs => reqs.all fun x => decide (x.1 < 8192) && x.2.length == 256
  | .sparePoolWrite .. => true
  | .govRaisePin .. => true
  | .dieReturned .. => true
  | .sigWaitTimeout .. => true
  | .tdpHello _ m => m.wf
  | .tdpChallengeReady _ a => a.nonce.length == 16
  | .tdpAuth _ m => m.wf
  | .tdpAuthChecked .. => true
  | .tdpAuthTimeout .. => true
  | .tdpClose _ m => m.wf
  | .tdpRead _ m => m.wf
  | .tdpWrite _ m => m.wf
  | .blkReadInit _ m => m.wf
  | .blkWriteInit _ m => m.wf
  | .blkSeg _ m => m.wf
  | .blkAck _ m => m.wf
  | .blkEnd _ m => m.wf
  | .blockResendTimer .. => true
  | .blockTimeout .. => true
  | .subscribe _ m => m.wf
  | .unsubscribe _ m => m.wf
  | .subscriptionCheck .. => true
  | .sessionIdleTimeout .. => true
  | .authLockoutExpiry .. => true
  | .tdpMalformedDrop _ m => m.wf
  | .trDictRead _ _ r => r.wf
  | .trDictWrite _ _ r => r.wf
  | .trDictSegment _ _ r => r.wf
  | .trDictCommit _ _ r => r.wf
  | .trDictCopy _ _ r => r.wf
  | .trDictCopyRead _ _ r => r.wf
  | .trDictAnswerRx _ _ r => r.wf
  | .nodeTimeout .. => true
  | .calArm .. => true
  | .calWrite .. => true
  | .calImage .. => true
  | .norStoreDone .. => true
  | .objectWrite .. => true
  | .mboxDoorbell _ n ch _ _ => channelWf n ch
  | .dictRead _ n ch => channelWf n ch
  | .dictWrite _ n ch => channelWf n ch
  | .dictSegment _ n ch => channelWf n ch
  | .dictCommit _ n ch => channelWf n ch
  | .mboxReservedCode _ n ch => channelWf n ch
  | .mboxAck _ n ch _ reply => channelWf n ch && decide (reply.length ≤ 64)
  | .idleIntentWrite _ n ch _ => channelWf n ch
  | .chDirWrite _ n _ ch _ => channelWf n ch
  | .taintMboxChWrite .. => true
  | .evrUpdateTimer .. => true
  | .evrClear .. => true
  | .evrFlush .. => true
  | .pfailEventRx _ _ r => r.wf
  | .evrFlushPart .. => true
  | .norFlushDone .. => true
  | .pfailRecognised .. => true
  | .pfailGlitch .. => true
  | .pfailDeassert .. => true
  | .fysterPowerOn .. => true
  | .resetPin .. => true
  | .coldResetRequest .. => true
  | .warmResetRequest .. => true
  | .fwWatchdogExpiry .. => true
  | .hbmTrainingDone .. => true
  | .oobTrainingDone .. => true
  | .tlTrainingDone _ _ t => t.healthy.length == 3
  | .portDieIdWrite .. => true
  | .tuPowerOn .. => true
  | .tuResetIn .. => true
  | .tuResetRequest .. => true
  | .tuInternalFault .. => true
  | .dieResetIndication .. => true
  | .tlLinkLoss .. => true
  | .tlRetrainAttempt .. => true
  | .tlRetrain .. => true
  | .laneSwapQuiesce .. => true
  | .laneSwapQuiesceTimeout .. => true
  | .oobLinkDown .. => true
  | .oobRetrainTimer .. => true
  | .fabricPortDown .. => true
  | .fabricRetrainTimer .. => true
  | .recoveryRetry .. => true
  | .trayPwrGrant .. => true
  | .trayPwrRefuse .. => true
  | .trayPwrRevoke .. => true
  | .trayPwrTimeout .. => true
  | .trayPwrBackoffExpiry .. => true
  | .trayPwrReleaseRepeat .. => true
  | .thermalLimit .. => true
  | .hostRingInt .. => true
  | .bar2Write .. => true
  | .pcieReset .. => true
  | .fysterPowerLoss .. => true
  | .localReferenceStable .. => true
  | .tlTrainingAttemptFailed .. => true
  | .norSlotEraseDone .. => true
  | .armNoticePacing .. => true
  | .stageFetchError .. => true
  | .rowSubmitTimeout .. => true
  | .cutPinNewEnd .. => true
  | .hostRingRegisterWrite .. => true

end Sys2Proof
end

