-- ==== Sys2Proof/Certificates/Slice0/Obligations.lean ====
section
/-! DEFINITION. The statements about the tray. A conclusion `TuNext c s p Q` says that the command completes, that only the TU of
port `p` differs in the state it answers, and that this TU is as `Q` says; `FyNext c s Q` says the same of Fyster. Where `Q` is
an equation, every field that the right-hand side does not set is as before the command. The clock of the acting node has always
run on by `dt` (log 1): `tick dt`. -/

open Sys2Proof Sys2Proof.Machine

/-! ### The block as a whole -/

/-- One step runs the command at the front of the queue on the state with the rest of the queue; with no command waiting the
block idles (log 2, the model's choice). -/
def Obligations.StepRunsFront : Prop :=
  (∀ (s : State) (c : Instr) (r : List Instr), s.pending = c :: r → step s = exec c { s with pending := r }) ∧
  (∀ s : State, s.pending = [] → step s = .next s)

/-- Every command completes from every state, and no command touches the queue of those that wait behind it. -/
def Obligations.EveryCommandCompletes : Prop :=
  ∀ (c : Instr) (s : State), ∃ t, exec c s = .next t ∧ t.pending = s.pending

/-- A command on a TU changes that TU alone, and what it makes of the TU depends on that TU alone: two trays that agree on it get
the same TU, whatever Fyster and the other TUs hold. -/
def Obligations.TuIsolation : Prop :=
  ∀ (c : Instr) (p : Port) (s₁ s₂ : State), c.site = .tu p → s₁.tu p = s₂.tu p →
    ∃ t, exec c s₁ = .next (s₁.setTu p t) ∧ exec c s₂ = .next (s₂.setTu p t)

/-- A command on Fyster changes no TU, and what it makes of Fyster depends on Fyster alone. -/
def Obligations.FysterIsolation : Prop :=
  ∀ (c : Instr) (s₁ s₂ : State), c.site = .fyster → s₁.fy = s₂.fy →
    ∃ f, exec c s₁ = .next { s₁ with fy := f } ∧ exec c s₂ = .next { s₂ with fy := f }

/-- Every step keeps the table of TUs in its canonical form: ports strictly rising, none beyond the tray's 32 (R1). -/
def Obligations.TuTableKept : Prop := ∀ s s' : State, s.TuTable → step s = .next s' → s'.TuTable

/-- The table of TUs is in its canonical form after reset. -/
def Obligations.TuTableAtReset : Prop := State.reset.TuTable

/-! ### Fleet time -/

/-- R37, R38: the four commands of an exchange on the tray link. TREQ_SEND with no exchange outstanding takes the next SEQ,
stamps T1 and sends the TREQ. A sound TREQ is answered by the TRSP that repeats its SEQ. A sound TRSP that matches, at a TU
that has had no usable offset yet, steps the time unit by the offset, takes Fyster's STEP_EPOCH and moves the servo to
ACQUIRING. An exchange 20 µs old counts as missing, and the eighth in a row puts a LOCKED TU in HOLDOVER with its delay
history emptied. Conventions of the model itself that this rests on: logs 1, 11, 17. -/
def Obligations.TimeExchange : Prop :=
  (∀ (s : State) (dt : Nat) (p : Port), (s.tu p).link.st = .up → (s.tu p).treq = none →
    let t₀ := (s.tu p).tick dt
    let seq := (t₀.treqSeq + 1) % 65536
    TuNext (.treqSend dt p) s p fun t =>
      t = { t₀ with treqSeq := seq, treq := some (seq, t₀.part.time.now),
                    out := .tos (.tuEnd p) (mkTos 1 (leBytes 2 seq ++ leBytes 2 0)) :: t₀.out }) ∧
  (∀ (s : State) (dt : Nat) (p : Port) (x : Tos), x.good 1 = true →
    let f₀ := s.fy.tick dt
    FyNext (.tosTreqRx dt p x) s fun f =>
      f = f₀.emit (.tos (.fysterEnd p) (f₀.trsp (fieldAt x.payload 0 2) f₀.part.time.now f₀.part.time.now))) ∧
  (∀ (s : State) (dt : Nat) (p : Port) (x : Tos) (seq t₁ : Nat), x.good 2 = true → (s.tu p).part.time.servo = .freeRun →
   (s.tu p).treq = some (seq, t₁) → fieldAt x.payload 0 2 = seq → (s.tu p).part.time.now + dt ≤ t₁ + 20000 * 65536 →
   fieldAt x.payload 2 1 % 16 ≠ 0 → (s.tu p).mpds = [] → (s.tu p).asymNew = none →
    let t₄ := (s.tu p).part.time.now + dt
    let t₂ := fieldAt x.payload 8 8 * 65536 + fieldAt x.payload 6 2
    let t₃ := fieldAt x.payload 16 8 * 65536 + fieldAt x.payload 24 2
    let fwd := toInt 80 (ofInt 80 ((t₄ : Int) - t₃))
    let back := toInt 80 (ofInt 80 ((t₂ : Int) - t₁))
    let off := (fwd - back) * 1000 - (s.tu p).asym * 65536
    TuNext (.tosTrspRx dt p x) s p fun t =>
      t.part.time.servo = .acquiring ∧ t.part.time.stepEpoch = fieldAt x.payload 4 2 % 65536 ∧
      t.part.time.now = ((t₄ : Int) - off / 2000).toNat ∧ t.treq = none ∧ t.bad = 0 ∧ t.mpds = [back + fwd] ∧
      t.part.time.gm = BitVec.ofNat 64 (fieldAt x.payload 32 8)) ∧
  (∀ (s : State) (dt : Nat) (p : Port) (seq t₁ : Nat), (s.tu p).treq = some (seq, t₁) → t₁ + 20000 * 65536 ≤ (s.tu
   p).part.time.now + dt → (s.tu p).bad < 7 →
    TuNext (.trspTimeout dt p) s p fun t => t = { (s.tu p).tick dt with treq := none, bad := (s.tu p).bad + 1 }) ∧
  (∀ (s : State) (dt : Nat) (p : Port) (seq t₁ : Nat), (s.tu p).treq = some (seq, t₁) → t₁ + 20000 * 65536 ≤ (s.tu
   p).part.time.now + dt → 7 ≤ (s.tu p).bad → (s.tu p).part.time.servo = .locked →
    TuNext (.trspTimeout dt p) s p fun t => t.part.time.servo = .holdover ∧ t.mpds = [] ∧ t.treq = none)

/-- R32, R33: a PTP message that R33 discards raises the count of its type and nothing else. A two-step Sync of the slave
port's master is held with its receive stamp. A port that loses its master is no longer SLAVE and hears none. Conventions
of the model itself that this rests on: logs 1, 21. -/
def Obligations.PtpPorts : Prop :=
  (∀ (s : State) (dt : Nat) (q : Fin 2) (m : PtpMsg), s.fy.ptpBad m = true →
    FyNext (.ptpMessageRx dt q m) s fun f =>
      f = (s.fy.tick dt).bump (0x1250 + q.val) (if m.typeRead then m.mtype.toNat + 1 else 0x11) 1) ∧
  (∀ (s : State) (dt : Nat) (q : Fin 2) (m : PtpMsg), s.fy.ptpBad m = false → m.mtype = 0 → m.twoStep = true →
   s.fy.fromMaster q.val m = true →
    FyNext (.ptpMessageRx dt q m) s fun f =>
      f = (s.fy.tick dt).setOob q.val
        { s.fy.oob q.val with sync := some (m.seq.toNat, s.fy.part.time.now + dt, m.correction) }) ∧
  (∀ (s : State) (dt : Nat) (q : Fin 2), (s.fy.oob q.val).st = .slave →
    FyNext (.announceTimeout dt q) s fun f => (f.oob q.val).st ≠ .slave ∧ (f.oob q.val).foreign = none)

/-- R45, R27, R31, R49, R50, R52, R56: a step is authorised at OPERATE, with the serial of the pending step, and only in
STEP_PENDING: the write takes effect with answer 0. Below OPERATE the answer is LEVEL; out of STEP_PENDING it is STATE; a
serial behind the pending one is STALE_SERIAL, one ahead of it is refused too; in each of these nothing else changes. At a
TU as at Fyster. What the passing of time itself brings. At a whole second a LOCKED node sends its pulse, if it is enabled,
and its periodic TR_TIME; at a rollover of TS64 it sends TR_TIME ROLLOVER; nothing but reporting changes. An instant of an
armed group's grid fires once. Under LOCAL a stable reference locks the time unit without moving it, under Fyster's own
identity. Conventions of the model itself that this rests on: logs 1, 18, 26. -/
def Obligations.StepsAndTicks : Prop :=
  (∀ (s : State) (dt : Nat) (lvl : Level) (n : BitVec 32), 1 ≤ Level.rank lvl → s.fy.part.time.servo = .stepPending →
   s.fy.part.time.pendingSerial = n.toNat →
    let f₀ := s.fy.tick dt
    FyNext (.stepAuthorise dt lvl n) s fun f =>
      f = { f₀ with part := { f₀.part with time := { f₀.part.time with authorised := true } }, out := .answer 0 :: f₀.out }) ∧
  (∀ (s : State) (dt : Nat) (lvl : Level) (n : BitVec 32), Level.rank lvl < 1 ∨ s.fy.part.time.servo ≠ .stepPending ∨
   s.fy.part.time.pendingSerial ≠ n.toNat →
    let a := if Level.rank lvl < 1 then 5 else if s.fy.part.time.servo ≠ .stepPending then 0x27
      else if n.toNat < s.fy.part.time.pendingSerial then 0x2A else 0x2D
    FyNext (.stepAuthorise dt lvl n) s fun f => f = (s.fy.tick dt).emit (.answer a)) ∧
  (∀ (s : State) (dt : Nat) (p : Port) (lvl : Level) (n : BitVec 32), 1 ≤ Level.rank lvl → (s.tu p).part.time.servo =
   .stepPending → (s.tu p).part.time.pendingSerial = n.toNat →
    let t₀ := (s.tu p).tick dt
    TuNext (.tuStepAuthorise dt p lvl n) s p fun t =>
      t = { t₀ with part := { t₀.part with time := { t₀.part.time with authorised := true } }, out := .answer 0 :: t₀.out }) ∧
  (∀ (s : State) (dt : Nat) (p : Port) (lvl : Level) (n : BitVec 32), Level.rank lvl < 1 ∨ (s.tu p).part.time.servo ≠
   .stepPending ∨ (s.tu p).part.time.pendingSerial ≠ n.toNat →
    let a := if Level.rank lvl < 1 then 5 else if (s.tu p).part.time.servo ≠ .stepPending then 0x27
      else if n.toNat < (s.tu p).part.time.pendingSerial then 0x2A else 0x2D
    TuNext (.tuStepAuthorise dt p lvl n) s p fun t => t = ((s.tu p).tick dt).emit (.answer a)) ∧
  (∀ (s : State) (dt : Nat) (p : Port), ((s.tu p).tick dt).part.time.atSecond = true → (s.tu p).part.time.servo = .locked →
    let t₀ := (s.tu p).tick dt
    let t₁ := if t₀.part.flag 0x2E00 5 then t₀.emit .pulse else t₀
    TuNext (.timeSecondTick dt (.tu p)) s p fun t =>
      t = t₁.timeRec 1 (offsetPs t₀.part.time.offset2) 0xFF false false ∧ t.bare = t₀.bare) ∧
  (∀ (s : State) (dt : Nat), (s.fy.tick dt).part.time.atSecond = true → s.fy.part.time.servo = .locked →
    let f₀ := s.fy.tick dt
    let f₁ := if f₀.part.flag 0x1173 1 then f₀.emit .pulse else f₀
    FyNext (.timeSecondTick dt .fyster) s fun f =>
      f = f₁.timeRec 1 (f₀.slave.getD 0) (offsetPs f₀.part.time.offset2) 0xFF false false ∧ f.bare = f₀.bare) ∧
  (∀ (s : State) (dt : Nat) (p : Port), ((s.tu p).tick dt).part.time.atRollover = true →
    TuNext (.ts64Rollover dt (.tu p)) s p fun t =>
      t = ((s.tu p).tick dt).timeRec 9 0 0xFF false false ∧ t.bare = ((s.tu p).tick dt).bare) ∧
  (∀ (s : State) (dt : Nat), (s.fy.tick dt).part.time.atRollover = true →
    FyNext (.ts64Rollover dt .fyster) s fun f =>
      f = (s.fy.tick dt).timeRec 9 (s.fy.slave.getD 0) 0 0xFF false false ∧ f.bare = (s.fy.tick dt).bare) ∧
  (∀ (s : State) (dt : Nat) (p : Port) (g : GSlot) (x : TGroup), tfind (s.tu p).groups g.val = some x → x.state = 3 ∨
   x.state = 5 → (s.tu p).part.time.everLocked = true → onGrid x.period x.phase ((s.tu p).tick dt).ns = true → x.fired.getD
   0 < ((s.tu p).tick dt).ns →
    TuNext (.gridInstant dt p g) s p fun t =>
      t = { (s.tu p).tick dt with
        groups := tset (s.tu p).groups g.val { x with fired := some ((s.tu p).tick dt).ns } }) ∧
  (∀ (s : State) (dt : Nat), s.fy.rd 0x1210 1 = 3 → s.fy.part.time.servo ≠ .locked →
    FyNext (.localReferenceStable dt) s fun f =>
      f.part.time.servo = .locked ∧ f.part.time.everLocked = true ∧ f.part.time.gm = Config.clockIdentity ∧
      f.part.time.now = s.fy.part.time.now + dt ∧ f.part.time.stepEpoch = s.fy.part.time.stepEpoch)

/-! ### Event counters and the sampler -/

/-- R90, R91, R95, R97: an increment beat that carries no marker adds each lane to the counter of the tile that selects it,
with the saturation of R95. A legal selection word takes effect, and resets the counter when source or PERCMD changes or
bit 16 is set. A write of the present selection with bit 16 is a reset alone. CNT_RESET_ALL clears every counter's value
and saturation and leaves the configuration. Conventions of the model itself that this rests on: logs 1, 13, 25, 26. -/
def Obligations.CounterCommands : Prop :=
  (∀ (s : State) (dt : Nat) (p : Port) (k : Fin 72) (i : Fin 32) (b : IncBeat), b.dstart = false → b.full = none → ((s.tu
   p).cnt (32 * k.val + i.val)).source ≠ 0 → ((s.tu p).cnt (32 * k.val + i.val)).percmd = false → ((s.tu p).cnt (32 * k.val
   + i.val)).isNs (32 * k.val + i.val) = false → ((s.tu p).cnt (32 * k.val + i.val)).val ≤ max64 →
    TuNext (.tapIncBeat dt p (.tile k) b) s p fun t =>
      t.cnt (32 * k.val + i.val) = ((s.tu p).cnt (32 * k.val + i.val)).add (b.lanes.getD i.val 0).toNat ∧
      t.units = (s.tu p).units ∧ t.mace = (s.tu p).mace ∧ t.link = (s.tu p).link) ∧
  (∀ (s : State) (dt : Nat) (p : Port) (lvl : Level) (c : Fin 2816) (v : BitVec 32), 1 ≤ Level.rank lvl → sourceOk c.val
   (bitsOf v.toNat 0 10) = true → bitOf v.toNat 10 = false ∨ hasBank c.val = true →
    let src := bitsOf v.toNat 0 10
    let per := bitOf v.toNat 10
    let t₀ := (s.tu p).tick dt
    let x := (t₀.cnt c.val).settle t₀.ns
    let y := if src ≠ x.source ∨ per ≠ x.percmd ∨ bitOf v.toNat 16 = true
      then { x with val := 0, sat := false, resets := x.resets + 1 } else x
    TuNext (.cntSelWrite dt p lvl c v) s p fun t =>
      t = (t₀.setCnt c.val { y with source := src, percmd := per, level := if src = x.source then y.level else false }).emit
        (.answer 0)) ∧
  (∀ (s : State) (dt : Nat) (p : Port) (lvl : Level) (c : Fin 2816) (v : BitVec 32), 1 ≤ Level.rank lvl → sourceOk c.val
   (bitsOf v.toNat 0 10) = true → bitOf v.toNat 10 = false ∨ hasBank c.val = true → bitsOf v.toNat 0 10 = ((s.tu p).cnt
   c.val).source → bitOf v.toNat 10 = ((s.tu p).cnt c.val).percmd → bitOf v.toNat 16 = true →
    TuNext (.counterReset dt p lvl c v) s p fun t =>
      (t.cnt c.val).val = 0 ∧ (t.cnt c.val).sat = false ∧ (t.cnt c.val).resets = ((s.tu p).cnt c.val).resets + 1 ∧
      (t.cnt c.val).source = ((s.tu p).cnt c.val).source ∧ (t.cnt c.val).percmd = ((s.tu p).cnt c.val).percmd ∧
      t = (((s.tu p).tick dt).setCnt c.val (t.cnt c.val)).emit (.answer 0)) ∧
  (∀ (s : State) (dt : Nat) (p : Port) (lvl : Level), 1 ≤ Level.rank lvl →
    let t₀ := (s.tu p).tick dt
    TuNext (.cntResetAll dt p lvl 1) s p fun t =>
      t = { t₀ with cntEpoch := t₀.cntEpoch + 1, out := .answer 0 :: t₀.out,
                    cnts := t₀.cnts.map fun e => (e.1, { e.2.settle t₀.ns with val := 0, sat := false }) })

/-- R103 to R105, R112, R113: what the registers of a sample set take, and what an instant of its grid does. A legal SET_LIST
empties the baselines and makes the next sample FIRST; a legal period or phase takes effect while the set is disabled;
enabling a set with a list starts it afresh; a zoom period that divides the base period takes effect, and a pin that
changes is logged. At an instant of its grid a RUNNING set is sampled once. Conventions of the model itself that this rests
on: logs 1, 26. -/
def Obligations.SampleSetCommands : Prop :=
  (∀ (s : State) (dt : Nat) (p : Port) (lvl : Level) (k : Fin 16) (v : List Byte), 1 ≤ Level.rank lvl → v.length ≤ 512 →
   v.length % 2 = 0 → distinct (u16s (v.length / 2) v) = true → ((u16s (v.length / 2) v).all fun c => decide (c ≤ 2815)) =
   true → ((s.tu p).set k.val).enable = false → sumBy (fun e => if e.1 = k.val then 0 else e.2.list.length) (s.tu p).sets +
   (u16s (v.length / 2) v).length ≤ 2048 →
    TuNext (.setListWrite dt p lvl k v) s p fun t =>
      t = (((s.tu p).tick dt).setSet k.val
        { (s.tu p).set k.val with list := u16s (v.length / 2) v, base := [], first := true }).emit (.answer 0)) ∧
  (∀ (s : State) (dt : Nat) (p : Port) (lvl : Level) (k : Fin 16) (v : Word), 1 ≤ Level.rank lvl → v.toNat % 1000 = 0 →
   1000 ≤ v.toNat → v.toNat ≤ 10000000000 → ((s.tu p).set k.val).enable = false →
    TuNext (.setGridWrite dt p lvl k false v) s p fun t =>
      t = (((s.tu p).tick dt).setSet k.val { (s.tu p).set k.val with period := v.toNat }).emit (.answer 0)) ∧
  (∀ (s : State) (dt : Nat) (p : Port) (lvl : Level) (k : Fin 16) (v : Word), 1 ≤ Level.rank lvl → v.toNat % 1000 = 0 →
   v.toNat < 10000000000 → ((s.tu p).set k.val).enable = false →
    TuNext (.setGridWrite dt p lvl k true v) s p fun t =>
      t = (((s.tu p).tick dt).setSet k.val { (s.tu p).set k.val with phase := v.toNat }).emit (.answer 0)) ∧
  (∀ (s : State) (dt : Nat) (p : Port) (lvl : Level) (k : Fin 16) (v : BitVec 32), 1 ≤ Level.rank lvl → bitOf v.toNat 0 =
   true → bitOf v.toNat 1 = false → bitsOf v.toNat 8 8 < 64 ∨ bitsOf v.toNat 8 8 = 255 → ((s.tu p).set k.val).phase <
   ((s.tu p).set k.val).period → ((s.tu p).set k.val).enable = false → ((s.tu p).set k.val).list ≠ [] →
    TuNext (.setCtrlWrite dt p lvl k v) s p fun t =>
      t = (((s.tu p).tick dt).setSet k.val { (s.tu p).set k.val with
        enable := true, follow := false, gslot := bitsOf v.toNat 8 8, first := true, base := [], fired := none,
        step := false }).emit (.answer 0)) ∧
  (∀ (s : State) (dt : Nat) (p : Port) (lvl : Level) (k : Fin 16) (v : Word), 1 ≤ Level.rank lvl → v.toNat = 0 ∨ zoomOk
   v.toNat ((s.tu p).baseGrid ((s.tu p).set k.val)).1 = true →
    TuNext (.zoomPinWrite dt p lvl k true v) s p fun t =>
      t = (((s.tu p).tick dt).setSet k.val { (s.tu p).set k.val with pinZ := v.toNat }).emit (.answer 0)) ∧
  (∀ (s : State) (dt : Nat) (p : Port) (lvl : Level) (k : Fin 16), 1 ≤ Level.rank lvl → ((s.tu p).set k.val).pin = false →
    TuNext (.zoomPinWrite dt p lvl k false 1) s p fun t =>
      t = ((((s.tu p).tick dt).setSet k.val { (s.tu p).set k.val with pin := true }).zoomState k.val false).emit (.answer 0) ∧
      t.bare = (((s.tu p).tick dt).setSet k.val { (s.tu p).set k.val with pin := true }).bare) ∧
  (∀ (s : State) (dt : Nat) (p : Port) (k : Fin 16) (sw : Bool), (s.tu p).setRunning ((s.tu p).set k.val) = true → onGrid
   ((s.tu p).baseGrid ((s.tu p).set k.val)).1 ((s.tu p).baseGrid ((s.tu p).set k.val)).2 ((s.tu p).tick dt).ns = true →
   ((s.tu p).set k.val).fired.getD 0 < ((s.tu p).tick dt).ns → ((s.tu p).set k.val).wanted ((s.tu p).baseGrid ((s.tu p).set
   k.val)).1 = ((s.tu p).set k.val).zoom →
    let t₀ := (s.tu p).tick dt
    TuNext (.setGridInstant dt p k sw) s p fun t =>
      t = (t₀.setSet k.val { t₀.set k.val with fired := some t₀.ns }).sample k.val false sw ∧
      (t.set k.val).fired = some t₀.ns ∧ (t.set k.val).list = ((s.tu p).set k.val).list ∧ t.units = (s.tu p).units)

/-! ### Launches, work items and phases -/

/-- R117 to R123, R132: a launch is bound to its graph version. An OPEN takes the lowest free slot. BEGIN counts and opens the
entry of its code, END adds the time since the BEGIN to BUSY. CLOSE frees the slot and counts the record. DISPATCH queues
the descriptor at its unit. The end of the launch unbinds it. Conventions of the model itself that this rests on: logs 1,
13, 24. -/
def Obligations.PhaseCommands : Prop :=
  (∀ (s : State) (dt : Nat) (p : Port) (g : BitVec 32) (ver : BitVec 16) (l : Word) (pers : Bool), (s.tu p).part.flag
   0x2940 1 = false →
    let t₀ := (s.tu p).tick dt
    let flags := if (t₀.nameTab g.toNat ver.toNat).isSome then 0 else if 4 ≤ (t₀.boundVersions g.toNat).length then 1 else 2
    TuNext (.cpLaunchStart dt p g ver l pers) s p fun t =>
      t = { t₀ with binds := (t₀.binds.filter fun b => b.launch != l.toNat) ++
        [{ launch := l.toNat, graph := g.toNat, ver := ver.toNat, persistent := pers, flags := flags,
           ordinal := tget t₀.mace.ordinals g.toNat 0 }] }) ∧
  (∀ (s : State) (dt : Nat) (p : Port) (l : Word) (b : Binding), (s.tu p).binding l.toNat = some b → ((s.tu p).newest.find?
   fun n => n.1 == b.graph) = some (b.graph, b.ver) → ((s.tu p).units.filter fun u => u.2.launches.contains l.toNat) = [] →
    TuNext (.cpLaunchEnd dt p l) s p fun t =>
      t = { (s.tu p).tick dt with binds := (s.tu p).binds.filter fun x => x.launch != l.toNat }) ∧
  (∀ (s : State) (dt : Nat) (p : Port) (o : OpenEv) (k : Nat), (s.tu p).part.flag 0x2600 1 = true → o.unit.toNat < 4 →
   (s.tu p).slotOf o.launch.toNat o.tag.toNat = none → (s.tu p).freeSlot = some k →
    let t₀ := (s.tu p).tick dt
    let t₁ := { t₀ with slots := tset t₀.slots k (some (t₀.newItem o)) }
    TuNext (.cpOpen dt p o) s p fun t => t = t₁.wr 0x2600 4 (max (t₁.rd 0x2600 4) t₁.openSlots.length)) ∧
  (∀ (s : State) (dt : Nat) (p : Port) (l : Word) (tag : BitVec 32) (code : Byte) (k : Nat) (x : PhSlot), (s.tu
   p).part.flag 0x2600 1 = true → phaseOk code.toNat = true → (s.tu p).slotOf l.toNat tag.toNat = some (k, x) → (x.entry
   code.toNat).isOpen = false →
    let t₀ := (s.tu p).tick dt
    let e := x.entry code.toNat
    TuNext (.cpBegin dt p l tag code) s p fun t =>
      t = { t₀ with slots := tset t₀.slots k (some { x.setEntry
        { e with count := e.count + 1, start := some (e.start.getD t₀.ns), isOpen := true, since := t₀.ns } with
        lastCode := code.toNat }) }) ∧
  (∀ (s : State) (dt : Nat) (p : Port) (l : Word) (tag : BitVec 32) (code : Byte) (k : Nat) (x : PhSlot), (s.tu
   p).part.flag 0x2600 1 = true → phaseOk code.toNat = true → (s.tu p).slotOf l.toNat tag.toNat = some (k, x) → (x.entry
   code.toNat).isOpen = true →
    let t₀ := (s.tu p).tick dt
    let e := x.entry code.toNat
    TuNext (.cpEnd dt p l tag code) s p fun t =>
      t = { t₀ with slots := tset t₀.slots k (some (x.setEntry
        { e with busy := e.busy + (t₀.ns - e.since), ended := some t₀.ns, isOpen := false })) }) ∧
  (∀ (s : State) (dt : Nat) (p : Port) (l : Word) (tag : BitVec 32) (k : Nat) (x : PhSlot), (s.tu p).part.flag 0x2600 1 =
   true → (s.tu p).slotOf l.toNat tag.toNat = some (k, x) →
    let t₀ := (s.tu p).tick dt
    TuNext (.cpClose dt p l tag) s p fun t =>
      t.slots = tset (s.tu p).slots k none ∧ t.rd 0x2600 8 = raised 0x2600 8 ((s.tu p).rd 0x2600 8) 1 ∧
      t.bareBut [objKey 0x2600 8] = { t₀ with slots := tset t₀.slots k none }.bareBut [objKey 0x2600 8]) ∧
  (∀ (s : State) (dt : Nat) (p : Port) (d : DispatchEv) (u : Nat), dispatchUnit d.unit.toNat = some u →
    let t₀ := (s.tu p).tick dt
    TuNext (.cpDispatch dt p d) s p fun t =>
      t = { t₀.setUnit u { t₀.unit u with waiting := (t₀.unit u).waiting ++
          [{ graph := d.graph.toNat, ver := d.ver.toNat, node := d.node.toNat, launch := d.launch.toNat }] } with
        frz := { t₀.frz with awaiting := t₀.frz.awaiting + 1,
                             progress := if t₀.frz.awaiting = 0 then t₀.ns else t₀.frz.progress } })

/-- R125, R133, R138: a slot that reaches its next threshold crossing is reported and the next crossing is twice as far.
Clearing PHASE_ENABLE closes the open slots as abandoned; setting it takes effect. A name table of a graph that has none is
loaded whole and becomes the graph's newest. Conventions of the model itself that this rests on: logs 1, 13, 24, 26. -/
def Obligations.LongPhasesAndNames : Prop :=
  (∀ (s : State) (dt : Nat) (p : Port) (k : Fin 64) (x : PhSlot), (s.tu p).slot k.val = some x → x.opened + x.mult * (s.tu
   p).rd 0x2600 2 ≤ ((s.tu p).tick dt).ns →
    let t₀ := (s.tu p).tick dt
    let y := some { x with mult := 2 * x.mult, emitN := min (x.emitN + 1) 255 }
    TuNext (.longPhaseCrossing dt p k) s p fun t =>
      t.slots = tset (s.tu p).slots k.val y ∧ t.rd 0x2600 9 = raised 0x2600 9 ((s.tu p).rd 0x2600 9) 1 ∧
      t.bareBut [objKey 0x2600 9] = { t₀ with slots := tset t₀.slots k.val y }.bareBut [objKey 0x2600 9]) ∧
  (∀ (s : State) (dt : Nat) (p : Port) (lvl : Level), 1 ≤ Level.rank lvl →
    TuNext (.phaseEnableWrite dt p lvl 1) s p fun t => t = (((s.tu p).tick dt).wr 0x2600 1 1).emit (.answer 0)) ∧
  (∀ (s : State) (dt : Nat) (p : Port) (lvl : Level), 1 ≤ Level.rank lvl →
    TuNext (.phaseEnableWrite dt p lvl 0) s p fun t =>
      t = (((s.tu p).tick dt).abandonSlots.wr 0x2600 1 0).emit (.answer 0) ∧ t.part.flag 0x2600 1 = false ∧
      t.binds = (s.tu p).binds ∧ t.names = (s.tu p).names) ∧
  (∀ (s : State) (dt : Nat) (p : Port) (lvl : Level) (v : List Byte), 1 ≤ Level.rank lvl → v.length = 16 + 8 * fieldAt v 6
   2 → 1 ≤ fieldAt v 6 2 → fieldAt v 6 2 ≤ 4096 → ((nameEntries (fieldAt v 6 2) (v.drop 16)).all fun e => e.2 != 0) = true
   → distinct ((nameEntries (fieldAt v 6 2) (v.drop 16)).map Prod.fst) = true → ((s.tu p).names.filter fun x => x.graph ==
   fieldAt v 0 4) = [] → (s.tu p).names.length < 64 → sumBy (fun x => x.names.length) (s.tu p).names + fieldAt v 6 2 ≤
   16384 →
    let t₀ := (s.tu p).tick dt
    TuNext (.nameTableLoad dt p lvl v) s p fun t =>
      t = { t₀ with
        newest := (t₀.newest.filter fun x => x.1 != fieldAt v 0 4) ++ [(fieldAt v 0 4, fieldAt v 4 2)]
        names := t₀.names ++ [{ graph := fieldAt v 0 4, ver := fieldAt v 4 2,
                                age := 1 + t₀.names.foldl (fun m x => max m x.age) 0,
                                names := nameEntries (fieldAt v 6 2) (v.drop 16) }]
        out := .answer 0 :: t₀.out })

/-! ### Control-flow trace -/

/-- R142, R144, R146, R148, R448: what the beats of a trace tap do at a source that is caught up (no SYNC and no OVERFLOW waits
for an address). Outcomes of a COND beat join the pending ones in FULL mode. An INDIRECT beat writes the target as a
difference to the last one and becomes the base. PROGRESS gives the next address. A power notice takes the domain down and
its address away; WAKE brings it back with the address of the beat; DPC_DOWN does the same without one. The flush timer
closes an open record. Conventions of the model itself that this rests on: logs 1, 27, 32. -/
def Obligations.TraceBeats : Prop :=
  (∀ (s : State) (dt : Nat) (p : Port) (i : Fin 73) (b : TraceBeat), b.lost = false → 1 ≤ b.nout.toNat → ((s.tu p).enc
   i.val).down = none → ((s.tu p).enc i.val).inForce = 2 → ((s.tu p).enc i.val).addr ≠ none → ((s.tu p).enc i.val).due =
   none → ((s.tu p).enc i.val).lost = none → ((s.tu p).enc i.val).outcomes.length + b.nout.toNat < 6 → ((s.tu p).enc
   i.val).sinceSync + (tsBytes ((s.tu p).tick dt).ns false ((s.tu p).enc i.val)).length < 4096 →
    TuNext (.traceCondBeat dt p i b) s p fun t =>
      t = ((s.tu p).tick dt).setEnc i.val { (s.tu p).enc i.val with
        outcomes := ((s.tu p).enc i.val).outcomes ++ beatOuts b, addr := some (beatAddr i.val b) }) ∧
  (∀ (s : State) (dt : Nat) (p : Port) (i : Fin 73) (b : TraceBeat) (c : TrOpen), b.lost = false → ((s.tu p).enc
   i.val).down = none → ((s.tu p).enc i.val).inForce ≠ 0 → ((s.tu p).enc i.val).addr ≠ none → ((s.tu p).enc i.val).due =
   none → ((s.tu p).enc i.val).lost = none → ((s.tu p).enc i.val).outcomes = [] → ((s.tu p).enc i.val).tsInt = 0 → ((s.tu
   p).enc i.val).sinceSync < 4096 → ((s.tu p).enc i.val).cur = some c → c.bytes.length ≤ 1980 →
    let a := beatAddr i.val b
    TuNext (.traceIndirectBeat dt p i b) s p fun t =>
      (t.enc i.val).cur = some { c with
        last := ((s.tu p).tick dt).ns, bytes := c.bytes ++ 2 :: zigzag ((a : Int) - ((s.tu p).enc i.val).ibase) } ∧
      (t.enc i.val).ibase = a ∧ (t.enc i.val).addr = some a ∧ { t with encs := (s.tu p).encs } = (s.tu p).tick dt) ∧
  (∀ (s : State) (dt : Nat) (p : Port) (i : Fin 73) (b : TraceBeat), b.lost = false → ((s.tu p).enc i.val).down = none →
   ((s.tu p).enc i.val).due = none → ((s.tu p).enc i.val).lost = none →
    TuNext (.traceProgressBeat dt p i b) s p fun t =>
      t = ((s.tu p).tick dt).setEnc i.val { (s.tu p).enc i.val with addr := some (beatAddr i.val b) }) ∧
  (∀ (s : State) (dt : Nat) (p : Port) (i : Fin 73) (b : TraceBeat), b.lost = false → b.state.toNat ≠ 0 → ((s.tu p).enc
   i.val).down = none → ((s.tu p).enc i.val).inForce ≠ 0 → ((s.tu p).enc i.val).addr ≠ none → ((s.tu p).enc i.val).due =
   none → ((s.tu p).enc i.val).lost = none →
    TuNext (.tracePwrNotice dt p i b) s p fun t =>
      (t.enc i.val).down = some (b.state.toNat, true) ∧ (t.enc i.val).addr = none ∧ (t.enc i.val).cur = none) ∧
  (∀ (s : State) (dt : Nat) (p : Port) (i : Fin 73) (b : TraceBeat), b.lost = false → ((s.tu p).enc i.val).down ≠ none →
    TuNext (.traceWake dt p i b) s p fun t =>
      (t.enc i.val).down = none ∧ (t.enc i.val).addr = some (beatAddr i.val b) ∧ t.dpcDown = (s.tu p).dpcDown) ∧
  (∀ (s : State) (dt : Nat) (p : Port) (i : Fin 74), i.val < 73 → i.val ∉ (s.tu p).dpcDown → ((s.tu p).enc i.val).down =
   none →
    TuNext (.dpcDownRise dt p i) s p fun t =>
      t.dpcDown = (s.tu p).dpcDown ++ [i.val] ∧ (t.enc i.val).addr = none ∧ (t.enc i.val).down.map Prod.fst = some 0) ∧
  (∀ (s : State) (dt : Nat) (p : Port) (i : Fin 74), i.val < 73 → i.val ∈ (s.tu p).dpcDown →
    TuNext (.dpcDownFall dt p i) s p fun t =>
      t.dpcDown = (s.tu p).dpcDown.filter (· != i.val) ∧ (t.enc i.val).down = none) ∧
  (∀ (s : State) (dt : Nat) (p : Port) (i : Fin 73) (c : TrOpen), ((s.tu p).enc i.val).cur = some c → c.opened + 1000 *
   (s.tu p).rd 0x2760 5 ≤ ((s.tu p).tick dt).ns →
    TuNext (.traceFlushTimer dt p i) s p fun t => (t.enc i.val).cur = none ∧ t.rings = (s.tu p).rings ∧ t.frz = (s.tu p).frz)

/-- R139, R145, R147, R439: the registers of trace. A mode of the command processor, or OFF and INDIRECT of a tile, comes into
force at once. A legal timestamp interval takes effect. A write of the window's base or size, while the window has no base
and holds nothing, takes effect and empties the window. A good answer of the NoC takes the oldest write off the list; an
error answer, or none within 10 µs, marks the window in error. Conventions of the model itself that this rests on: logs 1,
26, 27. -/
def Obligations.TraceRegisters : Prop :=
  (∀ (s : State) (dt : Nat) (p : Port) (lvl : Level) (i : Fin 73) (v : Byte), 1 ≤ Level.rank lvl → v.toNat ≤ 2 → i.val = 72
   ∨ v.toNat ≠ 2 →
    TuNext (.traceModeWrite dt p lvl i v) s p fun t =>
      (t.enc i.val).mode = v.toNat ∧ (t.enc i.val).inForce = v.toNat ∧ t.out.head? = some (.answer 0) ∧ t.rings = (s.tu p).rings) ∧
  (∀ (s : State) (dt : Nat) (p : Port) (lvl : Level) (i : Fin 73) (v : BitVec 32), 1 ≤ Level.rank lvl → v.toNat = 0 ∨ (100
   ≤ v.toNat ∧ v.toNat ≤ 1000000) →
    TuNext (.traceTsIntervalWrite dt p lvl i v) s p fun t =>
      t = (((s.tu p).tick dt).setEnc i.val { (s.tu p).enc i.val with tsInt := v.toNat }).emit (.answer 0)) ∧
  (∀ (s : State) (dt : Nat) (p : Port) (lvl : Level) (v : Word), 1 ≤ Level.rank lvl → v.toNat % 2097152 = 0 → (s.tu
   p).win.base = 0 → (s.tu p).win.recs = [] →
    let t₀ := (s.tu p).tick dt
    TuNext (.windowWrite dt p lvl false v) s p fun t =>
      t = { t₀ with win := { t₀.win with writePtr := 0, drainPtr := 0, base := v.toNat, error := false }, out := .answer 0 :: t₀.out }) ∧
  (∀ (s : State) (dt : Nat) (p : Port) (lvl : Level) (v : Word) (k : Fin 11), 1 ≤ Level.rank lvl → v.toNat = 16777216 * 2 ^
   k.val → (s.tu p).win.base = 0 → (s.tu p).win.recs = [] →
    let t₀ := (s.tu p).tick dt
    TuNext (.windowWrite dt p lvl true v) s p fun t =>
      t = { t₀ with win := { t₀.win with writePtr := 0, drainPtr := 0, size := v.toNat }, out := .answer 0 :: t₀.out }) ∧
  (∀ (s : State) (dt : Nat) (p : Port) (w : NocWr) (r : List NocWr), (s.tu p).win.noc = w :: r → (w :: r).all (fun x =>
   x.sent.isSome) = true → w.last = false →
    let t₀ := (s.tu p).tick dt
    TuNext (.nocMResponse dt p false) s p fun t => t = { t₀ with win := { t₀.win with noc := r } }) ∧
  (∀ (s : State) (dt : Nat) (p : Port) (w : NocWr) (r : List NocWr), (s.tu p).win.noc = w :: r → (w :: r).all (fun x =>
   x.sent.isSome) = true → w.last = false →
    let t₀ := (s.tu p).tick dt
    TuNext (.nocMResponse dt p true) s p fun t =>
      t.win = { (s.tu p).win with noc := r, error := true } ∧ t.bare = { t₀ with win := { t₀.win with noc := r, error := true } }.bare) ∧
  (∀ (s : State) (dt : Nat) (p : Port) (w : NocWr) (r : List NocWr) (at' : Nat), (s.tu p).win.noc = w :: r → w.sent = some
   at' → at' + 10000 * 65536 ≤ ((s.tu p).tick dt).part.time.now →
    TuNext (.nocResponseTimeout dt p) s p fun t => t.win.error = true ∧ t.win.base = (s.tu p).win.base)

/-! ### Last-events rings -/

/-- R151 to R157: a legal event of a tile's ring is written, over the oldest entry when the ring is full; while the rings are
frozen it is only counted. TICK is written into a silent ring. Each freeze trigger that is enabled freezes the rings with
its cause and instant; a further one is only counted. RESUME lets every ring go on with a RESUME entry that carries its
POST_FREEZE count. A readout that is admitted takes its ring off the list, one that is not comes again last, three times at
most. Conventions of the model itself that this rests on: logs 1, 26, 27. -/
def Obligations.RingCommands : Prop :=
  (∀ (s : State) (dt : Nat) (p : Port) (k : Fin 101) (b : RingBeat), k.val < 72 → ringCodeOk k.val b.code.toNat = true →
   b.code.toNat ≠ 0x0B → b.lost = false → (s.tu p).frz.frozen = none → ((s.tu p).ring k.val).lastWr.getD 0 + 4 * 65536 ≤
   (s.tu p).part.time.now + dt →
    let t₀ := (s.tu p).tick dt
    let r := t₀.ring k.val
    TuNext (.ringEventBeat dt p k b) s p fun t =>
      t = t₀.setRing k.val { r with
        ents := lastN 256 (r.ents ++ [ringEntry t₀.ts b.code.toNat r.gap b.arg16.toNat b.arg64.toNat])
        lastWr := some t₀.part.time.now, gap := false, gaps := if r.gap then min (r.gaps + 1) 0xFFFFFFFF else r.gaps }) ∧
  (∀ (s : State) (dt : Nat) (p : Port) (k : Fin 101) (b : RingBeat), k.val < 72 → ringCodeOk k.val b.code.toNat = true →
   b.lost = false → (s.tu p).frz.frozen ≠ none →
    let r := (s.tu p).ring k.val
    TuNext (.ringEventBeat dt p k b) s p fun t =>
      t = ((s.tu p).tick dt).setRing k.val { r with post := min (r.post + 1) 0xFFFFFFFF }) ∧
  (∀ (s : State) (dt : Nat) (p : Port) (k : Fin 101), (s.tu p).frz.frozen = none → ((s.tu p).ring k.val).lastWr.getD 0 + 2
   ^ 39 * 65536 ≤ (s.tu p).part.time.now + dt →
    let t₀ := (s.tu p).tick dt
    let r := t₀.ring k.val
    TuNext (.ringTick dt p k) s p fun t =>
      t = t₀.setRing k.val { r with
        ents := lastN (ringDepth k.val) (r.ents ++ [ringEntry t₀.ts 0x7F r.gap 0 0])
        lastWr := some t₀.part.time.now, gap := false, gaps := if r.gap then min (r.gaps + 1) 0xFFFFFFFF else r.gaps }) ∧
  (∀ (s : State) (dt : Nat) (p : Port), (s.tu p).part.flag 0x2770 8 = true → (s.tu p).frz.frozen = none →
    TuNext (.dieWdtRise dt p) s p fun t =>
      t.frz.frozen = some (1, ((s.tu p).tick dt).ts) ∧ t.frz.awaiting = (s.tu p).frz.awaiting ∧ t.mace = (s.tu p).mace) ∧
  (∀ (s : State) (dt : Nat) (p : Port), (s.tu p).part.flag 0x2770 8 = true → (s.tu p).frz.frozen ≠ none →
    TuNext (.dieWdtRise dt p) s p fun t => t = ((s.tu p).tick dt).bump 0x2770 0x0B 1) ∧
  (∀ (s : State) (dt : Nat) (p : Port), (s.tu p).rd 0x2770 6 ≠ 0 → 0 < (s.tu p).frz.awaiting → (s.tu p).frz.progress + 1000
   * (s.tu p).rd 0x2770 6 ≤ ((s.tu p).tick dt).ns → (s.tu p).frz.frozen = none →
    TuNext (.progressTimeout dt p) s p fun t => t.frz.frozen = some (2, ((s.tu p).tick dt).ts)) ∧
  (∀ (s : State) (dt : Nat) (p : Port) (lvl : Level), 1 ≤ Level.rank lvl → (s.tu p).frz.frozen = none →
    TuNext (.freeze dt p lvl 1) s p fun t =>
      t.frz.frozen = some (3, ((s.tu p).tick dt).ts) ∧ t.out.head? = some (.answer 0)) ∧
  (∀ (s : State) (dt : Nat) (p : Port) (lvl : Level) (c f : Nat) (k : Fin 101), 1 ≤ Level.rank lvl → (s.tu p).frz.frozen =
   some (c, f) → c ≠ 5 →
    let t₀ := (s.tu p).tick dt
    TuNext (.resume dt p lvl 1) s p fun t =>
      t.frz = { (s.tu p).frz with frozen := none, readout := [], progress := t₀.ns } ∧
      (t.ring k.val).ents.getLast? = some (ringEntry t₀.ts 0x7D (t₀.ring k.val).gap 0 (t₀.ring k.val).post) ∧
      { t with rings := t₀.rings, frz := t₀.frz } = t₀.emit (.answer 0)) ∧
  (∀ (s : State) (dt : Nat) (p : Port) (k n : Nat) (r : List (Nat × Nat)), (s.tu p).frz.readout = (k, n) :: r → (((s.tu
   p).tick dt).charge 4 (40000 + 1500 * ((s.tu p).ring k).ents.length) true).2 = 0 →
    TuNext (.ringReadoutPeriod dt p) s p fun t =>
      t.frz = { (s.tu p).frz with readout := r } ∧ t.rings = (s.tu p).rings) ∧
  (∀ (s : State) (dt : Nat) (p : Port) (k n : Nat) (r : List (Nat × Nat)), (s.tu p).frz.readout = (k, n) :: r → (((s.tu
   p).tick dt).charge 4 (40000 + 1500 * ((s.tu p).ring k).ents.length) true).2 ≠ 0 →
    TuNext (.ringReadoutPeriod dt p) s p fun t =>
      t.frz = { (s.tu p).frz with readout := if n < 2 then r ++ [(k, n + 1)] else r } ∧ t.rings = (s.tu p).rings)

/-! ### Mace -/

/-- R159, R164 to R166, R168, R181: a check record that is admitted waits in the intake while every lane is busy, and a free
lane takes it at once. A PASS counts once, enters the tile's statistics and frees the lane. A FAIL counts and gets a taint
notice with the next serial. A lane that fails its self-test leaves service for good. The statistics go out and start anew
at the end of a period. Legal values of GATE_ENABLE and MACE_ENABLE take effect. Conventions of the model itself that this
rests on: logs 1, 13, 26, 29, 34. -/
def Obligations.MaceChecks : Prop :=
  (∀ (s : State) (dt : Nat) (p : Port) (tile : Fin 72) (r : CheckRec), (s.tu p).part.flag 0x2900 1 = true → r.bufFull =
   false → (((s.tu p).tick dt).charge 3 25000 (decide ((s.tu p).mace.intake.length < 64))).2 = 0 → ((List.range 9).all fun
   k => !((s.tu p).mace.lane k).inService || ((s.tu p).mace.lane k).held.isSome) = true →
    TuNext (.checkRecord dt p tile r) s p fun t =>
      t.mace.intake = (s.tu p).mace.intake ++ [((s.tu p).tick dt).chkOf tile.val r.words] ∧
      tget t.mace.lastSeq tile.val 0 = (((s.tu p).tick dt).chkOf tile.val r.words).seq ∧ t.mace.lanes = (s.tu p).mace.lanes) ∧
  (∀ (s : State) (dt : Nat) (p : Port) (tile : Fin 72) (r : CheckRec), (s.tu p).part.flag 0x2900 1 = true → r.bufFull =
   false → (((s.tu p).tick dt).charge 3 25000 (decide ((s.tu p).mace.intake.length < 64))).2 = 0 → (s.tu p).mace.intake =
   [] → ((s.tu p).mace.lane 0).inService = true → ((s.tu p).mace.lane 0).held = none →
    TuNext (.checkRecord dt p tile r) s p fun t =>
      t.mace.intake = [] ∧ (t.mace.lane 0).held = some (((s.tu p).tick dt).chkOf tile.val r.words)) ∧
  (∀ (s : State) (dt : Nat) (p : Port) (k : Fin 9) (sig : Option TileSig) (c : Chk), ((s.tu p).mace.lane k.val).held = some
   c → c.malformed = false → c.saturated = false → c.replay = false → c.gated = false → foldVerdict ((s.tu p).folds c) =
   .pass → (s.tu p).part.flag 0x2940 1 = false → (s.tu p).mace.intake = [] → 8 ≤ (s.tu p).mace.inService →
    TuNext (.maceVerdict dt p k sig) s p fun t =>
      t.rd 0x2910 2 = raised 0x2910 2 ((s.tu p).rd 0x2910 2) 1 ∧ (t.mace.lane k.val).held = none ∧
      t.mace.hist = tmod (s.tu p).mace.hist c.tile .zero (fun x => x.add ((s.tu p).folds c) .pass) ∧
      t.mace.serial = (s.tu p).mace.serial ∧ t.mace.failHeld = (s.tu p).mace.failHeld ∧ t.out = (s.tu p).out) ∧
  (∀ (s : State) (dt : Nat) (p : Port) (k : Fin 9) (sig : Option TileSig) (c : Chk), ((s.tu p).mace.lane k.val).held = some
   c → c.malformed = false → c.saturated = false → c.replay = false → foldVerdict ((s.tu p).folds c) = .fail → (s.tu
   p).mace.queue.length < 64 → (s.tu p).rd 0x2900 4 = 0 →
    TuNext (.maceVerdict dt p k sig) s p fun t =>
      t.rd 0x2910 3 = raised 0x2910 3 ((s.tu p).rd 0x2910 3) 1 ∧ t.mace.serial = (s.tu p).mace.serial + 1 ∧
      t.mace.windows.map (·.t.serial) = (s.tu p).mace.windows.map (·.t.serial) ++ [(s.tu p).mace.serial + 1] ∧
      t.mace.replays = (s.tu p).mace.replays) ∧
  (∀ (s : State) (dt : Nat) (p : Port) (k : Fin 9), ((s.tu p).mace.lane k.val).inService = true →
    TuNext (.maceLaneSelftest dt p k false) s p fun t =>
      t.mace.lane k.val = { inService := false, retired := true, held := none }) ∧
  (∀ (s : State) (dt : Nat) (p : Port) (k : Fin 9),
    TuNext (.maceLaneSelftest dt p k true) s p fun t => t = (s.tu p).tick dt) ∧
  (∀ (s : State) (dt : Nat) (p : Port), ((s.tu p).tick dt).ts % (1000 * (s.tu p).rd 0x2900 3) = 0 →
    let t₀ := (s.tu p).tick dt
    TuNext (.histPeriodEnd dt p) s p fun t =>
      t.mace.hist = [] ∧ t.bare = { t₀ with mace := { t₀.mace with hist := [] } }.bare) ∧
  (∀ (s : State) (dt : Nat) (p : Port) (lvl : Level) (v : Byte), 1 ≤ Level.rank lvl → v.toNat ≤ 1 →
    TuNext (.gateEnableWrite dt p lvl v) s p fun t => t = (((s.tu p).tick dt).wr 0x2930 1 v.toNat).emit (.answer 0)) ∧
  (∀ (s : State) (dt : Nat) (p : Port) (lvl : Level) (v : Byte), 1 ≤ Level.rank lvl → v.toNat = 1 ∨ (v.toNat = 0 ∧ (s.tu
   p).part.flag 0x2930 1 = false) →
    TuNext (.maceEnableWrite dt p lvl v) s p fun t => t = (((s.tu p).tick dt).wr 0x2900 1 v.toNat).emit (.answer 0))

/-- R169, R171 to R175, R183: a waiting notice that is admitted leaves the queue and no longer holds the watermark. The FINAL
notice of a window is raised when it is due, and the window is forgotten. FAILs without a notice of their own get one RANGE
notice with the next serial. A re-send offers the notice of that serial again; a serial that the history does not hold is
answered UNKNOWN_ID. At a publication instant a LOCKED TU publishes the watermark, which never falls. A replay that is late
ends with outcome 5. R185, R187: SHADOW_ENABLE counts launches from 0 when it rises, and with it the run of a pair whose
candidate is this die begins anew at Fyster. Records whose partner has not come within 10 ms are unpaired. SHADOW_PAIRS
takes up to 16 pairs of dies of the tray. Conventions of the model itself that this rests on: logs 1, 26, 29, 34, 58, 81. -/
def Obligations.TaintWatermarkAndShadow : Prop :=
  (∀ (s : State) (dt : Nat) (p : Port) (x : Taint), (s.tu p).mace.queue = [x] → (((s.tu p).tick dt).offer 8 1 30000 [((s.tu
   p).tick dt).mkRec 0x08 0x0680 x.tile x.gslot x.tc x.pay]).2 = true →
    TuNext (.taintReoffer dt p) s p fun t =>
      t.mace.queue = [] ∧ t.mace.serial = (s.tu p).mace.serial ∧ t.mace.windows = (s.tu p).mace.windows ∧
      t.mace.failHeld = if x.kind = 2 then (s.tu p).mace.failHeld else (s.tu p).mace.failHeld.filter fun h => h.1 != x.serial) ∧
  (∀ (s : State) (dt : Nat) (p : Port) (n : BitVec 32) (w : OpenWin), ((s.tu p).mace.windows.find? fun w => w.t.serial ==
   n.toNat) = some w → w.due ≤ ((s.tu p).tick dt).ns → (s.tu p).mace.queue.length < 64 →
    TuNext (.taintFinal dt p n) s p fun t =>
      t.mace.windows = (s.tu p).mace.windows.filter (fun y => y.t.serial != n.toNat) ∧ t.mace.serial = (s.tu p).mace.serial) ∧
  (∀ (s : State) (dt : Nat) (p : Port) (tile : Fin 72) (r : RangeAcc), ((s.tu p).mace.ranges.find? fun r => r.tile ==
   tile.val) = some r → (s.tu p).mace.queue.length < 64 →
    TuNext (.taintRangeOffer dt p tile) s p fun t =>
      t.mace.ranges = (s.tu p).mace.ranges.filter (fun y => y.tile != tile.val) ∧ t.mace.serial = (s.tu p).mace.serial + 1) ∧
  (∀ (s : State) (dt : Nat) (p : Port) (lvl : Level) (n : BitVec 32) (r : Rec), 1 ≤ Level.rank lvl → ((s.tu
   p).mace.history.filter fun r => r.fld 672 32 == n.toNat).getLast? = some r → (s.tu p).mace.queue.length < 64 →
    let t₀ := (s.tu p).tick dt
    TuNext (.taintResend dt p lvl n) s p fun t =>
      t = (({ t₀ with mace := { t₀.mace with queue := t₀.mace.queue ++ [taintOfRec r] } }).offerTaint (taintOfRec r)).emit (.answer 0)) ∧
  (∀ (s : State) (dt : Nat) (p : Port) (lvl : Level) (n : BitVec 32), 1 ≤ Level.rank lvl → ((s.tu p).mace.history.filter
   fun r => r.fld 672 32 == n.toNat) = [] →
    TuNext (.taintResend dt p lvl n) s p fun t => t = ((s.tu p).tick dt).emit (.answer 0x2D)) ∧
  (∀ (s : State) (dt : Nat) (p : Port), ((s.tu p).tick dt).ts % 4000 = 0 → (s.tu p).part.time.servo = .locked → (s.tu
   p).link.st = .up →
    let t₀ := (s.tu p).tick dt
    TuNext (.watermarkPublish dt p) s p fun t =>
      t.mace = { (s.tu p).mace with
        w := (s.tu p).mace.watermark t₀.ns, wmkSeq := ((s.tu p).mace.wmkSeq + 1) % 65536, resetSeen := false } ∧
      (s.tu p).mace.w ≤ t.mace.w ∧ { t with mace := t₀.mace, out := t₀.out } = t₀) ∧
  (∀ (s : State) (dt : Nat) (p : Port) (n : BitVec 32) (r : Replay), ((s.tu p).mace.replays.find? fun r => r.ref ==
   n.toNat) = some r → r.at64 + 1000000 * (s.tu p).rd 0x2900 5 ≤ ((s.tu p).tick dt).ns →
    TuNext (.replayTimeoutExpiry dt p n) s p fun t =>
      t.mace = { (s.tu p).mace with replays := (s.tu p).mace.replays.filter fun x => x.ref != r.ref } ∧
      t.rd 0x2910 0x0D = raised 0x2910 0x0D ((s.tu p).rd 0x2910 0x0D) 1) ∧
  (∀ (s : State) (dt : Nat) (p : Port) (lvl : Level), 1 ≤ Level.rank lvl → (s.tu p).part.flag 0x2940 1 = false →
   s.fy.dec.shadows = [] →
    let t₀ := (s.tu p).tick dt
    TuNext (.shadowEnableWrite dt p lvl 1) s p fun t =>
      t = ({ t₀ with mace := { t₀.mace with ordinals := [] } }.wr 0x2940 1 1).emit (.answer 0)) ∧
  (∀ (s : State) (dt : Nat) (p : Port) (lvl : Level) (k : Nat) (x : ShadowPair), 1 ≤ Level.rank lvl → (s.tu p).part.flag
   0x2940 1 = false → s.fy.dec.shadows = [(k, x)] → dieMatch x.cand (s.fy.dieOf p.val) = true → x.running = false →
    ∃ t, exec (.shadowEnableWrite dt p lvl 1) s = .next t ∧ (t.tu p).part.flag 0x2940 1 = true ∧
      t.fy = { s.fy with dec := { s.fy.dec with shadows := [(k, shadowPair x.cand x.partner true)] } }) ∧
  (∀ (s : State) (dt : Nat) (k : Fin 16) (x : ShadowPair), tfind s.fy.dec.shadows k.val = some x →
    let f₀ := s.fy.tick dt
    let late (w : ShadowRec) : Bool := decide (w.since + 10000000 ≤ f₀.ns)
    FyNext (.shadowPairTimeout dt k) s fun f =>
      f = f₀.setShadow k.val { x with
        waiting := x.waiting.filter fun w => !late w, unpaired := x.unpaired + (x.waiting.filter late).length }) ∧
  (∀ (s : State) (dt : Nat) (lvl : Level) (v : List Byte), 1 ≤ Level.rank lvl → v.length % 8 = 0 → v.length ≤ 128 →
   ((pairsOf (v.length / 8) v).all fun x => (s.fy.portOfDie x.1).isSome && (s.fy.portOfDie x.2).isSome) = true →
   s.fy.dec.shadows = [] →
    let f₀ := s.fy.tick dt
    FyNext (.shadowPairsWrite dt lvl v) s fun f =>
      f = { f₀ with
        dec := { f₀.dec with shadows := (pairsOf (v.length / 8) v).zipIdx.map fun e =>
          (e.2, shadowPair e.1.1 e.1.2 (f₀.shadowOn s.tus e.1.1)) }
        out := .answer 0 :: f₀.out })

/-! ### Budgets, arbiter, shaper, gates and power -/

/-- R190 to R193, R197 to R204: a budget period clears the used budgets and brings the written ones and the speed ratios into
force. A legal budget write takes effect and clears the activity's mark in BUDGET_OVERSIZE. At a window start every credit
grows by its weight up to 64 KiB. A granted unit that finishes is delivered and the path is granted anew; the watchdog
counts and ends a hold of 100 µs; the debug port takes the path and hands back what it interrupted. The lowest eligible
class sends its frame, pays for it in credit and counts it. Conventions of the model itself that this rests on: logs 1, 9,
26, 28, 36. -/
def Obligations.ExportArbiter : Prop :=
  (∀ (s : State) (dt : Nat) (p : Port) (ratios : List Nat) (a : Fin 8), ((s.tu p).tick dt).ts % 1000 = 0 → a.val ≠ 6 →
    TuNext (.budgetPeriodStart dt p ratios) s p fun t =>
      t.used a.val = 0 ∧ t.budget a.val = (s.tu p).rd 0x2A00 (a.val + 1) ∧ t.ratio a.val = min 65536 (ratios.getD a.val 65536) ∧
      t.link = (s.tu p).link ∧ t.mace = (s.tu p).mace) ∧
  (∀ (s : State) (dt : Nat) (p : Port) (lvl : Level) (a : Fin 9) (v : BitVec 16), 1 ≤ Level.rank lvl → v.toNat ≤ 4000 →
   sumBy (fun i => if i = a.val then 0 else (s.tu p).rd 0x2A00 (i + 1)) (List.range 9) + v.toNat ≤ 8000 →
    let t₁ := ((s.tu p).tick dt).wr 0x2A00 (a.val + 1) v.toNat
    let t₂ := if a.val = 8 then t₁ else t₁.wr 0x2A00 0x0A (setBit (t₁.rd 0x2A00 0x0A) a.val false)
    TuNext (.budgetWrite dt p lvl a v) s p fun t => t = t₂.emit (.answer 0)) ∧
  (∀ (s : State) (dt : Nat) (p : Port) (i : Fin 6), ((s.tu p).tick dt).ts % 1000 = 0 → (s.tu p).exp.grant ≠ none →
    TuNext (.arbWindowStart dt p) s p fun t =>
      t.arbCredit (i.val + 2) = min ((s.tu p).arbCredit (i.val + 2) + (s.tu p).weight (i.val + 2)) 65536 ∧
      t.exp.grant = (s.tu p).exp.grant ∧ t.link = (s.tu p).link) ∧
  (∀ (s : State) (dt : Nat) (p : Port) (lvl : Level) (m : Byte), 1 ≤ Level.rank lvl →
    let t₀ := (s.tu p).tick dt
    let v := (List.range 8).foldl (fun n i => if bitOf m.toNat i then setBit n i false else n) (t₀.rd 0x2A11 1)
    TuNext (.arbStarveClear dt p lvl m) s p fun t => t = (t₀.wr 0x2A11 1 v).emit (.answer 0)) ∧
  (∀ (s : State) (dt : Nat) (p : Port) (g : Grant), (s.tu p).exp.dbgPort = none → (s.tu p).exp.grant = some g →
    let t₀ := (s.tu p).tick dt
    TuNext (.exportUnitDone dt p) s p fun t =>
      t = ({ t₀ with exp := { t₀.exp with grant := none } }.deliver g.req g.unit).arbitrate ∧ t.link = (s.tu p).link) ∧
  (∀ (s : State) (dt : Nat) (p : Port) (g : Grant), (s.tu p).exp.grant = some g → g.req < 8 → g.since + 100 * 65536000 ≤
   ((s.tu p).tick dt).part.time.now → (s.tu p).cuts = [] →
    TuNext (.exportWatchdog dt p) s p fun t =>
      t.rd 0x2A12 (g.req + 1) = raised 0x2A12 (g.req + 1) ((s.tu p).rd 0x2A12 (g.req + 1)) 1 ∧
      (t.exp.grant.all fun x => x.since == ((s.tu p).tick dt).part.time.now) = true ∧ t.link = (s.tu p).link) ∧
  (∀ (s : State) (dt : Nat) (p : Port), (s.tu p).exp.dbgPort = none →
    let t₀ := (s.tu p).tick dt
    TuNext (.debugExportReq dt p) s p fun t =>
      t = { t₀ with exp := { t₀.exp with
        grant := none, dbgPort := some (t₀.exp.grant.map fun g => { g with since := t₀.part.time.now - g.since }) } }) ∧
  (∀ (s : State) (dt : Nat) (p : Port) (ws : List Word) (g : Grant), (s.tu p).exp.dbgPort = some (some g) →
    TuNext (.debugExportRelease dt p ws) s p fun t =>
      t.exp.dbgPort = none ∧ t.exp.grant = some { g with since := ((s.tu p).tick dt).part.time.now - g.since } ∧ t.link = (s.tu p).link) ∧
  (∀ (s : State) (dt : Nat) (p : Port) (c : Nat) (b : Built), (s.tu p).link.st = .up → ((List.range 8).find? fun c =>
   ((s.tu p).tick dt).eligible c) = some c → ((s.tu p).tick dt).readyFrame c = some b →
    let t₀ := (s.tu p).tick dt
    let y := t₀.link.sendData (.tuEnd p) t₀.part.time.now c b.sumac b.first b.last b.payload b.records
    TuNext (.shaperFrameStart dt p) s p fun t =>
      t.link = y.1 ∧ t.out = y.2 :: (s.tu p).out ∧ (t.shaper c).credit = t₀.credit c - 1000 * (t₀.charged b.payload : Int) ∧
      t.rd (0x2A20 + c) 4 = raised (0x2A20 + c) 4 ((s.tu p).rd (0x2A20 + c) 4) 1)

/-- R18 to R20, R206, R207, R208 to R210, R437: a gate-list order that is accepted is pending with the list of GATE_ADMIN and
its serial; the entry that runs now takes over; at the effective time the new list replaces the old and the order is gone.
The power requesters of a TU. A GRANT that is awaited starts the operation and clears the backoff. A REFUSE and an answer
that fails to come within 10 µs start the next backoff, 100 µs × 2^(n-1) up to 100 ms; a REVOKE of a grant held does so
too; after the backoff the request is repeated. Each is counted, and nothing else changes. Conventions of the model itself
that this rests on: logs 1, 13, 26, 28. -/
def Obligations.GatesAndPower : Prop :=
  (∀ (s : State) (dt : Nat) (p : Port) (lvl : Level) (v : List Byte), 1 ≤ Level.rank lvl → v.length = 16 → (s.tu
   p).part.orderAnswer .gateList 0 (fieldAt v 12 4) = .accepted → ((s.tu p).part.rdDom 0x2A40 1) ≠ [] → (gateOf ((s.tu
   p).part.rdDom 0x2A40 1)).pos (time96 v 0) = 0 →
    let t₀ := (s.tu p).tick dt
    TuNext (.gateOrder dt p lvl v) s p fun t =>
      t = { t₀ with
        part := t₀.part.putOrder { kind := .gateList, target := 0, serial := fieldAt v 12 4, eff := time96 v 0,
                                   late := decide (time96 v 0 < t₀.ns), data := t₀.part.rdDom 0x2A40 1 }
        out := .answer 0 :: t₀.out }) ∧
  (∀ (s : State) (dt : Nat) (p : Port) (lvl : Level) (v : List Byte) (a : Nat), 1 ≤ Level.rank lvl → v.length = 16 → (s.tu
   p).part.orderAnswer .gateList 0 (fieldAt v 12 4) = .refused a → a ≠ 0 → ((s.tu p).part.rdDom 0x2A40 1) ≠ [] → (gateOf
   ((s.tu p).part.rdDom 0x2A40 1)).pos (time96 v 0) = 0 →
    TuNext (.gateOrder dt p lvl v) s p fun t => t = ((s.tu p).tick dt).emit (.answer a)) ∧
  (∀ (s : State) (dt : Nat) (p : Port) (g : GateList), (s.tu p).exp.gate = some g →
    let t₀ := (s.tu p).tick dt
    TuNext (.gateEntryAdvance dt p) s p fun t =>
      t = { t₀ with exp := { t₀.exp with gate := some { g with entry := g.at' t₀.ns } } }) ∧
  (∀ (s : State) (dt : Nat) (p : Port) (o : Order), (s.tu p).part.order? .gateList 0 = some o → o.eff ≤ ((s.tu p).tick
   dt).ns → (s.tu p).part.turn .gateList o.eff = true →
    let t₀ := (s.tu p).tick dt
    let g := gateOf o.data
    TuNext (.gateListTakeover dt p) s p fun t =>
      t.exp.gate = some { g with entry := g.at' t₀.ns } ∧ t.part.orders = ((s.tu p).part.dropOrder .gateList 0).orders ∧
      t.bare = { t₀ with part := t₀.part.dropOrder .gateList 0 }.bare) ∧
  (∀ (s : State) (dt : Nat) (p : Port) (id : Fin 16), id.val ≠ 0 → ((s.tu p).part.pwrReq id.val).outstanding = true →
   ((s.tu p).part.pwrReq id.val).wanted = true →
    let t₀ := (s.tu p).tick dt
    let r := t₀.part.pwrReq id.val
    TuNext (.powerGrant dt p id) s p fun t =>
      t = { t₀ with part := { t₀.part with
        pwr := tset t₀.part.pwr id.val { r with st := .granted, outstanding := false, n := 0, backoffUs := 0 } } }.bump
        (0x2B00 + id.val) 4 1) ∧
  (∀ (s : State) (dt : Nat) (p : Port) (id : Fin 16), ((s.tu p).part.pwrReq id.val).outstanding = true → ((s.tu
   p).part.pwrReq id.val).wanted = true → ((s.tu p).part.pwrReq id.val).st = .pending →
    let t₀ := (s.tu p).tick dt
    let r := t₀.part.pwrReq id.val
    TuNext (.powerRefuse dt p id) s p fun t =>
      t = { t₀ with part := { t₀.part with pwr := tset t₀.part.pwr id.val { r with
        st := .backoff, outstanding := false, n := r.n + 1, backoffUs := min (100 * 2 ^ (min r.n 10)) 100000,
        since := t₀.part.time.now } } }.bump (0x2B00 + id.val) 5 1) ∧
  (∀ (s : State) (dt : Nat) (p : Port) (id : Fin 16), id.val ≠ 0 → ((s.tu p).part.pwrReq id.val).st = .granted →
    let t₀ := (s.tu p).tick dt
    let r := t₀.part.pwrReq id.val
    TuNext (.powerRevoke dt p id) s p fun t =>
      t = { t₀ with part := { t₀.part with pwr := tset t₀.part.pwr id.val { r with
        st := .backoff, n := r.n + 1, backoffUs := min (100 * 2 ^ (min r.n 10)) 100000, since := t₀.part.time.now } } }.bump
        (0x2B00 + id.val) 7 1) ∧
  (∀ (s : State) (dt : Nat) (p : Port) (id : Fin 16), ((s.tu p).part.pwrReq id.val).st = .pending → ((s.tu p).part.pwrReq
   id.val).outstanding = true → ((s.tu p).part.pwrReq id.val).since + 10 * 65536000 ≤ (s.tu p).part.time.now + dt →
    let t₀ := (s.tu p).tick dt
    let r := t₀.part.pwrReq id.val
    TuNext (.powerAnswerTimeout dt p id) s p fun t =>
      t = { t₀ with part := { t₀.part with pwr := tset t₀.part.pwr id.val { r with
        st := .backoff, n := r.n + 1, backoffUs := min (100 * 2 ^ (min r.n 10)) 100000, since := t₀.part.time.now } } }.bump
        (0x2B00 + id.val) 6 1) ∧
  (∀ (s : State) (dt : Nat) (p : Port) (id : Fin 16), ((s.tu p).part.pwrReq id.val).st = .backoff → ((s.tu p).part.pwrReq
   id.val).wanted = true → ((s.tu p).part.pwrReq id.val).since + ((s.tu p).part.pwrReq id.val).backoffUs * 65536000 ≤ (s.tu
   p).part.time.now + dt →
    let t₀ := (s.tu p).tick dt
    let r := t₀.part.pwrReq id.val
    TuNext (.powerBackoffExpiry dt p id) s p fun t =>
      t = ({ t₀ with part := { t₀.part with pwr := tset t₀.part.pwr id.val { r with
        st := .pending, outstanding := true, since := t₀.part.time.now, seq := (r.seq + 1) % 256 } } }.emit
        (.power 1 id.val r.units 0)).bump (0x2B00 + id.val) 3 1)

/-! ### Sumac blocks, wear and spares -/

/-- R24, R102, R227, R228, R271, R310, R335: the flush timer closes the open Sumac block; a block that has passed its check
leaves as fragments, oldest first. A reading of a wear monitor is kept, and a unit that it finds worn is marked for a spare
that is free; at the quiesce point the spare takes over and the swap is counted. An engine or lane that fails its self-test
leaves the map of those in service. Conventions of the model itself that this rests on: logs 1, 13, 30, 37, 69. -/
def Obligations.SumacAndSpares : Prop :=
  (∀ (s : State) (dt : Nat) (p : Port), (s.tu p).sumac.opened + (s.tu p).rd 0x2800 2 * 65536000 ≤ (s.tu p).part.time.now +
   dt → (s.tu p).sumac.block ≠ [] →
    let t₀ := (s.tu p).tick dt
    TuNext (.sumacFlushTimer dt p) s p fun t =>
      t = { t₀ with sumac := { t₀.sumac with closed := t₀.sumac.closed ++ [t₀.sumac.block], block := [] } }) ∧
  (∀ (s : State) (dt : Nat) (p : Port) (e : Fin 5) (b : List QRec) (r : List (List QRec)), (s.tu p).sumac.closed = b :: r →
    let z := (s.tu p).sumac
    let block := sumacBlock (s.tu p).sumacPlain false z.bseq (b.flatMap fun q => wordsBytes q.r.words)
    TuNext (.sumacBlockDone dt (.tu p) e true) s p fun t =>
      t.sumac = { z with closed := r, frags := z.frags ++ fragments block, sending := z.sending ++ [b], bseq := z.bseq + 1 } ∧
      t.rd 0x2800 3 = raised 0x2800 3 ((s.tu p).rd 0x2800 3) 1 ∧ t.exp = (s.tu p).exp ∧ t.link = (s.tu p).link) ∧
  (∀ (s : State) (dt : Nat) (e : Fin 5), bitOf (s.fy.rd 0x4800 1) e.val = true →
    FyNext (.sumacBlockDone dt .fyster e false) s fun f =>
      f.rd 0x4800 1 = setBit (s.fy.rd 0x4800 1) e.val false ∧ f.rd 0x4800 5 = raised 0x4800 5 (s.fy.rd 0x4800 5) 1) ∧
  (∀ (s : State) (dt : Nat) (p : Port) (r : WearReading), readingUsable r = true → ((s.tu p).part.wearRead (s.tu p).limits
   r).2 = false →
    let t₀ := (s.tu p).tick dt
    TuNext (.wearReading dt (.tu p) r) s p fun t => t = { t₀ with part := (t₀.part.wearRead t₀.limits r).1 }) ∧
  (∀ (s : State) (dt : Nat) (p : Port) (r : WearReading), readingUsable r = true → ((s.tu p).part.wearRead (s.tu p).limits
   r).2 = true → r.unit < 88 → (s.tu p).bankSwapped r.unit = false → (s.tu p).freeBank ≠ none →
    TuNext (.wearReading dt (.tu p) r) s p fun t =>
      t.part.swapQ = (s.tu p).part.swapQ ++ [r.unit] ∧ t.part.worn r.unit = true ∧ t.spares = (s.tu p).spares) ∧
  (∀ (s : State) (dt : Nat) (p : Port) (u i : Nat), u ∈ (s.tu p).part.swapQ → u < 88 → (s.tu p).freeBank = some i →
    TuNext (.spareSwap dt (.tu p) u) s p fun t =>
      t.spares = tset (s.tu p).spares i u ∧ t.part.swapQ = (s.tu p).part.swapQ.filter (· != u) ∧
      t.rd 0x2D00 5 = raised 0x2D00 5 ((s.tu p).rd 0x2D00 5) 1 ∧ t.rd 0x2370 2 = raised 0x2370 2 ((s.tu p).rd 0x2370 2) 1 ∧
      t.mace = (s.tu p).mace) ∧
  (∀ (s : State) (dt : Nat) (e : Fin 18), bitOf (s.fy.rd 0x3400 1) e.val = true → s.fy.part.swaps (600 + e.val) = 0 →
    FyNext (.mergeEngineSelftest dt e false) s fun f => f.rd 0x3400 1 = setBit (s.fy.rd 0x3400 1) e.val false) ∧
  (∀ (s : State) (dt : Nat) (l : Fin 72) (i : Nat), l.val < 64 → s.fy.jun.logical l.val = some i → bitOf (s.fy.rd 0x4400 1)
   i = true → s.fy.part.swaps (640 + l.val) = 0 →
    FyNext (.juniperLaneSelftest dt l false) s fun f => f.rd 0x4400 1 = setBit (s.fy.rd 0x4400 1) i false) ∧
  (∀ (s : State) (dt : Nat) (e : Fin 18),
    FyNext (.mergeEngineSelftest dt e true) s fun f => f = s.fy.tick dt) ∧
  (∀ (s : State) (dt : Nat) (l : Fin 72),
    FyNext (.juniperLaneSelftest dt l true) s fun f => f = s.fy.tick dt)

/-! ### Pins, dumps and Clove cuts -/

/-- R219, R221, R244 to R247: PIN_RELEASE releases every hold of its tag and no other; a tag that no hold carries is
UNKNOWN_ID. A hold older than PIN_EXPIRY_S is released. PART_SEGMENTS of a partition whose port is DOWN and that nothing
pins takes the new size and empties the partition; a size outside its range is answered RANGE and changes nothing. A legal
DUMP_START on a channel that does not run fixes the list of segments and the spec, and the channel waits for power (without
SELF_GRANT). An abort of a running dump takes effect at the next segment boundary. A segment that has been copied in order
is entered in the manifest with its offset and length, and the next one is the dump's; an error of the destination fails
the dump. Conventions of the model itself that this rests on: logs 1, 26, 43, 82. -/
def Obligations.HoldsAndDumps : Prop :=
  (∀ (s : State) (dt : Nat) (lvl : Level) (tag : BitVec 32), 1 ≤ Level.rank lvl → (s.fy.holds.any fun h => h.2.tag ==
   tag.toNat) = true →
    FyNext (.pinRelease dt lvl tag) s fun f =>
      f = { s.fy.tick dt with holds := s.fy.holds.filter fun h => h.2.tag != tag.toNat }.emit (.answer 0)) ∧
  (∀ (s : State) (dt : Nat) (lvl : Level) (tag : BitVec 32), 1 ≤ Level.rank lvl → (s.fy.holds.any fun h => h.2.tag ==
   tag.toNat) = false →
    FyNext (.pinRelease dt lvl tag) s fun f => f = (s.fy.tick dt).emit (.answer 0x2D)) ∧
  (∀ (s : State) (dt : Nat) (k : Fin 8) (x : Hold), tfind s.fy.holds k.val = some x → s.fy.rd 0x6809 2 ≠ 0 → x.since +
   s.fy.rd 0x6809 2 * 1000000000 < (s.fy.tick dt).ns →
    FyNext (.pinExpiry dt k) s fun f => f = { s.fy.tick dt with holds := tdel s.fy.holds k.val }) ∧
  (∀ (s : State) (dt : Nat) (lvl : Level) (p : Fin 32) (v : BitVec 16), 2 ≤ Level.rank lvl → 64 ≤ v.toNat → v.toNat ≤ 16384
   → sumBy (fun q => if q = p.val then 0 else (s.fy.partition q).size) (List.range 32) + v.toNat ≤ 131072 → (s.fy.link
   p.val).st = .down → s.fy.pinnedSegs p.val = [] →
    FyNext (.partSegmentsWrite dt lvl p v) s fun f =>
      f = { s.fy.tick dt with
        ring := tset s.fy.ring p.val { s.fy.partition p.val with size := v.toNat, segs := [], block := none } }.emit (.answer 0)) ∧
  (∀ (s : State) (dt : Nat) (lvl : Level) (p : Fin 32) (v : BitVec 16), 2 ≤ Level.rank lvl → v.toNat < 64 ∨ 16384 < v.toNat
   →
    FyNext (.partSegmentsWrite dt lvl p v) s fun f => f = (s.fy.tick dt).emit (.answer 0x25)) ∧
  (∀ (s : State) (dt : Nat) (lvl : Level) (ch : Fin 4) (n : BitVec 32), 1 ≤ Level.rank lvl → s.fy.dumpCode (s.fy.dump
   ch.val) (s.fy.part.rdDom (0x6840 + ch.val) 1) = 0 → s.fy.rd 0x7880 2 ≠ 1 → (s.fy.part.pwrReq (1 + ch.val)).wanted =
   false →
    let spec := s.fy.part.rdDom (0x6840 + ch.val) 1
    FyNext (.dumpStart dt lvl ch n) s fun f =>
      f.dump ch.val =
        { state := 1, serial := n.toNat, spec := spec, todo := s.fy.dumpList spec, done := [], bytes := 0,
          engines := s.fy.dumpEngines (fieldAt spec 1 1), here := false, isOpen := false,
          unpinned := fieldAt spec 3 1 == 1 && s.fy.freeHold.isNone, abort := false } ∧
      (f.part.pwrReq (1 + ch.val)).st = .pending ∧ f.ring = s.fy.ring ∧ f.out.head? = some (.answer 0)) ∧
  (∀ (s : State) (dt : Nat) (lvl : Level) (ch : Fin 4), 1 ≤ Level.rank lvl → (s.fy.dump ch.val).state = 2 →
    FyNext (.dumpAbort dt lvl ch) s fun f =>
      f = ((s.fy.tick dt).setDump ch.val { s.fy.dump ch.val with abort := true }).emit (.answer 0)) ∧
  (∀ (s : State) (dt : Nat) (lvl : Level) (ch : Fin 4), 1 ≤ Level.rank lvl → (s.fy.dump ch.val).state ≠ 1 → (s.fy.dump
   ch.val).state ≠ 2 →
    FyNext (.dumpAbort dt lvl ch) s fun f => f = (s.fy.tick dt).emit (.answer 0)) ∧
  (∀ (s : State) (dt : Nat) (ch : Fin 4), (s.fy.dump ch.val).state = 2 →
    FyNext (.dumpSegmentDone dt ch .destError) s fun f =>
      f.dump ch.val = { s.fy.dump ch.val with state := 5, todo := [], engines := 0, abort := false } ∧ f.ring = s.fy.ring) ∧
  (∀ (s : State) (dt : Nat) (ch : Fin 4) (q n : Nat) (r : List (Nat × Nat)) (x : Seg), (s.fy.dump ch.val).state = 2 →
   (s.fy.dump ch.val).todo = (q, n) :: r → r ≠ [] → q ≠ 0xFE → (s.fy.dump ch.val).here = true → (s.fy.dump ch.val).isOpen =
   false → (s.fy.dump ch.val).unpinned = false → (s.fy.dump ch.val).abort = false → ((s.fy.partition q).segs.find? fun s =>
   s.serial == n) = some x → (s.fy.dump ch.val).bytes + (x.form (fieldAt (s.fy.dump ch.val).spec 1 1) q (s.fy.pinMask q
   n)).length ≤ fieldAt (s.fy.dump ch.val).spec 40 8 →
    let d := s.fy.dump ch.val
    let o := x.form (fieldAt d.spec 1 1) q (s.fy.pinMask q n)
    FyNext (.dumpSegmentDone dt ch .copied) s fun f =>
      (f.dump ch.val).state = 2 ∧ (f.dump ch.val).todo = r ∧ (f.dump ch.val).bytes = d.bytes + o.length ∧
      (f.dump ch.val).done = d.done ++ [{ part := q, state := 0, bad := o.bad, serial := n, offset := d.bytes, bytes := o.length }] ∧
      f.ring = s.fy.ring ∧ f.holds = s.fy.holds)

/-- R17 to R21, R230, R232 to R235: a TU that accepts a TR_CUT ORDER holds it for its T_f and answers with ACK. A cancellation
before T_f removes it. At T_f the order is gone, the cut is counted and, while fewer than two snapshots are held, one more
snapshot is; with two held the cut is counted FULL and none is added. A snapshot that is not out within CUT_HOLD_MS is
abandoned and counted. Conventions of the model itself that this rests on: logs 1, 13, 39. -/
def Obligations.CutInTu : Prop :=
  (∀ (s : State) (dt : Nat) (p : Port) (r : Rec), r.type = 0x0D → r.fld 192 8 = 1 → (s.tu p).part.orderAnswer .cut (r.fld
   224 32) (r.fld 384 32) = .accepted →
    let t₀ := (s.tu p).tick dt
    let id := r.fld 224 32
    let n := r.fld 384 32
    let tf := fullNs t₀.ns (r.fld 256 64)
    let late := decide (tf < t₀.ns)
    let old := match t₀.part.order? .cut id with
      | some o => [o.eff]
      | none => []
    let t₁ := { t₀.pruneCuts with
      part := t₀.part.putOrder
        { kind := .cut, target := id, serial := n, eff := tf, late := late, data := [BitVec.ofNat 8 r.gslot, BitVec.ofNat 8 (r.fld 416 8)] }
      cutsPending := (t₀.pruneCuts.cutsPending.filter fun f => !old.contains f) ++ [tf] }
    TuNext (.trCutOrderRx dt p r) s p fun t =>
      t = t₁.sendFree (t₁.cutCtl r.gslot 2 0 id tf [(n, 32), (if late then 4 else 0, 8)]) ∧ t.bare = t₁.bare) ∧
  (∀ (s : State) (dt : Nat) (p : Port) (r : Rec) (o : Order), r.type = 0x0D → r.fld 192 8 = 5 → (s.tu p).part.order? .cut
   (r.fld 224 32) = some o → o.serial = r.fld 384 32 → ((s.tu p).tick dt).ns < o.eff →
    let t₀ := (s.tu p).tick dt
    TuNext (.trCutCancelledRx dt p r) s p fun t =>
      t = { t₀ with part := t₀.part.dropOrder .cut o.target, cutsPending := t₀.cutsPending.filter (· != o.eff) } ∧
      t.part.order? .cut (r.fld 224 32) = none) ∧
  (∀ (s : State) (dt : Nat) (p : Port) (id : BitVec 32) (l : List LinkTap) (o : Order), (s.tu p).part.order? .cut id.toNat
   = some o → o.eff ≤ ((s.tu p).tick dt).ns → (s.tu p).cuts.length < 2 →
    TuNext (.cloveCut dt p id l) s p fun t =>
      t.part.order? .cut id.toNat = none ∧ t.cuts.map (·.cutId) = (s.tu p).cuts.map (·.cutId) ++ [id.toNat] ∧ t.rd 0x2820 2 = id.toNat ∧
      t.rd 0x2820 3 = raised 0x2820 3 ((s.tu p).rd 0x2820 3) 1 ∧ t.rd 0x2820 6 = (s.tu p).rd 0x2820 6 ∧
      t.frz.frozen.isSome = true) ∧
  (∀ (s : State) (dt : Nat) (p : Port) (id : BitVec 32) (l : List LinkTap) (o : Order), (s.tu p).part.order? .cut id.toNat
   = some o → o.eff ≤ ((s.tu p).tick dt).ns → 2 ≤ (s.tu p).cuts.length → ((s.tu p).cuts.all fun c => c.cutId != id.toNat) =
   true →
    TuNext (.cloveCut dt p id l) s p fun t =>
      t.part.order? .cut id.toNat = none ∧ t.cuts.map (·.cutId) = (s.tu p).cuts.map (·.cutId) ∧ t.rd 0x2820 2 = id.toNat ∧
      t.rd 0x2820 3 = raised 0x2820 3 ((s.tu p).rd 0x2820 3) 1 ∧ t.rd 0x2820 6 = raised 0x2820 6 ((s.tu p).rd 0x2820 6) 1) ∧
  (∀ (s : State) (dt : Nat) (p : Port) (id : BitVec 32) (c : CutSet), ((s.tu p).cuts.find? fun c => c.cutId == id.toNat) =
   some c → c.taken + s.fy.rd 0x6830 6 * 1000000 ≤ ((s.tu p).tick dt).ns →
    TuNext (.cutHoldTimeout dt p id) s p fun t =>
      t.cuts.map (·.cutId) = ((s.tu p).cuts.map (·.cutId)).filter (· != id.toNat) ∧
      t.rd 0x2820 5 = raised 0x2820 5 ((s.tu p).rd 0x2820 5) 1)

/-- R17, R19, R21, R230 to R233, R236, R241 to R243: CUT_ORDER that is legal is held for its T_f; one over the tray's dies has
all its ports as children, one over a group is passed on. CUT_CANCEL before T_f drops the cut. An order that lands at a
role and is accepted is held. A child silent for the wait gets the order a second time, then is missing. At T_f the cut is
TAKEN; the SUMMARY and the new end of the pin come once each. Conventions of the model itself that this rests on: logs 1,
26, 40, 41, 85. -/
def Obligations.CutInFyster : Prop :=
  (∀ (s : State) (dt : Nat) (lvl : Level) (v : List Byte) (k : Nat), 1 ≤ Level.rank lvl → s.fy.part.heldSerial .cut
   (fieldAt v 0 4) ≠ some (fieldAt v 4 4) → (s.fy.tick dt).cutCode v = 0 → s.fy.cutPlace (fieldAt v 0 4) = some k → fieldAt
   v 20 1 = 1 →
    let f₀ := s.fy.tick dt
    FyNext (.cutOrder dt lvl v) s fun f =>
      f.cutSlot (fieldAt v 0 4) = some (k, { newCut (fieldAt v 0 4) (fieldAt v 4 4) (cutTf v) 1 (fieldAt v 21 1) 0 0xFF true v with
        children := (List.range 32).map fun p => cutChild 0 p f₀.ns }) ∧
      f.part.order? .cut (fieldAt v 0 4) = some
        { kind := .cut, target := fieldAt v 0 4, serial := fieldAt v 4 4, eff := cutTf v, late := decide (cutTf v < f₀.ns), data := [] } ∧
      f.out.head? = some (.answer 0) ∧ f.red = s.fy.red) ∧
  (∀ (s : State) (dt : Nat) (lvl : Level) (v : List Byte), 1 ≤ Level.rank lvl → s.fy.part.heldSerial .cut (fieldAt v 0 4) ≠
   some (fieldAt v 4 4) → (s.fy.tick dt).cutCode v = 0 →
    let f₀ := s.fy.tick dt
    FyNext (.cutOrder dt lvl v) s fun f =>
      f.part.order? .cut (fieldAt v 0 4) = some
        { kind := .cut, target := fieldAt v 0 4, serial := fieldAt v 4 4, eff := cutTf v, late := decide (cutTf v < f₀.ns), data := [] } ∧
      f.out.head? = some (.answer 0)) ∧
  (∀ (s : State) (dt : Nat) (lvl : Level) (v : List Byte) (k : Nat) (c : CutSlot), 1 ≤ Level.rank lvl → v.length = 8 →
   s.fy.cutSlot (fieldAt v 0 4) = some (k, c) → c.serial = fieldAt v 4 4 → (s.fy.part.order? .cut (fieldAt v 0 4)).isSome =
   true → (s.fy.tick dt).ns < c.tf →
    FyNext (.cutCancel dt lvl v) s fun f =>
      f.cutSlot (fieldAt v 0 4) = none ∧ f.part.order? .cut (fieldAt v 0 4) = none ∧ f.out.head? = some (.answer 0)) ∧
  (∀ (s : State) (dt : Nat) (g : GSlot) (lv : Fin 3) (sub : Fin 2) (x : Grp) (r : Role), s.fy.grp g.val = some x → x.roleAt
   lv.val = some r → fieldAt (s.fy.ledger (roleArea g.val lv.val + downOfs lv.val sub.val + 56) 32) 0 4 ≠ 0 → fieldAt
   (s.fy.ledger (roleArea g.val lv.val + downOfs lv.val sub.val + 56) 32) 20 1 ≠ 0 → s.fy.part.orderAnswer .cut (fieldAt
   (s.fy.ledger (roleArea g.val lv.val + downOfs lv.val sub.val + 56) 32) 0 4) (fieldAt (s.fy.ledger (roleArea g.val lv.val
   + downOfs lv.val sub.val + 56) 32) 4 4) = .accepted → (s.fy.cutPlace (fieldAt (s.fy.ledger (roleArea g.val lv.val +
   downOfs lv.val sub.val + 56) 32) 0 4)).isSome = true →
    let raw := s.fy.ledger (roleArea g.val lv.val + downOfs lv.val sub.val + 56) 32
    FyNext (.cutOrderLanded dt g lv sub) s fun f =>
      f.part.order? .cut (fieldAt raw 0 4) = some
        { kind := .cut, target := fieldAt raw 0 4, serial := fieldAt raw 4 4, eff := cutTf raw, late := decide (cutTf raw < (s.fy.tick dt).ns),
          data := [] } ∧ f.red.groups = s.fy.red.groups ∧ f.holds = s.fy.holds) ∧
  (∀ (s : State) (dt : Nat) (id : BitVec 32) (i k : Nat) (c : CutSlot) (y : CutChild), s.fy.cutSlot id.toNat = some (k, c)
   → c.children[i]? = some y → y.acked = false → y.missing = false → y.second = false → y.sentAt + s.fy.rd 0x6830 3 * 1000
   ≤ (s.fy.tick dt).ns →
    FyNext (.cutAckTimeout dt id i) s fun f =>
      f.cutSlot id.toNat = some (k, { c with
        children := c.children.set i { y with second := true, sentAt := (s.fy.tick dt).ns }, resends := c.resends + 1 })) ∧
  (∀ (s : State) (dt : Nat) (id : BitVec 32) (i k : Nat) (c : CutSlot) (y : CutChild), s.fy.cutSlot id.toNat = some (k, c)
   → c.children[i]? = some y → y.acked = false → y.missing = false → y.second = true → y.kind = 0 → y.sentAt + s.fy.rd
   0x6830 3 * 1000 ≤ (s.fy.tick dt).ns →
    FyNext (.cutAckTimeout dt id i) s fun f =>
      f.cutSlot id.toNat = some (k, { c with
        children := c.children.set i { y with missing := true, absent := 0 }
        missing := if c.missing.contains y.child then c.missing else c.missing ++ [y.child] })) ∧
  (∀ (s : State) (dt : Nat) (id : BitVec 32) (o : Order) (k : Nat) (c : CutSlot), s.fy.part.order? .cut id.toNat = some o →
   s.fy.cutSlot id.toNat = some (k, c) → o.eff ≤ (s.fy.tick dt).ns →
    FyNext (.fysterCut dt id) s fun f =>
      f.part.order? .cut id.toNat = none ∧
      (f.cutSlot id.toNat).map (fun x => (x.1, x.2.state, x.2.takenAt, x.2.children)) =
        some (k, 2, some (if o.late then (s.fy.tick dt).ns else o.eff), c.children) ∧ f.red = s.fy.red) ∧
  (∀ (s : State) (dt : Nat) (id : BitVec 32) (k : Nat) (c : CutSlot), s.fy.cutSlot id.toNat = some (k, c) → c.issuer = true
   → c.summarised = false → c.tf + s.fy.rd 0x6830 4 * 1000000 ≤ (s.fy.tick dt).ns →
    FyNext (.cutSummary dt id) s fun f =>
      (f.cutSlot id.toNat).map (fun x => (x.1, { x.2 with cflags := setBit x.2.cflags 5 true })) =
        some (k, { c with summarised := true, cflags := setBit c.cflags 5 true }) ∧
      f.red = s.fy.red ∧ f.holds.map (·.1) = s.fy.holds.map (·.1)) ∧
  (∀ (s : State) (dt : Nat) (id : BitVec 32) (k : Nat) (c : CutSlot), s.fy.cutSlot id.toNat = some (k, c) →
   c.takenAt.isSome = true → c.tf + s.fy.rd 0x6830 4 * 1000000 ≤ (s.fy.tick dt).ns →
    FyNext (.cutPinNewEnd dt id) s fun f =>
      f.cutSlot id.toNat = some (k, { c with newEnd := true }) ∧ f.holds.map (·.1) = s.fy.holds.map (·.1) ∧
      { f with cuts := s.fy.cuts, holds := s.fy.holds } = s.fy.tick dt)

/-! ### Arming, membership and teardown -/

/-- R275 to R279: a NOTICE with a sound descriptor for a group that is new to this Fyster makes the descriptor pending and puts
the group into its place; ARM_ORDER does the same at the root. An ACK or a DONE from the child that it names is taken as
that child's answer, and an ACK is counted. A RELAY sends the holder's NOTICE to the child. A child that is silent gets the
NOTICE once more, then is UNARMED. Conventions of the model itself that this rests on: logs 1, 44, 45, 46, 47. -/
def Obligations.ArmMessages : Prop :=
  (∀ (s : State) (dt : Nat) (src : BitVec 16) (b d : List Byte) (k sect : Nat), armGood b = true → (armMsg b).kind = 1 →
   (armMsg b).role ≠ 0 → d.length = (armMsg b).len → crc32c d = (armMsg b).crc → dKind d = 1 → ((List.range (dNl2 d)).find?
   fun i => sectionOfs d i (dSectionsAt d) == (armMsg b).sect).getD 0 = sect → s.fy.part.heldSerial .membership (armMsg
   b).group ≠ some (armMsg b).serial → (s.fy.tick dt).armCode d (armMsg b) (newRole ((armMsg b).role - 1) (armMsg
   b).standby (armMsg b).index sect (peerTray d ((armMsg b).role - 1) (armMsg b).index sect (armMsg b).standby)) = 0 →
   s.fy.armPlace (dSlot d) (armMsg b).group = some k → s.fy.grp k = none →
    FyNext (.armNoticeRx dt src b d) s fun f =>
      f.part.order? .membership (dGroup d) = some (armOrderOf d (decide (dEff d < (s.fy.tick dt).ns))) ∧
      f.part.heldSerial .membership (dGroup d) = some (dSerial d) ∧
      (f.grp k).map (fun x => (x.id, x.serial, x.desc, x.next)) = some (dGroup d, dSerial d, d, none) ∧ f.rd 0x3140 9 = s.fy.rd 0x3140 9) ∧
  (∀ (s : State) (dt : Nat) (lvl : Level) (v : List Byte) (k : Nat), 1 ≤ Level.rank lvl → s.fy.part.heldSerial .membership
   (dGroup v) ≠ some (dSerial v) → (s.fy.tick dt).armOrderCode v = 0 → dKind v = 1 → s.fy.armPlace (dSlot v) (dGroup v) =
   some k → s.fy.grp k = none →
    FyNext (.armOrder dt lvl v) s fun f =>
      f.part.order? .membership (dGroup v) = some (armOrderOf v (decide (dEff v < (s.fy.tick dt).ns))) ∧
      (f.grp k).map (fun x => (x.id, x.serial, x.desc, x.next)) = some (dGroup v, dSerial v, v, none) ∧ f.out.head? = some (.answer 0)) ∧
  (∀ (s : State) (dt : Nat) (lvl : Level) (v : List Byte) (k : Nat) (x : Grp), 1 ≤ Level.rank lvl → s.fy.part.heldSerial
   .membership (dGroup v) ≠ some (dSerial v) → (s.fy.tick dt).armOrderCode v = 0 → dKind v = 2 → s.fy.armKey (dGroup v) =
   some k → s.fy.grp k = some x → x.id = dGroup v → x.state = 3 →
    FyNext (.armOrder dt lvl v) s fun f =>
      f.part.order? .membership (dGroup v) = some (armOrderOf v (decide (dEff v < (s.fy.tick dt).ns))) ∧
      (f.grp k).map (fun y => (y.id, y.state, y.desc, y.next, y.endAt)) = some (x.id, 3, x.desc, some v, some (dEff v)) ∧
      f.out.head? = some (.answer 0)) ∧
  (∀ (s : State) (dt : Nat) (src : BitVec 16) (b : List Byte) (k lv key : Nat) (c : ArmChild), s.fy.answered src.toNat b 2
   = some (k, lv, key) → s.fy.armChildAt k lv key = some c →
    let m := armMsg b
    let st := if m.code = 0 then (if c.state = 1 ∨ c.state = 2 then c.state else 7)
      else if m.code = 1 then (if c.state = 1 ∨ c.state = 2 then c.state else 3) else if m.code = 2 then 4 else 8
    FyNext (.armAckRx dt src b) s fun f =>
      (f.armChildAt k lv key).map (·.state) = some st ∧ f.rd 0x3140 7 = raised 0x3140 7 (s.fy.rd 0x3140 7) 1 ∧ f.links = s.fy.links) ∧
  (∀ (s : State) (dt : Nat) (src : BitVec 16) (b : List Byte) (k lv key : Nat) (c : ArmChild), s.fy.answered src.toNat b 3
   = some (k, lv, key) → s.fy.armChildAt k lv key = some c →
    let m := armMsg b
    FyNext (.armDoneRx dt src b) s fun f =>
      (f.armChildAt k lv key).map (fun c => (c.state, c.armed, c.unarmed, c.traysUnarmed, c.traysPartial)) =
        some (if m.code = 0 then 1 else 2, m.armed, m.unarmed, m.traysUnarmed, m.traysPartial) ∧ f.links = s.fy.links) ∧
  (∀ (s : State) (dt : Nat) (src : BitVec 16) (b : List Byte) (k : Nat) (x : Grp) (r : Role) (t : Nat × (Nat × Nat) × Nat ×
   Nat × Bool), armGood b = true → (armMsg b).kind = 4 → s.fy.armKey (armMsg b).group = some k → s.fy.grp k = some x →
   (x.roles.find? fun r => r.level == (armMsg b).role && r.standby && r.peer == src.toNat) = some r → ((armTargets (if
   dKind x.latest = 1 then x.latest else x.desc) r).find? fun t => t.1 == armChildKey (armMsg b).index (armMsg b).standby)
   = some t →
    FyNext (.armRelayRx dt src b) s fun f =>
      f = (s.fy.tick dt).armPost t.2.1.1 t.2.1.2
        { (s.fy.tick dt).noticeMsg (k % 64) r.level x.latest r.level t.2.2.1 t.2.2.2.1 t.2.2.2.2 with fromStandby := true } ∧
      f.links = s.fy.links ∧ f.ring = s.fy.ring) ∧
  (∀ (s : State) (dt : Nat) (g : GSlot) (lv : Fin 3) (key : Nat) (c : ArmChild), s.fy.armChildAt g.val lv.val key = some c
   → c.state = 5 → c.sentAt + 200000 ≤ (s.fy.tick dt).ns →
    FyNext (.armAckTimeout dt g lv key) s fun f =>
      (f.armChildAt g.val lv.val key).map (fun x => (x.state, x.resent)) = some (if c.resent then (0, true) else (5, true)) ∧
      f.holds = s.fy.holds ∧ f.cuts = s.fy.cuts) ∧
  (∀ (s : State) (dt : Nat) (w : Nat × Nat × List Byte), s.fy.red.armWait = [w] → (s.fy.red.armSent.filter fun t => decide
   ((s.fy.tick dt).ns < t + 100000)).length < s.fy.rd 0x3140 4 →
    let f₀ := s.fy.tick dt
    let recent := f₀.red.armSent.filter fun t => decide (f₀.ns < t + 100000)
    FyNext (.armNoticePacing dt) s fun f =>
      f = { f₀ with red := { f₀.red with
        armSent := recent, armWait := [], armTurn := (f₀.armKey (armMsg w.2.2).group).getD 0 } }.armSend w.1 w.2.1 (armMsg w.2.2) ∧
      f.red.armWait = [] ∧ f.red.armSent = recent ++ [f₀.ns])

/-- R273, R277, R278: a group that waits is tested for admission again: admitted, it is ARMED if its effective time is past and
PENDING if not; otherwise it stays and names its first reason. After ARM_WAIT_MS a waiting group is PARTIAL. A retry sends
an UNARMED TU its arm again. Conventions of the model itself that this rests on: logs 1, 48, 52. -/
def Obligations.ArmWaiting : Prop :=
  (∀ (s : State) (dt : Nat) (g : GSlot) (x : Grp) (r : Nat), s.fy.grp g.val = some x → x.state = 2 → (((s.fy.tick
   dt).rearmTus g.val).admitRole g.val).2 = r →
    FyNext (.armRetest dt g) s fun f =>
      (f.grp g.val).map (fun z => (z.state, z.wait)) =
        some (if r = 0 then (if x.eff ≤ (s.fy.tick dt).ns ∧ (s.fy.part.order? .membership x.id).isNone = true then (3, 0) else (1, 0)) else (2, r)) ∧
      f.holds = s.fy.holds) ∧
  (∀ (s : State) (dt : Nat) (g : GSlot) (x : Grp), s.fy.grp g.val = some x → x.state = 2 → x.waitSince + s.fy.rd 0x3140 2 *
   1000000 ≤ (s.fy.tick dt).ns →
    FyNext (.armWaitExpiry dt g) s fun f =>
      (f.grp g.val).map (fun z => (z.state, z.partialSent, z.desc, z.eff)) = some (4, true, x.desc, x.eff) ∧ f.links = s.fy.links) ∧
  (∀ (s : State) (dt : Nat) (g : GSlot) (lv : Fin 3) (x : Grp) (r : Role), s.fy.grp g.val = some x → x.held lv.val = some r
   →
    FyNext (.armRetry dt g lv) s fun f => f = (s.fy.tick dt).armRetryRole g.val r ∧ f.holds = s.fy.holds ∧ f.cuts = s.fy.cuts) ∧
  (∀ (s : State) (dt : Nat) (g : GSlot) (q : Nat) (c : ArmChild), s.fy.armChildAt g.val 0 q = some c → c.state = 0 ∨
   c.state = 4 →
    FyNext (.armRetry dt g 0) s fun f =>
      (f.armChildAt g.val 0 q).map (fun x => (x.state, x.sentAt, x.resent)) = some (5, (s.fy.tick dt).ns, false))

/-- R53, R104, R277, R280 to R282: a legal TU_GROUP_ARM of a free slot makes it PENDING and holds the order; LEAVE of an armed
slot holds the time of leaving. At E the slot becomes ARMED; at E_t it drains; at the release time it is free and keeps its
GROUP_ID and ARM_SERIAL. The same times take the group's slot on Fyster through the same states. A membership change puts
the new descriptor in force, and a grid that it brings follows as a change of the grid. Conventions of the model itself
that this rests on: logs 1, 26, 50, 57. -/
def Obligations.GroupSlots : Prop :=
  (∀ (s : State) (dt : Nat) (p : Port) (lvl : Level) (g : GSlot) (v : List Byte), 1 ≤ Level.rank lvl → v.length = 40 →
   fieldAt v 8 1 = 1 → ((s.tu p).tick dt).armCode g.val v = 0 → ((s.tu p).tgroup g.val).state = 0 →
    let t₀ := (s.tu p).tick dt
    let o : Order :=
      { kind := .membership, target := fieldAt v 0 4, serial := fieldAt v 4 4, eff := taEff v, late := decide (taEff v < t₀.ns), data := v }
    TuNext (.tuGroupArm dt p lvl g v) s p fun t =>
      t = ({ t₀ with part := t₀.part.putArm o }.setGroup g.val
        { state := 1, id := fieldAt v 0 4, serial := fieldAt v 4 4, eff := taEff v, period := taPeriod v, phase := taPhase v, release := 0,
          leave := none, fired := none }).emit (.answer 0)) ∧
  (∀ (s : State) (dt : Nat) (p : Port) (lvl : Level) (g : GSlot) (v : List Byte), 1 ≤ Level.rank lvl → v.length = 40 →
   fieldAt v 8 1 = 2 → ((s.tu p).tgroup g.val).state = 3 → ((s.tu p).tgroup g.val).id = fieldAt v 0 4 → fieldAt v 0 4 ≠ 0 →
   ((s.tu p).tgroup g.val).serial < fieldAt v 4 4 → fieldAt v 20 4 ≤ 999999999 → (s.tu p).part.time.everLocked = true →
   ((s.tu p).part.orders.filter fun o => o.target != fieldAt v 0 4 || o.kind == .gateList).length < 32 →
    let t₀ := (s.tu p).tick dt
    let x := t₀.tgroup g.val
    let o : Order :=
      { kind := .membership, target := fieldAt v 0 4, serial := fieldAt v 4 4, eff := taEff v, late := decide (taEff v < t₀.ns), data := v }
    TuNext (.tuGroupLeave dt p lvl g v) s p fun t =>
      t = ({ t₀ with part := t₀.part.putArm o }.setGroup g.val { x with serial := fieldAt v 4 4, leave := some (taEff v) }).emit (.answer 0)) ∧
  (∀ (s : State) (dt : Nat) (p : Port) (g : GSlot), ((s.tu p).tgroup g.val).state = 1 → ((s.tu p).tgroup g.val).eff ≤
   ((s.tu p).tick dt).ns → (s.tu p).part.turn .membership ((s.tu p).tgroup g.val).eff = true →
    TuNext (.groupArmEffective dt (.tu p) g) s p fun t =>
      t.tgroup g.val = { (s.tu p).tgroup g.val with state := 3 } ∧
      t.part = ((s.tu p).tick dt).part.dropOrder .membership ((s.tu p).tgroup g.val).id ∧
      (∀ k < 16, t.set k = if ((s.tu p).followers g.val).contains k then { (s.tu p).set k with first := true } else (s.tu p).set k) ∧
      t.mace = (s.tu p).mace ∧ t.link = (s.tu p).link) ∧
  (∀ (s : State) (dt : Nat) (g : GSlot) (x : Grp), s.fy.grp g.val = some x → x.state = 1 → x.eff ≤ (s.fy.tick dt).ns →
   s.fy.part.turn .membership x.eff = true →
    let f₀ := s.fy.tick dt
    FyNext (.groupArmEffective dt .fyster g) s fun f =>
      f = { f₀ with part := f₀.part.dropOrder .membership x.id }.setGrp g.val { x with state := 3 }) ∧
  (∀ (s : State) (dt : Nat) (p : Port) (g : GSlot) (o : Order), (s.tu p).part.order? .membership ((s.tu p).tgroup g.val).id
   = some o → ((s.tu p).tgroup g.val).state = 3 → ((s.tu p).tgroup g.val).leave = none → o.eff ≤ ((s.tu p).tick dt).ns →
   (s.tu p).part.turn .membership o.eff = true →
    let t₀ := (s.tu p).tick dt
    let x := t₀.tgroup g.val
    let part := t₀.part.dropOrder .membership x.id
    TuNext (.membershipChange dt (.tu p) g) s p fun t =>
      t = { t₀ with part := if taPeriod o.data = x.period ∧ taPhase o.data = x.phase then part else part.putOrder o.toGrid }) ∧
  (∀ (s : State) (dt : Nat) (g : GSlot) (x : Grp) (d : List Byte), s.fy.grp g.val = some x → x.next = some d → x.state = 3
   → dKind d = 1 → dEff d ≤ (s.fy.tick dt).ns → s.fy.part.turn .membership (dEff d) = true → s.fy.rolesUnder x d ≠ [] →
    FyNext (.membershipChange dt .fyster g) s fun f =>
      (f.grp g.val).map (fun y => (y.desc, y.next, y.serial, y.memb, y.eff, y.roles, y.state)) =
        some (d, none, dSerial d, dMemb d, dEff d, s.fy.rolesUnder x d, 3) ∧
      f.part.order? .membership x.id = none ∧ f.links = s.fy.links ∧ f.ring = s.fy.ring) ∧
  (∀ (s : State) (dt : Nat) (p : Port) (g : GSlot) (o : Order), (s.tu p).part.order? .grid ((s.tu p).tgroup g.val).id =
   some o → ((s.tu p).tgroup g.val).state = 3 ∨ ((s.tu p).tgroup g.val).state = 5 → o.eff ≤ ((s.tu p).tick dt).ns → (s.tu
   p).part.turn .grid o.eff = true →
    TuNext (.gridChange dt (.tu p) g) s p fun t =>
      t.tgroup g.val = { (s.tu p).tgroup g.val with period := taPeriod o.data, phase := taPhase o.data } ∧
      t.part.order? .grid ((s.tu p).tgroup g.val).id = none ∧
      (∀ k < 16, (t.set k).step = (((s.tu p).followers g.val).contains k || ((s.tu p).set k).step)) ∧
      t.mace = (s.tu p).mace) ∧
  (∀ (s : State) (dt : Nat) (g : GSlot) (x : Grp) (o : Order), s.fy.grp g.val = some x → s.fy.part.order? .grid x.id = some
   o → x.state = 3 ∨ x.state = 5 → o.eff ≤ (s.fy.tick dt).ns → s.fy.part.turn .grid o.eff = true →
    FyNext (.gridChange dt .fyster g) s fun f =>
      f.grp g.val = some { x with period := dPeriod x.desc, phase := dPhase x.desc } ∧ f.part.order? .grid x.id = none ∧
      f.links = s.fy.links) ∧
  (∀ (s : State) (dt : Nat) (p : Port) (g : GSlot) (e : Nat), ((s.tu p).tgroup g.val).leave = some e → ((s.tu p).tgroup
   g.val).state = 3 → e ≤ ((s.tu p).tick dt).ns → (s.tu p).part.turn .membership e = true →
    let t₀ := (s.tu p).tick dt
    let x := t₀.tgroup g.val
    TuNext (.groupDrainEffective dt (.tu p) g) s p fun t =>
      t = { t₀ with part := t₀.part.dropOrder .membership x.id }.setGroup g.val
        { x with state := 5, leave := none, release := e + x.period + max x.period 1000000 }) ∧
  (∀ (s : State) (dt : Nat) (g : GSlot) (x : Grp) (e : Nat), s.fy.grp g.val = some x → x.endAt = some e → x.state ≠ 5 → e ≤
   (s.fy.tick dt).ns → s.fy.part.turn .membership e = true →
    let f₀ := s.fy.tick dt
    FyNext (.groupDrainEffective dt .fyster g) s fun f =>
      f = { f₀ with part := f₀.part.dropOrder .membership x.id }.setGrp g.val
        { x with state := 5, release := some (e + x.period + max x.period 1000000) }) ∧
  (∀ (s : State) (dt : Nat) (p : Port) (g : GSlot), ((s.tu p).tgroup g.val).state = 5 → ((s.tu p).tgroup g.val).release ≤
   ((s.tu p).tick dt).ns →
    let t₀ := (s.tu p).tick dt
    let x := t₀.tgroup g.val
    TuNext (.groupRelease dt (.tu p) g) s p fun t =>
      t = { t₀ with part := t₀.part.dropOrder .grid x.id }.setGroup g.val { x with state := 0, release := 0 }) ∧
  (∀ (s : State) (dt : Nat) (g : GSlot) (x : Grp) (e : Nat), s.fy.grp g.val = some x → x.state = 5 → x.release = some e → e
   ≤ (s.fy.tick dt).ns →
    FyNext (.groupRelease dt .fyster g) s fun f =>
      f.grp g.val = s.fy.grp (g.val + 64) ∧ f.part.order? .membership x.id = none ∧ f.part.order? .grid x.id = none ∧
      tfind f.jun.binds g.val = none ∧ tfind f.dec.govs g.val = none ∧ f.links = s.fy.links)

/-! ### Watermarks of trays and groups -/

/-- R175, R176, R179, R409: a WMK that names no notice beyond those held is taken: W of the die never falls. A WMK that names a
further serial waits and leaves W as it is; after TAINT_WAIT_US the missing notice is asked for. The completion of a list
write is taken once. A WMKD shows the group's watermark at the TU and passes it to the processors, once per change; an
ordered set that is not sound changes neither. Conventions of the model itself that this rests on: logs 1, 59. -/
def Obligations.TrayWatermarks : Prop :=
  (∀ (s : State) (dt : Nat) (p : Port) (x : Tos), x.good 3 = true → bitOf (fieldAt x.payload 2 1) 6 = false → (s.fy.wmkOf
   p.val).waiting = [] → (s.fy.wmkOf p.val).gapFrom = none → fieldAt x.payload 4 4 ≤ (s.fy.wmkOf p.val).lastSerial →
   s.fy.taintWrites = [] →
    let b := x.payload
    let y := (s.fy.wmkOf p.val).take (fieldAt b 2 1) (fieldAt b 4 4) (fieldAt b 8 8) (fieldAt b 16 4) (fieldAt b 20 4) (s.fy.tick dt).ns
    FyNext (.tosWmkRx dt p x) s fun f =>
      f.wmkOf p.val = { y with waiting := [], w := max (s.fy.wmkOf p.val).w (fieldAt b 8 8), seen := true } ∧
      { f with wmk := s.fy.wmk } = s.fy.tick dt) ∧
  (∀ (s : State) (dt : Nat) (p : Port) (x : Tos), x.good 3 = true → bitOf (fieldAt x.payload 2 1) 6 = false → (s.fy.wmkOf
   p.val).waiting = [] → (s.fy.wmkOf p.val).lastSerial < fieldAt x.payload 4 4 →
    let b := x.payload
    FyNext (.tosWmkRx dt p x) s fun f =>
      f.wmkOf p.val = (s.fy.wmkOf p.val).take (fieldAt b 2 1) (fieldAt b 4 4) (fieldAt b 8 8) (fieldAt b 16 4) (fieldAt b 20 4) (s.fy.tick dt).ns ∧
      (f.wmkOf p.val).w = (s.fy.wmkOf p.val).w ∧ { f with wmk := s.fy.wmk } = s.fy.tick dt) ∧
  (∀ (s : State) (dt : Nat) (p : Port) (x : Tos), x.good 3 = false →
    FyNext (.tosWmkRx dt p x) s fun f => f = (s.fy.tick dt).tosDiscard p ∧ f.wmk = s.fy.wmk) ∧
  (∀ (s : State) (dt : Nat) (p : Port) (m : WmkWait) (n : Nat), s.fy.nodeCode (p.val + 1) = 0 → ((s.fy.wmkOf
   p.val).waiting.find? fun m => !((s.fy.wmkOf p.val).missing m).isEmpty) = some m → (s.fy.wmkOf p.val).missing m = [n] →
   ((s.fy.wmkOf p.val).resends.find? fun r => r.1 == n) = none → m.since + 1000 * s.fy.rd 0x4100 1 ≤ (s.fy.tick dt).ns →
    let x := s.fy.wmkOf p.val
    FyNext (.taintWaitTimeout dt p) s fun f =>
      f = ((s.fy.tick dt).setWmk p.val { x with resends := x.resends.filter (fun r => r.1 != n) ++ [(n, (s.fy.tick dt).ns)] }).relay p.val
        (.resend n) (dictWriteMsg 1 0x2910 0x10 4 (leBytes 4 n))) ∧
  (∀ (s : State) (dt : Nat) (p : Port) (g : GSlot) (n : BitVec 32) (w : TaintWrite), (s.fy.taintWrites.find? fun w => w.g
   == g.val && w.port == p.val && w.serial == n.toNat && !w.held) = some w → (s.fy.wmkOf p.val).waiting = [] →
    FyNext (.taintListWriteDone dt p g n) s fun f => f = { s.fy.tick dt with taintWrites := s.fy.taintWrites.erase w }) ∧
  (∀ (s : State) (dt : Nat) (p : Port) (x : Tos), x.good 4 = true → fieldAt x.payload 2 1 < 64 → (s.tu p).rd 0x2911
   (fieldAt x.payload 2 1 + 1) ≠ fieldAt x.payload 8 8 ∨ (s.tu p).rd 0x2912 (fieldAt x.payload 2 1 + 1) ≠ fieldAt x.payload
   4 4 →
    let g := fieldAt x.payload 2 1
    TuNext (.tosWmkdRx dt p x) s p fun t =>
      t = ((((s.tu p).tick dt).wr 0x2911 (g + 1) (fieldAt x.payload 8 8)).wr 0x2912 (g + 1) (fieldAt x.payload 4 4)).emit
        (.gwmk g (fieldAt x.payload 8 8) (fieldAt x.payload 4 4))) ∧
  (∀ (s : State) (dt : Nat) (p : Port) (x : Tos), x.good 4 = true → (s.tu p).rd 0x2911 (fieldAt x.payload 2 1 + 1) =
   fieldAt x.payload 8 8 → (s.tu p).rd 0x2912 (fieldAt x.payload 2 1 + 1) = fieldAt x.payload 4 4 →
    TuNext (.tosWmkdRx dt p x) s p fun t => t = (s.tu p).tick dt)

/-- R176, R177: at a watermark instant the L1 shows the tray's minimum and its die and keeps the group watermark that its
parent gave it; an L2 counts its stale children; the root shows the minimum of its children and the sums as GW. A watermark
record is due every millisecond of the grid at Fyster and every WMK_REC period at a TU, and changes nothing else.
Conventions of the model itself that this rests on: logs 1, 60, 84. -/
def Obligations.GroupWatermarks : Prop :=
  (∀ (s : State) (dt : Nat) (g : GSlot) (x : Grp) (r : Role), s.fy.grp g.val = some x → (s.fy.tick dt).wmkInstant x = true
   → (x.roles.filter fun r => r.level == 0 && r.holder) = [r] → r.standby = false →
    FyNext (.l1WmkTick dt g) s fun f =>
      f.rd (0x4010 + g.val) 5 = (s.fy.trayWmk g.val x).1.w ∧ f.rd (0x4010 + g.val) 6 = (s.fy.trayWmk g.val x).2 ∧
      (f.grp g.val).map (fun y => (y.gw, y.taintTotal)) = some (f.rd (0x4010 + g.val) 1, f.rd (0x4010 + g.val) 4) ∧
      f.wmk = s.fy.wmk ∧ f.links = s.fy.links) ∧
  (∀ (s : State) (dt : Nat) (g : GSlot) (x : Grp) (r : Role), s.fy.grp g.val = some x → x.held 1 = some r → (s.fy.tick
   dt).wmkInstant x = true →
    FyNext (.l2WmkTick dt g) s fun f =>
      f.rd (0x4010 + g.val) 7 = ((s.fy.tick dt).childrenWmk g.val x r).2 ∧ f.red.groups = s.fy.red.groups ∧ f.wmk = s.fy.wmk) ∧
  (∀ (s : State) (dt : Nat) (g : GSlot) (x : Grp) (r : Role), s.fy.grp g.val = some x → x.held 2 = some r → (s.fy.tick
   dt).wmkInstant x = true →
    let e := (s.fy.tick dt).childrenWmk g.val x r
    FyNext (.rootWmkTick dt g) s fun f =>
      f.rd (0x4010 + g.val) 7 = e.2 ∧ f.rd (0x4010 + g.val) 1 = e.1.w ∧ f.rd (0x4010 + g.val) 2 = e.1.fails ∧
      f.rd (0x4010 + g.val) 3 = e.1.unchecked ∧ f.rd (0x4010 + g.val) 4 = e.1.taints ∧ f.red.groups = s.fy.red.groups ∧ f.wmk = s.fy.wmk) ∧
  (∀ (s : State) (dt : Nat) (p : Port), ((s.tu p).tick dt).ts % (1000 * (s.tu p).rd 0x2900 7) = 0 →
    let t₀ := (s.tu p).tick dt
    TuNext (.wmkRecordTick dt (.tu p)) s p fun t =>
      t = (t₀.offer 5 1 20000 [t₀.mkRec 0x09 0x0690 224 0xFF t₀.ns
        (watermarkPay 0 t₀.wflags t₀.mace.w (t₀.rd 0x2910 3) (t₀.rd 0x2910 6) t₀.mace.serial)]).1 ∧ t.bare = t₀.bare) ∧
  (∀ (s : State) (dt : Nat) (g : Nat) (x : Grp), (s.fy.tick dt).ts % 1000000 = 0 → s.fy.red.groups = [(g, x)] → g < 64 →
   x.state = 3 →
    let f₀ := s.fy.tick dt
    FyNext (.wmkRecordTick dt .fyster) s fun f =>
      f = (f₀.wmkOwn 1 g (f₀.trayWmk g x).1).wmkOwn 2 g
        { w := f₀.rd (0x4010 + g) 1, fails := f₀.rd (0x4010 + g) 2, unchecked := f₀.rd (0x4010 + g) 3, taints := f₀.rd (0x4010 + g) 4,
          flags := (f₀.downWmk g 0).flags } ∧ f.bare = f₀.bare)

/-! ### Tray links -/

/-- R70 to R73, R75: a frame in order advances the expected FSEQ and makes a report due; one that is not sound brings a NAK and
is counted. An ACKSEQ frees the frames that it covers. A report that is due goes out in a CONTROL frame. Held frames whose
oldest has waited 4 µs are sent again in order and counted. Conventions of the model itself that this rests on: logs 1, 13,
16, 23, 78. -/
def Obligations.FramesAndReplay : Prop :=
  (∀ (s : State) (dt : Nat) (p : Port) (x : RawFrame), (s.tu p).link.st = .up → frameSound x = true → (frameHead
   x.header).kind ≠ 2 → (frameHead x.header).nak = false → (s.tu p).link.arrival (frameHead x.header).fseq = .inOrder →
    let t₀ := (s.tu p).tick dt
    let m := frameHead x.header
    let l := if m.ackValid then t₀.link.acked m.ack else t₀.link
    TuNext (.frameRx dt (.tuEnd p) x) s p fun t =>
      t = ({ t₀.rxCrc x with link := l.accept t₀.part.time.now }).acceptFrame m x ∧
      t.link.rxFseq = ((s.tu p).link.rxFseq + 1) % 65536 ∧ t.link.ackDue = true) ∧
  (∀ (s : State) (dt : Nat) (e : End) (p : Port) (x : RawFrame), e = .tuEnd p → (s.tu p).link.st = .up → frameSound x =
   false →
    let t₀ := (s.tu p).tick dt
    TuNext (.frameRx dt e x) s p fun t =>
      t.link = t₀.link.nak ∧ t.rd 0x2110 0x11 = raised 0x2110 0x11 ((s.tu p).rd 0x2110 0x11) 1 ∧ t.mace = (s.tu p).mace) ∧
  (∀ (s : State) (dt : Nat) (p : Port) (x : RawFrame), (s.fy.link p.val).st = .up → frameSound x = true → (frameHead
   x.header).kind = 1 → frameFault (frameHead x.header) true = 0 → (frameHead x.header).nak = false → tget s.fy.toTu p.val
   [] = [] → (s.fy.link p.val).arrival (frameHead x.header).fseq = .inOrder →
    let f₀ := s.fy.tick dt
    let m := frameHead x.header
    let l := if m.ackValid then (f₀.link p.val).acked m.ack else f₀.link p.val
    FyNext (.frameRx dt (.fysterEnd p) x) s fun f =>
      f.link p.val = l.accept f₀.part.time.now ∧ f.rd (0x1140 + p.val) 1 = raised (0x1140 + p.val) 1 (s.fy.rd (0x1140 + p.val) 1) 1 ∧
      (f.partition p.val).block = (sumacOpen (s.fy.partition p.val).block m.first m.last (8 * x.payload.length)).2.2) ∧
  (∀ (s : State) (dt : Nat) (p : Port) (x : RawFrame), (s.fy.link p.val).st = .up → frameSound x = true → (frameHead
   x.header).kind ≠ 2 → (((s.fy.tick dt).takeReport p (frameHead x.header)).link p.val).arrival (frameHead x.header).fseq =
   .inOrder →
    let m := frameHead x.header
    let f₁ := (s.fy.tick dt).takeReport p m
    FyNext (.frameRx dt (.fysterEnd p) x) s fun f =>
      f = ((f₁.setLink p.val ((f₁.link p.val).accept f₁.part.time.now)).bump (0x1140 + p.val) 1 1).acceptFrame p.val m x) ∧
  (∀ (s : State) (dt : Nat) (p : Port) (x : RawFrame), (s.tu p).link.st = .up → frameSound x = true → (frameHead
   x.header).kind = 2 → (frameHead x.header).plen = 0 → (frameHead x.header).ackValid = true → (frameHead x.header).nak =
   false → seqDiff (frameHead x.header).fseq (s.tu p).link.rxFseq ≤ 0 →
    let t₀ := (s.tu p).tick dt
    TuNext (.controlFrameRx dt (.tuEnd p) x) s p fun t => t = { t₀.rxCrc x with link := t₀.link.acked (frameHead x.header).ack }) ∧
  (∀ (s : State) (dt : Nat) (p : Port) (x : RawFrame), (s.fy.link p.val).st = .up → frameSound x = true → (frameHead
   x.header).kind = 2 → (frameHead x.header).plen = 0 → (frameHead x.header).ackValid = true → (frameHead x.header).nak =
   false → tget s.fy.toTu p.val [] = [] → seqDiff (frameHead x.header).fseq (s.fy.link p.val).rxFseq ≤ 0 →
    FyNext (.controlFrameRx dt (.fysterEnd p) x) s fun f =>
      f.link p.val = (s.fy.link p.val).acked (frameHead x.header).ack ∧ f.ring = s.fy.ring ∧ f.part = (s.fy.tick dt).part) ∧
  (∀ (s : State) (dt : Nat) (p : Port), (s.tu p).link.st = .up → (s.tu p).link.ackDue = true →
    let t₀ := (s.tu p).tick dt
    let h := t₀.link.header t₀.link.txFseq 0 0 2 false false
    TuNext (.ackControlSend dt (.tuEnd p)) s p fun t =>
      t = { t₀ with link := { t₀.link with ackDue := false, nakDue := false } }.emit (wireFrame (.tuEnd p) h [])) ∧
  (∀ (s : State) (dt : Nat) (p : Port), (s.fy.link p.val).st = .up → (s.fy.link p.val).ackDue = true →
    let f₀ := s.fy.tick dt
    let l := f₀.link p.val
    FyNext (.ackControlSend dt (.fysterEnd p)) s fun f =>
      f = (f₀.setLink p.val { l with ackDue := false, nakDue := false }).emit (wireFrame (.fysterEnd p) (l.header l.txFseq 0 0 2 false false) [])) ∧
  (∀ (s : State) (dt : Nat) (p : Port), (s.tu p).link.replayDue ((s.tu p).tick dt).part.time.now = true → (s.tu
   p).link.stuck = false →
    let t₀ := (s.tu p).tick dt
    TuNext (.replayTimeout dt (.tuEnd p)) s p fun t =>
      t.link = { t₀.link with
        ackDue := false, nakDue := false
        replay := t₀.link.replay.map fun x => { x with sentAt := t₀.part.time.now, replays := x.replays + 1 } } ∧
      t.out = (t₀.link.replay.map (t₀.link.wire (.tuEnd p))).reverse ++ t₀.out ∧
      t.rd 0x2110 0x12 = raised 0x2110 0x12 ((s.tu p).rd 0x2110 0x12) t₀.link.replay.length) ∧
  (∀ (s : State) (dt : Nat) (p : Port), (s.fy.link p.val).replayDue (s.fy.tick dt).part.time.now = true → (s.fy.link
   p.val).stuck = false →
    let f₀ := s.fy.tick dt
    let l := f₀.link p.val
    FyNext (.replayTimeout dt (.fysterEnd p)) s fun f =>
      f.link p.val = { l with
        ackDue := false, nakDue := false
        replay := l.replay.map fun x => { x with sentAt := f₀.part.time.now, replays := x.replays + 1 } } ∧
      f.rd (0x1140 + p.val) 4 = raised (0x1140 + p.val) 4 (s.fy.rd (0x1140 + p.val) 4) l.replay.length)

/-- R39, R74, R391, R408, R410 to R412: STATUS with RESTART begins the sequences anew and answers the frames that were held;
without it the partner's next FSEQ frees frames. A link that is lost retrains at once; a failed attempt leaves it DOWN and
the next begins 10 ms later. A training that finds two healthy lanes brings the link UP on them; a TU with a die ID is then
discovered. Conventions of the model itself that this rests on: logs 1, 68, 69. -/
def Obligations.LinkTraining : Prop :=
  (∀ (s : State) (dt : Nat) (p : Port) (x : Tos), x.good 5 = true → (statusMsg x).restart = false → (statusMsg x).retrain =
   false →
    let t₀ := (s.tu p).tick dt
    let m := statusMsg x
    TuNext (.tosStatusRx dt (.tuEnd p) x) s p fun t =>
      t = { t₀ with link := { t₀.link with
        partnerMap := BitVec.ofNat 8 m.laneMap
        replay := t₀.link.replay.filter fun y => decide (0 < seqDiff y.fseq ((m.next + 65535) % 65536)) } }) ∧
  (∀ (s : State) (dt : Nat) (p : Port) (x : Tos), x.good 5 = true → (statusMsg x).restart = true → (statusMsg x).retrain =
   false →
    TuNext (.tosStatusRx dt (.tuEnd p) x) s p fun t =>
      t.link = { (s.tu p).link with
        partnerMap := BitVec.ofNat 8 (statusMsg x).laneMap
        rxFseq := 0, replay := [], txFseq := 0, nakSent := false, nakDue := false, ackDue := false } ∧
      t.restartSeen = true ∧ t.mace = (s.tu p).mace) ∧
  (∀ (s : State) (dt : Nat) (p : Port) (x : Tos), x.good 5 = true → (statusMsg x).restart = false → (statusMsg x).retrain =
   false → tget s.fy.toTu p.val [] = [] →
    FyNext (.tosStatusRx dt (.fysterEnd p) x) s fun f =>
      f.link p.val = { s.fy.link p.val with
        partnerMap := BitVec.ofNat 8 (statusMsg x).laneMap
        replay := (s.fy.link p.val).replay.filter fun y => decide (0 < seqDiff y.fseq (((statusMsg x).next + 65535) % 65536)) } ∧
      f.part = (s.fy.tick dt).part ∧ f.ring = s.fy.ring) ∧
  (∀ (s : State) (dt : Nat) (p : Port), (s.tu p).link.st = .up →
    let t₀ := (s.tu p).tick dt
    TuNext (.statusSendTimer dt (.tuEnd p)) s p fun t =>
      t = t₀.emit (.tos (.tuEnd p) (mkStatus 2 false false t₀.link.rxFseq t₀.link.laneMap.toNat t₀.link.skew))) ∧
  (∀ (s : State) (dt : Nat) (p : Port), (s.fy.link p.val).st = .up →
    let f₀ := s.fy.tick dt
    let l := f₀.link p.val
    FyNext (.statusSendTimer dt (.fysterEnd p)) s fun f =>
      f = f₀.emit (.tos (.fysterEnd p) (mkStatus 2 false false l.rxFseq l.laneMap.toNat l.skew))) ∧
  (∀ (s : State) (dt : Nat) (p : Port), (s.tu p).link.st = .up →
    TuNext (.tlLinkLoss dt (.tuEnd p)) s p fun t =>
      t.link = { (s.tu p).link with st := .retraining, swapSince := none, failedAt := none } ∧ t.mpds = [] ∧ t.treq = none ∧
      t.mace = (s.tu p).mace) ∧
  (∀ (s : State) (dt : Nat) (p : Port), (s.fy.link p.val).st = .up →
    FyNext (.tlLinkLoss dt (.fysterEnd p)) s fun f =>
      f.link p.val = { s.fy.link p.val with st := .retraining, swapSince := none, failedAt := none } ∧
      tget f.nodes p.val 0 = (if tget s.fy.nodes p.val 0 = 2 then 1 else tget s.fy.nodes p.val 0)) ∧
  (∀ (s : State) (dt : Nat) (p : Port), (s.tu p).link.st ≠ .up →
    let t₀ := (s.tu p).tick dt
    TuNext (.tlTrainingAttemptFailed dt (.tuEnd p)) s p fun t =>
      t = { t₀ with link := { t₀.link with st := .down, failedAt := some t₀.part.time.now } }) ∧
  (∀ (s : State) (dt : Nat) (p : Port), (s.fy.link p.val).st ≠ .up →
    let f₀ := s.fy.tick dt
    FyNext (.tlTrainingAttemptFailed dt (.fysterEnd p)) s fun f =>
      f = f₀.setLink p.val { f₀.link p.val with st := .down, failedAt := some f₀.part.time.now }) ∧
  (∀ (s : State) (dt : Nat) (p : Port) (a : Nat), (s.tu p).link.st = .down → (s.tu p).link.failedAt = some a → a + 10000000
   * 65536 ≤ ((s.tu p).tick dt).part.time.now →
    let t₀ := (s.tu p).tick dt
    TuNext (.tlRetrainAttempt dt (.tuEnd p)) s p fun t => t = { t₀ with link := { t₀.link with st := .training, failedAt := none } }) ∧
  (∀ (s : State) (dt : Nat) (p : Port) (a : Nat), (s.fy.link p.val).st = .down → (s.fy.link p.val).failedAt = some a → a +
   10000000 * 65536 ≤ (s.fy.tick dt).part.time.now →
    let f₀ := s.fy.tick dt
    FyNext (.tlRetrainAttempt dt (.fysterEnd p)) s fun f => f = f₀.setLink p.val { f₀.link p.val with st := .training, failedAt := none }) ∧
  (∀ (s : State) (dt : Nat) (p : Port) (lvl : Level), 1 ≤ Level.rank lvl → (s.tu p).link.st = .up →
    TuNext (.tlRetrain dt (.tuEnd p) lvl 1) s p fun t =>
      t.link = { (s.tu p).link with st := .retraining, swapSince := none } ∧ t.out.head? = some (.answer 0) ∧ t.mpds = []) ∧
  (∀ (s : State) (dt : Nat) (p : Port) (lvl : Level), 1 ≤ Level.rank lvl → (s.fy.link p.val).st = .up →
    FyNext (.tlRetrain dt (.fysterEnd p) lvl 1) s fun f =>
      f.link p.val = { s.fy.link p.val with st := .retraining, swapSince := none } ∧ f.out.head? = some (.answer 0) ∧
      f.rd (0x1140 + p.val) 0x0A = raised (0x1140 + p.val) 0x0A (s.fy.rd (0x1140 + p.val) 0x0A) 1) ∧
  (∀ (s : State) (dt : Nat) (p : Port), (s.tu p).link.quiesced = true →
    TuNext (.laneSwapQuiesce dt (.tuEnd p)) s p fun t =>
      t = ((s.tu p).tick dt).askRetrain p ∧ t.link = { (s.tu p).link with st := .retraining, swapSince := none }) ∧
  (∀ (s : State) (dt : Nat) (p : Port), (s.fy.link p.val).quiesced = true →
    FyNext (.laneSwapQuiesce dt (.fysterEnd p)) s fun f =>
      f = (s.fy.tick dt).askRetrain p ∧ f.link p.val = { s.fy.link p.val with st := .retraining, swapSince := none }) ∧
  (∀ (s : State) (dt : Nat) (p : Port), (s.tu p).link.swapLate ((s.tu p).tick dt).part.time.now = true →
    TuNext (.laneSwapQuiesceTimeout dt (.tuEnd p)) s p fun t =>
      t = ((s.tu p).tick dt).askRetrain p ∧ t.link = { (s.tu p).link with st := .retraining, swapSince := none }) ∧
  (∀ (s : State) (dt : Nat) (p : Port), (s.fy.link p.val).swapLate (s.fy.tick dt).part.time.now = true →
    FyNext (.laneSwapQuiesceTimeout dt (.fysterEnd p)) s fun f =>
      f = (s.fy.tick dt).askRetrain p ∧ f.link p.val = { s.fy.link p.val with st := .retraining, swapSince := none }) ∧
  (∀ (s : State) (dt : Nat) (p : Port) (r : TrainResult) (m : BitVec 8), (s.tu p).link.st ≠ .up → (s.tu p).powered = true →
   r.status.good 5 = true → laneAssign r.healthy (s.tu p).link.retired = some m →
    TuNext (.tlTrainingDone dt (.tuEnd p) r) s p fun t =>
      t.link.st = .up ∧ t.link.laneMap = m ∧ t.link.skew = r.skew ∧ t.link.restart = false ∧ t.link.failedAt = none ∧ t.mpds = []) ∧
  (∀ (s : State) (dt : Nat) (p : Port) (r : TrainResult) (m : BitVec 8), (s.fy.link p.val).st ≠ .up → s.fy.boot.running =
   true → s.fy.boot.hbm = true → r.status.good 5 = true → (statusMsg r.status).restart = false → laneAssign r.healthy
   (s.fy.link p.val).retired = some m → s.fy.rd 0x1010 (p.val + 1) ≠ 0xFFFFFFFF →
    ∃ t, exec (.tlTrainingDone dt (.fysterEnd p) r) s = .next t ∧
      (t.fy.link p.val).st = .up ∧ (t.fy.link p.val).laneMap = m ∧ (t.fy.link p.val).skew = r.skew ∧ tget t.fy.nodes p.val 0 = 2 ∧
      (t.tu p).discovered = true ∧ t.pending = s.pending) ∧
  (∀ (s : State) (dt : Nat) (p : Port) (lvl : Level) (v : BitVec 32), 2 ≤ Level.rank lvl → bitOf (s.fy.rd 0x1030 7) p.val =
   true → (s.fy.link p.val).st = .up → tget s.fy.nodes p.val 0 ≠ 2 → v.toNat ≠ 0xFFFFFFFF →
    ∃ t, exec (.portDieIdWrite dt p lvl v) s = .next t ∧
      t.fy.rd 0x1010 (p.val + 1) = v.toNat ∧ tget t.fy.nodes p.val 0 = 2 ∧ bitOf (t.fy.rd 0x1030 7) p.val = false ∧
      (t.tu p).discovered = true ∧ t.fy.links = s.fy.links) ∧
  (∀ (s : State) (dt : Nat) (p : Port) (lvl : Level) (v : BitVec 32), 2 ≤ Level.rank lvl → bitOf (s.fy.rd 0x1030 7) p.val =
   false →
    FyNext (.portDieIdWrite dt p lvl v) s fun f => f = ((s.fy.tick dt).wr 0x1010 (p.val + 1) v.toNat).emit (.answer 0))

/-- R32, R390, R400, R413, R82: an out-of-band port that trains is UP and one that loses its link is not; a hall-fabric port
likewise. An inbound access that the tray refuses is counted and answered as an error. An accumulator that has counted
since the last TR_LOSS and is not yet active restates its totals in a TR_LOSS at the end of the period and begins a new
interval; one that has counted nothing and is not active stays as it is. Conventions of the model itself that this rests
on: logs 1, 13, 65, 69, 70. -/
def Obligations.OtherPortsAndLosses : Prop :=
  (∀ (s : State) (dt : Nat) (q : Fin 2), s.fy.boot.running = true → (s.fy.oob q.val).up = false →
    FyNext (.oobTrainingDone dt q) s fun f => (f.oob q.val).up = true ∧ f.rd (0x1110 + q.val) 7 = 1 ∧ f.links = s.fy.links) ∧
  (∀ (s : State) (dt : Nat) (q : Fin 2), (s.fy.oob q.val).up = true →
    FyNext (.oobLinkDown dt q) s fun f =>
      (f.oob q.val).up = false ∧ (f.oob q.val).foreign = none ∧ f.rd (0x1110 + q.val) 7 = 0 ∧ f.links = s.fy.links) ∧
  (∀ (s : State) (dt : Nat) (q : Fin 2), s.fy.boot.running = true → (s.fy.oob q.val).up = false →
    FyNext (.oobRetrainTimer dt q true) s fun f => (f.oob q.val).up = true ∧ f.rd (0x1110 + q.val) 7 = 1 ∧ f.links = s.fy.links) ∧
  (∀ (s : State) (dt : Nat) (q : Fin 2),
    FyNext (.oobRetrainTimer dt q false) s fun f => f = s.fy.tick dt) ∧
  (∀ (s : State) (dt : Nat) (k : Fin 8), bitOf (s.fy.rd 0x1170 1) k.val = true →
    FyNext (.fabricPortDown dt k) s fun f => f.rd 0x1170 1 = setBit (s.fy.rd 0x1170 1) k.val false ∧ f.links = s.fy.links) ∧
  (∀ (s : State) (dt : Nat) (k : Fin 8),
    FyNext (.fabricRetrainTimer dt k true) s fun f =>
      f.rd 0x1170 1 = setBit (s.fy.rd 0x1170 1) k.val true ∧ f.links = s.fy.links ∧ f.ring = s.fy.ring) ∧
  (∀ (s : State) (dt : Nat) (k : Fin 8),
    FyNext (.fabricRetrainTimer dt k false) s fun f => f = s.fy.tick dt) ∧
  (∀ (s : State) (dt : Nat) (b : Bool) (a : Word),
    FyNext (.fabricInboundRefused dt b a) s fun f =>
      f = ((s.fy.tick dt).emit .addressError).counted 512 0x1170 3 1 ∧ f.rd 0x1170 3 = raised 0x1170 3 (s.fy.rd 0x1170 3) 1 ∧
      f.links = s.fy.links) ∧
  (∀ (s : State) (dt : Nat) (p : Port) (cause : Fin 10) (a : Nat), ((s.tu p).part.acc a cause.val).fresh = true → ((s.tu
   p).part.acc a cause.val).active = false →
    let t₀ := (s.tu p).tick dt
    let x := t₀.part.acc a cause.val
    let y := { x with first := 0, last := 0, lstream := none, fresh := false, reported := t₀.ns, active := true }
    let t₁ := { t₀ with part := t₀.part.setAcc a cause.val y }
    TuNext (.lossReport dt (.tu p) cause a) s p fun t =>
      t = t₁.sendFree (t₁.mkRec 0x0C selfStream 224 0xFF t₁.ns (lossPay cause.val a 0xFF x)) ∧ t.bare = t₀.bare) ∧
  (∀ (s : State) (dt : Nat) (p : Port) (cause : Fin 10) (a : Nat), ((s.tu p).part.acc a cause.val).fresh = false → ((s.tu
   p).part.acc a cause.val).active = false →
    let t₀ := (s.tu p).tick dt
    TuNext (.lossReport dt (.tu p) cause a) s p fun t => t = { t₀ with part := t₀.part.setAcc a cause.val (t₀.part.acc a cause.val) }) ∧
  (∀ (s : State) (dt : Nat) (cause : Fin 10) (a : Nat), (s.fy.part.acc a cause.val).fresh = true → (s.fy.part.acc a
   cause.val).active = false →
    let f₀ := s.fy.tick dt
    let x := f₀.part.acc a cause.val
    let y := { x with first := 0, last := 0, lstream := none, fresh := false, reported := f₀.ns, active := true }
    let f₁ := { f₀ with part := f₀.part.setAcc a cause.val y }
    FyNext (.lossReport dt .fyster cause a) s fun f => f = (f₁.own (f₀.lossRec a cause.val)).observe a (f₀.lossRec a cause.val))

/-! ### CRC units and loss reports -/

/-- R77, R78, R229, R440: ENABLE, PAUSE and INIT of a CRC unit take effect; PAUSE is refused while the unit is busy and has no
effect on a unit in the link's path. A channel at rest reports PAUSED. VALUE and LENGTH can be written while PAUSED, or on
a link unit while the link is down. Conventions of the model itself that this rests on: logs 1, 26, 38. -/
def Obligations.CrcUnits : Prop :=
  (∀ (s : State) (dt : Nat) (p : Port) (lvl : Level) (u : CrcId) (v : Bool) (k : Nat), 1 ≤ Level.rank lvl → crcKey false u
   = some k →
    let t₀ := (s.tu p).tick dt
    TuNext (.crcEnable dt (.tu p) lvl u v) s p fun t =>
      t = { t₀ with part := t₀.part.setCrc k { t₀.part.crcUnit k with enable := v } }.emit (.answer 0)) ∧
  (∀ (s : State) (dt : Nat) (lvl : Level) (u : CrcId) (v : Bool) (k : Nat), 1 ≤ Level.rank lvl → crcKey true u = some k →
    let f₀ := s.fy.tick dt
    FyNext (.crcEnable dt .fyster lvl u v) s fun f =>
      f = ({ f₀ with part := f₀.part.setCrc k { f₀.part.crcUnit k with enable := v } }.crcResume k).emit (.answer 0)) ∧
  (∀ (s : State) (dt : Nat) (p : Port) (lvl : Level) (u : CrcId) (k : Nat), 1 ≤ Level.rank lvl → crcKey false u = some k →
   crcInPath k = false → ((s.tu p).part.crcUnit k).busy = false →
    let t₀ := (s.tu p).tick dt
    TuNext (.crcPause dt (.tu p) lvl u true) s p fun t =>
      t = { t₀ with part := t₀.part.setCrc k { t₀.part.crcUnit k with pause := true } }.emit (.answer 0)) ∧
  (∀ (s : State) (dt : Nat) (p : Port) (lvl : Level) (u : CrcId) (k : Nat), 1 ≤ Level.rank lvl → crcKey false u = some k →
   crcInPath k = false →
    let t₀ := (s.tu p).tick dt
    TuNext (.crcPause dt (.tu p) lvl u false) s p fun t =>
      t = { t₀ with part := t₀.part.setCrc k { t₀.part.crcUnit k with pause := false, paused := false } }.emit (.answer 0)) ∧
  (∀ (s : State) (dt : Nat) (lvl : Level) (u : CrcId) (k : Nat), 1 ≤ Level.rank lvl → crcKey true u = some k →
   (s.fy.part.crcUnit k).busy = false →
    let f₀ := s.fy.tick dt
    FyNext (.crcPause dt .fyster lvl u true) s fun f =>
      f = ({ f₀ with part := f₀.part.setCrc k { f₀.part.crcUnit k with pause := true } }.crcResume k).emit (.answer 0)) ∧
  (∀ (s : State) (dt : Nat) (lvl : Level) (u : CrcId) (k : Nat), 1 ≤ Level.rank lvl → crcKey true u = some k →
   (s.fy.part.crcUnit k).busy = true →
    FyNext (.crcPause dt .fyster lvl u true) s fun f => f = (s.fy.tick dt).emit (.answer 0x27)) ∧
  (∀ (s : State) (dt : Nat) (p : Port) (u : CrcId) (k : Nat), crcKey false u = some k → crcInPath k = false → ((s.tu
   p).part.crcUnit k).pause = true → ((s.tu p).part.crcUnit k).busy = false →
    let t₀ := (s.tu p).tick dt
    TuNext (.crcPaused dt (.tu p) u) s p fun t =>
      t = { t₀ with part := t₀.part.setCrc k { t₀.part.crcUnit k with paused := true } }) ∧
  (∀ (s : State) (dt : Nat) (u : CrcId) (k : Nat), crcKey true u = some k → (s.fy.part.crcUnit k).pause = true →
   (s.fy.part.crcUnit k).busy = false →
    let f₀ := s.fy.tick dt
    FyNext (.crcPaused dt .fyster u) s fun f =>
      f = { f₀ with part := f₀.part.setCrc k { f₀.part.crcUnit k with paused := true } }.crcResume k) ∧
  (∀ (s : State) (dt : Nat) (p : Port) (lvl : Level) (u : CrcId) (k : Nat), 1 ≤ Level.rank lvl → crcKey false u = some k →
    let t₀ := (s.tu p).tick dt
    TuNext (.crcInit dt (.tu p) lvl u) s p fun t => t = { t₀ with part := t₀.part.setCrc k (t₀.part.crcUnit k).init }.emit (.answer 0)) ∧
  (∀ (s : State) (dt : Nat) (lvl : Level) (u : CrcId) (k : Nat), 1 ≤ Level.rank lvl → crcKey true u = some k →
    let f₀ := s.fy.tick dt
    FyNext (.crcInit dt .fyster lvl u) s fun f =>
      f = ({ f₀ with part := f₀.part.setCrc k (f₀.part.crcUnit k).init }.crcResume k).emit (.answer 0)) ∧
  (∀ (s : State) (dt : Nat) (p : Port) (lvl : Level) (u : CrcId) (b : Bool) (v : Word) (k : Nat), 1 ≤ Level.rank lvl →
   crcKey false u = some k → (if crcInPath k then (s.tu p).link.st != .up else ((s.tu p).part.crcUnit k).paused) = true →
    let t₀ := (s.tu p).tick dt
    let x := t₀.part.crcUnit k
    let y := if b then { x with length := v.toNat } else { x with value := BitVec.ofNat 32 v.toNat }
    TuNext (.crcValueWrite dt (.tu p) lvl u b v) s p fun t =>
      t = { t₀ with part := t₀.part.setCrc k y }.emit (.answer 0)) ∧
  (∀ (s : State) (dt : Nat) (lvl : Level) (u : CrcId) (b : Bool) (v : Word) (k : Nat), 1 ≤ Level.rank lvl → crcKey true u =
   some k → (s.fy.part.crcUnit k).paused = true →
    let f₀ := s.fy.tick dt
    let x := f₀.part.crcUnit k
    let y := if b then { x with length := v.toNat } else { x with value := BitVec.ofNat 32 v.toNat }
    FyNext (.crcValueWrite dt .fyster lvl u b v) s fun f =>
      f = ({ f₀ with part := f₀.part.setCrc k y }.crcResume k).emit (.answer 0)) ∧
  (∀ (s : State) (dt : Nat) (lvl : Level) (u : CrcId) (b : Bool) (v : Word) (k : Nat), 1 ≤ Level.rank lvl → crcKey true u =
   some k → (s.fy.part.crcUnit k).paused = false →
    FyNext (.crcValueWrite dt .fyster lvl u b v) s fun f => f = (s.fy.tick dt).emit (.answer 0x27))

/-! ### The reduction of a group -/

/-- R265, R268, R270: when the aggregates of a contribution have completed its header is written; when the header has completed
the write is over, and counted late if its deadline has passed. A contribution that arrives in time, sound and not lagging,
is merged into its instant; one that is not sound is counted and changes nothing else. A write whose frame is reused goes
into the role's carry. Conventions of the model itself that this rests on: logs 1, 13, 54. -/
def Obligations.SlotWrites : Prop :=
  (∀ (s : State) (dt id : Nat) (w : PendWrite) (x : Grp) (r : Role), (s.fy.red.writes.find? fun w => w.id == id) = some w →
   w.header = false → s.fy.writer w = some (x, r) →
    let f₀ := s.fy.tick dt
    let ws := modFirst (fun (y : PendWrite) => y.id == id) (fun y => { y with header := true }) f₀.red.writes
    FyNext (.fabricWriteComplete dt id) s fun f =>
      f = { f₀ with red := { f₀.red with writes := ws } }.remote w.tray w.base (x.slotAt w.gslot r w.c.inst (w.c.kind == 2)) w.c.header id) ∧
  (∀ (s : State) (dt id : Nat) (w : PendWrite), (s.fy.red.writes.find? fun w => w.id == id) = some w → w.header = true →
    let f₀ := s.fy.tick dt
    let f₁ := { f₀ with red := { f₀.red with writes := f₀.red.writes.filter fun y => y.id != id } }
    FyNext (.fabricWriteComplete dt id) s fun f =>
      f = if w.c.kind ≠ 2 ∧ w.c.inst + deadline (w.role + 1) < ts64Of f₀.ns then f₁.bump (0x3480 + w.gslot) 3 1 else f₁) ∧
  (∀ (s : State) (dt : Nat) (g : GSlot) (lv : Fin 3) (i : Nat) (sub : Fin 2) (inst : Word) (x : Grp) (r : Role) (o : Nat)
   (c : Contrib), s.fy.grp g.val = some x → x.held lv.val = some r → r.admitted = true → lv.val ≠ 0 → samplingOnly x.period
   = false → i < x.childCount r → o = roleArea g.val lv.val + x.ofs r 0 + x.frame inst.toNat * (x.childCount r * 2 * slotAl
   (dMetrics x.desc)) + (2 * i + sub.val) * slotAl (dMetrics x.desc) → fieldAt (s.fy.ledger o 8) 0 8 = inst.toNat →
   slotOfBytes (s.fy.ledger o (slotBytes (dMetrics x.desc))) = c → c.inst = inst.toNat → x.slotOk (s.fy.ledger o (slotBytes
   (dMetrics x.desc))) = true → x.memb ≤ c.memb → (r.closed.any fun n => decide (inst.toNat ≤ n)) = false → (r.open_.find?
   fun o => o.1.inst == inst.toNat) = none →
    FyNext (.contribArrival dt g lv i sub inst) s fun f =>
      f = (s.fy.tick dt).setGrp g.val (x.setRole { r with
        open_ := (r.open_.filter fun o => o.1.inst != inst.toNat) ++ [((x.slot inst.toNat (lv.val + 1) 0 r.epoch).merge c, [i])] })) ∧
  (∀ (s : State) (dt : Nat) (g : GSlot) (lv : Fin 3) (i : Nat) (sub : Fin 2) (inst : Word) (x : Grp) (r : Role) (o : Nat),
   s.fy.grp g.val = some x → x.held lv.val = some r → r.admitted = true → lv.val ≠ 0 → samplingOnly x.period = false → i <
   x.childCount r → o = roleArea g.val lv.val + x.ofs r 0 + x.frame inst.toNat * (x.childCount r * 2 * slotAl (dMetrics
   x.desc)) + (2 * i + sub.val) * slotAl (dMetrics x.desc) → fieldAt (s.fy.ledger o 8) 0 8 = inst.toNat → (slotOfBytes
   (s.fy.ledger o (slotBytes (dMetrics x.desc)))).inst = inst.toNat → x.slotOk (s.fy.ledger o (slotBytes (dMetrics
   x.desc))) = false →
    FyNext (.contribArrival dt g lv i sub inst) s fun f => f = (s.fy.tick dt).bump (0x3480 + g.val) 7 1) ∧
  (∀ (s : State) (dt : Nat) (g : GSlot) (lv : Fin 3) (n : Nat) (x : Grp) (r : Role) (w : PendWrite), s.fy.grp g.val = some
   x → x.held lv.val = some r → r.carry = none → (s.fy.red.writes.filter fun w => w.gslot == g.val && w.role == lv.val &&
   w.c.kind != 2 && x.frame w.c.inst == n) = [w] →
    FyNext (.frameReuseCarry dt g lv n) s fun f =>
      ((f.grp g.val).bind fun x => x.held lv.val).bind (·.carry) = some { w.c with kind := 2 } ∧
      (f.red.writes.filter fun w => w.gslot == g.val && w.role == lv.val && w.c.kind != 2 && x.frame w.c.inst == n) = [] ∧
      f.links = s.fy.links)

/-- R256, R267 to R269: the L1 gathers an instant once, from its deadline on, and counts it. An L2 and the root close an
instant once, from their deadlines on, and count it; the root's summary is published from G + 1.0 ms by its flag alone. A
summary that is sound and of this instant is taken by the L1, which then decides; without one in time the instant is
counted missed and every context of the group is stale. Conventions of the model itself that this rests on: logs 1, 13, 54. -/
def Obligations.InstantCloses : Prop :=
  (∀ (s : State) (dt : Nat) (g : GSlot) (inst : Word) (x : Grp) (r : Role), s.fy.grp g.val = some x → x.reduces inst.toNat
   = true → (x.gathered.all fun n => decide (n < inst.toNat)) = true → inst.toNat + s.fy.rd (0x3410 + g.val) 3 * 1000 ≤
   ts64Of (s.fy.tick dt).ns → (x.roles.find? fun r => r.level == 0 && !r.standby && r.holder) = some r →
    FyNext (.l1GatherClose dt g inst) s fun f => (f.grp g.val).bind (·.gathered) = some inst.toNat) ∧
  (∀ (s : State) (dt : Nat) (g : GSlot) (inst : Word), ((s.fy.grp g.val).any fun x => x.reduces inst.toNat) = false →
    FyNext (.l1GatherClose dt g inst) s fun f => f = s.fy.tick dt) ∧
  (∀ (s : State) (dt : Nat) (g : GSlot) (inst : Word) (x : Grp) (r : Role), s.fy.grp g.val = some x → x.held 1 = some r →
   (s.fy.tick dt).closes x r inst.toNat = true →
    let f₀ := s.fy.tick dt
    let c := { x.closeOf r inst.toNat with level := 2, kind := 0, roleEpoch := f₀.parentEpoch g.val 1 }
    FyNext (.l2Close dt g inst) s fun f =>
      f = ((f₀.setGrp g.val (x.setRole (r.close x inst.toNat))).bump (0x3480 + g.val) 1 1).contribute g.val (r.close x inst.toNat) c ∧
      f.rd (0x3480 + g.val) 1 = raised (0x3480 + g.val) 1 (s.fy.rd (0x3480 + g.val) 1) 1 ∧
      ((f.grp g.val).bind fun y => y.held 1).bind (·.closed) = some inst.toNat) ∧
  (∀ (s : State) (dt : Nat) (g : GSlot) (inst : Word) (x : Grp) (r : Role), s.fy.grp g.val = some x → x.held 2 = some r →
   (s.fy.tick dt).closes x r inst.toNat = true →
    FyNext (.rootClose dt g inst) s fun f =>
      f.rd (0x3480 + g.val) 1 = raised (0x3480 + g.val) 1 (s.fy.rd (0x3480 + g.val) 1) 1 ∧
      ((f.grp g.val).bind fun y => y.held 2).bind (·.closed) = some inst.toNat ∧
      (((f.grp g.val).bind fun y => y.held 2).bind fun r => r.sent.getLast?).map (·.inst) = some (x.closeOf r inst.toNat).inst ∧
      f.links = s.fy.links) ∧
  (∀ (s : State) (dt : Nat) (g : GSlot) (inst : Word) (x : Grp) (r : Role) (c : Contrib), s.fy.grp g.val = some x → x.held
   2 = some r → (s.fy.tick dt).closes x r inst.toNat = false → (r.sent.find? fun c => c.inst == inst.toNat) = some c →
   inst.toNat + 1000000 ≤ ts64Of (s.fy.tick dt).ns → bitOf c.hflags 0 = false →
    let f₀ := s.fy.tick dt
    let d := { c with hflags := setBit c.hflags 0 true }
    let y := x.setRole { r with sent := modFirst (fun (y : Contrib) => y.inst == inst.toNat) (fun _ => d) r.sent }
    FyNext (.rootPublish dt g inst) s fun f =>
      f = (f₀.setGrp g.val y).putSummary g.val x { r with sent := modFirst (fun (y : Contrib) => y.inst == inst.toNat) (fun _ => d) r.sent } d true ∧
      f.grp g.val = some y) ∧
  (∀ (s : State) (dt : Nat) (g : GSlot) (inst : Word) (v : List Byte) (x : Grp) (r : Role), s.fy.grp g.val = some x →
   x.accepts inst.toNat v = true → x.held 1 = none → (x.roles.find? fun r => r.level == 0 && !r.standby && r.holder) = some
   r → (match x.summary with | some c => decide (c.inst < inst.toNat) | none => true) = true →
    let f₀ := s.fy.tick dt
    let c := slotOfBytes v
    FyNext (.summaryRead dt g inst v) s fun f =>
      f = ((f₀.setGrp g.val { x with summary := some c }).writeRanks g.val inst.toNat x c r.armedPorts).decide_ g.val inst.toNat) ∧
  (∀ (s : State) (dt : Nat) (g : GSlot) (inst : Word) (v : List Byte) (x : Grp), s.fy.grp g.val = some x → x.accepts
   inst.toNat v = false →
    FyNext (.summaryRead dt g inst v) s fun f => f = s.fy.tick dt) ∧
  (∀ (s : State) (dt : Nat) (g : GSlot) (inst : Word) (x : Grp), s.fy.grp g.val = some x → x.reduces inst.toNat = true →
   (x.held 0).isSome = true → (x.summary.any fun c => decide (inst.toNat ≤ c.inst)) = false → x.missed < inst.toNat →
   inst.toNat + 1000000 + x.period / 2 ≤ ts64Of (s.fy.tick dt).ns →
    FyNext (.summaryMissed dt g inst) s fun f =>
      f.grp g.val = some { x with missed := inst.toNat } ∧
      f.rd (0x3480 + g.val) 0x0A = raised (0x3480 + g.val) 0x0A (s.fy.rd (0x3480 + g.val) 0x0A) 1 ∧
      (∀ c ∈ f.red.ctx, c.1 / 2 ^ 32 = g.val → c.2.stale = true) ∧ f.red.ctx.map (·.1) = s.fy.red.ctx.map (·.1))

/-- R263, R266, R283: a role writes its heartbeat into its peer's slot. A standby whose peer has been silent for TAKEOVER_US
takes the role over under the next ROLE_EPOCH. An inbound write to the ledger from the tray whose arm-inbox entries it
names lands there byte for byte; one outside the region is refused, counted and changes no byte. Conventions of the model
itself that this rests on: logs 1, 55. -/
def Obligations.RolesAndLedger : Prop :=
  (∀ (s : State) (dt : Nat) (g : GSlot) (lv : Fin 3) (x : Grp) (r : Role) (y : Nat × Nat × Nat), s.fy.grp g.val = some x →
   x.live = true → samplingOnly x.period = false → (x.roles.filter fun r => r.level == lv.val) = [r] → x.peerPlace g.val r
   = some y → y.1 ≠ s.fy.tray →
    FyNext (.peerHeartbeat dt g lv) s fun f =>
      f = (s.fy.tick dt).emit (.fabric y.1 0 (y.2.1 + y.2.2) ((s.fy.tick dt).peerBytes x r))) ∧
  (∀ (s : State) (dt : Nat) (g : GSlot) (lv : Fin 3) (x : Grp) (r : Role), s.fy.grp g.val = some x → x.state = 3 →
   (x.roles.filter fun r => r.level == lv.val && r.standby && !r.holder && r.admitted && decide (max r.seenAt x.eff +
   s.fy.rd 0x3600 0x0B * 1000 ≤ (s.fy.tick dt).ns)) = [r] →
    FyNext (.takeoverTimeout dt g lv) s fun f =>
      f.grp g.val = some (x.setRole { r with holder := true, epoch := (r.epoch + 1) % 65536 }) ∧
      f.rd (0x3480 + g.val) 9 = raised (0x3480 + g.val) 9 (s.fy.rd (0x3480 + g.val) 9) 1 ∧ f.links = s.fy.links) ∧
  (∀ (s : State) (dt : Nat) (src : BitVec 16) (a : Word) (v : List Byte), s.fy.rd 0x3600 1 ≠ 0 → s.fy.rd 0x3600 1 ≤ a.toNat
   → a.toNat - s.fy.rd 0x3600 1 + v.length ≤ s.fy.rd 0x3600 2 → a.toNat - s.fy.rd 0x3600 1 < 2097152 → within (a.toNat -
   s.fy.rd 0x3600 1) v.length (256 * src.toNat) 256 = true → Memory.wf s.fy.red.ledger = true →
    FyNext (.ledgerWriteRx dt src a v) s fun f =>
      f = (s.fy.tick dt).putLedger (a.toNat - s.fy.rd 0x3600 1) v ∧ f.ledger (a.toNat - s.fy.rd 0x3600 1) v.length = v ∧
      Memory.wf f.red.ledger = true) ∧
  (∀ (s : State) (dt : Nat) (src : BitVec 16) (a : Word) (v : List Byte) (j : Nat), s.fy.rd 0x3600 1 ≠ 0 → s.fy.rd 0x3600 1
   ≤ a.toNat → a.toNat - s.fy.rd 0x3600 1 + v.length ≤ s.fy.rd 0x3600 2 → a.toNat - s.fy.rd 0x3600 1 < 2097152 → within
   (a.toNat - s.fy.rd 0x3600 1) v.length (256 * src.toNat) 256 = true → j < a.toNat - s.fy.rd 0x3600 1 ∨ a.toNat - s.fy.rd
   0x3600 1 + v.length ≤ j →
    FyNext (.ledgerWriteRx dt src a v) s fun f => memGet f.red.ledger j = memGet s.fy.red.ledger j) ∧
  (∀ (s : State) (dt : Nat) (src : BitVec 16) (a : Word) (v : List Byte), s.fy.rd 0x3600 1 = 0 ∨ a.toNat < s.fy.rd 0x3600 1
   ∨ s.fy.rd 0x3600 2 < a.toNat - s.fy.rd 0x3600 1 + v.length →
    FyNext (.ledgerWriteRx dt src a v) s fun f =>
      f = (s.fy.tick dt).counted 515 0x3600 0x0A 1 ∧ f.red = s.fy.red)

/-! ### Decisions and the governor -/

/-- R318, R327, R328, R331, R338: a write of the spare pool or of the raise pin takes effect, and the root takes the raise that
follows from it. The root polls once per period and shows the count of its window. A die that is returned leaves QUARANTINE
or FENCED. A signature whose REPLAY does not come is reported without one. A ZOOM notice sets the loop's request of every
set that follows its group. Conventions of the model itself that this rests on: logs 1, 26, 64. -/
def Obligations.GovernorAndZoom : Prop :=
  (∀ (s : State) (dt : Nat) (lvl : Level) (g : GSlot) (b : Bool) (v : BitVec 32), 1 ≤ Level.rank lvl → ((s.fy.grp
   g.val).bind fun x => x.held 2) = none →
    FyNext (.sparePoolWrite dt lvl g b v) s fun f =>
      f = ((s.fy.tick dt).wr (0x3300 + g.val) (if b then 4 else 3) v.toNat).emit (.answer 0)) ∧
  (∀ (s : State) (dt : Nat) (lvl : Level) (g : GSlot) (b : Bool) (v : BitVec 32), 1 ≤ Level.rank lvl → ((s.fy.grp
   g.val).bind fun x => x.held 2).isSome = true →
    FyNext (.sparePoolWrite dt lvl g b v) s fun f =>
      f.rd (0x3300 + g.val) (if b then 4 else 3) = v.toNat ∧
      (f.gov g.val).rho = ((s.fy.tick dt).wr (0x3300 + g.val) (if b then 4 else 3) v.toNat).rhoNow g.val ∧
      f.rd (0x3300 + g.val) 5 = (f.gov g.val).rho ∧ f.out.head? = some (.answer 0) ∧ f.links = s.fy.links) ∧
  (∀ (s : State) (dt : Nat) (lvl : Level) (g : GSlot) (v : BitVec 32), 1 ≤ Level.rank lvl → v.toNat ≤ 1 → ((s.fy.grp
   g.val).bind fun x => x.held 2) = none →
    FyNext (.govRaisePin dt lvl g false v) s fun f => f = ((s.fy.tick dt).wr (0x3300 + g.val) 6 v.toNat).emit (.answer 0)) ∧
  (∀ (s : State) (dt : Nat) (lvl : Level) (g : GSlot) (v : BitVec 32), 1 ≤ Level.rank lvl → fp32.isNan v.toNat = false →
   fp32.le 0 v.toNat = true → fp32.lt 0x3F800000 v.toNat = false → ((s.fy.grp g.val).bind fun x => x.held 2) = none →
    FyNext (.govRaisePin dt lvl g true v) s fun f => f = ((s.fy.tick dt).wr (0x3300 + g.val) 7 v.toNat).emit (.answer 0)) ∧
  (∀ (s : State) (dt : Nat) (lvl : Level) (g : GSlot) (v : BitVec 32), 1 ≤ Level.rank lvl → 1 < v.toNat →
    FyNext (.govRaisePin dt lvl g false v) s fun f => f = (s.fy.tick dt).emit (.answer 0x25)) ∧
  (∀ (s : State) (dt : Nat) (g : GSlot) (l : List (Nat × List Byte)) (x : Grp) (r : Role), s.fy.grp g.val = some x → x.held
   2 = some r → samplingOnly x.period = false → (s.fy.gov g.val).pollAt + 1000 * s.fy.rd (0x3300 + g.val) 9 ≤ (s.fy.tick
   dt).ns →
    FyNext (.govPoll dt g l) s fun f =>
      (f.gov g.val).pollAt = (s.fy.tick dt).ns ∧ f.rd (0x3300 + g.val) 8 = (f.gov g.val).window.length % 65536 ∧
      f.red.groups = s.fy.red.groups ∧ f.links = s.fy.links) ∧
  (∀ (s : State) (dt : Nat) (lvl : Level) (g : GSlot) (n : BitVec 32) (p : Nat), 1 ≤ Level.rank lvl → s.fy.portOfDie
   n.toNat = some p → (s.fy.die g.val p).dstate = 3 ∨ (s.fy.die g.val p).dstate = 4 →
    FyNext (.dieReturned dt lvl g n) s fun f =>
      f = ((s.fy.tick dt).setDie g.val p { s.fy.die g.val p with dstate := (s.fy.die g.val p).base }).emit (.answer 0)) ∧
  (∀ (s : State) (dt : Nat) (p : Port) (n : BitVec 32) (x : SigWait), (s.fy.dec.sigs.find? fun x => x.port == p.val &&
   x.serial == n.toNat) = some x → x.since + 1000000 * s.fy.rd 0x33C0 8 ≤ (s.fy.tick dt).ns →
    let f₀ := s.fy.tick dt
    FyNext (.sigWaitTimeout dt p n) s fun f =>
      f = { f₀ with dec := { f₀.dec with sigs := f₀.dec.sigs.filter fun y => y != x } }.signNow p.val x.r 0 ∧
      f.dec.sigs = s.fy.dec.sigs.filter (fun y => y != x) ∧ f.links = s.fy.links) ∧
  (∀ (s : State) (dt : Nat) (p : Port) (r : Rec), r.type = 0x10 → r.fld 192 8 = 9 →
    let z := if r.fld 200 8 = 1 then r.fld 640 64 else 0
    TuNext (.zoomNoticeRx dt p r) s p fun t =>
      (∀ k < 16, t.set k = if ((s.tu p).set k).follow && ((s.tu p).set k).gslot == r.gslot
        then { (s.tu p).set k with loopZ := z } else (s.tu p).set k) ∧
      t.mace = (s.tu p).mace ∧ t.link = (s.tu p).link)

/-! ### Juniper -/

/-- R301, R302, R304, R305, R307: a staging write puts the image into its slot; it is refused while the slot is STAGING or
BOUND. A fetch that meets an error, and an image that fails the check, leave the slot REJECTED with its reason; an image
that passes leaves it VALID. An accepted MODEL_ORDER waits with its share; a refused one changes nothing. At its time the
binding is in force, the counts of the group start at zero, and the earlier binding stays for the instants before. Rows not
started by their deadline are skipped and counted. Conventions of the model itself that this rests on: logs 1, 26, 61. -/
def Obligations.ModelSlotsAndBinding : Prop :=
  (∀ (s : State) (dt : Nat) (lvl : Level) (k : Fin 3) (v : List Byte), 1 ≤ Level.rank lvl → s.fy.stageCode k.val v.length =
   0 →
    FyNext (.modelImage dt lvl k v) s fun f =>
      f = ((s.fy.tick dt).stage k.val v false).emit (.answer 0) ∧
      (f.mslot k.val).state = 1 ∧ (f.mslot k.val).image = v ∧ f.links = s.fy.links) ∧
  (∀ (s : State) (dt : Nat) (lvl : Level) (k : Fin 3) (v : List Byte), 1 ≤ Level.rank lvl → s.fy.slotState k.val = 1 ∨
   s.fy.slotState k.val = 4 → v.length ≤ 8388608 →
    FyNext (.modelImage dt lvl k v) s fun f => f = (s.fy.tick dt).emit (.answer 0x27)) ∧
  (∀ (s : State) (dt : Nat) (lvl : Level) (k : Fin 3) (v d : List Byte), 1 ≤ Level.rank lvl → v.length = 16 → fieldAt v 12
   1 = 1 ∨ fieldAt v 12 1 = 2 → s.fy.stageCode k.val (fieldAt v 8 4) = 0 →
    FyNext (.stageFrom dt lvl k v d) s fun f =>
      f = ((s.fy.tick dt).stage k.val (d.take (fieldAt v 8 4)) true).emit (.answer 0) ∧ (f.mslot k.val).fetch = true) ∧
  (∀ (s : State) (dt : Nat) (k : Fin 3), (s.fy.mslot k.val).state = 1 → (s.fy.mslot k.val).fetch = true →
    FyNext (.stageFetchError dt k) s fun f =>
      f = (s.fy.tick dt).setMslot k.val { s.fy.mslot k.val with state := 3, error := 0x12 }) ∧
  (∀ (s : State) (dt : Nat) (k : Fin 3), (s.fy.mslot k.val).state = 1 → (s.fy.mslot k.val).fed = true →
    FyNext (.modelCheckDone dt k) s fun f =>
      f = (s.fy.tick dt).setMslot k.val { s.fy.mslot k.val with
        state := if imageFault (s.fy.mslot k.val).image = 0 then 2 else 3
        error := imageFault (s.fy.mslot k.val).image }) ∧
  (∀ (s : State) (dt : Nat) (lvl : Level) (g : GSlot) (v : List Byte) (x : Grp), 1 ≤ Level.rank lvl → s.fy.grp g.val = some
   x → (s.fy.tick dt).part.orderAnswer .model g.val (moSerial v) = .accepted → s.fy.modelOrderCode g.val v = 0 →
    let f₀ := s.fy.tick dt
    let o : Order :=
      { kind := .model, target := g.val, serial := moSerial v, eff := time96 v 0, late := decide (time96 v 0 < f₀.ns), data := v }
    FyNext (.modelOrder dt lvl g v) s fun f =>
      f = ({ f₀ with part := f₀.part.putOrder o }.setBind g.val { s.fy.bind g.val with
            shareNum := (s.fy.orderShare x v).num, shareDen := (s.fy.orderShare x v).den }).emit (.answer 0)) ∧
  (∀ (s : State) (dt : Nat) (lvl : Level) (g : GSlot) (v : List Byte), 1 ≤ Level.rank lvl → v.length = 24 → s.fy.grp g.val
   = none → (s.fy.tick dt).part.orderAnswer .model g.val (moSerial v) = .accepted →
    FyNext (.modelOrder dt lvl g v) s fun f => f = (s.fy.tick dt).emit (.answer 0x27)) ∧
  (∀ (s : State) (dt : Nat) (g : GSlot) (o : Order), s.fy.part.order? .model g.val = some o → o.eff ≤ (s.fy.tick dt).ns →
   s.fy.part.turn .model o.eff = true →
    FyNext (.modelSwap dt g) s fun f =>
      (f.bind g.val).slot = moSlot o.data ∧ (f.bind g.val).serial = o.serial ∧ (f.bind g.val).eff = o.eff ∧
      (f.bind g.val).old = some ((s.fy.bind g.val).slot, (s.fy.bind g.val).serial) ∧
      f.rd (0x4430 + g.val) 6 = 0 ∧ f.rd (0x4430 + g.val) 7 = 0 ∧ f.rd (0x4430 + g.val) 8 = 0 ∧ f.rd (0x4430 + g.val) 9 = 0 ∧
      f.part.order? .model g.val = none ∧ f.jun.rows = s.fy.jun.rows ∧ f.links = s.fy.links) ∧
  (∀ (s : State) (dt : Nat) (g : GSlot) (inst : Word) (r : InstRun) (n : Nat), s.fy.jun.run? g.val inst.toNat = some r →
   r.deadline ≤ (s.fy.tick dt).ns → n = (s.fy.jun.rows.filter fun x => x.gslot == g.val && x.inst == inst.toNat).length → 0
   < n →
    FyNext (.rowDeadline dt g inst) s fun f =>
      f.jun.rows = s.fy.jun.rows.filter (fun x => !(x.gslot == g.val && x.inst == inst.toNat)) ∧
      f.rd (0x4430 + g.val) 8 = raised (0x4430 + g.val) 8 (s.fy.rd (0x4430 + g.val) 8) n ∧
      f.rd 0x4400 8 = raised 0x4400 8 (s.fy.rd 0x4400 8) n ∧ f.links = s.fy.links)

/-- R296, R307, R311, R312: the lanes finish a released row first, and it is scored or rejected and counted; else the row on
demand, whose result can be read when its write is answered. A row that is submitted waits for the lanes, and is answered
BUSY after 10 ms. A batch run starts with its power requested and ends on an abort. Conventions of the model itself that
this rests on: logs 1, 8, 61, 83. -/
def Obligations.RowsAndBatches : Prop :=
  (∀ (s : State) (dt : Nat) (run : InstRun) (r : Row) (out : List Nat) (n : Nat), (s.fy.jun.runs.filter fun r =>
   s.fy.rowsOver r) = [] → s.fy.jun.nextRun = some run → (s.fy.jun.rows.find? fun x => x.gslot == run.gslot && x.inst ==
   run.inst) = some r → r.gslot < 64 → scoreRow (s.fy.mslot r.mslot).image r.raws = .scored out n →
    FyNext (.juniperRowScored dt) s fun f =>
      f.jun.rows = s.fy.jun.rows.erase r ∧
      f.rd (0x4430 + r.gslot) 6 = raised (0x4430 + r.gslot) 6 (s.fy.rd (0x4430 + r.gslot) 6) 1 ∧
      f.rd 0x4400 6 = raised 0x4400 6 (s.fy.rd 0x4400 6) 1 ∧
      (f.dec.health.getLast?.map fun h => (h.gslot, h.inst, h.port, h.tile, h.out)) = some (r.gslot, r.inst, r.port, r.tile, out) ∧
      f.links = s.fy.links) ∧
  (∀ (s : State) (dt : Nat) (run : InstRun) (r : Row) (i : Nat), (s.fy.jun.runs.filter fun r => s.fy.rowsOver r) = [] →
   s.fy.jun.nextRun = some run → (s.fy.jun.rows.find? fun x => x.gslot == run.gslot && x.inst == run.inst) = some r →
   r.gslot < 64 → scoreRow (s.fy.mslot r.mslot).image r.raws = .rejected i →
    FyNext (.juniperRowScored dt) s fun f =>
      f.jun.rows = s.fy.jun.rows.erase r ∧
      f.rd (0x4430 + r.gslot) 7 = raised (0x4430 + r.gslot) 7 (s.fy.rd (0x4430 + r.gslot) 7) 1 ∧
      f.rd 0x4400 7 = raised 0x4400 7 (s.fy.rd 0x4400 7) 1 ∧
      f.dec = s.fy.dec ∧ f.jun.scores = s.fy.jun.scores ∧ f.links = s.fy.links) ∧
  (∀ (s : State) (dt : Nat) (d : Demand), s.fy.jun.runs = [] → s.fy.jun.demand = some d → d.why = none →
    let f₀ := s.fy.tick dt
    FyNext (.juniperRowScored dt) s fun f =>
      f = { f₀ with part := f₀.part.wrDom 0x4470 2 (rowResult (scoreRow (s.fy.mslot d.slot).image d.raws))
                    jun := { f₀.jun with demand := none, busyUntil := f₀.ns } }.emit (.answer 0)) ∧
  (∀ (s : State) (dt : Nat) (lvl : Level) (v : List Byte), 1 ≤ Level.rank lvl → fieldAt v 0 1 ≤ 2 → (s.fy.mslot (fieldAt v
   0 1)).state = 2 → v.length = 8 + 4 * mRaw (s.fy.mslot (fieldAt v 0 1)).image → s.fy.jun.demand = none →
    let f₀ := s.fy.tick dt
    let img := (s.fy.mslot (fieldAt v 0 1)).image
    FyNext (.rowSubmit dt lvl v) s fun f =>
      f = { f₀ with jun := { f₀.jun with demand := some {
            slot := fieldAt v 0 1
            raws := (List.range (mRaw img)).map fun i => (mRawIn img i).value (conv fp32 fp64 .even (fieldAt v (8 + 4 * i) 4))
            since := f₀.ns, why := none } } }) ∧
  (∀ (s : State) (dt : Nat) (lvl : Level) (v : List Byte), 1 ≤ Level.rank lvl → 8 ≤ v.length → fieldAt v 0 1 ≤ 2 →
   (s.fy.mslot (fieldAt v 0 1)).state ≠ 2 → v.length ≠ 8 + 4 * mRaw (s.fy.mslot (fieldAt v 0 1)).image →
    FyNext (.rowSubmit dt lvl v) s fun f => f = (s.fy.tick dt).emit (.answer 0x24)) ∧
  (∀ (s : State) (dt : Nat) (d : Demand), s.fy.jun.demand = some d → d.why = none → d.since + 10000000 ≤ (s.fy.tick dt).ns
   →
    let f₀ := s.fy.tick dt
    FyNext (.rowSubmitTimeout dt) s fun f => f = { f₀ with jun := { f₀.jun with demand := none } }.emit (.answer 0x30)) ∧
  (∀ (s : State) (dt : Nat) (lvl : Level) (n : BitVec 32), 1 ≤ Level.rank lvl → s.fy.jun.batch.state ≠ 1 →
   s.fy.jun.batch.state ≠ 2 → s.fy.jun.batch.spec.isEmpty = false → (s.fy.mslot (fieldAt s.fy.jun.batch.spec 0 1)).state =
   2 →
    let f₀ := s.fy.tick dt
    let f₁ := { f₀ with jun := { f₀.jun with batch := { f₀.jun.batch with state := 1, serial := n.toNat, rows := 0 } } }
    let f₂ := f₁.pwr 5 ((f₁.part.pwrReq 5).ask 250 f₀.part.time.now)
    FyNext (.batchStart dt lvl n) s fun f =>
      f = (if f₂.granted 5 then { f₂ with jun := { f₂.jun with batch := { f₂.jun.batch with state := 2 } } } else f₂).emit (.answer 0)) ∧
  (∀ (s : State) (dt : Nat) (lvl : Level) (n : BitVec 32), 1 ≤ Level.rank lvl → s.fy.jun.batch.state = 1 ∨
   s.fy.jun.batch.state = 2 ∨ s.fy.jun.batch.spec.isEmpty = true →
    FyNext (.batchStart dt lvl n) s fun f => f = (s.fy.tick dt).emit (.answer 0x27)) ∧
  (∀ (s : State) (dt : Nat) (lvl : Level), 1 ≤ Level.rank lvl → s.fy.jun.batch.state = 1 ∨ s.fy.jun.batch.state = 2 →
    FyNext (.batchAbort dt lvl 1) s fun f => f = ((s.fy.tick dt).batchEnd 4).emit (.answer 0) ∧ f.jun.batch = { s.fy.jun.batch with state := 4 })

/-! ### The dictionary -/

/-- R343, R344, R347, R348: a write that one of the shared checks refuses is answered with its code and changes nothing, on
either node; one of an object that has no rule of its own beside its range takes the value, and Fyster stores it where it
is persistent. Conventions of the model itself that this rests on: logs 1, 26. -/
def Obligations.ObjectWrites : Prop :=
  (∀ (s : State) (dt : Nat) (lvl : Level) (i : BitVec 16) (k : Byte) (v : List Byte), writeCode 1 (Level.rank lvl) i.toNat
   k.toNat v ≠ 0 →
    FyNext (.objectWrite dt .fyster lvl i k v) s fun f =>
      f = (s.fy.tick dt).emit (.answer (writeCode 1 (Level.rank lvl) i.toNat k.toNat v))) ∧
  (∀ (s : State) (dt : Nat) (lvl : Level) (i : BitVec 16) (k : Byte) (v : List Byte), writeCode 1 (Level.rank lvl) i.toNat
   k.toNat v = 0 → i.toNat = 0x1100 → s.fy.resetAfter = none →
    let f₁ := (s.fy.tick dt).wr 0x1100 k.toNat (leNat v)
    FyNext (.objectWrite dt .fyster lvl i k v) s fun f =>
      f = { f₁ with objNor := f₁.objNor.start f₁.persistent }.emit (.answer 0) ∧ f.rd 0x1100 k.toNat = leNat v) ∧
  (∀ (s : State) (dt : Nat) (p : Port) (lvl : Level) (i : BitVec 16) (k : Byte) (v : List Byte), writeCode 2 (Level.rank
   lvl) i.toNat k.toNat v ≠ 0 →
    TuNext (.objectWrite dt (.tu p) lvl i k v) s p fun t =>
      t = ((s.tu p).tick dt).emit (.answer (writeCode 2 (Level.rank lvl) i.toNat k.toNat v))) ∧
  (∀ (s : State) (dt : Nat) (p : Port) (lvl : Level) (i : BitVec 16) (k : Byte) (v : List Byte), writeCode 2 (Level.rank
   lvl) i.toNat k.toNat v = 0 → i.toNat = 0x2110 →
    TuNext (.objectWrite dt (.tu p) lvl i k v) s p fun t =>
      t = (((s.tu p).tick dt).wr 0x2110 k.toNat (leNat v)).emit (.answer 0) ∧ t.rd 0x2110 k.toNat = leNat v)

/-- R365, R400: a session arms calibration with CAL_DIGEST and not with another value. A write under the arm changes the
object, spends the arm, counts the change and starts the store of the set; without one it is answered CAL_LOCKED and
changes nothing. A store that reads back comes into force; one that does not is tried once more and then FAILED. A FAILED
procedure is repeated when it is due. Conventions of the model itself that this rests on: logs 1, 69, 75. -/
def Obligations.Calibration : Prop :=
  (∀ (s : State) (dt : Nat) (n : BitVec 32) (lvl : Level) (v : BitVec 32), 2 ≤ Level.rank lvl → (s.fy.session?
   n.toNat).isSome = true → v = BitVec.ofNat 32 s.fy.calDigest →
    let f₀ := s.fy.tick dt
    FyNext (.calArm dt n lvl v) s fun f =>
      f = (f₀.modSession n.toNat fun x => { x with armedAt := some f₀.ns }).emit (.answer 0)) ∧
  (∀ (s : State) (dt : Nat) (n : BitVec 32) (lvl : Level) (v : BitVec 32), 2 ≤ Level.rank lvl → (s.fy.session?
   n.toNat).isSome = true → v ≠ BitVec.ofNat 32 s.fy.calDigest →
    FyNext (.calArm dt n lvl v) s fun f => f = (s.fy.tick dt).emit (.answer 0x2C)) ∧
  (∀ (s : State) (dt : Nat) (n : BitVec 32) (lvl : Level) (i : BitVec 16) (k : Byte) (v : BitVec 32), calIndex i.toNat =
   true → writeCode 1 (Level.rank lvl) i.toNat k.toNat (leBytes 4 v.toNat) = 0 → (s.fy.tick dt).calCode n.toNat = 0 →
   i.toNat ≠ 0x7C10 → i.toNat < 0x7C40 → s.fy.resetAfter = none →
    FyNext (.calWrite dt n lvl i k v) s fun f =>
      f = (((s.fy.tick dt).wr i.toNat k.toNat v.toNat).calChanged n.toNat).emit (.answer 0) ∧
      f.rd i.toNat k.toNat = v.toNat ∧ f.rd 0x7C00 3 = raised 0x7C00 3 (s.fy.rd 0x7C00 3) 1 ∧ f.calNor.busy.isSome = true) ∧
  (∀ (s : State) (dt : Nat) (n : BitVec 32) (lvl : Level) (i : BitVec 16) (k : Byte) (v : BitVec 32), calIndex i.toNat =
   true → writeCode 1 (Level.rank lvl) i.toNat k.toNat (leBytes 4 v.toNat) = 0 → s.fy.calNor.busy = none → (s.fy.tick
   dt).calArmed n.toNat = false →
    FyNext (.calWrite dt n lvl i k v) s fun f => f = (s.fy.tick dt).emit (.answer 0x50)) ∧
  (∀ (s : State) (dt : Nat) (cal : Bool) (v : List (Nat × Nat)) (again : Bool), (if cal then s.fy.calNor else
   s.fy.objNor).busy = some (v, again) →
    FyNext (.norStoreDone dt cal true) s fun f =>
      (if cal then f.calNor else f.objNor) = (if cal then s.fy.calNor else s.fy.objNor).stored ∧
      (if cal then f.calNor else f.objNor).values = some v ∧
      (if cal then f.objNor = s.fy.objNor else f.calNor = s.fy.calNor) ∧ f.links = s.fy.links ∧ f.part.obj = s.fy.part.obj) ∧
  (∀ (s : State) (dt : Nat) (cal : Bool) (v : List (Nat × Nat)) (again : Bool), (if cal then s.fy.calNor else
   s.fy.objNor).busy = some (v, again) →
    FyNext (.norStoreDone dt cal false) s fun f =>
      (if cal then f.calNor else f.objNor).busy = (if again then none else some (v, true)) ∧
      (if cal then f.calNor else f.objNor).values = (if cal then s.fy.calNor else s.fy.objNor).values ∧
      (again = true → (if cal then f.calNor else f.objNor).failed = true ∧ (f.part.recovOf 9).failed = true) ∧
      (if cal then f.objNor = s.fy.objNor else f.calNor = s.fy.calNor) ∧ f.links = s.fy.links) ∧
  (∀ (s : State) (dt : Nat) (p : Port) (row : Fin 12), ((s.tu p).part.recovOf row.val).repeatDue ((s.tu p).tick dt).ns =
   true →
    TuNext (.recoveryRetry dt (.tu p) row) s p fun t =>
      t.part.recovOf row.val = ((s.tu p).part.recovOf row.val).start ((s.tu p).tick dt).ns ∧
      t.link.st = (if row.val = 1 ∧ (s.tu p).link.st = .down then .training else (s.tu p).link.st) ∧ t.sets = (s.tu p).sets) ∧
  (∀ (s : State) (dt : Nat) (row : Fin 12) (p : Port), (s.fy.part.recovOf row.val).repeatDue (s.fy.tick dt).ns = true →
    FyNext (.recoveryRetry dt .fyster row) s fun f =>
      f.part.recovOf row.val = (s.fy.part.recovOf row.val).start (s.fy.tick dt).ns ∧
      (f.link p.val).st = (if row.val = 1 ∧ (s.fy.link p.val).st = .down then .training else (s.fy.link p.val).st) ∧ f.red = s.fy.red)

/-- R366, R367: a CAL_IMAGE that begins with this device's head and gives the 199 objects in order, each with its type and a
value in range, is taken as a whole under an arm: every object has its value, the set is counted as changed and its store
has begun. A value of another length is answered TYPE_LENGTH and changes nothing. Conventions of the model itself that this
rests on: logs 1, 26, 75. -/
def Obligations.CalibrationImage : Prop :=
  (∀ (s : State) (dt : Nat) (n : BitVec 32) (lvl : Level) (ts : Word) (vals : List Nat) (v : List Byte), Level.rank lvl = 2
   → (s.fy.tick dt).calCode n.toNat = 0 → s.fy.resetAfter = none → vals.length = 199 → (∀ x ∈ vals, x < 2 ^ 32) → (∀ e ∈
   calKeys.zip vals, ((objFind 1 e.1.1 e.1.2).any fun r => outOfRange r e.2) = false) → v = calHead ++ wordBytes ts ++
   ((calKeys.zip vals).flatMap fun e => leBytes 8 (packNat [(e.1.1, 16), (e.1.2, 8), (if e.1.1 = 0x7C30 then 8 else 6, 8),
   (e.2, 32)])) →
    ∃ t, exec (.calImage dt n lvl v) s = .next t ∧ (∀ e ∈ calKeys.zip vals, t.fy.rd e.1.1 e.1.2 = e.2) ∧
      t.fy.rd 0x7C00 3 = raised 0x7C00 3 (s.fy.rd 0x7C00 3) 1 ∧ t.fy.calNor.busy.isSome = true ∧
      t.fy.out.head? = some (.answer 0) ∧ t.fy.links = s.fy.links ∧ t.fy.objNor = s.fy.objNor) ∧
  (∀ (s : State) (dt : Nat) (n : BitVec 32) (lvl : Level) (v : List Byte), v.length ≠ 1624 → Level.rank lvl = 2 →
    FyNext (.calImage dt n lvl v) s fun f => f = (s.fy.tick dt).emit (.answer 0x24))

/-! ### Relayed accesses -/

/-- R354, R357, R358, R447: an access that DICT has room for is served and its answer queued. READ answers the value; WRITE and
COMMIT apply one; SEGMENT stores its bytes at its offset; COPY takes the value whole and COPY_READ answers 512 bytes of it.
Conventions of the model itself that this rests on: logs 1, 76, 88. -/
def Obligations.RelayedAccess : Prop :=
  (∀ (s : State) (dt : Nat) (p : Port) (r : Rec) (m : DictMsg) (v : Nat × Nat × List Byte), dictReq r 1 = some m → v =
   ((s.tu p).tick dt).readObj p m.index m.sub → v.1 = 0 → v.2.2.length ≤ 512 → (((s.tu p).tick dt).charge 7 (dictCost
   v.2.2.length) (decide (((s.tu p).tick dt).queued 0 + (64 + 8 * ceilDiv v.2.2.length 8) ≤ reqCap 0))).2 = 0 →
    let t₀ := (((s.tu p).tick dt).charge 7 (dictCost v.2.2.length) (decide (((s.tu p).tick dt).queued 0 + (64 + 8 * ceilDiv v.2.2.length 8) ≤ reqCap 0))).1.internal 0x347 1
    TuNext (.trDictRead dt p r) s p fun t => t = t₀.enqueue 0 7 [t₀.dictRec (m.reply 0 v.2.1 0 0 v.2.2)]) ∧
  (∀ (s : State) (dt : Nat) (p : Port) (r : Rec) (m : DictMsg), dictReq r 2 = some m → typeBad 2 m.index m.sub m.type =
   false → m.index ≠ 0x2E00 → m.index ≠ 0x2940 → (((s.tu p).tick dt).charge 7 (dictCost m.data.length) (decide (((s.tu
   p).tick dt).queued 0 + 64 ≤ reqCap 0))).2 = 0 →
    let t₀ := (((s.tu p).tick dt).charge 7 (dictCost m.data.length) (decide (((s.tu p).tick dt).queued 0 + 64 ≤ reqCap 0))).1.internal 0x347 1
    let x := t₀.wrObj p m.level m.index m.sub m.data
    ∃ u, exec (.trDictWrite dt p r) s = .next u ∧ u.tu p = x.1.enqueue 0 7 [x.1.dictRec (m.fail x.2)] ∧ (∀ q, q ≠ p → u.tu q = s.tu q)) ∧
  (∀ (s : State) (dt : Nat) (p : Port) (r : Rec) (m : DictMsg), dictReq r 3 = some m → segmentCode 2 m.index m.sub m.offset
   m.data.length = 0 → (((s.tu p).tick dt).charge 7 (dictCost m.data.length) (decide (((s.tu p).tick dt).queued 0 + (64 + 8
   * ceilDiv m.data.length 8) ≤ reqCap 0))).2 = 0 → Memory.wf (s.tu p).staging = true →
    TuNext (.trDictSegment dt p r) s p fun t =>
      t.staging = memWrite (s.tu p).staging m.offset m.data ∧ memRead t.staging m.offset m.data.length = m.data ∧
      Memory.wf t.staging = true ∧ t.link = (s.tu p).link ∧ t.part.obj = (s.tu p).part.obj) ∧
  (∀ (s : State) (dt : Nat) (p : Port) (r : Rec) (m : DictMsg) (a : Nat), dictReq r 3 = some m → segmentCode 2 m.index
   m.sub m.offset m.data.length = 0 → (((s.tu p).tick dt).charge 7 (dictCost m.data.length) (decide (((s.tu p).tick
   dt).queued 0 + (64 + 8 * ceilDiv m.data.length 8) ≤ reqCap 0))).2 = 0 → a < m.offset ∨ m.offset + m.data.length ≤ a →
    TuNext (.trDictSegment dt p r) s p fun t => memGet t.staging a = memGet (s.tu p).staging a) ∧
  (∀ (s : State) (dt : Nat) (p : Port) (r : Rec) (m : DictMsg) (v : List Byte), dictReq r 4 = some m → m.index ≠ 0x2E00 →
   m.index ≠ 0x2940 → v = memRead (s.tu p).staging 0 (min m.total 65536) → commitCode m.total m.crc v = 0 → typeBad 2
   m.index m.sub m.type = false → (((s.tu p).tick dt).charge 7 (dictCost 0) (decide (((s.tu p).tick dt).queued 0 + 64 ≤
   reqCap 0))).2 = 0 →
    let t₀ := (((s.tu p).tick dt).charge 7 (dictCost 0) (decide (((s.tu p).tick dt).queued 0 + 64 ≤ reqCap 0))).1.internal 0x347 1
    let x := { t₀ with staging := [] }.wrObj p m.level m.index m.sub v
    ∃ u, exec (.trDictCommit dt p r) s = .next u ∧ u.tu p = x.1.enqueue 0 7 [x.1.dictRec (m.fail x.2)] ∧ (∀ q, q ≠ p → u.tu q = s.tu q)) ∧
  (∀ (s : State) (dt : Nat) (p : Port) (r : Rec) (m : DictMsg), dictReq r 4 = some m → m.total ≤ 65536 → crc32c (memRead
   (s.tu p).staging 0 m.total) ≠ m.crc → (((s.tu p).tick dt).charge 7 (dictCost 0) (decide (((s.tu p).tick dt).queued 0 +
   64 ≤ reqCap 0))).2 = 0 →
    TuNext (.trDictCommit dt p r) s p fun t => t.staging = [] ∧ t.part.obj = (s.tu p).part.obj ∧ t.part.dom = (s.tu p).part.dom ∧ t.link = (s.tu p).link) ∧
  (∀ (s : State) (dt : Nat) (p : Port) (r : Rec) (m : DictMsg) (v : List Byte), dictReq r 5 = some m → (((s.tu p).tick
   dt).charge 7 (dictCost 0) (decide (((s.tu p).tick dt).queued 0 + 64 ≤ reqCap 0))).2 = 0 → ((((s.tu p).tick dt).charge 7
   (dictCost 0) (decide (((s.tu p).tick dt).queued 0 + 64 ≤ reqCap 0))).1.internal 0x347 1).copyOf p m.index m.sub = (0, v)
   →
    let t₀ := (((s.tu p).tick dt).charge 7 (dictCost 0) (decide (((s.tu p).tick dt).queued 0 + 64 ≤ reqCap 0))).1.internal 0x347 1
    let t₁ := { t₀ with dcopy := some { node := p.val + 1, index := m.index, sub := m.sub, bytes := v } }
    TuNext (.trDictCopy dt p r) s p fun t => t = t₁.enqueue 0 7 [t₁.dictRec (m.reply 0 0x0C v.length (crc32c v) [])]) ∧
  (∀ (s : State) (dt : Nat) (p : Port) (r : Rec) (m : DictMsg) (k : Copy) (n : Nat), dictReq r 6 = some m → (s.tu p).dcopy
   = some k → k.index = m.index → k.sub = m.sub → m.offset < k.bytes.length → n = min 512 (k.bytes.length - m.offset) →
   (((s.tu p).tick dt).charge 7 (dictCost n) (decide (((s.tu p).tick dt).queued 0 + (64 + 8 * ceilDiv n 8) ≤ reqCap 0))).2
   = 0 →
    let t₀ := (((s.tu p).tick dt).charge 7 (dictCost n) (decide (((s.tu p).tick dt).queued 0 + (64 + 8 * ceilDiv n 8) ≤ reqCap 0))).1.internal 0x347 1
    TuNext (.trDictCopyRead dt p r) s p fun t => t = t₀.enqueue 0 7 [t₀.dictRec (m.reply 0 0x0C 0 0 (slice k.bytes m.offset n))]) ∧
  (∀ (s : State) (dt : Nat) (p : Port) (r : Rec) (x : Relay), r.type = 0x14 → (dictMsg r).answer = true →
   (s.fy.relays.find? fun x => x.rid == (dictMsg r).rid && x.port == p.val && x.dkind == (dictMsg r).dkind) = some x →
    let f₀ := s.fy.tick dt
    FyNext (.trDictAnswerRx dt p r) s fun f =>
      f = ({ f₀ with relays := f₀.relays.filter fun (y : Relay) => y.rid != x.rid } : Fyster).relayAnswer x (dictMsg r) r.ts64) ∧
  (∀ (s : State) (dt : Nat) (p : Port) (r : Rec), (s.fy.relays.find? fun x => x.rid == (dictMsg r).rid && x.port == p.val
   && x.dkind == (dictMsg r).dkind) = none →
    FyNext (.trDictAnswerRx dt p r) s fun f => f = s.fy.tick dt) ∧
  (∀ (s : State) (dt : Nat) (rid : BitVec 16) (x : Relay), (s.fy.relays.find? fun x => x.rid == rid.toNat) = some x →
   x.sentAt + 200000 * 65536 ≤ (s.fy.tick dt).part.time.now →
    let f₀ := s.fy.tick dt
    FyNext (.nodeTimeout dt rid) s fun f =>
      f = ({ f₀ with relays := f₀.relays.filter fun (y : Relay) => y.rid != x.rid } : Fyster).relayAnswer x
            { dictReadMsg 0 x.index x.sub 0 with dkind := x.dkind, answer := true, abort := 0x12, rid := x.rid } f₀.ts) ∧
  (∀ (s : State) (dt : Nat) (rid : BitVec 16) (x : Relay), (s.fy.relays.find? fun x => x.rid == rid.toNat) = some x →
   (s.fy.tick dt).part.time.now < x.sentAt + 200000 * 65536 →
    FyNext (.nodeTimeout dt rid) s fun f => f = s.fy.tick dt)

/-! ### Events -/

/-- R379, R381 to R384: a grown record is offered again as UPDATE a second after its last offer. EVR_CLEAR discards records and
is logged; a number beyond EVR_TOTAL is answered RANGE. A flush takes an erased slot and freezes Fyster's recorder; without
one it is counted. A TU's flush takes the records of the moment. Firmware erases the oldest flush while no slot is erased.
Conventions of the model itself that this rests on: logs 1, 13, 26, 63. -/
def Obligations.EventRecorder : Prop :=
  (∀ (s : State) (dt : Nat) (n : EvRec), s.fy.part.evr.newest = some n → s.fy.part.evr.updateDue (s.fy.tick dt).ts = true →
    FyNext (.evrUpdateTimer dt .fyster) s fun f =>
      f.part.evr = { s.fy.part.evr with grown := false, offeredAt := (s.fy.tick dt).ts } ∧ f.links = s.fy.links ∧ f.red = s.fy.red ∧
      f.part.obj = s.fy.part.obj) ∧
  (∀ (s : State) (dt : Nat) (p : Port) (n : EvRec), (s.tu p).part.evr.newest = some n → (s.tu p).part.evr.updateDue ((s.tu
   p).tick dt).ts = true →
    let t₀ := (s.tu p).tick dt
    let t₁ := { t₀ with part := { t₀.part with evr := { t₀.part.evr with grown := false, offeredAt := t₀.ts } } }
    let r := { t₁.mkRec 0x0A selfStream n.unit n.gslot t₁.ns (eventPay true n) with ts64 := n.last }
    TuNext (.evrUpdateTimer dt (.tu p)) s p fun t => t = (t₁.offer 5 2 20000 [if n.late then r.setFlag 3 else r]).1) ∧
  (∀ (s : State) (dt : Nat) (v : Word), v.toNat ≤ s.fy.part.evr.total →
    let f₀ := s.fy.tick dt
    let y := f₀.part.evr.clear v.toNat
    FyNext (.evrClear dt .fyster v) s fun f =>
      f = ({ f₀ with part := { f₀.part with evr := y.1 } }.log (event 0x0001 512 0 y.2)).emit (.answer 0)) ∧
  (∀ (s : State) (dt : Nat) (p : Port) (v : Word), v.toNat ≤ (s.tu p).part.evr.total →
    let t₀ := (s.tu p).tick dt
    let y := t₀.part.evr.clear v.toNat
    TuNext (.evrClear dt (.tu p) v) s p fun t =>
      t = ({ t₀ with part := { t₀.part with evr := y.1 } }.log (event 0x0001 224 0 y.2)).emit (.answer 0)) ∧
  (∀ (s : State) (dt : Nat) (v : Word), s.fy.part.evr.total < v.toNat →
    FyNext (.evrClear dt .fyster v) s fun f => f = (s.fy.tick dt).emit (.answer 0x25)) ∧
  (∀ (s : State) (dt : Nat) (lvl : Level) (k : Nat) (l : List Nat), 1 ≤ Level.rank lvl → s.fy.part.evr.flush = none →
   s.fy.erasedSlots = k :: l →
    FyNext (.evrFlush dt .fyster lvl 1) s fun f =>
      f.norSlot = some k ∧ f.part.evr.flush.map (·.cause) = some 3 ∧ f.part.evr.frozen = true ∧ f.flushNor = s.fy.flushNor ∧
      f.out.head? = some (.answer 0) ∧ f.links = s.fy.links ∧ f.red = s.fy.red) ∧
  (∀ (s : State) (dt : Nat) (lvl : Level), 1 ≤ Level.rank lvl → s.fy.part.evr.flush = none → s.fy.erasedSlots = [] →
    FyNext (.evrFlush dt .fyster lvl 1) s fun f => f = ((s.fy.tick dt).counted 512 0x6000 9 1).emit (.answer 0) ∧ f.norSlot = s.fy.norSlot) ∧
  (∀ (s : State) (dt : Nat) (p : Port) (lvl : Level), 1 ≤ Level.rank lvl → (s.tu p).part.evr.flush = none → (s.tu
   p).part.evr.log ≠ [] →
    TuNext (.evrFlush dt (.tu p) lvl 1) s p fun t =>
      t.part.evr.flush.map (fun x => (x.cause, x.records)) = some (3, (s.tu p).part.evr.log) ∧
      t.part.evr.flushSerial = (s.tu p).part.evr.flushSerial + 1 ∧ t.out.head? = some (.answer 0) ∧ t.link = (s.tu p).link) ∧
  (∀ (s : State) (dt : Nat) (p : Port) (r : Rec), isPfailEvent r = true → (s.tu p).part.evr.flush = none → (s.tu
   p).part.evr.log ≠ [] →
    TuNext (.pfailEventRx dt p r) s p fun t =>
      t.part.evr.flush.map (fun x => (x.cause, x.records)) = some (1, (s.tu p).part.evr.log) ∧ t.link = (s.tu p).link) ∧
  (∀ (s : State) (dt : Nat) (p : Port) (r : Rec), isPfailEvent r = false →
    TuNext (.pfailEventRx dt p r) s p fun t => t = (s.tu p).tick dt) ∧
  (∀ (s : State) (dt : Nat) (e : Nat × NorFlush), s.fy.boot.running = true → s.fy.erasedSlots = [] → (sortBy (fun (a b :
   Nat × NorFlush) => decide (a.2.serial ≤ b.2.serial)) s.fy.flushNor).head? = some e →
    FyNext (.norSlotEraseDone dt) s fun f => f = { s.fy.tick dt with flushNor := tdel s.fy.flushNor e.1 })

/-! ### Mailbox channels -/

/-- R368, R369, R372, R374: a message of 64 bytes enters the channel with the next MSEQ and its sender's stamp. A message at a
full queue is lost and counted; a write that is no doorbell is counted and reaches no queue. An acknowledgement takes the
head message and shows its code, its MSEQ and its sender. Direction and idle intent are written; a direction is refused
while the queue holds a message. Conventions of the model itself that this rests on: logs 1, 13, 26, 66. -/
def Obligations.Channels : Prop :=
  (∀ (s : State) (dt : Nat) (p : Port) (c : Fin 64) (stamp : BitVec 32) (v : List Byte), c.val < 8 → v.length = 64 → ((s.tu
   p).chan c.val).out = false → ((s.tu p).chan c.val).queue.length < 16 →
    TuNext (.mboxDoorbell dt (.tu p) c stamp v) s p fun t =>
      (t.chan c.val).queue = ((s.tu p).chan c.val).queue ++ [{ body := v, stamp := stamp, mseq := ((s.tu p).chan c.val).mseq }] ∧
      (t.chan c.val).mseq = (((s.tu p).chan c.val).mseq + 1) % 65536 ∧ (t.chan c.val).ackIrq = false ∧
      t.rd (0x6110 + c.val) 3 = raised (0x6110 + c.val) 3 ((s.tu p).rd (0x6110 + c.val) 3) 1 ∧ t.link = (s.tu p).link) ∧
  (∀ (s : State) (dt : Nat) (p : Port) (c : Fin 64) (stamp : BitVec 32) (v : List Byte), c.val < 8 → v.length ≠ 64 ∨ ((s.tu
   p).chan c.val).out = true →
    TuNext (.mboxDoorbell dt (.tu p) c stamp v) s p fun t =>
      t = (((s.tu p).tick dt).bump (0x6110 + c.val) 5 1).log (event 0x0005 224 c.val stamp.toNat)) ∧
  (∀ (s : State) (dt : Nat) (c : Fin 64) (stamp : BitVec 32) (v : List Byte), v.length = 64 → (s.fy.chan c.val).out = false
   → stampPort stamp ≠ 0x12 → (s.fy.chan c.val).queue.length < 16 →
    FyNext (.mboxDoorbell dt .fyster c stamp v) s fun f =>
      (f.chan c.val).queue = (s.fy.chan c.val).queue ++ [{ body := v, stamp := stamp, mseq := (s.fy.chan c.val).mseq }] ∧
      f.rd (0x6110 + c.val) 3 = raised (0x6110 + c.val) 3 (s.fy.rd (0x6110 + c.val) 3) 1 ∧ f.links = s.fy.links) ∧
  (∀ (s : State) (dt : Nat) (c : Fin 64) (stamp : BitVec 32) (v : List Byte), v.length = 64 → (s.fy.chan c.val).out = false
   → stampPort stamp ≠ 0x12 → 16 ≤ (s.fy.chan c.val).queue.length →
    FyNext (.mboxDoorbell dt .fyster c stamp v) s fun f =>
      (f.chan c.val).queue = (s.fy.chan c.val).queue ∧
      f.rd (0x6110 + c.val) 4 = raised (0x6110 + c.val) 4 (s.fy.rd (0x6110 + c.val) 4) 1 ∧ f.links = s.fy.links) ∧
  (∀ (s : State) (dt : Nat) (c : Fin 64) (rc : BitVec 16) (v : List Byte) (m : Msg) (l : List Msg), (s.fy.chan c.val).queue
   = m :: l →
    FyNext (.mboxAck dt .fyster c rc v) s fun f =>
      (f.chan c.val).queue = l ∧ (f.chan c.val).ackCode = rc ∧ (f.chan c.val).ackMseq = BitVec.ofNat 16 m.mseq ∧
      (f.chan c.val).ackSender = m.stamp ∧ (f.chan c.val).ackIrq = true ∧
      f.out = (if (s.fy.chan c.val).out then s.fy.out else .msix c.val :: s.fy.out) ∧ f.links = s.fy.links) ∧
  (∀ (s : State) (dt : Nat) (p : Port) (c : Fin 64) (rc : BitVec 16) (v : List Byte) (m : Msg) (l : List Msg), c.val < 8 →
   ((s.tu p).chan c.val).out = false → ((s.tu p).chan c.val).queue = m :: l →
    TuNext (.mboxAck dt (.tu p) c rc v) s p fun t =>
      (t.chan c.val).queue = l ∧ (t.chan c.val).ackCode = rc ∧ (t.chan c.val).ackMseq = BitVec.ofNat 16 m.mseq ∧
      (t.chan c.val).ackSender = m.stamp ∧ (t.chan c.val).ackIrq = true ∧ t.mace = (s.tu p).mace ∧ t.link = (s.tu p).link) ∧
  (∀ (s : State) (dt : Nat) (c : Fin 64) (rc : BitVec 16) (v : List Byte), (s.fy.chan c.val).queue = [] →
    FyNext (.mboxAck dt .fyster c rc v) s fun f => f = (s.fy.tick dt).bump (0x6110 + c.val) 5 1) ∧
  (∀ (s : State) (dt : Nat) (c : Fin 64) (v : Bool),
    FyNext (.idleIntentWrite dt .fyster c v) s fun f => f = (s.fy.tick dt).putChan c.val { s.fy.chan c.val with idleIntent := v }) ∧
  (∀ (s : State) (dt : Nat) (p : Port) (c : Fin 64) (v : Bool), c.val < 8 →
    TuNext (.idleIntentWrite dt (.tu p) c v) s p fun t => t = ((s.tu p).tick dt).putChan c.val { (s.tu p).chan c.val with idleIntent := v }) ∧
  (∀ (s : State) (dt : Nat) (lvl : Level) (c : Fin 64) (v : Byte), 1 ≤ Level.rank lvl → v.toNat ≤ 1 → (s.fy.chan
   c.val).queue = [] →
    FyNext (.chDirWrite dt .fyster lvl c v) s fun f =>
      f = ((s.fy.tick dt).putChan c.val { s.fy.chan c.val with out := v.toNat == 1 }).emit (.answer 0)) ∧
  (∀ (s : State) (dt : Nat) (lvl : Level) (c : Fin 64) (v : Byte), 1 ≤ Level.rank lvl → v.toNat ≤ 1 → (s.fy.chan
   c.val).queue ≠ [] →
    FyNext (.chDirWrite dt .fyster lvl c v) s fun f => f = (s.fy.tick dt).emit (.answer 0x27)) ∧
  (∀ (s : State) (dt : Nat) (p : Port) (lvl : Level) (c : Fin 64) (v : Byte), 1 ≤ Level.rank lvl → c.val < 8 → v.toNat ≤ 1
   → ((s.tu p).chan c.val).queue = [] → v.toNat = 1 ∨ (s.tu p).rd 0x2900 9 ≠ c.val →
    TuNext (.chDirWrite dt (.tu p) lvl c v) s p fun t =>
      t = (((s.tu p).tick dt).putChan c.val { (s.tu p).chan c.val with out := v.toNat == 1 }).emit (.answer 0)) ∧
  (∀ (s : State) (dt : Nat) (p : Port) (lvl : Level) (v : Byte), 1 ≤ Level.rank lvl → v.toNat ≤ 7 → ((s.tu p).chan
   v.toNat).out = true →
    TuNext (.taintMboxChWrite dt p lvl v) s p fun t => t = (((s.tu p).tick dt).wr 0x2900 9 v.toNat).emit (.answer 0))

/-- R345, R373, R450: the dictionary message at the head of an IN channel is served and acknowledged: a read with the value, a
write with its code, a segment gathered, a commit applied as one. Fyster relays what names a TU. A message with another
code is answered MALFORMED; one for firmware is handed to it. Conventions of the model itself that this rests on: logs 1,
77. -/
def Obligations.MailboxDictionary : Prop :=
  (∀ (s : State) (dt : Nat) (p : Port) (c : Fin 64) (q : MboxReq) (v : Nat × Nat × List Byte), ((s.tu p).chan
   c.val).dictReq 0x60 = some q → v = ((s.tu p).tick dt).readObj p q.index q.sub → v.1 = 0 → v.2.1 ≠ 12 → (((s.tu p).tick
   dt).mboxCharge (min 48 v.2.2.length) 0).2 = false → q.code (q.node != 0) ((s.tu p).part.mboxLevel false q.stamp) false =
   0 →
    TuNext (.dictRead dt (.tu p) c) s p fun t =>
      t = ((((s.tu p).tick dt).mboxCharge (min 48 v.2.2.length) 0).1).mboxAnswer c.val 0 v.2.1 v.2.2.length (v.2.2.take 48) ∧
      (t.chan c.val).queue = ((s.tu p).chan c.val).queue.tail ∧ (t.chan c.val).ackCode = 0) ∧
  (∀ (s : State) (dt : Nat) (c : Fin 64) (q : MboxReq) (v : Nat × Nat × List Byte), s.fy.mboxReq c.val 0x60 = some q →
   s.fy.mboxCode q = 0 → q.node = 0 → v = (s.fy.tick dt).readObj q.index q.sub → v.1 = 0 → v.2.1 ≠ 12 →
    FyNext (.dictRead dt .fyster c) s fun f =>
      f = (s.fy.tick dt).mboxAnswer c.val 0 v.2.1 v.2.2.length (v.2.2.take 48) ∧
      (f.chan c.val).queue = (s.fy.chan c.val).queue.tail ∧ (f.chan c.val).ackCode = 0) ∧
  (∀ (s : State) (dt : Nat) (c : Fin 64) (q : MboxReq) (a : Nat), s.fy.mboxReq c.val 0x60 = some q → s.fy.mboxCode q = a →
   0 < a →
    FyNext (.dictRead dt .fyster c) s fun f =>
      f = (s.fy.tick dt).mboxAnswer c.val a q.type 0 [] ∧ (f.chan c.val).queue = (s.fy.chan c.val).queue.tail ∧
      (f.chan c.val).ackCode = BitVec.ofNat 16 a) ∧
  (∀ (s : State) (dt : Nat) (p : Port) (c : Fin 64) (q : MboxReq), ((s.tu p).chan c.val).dictReq 0x61 = some q → (((s.tu
   p).tick dt).mboxCharge q.len q.len).2 = false → q.code (q.node != 0) ((s.tu p).part.mboxLevel false q.stamp) false = 0 →
   q.index = 0x2110 → typeBad 2 q.index q.sub q.type = false → writeCode 2 ((s.tu p).part.mboxLevel false q.stamp - 1)
   q.index q.sub q.data = 0 →
    TuNext (.dictWrite dt (.tu p) c) s p fun t =>
      t = ((((s.tu p).tick dt).mboxCharge q.len q.len).1.wr 0x2110 q.sub (leNat q.data)).mboxAnswer c.val 0 q.type 0 [] ∧
      t.rd 0x2110 q.sub = leNat q.data) ∧
  (∀ (s : State) (dt : Nat) (c : Fin 64) (q : MboxReq), s.fy.mboxReq c.val 0x61 = some q → s.fy.mboxCode q = 0 → q.node ≠ 0
   →
    FyNext (.dictWrite dt .fyster c) s fun f =>
      f = (s.fy.tick dt).relay (q.node - 1) (.mailbox c.val 0 0 0) (dictWriteMsg (s.fy.mboxLevel q) q.index q.sub q.type q.data) ∧
      (f.chan c.val).queue = (s.fy.chan c.val).queue) ∧
  (∀ (s : State) (dt : Nat) (p : Port) (c : Fin 64) (q : MboxReq), ((s.tu p).chan c.val).dictReq 0x62 = some q → (((s.tu
   p).tick dt).mboxCharge q.len q.len).2 = false → q.code (q.node != 0) ((s.tu p).part.mboxLevel false q.stamp) false = 0 →
   segmentCode 2 q.index q.sub q.ofs q.data.length = 0 →
    let t₀ := (((s.tu p).tick dt).mboxCharge q.len q.len).1
    TuNext (.dictSegment dt (.tu p) c) s p fun t =>
      t = (t₀.putChan c.val ((t₀.chan c.val).place q)).mboxAnswer c.val 0 q.type 0 [] ∧
      (t.chan c.val).gather.map (·.bytes) = some (memWrite ((((s.tu p).chan c.val).gathered q).getD []) q.ofs q.data)) ∧
  (∀ (s : State) (dt : Nat) (c : Fin 64) (q : MboxReq), s.fy.mboxReq c.val 0x62 = some q → s.fy.mboxCode q = 0 →
   segmentCode (if q.node = 0 then 1 else 2) q.index q.sub q.ofs q.data.length = 0 →
    let f₀ := s.fy.tick dt
    FyNext (.dictSegment dt .fyster c) s fun f =>
      f = (f₀.putChan c.val ((f₀.chan c.val).place q)).mboxAnswer c.val 0 q.type 0 []) ∧
  (∀ (s : State) (dt : Nat) (p : Port) (c : Fin 64) (q : MboxReq) (b : List Host.Cell), ((s.tu p).chan c.val).dictReq 0x63
   = some q → (((s.tu p).tick dt).mboxCharge 0 0).2 = false → q.code (q.node != 0) ((s.tu p).part.mboxLevel false q.stamp)
   false = 0 → ((s.tu p).chan c.val).gathered q = some b → q.total ≤ 65536 → q.index ≠ 0x2E00 → q.index ≠ 0x2940 →
    let t₀ := (((s.tu p).tick dt).mboxCharge 0 0).1
    let x := (t₀.putChan c.val { t₀.chan c.val with gather := none }).wrObj p ((s.tu p).part.mboxLevel false q.stamp - 1) q.index q.sub (memRead b 0 q.total)
    ∃ u, exec (.dictCommit dt (.tu p) c) s = .next u ∧ u.tu p = x.1.mboxAnswer c.val x.2 q.type 0 [] ∧ (∀ k, k ≠ p → u.tu k = s.tu k)) ∧
  (∀ (s : State) (dt : Nat) (c : Fin 64) (q : MboxReq) (b : List Host.Cell), s.fy.mboxReq c.val 0x63 = some q →
   s.fy.mboxCode q = 0 → (s.fy.chan c.val).gathered q = some b → q.total ≤ 65536 → q.node = 0 → q.index = 0x4480 → q.sub =
   1 → writeCode 1 (s.fy.mboxLevel q) 0x4480 1 (memRead b 0 q.total) = 0 → batchSpecCode (memRead b 0 q.total) = 0 →
   s.fy.jun.batch.state = 0 → s.fy.resetAfter = none →
    let f₁ := (s.fy.tick dt).putChan c.val { s.fy.chan c.val with gather := none }
    FyNext (.dictCommit dt .fyster c) s fun f =>
      f = { f₁ with jun := { f₁.jun with batch := { f₁.jun.batch with spec := memRead b 0 q.total } } }.mboxAnswer c.val 0 q.type 0 []) ∧
  (∀ (s : State) (dt : Nat) (c : Fin 64) (q : MboxReq), s.fy.mboxReq c.val 0x63 = some q → s.fy.mboxCode q = 0 → (s.fy.chan
   c.val).gathered q = none → q.total ≤ 65536 →
    FyNext (.dictCommit dt .fyster c) s fun f => f = (s.fy.tick dt).mboxAnswer c.val 0x27 q.type 0 [] ∧ f.jun = s.fy.jun) ∧
  (∀ (s : State) (dt : Nat) (p : Port) (c : Fin 64) (m : Msg), ((s.tu p).chan c.val).headIn = some m → otherCode (fieldAt
   m.body 0 1) = true →
    TuNext (.mboxReservedCode dt (.tu p) c) s p fun t =>
      t = ((s.tu p).tick dt).ack c.val 1 [] ∧ (t.chan c.val).queue = ((s.tu p).chan c.val).queue.tail ∧ (t.chan c.val).ackCode = 1) ∧
  (∀ (s : State) (dt : Nat) (c : Fin 64) (m : Msg), (s.fy.chan c.val).headIn = some m → otherCode (fieldAt m.body 0 1) =
   true → fieldAt m.body 0 1 < 0x80 →
    FyNext (.mboxReservedCode dt .fyster c) s fun f =>
      f = (s.fy.tick dt).ack c.val 1 [] ∧ (f.chan c.val).queue = (s.fy.chan c.val).queue.tail ∧ (f.chan c.val).ackCode = 1) ∧
  (∀ (s : State) (dt : Nat) (c : Fin 64) (m : Msg), (s.fy.chan c.val).headIn = some m → 0x80 ≤ fieldAt m.body 0 1 →
    FyNext (.mboxReservedCode dt .fyster c) s fun f => f = (s.fy.tick dt).emit (.firmware c.val m.body))

/-! ### The Thotus dictionary protocol -/

/-- R351, R352, R361: HELLO waits for the security block, and an address that is locked out is answered AUTH_FAILED. Leave
gives a provisional session and CHALLENGE; none counts as a failure. AUTH gives its PROOF to the security block; a PROOF
that holds opens the session, one that does not ends it. A provisional session and a silent session end on time, and so
does a lockout. Conventions of the model itself that this rests on: logs 1, 67. -/
def Obligations.OpeningASession : Prop :=
  (∀ (s : State) (dt : Nat) (m : Datagram) (h : TdpMsg), s.fy.tdpFor m 1 = some h → h.shape = true → h.version = 1 →
   (s.fy.tick dt).lockedOut h.src = false → fieldAt h.value 4 1 = 1 ∨ fieldAt h.value 4 1 = 2 → s.fy.sessions.length < 16 →
   (recentMs (s.fy.tick dt).ns 1000 (s.fy.source h.src).times).length < s.fy.rd 0x1100 3 →
    let f₀ := s.fy.tick dt
    let f₁ := f₀.putSource { s.fy.source h.src with times := recentMs f₀.ns 1000 (s.fy.source h.src).times ++ [f₀.ns] }
    FyNext (.tdpHello dt m) s fun f =>
      f = { f₁ with hellos := f₁.hellos ++
              [({ src := h.src, port := h.port, key := fieldAt h.value 0 4, level := fieldAt h.value 4 1, seq := h.seq } : Hello)] }) ∧
  (∀ (s : State) (dt : Nat) (m : Datagram) (h : TdpMsg), s.fy.tdpFor m 1 = some h → h.shape = true → h.version = 1 →
   (s.fy.tick dt).lockedOut h.src = true →
    FyNext (.tdpHello dt m) s fun f =>
      f = ((s.fy.tick dt).bump 0x1101 6 1).refuse { h.ask with session := 0 } false false 4 ∧ f.hellos = s.fy.hellos ∧ f.sessions = s.fy.sessions) ∧
  (∀ (s : State) (dt : Nat) (a : SecLeave) (h : Hello), s.fy.boot.running = true → (s.fy.hellos.find? fun h => h.src ==
   a.src) = some h → a.leave = true → s.fy.sessions.length < 16 →
    let f₀ := s.fy.tick dt
    let f₁ := { f₀ with hellos := f₀.hellos.erase h, nextSession := s.fy.nextSession % (2 ^ 32 - 1) + 1
                        sessions := f₀.sessions ++ [h.provisional s.fy.nextSession f₀.ns] }
    FyNext (.tdpChallengeReady dt a) s fun f =>
      f = f₁.sendDatagram h.src h.port false
            ((openOut 2 s.fy.nextSession h.seq false f₁.ts).bytes 16 (slice (a.nonce ++ List.replicate 16 0) 0 16))) ∧
  (∀ (s : State) (dt : Nat) (a : SecLeave) (h : Hello), s.fy.boot.running = true → (s.fy.hellos.find? fun h => h.src ==
   a.src) = some h → a.leave = false →
    let f₀ := s.fy.tick dt
    FyNext (.tdpChallengeReady dt a) s fun f =>
      f = (({ f₀ with hellos := f₀.hellos.erase h }).authFail h.src).refuse h.ask false false 4 ∧ f.sessions = s.fy.sessions) ∧
  (∀ (s : State) (dt : Nat) (m : Datagram) (h : TdpMsg) (x : Session), s.fy.tdpFor m 3 = some h → h.shape = true →
   h.version = 1 → (s.fy.sessions.find? fun s => s.id == h.session) = some x → x.live = false → x.proof = none → (s.fy.tick
   dt).ns ≤ x.since + 5000000000 →
    FyNext (.tdpAuth dt m) s fun f =>
      f = (s.fy.tick dt).modSession h.session fun x => { x with proof := some h.seq, src := h.src, port := h.port }) ∧
  (∀ (s : State) (dt : Nat) (m : Datagram) (h : TdpMsg) (x : Session), s.fy.tdpFor m 3 = some h → h.shape = true →
   h.version = 1 → (s.fy.sessions.find? fun s => s.id == h.session) = some x → x.live = false → x.proof = none → x.since +
   5000000000 < (s.fy.tick dt).ns →
    FyNext (.tdpAuth dt m) s fun f => f = (((s.fy.tick dt).closeSession h.session).authFail h.src).refuse h.ask false false 4) ∧
  (∀ (s : State) (dt : Nat) (n : BitVec 32) (x : Session) (q : Nat), s.fy.boot.running = true → (s.fy.sessions.find? fun s
   => s.id == n.toNat && !s.live) = some x → x.proof = some q →
    let f₀ := s.fy.tick dt
    let f₁ := f₀.modSession n.toNat fun x => { x with live := true, proof := none, lastAt := f₀.ns }
    FyNext (.tdpAuthChecked dt n true) s fun f =>
      f = f₁.sendDatagram x.src x.port true ((openOut 4 n.toNat q true f₁.ts).bytes 8 (leBytes 8 (s.fy.rd 0x1100 2)))) ∧
  (∀ (s : State) (dt : Nat) (n : BitVec 32) (x : Session) (q : Nat), s.fy.boot.running = true → (s.fy.sessions.find? fun s
   => s.id == n.toNat && !s.live) = some x → x.proof = some q →
    FyNext (.tdpAuthChecked dt n false) s fun f =>
      f = (((s.fy.tick dt).closeSession n.toNat).authFail x.src).refuse
            { session := n.toNat, src := x.src, port := x.port, seq := q, mtype := 3, node := 0xFF, index := 0, sub := 0 } false false 4 ∧
      f.sessions = s.fy.sessions.filter (fun y => y.id != n.toNat)) ∧
  (∀ (s : State) (dt : Nat) (n : BitVec 32) (x : Session), (s.fy.sessions.find? fun s => s.id == n.toNat) = some x → x.live
   = false → x.proof = none → x.since + 5000000000 ≤ (s.fy.tick dt).ns →
    FyNext (.tdpAuthTimeout dt n) s fun f => f = (s.fy.tick dt).closeSession n.toNat) ∧
  (∀ (s : State) (dt : Nat) (n : BitVec 32) (x : Session), s.fy.session? n.toNat = some x → x.lastAt + s.fy.rd 0x1100 2 *
   1000000000 ≤ (s.fy.tick dt).ns →
    FyNext (.sessionIdleTimeout dt n) s fun f =>
      f = (s.fy.tick dt).closeSession n.toNat ∧ f.session? n.toNat = none ∧ f.links = s.fy.links) ∧
  (∀ (s : State) (dt : Nat) (a : BitVec 128), (s.fy.source a).locked.isSome = true → (s.fy.tick dt).lockedOut a = false →
    FyNext (.authLockoutExpiry dt a) s fun f => f = (s.fy.tick dt).putSource { s.fy.source a with locked := none }) ∧
  (∀ (s : State) (dt : Nat) (m : Datagram), s.fy.boot.running = true → tdpMsg m = none →
    FyNext (.tdpMalformedDrop dt m) s fun f => f = (s.fy.tick dt).bump 0x1101 5 1)

/-- R342, R347, R350, R352, R353: a request that is admitted is performed once: READ answers the value, WRITE its code; what
names a TU is relayed to it. A SEQ that the session has received is not performed again: its kept answer leaves with REPEAT
set. CLOSE ends the session. Conventions of the model itself that this rests on: logs 1, 67. -/
def Obligations.Requests : Prop :=
  (∀ (s : State) (dt : Nat) (m : Datagram) (h : TdpMsg) (v : Nat × Nat × List Byte), s.fy.tdpFor m 0x10 = some h →
   ((s.fy.tick dt).tdpTake h).2 = true → h.node = 0 → v = ((s.fy.tick dt).tdpTake h).1.readObj h.index h.sub → v.1 = 0 →
   v.2.2.length ≤ 512 →
    let f₁ := ((s.fy.tick dt).tdpTake h).1
    FyNext (.tdpRead dt m) s fun f => f = f₁.answer h.ask 0 v.2.1 f₁.ts v.2.2) ∧
  (∀ (s : State) (dt : Nat) (m : Datagram) (h : TdpMsg), s.fy.tdpFor m 0x10 = some h → ((s.fy.tick dt).tdpTake h).2 = true
   → h.node ≠ 0 → s.fy.nodeCode h.node = 0 →
    let f₁ := ((s.fy.tick dt).tdpTake h).1
    FyNext (.tdpRead dt m) s fun f => f = f₁.relay (h.node - 1) h.why (dictReadMsg (f₁.levelOf h.session) h.index h.sub h.type)) ∧
  (∀ (s : State) (dt : Nat) (m : Datagram) (h : TdpMsg) (x : Session) (k : Kept), s.fy.tdpFor m 0x10 = some h → h.shape =
   true → h.version = 1 → h.tagged = true → h.tagOk = true → s.fy.session? h.session = some x → x.received h.seq = true →
   h.seq ≠ 0 → (x.kept.find? fun k => k.seq == h.seq) = some k →
    let f₀ := s.fy.tick dt
    let f₁ := f₀.modSession h.session fun y => { y with lastAt := f₀.ns, src := h.src, port := h.port }
    FyNext (.tdpRead dt m) s fun f => f = (f₁.bump 0x1101 7 1).sendDatagram h.src h.port true (asRepeat k.bytes)) ∧
  (∀ (s : State) (dt : Nat) (m : Datagram) (h : TdpMsg), s.fy.tdpFor m 0x12 = some h → ((s.fy.tick dt).tdpTake h).2 = true
   → h.node = 0 → h.index = 0x1100 → typeBad 1 h.index h.sub h.type = false → writeCode 1 (((s.fy.tick dt).tdpTake
   h).1.levelOf h.session) h.index h.sub h.value = 0 → s.fy.resetAfter = none →
    let f₁ := ((s.fy.tick dt).tdpTake h).1.wr 0x1100 h.sub (leNat h.value)
    FyNext (.tdpWrite dt m) s fun f =>
      f = { f₁ with objNor := f₁.objNor.start f₁.persistent }.answer h.ask 0 h.type f₁.ts [] ∧ f.rd 0x1100 h.sub = leNat h.value) ∧
  (∀ (s : State) (dt : Nat) (m : Datagram) (h : TdpMsg), s.fy.tdpFor m 0x12 = some h → ((s.fy.tick dt).tdpTake h).2 = true
   → h.node ≠ 0 → s.fy.nodeCode h.node = 0 →
    let f₁ := ((s.fy.tick dt).tdpTake h).1
    FyNext (.tdpWrite dt m) s fun f => f = f₁.relay (h.node - 1) h.why (dictWriteMsg (f₁.levelOf h.session) h.index h.sub h.type h.value)) ∧
  (∀ (s : State) (dt : Nat) (m : Datagram) (h : TdpMsg), s.fy.tdpFor m 0x05 = some h → ((s.fy.tick dt).tdpTake h).2 = true
   → h.session ≠ 0 →
    let f₁ := ((s.fy.tick dt).tdpTake h).1
    FyNext (.tdpClose dt m) s fun f =>
      f = (f₁.answer h.ask 0 0 f₁.ts []).closeSession h.session ∧ f.session? h.session = none)

/-- R355 to R358: an INIT opens a transfer of its object. A segment in order is taken, one out of order is acknowledged again.
An acknowledgement moves the window on, and silence sends the segments again. BLK_END applies what the segments hold if its
length and CRC hold, and answers BLOCK_CRC if not. A second without a message ends the transfer with BLOCK_TIMEOUT.
Conventions of the model itself that this rests on: logs 1, 67. -/
def Obligations.BlockTransfers : Prop :=
  (∀ (s : State) (dt : Nat) (m : Datagram) (h : TdpMsg) (v : Nat × Nat × List Byte), s.fy.tdpFor m 0x20 = some h →
   ((s.fy.tick dt).tdpTake h).2 = true → h.session ≠ 0 → h.node = 0 → v = ((s.fy.tick dt).tdpTake h).1.readObj h.index
   h.sub → v.1 = 0 → v.2.1 = 12 → s.fy.xfersFull h.session = false →
    let f₁ := ((s.fy.tick dt).tdpTake h).1
    let x := h.xfer s.fy.nextXfer f₁.ns false v.2.2.length (crc32c v.2.2) v.2.2
    FyNext (.blkReadInit dt m) s fun f =>
      f = { f₁ with nextXfer := s.fy.nextXfer % 65535 + 1, xfers := f₁.xfers ++ [x] }.xferOpen s.fy.nextXfer f₁.ts) ∧
  (∀ (s : State) (dt : Nat) (m : Datagram) (h : TdpMsg), s.fy.tdpFor m 0x21 = some h → ((s.fy.tick dt).tdpTake h).2 = true
   → h.session ≠ 0 → s.fy.nodeCode h.node = 0 → blkWriteCode (if h.node = 0 then 1 else 2) h.index h.sub (fieldAt h.value 0
   4) = 0 → s.fy.xfersFull h.session = false →
    let f₁ := ((s.fy.tick dt).tdpTake h).1
    let x := h.xfer s.fy.nextXfer f₁.ns true (fieldAt h.value 0 4) (fieldAt h.value 4 4) []
    FyNext (.blkWriteInit dt m) s fun f =>
      f = { f₁ with nextXfer := s.fy.nextXfer % 65535 + 1, xfers := f₁.xfers ++ [x] }.xferOpen s.fy.nextXfer f₁.ts) ∧
  (∀ (s : State) (dt : Nat) (m : Datagram) (h : TdpMsg) (x : Xfer), s.fy.tdpFor m 0x23 = some h → ((s.fy.tick dt).tdpTake
   h).2 = true → s.fy.xferOf h true = some x → fieldAt h.value 4 4 = x.next → x.next < segCount x.total → (h.value.drop
   8).length = min 512 (x.total - 512 * x.next) → x.sinceAck ≠ 3 →
    let f₁ := ((s.fy.tick dt).tdpTake h).1
    FyNext (.blkSeg dt m) s fun f =>
      f = ((f₁.modXfer x.id fun x => { x with lastAt := f₁.ns }).modXfer x.id fun x => { x with
            bytes := x.bytes ++ h.value.drop 8, next := x.next + 1, sinceAck := x.sinceAck + 1 }).closeIfLast h.ask) ∧
  (∀ (s : State) (dt : Nat) (m : Datagram) (h : TdpMsg) (x : Xfer), s.fy.tdpFor m 0x23 = some h → ((s.fy.tick dt).tdpTake
   h).2 = true → s.fy.xferOf h true = some x → fieldAt h.value 4 4 ≠ x.next →
    let f₁ := ((s.fy.tick dt).tdpTake h).1
    FyNext (.blkSeg dt m) s fun f => f = ((f₁.modXfer x.id fun x => { x with lastAt := f₁.ns }).sendAck h x.id).closeIfLast h.ask) ∧
  (∀ (s : State) (dt : Nat) (m : Datagram) (h : TdpMsg) (x : Xfer) (n : Nat), s.fy.tdpFor m 0x24 = some h → ((s.fy.tick
   dt).tdpHead h).2 = true → s.fy.xferOf h false = some x → x.ready = true → n = (fieldAt h.value 4 4 + 1) % 2 ^ 32 →
   x.next < n → n ≤ x.sent →
    let f₁ := ((s.fy.tick dt).tdpHead h).1
    FyNext (.blkAck dt m) s fun f =>
      f = ((f₁.modXfer x.id fun x => { x with lastAt := f₁.ns, ackAt := f₁.ns }).modXfer x.id fun x => { x with next := n }).sendWindow x.id) ∧
  (∀ (s : State) (dt : Nat) (m : Datagram) (h : TdpMsg) (x : Xfer), s.fy.tdpFor m 0x25 = some h → ((s.fy.tick dt).tdpTake
   h).2 = true → s.fy.xferOf h true = some x → s.fy.partsUnderWay x.id = false → x.bytes.length ≠ x.total ∨ crc32c x.bytes
   ≠ x.crc →
    let f₁ := ((s.fy.tick dt).tdpTake h).1
    FyNext (.blkEnd dt m) s fun f => f = (f₁.modXfer x.id fun x => { x with lastAt := f₁.ns }).xferEnd x.id h.seq 0x41 f₁.ts ∧ f.jun = s.fy.jun) ∧
  (∀ (s : State) (dt : Nat) (m : Datagram) (h : TdpMsg) (x : Xfer), s.fy.tdpFor m 0x25 = some h → ((s.fy.tick dt).tdpTake
   h).2 = true → s.fy.xferOf h true = some x → s.fy.partsUnderWay x.id = false → x.bytes.length = x.total → crc32c x.bytes
   = x.crc → x.node = 0 → x.index = 0x4480 → x.sub = 1 → writeCode 1 (((s.fy.tick dt).tdpTake h).1.levelOf h.session)
   0x4480 1 x.bytes = 0 → batchSpecCode x.bytes = 0 → s.fy.jun.batch.state = 0 → s.fy.resetAfter = none →
    let f₁ := ((s.fy.tick dt).tdpTake h).1.modXfer x.id fun x => { x with lastAt := ((s.fy.tick dt).tdpTake h).1.ns }
    FyNext (.blkEnd dt m) s fun f =>
      f = { f₁ with jun := { f₁.jun with batch := { f₁.jun.batch with spec := x.bytes } } }.xferEnd x.id h.seq 0 f₁.ts ∧
      f.jun.batch.spec = x.bytes) ∧
  (∀ (s : State) (dt : Nat) (n : BitVec 16) (x : Xfer), s.fy.xfer? n.toNat = some x → x.write = false → x.ready = true →
   x.next < x.sent → x.ackAt + 100000000 ≤ (s.fy.tick dt).ns →
    FyNext (.blockResendTimer dt n) s fun f =>
      f = ((s.fy.tick dt).modXfer n.toNat fun x => { x with sent := x.next }).sendWindow n.toNat) ∧
  (∀ (s : State) (dt : Nat) (n : BitVec 16) (x : Xfer), s.fy.xfer? n.toNat = some x → x.lastAt + 1000000000 ≤ (s.fy.tick
   dt).ns →
    FyNext (.blockTimeout dt n) s fun f =>
      f = ((s.fy.tick dt).refuse ((s.fy.tick dt).xferAsk x (if x.write then 0x21 else 0x20) 0) true false 0x42).dropXfer n.toNat ∧
      f.xfer? n.toNat = none)

/-- R359: SUBSCRIBE to an object that can be read begins a subscription and answers its number; UNSUBSCRIBE ends it. The value
of an own object is read each millisecond and a change is counted. Conventions of the model itself that this rests on: logs
1, 67. -/
def Obligations.Subscriptions : Prop :=
  (∀ (s : State) (dt : Nat) (m : Datagram) (h : TdpMsg), s.fy.tdpFor m 0x30 = some h → ((s.fy.tick dt).tdpTake h).2 = true
   → h.session ≠ 0 → h.node = 0 → ((s.fy.tick dt).tdpTake h).1.subObjCode h = 0 → 0 < fieldAt h.value 2 2 → fieldAt h.value
   2 2 ≤ 60000 → fieldAt h.value 0 1 = 1 ∨ fieldAt h.value 0 1 = 2 → s.fy.subsFull h.session = false →
    let f₁ := ((s.fy.tick dt).tdpTake h).1
    let x := h.newSub s.fy.nextSub f₁.ns (fieldAt h.value 0 1 == 2) (fieldAt h.value 2 2)
    FyNext (.subscribe dt m) s fun f =>
      f = { f₁ with nextSub := s.fy.nextSub % 65535 + 1, subs := f₁.subs ++ [x] }.subOpen s.fy.nextSub h.seq 0 f₁.ts
            ({ f₁ with nextSub := s.fy.nextSub % 65535 + 1, subs := f₁.subs ++ [x] }.readObj h.index h.sub).2.2) ∧
  (∀ (s : State) (dt : Nat) (m : Datagram) (h : TdpMsg), s.fy.tdpFor m 0x32 = some h → ((s.fy.tick dt).tdpTake h).2 = true
   → h.session ≠ 0 → (s.fy.subs.any fun x => x.id == fieldAt h.value 0 2 && x.session == h.session) = true →
    let f₁ := ((s.fy.tick dt).tdpTake h).1
    FyNext (.unsubscribe dt m) s fun f =>
      f = { f₁ with subs := f₁.subs.filter fun (x : Sub) => x.id != fieldAt h.value 0 2 }.answer h.ask 0 3 f₁.ts (leBytes 2 (fieldAt h.value 0 2))) ∧
  (∀ (s : State) (dt : Nat) (n : BitVec 16) (x : Sub) (v : Nat × Nat × List Byte), (s.fy.subs.find? fun x => x.id ==
   n.toNat) = some x → x.node = 0 → x.last.isSome = true → x.readAt + 1000000 ≤ (s.fy.tick dt).ns → v = (s.fy.tick
   dt).readObj x.index x.sub → v.1 = 0 → v.2.2.length ≤ 512 →
    FyNext (.subscriptionCheck dt n) s fun f =>
      f = ((s.fy.tick dt).subRead n.toNat).subValue n.toNat v.2.1 v.2.2 ∧
      ((f.subs.find? fun x => x.id == n.toNat).map fun x => (x.last, x.changes)) =
        some (some v.2.2, if x.last = some v.2.2 then x.changes else x.changes + 1)) ∧
  (∀ (s : State) (dt : Nat) (n : BitVec 16) (x : Sub), (s.fy.subs.find? fun x => x.id == n.toNat) = some x → (s.fy.tick
   dt).ns < x.readAt + 1000000 →
    FyNext (.subscriptionCheck dt n) s fun f => f = s.fy.tick dt)

/-! ### Resets and power -/

/-- R390, R394, R398: every reset of Fyster raises RESET_EPOCH by one, names its kind, keeps the calibration objects and has no
session, transfer or subscription. Image A is run if it verifies, else image B, else none. A reset request is answered
first. Power loss keeps what NOR holds. The watchdog flushes before it resets. Conventions of the model itself that this
rests on: logs 1, 4, 26, 74. -/
def Obligations.FysterResets : Prop :=
  (∀ (s : State) (dt : Nat) (a b : Bool),
    FyNext (.resetPin dt a b) s fun f =>
      f = (s.fy.tick dt).resetAs 2 a b ∧ f.resetEpoch = s.fy.resetEpoch + 1 ∧ f.boot.kind = 2 ∧ f.boot.running = (a || b) ∧
      (f.boot.image = if a then 0 else 1) ∧ f.sessions = [] ∧ f.xfers = [] ∧ f.subs = [] ∧ f.flushNor = s.fy.flushNor ∧
      f.calNor = s.fy.calNor) ∧
  (∀ (s : State) (dt : Nat) (a b : Bool),
    FyNext (.fysterPowerOn dt a b) s fun f =>
      f = ((s.fy.tick dt).powerLost).resetAs 1 a b ∧ f.resetEpoch = s.fy.resetEpoch + 1 ∧ f.boot.kind = 1 ∧ f.boot.running = (a || b) ∧
      f.flushNor = s.fy.flushNor ∧ f.calNor = s.fy.calNor.abandon ∧ f.sessions = []) ∧
  (∀ (s : State) (dt : Nat),
    FyNext (.fysterPowerLoss dt) s fun f =>
      f = (s.fy.tick dt).powerLost ∧ f.boot.running = false ∧ f.flushNor = s.fy.flushNor ∧ f.calNor = s.fy.calNor.abandon ∧
      f.objNor = s.fy.objNor.abandon ∧ f.ring = [] ∧ f.sessions = []) ∧
  (∀ (s : State) (dt : Nat) (lvl : Level) (a b : Bool), 2 ≤ Level.rank lvl →
    let f₀ := s.fy.tick dt
    FyNext (.coldResetRequest dt lvl a b) s fun f =>
      f = ({ f₀ with boot := { f₀.boot with imgA := a, imgB := b }, resetAfter := some 3 }.emit (.answer 0)).resetAs 3 a b ∧
      f.resetEpoch = s.fy.resetEpoch + 1 ∧ f.boot.kind = 3 ∧ f.ring = []) ∧
  (∀ (s : State) (dt : Nat) (lvl : Level) (a b : Bool), 2 ≤ Level.rank lvl →
    let f₀ := s.fy.tick dt
    FyNext (.warmResetRequest dt lvl a b) s fun f =>
      f = ({ f₀ with boot := { f₀.boot with imgA := a, imgB := b }, resetAfter := some 4 }.emit (.answer 0)).resetAs 4 a b ∧
      f.resetEpoch = s.fy.resetEpoch + 1 ∧ f.boot.kind = 4 ∧ f.taints = s.fy.taints ∧ f.red.ledger = s.fy.red.ledger) ∧
  (∀ (s : State) (dt : Nat) (a b : Bool) (k : Nat) (l : List Nat), s.fy.boot.running = true → s.fy.part.evr.flush = none →
   s.fy.erasedSlots = k :: l →
    FyNext (.fwWatchdogExpiry dt a b) s fun f =>
      f.norSlot = some k ∧ f.resetAfter = some 5 ∧ f.boot.imgA = a ∧ f.boot.imgB = b ∧ f.part.evr.flush.map (·.cause) = some 4 ∧
      f.resetEpoch = s.fy.resetEpoch ∧ f.links = s.fy.links) ∧
  (∀ (s : State) (dt : Nat), s.fy.boot.running = true → s.fy.boot.hbm = false →
    FyNext (.hbmTrainingDone dt) s fun f =>
      f.boot.hbm = true ∧ (∀ p < 32, (f.link p).st = .training) ∧ f.red = s.fy.red)

/-- R380, R382 to R384, R398: a recognised power failure is logged, begins a flush of cause PFAIL, abandons the stores under
way and raises vector 66; a glitch is counted. When the flush has been written its slot holds the recorder, and a watchdog
reset that waited for it follows. PFAIL_N released frees a recorder that no flush holds. Conventions of the model itself
that this rests on: logs 1, 63, 74. -/
def Obligations.PowerFailure : Prop :=
  (∀ (s : State) (dt : Nat) (k : Nat) (l : List Nat), s.fy.boot.running = true → s.fy.boot.pfail = false →
   s.fy.part.evr.flush = none → s.fy.erasedSlots = k :: l →
    FyNext (.pfailRecognised dt) s fun f =>
      f.boot.pfail = true ∧ f.norSlot = some k ∧ f.part.evr.flush.map (·.cause) = some 1 ∧ f.calNor = s.fy.calNor.abandon ∧
      f.objNor = s.fy.objNor.abandon ∧ f.out.head? = some (.msix 66)) ∧
  (∀ (s : State) (dt : Nat),
    FyNext (.pfailGlitch dt) s fun f => f = (s.fy.tick dt).counted 512 0x1030 8 1) ∧
  (∀ (s : State) (dt : Nat),
    FyNext (.pfailDeassert dt) s fun f =>
      f.boot = { s.fy.boot with pfail := false } ∧ f.links = s.fy.links ∧
      f.part.evr = (if s.fy.part.evr.flush.isNone then { s.fy.part.evr with frozen := false } else s.fy.part.evr)) ∧
  (∀ (s : State) (dt : Nat) (k : Nat) (x : Flush), s.fy.norSlot = some k → s.fy.part.evr.flush = some x → s.fy.resetAfter =
   none →
    FyNext (.norFlushDone dt) s fun f =>
      (tfind f.flushNor k).map (fun n => (n.cause, n.serial, n.own)) = some (x.cause, s.fy.nextFlush, s.fy.part.evr.log) ∧
      f.norSlot = none ∧ f.part.evr.flush = none ∧ f.rd 0x6000 8 = raised 0x6000 8 (s.fy.rd 0x6000 8) 1 ∧ f.links = s.fy.links) ∧
  (∀ (s : State) (dt : Nat) (k : Nat) (x : Flush), s.fy.norSlot = some k → s.fy.part.evr.flush = some x → s.fy.resetAfter =
   some 5 →
    FyNext (.norFlushDone dt) s fun f =>
      f.resetEpoch = s.fy.resetEpoch + 1 ∧ f.boot.kind = 5 ∧ f.boot.running = (s.fy.boot.imgA || s.fy.boot.imgB) ∧
      (tfind f.flushNor k).map (·.cause) = some x.cause)

/-- R213, R382, R395, R396: a TU is reset whole, and its reset kind says why; power-on alone empties its recorder. A reset
request is answered first. An internal fault with the link up flushes the log, and the reset follows the last part. A die
reset is counted and ends the phases and launches of the die. Conventions of the model itself that this rests on: logs 1,
26, 67, 74. -/
def Obligations.TuResets : Prop :=
  (∀ (s : State) (dt : Nat) (p : Port),
    TuNext (.tuPowerOn dt p) s p fun t =>
      t = { Tu.reset with powered := true, lastReset := 1, out := (s.tu p).out, fresh := (s.tu p).fresh }) ∧
  (∀ (s : State) (dt : Nat) (p : Port),
    TuNext (.tuResetIn dt p) s p fun t =>
      t = { Tu.reset with
            part := { Part.reset with evr := (s.tu p).part.evr.kept, obj := (s.tu p).part.obj.filter fun e => e.1 == objKey 0x2E00 3 }
            powered := true, lastReset := 2, out := (s.tu p).out, fresh := (s.tu p).fresh }) ∧
  (∀ (s : State) (dt : Nat) (p : Port) (lvl : Level), 2 ≤ Level.rank lvl →
    ∃ u, exec (.tuResetRequest dt p lvl 1) s = .next u ∧
      u.tu p = ((((s.tu p).tick dt).reply lvl 2 ((s.tu p).tick dt, 0))).resetAs 3 ∧ (u.tu p).lastReset = 3 ∧
      u.fy.links = s.fy.links ∧ (∀ q, q ≠ p → u.tu q = s.tu q)) ∧
  (∀ (s : State) (dt : Nat) (p : Port) (lvl : Level), Level.rank lvl < 2 →
    TuNext (.tuResetRequest dt p lvl 1) s p fun t => t = ((s.tu p).tick dt).emit (.answer 5)) ∧
  (∀ (s : State) (dt : Nat) (p : Port), (s.tu p).link.st ≠ .up →
    TuNext (.tuInternalFault dt p) s p fun t => t = ((s.tu p).tick dt).resetAs 4 ∧ t.lastReset = 4) ∧
  (∀ (s : State) (dt : Nat) (p : Port), (s.tu p).link.st = .up → (s.tu p).part.evr.flush = none → (s.tu p).part.evr.log ≠
   [] →
    TuNext (.tuInternalFault dt p) s p fun t =>
      t.faultReset = true ∧ t.part.evr.flush.map (fun x => (x.cause, x.records)) = some (4, (s.tu p).part.evr.log) ∧
      t.lastReset = (s.tu p).lastReset ∧ t.link = (s.tu p).link) ∧
  (∀ (s : State) (dt : Nat) (p : Port) (x : Flush) (i k : Nat) (l : List (Nat × Nat)), (s.tu p).part.evr.flush = some x →
   x.parts = (i, k) :: l → k < 2 ∨ l ≠ [] → (((s.tu p).tick dt).offer 5 2 20000 [{ ((s.tu p).tick dt).mkRec 0x0A selfStream
   224 0xFF ((s.tu p).tick dt).ns (flushPay x (s.tu p).part.evr.flushSerial i) with ts64 := x.at64 }]).2 = false →
    TuNext (.evrFlushPart dt p) s p fun t =>
      t.part.evr.flush = some { x with parts := if k < 2 then l ++ [(i, k + 1)] else l } ∧ t.link = (s.tu p).link) ∧
  (∀ (s : State) (dt : Nat) (p : Port) (x : Flush) (i k : Nat), (s.tu p).part.evr.flush = some x → x.parts = [(i, k)] →
   (((s.tu p).tick dt).offer 5 2 20000 [{ ((s.tu p).tick dt).mkRec 0x0A selfStream 224 0xFF ((s.tu p).tick dt).ns (flushPay
   x (s.tu p).part.evr.flushSerial i) with ts64 := x.at64 }]).2 = true → (s.tu p).faultReset = true →
    TuNext (.evrFlushPart dt p) s p fun t => t.lastReset = 4 ∧ t.part.evr.flush = none ∧ t.link = Link.reset) ∧
  (∀ (s : State) (dt : Nat) (p : Port) (k : Nat),
    TuNext (.dieResetIndication dt p) s p fun t =>
      t.rd 0x2E00 3 = raised 0x2E00 3 ((s.tu p).rd 0x2E00 3) 1 ∧ t.slot k = none ∧ t.binds = [] ∧ t.link = (s.tu p).link ∧
      t.lastReset = (s.tu p).lastReset)

/-! ### Tray power, temperature and the host -/

/-- R208 to R210, R388, R389, R424: an answer of the controller whose SEQ is the request's and that answers one is taken: GRANT
gives the units, REFUSE backs off, REVOKE takes them back. Any other is discarded and counted. Silence counts as a refusal
and starts recovery; a backoff that has passed sends the request again; a RELEASE goes out a second time. Conventions of
the model itself that this rests on: logs 1, 13, 28, 69, 72. -/
def Obligations.TrayPower : Prop :=
  (∀ (s : State) (dt : Nat) (m : Word) (id q : Nat), powerAnswer m = some (id, 8, q) → (s.fy.part.pwrReq id).seq = q →
   (s.fy.part.pwrReq id).outstanding = true → s.fy.boot.pfail = false →
    let f₀ := s.fy.tick dt
    FyNext (.trayPwrGrant dt m) s fun f =>
      f = ((f₀.pwr id ((f₀.part.pwrReq id).grant f₀.part.time.now)).recovDone 10).powered id) ∧
  (∀ (s : State) (dt : Nat) (m : Word) (id q : Nat), powerAnswer m = some (id, 9, q) → (s.fy.part.pwrReq id).seq = q →
   (s.fy.part.pwrReq id).outstanding = true →
    let f₀ := s.fy.tick dt
    FyNext (.trayPwrRefuse dt m) s fun f =>
      f = (f₀.pwr id ((f₀.part.pwrReq id).refuse f₀.part.time.now)).recovDone 10 ∧
      ((s.fy.part.pwrReq id).wanted = true → (s.fy.part.pwrReq id).st = .pending → (f.part.pwrReq id).st = .backoff)) ∧
  (∀ (s : State) (dt : Nat) (m : Word) (id q : Nat), powerAnswer m = some (id, 10, q) → (s.fy.part.pwrReq id).seq = q →
   (s.fy.part.pwrReq id).st = .granted →
    let f₀ := s.fy.tick dt
    FyNext (.trayPwrRevoke dt m) s fun f =>
      f = (f₀.pwr id ((f₀.part.pwrReq id).revoke f₀.part.time.now)).unpowered id ∧ (f.part.pwrReq id).st = .backoff) ∧
  (∀ (s : State) (dt : Nat) (m : Word), powerAnswer m = none →
    FyNext (.trayPwrGrant dt m) s fun f => f = (s.fy.tick dt).bump 0x7880 0xF0 1) ∧
  (∀ (s : State) (dt : Nat) (k : Fin 16), (s.fy.part.pwrReq k.val).st = .pending → (s.fy.part.pwrReq k.val).outstanding =
   true → (s.fy.part.pwrReq k.val).since + s.fy.rd 0x7880 4 * 65536000 ≤ (s.fy.tick dt).part.time.now →
    let f₀ := s.fy.tick dt
    FyNext (.trayPwrTimeout dt k) s fun f =>
      f = (f₀.pwr k.val { r := (s.fy.part.pwrReq k.val).backoff f₀.part.time.now, sends := [], counts := [6] }).recovStart 10 ∧
      (f.part.pwrReq k.val).st = .backoff) ∧
  (∀ (s : State) (dt : Nat) (k : Fin 16), (s.fy.part.pwrReq k.val).st = .backoff → (s.fy.part.pwrReq k.val).wanted = true →
   (s.fy.part.pwrReq k.val).since + (s.fy.part.pwrReq k.val).backoffUs * 65536000 ≤ (s.fy.tick dt).part.time.now →
    let f₀ := s.fy.tick dt
    FyNext (.trayPwrBackoffExpiry dt k) s fun f =>
      f = (f₀.pwr k.val ((s.fy.part.pwrReq k.val).send f₀.part.time.now)).powered k.val) ∧
  (∀ (s : State) (dt : Nat) (k : Fin 16) (t : Nat), (s.fy.part.pwrReq k.val).releaseDue = some t → t + 20000 * 65536 ≤
   (s.fy.tick dt).part.time.now → s.fy.rd 0x7880 2 ≠ 1 →
    let f₀ := s.fy.tick dt
    let r := s.fy.part.pwrReq k.val
    FyNext (.trayPwrReleaseRepeat dt k) s fun f =>
      f = { f₀ with part := { f₀.part with pwr := tset f₀.part.pwr k.val { r with releaseDue := none } } }.emit (.power 2 k.val r.units r.seq))

/-- R415 to R418, R426: a reading at or above the hard limit sets THERM_N. The host ring raises vector 64 no more often than
its interval. A PCIe reset clears the endpoint's registers alone. A host write of a ring register takes effect while
RING_BASE is 0 and its rules hold, and is refused and counted otherwise; RING_RD frees the entries that it passes. A write
to BAR2 is discarded and counted. Conventions of the model itself that this rests on: logs 1, 72, 73. -/
def Obligations.TemperatureAndHost : Prop :=
  (∀ (s : State) (dt : Nat) (hbm : Bool) (v : Int), (if hbm then 10000 else 11500) ≤ v →
    FyNext (.thermalLimit dt hbm v) s fun f => f.thermal = true ∧ f.links = s.fy.links ∧ f.red = s.fy.red) ∧
  (∀ (s : State) (dt : Nat) (hbm : Bool) (v : Int), v < (if hbm then 10000 else 11500) →
    FyNext (.thermalLimit dt hbm v) s fun f => f.thermal = s.fy.thermal ∧ f.links = s.fy.links ∧ f.red = s.fy.red) ∧
  (∀ (s : State) (dt : Nat), s.fy.host.raised < s.fy.host.count → s.fy.host.raisedAt + s.fy.host.intUs * 1000 ≤ (s.fy.tick
   dt).ns →
    let f₀ := s.fy.tick dt
    FyNext (.hostRingInt dt) s fun f =>
      f = { f₀ with host := { s.fy.host with raised := s.fy.host.count, raisedAt := f₀.ns } }.emit (.msix 64)) ∧
  (∀ (s : State) (dt : Nat), s.fy.host.count ≤ s.fy.host.raised ∨ (s.fy.tick dt).ns < s.fy.host.raisedAt + s.fy.host.intUs
   * 1000 →
    FyNext (.hostRingInt dt) s fun f => f = s.fy.tick dt) ∧
  (∀ (s : State) (dt : Nat) (a : Word) (v : List Byte),
    FyNext (.bar2Write dt a v) s fun f =>
      f = ((s.fy.tick dt).bump 0x1171 0xF0 1).log (event 0x0F00 512 (0x1171 * 65536) (((s.fy.tick dt).bump 0x1171 0xF0 1).rd 0x1171 0xF0 % 2 ^ 32)) ∧
      f.links = s.fy.links ∧ f.red = s.fy.red) ∧
  (∀ (s : State) (dt : Nat),
    FyNext (.pcieReset dt) s fun f => f = { s.fy.tick dt with host := .reset }.wr 0x1171 2 0) ∧
  (∀ (s : State) (dt : Nat) (v : Word), s.fy.host.base = 0 → v.toNat % 4096 = 0 →
    FyNext (.hostRingRegisterWrite dt 0x200000 v) s fun f => f = { s.fy.tick dt with host := { s.fy.host with base := v.toNat } }) ∧
  (∀ (s : State) (dt : Nat) (v : Word), s.fy.host.base ≠ 0 ∨ v.toNat % 4096 ≠ 0 →
    FyNext (.hostRingRegisterWrite dt 0x200000 v) s fun f => f = (s.fy.tick dt).ringRegRefused ∧ f.host.base = s.fy.host.base) ∧
  (∀ (s : State) (dt : Nat) (v : Word), s.fy.host.rd ≤ v.toNat → v.toNat ≤ s.fy.host.count →
    FyNext (.hostRingRegisterWrite dt 0x200018 v) s fun f =>
      f = { s.fy.tick dt with host := { s.fy.host with
              rd := v.toNat, entries := freeEntries (v.toNat - s.fy.host.rd) s.fy.host.entries } })

/-! ### Rules of the whole device -/

/-- R34 to R36: an event message is queued behind the entries held, whatever their TXID, with its stamp and sequenceId; at 64
entries the stamp is dropped and counted. A read takes the oldest entry; of an empty queue it answers 24 zero bytes, VALID
among them, and removes nothing. -/
def Obligations.EventStampQueue : Prop :=
  (∀ (s : State) (dt : Nat) (q : Fin 2) (id : BitVec 16) (mt : BitVec 4) (seq : BitVec 16), s.fy.rd 0x1210 1 ≠ 3 →
   (s.fy.oob q.val).txq.length < 64 →
    FyNext (.ptpEventTx dt q id mt seq) s fun f =>
      (f.oob q.val).txq = (s.fy.oob q.val).txq ++ [(id.toNat, mt.toNat, s.fy.part.time.now + dt, seq.toNat)] ∧
      { f with ptp := s.fy.ptp } = s.fy.tick dt) ∧
  (∀ (s : State) (dt : Nat) (q : Fin 2) (id : BitVec 16) (mt : BitVec 4) (seq : BitVec 16), s.fy.rd 0x1210 1 ≠ 3 → 64 ≤
   (s.fy.oob q.val).txq.length → (s.fy.oob q.val).txqOvf = true →
    FyNext (.ptpEventTx dt q id mt seq) s fun f => f = (s.fy.tick dt).bump 0x1240 (q.val + 1) 1) ∧
  (∀ (s : State) (dt : Nat) (q : Fin 2) (e : Nat × Nat × Nat × Nat) (r : List (Nat × Nat × Nat × Nat)), (s.fy.oob
   q.val).txq = e :: r →
    FyNext (.txqRead dt q) s fun f =>
      f = ((s.fy.tick dt).setOob q.val { s.fy.oob q.val with txq := r, txqOvf := false }).emit (.value (txqBytes e))) ∧
  (∀ (s : State) (dt : Nat) (q : Fin 2), (s.fy.oob q.val).txq = [] →
    FyNext (.txqRead dt q) s fun f => f = (s.fy.tick dt).emit (.value (leBytes 24 0)))

/-- R59, R60, R67: every well-formed record has a header of which an even number of the 192 bits are ones, and its words read
back as the record: no field is lost or moved. A header with an odd number of ones is malformed, whatever else it holds. -/
def Obligations.RecordHeaders : Prop :=
  (∀ (r : Rec), r.wf = true →
    popCount 192 r.header % 2 = 0 ∧ r.header < 2 ^ 192 ∧ bitsOf r.header 8 8 = r.len ∧ r.words.length = r.len ∧
    wordsNat (r.words.take 3) = r.header ∧ r.words.drop 3 = r.pay ∧ recOf (wordsNat (r.words.take 3)) (r.words.drop 3) = r) ∧
  (∀ (v left die : Nat) (may : Nat → Bool), popCount 192 v % 2 = 1 →
    headerFault v left die may ≠ 0)

/-- R343, R344: an object that is not WO is read with any session and with none, and answers its value; a WO object answers
READ_WO. A write below the level of its object is answered LEVEL and changes nothing, on Fyster and on a TU. The recorder
of either node is cleared with no level at all. -/
def Obligations.AccessLevels : Prop :=
  (∀ (s : State) (dt : Nat) (m : Datagram) (h : TdpMsg) (r : ObjRow), s.fy.tdpFor m 0x10 = some h → ((s.fy.tick dt).tdpTake
   h).2 = true → h.node = 0 → objFind 1 h.index h.sub = some r → r.acc ≠ 2 → (((s.fy.tick dt).tdpTake h).1.objRead r
   h.index h.sub).length ≤ 512 →
    let f₁ := ((s.fy.tick dt).tdpTake h).1
    FyNext (.tdpRead dt m) s fun f => f = f₁.answer h.ask 0 r.type f₁.ts (f₁.objRead r h.index h.sub)) ∧
  (∀ (s : State) (dt : Nat) (m : Datagram) (h : TdpMsg) (r : ObjRow), s.fy.tdpFor m 0x10 = some h → ((s.fy.tick dt).tdpTake
   h).2 = true → h.node = 0 → objFind 1 h.index h.sub = some r → r.acc = 2 →
    let f₁ := ((s.fy.tick dt).tdpTake h).1
    FyNext (.tdpRead dt m) s fun f => f = f₁.answer h.ask 0x22 0 f₁.ts []) ∧
  (∀ (t : Tu) (p : Port) (i k : Nat) (r : ObjRow), objFind 2 i k = some r →
    t.readObj p i k = (if r.acc = 2 then (0x22, 0, []) else (0, r.type, t.objRead p r i k))) ∧
  (∀ (s : State) (dt : Nat) (lvl : Level) (i : BitVec 16) (k : Byte) (v : List Byte) (r : ObjRow), objFind 1 i.toNat
   k.toNat = some r → Level.rank lvl < r.level →
    FyNext (.objectWrite dt .fyster lvl i k v) s fun f => f = (s.fy.tick dt).emit (.answer 5)) ∧
  (∀ (s : State) (dt : Nat) (p : Port) (lvl : Level) (i : BitVec 16) (k : Byte) (v : List Byte) (r : ObjRow), objFind 2
   i.toNat k.toNat = some r → Level.rank lvl < r.level →
    TuNext (.objectWrite dt (.tu p) lvl i k v) s p fun t => t = ((s.tu p).tick dt).emit (.answer 5)) ∧
  (∀ (s : State) (dt : Nat) (v : Word), v.toNat ≤ s.fy.part.evr.total →
    FyNext (.evrClear dt .fyster v) s fun f => f.out.head? = some (.answer 0)) ∧
  (∀ (s : State) (dt : Nat) (p : Port) (v : Word), v.toNat ≤ (s.tu p).part.evr.total →
    TuNext (.evrClear dt (.tu p) v) s p fun t => t.out.head? = some (.answer 0))

/-- R22: with 32 orders pending for other targets a node refuses every kind of scheduled order and changes nothing; an order
that a node accepts leaves it with 32 at most. Every reset discards the pending orders of its node. -/
def Obligations.OrdersHeld : Prop :=
  (∀ (q : Part) (k : OrderKind) (g n : Nat) (o : Order), q.orderAnswer k g n = .accepted → o.kind = k → o.target = g →
    (q.putOrder o).orders.length ≤ 32) ∧
  (∀ (s : State) (dt : Nat) (lvl : Level) (g : GSlot) (v : List Byte), 1 ≤ Level.rank lvl → 32 ≤ (s.fy.part.orders.filter
   fun o => !(o.kind == .model && o.target == g.val)).length → s.fy.part.heldSerial .model g.val ≠ some (moSerial v) →
    let a := ((s.fy.tick dt).wrModelOrder g.val v).2
    FyNext (.modelOrder dt lvl g v) s fun f => f = (s.fy.tick dt).emit (.answer a) ∧ a ≠ 0) ∧
  (∀ (s : State) (dt : Nat) (lvl : Level) (v : List Byte), 1 ≤ Level.rank lvl → 32 ≤ (s.fy.part.orders.filter fun o =>
   !(o.kind == .cut && o.target == fieldAt v 0 4)).length → s.fy.part.heldSerial .cut (fieldAt v 0 4) ≠ some (fieldAt v 4
   4) →
    let a := ((s.fy.tick dt).wrCutOrder v).2
    FyNext (.cutOrder dt lvl v) s fun f => f = (s.fy.tick dt).emit (.answer a) ∧ a ≠ 0) ∧
  (∀ (s : State) (dt : Nat) (lvl : Level) (v : List Byte), 1 ≤ Level.rank lvl → 32 ≤ (s.fy.part.orders.filter fun o =>
   !(o.kind == .membership && o.target == dGroup v)).length → s.fy.part.heldSerial .membership (dGroup v) ≠ some (dSerial
   v) →
    let a := ((s.fy.tick dt).wrArmOrder v).2
    FyNext (.armOrder dt lvl v) s fun f => f = (s.fy.tick dt).emit (.answer a) ∧ a ≠ 0) ∧
  (∀ (s : State) (dt : Nat) (p : Port) (lvl : Level) (v : List Byte), 1 ≤ Level.rank lvl → 32 ≤ ((s.tu
   p).part.orders.filter fun o => !(o.kind == .gateList && o.target == 0)).length → (s.tu p).part.heldSerial .gateList 0 ≠
   some (fieldAt v 12 4) →
    let a := (((s.tu p).tick dt).wrGateOrder v).2
    TuNext (.gateOrder dt p lvl v) s p fun t => t = ((s.tu p).tick dt).emit (.answer a) ∧ a ≠ 0) ∧
  (∀ (s : State) (dt : Nat) (p : Port) (lvl : Level) (g : GSlot) (v : List Byte), 1 ≤ Level.rank lvl → fieldAt v 8 1 = 1 →
   32 ≤ ((s.tu p).part.orders.filter fun o => !(o.kind == .membership && o.target == fieldAt v 0 4)).length → (s.tu
   p).part.heldSerial .membership (fieldAt v 0 4) ≠ some (fieldAt v 4 4) →
    let a := (((s.tu p).tick dt).wrGroupArm g.val v).2
    TuNext (.tuGroupArm dt p lvl g v) s p fun t => t = ((s.tu p).tick dt).emit (.answer a) ∧ a ≠ 0) ∧
  (∀ (s : State) (dt : Nat) (p : Port) (r : Rec), 32 ≤ ((s.tu p).part.orders.filter fun o => !(o.kind == .cut && o.target
   == r.fld 224 32)).length → (s.tu p).part.heldSerial .cut (r.fld 224 32) ≠ some (r.fld 384 32) →
    TuNext (.trCutOrderRx dt p r) s p fun t => t.part.orders = (s.tu p).part.orders ∧ t.part.held = (s.tu p).part.held ∧ t.cuts = (s.tu p).cuts) ∧
  (∀ (s : State) (dt : Nat) (a b : Bool),
    FyNext (.resetPin dt a b) s fun f => f.part.orders = []) ∧
  (∀ (s : State) (dt : Nat) (a b : Bool),
    FyNext (.fysterPowerOn dt a b) s fun f => f.part.orders = []) ∧
  (∀ (s : State) (dt : Nat) (a b : Bool),
    FyNext (.coldResetRequest dt .service a b) s fun f => f.part.orders = []) ∧
  (∀ (s : State) (dt : Nat) (a b : Bool),
    FyNext (.warmResetRequest dt .service a b) s fun f => f.part.orders = []) ∧
  (∀ (s : State) (dt : Nat) (p : Port),
    TuNext (.tuPowerOn dt p) s p fun t => t.part.orders = []) ∧
  (∀ (s : State) (dt : Nat) (p : Port),
    TuNext (.tuResetIn dt p) s p fun t => t.part.orders = []) ∧
  (∀ (s : State) (dt : Nat) (p : Port), (s.tu p).link.st ≠ .up →
    TuNext (.tuInternalFault dt p) s p fun t => t.part.orders = []) ∧
  (∀ (s : State) (dt : Nat) (p : Port),
    ∃ u, exec (.tuResetRequest dt p .service 1) s = .next u ∧ (u.tu p).part.orders = [])

/-- R343, R344, R360: every write that has a command of its own needs its level: below it the answer is LEVEL and nothing else
changes. Conventions of the model itself that this rests on: logs 1, 26. -/
def Obligations.WriteLevels : Prop :=
  (∀ (s : State) (dt : Nat) (lvl : Level) (serial : BitVec 32), Level.rank lvl < 1 →
    FyNext (.stepAuthorise dt lvl serial) s fun f => f = (s.fy.tick dt).emit (.answer 5)) ∧
  (∀ (s : State) (dt : Nat) (p : Port) (lvl : Level) (serial : BitVec 32), Level.rank lvl < 1 →
    TuNext (.tuStepAuthorise dt p lvl serial) s p fun t => t = ((s.tu p).tick dt).emit (.answer 5)) ∧
  (∀ (s : State) (dt : Nat) (n : Node) (lvl : Level) (u : CrcId) (v : Bool), Level.rank lvl < 1 →
    exec (.crcEnable dt n lvl u v) s = .next (onNode n dt (fun _ t => t.emit (.answer 5)) (fun f => f.emit (.answer 5)) s)) ∧
  (∀ (s : State) (dt : Nat) (n : Node) (lvl : Level) (u : CrcId) (v : Bool), Level.rank lvl < 1 →
    exec (.crcPause dt n lvl u v) s = .next (onNode n dt (fun _ t => t.emit (.answer 5)) (fun f => f.emit (.answer 5)) s)) ∧
  (∀ (s : State) (dt : Nat) (n : Node) (lvl : Level) (u : CrcId), Level.rank lvl < 1 →
    exec (.crcInit dt n lvl u) s = .next (onNode n dt (fun _ t => t.emit (.answer 5)) (fun f => f.emit (.answer 5)) s)) ∧
  (∀ (s : State) (dt : Nat) (n : Node) (lvl : Level) (u : CrcId) (isLength : Bool) (v : Word), Level.rank lvl < 1 →
    exec (.crcValueWrite dt n lvl u isLength v) s = .next (onNode n dt (fun _ t => t.emit (.answer 5)) (fun f => f.emit (.answer 5)) s)) ∧
  (∀ (s : State) (dt : Nat) (p : Port) (lvl : Level) (c : Fin 2816) (v : BitVec 32), Level.rank lvl < 1 →
    TuNext (.cntSelWrite dt p lvl c v) s p fun t => t = ((s.tu p).tick dt).emit (.answer 5)) ∧
  (∀ (s : State) (dt : Nat) (p : Port) (lvl : Level) (c : Fin 2816) (v : BitVec 32), Level.rank lvl < 1 →
    TuNext (.counterReset dt p lvl c v) s p fun t => t = ((s.tu p).tick dt).emit (.answer 5)) ∧
  (∀ (s : State) (dt : Nat) (p : Port) (lvl : Level) (v : Byte), Level.rank lvl < 1 →
    TuNext (.cntResetAll dt p lvl v) s p fun t => t = ((s.tu p).tick dt).emit (.answer 5)) ∧
  (∀ (s : State) (dt : Nat) (p : Port) (lvl : Level) (set : Fin 16) (v : BitVec 32), Level.rank lvl < 1 →
    TuNext (.setCtrlWrite dt p lvl set v) s p fun t => t = ((s.tu p).tick dt).emit (.answer 5)) ∧
  (∀ (s : State) (dt : Nat) (p : Port) (lvl : Level) (set : Fin 16) (v : List Byte), Level.rank lvl < 1 →
    TuNext (.setListWrite dt p lvl set v) s p fun t => t = ((s.tu p).tick dt).emit (.answer 5)) ∧
  (∀ (s : State) (dt : Nat) (p : Port) (lvl : Level) (set : Fin 16) (isPhase : Bool) (v : Word), Level.rank lvl < 1 →
    TuNext (.setGridWrite dt p lvl set isPhase v) s p fun t => t = ((s.tu p).tick dt).emit (.answer 5)) ∧
  (∀ (s : State) (dt : Nat) (p : Port) (lvl : Level) (set : Fin 16) (isPeriod : Bool) (v : Word), Level.rank lvl < 1 →
    TuNext (.zoomPinWrite dt p lvl set isPeriod v) s p fun t => t = ((s.tu p).tick dt).emit (.answer 5)) ∧
  (∀ (s : State) (dt : Nat) (p : Port) (lvl : Level) (v : Byte), Level.rank lvl < 1 →
    TuNext (.phaseEnableWrite dt p lvl v) s p fun t => t = ((s.tu p).tick dt).emit (.answer 5)) ∧
  (∀ (s : State) (dt : Nat) (p : Port) (lvl : Level) (v : List Byte), Level.rank lvl < 1 →
    TuNext (.nameTableLoad dt p lvl v) s p fun t => t = ((s.tu p).tick dt).emit (.answer 5)) ∧
  (∀ (s : State) (dt : Nat) (p : Port) (lvl : Level) (src : Fin 73) (v : Byte), Level.rank lvl < 1 →
    TuNext (.traceModeWrite dt p lvl src v) s p fun t => t = ((s.tu p).tick dt).emit (.answer 5)) ∧
  (∀ (s : State) (dt : Nat) (p : Port) (lvl : Level) (src : Fin 73) (v : BitVec 32), Level.rank lvl < 1 →
    TuNext (.traceTsIntervalWrite dt p lvl src v) s p fun t => t = ((s.tu p).tick dt).emit (.answer 5)) ∧
  (∀ (s : State) (dt : Nat) (p : Port) (lvl : Level) (isSize : Bool) (v : Word), Level.rank lvl < 1 →
    TuNext (.windowWrite dt p lvl isSize v) s p fun t => t = ((s.tu p).tick dt).emit (.answer 5)) ∧
  (∀ (s : State) (dt : Nat) (p : Port) (lvl : Level) (v : Byte), Level.rank lvl < 1 →
    TuNext (.freeze dt p lvl v) s p fun t => t = ((s.tu p).tick dt).emit (.answer 5)) ∧
  (∀ (s : State) (dt : Nat) (p : Port) (lvl : Level) (v : Byte), Level.rank lvl < 1 →
    TuNext (.resume dt p lvl v) s p fun t => t = ((s.tu p).tick dt).emit (.answer 5)) ∧
  (∀ (s : State) (dt : Nat) (p : Port) (lvl : Level) (serial : BitVec 32), Level.rank lvl < 1 →
    TuNext (.taintResend dt p lvl serial) s p fun t => t = ((s.tu p).tick dt).emit (.answer 5)) ∧
  (∀ (s : State) (dt : Nat) (p : Port) (lvl : Level) (v : Byte), Level.rank lvl < 1 →
    TuNext (.gateEnableWrite dt p lvl v) s p fun t => t = ((s.tu p).tick dt).emit (.answer 5)) ∧
  (∀ (s : State) (dt : Nat) (p : Port) (lvl : Level) (v : Byte), Level.rank lvl < 1 →
    TuNext (.maceEnableWrite dt p lvl v) s p fun t => t = ((s.tu p).tick dt).emit (.answer 5)) ∧
  (∀ (s : State) (dt : Nat) (p : Port) (lvl : Level) (v : Byte), Level.rank lvl < 1 →
    TuNext (.shadowEnableWrite dt p lvl v) s p fun t => t = ((s.tu p).tick dt).emit (.answer 5)) ∧
  (∀ (s : State) (dt : Nat) (lvl : Level) (v : List Byte), Level.rank lvl < 1 →
    FyNext (.shadowPairsWrite dt lvl v) s fun f => f = (s.fy.tick dt).emit (.answer 5)) ∧
  (∀ (s : State) (dt : Nat) (p : Port) (lvl : Level) (sub : Fin 9) (v : BitVec 16), Level.rank lvl < 1 →
    TuNext (.budgetWrite dt p lvl sub v) s p fun t => t = ((s.tu p).tick dt).emit (.answer 5)) ∧
  (∀ (s : State) (dt : Nat) (p : Port) (lvl : Level) (mask : Byte), Level.rank lvl < 1 →
    TuNext (.arbStarveClear dt p lvl mask) s p fun t => t = ((s.tu p).tick dt).emit (.answer 5)) ∧
  (∀ (s : State) (dt : Nat) (p : Port) (lvl : Level) (v : List Byte), Level.rank lvl < 1 →
    TuNext (.gateOrder dt p lvl v) s p fun t => t = ((s.tu p).tick dt).emit (.answer 5)) ∧
  (∀ (s : State) (dt : Nat) (lvl : Level) (tag : BitVec 32), Level.rank lvl < 1 →
    FyNext (.pinRelease dt lvl tag) s fun f => f = (s.fy.tick dt).emit (.answer 5)) ∧
  (∀ (s : State) (dt : Nat) (lvl : Level) (part : Fin 32) (v : BitVec 16), Level.rank lvl < 2 →
    FyNext (.partSegmentsWrite dt lvl part v) s fun f => f = (s.fy.tick dt).emit (.answer 5)) ∧
  (∀ (s : State) (dt : Nat) (lvl : Level) (v : List Byte), Level.rank lvl < 1 →
    FyNext (.cutOrder dt lvl v) s fun f => f = (s.fy.tick dt).emit (.answer 5)) ∧
  (∀ (s : State) (dt : Nat) (lvl : Level) (v : List Byte), Level.rank lvl < 1 →
    FyNext (.cutCancel dt lvl v) s fun f => f = (s.fy.tick dt).emit (.answer 5)) ∧
  (∀ (s : State) (dt : Nat) (lvl : Level) (ch : Fin 4) (serial : BitVec 32), Level.rank lvl < 1 →
    FyNext (.dumpStart dt lvl ch serial) s fun f => f = (s.fy.tick dt).emit (.answer 5)) ∧
  (∀ (s : State) (dt : Nat) (lvl : Level) (ch : Fin 4), Level.rank lvl < 1 →
    FyNext (.dumpAbort dt lvl ch) s fun f => f = (s.fy.tick dt).emit (.answer 5)) ∧
  (∀ (s : State) (dt : Nat) (lvl : Level) (v : List Byte), Level.rank lvl < 1 →
    FyNext (.armOrder dt lvl v) s fun f => f = (s.fy.tick dt).emit (.answer 5)) ∧
  (∀ (s : State) (dt : Nat) (p : Port) (lvl : Level) (g : GSlot) (v : List Byte), Level.rank lvl < 1 →
    TuNext (.tuGroupArm dt p lvl g v) s p fun t => t = ((s.tu p).tick dt).emit (.answer 5)) ∧
  (∀ (s : State) (dt : Nat) (p : Port) (lvl : Level) (g : GSlot) (v : List Byte), Level.rank lvl < 1 →
    TuNext (.tuGroupLeave dt p lvl g v) s p fun t => t = ((s.tu p).tick dt).emit (.answer 5)) ∧
  (∀ (s : State) (dt : Nat) (lvl : Level) (slot : Fin 3) (v : List Byte), Level.rank lvl < 1 →
    FyNext (.modelImage dt lvl slot v) s fun f => f = (s.fy.tick dt).emit (.answer 5)) ∧
  (∀ (s : State) (dt : Nat) (lvl : Level) (slot : Fin 3) (v : List Byte) (fetched : List Byte), Level.rank lvl < 1 →
    FyNext (.stageFrom dt lvl slot v fetched) s fun f => f = (s.fy.tick dt).emit (.answer 5)) ∧
  (∀ (s : State) (dt : Nat) (lvl : Level) (g : GSlot) (v : List Byte), Level.rank lvl < 1 →
    FyNext (.modelOrder dt lvl g v) s fun f => f = (s.fy.tick dt).emit (.answer 5)) ∧
  (∀ (s : State) (dt : Nat) (lvl : Level) (v : List Byte), Level.rank lvl < 1 →
    FyNext (.rowSubmit dt lvl v) s fun f => f = (s.fy.tick dt).emit (.answer 5)) ∧
  (∀ (s : State) (dt : Nat) (lvl : Level) (serial : BitVec 32), Level.rank lvl < 1 →
    FyNext (.batchStart dt lvl serial) s fun f => f = (s.fy.tick dt).emit (.answer 5)) ∧
  (∀ (s : State) (dt : Nat) (lvl : Level) (v : Byte), Level.rank lvl < 1 →
    FyNext (.batchAbort dt lvl v) s fun f => f = (s.fy.tick dt).emit (.answer 5)) ∧
  (∀ (s : State) (dt : Nat) (lvl : Level) (g : GSlot) (isFloor : Bool) (v : BitVec 32), Level.rank lvl < 1 →
    FyNext (.sparePoolWrite dt lvl g isFloor v) s fun f => f = (s.fy.tick dt).emit (.answer 5)) ∧
  (∀ (s : State) (dt : Nat) (lvl : Level) (g : GSlot) (isValue : Bool) (v : BitVec 32), Level.rank lvl < 1 →
    FyNext (.govRaisePin dt lvl g isValue v) s fun f => f = (s.fy.tick dt).emit (.answer 5)) ∧
  (∀ (s : State) (dt : Nat) (lvl : Level) (g : GSlot) (die : BitVec 32), Level.rank lvl < 1 →
    FyNext (.dieReturned dt lvl g die) s fun f => f = (s.fy.tick dt).emit (.answer 5)) ∧
  (∀ (s : State) (dt : Nat) (session : BitVec 32) (lvl : Level) (v : BitVec 32), Level.rank lvl < 2 →
    FyNext (.calArm dt session lvl v) s fun f => f = (s.fy.tick dt).emit (.answer 5)) ∧
  (∀ (s : State) (dt : Nat) (n : Node) (lvl : Level) (ch : Fin 64) (v : Byte), Level.rank lvl < 1 →
    exec (.chDirWrite dt n lvl ch v) s = .next (onNode n dt (fun _ t => t.emit (.answer 5)) (fun f => f.emit (.answer 5)) s)) ∧
  (∀ (s : State) (dt : Nat) (p : Port) (lvl : Level) (v : Byte), Level.rank lvl < 1 →
    TuNext (.taintMboxChWrite dt p lvl v) s p fun t => t = ((s.tu p).tick dt).emit (.answer 5)) ∧
  (∀ (s : State) (dt : Nat) (n : Node) (lvl : Level) (v : Byte), Level.rank lvl < 1 →
    exec (.evrFlush dt n lvl v) s = .next (onNode n dt (fun _ t => t.emit (.answer 5)) (fun f => f.emit (.answer 5)) s)) ∧
  (∀ (s : State) (dt : Nat) (lvl : Level) (imageA : Bool) (imageB : Bool), Level.rank lvl < 2 →
    FyNext (.coldResetRequest dt lvl imageA imageB) s fun f => f = (s.fy.tick dt).emit (.answer 5)) ∧
  (∀ (s : State) (dt : Nat) (lvl : Level) (imageA : Bool) (imageB : Bool), Level.rank lvl < 2 →
    FyNext (.warmResetRequest dt lvl imageA imageB) s fun f => f = (s.fy.tick dt).emit (.answer 5)) ∧
  (∀ (s : State) (dt : Nat) (p : Port) (lvl : Level) (v : BitVec 32), Level.rank lvl < 2 →
    FyNext (.portDieIdWrite dt p lvl v) s fun f => f = (s.fy.tick dt).emit (.answer 5)) ∧
  (∀ (s : State) (dt : Nat) (p : Port) (lvl : Level) (v : Byte), Level.rank lvl < 2 →
    TuNext (.tuResetRequest dt p lvl v) s p fun t => t = ((s.tu p).tick dt).emit (.answer 5)) ∧
  (∀ (s : State) (dt : Nat) (e : End) (lvl : Level) (v : Byte), Level.rank lvl < 1 →
    exec (.tlRetrain dt e lvl v) s = .next (onEnd e dt (fun _ t => t.emit (.answer 5)) (fun _ f => f.emit (.answer 5)) s))
end

