-- ==== Sys2Proof/Laws/Tables.lean ====
section
/-! SUPPORT. Sparse tables and byte memory: a read after a write, what a write leaves alone, and the canonical forms that every
write keeps. -/

namespace Sys2Proof.Machine

/-! ### Sparse tables -/

theorem tget_tset_self {α : Type} (t : Tab α) (k : Nat) (v d : α) : tget (tset t k v) k d = v := by
  induction t with
  | nil => simp [tset, tget]
  | cons e r ih =>
    obtain ⟨a, b⟩ := e
    simp only [tset]
    split
    · simp [tget]
    · split
      · simp [tget]
      · rename_i h1 h2
        simp [tget, Ne.symm h2, ih]

theorem tget_tset_other {α : Type} (t : Tab α) {k j : Nat} (v d : α) (h : j ≠ k) :
    tget (tset t k v) j d = tget t j d := by
  induction t with
  | nil => simp [tset, tget, Ne.symm h]
  | cons e r ih =>
    obtain ⟨a, b⟩ := e
    simp only [tset]
    split
    · simp [tget, Ne.symm h]
    · split
      · rename_i h1 h2; subst h2; simp [tget, Ne.symm h]
      · simp only [tget, ih]

theorem tget_tset {α : Type} (t : Tab α) (k j : Nat) (v d : α) :
    tget (tset t k v) j d = if j = k then v else tget t j d := by
  split
  · rename_i h; subst h; exact tget_tset_self t j v d
  · rename_i h; exact tget_tset_other t v d h

theorem tfind_tset {α : Type} (t : Tab α) (k j : Nat) (v : α) :
    tfind (tset t k v) j = if j = k then some v else tfind t j := by
  induction t with
  | nil =>
    by_cases h : j = k
    · subst h; simp [tset, tfind]
    · simp [tset, tfind, h, Ne.symm h]
  | cons e r ih =>
    obtain ⟨a, b⟩ := e
    simp only [tset]
    split
    · by_cases h : j = k
      · subst h; simp [tfind]
      · simp [tfind, h, Ne.symm h]
    · split
      · rename_i h1 h2
        subst h2
        by_cases h : j = k
        · subst h; simp [tfind]
        · simp [tfind, h, Ne.symm h]
      · rename_i h1 h2
        simp only [tfind, ih]
        by_cases h : a = j
        · subst h; simp [Ne.symm h2]
        · simp [h]

/-- The keys of a table after a write: those before and the one written. -/
theorem mem_keys_tset {α : Type} (t : Tab α) (k : Nat) (v : α) (j : Nat) :
    j ∈ (tset t k v).map Prod.fst ↔ j = k ∨ j ∈ t.map Prod.fst := by
  induction t with
  | nil => simp [tset]
  | cons e r ih =>
    obtain ⟨a, b⟩ := e
    simp only [tset]
    split
    · simp
    · split
      · rename_i h1 h2; subst h2; simp
      · simp only [List.map_cons, List.mem_cons, ih]
        constructor
        · rintro (h | h | h) <;> simp [h]
        · rintro (h | h | h) <;> simp [h]

/-- A write keeps the keys of a table strictly rising. -/
theorem tset_rising {α : Type} (t : Tab α) (k : Nat) (v : α) (h : (t.map Prod.fst).Pairwise (· < ·)) :
    ((tset t k v).map Prod.fst).Pairwise (· < ·) := by
  induction t with
  | nil => simp [tset]
  | cons e r ih =>
    obtain ⟨a, b⟩ := e
    simp only [List.map_cons, List.pairwise_cons] at h
    simp only [tset]
    split
    · rename_i hk
      simp only [List.map_cons, List.pairwise_cons, List.mem_cons]
      refine ⟨?_, h.1, h.2⟩
      rintro x (rfl | hx)
      · exact hk
      · exact Nat.lt_trans hk (h.1 x hx)
    · split
      · rename_i h1 h2
        subst h2
        simpa [List.pairwise_cons] using h
      · rename_i h1 h2
        simp only [List.map_cons, List.pairwise_cons]
        refine ⟨?_, ih h.2⟩
        intro x hx
        rcases (mem_keys_tset r k v x).1 hx with rfl | hx
        · omega
        · exact h.1 x hx

/-! ### Objects of a part -/

theorem Part.rd_wr_self (p : Part) (i j v : Nat) : (p.wr i j v).rd i j = v := by
  simp [Part.rd, Part.wr, tfind_tset]

theorem Part.rd_wr_other (p : Part) {i j i' j' : Nat} (v : Nat) (h : objKey i' j' ≠ objKey i j) :
    (p.wr i j v).rd i' j' = p.rd i' j' := by
  simp [Part.rd, Part.wr, tfind_tset, h]

theorem Part.rd_bump_other (p : Part) {i j i' j' : Nat} (n : Nat) (h : objKey i' j' ≠ objKey i j) :
    (p.bump i j n).rd i' j' = p.rd i' j' := Part.rd_wr_other p _ h

/-- A counting object that has room for the increment shows the sum. -/
theorem Part.rd_bump_self (p : Part) (i j n : Nat) (h : p.rd i j + n < 2 ^ objBits i j) :
    (p.bump i j n).rd i j = p.rd i j + n := by
  simp [Part.bump, Part.rd_wr_self, countUp, h]

/-! ### TUs in the state -/

@[simp] theorem State.tu_setTu_self (s : State) (p : Port) (t : Tu) : (s.setTu p t).tu p = t :=
  tget_tset_self s.tus p.val t .reset

theorem State.tu_setTu_other (s : State) {p q : Port} (t : Tu) (h : q ≠ p) : (s.setTu p t).tu q = s.tu q :=
  tget_tset_other s.tus t .reset (fun e => h (Fin.ext e))

/-! ### Byte memory -/

theorem memGet_memSet_self (m : List Host.Cell) (k : Nat) (v : Byte) (lo : Nat) (h : memWfFrom lo m = true) :
    memGet (memSet m k v) k = v := by
  induction m generalizing lo with
  | nil => simp only [memSet]; split <;> simp_all [memGet]
  | cons e r ih =>
    obtain ⟨a, b⟩ := e
    simp only [memWfFrom, Bool.and_eq_true, decide_eq_true_eq] at h
    have far : ∀ (l : List Host.Cell) (lo' : Nat), k < lo' → memWfFrom lo' l = true → memGet l k = 0 := by
      intro l
      induction l with
      | nil => intros; rfl
      | cons e r ihl =>
        obtain ⟨a', b'⟩ := e
        intro lo' hk hw
        simp only [memWfFrom, Bool.and_eq_true, decide_eq_true_eq] at hw
        have : a' ≠ k := by omega
        simp only [memGet, this, if_false]
        exact ihl (a' + 1) (by omega) hw.2
    simp only [memSet]
    split
    · rename_i hk
      split
      · rename_i hv
        subst hv
        have : a ≠ k := by omega
        simp only [memGet, this, if_false]
        exact far r (a + 1) (by omega) h.2
      · simp [memGet]
    · split
      · rename_i h1 h2
        subst h2
        split
        · rename_i hv; subst hv; exact far r (k + 1) (by omega) h.2
        · simp [memGet]
      · rename_i h1 h2
        simp only [memGet, Ne.symm h2, if_false]
        exact ih (a + 1) h.2

theorem memGet_memSet_other (m : List Host.Cell) {k j : Nat} (v : Byte) (h : j ≠ k) :
    memGet (memSet m k v) j = memGet m j := by
  induction m with
  | nil => simp only [memSet]; split <;> simp [memGet, Ne.symm h]
  | cons e r ih =>
    obtain ⟨a, b⟩ := e
    simp only [memSet]
    split
    · split
      · rfl
      · simp [memGet, Ne.symm h]
    · split
      · rename_i h1 h2; subst h2; split <;> simp [memGet, Ne.symm h]
      · simp only [memGet, ih]

theorem memWfFrom_mono (m : List Host.Cell) {lo hi : Nat} (h : lo ≤ hi) (w : memWfFrom hi m = true) :
    memWfFrom lo m = true := by
  cases m with
  | nil => rfl
  | cons e r =>
    obtain ⟨a, b⟩ := e
    simp only [memWfFrom, Bool.and_eq_true, decide_eq_true_eq] at w ⊢
    exact ⟨⟨by omega, w.1.2⟩, w.2⟩

theorem memSet_wfFrom (m : List Host.Cell) (lo k : Nat) (v : Byte) (hk : lo ≤ k) (h : memWfFrom lo m = true) :
    memWfFrom lo (memSet m k v) = true := by
  induction m generalizing lo with
  | nil => simp only [memSet]; split <;> simp_all [memWfFrom]
  | cons e r ih =>
    obtain ⟨a, b⟩ := e
    simp only [memWfFrom, Bool.and_eq_true, decide_eq_true_eq] at h
    simp only [memSet]
    split
    · rename_i hka
      split
      · simp only [memWfFrom, Bool.and_eq_true, decide_eq_true_eq]
        exact h
      · rename_i hv
        simp only [memWfFrom, Bool.and_eq_true, decide_eq_true_eq]
        exact ⟨⟨hk, hv⟩, ⟨by omega, h.1.2⟩, h.2⟩
    · split
      · rename_i h1 h2
        subst h2
        split
        · exact memWfFrom_mono r (by omega) h.2
        · rename_i hv
          simp only [memWfFrom, Bool.and_eq_true, decide_eq_true_eq]
          exact ⟨⟨hk, hv⟩, h.2⟩
      · rename_i h1 h2
        simp only [memWfFrom, Bool.and_eq_true, decide_eq_true_eq]
        exact ⟨h.1, ih (a + 1) (by omega) h.2⟩

/-- A write of one byte keeps the canonical form. -/
theorem memSet_wf (m : List Host.Cell) (k : Nat) (v : Byte) (h : Memory.wf m = true) : Memory.wf (memSet m k v) = true :=
  memSet_wfFrom m 0 k v (Nat.zero_le k) h

/-- A write of bytes keeps the canonical form. -/
theorem memWrite_wf (m : List Host.Cell) (k : Nat) (bs : List Byte) (h : Memory.wf m = true) :
    Memory.wf (memWrite m k bs) = true := by
  induction bs generalizing m k with
  | nil => exact h
  | cons b r ih => exact ih (memSet m k b) (k + 1) (memSet_wf m k b h)

/-- A write of bytes leaves every byte outside them alone. -/
theorem memGet_memWrite_other (m : List Host.Cell) (k : Nat) (bs : List Byte) (j : Nat)
    (h : j < k ∨ k + bs.length ≤ j) : memGet (memWrite m k bs) j = memGet m j := by
  induction bs generalizing m k with
  | nil => rfl
  | cons b r ih =>
    simp only [List.length_cons] at h
    simp only [memWrite]
    rw [ih (memSet m k b) (k + 1) (by omega), memGet_memSet_other m b (by omega)]

/-- Bytes written are read back. -/
theorem memRead_memWrite (m : List Host.Cell) (k : Nat) (bs : List Byte) (h : Memory.wf m = true) :
    memRead (memWrite m k bs) k bs.length = bs := by
  induction bs generalizing m k with
  | nil => rfl
  | cons b r ih =>
    simp only [List.length_cons, memRead, memWrite]
    rw [ih (memSet m k b) (k + 1) (memSet_wf m k b h), memGet_memWrite_other _ _ _ _ (by omega),
      memGet_memSet_self m k b 0 h]

end Sys2Proof.Machine
end

