-- ==== Sys2Proof/Laws/Report.lean ====
section
/-! SUPPORT. Reporting touches nothing else: a TU or Fyster that logs, counts its own work, offers a record or puts something on a
port has the form that it had before, whatever further objects one leaves out (`Tu.bareBut`, `Fyster.bareBut`). -/

namespace Sys2Proof.Machine

variable {ks : List Nat}

/-- A key stays left out when further keys are. -/
theorem contains_append_left {K : List Nat} {k : Nat} (h : K.contains k = true) : (K ++ ks).contains k = true := by
  simp only [List.contains_iff_mem, List.mem_append] at h ⊢
  exact Or.inl h

/-- A write under a key that a filter removes does not show through the filter. -/
theorem filter_tset_hidden {α : Type} (t : Tab α) (k : Nat) (v : α) (K : List Nat) (h : K.contains k = true) :
    (tset t k v).filter (fun e => !K.contains e.1) = t.filter (fun e => !K.contains e.1) := by
  have hk (w : α) (l : Tab α) :
      List.filter (fun e => !K.contains e.1) ((k, w) :: l) = l.filter (fun e => !K.contains e.1) := by
    rw [List.filter_cons]
    simp only [h]
    rfl
  induction t with
  | nil => exact hk v []
  | cons e r ih =>
    obtain ⟨a, b⟩ := e
    simp only [tset]
    split
    · exact hk v _
    · split
      · rename_i h1 h2
        subst h2
        rw [hk, hk]
      · rw [List.filter_cons, List.filter_cons, ih]

theorem tuReportKeys_contains_period (a : Nat) (h : a < 8) : tuReportKeys.contains (objKey 0x2A01 (a + 1)) = true := by
  have : ∀ x, x < 8 → tuReportKeys.contains (objKey 0x2A01 (x + 1)) = true := by decide
  exact this a h

/-! ### A TU -/

theorem Tu.bare_wr_hidden (t : Tu) (i j v : Nat) (h : (tuReportKeys ++ ks).contains (objKey i j) = true) :
    (t.wr i j v).bareBut ks = t.bareBut ks := by
  simp only [Tu.bareBut, Tu.wr, Part.wr, filter_tset_hidden t.part.obj (objKey i j) v (tuReportKeys ++ ks) h]

theorem Tu.bare_bump_hidden (t : Tu) (i j n : Nat) (h : (tuReportKeys ++ ks).contains (objKey i j) = true) :
    (t.bump i j n).bareBut ks = t.bareBut ks := Tu.bare_wr_hidden t i j _ h

@[simp] theorem Tu.bare_answer (t : Tu) (a : Nat) : (t.emit (.answer a)).bareBut ks = t.bareBut ks := rfl
@[simp] theorem Tu.bare_value (t : Tu) (b : List Byte) : (t.emit (.value b)).bareBut ks = t.bareBut ks := rfl
@[simp] theorem Tu.bare_tos (t : Tu) (e : End) (x : Tos) : (t.emit (.tos e x)).bareBut ks = t.bareBut ks := rfl
@[simp] theorem Tu.bare_gwmk (t : Tu) (a b c : Nat) : (t.emit (.gwmk a b c)).bareBut ks = t.bareBut ks := rfl
@[simp] theorem Tu.bare_gateRel (t : Tu) (a b : Nat) (c : Bool) : (t.emit (.gateRel a b c)).bareBut ks = t.bareBut ks := rfl
@[simp] theorem Tu.bare_power (t : Tu) (a b c d : Nat) : (t.emit (.power a b c d)).bareBut ks = t.bareBut ks := rfl
@[simp] theorem Tu.bare_pulse (t : Tu) : (t.emit .pulse).bareBut ks = t.bareBut ks := rfl
@[simp] theorem Tu.bare_firmware (t : Tu) (c : Nat) (b : List Byte) : (t.emit (.firmware c b)).bareBut ks = t.bareBut ks :=
  rfl
@[simp] theorem Tu.bare_nocWrite (t : Tu) (a : Nat) : (t.emit (.nocWrite a)).bareBut ks = t.bareBut ks := rfl
@[simp] theorem Tu.bare_free (t : Tu) (p : Port) : (t.free p).1.bareBut ks = t.bareBut ks := rfl
@[simp] theorem Tu.bare_setCnt (t : Tu) (c : Nat) (x : Cnt) : (t.setCnt c x).bareBut ks = t.bareBut ks := rfl

@[simp] theorem Tu.bare_markFull (t : Tu) (a : Nat) (h : a ≤ 8) : (t.markFull a).bareBut ks = t.bareBut ks := by
  have key : ∀ x, x < 8 → ∀ u : Tu, (u.bump 0x2A01 (x + 1) 1).bareBut ks = u.bareBut ks :=
    fun x hx u => Tu.bare_bump_hidden u _ _ _ (contains_append_left (tuReportKeys_contains_period x hx))
  simp only [Tu.markFull]
  split
  · split
    · rfl
    · rw [key 3 (by omega)]; rfl
  · split
    · rfl
    · rw [key a (by omega)]; rfl

theorem Tu.bare_charge (t : Tu) (a cost : Nat) (fits : Bool) (h : a ≤ 8) :
    (t.charge a cost fits).1.bareBut ks = t.bareBut ks := by
  simp only [Tu.charge]
  split
  · rfl
  · split
    · simp only [Tu.bare_markFull _ a h]
      split
      · rfl
      · exact Tu.bare_wr_hidden t _ _ _ (contains_append_left (by decide))
    · split
      · simp only [Tu.bare_markFull _ a h]
      · split
        · rfl
        · split <;> rfl

theorem Tu.bare_admitAll (t : Tu) (rs : List Rec) : (t.admitAll rs).1.bareBut ks = t.bareBut ks := by
  induction rs generalizing t with
  | nil => rfl
  | cons r rest ih => simp only [Tu.admitAll]; rw [ih]; rfl

theorem Tu.bare_enqueue (t : Tu) (req a : Nat) (rs : List Rec) : (t.enqueue req a rs).bareBut ks = t.bareBut ks := by
  have h := Tu.bare_admitAll (ks := ks) t rs
  simp only [Tu.enqueue, Tu.bareBut] at h ⊢
  simpa using h

@[simp] theorem Tu.bare_lose (t : Tu) (a cause : Nat) (rs : List Rec) : (t.lose a cause rs).bareBut ks = t.bareBut ks := rfl

theorem Tu.bare_offerRaw (t : Tu) (a req cost : Nat) (rs : List Rec) (h : a ≤ 8) :
    (t.offerRaw a req cost rs).1.bareBut ks = t.bareBut ks := by
  simp only [Tu.offerRaw]
  split
  · exact (Tu.bare_enqueue _ _ _ _).trans (Tu.bare_charge t a cost _ h)
  · exact Tu.bare_charge t a cost _ h

theorem Tu.bare_saturate (t : Tu) (c : Nat) : (t.saturate c).bareBut ks = t.bareBut ks :=
  Tu.bare_offerRaw t 5 1 _ _ (by omega)

theorem Tu.bare_putCnt (t : Tu) (c : Nat) (x : Cnt) : (t.putCnt c x).bareBut ks = t.bareBut ks := by
  simp only [Tu.putCnt]
  split
  · exact Tu.bare_saturate _ c
  · rfl

/-- A fold whose every step keeps the bare form keeps it. -/
theorem Tu.bare_foldl {β : Type} (f : Tu → β → Tu) (hf : ∀ t b, (f t b).bareBut ks = t.bareBut ks)
    (l : List β) (t : Tu) : (l.foldl f t).bareBut ks = t.bareBut ks := by
  induction l generalizing t with
  | nil => rfl
  | cons b r ih => exact (ih (f t b)).trans (hf t b)

@[simp] theorem Tu.bare_internal (t : Tu) (src n : Nat) : (t.internal src n).bareBut ks = t.bareBut ks := by
  simp only [Tu.internal]
  split
  · rfl
  · exact Tu.bare_foldl _ (fun t (e : Nat × Cnt) => Tu.bare_putCnt t e.1 _) _ t

theorem Tu.bare_offer (t : Tu) (a req cost : Nat) (rs : List Rec) (h : a ≤ 8) :
    (t.offer a req cost rs).1.bareBut ks = t.bareBut ks := by
  simp only [Tu.offer]
  split
  · rw [Tu.bare_internal]; exact Tu.bare_offerRaw t a req cost rs h
  · rw [Tu.bare_internal, Tu.bare_internal]; exact Tu.bare_offerRaw t a req cost rs h

@[simp] theorem Tu.bare_sendFree (t : Tu) (r : Rec) : (t.sendFree r).bareBut ks = t.bareBut ks := by
  simp only [Tu.sendFree]
  split
  · exact Tu.bare_enqueue _ _ _ _
  · simp

@[simp] theorem Tu.bare_log (t : Tu) (e : Event) : (t.log e).bareBut ks = t.bareBut ks := by
  simp only [Tu.log]
  refine (Tu.bare_foldl _ (fun t o => Tu.bare_offer t 5 2 _ _ (by omega)) _ _).trans ?_
  split
  · rfl
  · exact (Tu.bare_bump_hidden _ _ _ _ (contains_append_left (by decide))).trans rfl

@[simp] theorem Tu.bare_timeRec (t : Tu) (ev : Nat) (offs : Int) (g : Nat) (late unc : Bool) :
    (t.timeRec ev offs g late unc).bareBut ks = t.bareBut ks := Tu.bare_offer t 5 0 _ _ (by omega)

/-! ### Fyster -/

theorem Fyster.bare_bump_hidden (f : Fyster) (i j n : Nat) (h : (fyReportKeys ++ ks).contains (objKey i j) = true) :
    (f.bump i j n).bareBut ks = f.bareBut ks := by
  simp only [Fyster.bareBut, Fyster.bump, Part.bump, Part.wr, filter_tset_hidden f.part.obj (objKey i j) _
    (fyReportKeys ++ ks) h]

@[simp] theorem Fyster.bare_emit (f : Fyster) (o : Out) : (f.emit o).bareBut ks = f.bareBut ks := rfl
@[simp] theorem Fyster.bare_free (f : Fyster) : f.free.1.bareBut ks = f.bareBut ks := rfl

theorem setBit_true_idem (v i : Nat) : setBit (setBit v i true) i true = setBit v i true := by
  by_cases h : bitOf v i = true
  · simp [setBit, h]
  · have hb : bitOf (v + 2 ^ i) i = true := by
      simp only [bitOf, beq_iff_eq] at h ⊢
      rw [Nat.add_div_right _ (Nat.two_pow_pos i)]
      omega
    simp [setBit, h, hb]

/-- A trim shows neither in a hold nor in a cut once what it may change is left out. -/
theorem Hold.untrimmed_trim (x : Hold) (p s : Nat) :
    Hold.untrimmed { x with
      trimmed := true, ranges := x.ranges.map fun r => if r.1 = p ∧ r.2.2 = none then (p, s + 1, none) else r } =
      x.untrimmed := by
  simp only [Hold.untrimmed, List.map_map, Hold.mk.injEq, true_and, and_true]
  apply List.map_congr_left
  intro r _
  obtain ⟨a, b, c⟩ := r
  by_cases h : a = p ∧ c = none
  · obtain ⟨rfl, rfl⟩ := h; simp
  · simp [h]

theorem Fyster.bare_trimOpen (f : Fyster) (p h : Nat) : (f.trimOpen p h).bareBut ks = f.bareBut ks := by
  simp only [Fyster.trimOpen]
  split
  · rfl
  · split
    · split
      · rfl
      · have hh (s : Nat) : (f.holds.map fun (e : Nat × Hold) => if e.1 = h then (h, { e.2 with
              trimmed := true
              ranges := e.2.ranges.map fun r => if r.1 = p ∧ r.2.2 = none then (p, s + 1, none) else r }) else e).map
            (fun (e : Nat × Hold) => (e.1, e.2.untrimmed)) = f.holds.map fun (e : Nat × Hold) => (e.1, e.2.untrimmed) := by
          rw [List.map_map]
          apply List.map_congr_left
          intro e _
          simp only [Function.comp]
          split
          · rename_i he; rw [Hold.untrimmed_trim, ← he]
          · rfl
        split
        · simp only [Fyster.bareBut, hh]
        · have hk : (fyReportKeys ++ ks).contains (objKey 0x6809 4) = true := contains_append_left (by decide)
          simp only [Fyster.bareBut, Fyster.bump, Part.bump, Part.wr, filter_tset_hidden _ _ _ _ hk, hh, List.map_map,
            Fyster.mk.injEq, true_and, and_true]
          apply List.map_congr_left
          intro e _
          simp only [Function.comp]
          split <;> simp [setBit_true_idem]
    · rfl

theorem Fyster.bare_foldl {β : Type} (g : Fyster → β → Fyster) (hg : ∀ f b, (g f b).bareBut ks = f.bareBut ks)
    (l : List β) (f : Fyster) : (l.foldl g f).bareBut ks = f.bareBut ks := by
  induction l generalizing f with
  | nil => rfl
  | cons b r ih => exact (ih (g f b)).trans (hg f b)

@[simp] theorem Fyster.bare_takeSegment (f : Fyster) (p d : Nat) : (f.takeSegment p d).bareBut ks = f.bareBut ks :=
  (Fyster.bare_foldl _ (fun f h => Fyster.bare_trimOpen f p h) _ _).trans rfl

@[simp] theorem Fyster.bare_writeEntry (f : Fyster) (p : Nat) (e : Entry) (n : EntryNote) :
    (f.writeEntry p e n).bareBut ks = f.bareBut ks := by
  simp only [Fyster.writeEntry]
  have h : ∀ c : Bool, (if c = true then f else f.takeSegment p (f.partDie p)).bareBut ks = f.bareBut ks := by
    intro c; cases c
    · exact Fyster.bare_takeSegment _ _ _
    · rfl
  split
  · exact h _
  · exact Eq.trans rfl (h _)

@[simp] theorem Fyster.bare_writeRecords (f : Fyster) (p c s r : Nat) (l : Bool) (rs : List Rec) :
    (f.writeRecords p c s r l rs).bareBut ks = f.bareBut ks := by
  simp only [Fyster.writeRecords]
  split
  · rfl
  · exact Fyster.bare_writeEntry _ _ _ _

@[simp] theorem Fyster.bare_own (f : Fyster) (r : Rec) : (f.own r).bareBut ks = f.bareBut ks := by
  simp only [Fyster.own, Fyster.bare_writeRecords]
  rfl

@[simp] theorem Fyster.bare_log (f : Fyster) (e : Event) : (f.log e).bareBut ks = f.bareBut ks := by
  simp only [Fyster.log]
  have h0 : (if Config.faultCode e.code = true then f.emit (.msix 67) else f).bareBut ks = f.bareBut ks := by split <;> rfl
  rw [← h0]
  generalize (if Config.faultCode e.code = true then f.emit (.msix 67) else f) = g
  split
  · rw [Fyster.bare_own, Fyster.bare_bump_hidden _ _ _ _ (contains_append_left (by decide))]
  · refine (Fyster.bare_foldl _ (fun f o => Fyster.bare_own f _) _ _).trans ?_
    split
    · rfl
    · exact Fyster.bare_bump_hidden _ _ _ _ (contains_append_left (by decide))

@[simp] theorem Fyster.bare_timeRec (f : Fyster) (ev port : Nat) (offs : Int) (g : Nat) (late unc : Bool) :
    (f.timeRec ev port offs g late unc).bareBut ks = f.bareBut ks := by
  simp only [Fyster.timeRec, Fyster.bare_own]

@[simp] theorem Fyster.bare_startCheck (f : Fyster) : f.startCheck.bareBut ks = f.bareBut ks := by
  simp only [Fyster.startCheck]
  split <;> rfl

@[simp] theorem Fyster.bare_hostEntry (f : Fyster) (k : Nat) (b : List Byte) :
    (f.hostEntry k b).bareBut ks = f.bareBut ks := by
  have hb : (f.bump 0x1171 3 1).bareBut ks = f.bareBut ks :=
    Fyster.bare_bump_hidden f 0x1171 3 1 (contains_append_left (by decide))
  simp only [Fyster.hostEntry]
  repeat' split
  all_goals first
    | exact hb
    | simp only [Fyster.bareBut, Fyster.emit]

@[simp] theorem Fyster.bare_hostRec (f : Fyster) (r : Rec) : (f.hostRec r).bareBut ks = f.bareBut ks := by
  simp only [Fyster.hostRec, Fyster.bare_hostEntry, Fyster.bare_writeRecords]
  rfl

end Sys2Proof.Machine
end

