-- ==== Sys2Proof/Laws/State.lean ====
section
/-! SUPPORT. What each update of the state leaves in each field: one lemma per field per update, all by computation. -/

namespace Sys2Proof.Machine

@[simp] theorem State.setTu_fy (s : State) (p : Port) (t : Tu) : (s.setTu p t).fy = s.fy := rfl
@[simp] theorem State.setTu_pending (s : State) (p : Port) (t : Tu) : (s.setTu p t).pending = s.pending := rfl
@[simp] theorem State.setTu_tus (s : State) (p : Port) (t : Tu) : (s.setTu p t).tus = tset s.tus p.val t := rfl
@[simp] theorem onTu_fy (p : Port) (dt : Nat) (f : Tu → Tu) (s : State) : (onTu p dt f s).fy = s.fy := rfl
@[simp] theorem onTu_pending (p : Port) (dt : Nat) (f : Tu → Tu) (s : State) : (onTu p dt f s).pending = s.pending := rfl
@[simp] theorem onFy_fy (dt : Nat) (g : Fyster → Fyster) (s : State) : (onFy dt g s).fy = g (s.fy.tick dt) := rfl
@[simp] theorem onFy_tus (dt : Nat) (g : Fyster → Fyster) (s : State) : (onFy dt g s).tus = s.tus := rfl
@[simp] theorem onFy_pending (dt : Nat) (g : Fyster → Fyster) (s : State) : (onFy dt g s).pending = s.pending := rfl
@[simp] theorem onFy_tu (dt : Nat) (g : Fyster → Fyster) (s : State) (p : Port) : (onFy dt g s).tu p = s.tu p := rfl

/-! ### Objects of a part -/

@[simp] theorem Part.wr_time (p : Part) (i j v : Nat) : (p.wr i j v).time = p.time := rfl
@[simp] theorem Part.wrDom_time (p : Part) (i j : Nat) (v : List Byte) : (p.wrDom i j v).time = p.time := rfl
@[simp] theorem Part.bump_time (p : Part) (i j n : Nat) : (p.bump i j n).time = p.time := rfl
@[simp] theorem Part.wr_evr (p : Part) (i j v : Nat) : (p.wr i j v).evr = p.evr := rfl
@[simp] theorem Part.wrDom_evr (p : Part) (i j : Nat) (v : List Byte) : (p.wrDom i j v).evr = p.evr := rfl
@[simp] theorem Part.bump_evr (p : Part) (i j n : Nat) : (p.bump i j n).evr = p.evr := rfl
@[simp] theorem Part.wrDom_obj (p : Part) (i j : Nat) (v : List Byte) : (p.wrDom i j v).obj = p.obj := rfl
@[simp] theorem Part.wr_dom (p : Part) (i j v : Nat) : (p.wr i j v).dom = p.dom := rfl
@[simp] theorem Part.bump_dom (p : Part) (i j n : Nat) : (p.bump i j n).dom = p.dom := rfl
@[simp] theorem Part.wr_chans (p : Part) (i j v : Nat) : (p.wr i j v).chans = p.chans := rfl
@[simp] theorem Part.wrDom_chans (p : Part) (i j : Nat) (v : List Byte) : (p.wrDom i j v).chans = p.chans := rfl
@[simp] theorem Part.bump_chans (p : Part) (i j n : Nat) : (p.bump i j n).chans = p.chans := rfl
@[simp] theorem Part.wr_alive (p : Part) (i j v : Nat) : (p.wr i j v).alive = p.alive := rfl
@[simp] theorem Part.wrDom_alive (p : Part) (i j : Nat) (v : List Byte) : (p.wrDom i j v).alive = p.alive := rfl
@[simp] theorem Part.bump_alive (p : Part) (i j n : Nat) : (p.bump i j n).alive = p.alive := rfl
@[simp] theorem Part.wr_lossy (p : Part) (i j v : Nat) : (p.wr i j v).lossy = p.lossy := rfl
@[simp] theorem Part.wrDom_lossy (p : Part) (i j : Nat) (v : List Byte) : (p.wrDom i j v).lossy = p.lossy := rfl
@[simp] theorem Part.bump_lossy (p : Part) (i j n : Nat) : (p.bump i j n).lossy = p.lossy := rfl
@[simp] theorem Part.wr_loss (p : Part) (i j v : Nat) : (p.wr i j v).loss = p.loss := rfl
@[simp] theorem Part.wrDom_loss (p : Part) (i j : Nat) (v : List Byte) : (p.wrDom i j v).loss = p.loss := rfl
@[simp] theorem Part.bump_loss (p : Part) (i j n : Nat) : (p.bump i j n).loss = p.loss := rfl
@[simp] theorem Part.wr_pwr (p : Part) (i j v : Nat) : (p.wr i j v).pwr = p.pwr := rfl
@[simp] theorem Part.wrDom_pwr (p : Part) (i j : Nat) (v : List Byte) : (p.wrDom i j v).pwr = p.pwr := rfl
@[simp] theorem Part.bump_pwr (p : Part) (i j n : Nat) : (p.bump i j n).pwr = p.pwr := rfl
@[simp] theorem Part.wr_orders (p : Part) (i j v : Nat) : (p.wr i j v).orders = p.orders := rfl
@[simp] theorem Part.wrDom_orders (p : Part) (i j : Nat) (v : List Byte) : (p.wrDom i j v).orders = p.orders := rfl
@[simp] theorem Part.bump_orders (p : Part) (i j n : Nat) : (p.bump i j n).orders = p.orders := rfl
@[simp] theorem Part.wr_held (p : Part) (i j v : Nat) : (p.wr i j v).held = p.held := rfl
@[simp] theorem Part.wrDom_held (p : Part) (i j : Nat) (v : List Byte) : (p.wrDom i j v).held = p.held := rfl
@[simp] theorem Part.bump_held (p : Part) (i j n : Nat) : (p.bump i j n).held = p.held := rfl
@[simp] theorem Part.wr_crc (p : Part) (i j v : Nat) : (p.wr i j v).crc = p.crc := rfl
@[simp] theorem Part.wrDom_crc (p : Part) (i j : Nat) (v : List Byte) : (p.wrDom i j v).crc = p.crc := rfl
@[simp] theorem Part.bump_crc (p : Part) (i j n : Nat) : (p.bump i j n).crc = p.crc := rfl
@[simp] theorem Part.wr_wear (p : Part) (i j v : Nat) : (p.wr i j v).wear = p.wear := rfl
@[simp] theorem Part.wrDom_wear (p : Part) (i j : Nat) (v : List Byte) : (p.wrDom i j v).wear = p.wear := rfl
@[simp] theorem Part.bump_wear (p : Part) (i j n : Nat) : (p.bump i j n).wear = p.wear := rfl
@[simp] theorem Part.wr_swapQ (p : Part) (i j v : Nat) : (p.wr i j v).swapQ = p.swapQ := rfl
@[simp] theorem Part.wrDom_swapQ (p : Part) (i j : Nat) (v : List Byte) : (p.wrDom i j v).swapQ = p.swapQ := rfl
@[simp] theorem Part.bump_swapQ (p : Part) (i j n : Nat) : (p.bump i j n).swapQ = p.swapQ := rfl
@[simp] theorem Part.wr_recov (p : Part) (i j v : Nat) : (p.wr i j v).recov = p.recov := rfl
@[simp] theorem Part.wrDom_recov (p : Part) (i j : Nat) (v : List Byte) : (p.wrDom i j v).recov = p.recov := rfl
@[simp] theorem Part.bump_recov (p : Part) (i j n : Nat) : (p.bump i j n).recov = p.recov := rfl

/-! ### A TU -/

@[simp] theorem Tu.tick_link (t : Tu) (dt : Nat) : (t.tick dt).link = t.link := rfl
@[simp] theorem Tu.wr_link (t : Tu) (i j v : Nat) : (t.wr i j v).link = t.link := rfl
@[simp] theorem Tu.bump_link (t : Tu) (i j n : Nat) : (t.bump i j n).link = t.link := rfl
@[simp] theorem Tu.emit_link (t : Tu) (o : Out) : (t.emit o).link = t.link := by cases o <;> rfl
@[simp] theorem Tu.free_link (t : Tu) (p : Port) : (t.free p).1.link = t.link := rfl
@[simp] theorem Tu.tick_powered (t : Tu) (dt : Nat) : (t.tick dt).powered = t.powered := rfl
@[simp] theorem Tu.wr_powered (t : Tu) (i j v : Nat) : (t.wr i j v).powered = t.powered := rfl
@[simp] theorem Tu.bump_powered (t : Tu) (i j n : Nat) : (t.bump i j n).powered = t.powered := rfl
@[simp] theorem Tu.emit_powered (t : Tu) (o : Out) : (t.emit o).powered = t.powered := by cases o <;> rfl
@[simp] theorem Tu.free_powered (t : Tu) (p : Port) : (t.free p).1.powered = t.powered := rfl
@[simp] theorem Tu.tick_discovered (t : Tu) (dt : Nat) : (t.tick dt).discovered = t.discovered := rfl
@[simp] theorem Tu.wr_discovered (t : Tu) (i j v : Nat) : (t.wr i j v).discovered = t.discovered := rfl
@[simp] theorem Tu.bump_discovered (t : Tu) (i j n : Nat) : (t.bump i j n).discovered = t.discovered := rfl
@[simp] theorem Tu.emit_discovered (t : Tu) (o : Out) : (t.emit o).discovered = t.discovered := by cases o <;> rfl
@[simp] theorem Tu.free_discovered (t : Tu) (p : Port) : (t.free p).1.discovered = t.discovered := rfl
@[simp] theorem Tu.tick_die (t : Tu) (dt : Nat) : (t.tick dt).die = t.die := rfl
@[simp] theorem Tu.wr_die (t : Tu) (i j v : Nat) : (t.wr i j v).die = t.die := rfl
@[simp] theorem Tu.bump_die (t : Tu) (i j n : Nat) : (t.bump i j n).die = t.die := rfl
@[simp] theorem Tu.emit_die (t : Tu) (o : Out) : (t.emit o).die = t.die := by cases o <;> rfl
@[simp] theorem Tu.free_die (t : Tu) (p : Port) : (t.free p).1.die = t.die := rfl
@[simp] theorem Tu.tick_lastReset (t : Tu) (dt : Nat) : (t.tick dt).lastReset = t.lastReset := rfl
@[simp] theorem Tu.wr_lastReset (t : Tu) (i j v : Nat) : (t.wr i j v).lastReset = t.lastReset := rfl
@[simp] theorem Tu.bump_lastReset (t : Tu) (i j n : Nat) : (t.bump i j n).lastReset = t.lastReset := rfl
@[simp] theorem Tu.emit_lastReset (t : Tu) (o : Out) : (t.emit o).lastReset = t.lastReset := by cases o <;> rfl
@[simp] theorem Tu.free_lastReset (t : Tu) (p : Port) : (t.free p).1.lastReset = t.lastReset := rfl
@[simp] theorem Tu.tick_faultReset (t : Tu) (dt : Nat) : (t.tick dt).faultReset = t.faultReset := rfl
@[simp] theorem Tu.wr_faultReset (t : Tu) (i j v : Nat) : (t.wr i j v).faultReset = t.faultReset := rfl
@[simp] theorem Tu.bump_faultReset (t : Tu) (i j n : Nat) : (t.bump i j n).faultReset = t.faultReset := rfl
@[simp] theorem Tu.emit_faultReset (t : Tu) (o : Out) : (t.emit o).faultReset = t.faultReset := by cases o <;> rfl
@[simp] theorem Tu.free_faultReset (t : Tu) (p : Port) : (t.free p).1.faultReset = t.faultReset := rfl
@[simp] theorem Tu.tick_treq (t : Tu) (dt : Nat) : (t.tick dt).treq = t.treq := rfl
@[simp] theorem Tu.wr_treq (t : Tu) (i j v : Nat) : (t.wr i j v).treq = t.treq := rfl
@[simp] theorem Tu.bump_treq (t : Tu) (i j n : Nat) : (t.bump i j n).treq = t.treq := rfl
@[simp] theorem Tu.emit_treq (t : Tu) (o : Out) : (t.emit o).treq = t.treq := by cases o <;> rfl
@[simp] theorem Tu.free_treq (t : Tu) (p : Port) : (t.free p).1.treq = t.treq := rfl
@[simp] theorem Tu.tick_treqSeq (t : Tu) (dt : Nat) : (t.tick dt).treqSeq = t.treqSeq := rfl
@[simp] theorem Tu.wr_treqSeq (t : Tu) (i j v : Nat) : (t.wr i j v).treqSeq = t.treqSeq := rfl
@[simp] theorem Tu.bump_treqSeq (t : Tu) (i j n : Nat) : (t.bump i j n).treqSeq = t.treqSeq := rfl
@[simp] theorem Tu.emit_treqSeq (t : Tu) (o : Out) : (t.emit o).treqSeq = t.treqSeq := by cases o <;> rfl
@[simp] theorem Tu.free_treqSeq (t : Tu) (p : Port) : (t.free p).1.treqSeq = t.treqSeq := rfl
@[simp] theorem Tu.tick_mpds (t : Tu) (dt : Nat) : (t.tick dt).mpds = t.mpds := rfl
@[simp] theorem Tu.wr_mpds (t : Tu) (i j v : Nat) : (t.wr i j v).mpds = t.mpds := rfl
@[simp] theorem Tu.bump_mpds (t : Tu) (i j n : Nat) : (t.bump i j n).mpds = t.mpds := rfl
@[simp] theorem Tu.emit_mpds (t : Tu) (o : Out) : (t.emit o).mpds = t.mpds := by cases o <;> rfl
@[simp] theorem Tu.free_mpds (t : Tu) (p : Port) : (t.free p).1.mpds = t.mpds := rfl
@[simp] theorem Tu.tick_bad (t : Tu) (dt : Nat) : (t.tick dt).bad = t.bad := rfl
@[simp] theorem Tu.wr_bad (t : Tu) (i j v : Nat) : (t.wr i j v).bad = t.bad := rfl
@[simp] theorem Tu.bump_bad (t : Tu) (i j n : Nat) : (t.bump i j n).bad = t.bad := rfl
@[simp] theorem Tu.emit_bad (t : Tu) (o : Out) : (t.emit o).bad = t.bad := by cases o <;> rfl
@[simp] theorem Tu.free_bad (t : Tu) (p : Port) : (t.free p).1.bad = t.bad := rfl
@[simp] theorem Tu.tick_asym (t : Tu) (dt : Nat) : (t.tick dt).asym = t.asym := rfl
@[simp] theorem Tu.wr_asym (t : Tu) (i j v : Nat) : (t.wr i j v).asym = t.asym := rfl
@[simp] theorem Tu.bump_asym (t : Tu) (i j n : Nat) : (t.bump i j n).asym = t.asym := rfl
@[simp] theorem Tu.emit_asym (t : Tu) (o : Out) : (t.emit o).asym = t.asym := by cases o <;> rfl
@[simp] theorem Tu.free_asym (t : Tu) (p : Port) : (t.free p).1.asym = t.asym := rfl
@[simp] theorem Tu.tick_asymNew (t : Tu) (dt : Nat) : (t.tick dt).asymNew = t.asymNew := rfl
@[simp] theorem Tu.wr_asymNew (t : Tu) (i j v : Nat) : (t.wr i j v).asymNew = t.asymNew := rfl
@[simp] theorem Tu.bump_asymNew (t : Tu) (i j n : Nat) : (t.bump i j n).asymNew = t.asymNew := rfl
@[simp] theorem Tu.emit_asymNew (t : Tu) (o : Out) : (t.emit o).asymNew = t.asymNew := by cases o <;> rfl
@[simp] theorem Tu.free_asymNew (t : Tu) (p : Port) : (t.free p).1.asymNew = t.asymNew := rfl
@[simp] theorem Tu.tick_fyServo (t : Tu) (dt : Nat) : (t.tick dt).fyServo = t.fyServo := rfl
@[simp] theorem Tu.wr_fyServo (t : Tu) (i j v : Nat) : (t.wr i j v).fyServo = t.fyServo := rfl
@[simp] theorem Tu.bump_fyServo (t : Tu) (i j n : Nat) : (t.bump i j n).fyServo = t.fyServo := rfl
@[simp] theorem Tu.emit_fyServo (t : Tu) (o : Out) : (t.emit o).fyServo = t.fyServo := by cases o <;> rfl
@[simp] theorem Tu.free_fyServo (t : Tu) (p : Port) : (t.free p).1.fyServo = t.fyServo := rfl
@[simp] theorem Tu.tick_fyHold (t : Tu) (dt : Nat) : (t.tick dt).fyHold = t.fyHold := rfl
@[simp] theorem Tu.wr_fyHold (t : Tu) (i j v : Nat) : (t.wr i j v).fyHold = t.fyHold := rfl
@[simp] theorem Tu.bump_fyHold (t : Tu) (i j n : Nat) : (t.bump i j n).fyHold = t.fyHold := rfl
@[simp] theorem Tu.emit_fyHold (t : Tu) (o : Out) : (t.emit o).fyHold = t.fyHold := by cases o <;> rfl
@[simp] theorem Tu.free_fyHold (t : Tu) (p : Port) : (t.free p).1.fyHold = t.fyHold := rfl
@[simp] theorem Tu.tick_fyProfile (t : Tu) (dt : Nat) : (t.tick dt).fyProfile = t.fyProfile := rfl
@[simp] theorem Tu.wr_fyProfile (t : Tu) (i j v : Nat) : (t.wr i j v).fyProfile = t.fyProfile := rfl
@[simp] theorem Tu.bump_fyProfile (t : Tu) (i j n : Nat) : (t.bump i j n).fyProfile = t.fyProfile := rfl
@[simp] theorem Tu.emit_fyProfile (t : Tu) (o : Out) : (t.emit o).fyProfile = t.fyProfile := by cases o <;> rfl
@[simp] theorem Tu.free_fyProfile (t : Tu) (p : Port) : (t.free p).1.fyProfile = t.fyProfile := rfl
@[simp] theorem Tu.tick_restartSeen (t : Tu) (dt : Nat) : (t.tick dt).restartSeen = t.restartSeen := rfl
@[simp] theorem Tu.wr_restartSeen (t : Tu) (i j v : Nat) : (t.wr i j v).restartSeen = t.restartSeen := rfl
@[simp] theorem Tu.bump_restartSeen (t : Tu) (i j n : Nat) : (t.bump i j n).restartSeen = t.restartSeen := rfl
@[simp] theorem Tu.emit_restartSeen (t : Tu) (o : Out) : (t.emit o).restartSeen = t.restartSeen := by cases o <;> rfl
@[simp] theorem Tu.free_restartSeen (t : Tu) (p : Port) : (t.free p).1.restartSeen = t.restartSeen := rfl
@[simp] theorem Tu.tick_cnts (t : Tu) (dt : Nat) : (t.tick dt).cnts = t.cnts := rfl
@[simp] theorem Tu.wr_cnts (t : Tu) (i j v : Nat) : (t.wr i j v).cnts = t.cnts := rfl
@[simp] theorem Tu.bump_cnts (t : Tu) (i j n : Nat) : (t.bump i j n).cnts = t.cnts := rfl
@[simp] theorem Tu.emit_cnts (t : Tu) (o : Out) : (t.emit o).cnts = t.cnts := by cases o <;> rfl
@[simp] theorem Tu.free_cnts (t : Tu) (p : Port) : (t.free p).1.cnts = t.cnts := rfl
@[simp] theorem Tu.tick_spares (t : Tu) (dt : Nat) : (t.tick dt).spares = t.spares := rfl
@[simp] theorem Tu.wr_spares (t : Tu) (i j v : Nat) : (t.wr i j v).spares = t.spares := rfl
@[simp] theorem Tu.bump_spares (t : Tu) (i j n : Nat) : (t.bump i j n).spares = t.spares := rfl
@[simp] theorem Tu.emit_spares (t : Tu) (o : Out) : (t.emit o).spares = t.spares := by cases o <;> rfl
@[simp] theorem Tu.free_spares (t : Tu) (p : Port) : (t.free p).1.spares = t.spares := rfl
@[simp] theorem Tu.tick_cpBank (t : Tu) (dt : Nat) : (t.tick dt).cpBank = t.cpBank := rfl
@[simp] theorem Tu.wr_cpBank (t : Tu) (i j v : Nat) : (t.wr i j v).cpBank = t.cpBank := rfl
@[simp] theorem Tu.bump_cpBank (t : Tu) (i j n : Nat) : (t.bump i j n).cpBank = t.cpBank := rfl
@[simp] theorem Tu.emit_cpBank (t : Tu) (o : Out) : (t.emit o).cpBank = t.cpBank := by cases o <;> rfl
@[simp] theorem Tu.free_cpBank (t : Tu) (p : Port) : (t.free p).1.cpBank = t.cpBank := rfl
@[simp] theorem Tu.tick_cntEpoch (t : Tu) (dt : Nat) : (t.tick dt).cntEpoch = t.cntEpoch := rfl
@[simp] theorem Tu.wr_cntEpoch (t : Tu) (i j v : Nat) : (t.wr i j v).cntEpoch = t.cntEpoch := rfl
@[simp] theorem Tu.bump_cntEpoch (t : Tu) (i j n : Nat) : (t.bump i j n).cntEpoch = t.cntEpoch := rfl
@[simp] theorem Tu.emit_cntEpoch (t : Tu) (o : Out) : (t.emit o).cntEpoch = t.cntEpoch := by cases o <;> rfl
@[simp] theorem Tu.free_cntEpoch (t : Tu) (p : Port) : (t.free p).1.cntEpoch = t.cntEpoch := rfl
@[simp] theorem Tu.tick_sets (t : Tu) (dt : Nat) : (t.tick dt).sets = t.sets := rfl
@[simp] theorem Tu.wr_sets (t : Tu) (i j v : Nat) : (t.wr i j v).sets = t.sets := rfl
@[simp] theorem Tu.bump_sets (t : Tu) (i j n : Nat) : (t.bump i j n).sets = t.sets := rfl
@[simp] theorem Tu.emit_sets (t : Tu) (o : Out) : (t.emit o).sets = t.sets := by cases o <;> rfl
@[simp] theorem Tu.free_sets (t : Tu) (p : Port) : (t.free p).1.sets = t.sets := rfl
@[simp] theorem Tu.tick_units (t : Tu) (dt : Nat) : (t.tick dt).units = t.units := rfl
@[simp] theorem Tu.wr_units (t : Tu) (i j v : Nat) : (t.wr i j v).units = t.units := rfl
@[simp] theorem Tu.bump_units (t : Tu) (i j n : Nat) : (t.bump i j n).units = t.units := rfl
@[simp] theorem Tu.emit_units (t : Tu) (o : Out) : (t.emit o).units = t.units := by cases o <;> rfl
@[simp] theorem Tu.free_units (t : Tu) (p : Port) : (t.free p).1.units = t.units := rfl
@[simp] theorem Tu.tick_slots (t : Tu) (dt : Nat) : (t.tick dt).slots = t.slots := rfl
@[simp] theorem Tu.wr_slots (t : Tu) (i j v : Nat) : (t.wr i j v).slots = t.slots := rfl
@[simp] theorem Tu.bump_slots (t : Tu) (i j n : Nat) : (t.bump i j n).slots = t.slots := rfl
@[simp] theorem Tu.emit_slots (t : Tu) (o : Out) : (t.emit o).slots = t.slots := by cases o <;> rfl
@[simp] theorem Tu.free_slots (t : Tu) (p : Port) : (t.free p).1.slots = t.slots := rfl
@[simp] theorem Tu.tick_binds (t : Tu) (dt : Nat) : (t.tick dt).binds = t.binds := rfl
@[simp] theorem Tu.wr_binds (t : Tu) (i j v : Nat) : (t.wr i j v).binds = t.binds := rfl
@[simp] theorem Tu.bump_binds (t : Tu) (i j n : Nat) : (t.bump i j n).binds = t.binds := rfl
@[simp] theorem Tu.emit_binds (t : Tu) (o : Out) : (t.emit o).binds = t.binds := by cases o <;> rfl
@[simp] theorem Tu.free_binds (t : Tu) (p : Port) : (t.free p).1.binds = t.binds := rfl
@[simp] theorem Tu.tick_names (t : Tu) (dt : Nat) : (t.tick dt).names = t.names := rfl
@[simp] theorem Tu.wr_names (t : Tu) (i j v : Nat) : (t.wr i j v).names = t.names := rfl
@[simp] theorem Tu.bump_names (t : Tu) (i j n : Nat) : (t.bump i j n).names = t.names := rfl
@[simp] theorem Tu.emit_names (t : Tu) (o : Out) : (t.emit o).names = t.names := by cases o <;> rfl
@[simp] theorem Tu.free_names (t : Tu) (p : Port) : (t.free p).1.names = t.names := rfl
@[simp] theorem Tu.tick_newest (t : Tu) (dt : Nat) : (t.tick dt).newest = t.newest := rfl
@[simp] theorem Tu.wr_newest (t : Tu) (i j v : Nat) : (t.wr i j v).newest = t.newest := rfl
@[simp] theorem Tu.bump_newest (t : Tu) (i j n : Nat) : (t.bump i j n).newest = t.newest := rfl
@[simp] theorem Tu.emit_newest (t : Tu) (o : Out) : (t.emit o).newest = t.newest := by cases o <;> rfl
@[simp] theorem Tu.free_newest (t : Tu) (p : Port) : (t.free p).1.newest = t.newest := rfl
@[simp] theorem Tu.tick_encs (t : Tu) (dt : Nat) : (t.tick dt).encs = t.encs := rfl
@[simp] theorem Tu.wr_encs (t : Tu) (i j v : Nat) : (t.wr i j v).encs = t.encs := rfl
@[simp] theorem Tu.bump_encs (t : Tu) (i j n : Nat) : (t.bump i j n).encs = t.encs := rfl
@[simp] theorem Tu.emit_encs (t : Tu) (o : Out) : (t.emit o).encs = t.encs := by cases o <;> rfl
@[simp] theorem Tu.free_encs (t : Tu) (p : Port) : (t.free p).1.encs = t.encs := rfl
@[simp] theorem Tu.tick_win (t : Tu) (dt : Nat) : (t.tick dt).win = t.win := rfl
@[simp] theorem Tu.wr_win (t : Tu) (i j v : Nat) : (t.wr i j v).win = t.win := rfl
@[simp] theorem Tu.bump_win (t : Tu) (i j n : Nat) : (t.bump i j n).win = t.win := rfl
@[simp] theorem Tu.emit_win (t : Tu) (o : Out) : (t.emit o).win = t.win := by cases o <;> rfl
@[simp] theorem Tu.free_win (t : Tu) (p : Port) : (t.free p).1.win = t.win := rfl
@[simp] theorem Tu.tick_rings (t : Tu) (dt : Nat) : (t.tick dt).rings = t.rings := rfl
@[simp] theorem Tu.wr_rings (t : Tu) (i j v : Nat) : (t.wr i j v).rings = t.rings := rfl
@[simp] theorem Tu.bump_rings (t : Tu) (i j n : Nat) : (t.bump i j n).rings = t.rings := rfl
@[simp] theorem Tu.emit_rings (t : Tu) (o : Out) : (t.emit o).rings = t.rings := by cases o <;> rfl
@[simp] theorem Tu.free_rings (t : Tu) (p : Port) : (t.free p).1.rings = t.rings := rfl
@[simp] theorem Tu.tick_frz (t : Tu) (dt : Nat) : (t.tick dt).frz = t.frz := rfl
@[simp] theorem Tu.wr_frz (t : Tu) (i j v : Nat) : (t.wr i j v).frz = t.frz := rfl
@[simp] theorem Tu.bump_frz (t : Tu) (i j n : Nat) : (t.bump i j n).frz = t.frz := rfl
@[simp] theorem Tu.emit_frz (t : Tu) (o : Out) : (t.emit o).frz = t.frz := by cases o <;> rfl
@[simp] theorem Tu.free_frz (t : Tu) (p : Port) : (t.free p).1.frz = t.frz := rfl
@[simp] theorem Tu.tick_dpcDown (t : Tu) (dt : Nat) : (t.tick dt).dpcDown = t.dpcDown := rfl
@[simp] theorem Tu.wr_dpcDown (t : Tu) (i j v : Nat) : (t.wr i j v).dpcDown = t.dpcDown := rfl
@[simp] theorem Tu.bump_dpcDown (t : Tu) (i j n : Nat) : (t.bump i j n).dpcDown = t.dpcDown := rfl
@[simp] theorem Tu.emit_dpcDown (t : Tu) (o : Out) : (t.emit o).dpcDown = t.dpcDown := by cases o <;> rfl
@[simp] theorem Tu.free_dpcDown (t : Tu) (p : Port) : (t.free p).1.dpcDown = t.dpcDown := rfl
@[simp] theorem Tu.tick_mace (t : Tu) (dt : Nat) : (t.tick dt).mace = t.mace := rfl
@[simp] theorem Tu.wr_mace (t : Tu) (i j v : Nat) : (t.wr i j v).mace = t.mace := rfl
@[simp] theorem Tu.bump_mace (t : Tu) (i j n : Nat) : (t.bump i j n).mace = t.mace := rfl
@[simp] theorem Tu.emit_mace (t : Tu) (o : Out) : (t.emit o).mace = t.mace := by cases o <;> rfl
@[simp] theorem Tu.free_mace (t : Tu) (p : Port) : (t.free p).1.mace = t.mace := rfl
@[simp] theorem Tu.tick_exp (t : Tu) (dt : Nat) : (t.tick dt).exp = t.exp := rfl
@[simp] theorem Tu.wr_exp (t : Tu) (i j v : Nat) : (t.wr i j v).exp = t.exp := rfl
@[simp] theorem Tu.bump_exp (t : Tu) (i j n : Nat) : (t.bump i j n).exp = t.exp := rfl
@[simp] theorem Tu.emit_exp (t : Tu) (o : Out) : (t.emit o).exp = t.exp := by cases o <;> rfl
@[simp] theorem Tu.free_exp (t : Tu) (p : Port) : (t.free p).1.exp = t.exp := rfl
@[simp] theorem Tu.tick_sumac (t : Tu) (dt : Nat) : (t.tick dt).sumac = t.sumac := rfl
@[simp] theorem Tu.wr_sumac (t : Tu) (i j v : Nat) : (t.wr i j v).sumac = t.sumac := rfl
@[simp] theorem Tu.bump_sumac (t : Tu) (i j n : Nat) : (t.bump i j n).sumac = t.sumac := rfl
@[simp] theorem Tu.emit_sumac (t : Tu) (o : Out) : (t.emit o).sumac = t.sumac := by cases o <;> rfl
@[simp] theorem Tu.free_sumac (t : Tu) (p : Port) : (t.free p).1.sumac = t.sumac := rfl
@[simp] theorem Tu.tick_cuts (t : Tu) (dt : Nat) : (t.tick dt).cuts = t.cuts := rfl
@[simp] theorem Tu.wr_cuts (t : Tu) (i j v : Nat) : (t.wr i j v).cuts = t.cuts := rfl
@[simp] theorem Tu.bump_cuts (t : Tu) (i j n : Nat) : (t.bump i j n).cuts = t.cuts := rfl
@[simp] theorem Tu.emit_cuts (t : Tu) (o : Out) : (t.emit o).cuts = t.cuts := by cases o <;> rfl
@[simp] theorem Tu.free_cuts (t : Tu) (p : Port) : (t.free p).1.cuts = t.cuts := rfl
@[simp] theorem Tu.tick_cutsPending (t : Tu) (dt : Nat) : (t.tick dt).cutsPending = t.cutsPending := rfl
@[simp] theorem Tu.wr_cutsPending (t : Tu) (i j v : Nat) : (t.wr i j v).cutsPending = t.cutsPending := rfl
@[simp] theorem Tu.bump_cutsPending (t : Tu) (i j n : Nat) : (t.bump i j n).cutsPending = t.cutsPending := rfl
@[simp] theorem Tu.emit_cutsPending (t : Tu) (o : Out) : (t.emit o).cutsPending = t.cutsPending := by cases o <;> rfl
@[simp] theorem Tu.free_cutsPending (t : Tu) (p : Port) : (t.free p).1.cutsPending = t.cutsPending := rfl
@[simp] theorem Tu.tick_groups (t : Tu) (dt : Nat) : (t.tick dt).groups = t.groups := rfl
@[simp] theorem Tu.wr_groups (t : Tu) (i j v : Nat) : (t.wr i j v).groups = t.groups := rfl
@[simp] theorem Tu.bump_groups (t : Tu) (i j n : Nat) : (t.bump i j n).groups = t.groups := rfl
@[simp] theorem Tu.emit_groups (t : Tu) (o : Out) : (t.emit o).groups = t.groups := by cases o <;> rfl
@[simp] theorem Tu.free_groups (t : Tu) (p : Port) : (t.free p).1.groups = t.groups := rfl
@[simp] theorem Tu.tick_staging (t : Tu) (dt : Nat) : (t.tick dt).staging = t.staging := rfl
@[simp] theorem Tu.wr_staging (t : Tu) (i j v : Nat) : (t.wr i j v).staging = t.staging := rfl
@[simp] theorem Tu.bump_staging (t : Tu) (i j n : Nat) : (t.bump i j n).staging = t.staging := rfl
@[simp] theorem Tu.emit_staging (t : Tu) (o : Out) : (t.emit o).staging = t.staging := by cases o <;> rfl
@[simp] theorem Tu.free_staging (t : Tu) (p : Port) : (t.free p).1.staging = t.staging := rfl
@[simp] theorem Tu.tick_dcopy (t : Tu) (dt : Nat) : (t.tick dt).dcopy = t.dcopy := rfl
@[simp] theorem Tu.wr_dcopy (t : Tu) (i j v : Nat) : (t.wr i j v).dcopy = t.dcopy := rfl
@[simp] theorem Tu.bump_dcopy (t : Tu) (i j n : Nat) : (t.bump i j n).dcopy = t.dcopy := rfl
@[simp] theorem Tu.emit_dcopy (t : Tu) (o : Out) : (t.emit o).dcopy = t.dcopy := by cases o <;> rfl
@[simp] theorem Tu.free_dcopy (t : Tu) (p : Port) : (t.free p).1.dcopy = t.dcopy := rfl
@[simp] theorem Tu.tick_out (t : Tu) (dt : Nat) : (t.tick dt).out = t.out := rfl
@[simp] theorem Tu.wr_out (t : Tu) (i j v : Nat) : (t.wr i j v).out = t.out := rfl
@[simp] theorem Tu.bump_out (t : Tu) (i j n : Nat) : (t.bump i j n).out = t.out := rfl
@[simp] theorem Tu.free_out (t : Tu) (p : Port) : (t.free p).1.out = t.out := rfl
@[simp] theorem Tu.tick_fresh (t : Tu) (dt : Nat) : (t.tick dt).fresh = t.fresh := rfl
@[simp] theorem Tu.wr_fresh (t : Tu) (i j v : Nat) : (t.wr i j v).fresh = t.fresh := rfl
@[simp] theorem Tu.bump_fresh (t : Tu) (i j n : Nat) : (t.bump i j n).fresh = t.fresh := rfl
@[simp] theorem Tu.emit_fresh (t : Tu) (o : Out) : (t.emit o).fresh = t.fresh := by cases o <;> rfl
@[simp] theorem Tu.emit_out (t : Tu) (o : Out) : (t.emit o).out = o :: t.out := by cases o <;> rfl
@[simp] theorem Tu.free_part (t : Tu) (p : Port) : (t.free p).1.part = t.part := rfl
@[simp] theorem Tu.wr_part_time (t : Tu) (i j v : Nat) : (t.wr i j v).part.time = t.part.time := rfl
@[simp] theorem Tu.bump_part_time (t : Tu) (i j n : Nat) : (t.bump i j n).part.time = t.part.time := rfl
@[simp] theorem Tu.emit_part_time (t : Tu) (o : Out) : (t.emit o).part.time = t.part.time := by
  cases o <;> first | rfl | (simp only [Tu.emit, Part.crcTake]; split <;> rfl)
@[simp] theorem Tu.tick_part_evr (t : Tu) (dt : Nat) : (t.tick dt).part.evr = t.part.evr := rfl
@[simp] theorem Tu.wr_part_evr (t : Tu) (i j v : Nat) : (t.wr i j v).part.evr = t.part.evr := rfl
@[simp] theorem Tu.bump_part_evr (t : Tu) (i j n : Nat) : (t.bump i j n).part.evr = t.part.evr := rfl
@[simp] theorem Tu.emit_part_evr (t : Tu) (o : Out) : (t.emit o).part.evr = t.part.evr := by
  cases o <;> first | rfl | (simp only [Tu.emit, Part.crcTake]; split <;> rfl)
@[simp] theorem Tu.tick_part_obj (t : Tu) (dt : Nat) : (t.tick dt).part.obj = t.part.obj := rfl
@[simp] theorem Tu.emit_part_obj (t : Tu) (o : Out) : (t.emit o).part.obj = t.part.obj := by
  cases o <;> first | rfl | (simp only [Tu.emit, Part.crcTake]; split <;> rfl)
@[simp] theorem Tu.tick_part_dom (t : Tu) (dt : Nat) : (t.tick dt).part.dom = t.part.dom := rfl
@[simp] theorem Tu.wr_part_dom (t : Tu) (i j v : Nat) : (t.wr i j v).part.dom = t.part.dom := rfl
@[simp] theorem Tu.bump_part_dom (t : Tu) (i j n : Nat) : (t.bump i j n).part.dom = t.part.dom := rfl
@[simp] theorem Tu.emit_part_dom (t : Tu) (o : Out) : (t.emit o).part.dom = t.part.dom := by
  cases o <;> first | rfl | (simp only [Tu.emit, Part.crcTake]; split <;> rfl)
@[simp] theorem Tu.tick_part_chans (t : Tu) (dt : Nat) : (t.tick dt).part.chans = t.part.chans := rfl
@[simp] theorem Tu.wr_part_chans (t : Tu) (i j v : Nat) : (t.wr i j v).part.chans = t.part.chans := rfl
@[simp] theorem Tu.bump_part_chans (t : Tu) (i j n : Nat) : (t.bump i j n).part.chans = t.part.chans := rfl
@[simp] theorem Tu.emit_part_chans (t : Tu) (o : Out) : (t.emit o).part.chans = t.part.chans := by
  cases o <;> first | rfl | (simp only [Tu.emit, Part.crcTake]; split <;> rfl)
@[simp] theorem Tu.tick_part_alive (t : Tu) (dt : Nat) : (t.tick dt).part.alive = t.part.alive := rfl
@[simp] theorem Tu.wr_part_alive (t : Tu) (i j v : Nat) : (t.wr i j v).part.alive = t.part.alive := rfl
@[simp] theorem Tu.bump_part_alive (t : Tu) (i j n : Nat) : (t.bump i j n).part.alive = t.part.alive := rfl
@[simp] theorem Tu.emit_part_alive (t : Tu) (o : Out) : (t.emit o).part.alive = t.part.alive := by
  cases o <;> first | rfl | (simp only [Tu.emit, Part.crcTake]; split <;> rfl)
@[simp] theorem Tu.tick_part_lossy (t : Tu) (dt : Nat) : (t.tick dt).part.lossy = t.part.lossy := rfl
@[simp] theorem Tu.wr_part_lossy (t : Tu) (i j v : Nat) : (t.wr i j v).part.lossy = t.part.lossy := rfl
@[simp] theorem Tu.bump_part_lossy (t : Tu) (i j n : Nat) : (t.bump i j n).part.lossy = t.part.lossy := rfl
@[simp] theorem Tu.emit_part_lossy (t : Tu) (o : Out) : (t.emit o).part.lossy = t.part.lossy := by
  cases o <;> first | rfl | (simp only [Tu.emit, Part.crcTake]; split <;> rfl)
@[simp] theorem Tu.tick_part_loss (t : Tu) (dt : Nat) : (t.tick dt).part.loss = t.part.loss := rfl
@[simp] theorem Tu.wr_part_loss (t : Tu) (i j v : Nat) : (t.wr i j v).part.loss = t.part.loss := rfl
@[simp] theorem Tu.bump_part_loss (t : Tu) (i j n : Nat) : (t.bump i j n).part.loss = t.part.loss := rfl
@[simp] theorem Tu.emit_part_loss (t : Tu) (o : Out) : (t.emit o).part.loss = t.part.loss := by
  cases o <;> first | rfl | (simp only [Tu.emit, Part.crcTake]; split <;> rfl)
@[simp] theorem Tu.tick_part_pwr (t : Tu) (dt : Nat) : (t.tick dt).part.pwr = t.part.pwr := rfl
@[simp] theorem Tu.wr_part_pwr (t : Tu) (i j v : Nat) : (t.wr i j v).part.pwr = t.part.pwr := rfl
@[simp] theorem Tu.bump_part_pwr (t : Tu) (i j n : Nat) : (t.bump i j n).part.pwr = t.part.pwr := rfl
@[simp] theorem Tu.emit_part_pwr (t : Tu) (o : Out) : (t.emit o).part.pwr = t.part.pwr := by
  cases o <;> first | rfl | (simp only [Tu.emit, Part.crcTake]; split <;> rfl)
@[simp] theorem Tu.tick_part_orders (t : Tu) (dt : Nat) : (t.tick dt).part.orders = t.part.orders := rfl
@[simp] theorem Tu.wr_part_orders (t : Tu) (i j v : Nat) : (t.wr i j v).part.orders = t.part.orders := rfl
@[simp] theorem Tu.bump_part_orders (t : Tu) (i j n : Nat) : (t.bump i j n).part.orders = t.part.orders := rfl
@[simp] theorem Tu.emit_part_orders (t : Tu) (o : Out) : (t.emit o).part.orders = t.part.orders := by
  cases o <;> first | rfl | (simp only [Tu.emit, Part.crcTake]; split <;> rfl)
@[simp] theorem Tu.tick_part_held (t : Tu) (dt : Nat) : (t.tick dt).part.held = t.part.held := rfl
@[simp] theorem Tu.wr_part_held (t : Tu) (i j v : Nat) : (t.wr i j v).part.held = t.part.held := rfl
@[simp] theorem Tu.bump_part_held (t : Tu) (i j n : Nat) : (t.bump i j n).part.held = t.part.held := rfl
@[simp] theorem Tu.emit_part_held (t : Tu) (o : Out) : (t.emit o).part.held = t.part.held := by
  cases o <;> first | rfl | (simp only [Tu.emit, Part.crcTake]; split <;> rfl)
@[simp] theorem Tu.tick_part_crc (t : Tu) (dt : Nat) : (t.tick dt).part.crc = t.part.crc := rfl
@[simp] theorem Tu.wr_part_crc (t : Tu) (i j v : Nat) : (t.wr i j v).part.crc = t.part.crc := rfl
@[simp] theorem Tu.bump_part_crc (t : Tu) (i j n : Nat) : (t.bump i j n).part.crc = t.part.crc := rfl
@[simp] theorem Tu.tick_part_wear (t : Tu) (dt : Nat) : (t.tick dt).part.wear = t.part.wear := rfl
@[simp] theorem Tu.wr_part_wear (t : Tu) (i j v : Nat) : (t.wr i j v).part.wear = t.part.wear := rfl
@[simp] theorem Tu.bump_part_wear (t : Tu) (i j n : Nat) : (t.bump i j n).part.wear = t.part.wear := rfl
@[simp] theorem Tu.emit_part_wear (t : Tu) (o : Out) : (t.emit o).part.wear = t.part.wear := by
  cases o <;> first | rfl | (simp only [Tu.emit, Part.crcTake]; split <;> rfl)
@[simp] theorem Tu.tick_part_swapQ (t : Tu) (dt : Nat) : (t.tick dt).part.swapQ = t.part.swapQ := rfl
@[simp] theorem Tu.wr_part_swapQ (t : Tu) (i j v : Nat) : (t.wr i j v).part.swapQ = t.part.swapQ := rfl
@[simp] theorem Tu.bump_part_swapQ (t : Tu) (i j n : Nat) : (t.bump i j n).part.swapQ = t.part.swapQ := rfl
@[simp] theorem Tu.emit_part_swapQ (t : Tu) (o : Out) : (t.emit o).part.swapQ = t.part.swapQ := by
  cases o <;> first | rfl | (simp only [Tu.emit, Part.crcTake]; split <;> rfl)
@[simp] theorem Tu.tick_part_recov (t : Tu) (dt : Nat) : (t.tick dt).part.recov = t.part.recov := rfl
@[simp] theorem Tu.wr_part_recov (t : Tu) (i j v : Nat) : (t.wr i j v).part.recov = t.part.recov := rfl
@[simp] theorem Tu.bump_part_recov (t : Tu) (i j n : Nat) : (t.bump i j n).part.recov = t.part.recov := rfl
@[simp] theorem Tu.emit_part_recov (t : Tu) (o : Out) : (t.emit o).part.recov = t.part.recov := by
  cases o <;> first | rfl | (simp only [Tu.emit, Part.crcTake]; split <;> rfl)
@[simp] theorem Tu.tick_time_now (t : Tu) (dt : Nat) : (t.tick dt).part.time.now = t.part.time.now + dt := rfl
@[simp] theorem Tu.tick_time_servo (t : Tu) (dt : Nat) : (t.tick dt).part.time.servo = t.part.time.servo := rfl
@[simp] theorem Tu.tick_time_everLocked (t : Tu) (dt : Nat) : (t.tick dt).part.time.everLocked = t.part.time.everLocked := rfl
@[simp] theorem Tu.tick_time_inLock (t : Tu) (dt : Nat) : (t.tick dt).part.time.inLock = t.part.time.inLock := rfl
@[simp] theorem Tu.tick_time_outLock (t : Tu) (dt : Nat) : (t.tick dt).part.time.outLock = t.part.time.outLock := rfl
@[simp] theorem Tu.tick_time_lockedAt (t : Tu) (dt : Nat) : (t.tick dt).part.time.lockedAt = t.part.time.lockedAt := rfl
@[simp] theorem Tu.tick_time_holdAt (t : Tu) (dt : Nat) : (t.tick dt).part.time.holdAt = t.part.time.holdAt := rfl
@[simp] theorem Tu.tick_time_stepEpoch (t : Tu) (dt : Nat) : (t.tick dt).part.time.stepEpoch = t.part.time.stepEpoch := rfl
@[simp] theorem Tu.tick_time_pendingSerial (t : Tu) (dt : Nat) : (t.tick dt).part.time.pendingSerial = t.part.time.pendingSerial := rfl
@[simp] theorem Tu.tick_time_pending2 (t : Tu) (dt : Nat) : (t.tick dt).part.time.pending2 = t.part.time.pending2 := rfl
@[simp] theorem Tu.tick_time_authorised (t : Tu) (dt : Nat) : (t.tick dt).part.time.authorised = t.part.time.authorised := rfl
@[simp] theorem Tu.tick_time_offset2 (t : Tu) (dt : Nat) : (t.tick dt).part.time.offset2 = t.part.time.offset2 := rfl
@[simp] theorem Tu.tick_time_freqAdj (t : Tu) (dt : Nat) : (t.tick dt).part.time.freqAdj = t.part.time.freqAdj := rfl
@[simp] theorem Tu.tick_time_gm (t : Tu) (dt : Nat) : (t.tick dt).part.time.gm = t.part.time.gm := rfl

/-! ### Fyster -/

@[simp] theorem Fyster.setLink_part (x : Fyster) (p : Nat) (l : Link) : (x.setLink p l).part = x.part := rfl
@[simp] theorem Fyster.tick_links (x : Fyster) (dt : Nat) : (x.tick dt).links = x.links := rfl
@[simp] theorem Fyster.wr_links (x : Fyster) (i j v : Nat) : (x.wr i j v).links = x.links := rfl
@[simp] theorem Fyster.bump_links (x : Fyster) (i j n : Nat) : (x.bump i j n).links = x.links := rfl
@[simp] theorem Fyster.emit_links (x : Fyster) (o : Out) : (x.emit o).links = x.links := rfl
@[simp] theorem Fyster.free_links (x : Fyster) : x.free.1.links = x.links := rfl
@[simp] theorem Fyster.tick_toTu (x : Fyster) (dt : Nat) : (x.tick dt).toTu = x.toTu := rfl
@[simp] theorem Fyster.wr_toTu (x : Fyster) (i j v : Nat) : (x.wr i j v).toTu = x.toTu := rfl
@[simp] theorem Fyster.bump_toTu (x : Fyster) (i j n : Nat) : (x.bump i j n).toTu = x.toTu := rfl
@[simp] theorem Fyster.emit_toTu (x : Fyster) (o : Out) : (x.emit o).toTu = x.toTu := rfl
@[simp] theorem Fyster.free_toTu (x : Fyster) : x.free.1.toTu = x.toTu := rfl
@[simp] theorem Fyster.setLink_toTu (x : Fyster) (p : Nat) (l : Link) : (x.setLink p l).toTu = x.toTu := rfl
@[simp] theorem Fyster.tick_ptp (x : Fyster) (dt : Nat) : (x.tick dt).ptp = x.ptp := rfl
@[simp] theorem Fyster.wr_ptp (x : Fyster) (i j v : Nat) : (x.wr i j v).ptp = x.ptp := rfl
@[simp] theorem Fyster.bump_ptp (x : Fyster) (i j n : Nat) : (x.bump i j n).ptp = x.ptp := rfl
@[simp] theorem Fyster.emit_ptp (x : Fyster) (o : Out) : (x.emit o).ptp = x.ptp := rfl
@[simp] theorem Fyster.free_ptp (x : Fyster) : x.free.1.ptp = x.ptp := rfl
@[simp] theorem Fyster.setLink_ptp (x : Fyster) (p : Nat) (l : Link) : (x.setLink p l).ptp = x.ptp := rfl
@[simp] theorem Fyster.tick_expect (x : Fyster) (dt : Nat) : (x.tick dt).expect = x.expect := rfl
@[simp] theorem Fyster.wr_expect (x : Fyster) (i j v : Nat) : (x.wr i j v).expect = x.expect := rfl
@[simp] theorem Fyster.bump_expect (x : Fyster) (i j n : Nat) : (x.bump i j n).expect = x.expect := rfl
@[simp] theorem Fyster.emit_expect (x : Fyster) (o : Out) : (x.emit o).expect = x.expect := rfl
@[simp] theorem Fyster.free_expect (x : Fyster) : x.free.1.expect = x.expect := rfl
@[simp] theorem Fyster.setLink_expect (x : Fyster) (p : Nat) (l : Link) : (x.setLink p l).expect = x.expect := rfl
@[simp] theorem Fyster.tick_ring (x : Fyster) (dt : Nat) : (x.tick dt).ring = x.ring := rfl
@[simp] theorem Fyster.wr_ring (x : Fyster) (i j v : Nat) : (x.wr i j v).ring = x.ring := rfl
@[simp] theorem Fyster.bump_ring (x : Fyster) (i j n : Nat) : (x.bump i j n).ring = x.ring := rfl
@[simp] theorem Fyster.emit_ring (x : Fyster) (o : Out) : (x.emit o).ring = x.ring := rfl
@[simp] theorem Fyster.free_ring (x : Fyster) : x.free.1.ring = x.ring := rfl
@[simp] theorem Fyster.setLink_ring (x : Fyster) (p : Nat) (l : Link) : (x.setLink p l).ring = x.ring := rfl
@[simp] theorem Fyster.tick_holds (x : Fyster) (dt : Nat) : (x.tick dt).holds = x.holds := rfl
@[simp] theorem Fyster.wr_holds (x : Fyster) (i j v : Nat) : (x.wr i j v).holds = x.holds := rfl
@[simp] theorem Fyster.bump_holds (x : Fyster) (i j n : Nat) : (x.bump i j n).holds = x.holds := rfl
@[simp] theorem Fyster.emit_holds (x : Fyster) (o : Out) : (x.emit o).holds = x.holds := rfl
@[simp] theorem Fyster.free_holds (x : Fyster) : x.free.1.holds = x.holds := rfl
@[simp] theorem Fyster.setLink_holds (x : Fyster) (p : Nat) (l : Link) : (x.setLink p l).holds = x.holds := rfl
@[simp] theorem Fyster.tick_cuts (x : Fyster) (dt : Nat) : (x.tick dt).cuts = x.cuts := rfl
@[simp] theorem Fyster.wr_cuts (x : Fyster) (i j v : Nat) : (x.wr i j v).cuts = x.cuts := rfl
@[simp] theorem Fyster.bump_cuts (x : Fyster) (i j n : Nat) : (x.bump i j n).cuts = x.cuts := rfl
@[simp] theorem Fyster.emit_cuts (x : Fyster) (o : Out) : (x.emit o).cuts = x.cuts := rfl
@[simp] theorem Fyster.free_cuts (x : Fyster) : x.free.1.cuts = x.cuts := rfl
@[simp] theorem Fyster.setLink_cuts (x : Fyster) (p : Nat) (l : Link) : (x.setLink p l).cuts = x.cuts := rfl
@[simp] theorem Fyster.tick_dumps (x : Fyster) (dt : Nat) : (x.tick dt).dumps = x.dumps := rfl
@[simp] theorem Fyster.wr_dumps (x : Fyster) (i j v : Nat) : (x.wr i j v).dumps = x.dumps := rfl
@[simp] theorem Fyster.bump_dumps (x : Fyster) (i j n : Nat) : (x.bump i j n).dumps = x.dumps := rfl
@[simp] theorem Fyster.emit_dumps (x : Fyster) (o : Out) : (x.emit o).dumps = x.dumps := rfl
@[simp] theorem Fyster.free_dumps (x : Fyster) : x.free.1.dumps = x.dumps := rfl
@[simp] theorem Fyster.setLink_dumps (x : Fyster) (p : Nat) (l : Link) : (x.setLink p l).dumps = x.dumps := rfl
@[simp] theorem Fyster.tick_hellos (x : Fyster) (dt : Nat) : (x.tick dt).hellos = x.hellos := rfl
@[simp] theorem Fyster.wr_hellos (x : Fyster) (i j v : Nat) : (x.wr i j v).hellos = x.hellos := rfl
@[simp] theorem Fyster.bump_hellos (x : Fyster) (i j n : Nat) : (x.bump i j n).hellos = x.hellos := rfl
@[simp] theorem Fyster.emit_hellos (x : Fyster) (o : Out) : (x.emit o).hellos = x.hellos := rfl
@[simp] theorem Fyster.free_hellos (x : Fyster) : x.free.1.hellos = x.hellos := rfl
@[simp] theorem Fyster.setLink_hellos (x : Fyster) (p : Nat) (l : Link) : (x.setLink p l).hellos = x.hellos := rfl
@[simp] theorem Fyster.tick_sessions (x : Fyster) (dt : Nat) : (x.tick dt).sessions = x.sessions := rfl
@[simp] theorem Fyster.wr_sessions (x : Fyster) (i j v : Nat) : (x.wr i j v).sessions = x.sessions := rfl
@[simp] theorem Fyster.bump_sessions (x : Fyster) (i j n : Nat) : (x.bump i j n).sessions = x.sessions := rfl
@[simp] theorem Fyster.emit_sessions (x : Fyster) (o : Out) : (x.emit o).sessions = x.sessions := rfl
@[simp] theorem Fyster.free_sessions (x : Fyster) : x.free.1.sessions = x.sessions := rfl
@[simp] theorem Fyster.setLink_sessions (x : Fyster) (p : Nat) (l : Link) : (x.setLink p l).sessions = x.sessions := rfl
@[simp] theorem Fyster.tick_sources (x : Fyster) (dt : Nat) : (x.tick dt).sources = x.sources := rfl
@[simp] theorem Fyster.wr_sources (x : Fyster) (i j v : Nat) : (x.wr i j v).sources = x.sources := rfl
@[simp] theorem Fyster.bump_sources (x : Fyster) (i j n : Nat) : (x.bump i j n).sources = x.sources := rfl
@[simp] theorem Fyster.emit_sources (x : Fyster) (o : Out) : (x.emit o).sources = x.sources := rfl
@[simp] theorem Fyster.free_sources (x : Fyster) : x.free.1.sources = x.sources := rfl
@[simp] theorem Fyster.setLink_sources (x : Fyster) (p : Nat) (l : Link) : (x.setLink p l).sources = x.sources := rfl
@[simp] theorem Fyster.tick_xfers (x : Fyster) (dt : Nat) : (x.tick dt).xfers = x.xfers := rfl
@[simp] theorem Fyster.wr_xfers (x : Fyster) (i j v : Nat) : (x.wr i j v).xfers = x.xfers := rfl
@[simp] theorem Fyster.bump_xfers (x : Fyster) (i j n : Nat) : (x.bump i j n).xfers = x.xfers := rfl
@[simp] theorem Fyster.emit_xfers (x : Fyster) (o : Out) : (x.emit o).xfers = x.xfers := rfl
@[simp] theorem Fyster.free_xfers (x : Fyster) : x.free.1.xfers = x.xfers := rfl
@[simp] theorem Fyster.setLink_xfers (x : Fyster) (p : Nat) (l : Link) : (x.setLink p l).xfers = x.xfers := rfl
@[simp] theorem Fyster.tick_subs (x : Fyster) (dt : Nat) : (x.tick dt).subs = x.subs := rfl
@[simp] theorem Fyster.wr_subs (x : Fyster) (i j v : Nat) : (x.wr i j v).subs = x.subs := rfl
@[simp] theorem Fyster.bump_subs (x : Fyster) (i j n : Nat) : (x.bump i j n).subs = x.subs := rfl
@[simp] theorem Fyster.emit_subs (x : Fyster) (o : Out) : (x.emit o).subs = x.subs := rfl
@[simp] theorem Fyster.free_subs (x : Fyster) : x.free.1.subs = x.subs := rfl
@[simp] theorem Fyster.setLink_subs (x : Fyster) (p : Nat) (l : Link) : (x.setLink p l).subs = x.subs := rfl
@[simp] theorem Fyster.tick_relays (x : Fyster) (dt : Nat) : (x.tick dt).relays = x.relays := rfl
@[simp] theorem Fyster.wr_relays (x : Fyster) (i j v : Nat) : (x.wr i j v).relays = x.relays := rfl
@[simp] theorem Fyster.bump_relays (x : Fyster) (i j n : Nat) : (x.bump i j n).relays = x.relays := rfl
@[simp] theorem Fyster.emit_relays (x : Fyster) (o : Out) : (x.emit o).relays = x.relays := rfl
@[simp] theorem Fyster.free_relays (x : Fyster) : x.free.1.relays = x.relays := rfl
@[simp] theorem Fyster.setLink_relays (x : Fyster) (p : Nat) (l : Link) : (x.setLink p l).relays = x.relays := rfl
@[simp] theorem Fyster.tick_nextSession (x : Fyster) (dt : Nat) : (x.tick dt).nextSession = x.nextSession := rfl
@[simp] theorem Fyster.wr_nextSession (x : Fyster) (i j v : Nat) : (x.wr i j v).nextSession = x.nextSession := rfl
@[simp] theorem Fyster.bump_nextSession (x : Fyster) (i j n : Nat) : (x.bump i j n).nextSession = x.nextSession := rfl
@[simp] theorem Fyster.emit_nextSession (x : Fyster) (o : Out) : (x.emit o).nextSession = x.nextSession := rfl
@[simp] theorem Fyster.free_nextSession (x : Fyster) : x.free.1.nextSession = x.nextSession := rfl
@[simp] theorem Fyster.setLink_nextSession (x : Fyster) (p : Nat) (l : Link) : (x.setLink p l).nextSession = x.nextSession := rfl
@[simp] theorem Fyster.tick_nextXfer (x : Fyster) (dt : Nat) : (x.tick dt).nextXfer = x.nextXfer := rfl
@[simp] theorem Fyster.wr_nextXfer (x : Fyster) (i j v : Nat) : (x.wr i j v).nextXfer = x.nextXfer := rfl
@[simp] theorem Fyster.bump_nextXfer (x : Fyster) (i j n : Nat) : (x.bump i j n).nextXfer = x.nextXfer := rfl
@[simp] theorem Fyster.emit_nextXfer (x : Fyster) (o : Out) : (x.emit o).nextXfer = x.nextXfer := rfl
@[simp] theorem Fyster.free_nextXfer (x : Fyster) : x.free.1.nextXfer = x.nextXfer := rfl
@[simp] theorem Fyster.setLink_nextXfer (x : Fyster) (p : Nat) (l : Link) : (x.setLink p l).nextXfer = x.nextXfer := rfl
@[simp] theorem Fyster.tick_nextSub (x : Fyster) (dt : Nat) : (x.tick dt).nextSub = x.nextSub := rfl
@[simp] theorem Fyster.wr_nextSub (x : Fyster) (i j v : Nat) : (x.wr i j v).nextSub = x.nextSub := rfl
@[simp] theorem Fyster.bump_nextSub (x : Fyster) (i j n : Nat) : (x.bump i j n).nextSub = x.nextSub := rfl
@[simp] theorem Fyster.emit_nextSub (x : Fyster) (o : Out) : (x.emit o).nextSub = x.nextSub := rfl
@[simp] theorem Fyster.free_nextSub (x : Fyster) : x.free.1.nextSub = x.nextSub := rfl
@[simp] theorem Fyster.setLink_nextSub (x : Fyster) (p : Nat) (l : Link) : (x.setLink p l).nextSub = x.nextSub := rfl
@[simp] theorem Fyster.tick_nextRid (x : Fyster) (dt : Nat) : (x.tick dt).nextRid = x.nextRid := rfl
@[simp] theorem Fyster.wr_nextRid (x : Fyster) (i j v : Nat) : (x.wr i j v).nextRid = x.nextRid := rfl
@[simp] theorem Fyster.bump_nextRid (x : Fyster) (i j n : Nat) : (x.bump i j n).nextRid = x.nextRid := rfl
@[simp] theorem Fyster.emit_nextRid (x : Fyster) (o : Out) : (x.emit o).nextRid = x.nextRid := rfl
@[simp] theorem Fyster.free_nextRid (x : Fyster) : x.free.1.nextRid = x.nextRid := rfl
@[simp] theorem Fyster.setLink_nextRid (x : Fyster) (p : Nat) (l : Link) : (x.setLink p l).nextRid = x.nextRid := rfl
@[simp] theorem Fyster.tick_calNor (x : Fyster) (dt : Nat) : (x.tick dt).calNor = x.calNor := rfl
@[simp] theorem Fyster.wr_calNor (x : Fyster) (i j v : Nat) : (x.wr i j v).calNor = x.calNor := rfl
@[simp] theorem Fyster.bump_calNor (x : Fyster) (i j n : Nat) : (x.bump i j n).calNor = x.calNor := rfl
@[simp] theorem Fyster.emit_calNor (x : Fyster) (o : Out) : (x.emit o).calNor = x.calNor := rfl
@[simp] theorem Fyster.free_calNor (x : Fyster) : x.free.1.calNor = x.calNor := rfl
@[simp] theorem Fyster.setLink_calNor (x : Fyster) (p : Nat) (l : Link) : (x.setLink p l).calNor = x.calNor := rfl
@[simp] theorem Fyster.tick_objNor (x : Fyster) (dt : Nat) : (x.tick dt).objNor = x.objNor := rfl
@[simp] theorem Fyster.wr_objNor (x : Fyster) (i j v : Nat) : (x.wr i j v).objNor = x.objNor := rfl
@[simp] theorem Fyster.bump_objNor (x : Fyster) (i j n : Nat) : (x.bump i j n).objNor = x.objNor := rfl
@[simp] theorem Fyster.emit_objNor (x : Fyster) (o : Out) : (x.emit o).objNor = x.objNor := rfl
@[simp] theorem Fyster.free_objNor (x : Fyster) : x.free.1.objNor = x.objNor := rfl
@[simp] theorem Fyster.setLink_objNor (x : Fyster) (p : Nat) (l : Link) : (x.setLink p l).objNor = x.objNor := rfl
@[simp] theorem Fyster.tick_flushNor (x : Fyster) (dt : Nat) : (x.tick dt).flushNor = x.flushNor := rfl
@[simp] theorem Fyster.wr_flushNor (x : Fyster) (i j v : Nat) : (x.wr i j v).flushNor = x.flushNor := rfl
@[simp] theorem Fyster.bump_flushNor (x : Fyster) (i j n : Nat) : (x.bump i j n).flushNor = x.flushNor := rfl
@[simp] theorem Fyster.emit_flushNor (x : Fyster) (o : Out) : (x.emit o).flushNor = x.flushNor := rfl
@[simp] theorem Fyster.free_flushNor (x : Fyster) : x.free.1.flushNor = x.flushNor := rfl
@[simp] theorem Fyster.setLink_flushNor (x : Fyster) (p : Nat) (l : Link) : (x.setLink p l).flushNor = x.flushNor := rfl
@[simp] theorem Fyster.tick_norTorn (x : Fyster) (dt : Nat) : (x.tick dt).norTorn = x.norTorn := rfl
@[simp] theorem Fyster.wr_norTorn (x : Fyster) (i j v : Nat) : (x.wr i j v).norTorn = x.norTorn := rfl
@[simp] theorem Fyster.bump_norTorn (x : Fyster) (i j n : Nat) : (x.bump i j n).norTorn = x.norTorn := rfl
@[simp] theorem Fyster.emit_norTorn (x : Fyster) (o : Out) : (x.emit o).norTorn = x.norTorn := rfl
@[simp] theorem Fyster.free_norTorn (x : Fyster) : x.free.1.norTorn = x.norTorn := rfl
@[simp] theorem Fyster.setLink_norTorn (x : Fyster) (p : Nat) (l : Link) : (x.setLink p l).norTorn = x.norTorn := rfl
@[simp] theorem Fyster.tick_norSlot (x : Fyster) (dt : Nat) : (x.tick dt).norSlot = x.norSlot := rfl
@[simp] theorem Fyster.wr_norSlot (x : Fyster) (i j v : Nat) : (x.wr i j v).norSlot = x.norSlot := rfl
@[simp] theorem Fyster.bump_norSlot (x : Fyster) (i j n : Nat) : (x.bump i j n).norSlot = x.norSlot := rfl
@[simp] theorem Fyster.emit_norSlot (x : Fyster) (o : Out) : (x.emit o).norSlot = x.norSlot := rfl
@[simp] theorem Fyster.free_norSlot (x : Fyster) : x.free.1.norSlot = x.norSlot := rfl
@[simp] theorem Fyster.setLink_norSlot (x : Fyster) (p : Nat) (l : Link) : (x.setLink p l).norSlot = x.norSlot := rfl
@[simp] theorem Fyster.tick_resetAfter (x : Fyster) (dt : Nat) : (x.tick dt).resetAfter = x.resetAfter := rfl
@[simp] theorem Fyster.wr_resetAfter (x : Fyster) (i j v : Nat) : (x.wr i j v).resetAfter = x.resetAfter := rfl
@[simp] theorem Fyster.bump_resetAfter (x : Fyster) (i j n : Nat) : (x.bump i j n).resetAfter = x.resetAfter := rfl
@[simp] theorem Fyster.emit_resetAfter (x : Fyster) (o : Out) : (x.emit o).resetAfter = x.resetAfter := rfl
@[simp] theorem Fyster.free_resetAfter (x : Fyster) : x.free.1.resetAfter = x.resetAfter := rfl
@[simp] theorem Fyster.setLink_resetAfter (x : Fyster) (p : Nat) (l : Link) : (x.setLink p l).resetAfter = x.resetAfter := rfl
@[simp] theorem Fyster.tick_boot (x : Fyster) (dt : Nat) : (x.tick dt).boot = x.boot := rfl
@[simp] theorem Fyster.wr_boot (x : Fyster) (i j v : Nat) : (x.wr i j v).boot = x.boot := rfl
@[simp] theorem Fyster.bump_boot (x : Fyster) (i j n : Nat) : (x.bump i j n).boot = x.boot := rfl
@[simp] theorem Fyster.emit_boot (x : Fyster) (o : Out) : (x.emit o).boot = x.boot := rfl
@[simp] theorem Fyster.free_boot (x : Fyster) : x.free.1.boot = x.boot := rfl
@[simp] theorem Fyster.setLink_boot (x : Fyster) (p : Nat) (l : Link) : (x.setLink p l).boot = x.boot := rfl
@[simp] theorem Fyster.tick_host (x : Fyster) (dt : Nat) : (x.tick dt).host = x.host := rfl
@[simp] theorem Fyster.wr_host (x : Fyster) (i j v : Nat) : (x.wr i j v).host = x.host := rfl
@[simp] theorem Fyster.bump_host (x : Fyster) (i j n : Nat) : (x.bump i j n).host = x.host := rfl
@[simp] theorem Fyster.emit_host (x : Fyster) (o : Out) : (x.emit o).host = x.host := rfl
@[simp] theorem Fyster.free_host (x : Fyster) : x.free.1.host = x.host := rfl
@[simp] theorem Fyster.setLink_host (x : Fyster) (p : Nat) (l : Link) : (x.setLink p l).host = x.host := rfl
@[simp] theorem Fyster.tick_nodes (x : Fyster) (dt : Nat) : (x.tick dt).nodes = x.nodes := rfl
@[simp] theorem Fyster.wr_nodes (x : Fyster) (i j v : Nat) : (x.wr i j v).nodes = x.nodes := rfl
@[simp] theorem Fyster.bump_nodes (x : Fyster) (i j n : Nat) : (x.bump i j n).nodes = x.nodes := rfl
@[simp] theorem Fyster.emit_nodes (x : Fyster) (o : Out) : (x.emit o).nodes = x.nodes := rfl
@[simp] theorem Fyster.free_nodes (x : Fyster) : x.free.1.nodes = x.nodes := rfl
@[simp] theorem Fyster.setLink_nodes (x : Fyster) (p : Nat) (l : Link) : (x.setLink p l).nodes = x.nodes := rfl
@[simp] theorem Fyster.tick_images (x : Fyster) (dt : Nat) : (x.tick dt).images = x.images := rfl
@[simp] theorem Fyster.wr_images (x : Fyster) (i j v : Nat) : (x.wr i j v).images = x.images := rfl
@[simp] theorem Fyster.bump_images (x : Fyster) (i j n : Nat) : (x.bump i j n).images = x.images := rfl
@[simp] theorem Fyster.emit_images (x : Fyster) (o : Out) : (x.emit o).images = x.images := rfl
@[simp] theorem Fyster.free_images (x : Fyster) : x.free.1.images = x.images := rfl
@[simp] theorem Fyster.setLink_images (x : Fyster) (p : Nat) (l : Link) : (x.setLink p l).images = x.images := rfl
@[simp] theorem Fyster.tick_wmk (x : Fyster) (dt : Nat) : (x.tick dt).wmk = x.wmk := rfl
@[simp] theorem Fyster.wr_wmk (x : Fyster) (i j v : Nat) : (x.wr i j v).wmk = x.wmk := rfl
@[simp] theorem Fyster.bump_wmk (x : Fyster) (i j n : Nat) : (x.bump i j n).wmk = x.wmk := rfl
@[simp] theorem Fyster.emit_wmk (x : Fyster) (o : Out) : (x.emit o).wmk = x.wmk := rfl
@[simp] theorem Fyster.free_wmk (x : Fyster) : x.free.1.wmk = x.wmk := rfl
@[simp] theorem Fyster.setLink_wmk (x : Fyster) (p : Nat) (l : Link) : (x.setLink p l).wmk = x.wmk := rfl
@[simp] theorem Fyster.tick_taints (x : Fyster) (dt : Nat) : (x.tick dt).taints = x.taints := rfl
@[simp] theorem Fyster.wr_taints (x : Fyster) (i j v : Nat) : (x.wr i j v).taints = x.taints := rfl
@[simp] theorem Fyster.bump_taints (x : Fyster) (i j n : Nat) : (x.bump i j n).taints = x.taints := rfl
@[simp] theorem Fyster.emit_taints (x : Fyster) (o : Out) : (x.emit o).taints = x.taints := rfl
@[simp] theorem Fyster.free_taints (x : Fyster) : x.free.1.taints = x.taints := rfl
@[simp] theorem Fyster.setLink_taints (x : Fyster) (p : Nat) (l : Link) : (x.setLink p l).taints = x.taints := rfl
@[simp] theorem Fyster.tick_taintCount (x : Fyster) (dt : Nat) : (x.tick dt).taintCount = x.taintCount := rfl
@[simp] theorem Fyster.wr_taintCount (x : Fyster) (i j v : Nat) : (x.wr i j v).taintCount = x.taintCount := rfl
@[simp] theorem Fyster.bump_taintCount (x : Fyster) (i j n : Nat) : (x.bump i j n).taintCount = x.taintCount := rfl
@[simp] theorem Fyster.emit_taintCount (x : Fyster) (o : Out) : (x.emit o).taintCount = x.taintCount := rfl
@[simp] theorem Fyster.free_taintCount (x : Fyster) : x.free.1.taintCount = x.taintCount := rfl
@[simp] theorem Fyster.setLink_taintCount (x : Fyster) (p : Nat) (l : Link) : (x.setLink p l).taintCount = x.taintCount := rfl
@[simp] theorem Fyster.tick_taintWrites (x : Fyster) (dt : Nat) : (x.tick dt).taintWrites = x.taintWrites := rfl
@[simp] theorem Fyster.wr_taintWrites (x : Fyster) (i j v : Nat) : (x.wr i j v).taintWrites = x.taintWrites := rfl
@[simp] theorem Fyster.bump_taintWrites (x : Fyster) (i j n : Nat) : (x.bump i j n).taintWrites = x.taintWrites := rfl
@[simp] theorem Fyster.emit_taintWrites (x : Fyster) (o : Out) : (x.emit o).taintWrites = x.taintWrites := rfl
@[simp] theorem Fyster.free_taintWrites (x : Fyster) : x.free.1.taintWrites = x.taintWrites := rfl
@[simp] theorem Fyster.setLink_taintWrites (x : Fyster) (p : Nat) (l : Link) : (x.setLink p l).taintWrites = x.taintWrites := rfl
@[simp] theorem Fyster.tick_resetEpoch (x : Fyster) (dt : Nat) : (x.tick dt).resetEpoch = x.resetEpoch := rfl
@[simp] theorem Fyster.wr_resetEpoch (x : Fyster) (i j v : Nat) : (x.wr i j v).resetEpoch = x.resetEpoch := rfl
@[simp] theorem Fyster.bump_resetEpoch (x : Fyster) (i j n : Nat) : (x.bump i j n).resetEpoch = x.resetEpoch := rfl
@[simp] theorem Fyster.emit_resetEpoch (x : Fyster) (o : Out) : (x.emit o).resetEpoch = x.resetEpoch := rfl
@[simp] theorem Fyster.free_resetEpoch (x : Fyster) : x.free.1.resetEpoch = x.resetEpoch := rfl
@[simp] theorem Fyster.setLink_resetEpoch (x : Fyster) (p : Nat) (l : Link) : (x.setLink p l).resetEpoch = x.resetEpoch := rfl
@[simp] theorem Fyster.tick_thermal (x : Fyster) (dt : Nat) : (x.tick dt).thermal = x.thermal := rfl
@[simp] theorem Fyster.wr_thermal (x : Fyster) (i j v : Nat) : (x.wr i j v).thermal = x.thermal := rfl
@[simp] theorem Fyster.bump_thermal (x : Fyster) (i j n : Nat) : (x.bump i j n).thermal = x.thermal := rfl
@[simp] theorem Fyster.emit_thermal (x : Fyster) (o : Out) : (x.emit o).thermal = x.thermal := rfl
@[simp] theorem Fyster.free_thermal (x : Fyster) : x.free.1.thermal = x.thermal := rfl
@[simp] theorem Fyster.setLink_thermal (x : Fyster) (p : Nat) (l : Link) : (x.setLink p l).thermal = x.thermal := rfl
@[simp] theorem Fyster.tick_red (x : Fyster) (dt : Nat) : (x.tick dt).red = x.red := rfl
@[simp] theorem Fyster.wr_red (x : Fyster) (i j v : Nat) : (x.wr i j v).red = x.red := rfl
@[simp] theorem Fyster.bump_red (x : Fyster) (i j n : Nat) : (x.bump i j n).red = x.red := rfl
@[simp] theorem Fyster.emit_red (x : Fyster) (o : Out) : (x.emit o).red = x.red := rfl
@[simp] theorem Fyster.free_red (x : Fyster) : x.free.1.red = x.red := rfl
@[simp] theorem Fyster.setLink_red (x : Fyster) (p : Nat) (l : Link) : (x.setLink p l).red = x.red := rfl
@[simp] theorem Fyster.tick_jun (x : Fyster) (dt : Nat) : (x.tick dt).jun = x.jun := rfl
@[simp] theorem Fyster.wr_jun (x : Fyster) (i j v : Nat) : (x.wr i j v).jun = x.jun := rfl
@[simp] theorem Fyster.bump_jun (x : Fyster) (i j n : Nat) : (x.bump i j n).jun = x.jun := rfl
@[simp] theorem Fyster.emit_jun (x : Fyster) (o : Out) : (x.emit o).jun = x.jun := rfl
@[simp] theorem Fyster.free_jun (x : Fyster) : x.free.1.jun = x.jun := rfl
@[simp] theorem Fyster.setLink_jun (x : Fyster) (p : Nat) (l : Link) : (x.setLink p l).jun = x.jun := rfl
@[simp] theorem Fyster.tick_dec (x : Fyster) (dt : Nat) : (x.tick dt).dec = x.dec := rfl
@[simp] theorem Fyster.wr_dec (x : Fyster) (i j v : Nat) : (x.wr i j v).dec = x.dec := rfl
@[simp] theorem Fyster.bump_dec (x : Fyster) (i j n : Nat) : (x.bump i j n).dec = x.dec := rfl
@[simp] theorem Fyster.emit_dec (x : Fyster) (o : Out) : (x.emit o).dec = x.dec := rfl
@[simp] theorem Fyster.free_dec (x : Fyster) : x.free.1.dec = x.dec := rfl
@[simp] theorem Fyster.setLink_dec (x : Fyster) (p : Nat) (l : Link) : (x.setLink p l).dec = x.dec := rfl
@[simp] theorem Fyster.tick_out (x : Fyster) (dt : Nat) : (x.tick dt).out = x.out := rfl
@[simp] theorem Fyster.wr_out (x : Fyster) (i j v : Nat) : (x.wr i j v).out = x.out := rfl
@[simp] theorem Fyster.bump_out (x : Fyster) (i j n : Nat) : (x.bump i j n).out = x.out := rfl
@[simp] theorem Fyster.free_out (x : Fyster) : x.free.1.out = x.out := rfl
@[simp] theorem Fyster.setLink_out (x : Fyster) (p : Nat) (l : Link) : (x.setLink p l).out = x.out := rfl
@[simp] theorem Fyster.tick_fresh (x : Fyster) (dt : Nat) : (x.tick dt).fresh = x.fresh := rfl
@[simp] theorem Fyster.wr_fresh (x : Fyster) (i j v : Nat) : (x.wr i j v).fresh = x.fresh := rfl
@[simp] theorem Fyster.bump_fresh (x : Fyster) (i j n : Nat) : (x.bump i j n).fresh = x.fresh := rfl
@[simp] theorem Fyster.emit_fresh (x : Fyster) (o : Out) : (x.emit o).fresh = x.fresh := rfl
@[simp] theorem Fyster.setLink_fresh (x : Fyster) (p : Nat) (l : Link) : (x.setLink p l).fresh = x.fresh := rfl
@[simp] theorem Fyster.emit_out (x : Fyster) (o : Out) : (x.emit o).out = o :: x.out := rfl
@[simp] theorem Fyster.emit_part (x : Fyster) (o : Out) : (x.emit o).part = x.part := rfl
@[simp] theorem Fyster.free_part (x : Fyster) : x.free.1.part = x.part := rfl
@[simp] theorem Fyster.wr_part_time (x : Fyster) (i j v : Nat) : (x.wr i j v).part.time = x.part.time := rfl
@[simp] theorem Fyster.bump_part_time (x : Fyster) (i j n : Nat) : (x.bump i j n).part.time = x.part.time := rfl
@[simp] theorem Fyster.tick_part_evr (x : Fyster) (dt : Nat) : (x.tick dt).part.evr = x.part.evr := rfl
@[simp] theorem Fyster.wr_part_evr (x : Fyster) (i j v : Nat) : (x.wr i j v).part.evr = x.part.evr := rfl
@[simp] theorem Fyster.bump_part_evr (x : Fyster) (i j n : Nat) : (x.bump i j n).part.evr = x.part.evr := rfl
@[simp] theorem Fyster.tick_part_obj (x : Fyster) (dt : Nat) : (x.tick dt).part.obj = x.part.obj := rfl
@[simp] theorem Fyster.tick_part_dom (x : Fyster) (dt : Nat) : (x.tick dt).part.dom = x.part.dom := rfl
@[simp] theorem Fyster.wr_part_dom (x : Fyster) (i j v : Nat) : (x.wr i j v).part.dom = x.part.dom := rfl
@[simp] theorem Fyster.bump_part_dom (x : Fyster) (i j n : Nat) : (x.bump i j n).part.dom = x.part.dom := rfl
@[simp] theorem Fyster.tick_part_chans (x : Fyster) (dt : Nat) : (x.tick dt).part.chans = x.part.chans := rfl
@[simp] theorem Fyster.wr_part_chans (x : Fyster) (i j v : Nat) : (x.wr i j v).part.chans = x.part.chans := rfl
@[simp] theorem Fyster.bump_part_chans (x : Fyster) (i j n : Nat) : (x.bump i j n).part.chans = x.part.chans := rfl
@[simp] theorem Fyster.tick_part_alive (x : Fyster) (dt : Nat) : (x.tick dt).part.alive = x.part.alive := rfl
@[simp] theorem Fyster.wr_part_alive (x : Fyster) (i j v : Nat) : (x.wr i j v).part.alive = x.part.alive := rfl
@[simp] theorem Fyster.bump_part_alive (x : Fyster) (i j n : Nat) : (x.bump i j n).part.alive = x.part.alive := rfl
@[simp] theorem Fyster.tick_part_lossy (x : Fyster) (dt : Nat) : (x.tick dt).part.lossy = x.part.lossy := rfl
@[simp] theorem Fyster.wr_part_lossy (x : Fyster) (i j v : Nat) : (x.wr i j v).part.lossy = x.part.lossy := rfl
@[simp] theorem Fyster.bump_part_lossy (x : Fyster) (i j n : Nat) : (x.bump i j n).part.lossy = x.part.lossy := rfl
@[simp] theorem Fyster.tick_part_loss (x : Fyster) (dt : Nat) : (x.tick dt).part.loss = x.part.loss := rfl
@[simp] theorem Fyster.wr_part_loss (x : Fyster) (i j v : Nat) : (x.wr i j v).part.loss = x.part.loss := rfl
@[simp] theorem Fyster.bump_part_loss (x : Fyster) (i j n : Nat) : (x.bump i j n).part.loss = x.part.loss := rfl
@[simp] theorem Fyster.tick_part_pwr (x : Fyster) (dt : Nat) : (x.tick dt).part.pwr = x.part.pwr := rfl
@[simp] theorem Fyster.wr_part_pwr (x : Fyster) (i j v : Nat) : (x.wr i j v).part.pwr = x.part.pwr := rfl
@[simp] theorem Fyster.bump_part_pwr (x : Fyster) (i j n : Nat) : (x.bump i j n).part.pwr = x.part.pwr := rfl
@[simp] theorem Fyster.tick_part_orders (x : Fyster) (dt : Nat) : (x.tick dt).part.orders = x.part.orders := rfl
@[simp] theorem Fyster.wr_part_orders (x : Fyster) (i j v : Nat) : (x.wr i j v).part.orders = x.part.orders := rfl
@[simp] theorem Fyster.bump_part_orders (x : Fyster) (i j n : Nat) : (x.bump i j n).part.orders = x.part.orders := rfl
@[simp] theorem Fyster.tick_part_held (x : Fyster) (dt : Nat) : (x.tick dt).part.held = x.part.held := rfl
@[simp] theorem Fyster.wr_part_held (x : Fyster) (i j v : Nat) : (x.wr i j v).part.held = x.part.held := rfl
@[simp] theorem Fyster.bump_part_held (x : Fyster) (i j n : Nat) : (x.bump i j n).part.held = x.part.held := rfl
@[simp] theorem Fyster.tick_part_crc (x : Fyster) (dt : Nat) : (x.tick dt).part.crc = x.part.crc := rfl
@[simp] theorem Fyster.wr_part_crc (x : Fyster) (i j v : Nat) : (x.wr i j v).part.crc = x.part.crc := rfl
@[simp] theorem Fyster.bump_part_crc (x : Fyster) (i j n : Nat) : (x.bump i j n).part.crc = x.part.crc := rfl
@[simp] theorem Fyster.tick_part_wear (x : Fyster) (dt : Nat) : (x.tick dt).part.wear = x.part.wear := rfl
@[simp] theorem Fyster.wr_part_wear (x : Fyster) (i j v : Nat) : (x.wr i j v).part.wear = x.part.wear := rfl
@[simp] theorem Fyster.bump_part_wear (x : Fyster) (i j n : Nat) : (x.bump i j n).part.wear = x.part.wear := rfl
@[simp] theorem Fyster.tick_part_swapQ (x : Fyster) (dt : Nat) : (x.tick dt).part.swapQ = x.part.swapQ := rfl
@[simp] theorem Fyster.wr_part_swapQ (x : Fyster) (i j v : Nat) : (x.wr i j v).part.swapQ = x.part.swapQ := rfl
@[simp] theorem Fyster.bump_part_swapQ (x : Fyster) (i j n : Nat) : (x.bump i j n).part.swapQ = x.part.swapQ := rfl
@[simp] theorem Fyster.tick_part_recov (x : Fyster) (dt : Nat) : (x.tick dt).part.recov = x.part.recov := rfl
@[simp] theorem Fyster.wr_part_recov (x : Fyster) (i j v : Nat) : (x.wr i j v).part.recov = x.part.recov := rfl
@[simp] theorem Fyster.bump_part_recov (x : Fyster) (i j n : Nat) : (x.bump i j n).part.recov = x.part.recov := rfl
@[simp] theorem Fyster.tick_time_now (x : Fyster) (dt : Nat) : (x.tick dt).part.time.now = x.part.time.now + dt := rfl
@[simp] theorem Fyster.tick_time_servo (x : Fyster) (dt : Nat) : (x.tick dt).part.time.servo = x.part.time.servo := rfl
@[simp] theorem Fyster.tick_time_everLocked (x : Fyster) (dt : Nat) : (x.tick dt).part.time.everLocked = x.part.time.everLocked := rfl
@[simp] theorem Fyster.tick_time_inLock (x : Fyster) (dt : Nat) : (x.tick dt).part.time.inLock = x.part.time.inLock := rfl
@[simp] theorem Fyster.tick_time_outLock (x : Fyster) (dt : Nat) : (x.tick dt).part.time.outLock = x.part.time.outLock := rfl
@[simp] theorem Fyster.tick_time_lockedAt (x : Fyster) (dt : Nat) : (x.tick dt).part.time.lockedAt = x.part.time.lockedAt := rfl
@[simp] theorem Fyster.tick_time_holdAt (x : Fyster) (dt : Nat) : (x.tick dt).part.time.holdAt = x.part.time.holdAt := rfl
@[simp] theorem Fyster.tick_time_stepEpoch (x : Fyster) (dt : Nat) : (x.tick dt).part.time.stepEpoch = x.part.time.stepEpoch := rfl
@[simp] theorem Fyster.tick_time_pendingSerial (x : Fyster) (dt : Nat) : (x.tick dt).part.time.pendingSerial = x.part.time.pendingSerial := rfl
@[simp] theorem Fyster.tick_time_pending2 (x : Fyster) (dt : Nat) : (x.tick dt).part.time.pending2 = x.part.time.pending2 := rfl
@[simp] theorem Fyster.tick_time_authorised (x : Fyster) (dt : Nat) : (x.tick dt).part.time.authorised = x.part.time.authorised := rfl
@[simp] theorem Fyster.tick_time_offset2 (x : Fyster) (dt : Nat) : (x.tick dt).part.time.offset2 = x.part.time.offset2 := rfl
@[simp] theorem Fyster.tick_time_freqAdj (x : Fyster) (dt : Nat) : (x.tick dt).part.time.freqAdj = x.part.time.freqAdj := rfl
@[simp] theorem Fyster.tick_time_gm (x : Fyster) (dt : Nat) : (x.tick dt).part.time.gm = x.part.time.gm := rfl

end Sys2Proof.Machine
end

