-- ==== Sys2Proof/Tests/Slice0.lean ====
section
/-! SUPPORT. Tests: small states to start from, ill-formed commands that the check refuses, worked examples of the spec, one
step of one command, and for every statement with hypotheses a state and operands that meet them all together. -/

open Sys2Proof Sys2Proof.Machine
set_option synthInstance.maxSize 4000
set_option synthInstance.maxHeartbeats 400000
set_option linter.unusedVariables false
set_option Elab.async false

/-! ### Small states and values -/

def tuS (f : Tu → Tu) : State := State.reset.setTu 0 (f Tu.reset)
def fyS (g : Fyster → Fyster) : State := { State.reset with fy := g Fyster.reset }
def gridGroup : TGroup :=
  { state := 3, id := 1, serial := 1, eff := 0, period := 1000000, phase := 0, release := 0, leave := none, fired := none }
def ptpMsg : PtpMsg :=
  { decodable := true, typeRead := true, mtype := 0, version := 2, domain := 0, ptpTime := true, forbidden := false, seq := 7,
    source := 0, quality := 1, gm := 5, steps := 0, utcOffset := 37, qualified := true, twoStep := false, stamp := 100,
    correction := 0 }
def bind9 : Binding := { launch := 9, graph := 7, ver := 1, persistent := false, flags := 0, ordinal := 0 }
def slot9 : PhSlot :=
  { launch := 9, tag := 2, size := 100, unit := 1, node := 4, graph := 7, ver := 1, nameKey := 0, flags := 0, opened := 0,
    mult := 1, emitN := 0, lastCode := 0xFF, entries := [] }
def chkWords (obs : Nat) : List Word :=
  natWords 24 (packNat ([(7, 32), (0, 4), (0, 1), (0, 1), (0, 1), (0, 1), (4, 20), (0, 4), (1, 16), (1, 16), (0, 16), (0, 16),
    (0, 32), (0, 96)] ++ (List.range 16).flatMap fun _ => [(0, 32), (obs, 32), (0x3F80, 16)]))
def passWords : List Word := chkWords 0
def desc9 : DescId := { graph := 7, ver := 1, node := 2, launch := 9 }
def chkPass : Chk := { tile := 3, tc := 0, words := passWords, desc := some desc9, ordinal := 0, lateChk := false, gated := false }
def chkFail : Chk := { chkPass with words := chkWords 0x42C80000 }
def taint5 : Taint :=
  { kind := 1, cause := 1, tile := 1, foldR := 0, foldC := 0, tflags := 0, blockSeq := 1, desc := desc9, gslot := 0xFF, tc := 0,
    verdict := 0, egFirst := 0, egLast := 0, ports := 0, fmt := 0, serial := 5, residR := 0, tolR := 0, residC := 0, tolC := 0,
    brow := 0, bcol := 0, k := 1, lastSeq := 1, nblocks := 1, lastTc := 0 }
def taintRec5 : Rec :=
  { type := 8, stream := 0x0680, alive := 0, flags := 0, unit := 1, die := 4, gslot := 0xFF, ts64 := 0, pay := taint5.pay }
def replay7 : Replay :=
  { ref := 7, tile := 3, mode := 1, accepted := true, seq := 1, launch := 9, serial := 5, gslot := 0xFF, at64 := 0, spare := none,
    origin := none }
def grant2 : Grant := { req := 3, since := 0, unit := .record { r := taintRec5, act := 4 } }
def gateBytes : List Byte := leBytes 4 1000 ++ leBytes 4 0 ++ leBytes 8 2 ++ leBytes 4 500 ++ leBytes 4 0xFF ++ leBytes 4 500 ++ leBytes 4 3
def pwrPending : PwrReq :=
  { st := .pending, units := 5, n := 0, backoffUs := 0, seq := 7, wanted := true, outstanding := true, since := 0, releaseDue := none }
def hold7 : Hold := { tag := 7, cause := 0, ranges := [(3, 1, some 2)], since := 0, trimmed := false }
def dumpSpec (form dest : Nat) : List Byte :=
  leBytes 72 (packNat [(3, 8), (form, 8), (dest, 8), (0, 8), (0, 32), (0, 32), (3, 32), (0, 64), (9, 64), (4096, 64), (268435456, 64)])
def dump2 : Dump :=
  { state := 2, serial := 77, spec := dumpSpec 0 1, todo := [(3, 1), (3, 2)], done := [], bytes := 0, engines := 0, here := true,
    isOpen := false, unpinned := false, abort := false }
def seg1 : Seg :=
  { serial := 1, closed := true, hasLoss := false, uncert := false, truncOrphan := false, resumed := false, die := 4, epoch := 1,
    sec := 0, tsFirst := 0, tsLast := 0, used := 64, ended := false, entries := [] }
def cutRec9 (kind : Nat) : Rec :=
  { type := 0x0D, stream := 0xFFFF, alive := 0, flags := 0, unit := 518, die := 0, gslot := 0xFF, ts64 := 0,
    pay := payload 5 [(kind, 8), (0, 24), (9, 32), (5000, 64), (5000, 64), (1, 32), (0, 8)] }
def cutOrder9 : Order := { kind := .cut, target := 9, serial := 1, eff := 5000, late := false, data := [] }
def cutSet (id : Nat) : CutSet :=
  { cutId := id, tf := 0, taken := 0, gslot := 0xFF, cflags := 0, todo := [taintRec5], sent := 0, bytes := 0, chains := 0, ringsId := id,
    resume := false }
def fyReady : State := fyS fun f =>
  { ((f.wr 0x3600 1 4096).wr 0x1001 1 6) with
    boot := { f.boot with running := true, hbm := true }
    part := { ((f.wr 0x3600 1 4096).wr 0x1001 1 6).part with
      time := { f.part.time with servo := .locked, everLocked := true } } }
def cutBytes (scope group : Nat) : List Byte :=
  leBytes 32 (packNat [(9, 32), (1, 32), (1000000, 96), (scope, 8), (0, 24), (group, 32)])
def roleL1 : Role :=
  { level := 0, standby := false, holder := true, admitted := true, epoch := 1, index := 0, section_ := 0, peer := 0, peerHb := 0,
    seenAt := 0, children := [], doneSent := none, open_ := [], closed := none, late := [],
    carryTotal := none, carry := none, sent := [], seq := 0 }
def cutGroup : Grp :=
  { id := 40, state := 3, serial := 1, memb := 1, desc := [], next := none, eff := 0, endAt := none, release := none, period := 1000000,
    phase := 0, roles := [roleL1, { roleL1 with level := 2 }], wait := 0, waitSince := 0, partialSent := false, summary := none,
    missed := 0, gathered := none, fired := none, gw := 0, taintTotal := 0, joined := [] }
def cutSlot9 : CutSlot :=
  { newCut 9 1 5000 1 0 0 0xFF false [] with children := [cutChild 0 0 0, cutChild 0 1 0] }
def armDesc9 : List Byte :=
  leBytes 128 (packNat [(9, 32), (2, 32), (1, 8), (3, 8), (0, 16), (1, 32), (0, 96), (1000000, 64), (0, 64), (1, 16), (1, 16), (6, 32),
    (7, 32), (4096, 64), (8192, 64), (1, 32)]) ++
  leBytes 32 (packNat [(1, 16), (1, 8), (0, 8), (2, 8), (0, 88), (0, 32), (0x3F800000, 32)]) ++
  leBytes 32 (packNat [(6, 32), (7, 32), (4096, 64), (8192, 64), (1, 16)]) ++
  leBytes 32 (packNat [(6, 32), (1, 32), (4096, 64), (7, 32), (0, 32), (8192, 64)])
def tearDesc9 : List Byte := leBytes 128 (packNat [(9, 32), (3, 32), (2, 8), (3, 8), (0, 16), (1, 32)])
def armGroup9 : Grp := { newGrp armDesc9 0 with state := 3, roles := [newRole 2 false 0 0 7] }
def armRoot9 : Grp := { armGroup9 with roles := [{ newRole 2 false 0 0 7 with children := [(0, armChild0)] }] }
def held9 : Held := { kind := .membership, target := 9, serial := 2 }
def armNotice9 : List Byte :=
  ({ armBlank 1 9 2 1 false 0 with addr := 4096, len := armDesc9.length, crc := 788672699, sect := 160 } : ArmMsg).bytes 0
def armAnswer9 (kind : Nat) : List Byte := ({ armBlank kind 9 2 2 false 0 with armed := 1 } : ArmMsg).bytes 0
def armRelay9 : List Byte := (armBlank 4 9 2 2 false 0).bytes 0
def tuArm9 (kind : Nat) : List Byte := leBytes 40 (packNat [(9, 32), (5, 32), (kind, 32), (0, 96), (1000000, 64), (0, 64)])
def rawFrame (kind : Nat) (ws : List Word) : RawFrame :=
  let h := (Link.reset.header 0 (8 * ws.length) (if kind = 2 then 0 else 3) kind true true).word
  { header := h, payload := ws, crc := BitVec.ofNat 32 (frameCrc h ws), fecError := false, parityHit := [] }
def heldLink : Link :=
  { Link.reset with
    st := .up, ackDue := true, txFseq := 1
    replay := [{ fseq := 0, cls := 3, sumac := false, first := false, last := false, payload := taintRec5.words, records := 1, sentAt := 0,
                 replays := 0 }] }
def trained9 : TrainResult := { healthy := [true, true, true], skew := some 3, fast := false, status := mkStatus 1 false false 0 0x14 none }
def l2Role9 : Role := { newRole 1 false 0 0 7 with admitted := true }
def l2Group9 : Grp := { armGroup9 with roles := [l2Role9] }
def rootRole9 : Role := { newRole 2 false 0 0 7 with admitted := true }
def rootGroup9 : Grp := { armGroup9 with roles := [rootRole9] }
def contrib9 : Contrib := l2Group9.slot 2000000 1 0 0
def l2Group0 : Grp := { l2Group9 with desc := (armDesc9.set 44 0).take 128 ++ armDesc9.drop 160 }
def contrib0 : Contrib := l2Group0.slot 2000000 1 0 0
def arriveAt0 : Nat := roleArea 3 1 + l2Group0.ofs l2Role9 0 + l2Group0.frame 2000000 * (l2Group0.childCount l2Role9 * 2 * slotAl 0)
def write9 (header : Bool) : PendWrite :=
  { id := 1, gslot := 3, role := 1, tray := 6, base := 4096, c := contrib9, header := header }
def image9 : List Byte :=
  leBytes 256 (packNat [(0x4A554E50, 32), (1, 8), (1, 8), (1, 8), (0, 8), (9, 32), (1, 16), (1, 16), (1, 16), (0, 16), (1840, 32),
    (256, 32), (272, 32), (288, 32), (304, 32), (0, 256), (0x3F800000, 32)]) ++
  leBytes 16 (packNat [(10, 8), (0, 56), (0x3F800000, 32), (0, 32)]) ++
  leBytes 16 (packNat [(0, 16), (1, 8), (0, 104)]) ++ leBytes 16 0x3F000000 ++
  leBytes 1024 (packNat [(1, 32), (1024, 32)]) ++ leBytes 512 (packNat [(1, 16), (2, 16)])
def fyModel : State := fyS fun f => { f with jun := { f.jun with slots := [(1, { MSlot.zero with state := 2, image := image9 })] } }
def row9 : Row :=
  { gslot := 3, inst := 2000000, port := 0, tile := 255, mslot := 1, serial := 4, raws := [0x3F800000], lag := 0, stale := false,
    uncertain := false, unbound := false }
def run9 : InstRun :=
  { gslot := 3, inst := 2000000, mslot := 1, modelId := 9, released := 0, deadline := 1000000, scored := 0, rejected := 0, skipped := 0,
    absent := 0, reported := 0, suppressed := 0, rejFeature := 0xFFFF, spentNum := 0, spentDen := 1, finish := 2000000 }
def fyRun : State :=
  { fyModel with fy := { fyModel.fy with jun := { fyModel.fy.jun with rows := [row9], runs := [run9], binds := [(3, { Bind.zero with slot := 1, shareNum := 1 })] } } }
def demand9 : Demand := { slot := 1, raws := [0x3F800000], since := 0, why := none }
def session9 : Session :=
  { id := 9, key := 1, level := 2, src := 5, port := 7, live := true, proof := none, since := 0, lastAt := 0, high := 4, seen := [4],
    kept := [], badTags := 0, times := [], armedAt := none }
def fyCal : State := fyS fun f => { f with sessions := [{ session9 with armedAt := some 0 }] }
def tuDict : State := tuS fun t => { t with discovered := true }
def dictRec9 (m : DictMsg) : Rec := { taintRec5 with type := 0x14, stream := 0x0FF0, gslot := 0xFF, pay := m.pay }
def relay9 : Relay := { rid := 6, port := 3, dkind := 1, index := 0x2A30, sub := 1, sentAt := 0, why := .mailbox 2 0 0 0 }
def calVals9 : List Nat :=
  calKeys.map fun k => if k.1 = 0x7C30 then 0x3F800000 else if k.1 = 0x7C20 ∨ (0x7C40 ≤ k.1 ∧ k.2 = 3) then 1 else 0
def calBytes9 : List Byte :=
  calHead ++ wordBytes 0 ++ ((calKeys.zip calVals9).flatMap fun e =>
    leBytes 8 (packNat [(e.1.1, 16), (e.1.2, 8), (if e.1.1 = 0x7C30 then 8 else 6, 8), (e.2, 32)]))
def dictBody9 (code node index sub type ofs total : Nat) (data : List Byte) : List Byte :=
  slice (leBytes 16 (packNat [(code, 8), (node, 8), (index, 16), (sub, 8), (type, 8), (data.length, 16), (ofs, 32), (total, 32)]) ++ data ++
    List.replicate 64 0) 0 64
def tuMsg9 (b : List Byte) : State :=
  tuS fun t => (t.wr 0x6100 2 2).putChan 0 { t.chan 0 with queue := [{ body := b, stamp := 1, mseq := 5 }] }
def fyMsg9 (b : List Byte) : State :=
  fyS fun f => (f.wr 0x6100 6 2).putChan 2 { f.chan 2 with queue := [{ body := b, stamp := 0x11, mseq := 5 }] }
def evr9 : EvRec :=
  { code := 0x20, unit := 5, param := 0, rep := 1, uncertain := false, late := false, repSat := false, gslot := 0xFF, arg := 0, first := 5,
    last := 6 }
def grown9 : Recorder :=
  { log := [evr9], firstNo := 0, total := 1, mergeable := true, grown := true, offeredAt := 0, flush := none, flushSerial := 0, frozen := false }
def nor9 (n : Nat) : NorFlush := { serial := n, cause := 1, at64 := 0, sec := 0, epoch := 0, ownFirst := 0, own := [], ports := [] }
def out9 (mtype seq node index sub type : Nat) : TdpOut :=
  { mtype := mtype, session := 9, seq := seq, node := node, tagged := true, abort := 0, index := index, sub := sub, type := type, ts := 0 }
def dg9 (h : TdpOut) (vlen : Nat) (value : List Byte) : Datagram :=
  { src := 5, port := 7, bytes := h.bytes vlen value ++ (if h.tagged then List.replicate 16 0 else []), tagOk := true }
def fyTdp (g : Fyster → Fyster) : State := fyS fun f => g { f with boot := { f.boot with running := true }, sessions := [session9] }
def msgOf9 (d : Datagram) : TdpMsg :=
  (tdpMsg d).getD { version := 0, mtype := 0, session := 0, seq := 0, node := 0, tagged := false, index := 0, sub := 0, type := 0,
                    value := [], src := 0, port := 0, tagOk := false, shape := false }
def hello9 : Datagram := dg9 { out9 1 4 0xFF 0 0 0 with session := 0, tagged := false } 24 (leBytes 24 (packNat [(7, 32), (2, 8)]))
def helloWait9 : Hello := { src := 5, port := 7, key := 7, level := 2, seq := 4 }
def provis9 : Session := { session9 with live := false, seen := [] }
def auth9 : Datagram := dg9 { out9 3 4 0xFF 0 0 0 with tagged := false } 16 (List.replicate 16 7)
def xfer9 (write : Bool) : Xfer :=
  { id := 3, session := 9, node := 0, index := 0x4480, sub := 1, write := write, total := 48, crc := crc32c (leBytes 48 (1 + 256 + 5 * 2 ^ 32)),
    bytes := [], next := 0, sent := 0, sinceAck := 0, lastAt := 0, ackAt := 0, seq := 4, ready := true }
def tuUp (f : Fyster) : Fyster := { f with nodes := [(3, 2)], links := [(3, { Link.reset with st := .up })] }
def sub9 : Sub :=
  { id := 6, session := 9, node := 0, index := 0x1100, sub := 2, periodic := false, interval := 10, last := some (leBytes 2 61), changes := 4,
    sentAt := 0, readAt := 0, dirty := false }
def xferBytes9 : List Byte := leBytes 48 (1 + 256 + 5 * 2 ^ 32)
def powerWord9 (id op seq : Nat) : Word :=
  BitVec.ofNat 64 (packNat [(id, 4), (op, 4), (0, 16), (seq, 8), (crc32c (leBytes 4 (packNat [(id, 4), (op, 4), (0, 16), (seq, 8)])), 32)])
def fyPwr (r : PwrReq) : State := fyS fun f => { f with part := { f.part with pwr := [(5, r)] } }
def flushing9 : Recorder := { grown9 with flush := some { cause := 3, at64 := 0, records := [evr9], parts := [(0, 0)] }, flushSerial := 1 }
def tuUpDown9 : State :=
  tuS fun t => { t with discovered := true, link := { t.link with st := .up }, part := { t.part with evr := grown9 } }
def orders9 : List Order :=
  (List.range 32).map fun i => { kind := .model, target := 100 + i, serial := 1, eff := 2 ^ 60, late := false, data := [] }
def fyFull9 : State := { fyReady with fy := { fyReady.fy with part := { fyReady.fy.part with orders := orders9 } } }
def tuFull9 : State :=
  tuS fun t => { t with discovered := true, part := { t.part with orders := orders9, time := { t.part.time with servo := .locked, everLocked := true } } }

/-! ### Ill-formed commands (R59, R68, R82, R119, R160, R184, R192, R331, R349, R351, R368, R407, R410, R434) -/

theorem wf_refuses_long_frame : (Instr.frameRx 0 (.tuEnd 0) (rawFrame 1 (List.replicate 1024 0))).wf = false := by decide +kernel
theorem wf_refuses_long_control_frame :
    (Instr.controlFrameRx 0 (.tuEnd 0) { header := 0, payload := List.replicate 1024 0, crc := 0, fecError := false, parityHit := [] }).wf = false := by
  decide +kernel
theorem wf_refuses_ordered_set_length : (Instr.tosTreqRx 0 0 { kind := 1, n := 1, payload := [1, 2, 3] }).wf = false := by decide
theorem wf_refuses_record_stream : (Instr.trDictRead 0 0 { taintRec5 with stream := 65536 }).wf = false := by decide +kernel
theorem wf_refuses_record_length : (Instr.trCutOrderRx 0 0 { taintRec5 with pay := List.replicate 253 0 }).wf = false := by decide +kernel
theorem wf_refuses_datagram_length : (Instr.tdpRead 0 { src := 0, port := 0, bytes := List.replicate 65508 0, tagOk := true }).wf = false := by
  simp only [Instr.wf, Datagram.wf, List.length_replicate]; decide
theorem wf_refuses_signature_bins :
    (Instr.maceVerdict 0 0 0 (some { fpRow := 0, fpCol := 0, expRow := List.replicate 16 0, expCol := List.replicate 15 0 })).wf = false := by
  decide +kernel
theorem wf_refuses_tap_lanes : (Instr.tapIncBeat 0 0 .noc { lanes := [1, 2, 3], bank := false, dstart := false, full := none }).wf = false := by
  decide
theorem wf_refuses_loss_owner_of_a_tu : (Instr.lossReport 0 (.tu 0) 8 8).wf = false := by decide
theorem wf_refuses_loss_owner_of_fyster : (Instr.lossReport 0 .fyster 8 32).wf = false := by decide
theorem wf_refuses_channel_of_a_tu : (Instr.mboxDoorbell 0 (.tu 0) 8 0 []).wf = false := by decide +kernel
theorem wf_refuses_dispatch_unit : (Instr.cpDispatch 0 0 { unit := 72, graph := 0, ver := 0, node := 0, launch := 0 }).wf = false := by decide
theorem wf_refuses_check_record_words : (Instr.checkRecord 0 0 0 { words := List.replicate 23 0, bufFull := false }).wf = false := by decide +kernel
theorem wf_refuses_ratio_count : (Instr.budgetPeriodStart 0 0 [65536]).wf = false := by decide
theorem wf_refuses_ratio_above_one : (Instr.budgetPeriodStart 0 0 (List.replicate 8 65537)).wf = false := by decide
theorem wf_refuses_cut_taps : (Instr.cloveCut 0 0 9 []).wf = false := by decide
theorem wf_refuses_nonce : (Instr.tdpChallengeReady 0 { src := 0, leave := true, nonce := [] }).wf = false := by decide
theorem wf_refuses_poll_of_no_tray : (Instr.govPoll 0 0 [(8192, List.replicate 256 0)]).wf = false := by decide +kernel
theorem wf_refuses_poll_length : (Instr.govPoll 0 0 [(0, [1])]).wf = false := by decide +kernel
theorem wf_refuses_lane_count : (Instr.tlTrainingDone 0 (.tuEnd 0) { trained9 with healthy := [true, true] }).wf = false := by decide +kernel
theorem wf_refuses_summary_length : (Instr.summaryRead 0 0 0 (List.replicate 65537 0)).wf = false := by
  simp only [Instr.wf, List.length_replicate]; decide

/-! ### Worked examples -/

/-- R76: the check value over "123456789". -/
theorem test_crc32c : crc32c [0x31, 0x32, 0x33, 0x34, 0x35, 0x36, 0x37, 0x38, 0x39] = 0xE3069283 := by decide +kernel

/-- 07_mace.md, "a wrong block": residual 64.0, ABSUM 65,536, MXFP8, K 4,096: τ = 0.53125, q = 120.47, bin 30. -/
theorem test_mace_example :
    let f := { chkPass with words := natWords 24 (packNat [(0x41A7C, 32), (5, 4), (0, 4), (4096, 20), (0, 4), (128, 16), (128, 16), (0, 160),
                                                           (0x44E54800, 32), (0x44ED4800, 32), (0x4780, 16)]) }.fold f64One (tolG false 4096) 0
    f.d = 0x4050000000000000 ∧ f.tau = 0x3FE1000000000000 ∧ f.q = 0x405E1E1E1E1E1E1E ∧ histBin f.q = 30 ∧ f.fails = true := by
  decide +kernel

/-- 10_reduction.md, R259: 1,342.8 ns per token with s = 32 and OFFSET 256 falls in bin 76. -/
theorem test_bin_example : binIndex 32 256 0x4094FB3333333333 = 76 := by decide +kernel

/-- 16_ports.md, R412: lane 1 retired: logical 0 on lane 0, logical 1 on lane 2, spare trained: LANE_MAP 0x18. -/
theorem test_lane_map_example : laneAssign [true, true, true] [1] = some 0x18 := by decide +kernel

/-- 04_counters.md: 64 deltas of 31 bits and 8 of 26 bits make a record of 428 bytes. -/
theorem test_sample_length_example :
    let l (v : Nat) : Latch := { cnt := 0, state := 0, value := v, sat := false, percmd := false, bank := false, bound := false }
    sampleLen (List.replicate 64 (l 1200000000) ++ List.replicate 8 (l 50000000)) = 428 := by decide +kernel

/-- 11_juniper.md: raw 0.9921875 against edges 0.5, 0.9, 0.9921875 and 0.999 is in bin 3: the edge goes right (R293). -/
theorem test_feature_bin_example :
    Feat.bin { op := 0, substValid := false, nedge := 4, subst := 0, a := 1, b := 0, ofs := 0, edges := [0x3F000000, 0x3F666666, 0x3F7E0000, 0x3F7FBE77] }
      0x3F7E0000 = 3 := by decide +kernel

/-- 11_juniper.md: c = (1, 1, 1) leads to leaf 6 - 3 = 3 of a tree of depth 2 (R295). -/
theorem test_tree_walk_example : walk (fun _ => 1) 2 0 - (2 ^ 2 - 1) = 3 := by decide

/-! ### One step -/

/-- Whether a step answers a next state of which `q` holds. -/
def nextIs (o : Host.Outcome State Fault Refusal) (q : State → Bool) : Bool :=
  match o with
  | .next t => q t
  | _ => false

/-- Log 2: an empty queue idles. -/
theorem test_idle : nextIs (step State.reset) (fun t => t == State.reset) = true := by decide +kernel

/-- The front command runs and the rest waits. -/
theorem test_front :
    nextIs (step { State.reset with pending := [.txqRead 5 0, .txqRead 6 1] }) (fun t => t.pending == [.txqRead 6 1] && t.fy.part.time.now == 5) = true := by
  decide +kernel

/-- R56, R57: defaults of the dictionary. -/
theorem test_defaults :
    State.reset.fy.rd 0x1220 1 = 1000 ∧ State.reset.fy.rd 0x1220 4 = 50 ∧ (State.reset.tu 0).rd 0x2900 0x0A = 0x00FF ∧
    (State.reset.tu 0).rd 0x2A00 9 = 100 := by decide +kernel

/-- R95: a counter at 2^64 - 1 stays there and sets SAT; its neighbour counts. -/
theorem test_counter_saturates :
    let s := tuS fun t => { t with
      cnts := [(0, { (t.cnt 0) with source := 0x045, val := 2 ^ 64 - 2 }), (1, { (t.cnt 1) with source := 0x045, val := 4 })] }
    nextIs (exec (.tapIncBeat 5 0 (.tile 0) { lanes := [3, 3] ++ List.replicate 30 0, bank := false, dstart := false, full := none }) s)
      (fun t => ((t.tu 0).cnt 0).val == 2 ^ 64 - 1 && ((t.tu 0).cnt 0).sat && ((t.tu 0).cnt 1).val == 7 && !((t.tu 0).cnt 1).sat) = true := by
  decide +kernel

/-- R75, 03_records.md: a frame with a bad CRC is discarded, counted, and a NAK becomes due; FSEQ expected stays. -/
theorem test_bad_crc_frame :
    let s := tuS fun t => { t with discovered := true, link := { t.link with st := .up } }
    nextIs (exec (.frameRx 5 (.tuEnd 0) { rawFrame 1 taintRec5.words with crc := 0 }) s)
      (fun t => (t.tu 0).link.nakDue && (t.tu 0).link.rxFseq == 0 && (t.tu 0).rd 0x2110 0x11 == 1) = true := by decide +kernel

/-- 08_export.md: a frame of 4,108 bytes takes class 7's credit from the burst of 65,536 to 61,428 while no time passes. -/
theorem test_shaper_example :
    let s := tuS fun t => { t with
      discovered := true, link := { t.link with st := .up }
      exp := { t.exp with shapers := [(7, { build := [], built := [{ payload := List.replicate 512 0, records := 0, sumac := true, first := true, last := true }],
                                            credit := 65536 * 1000, accrued := 0 })] } }
    nextIs (exec (.shaperFrameStart 0 0) s)
      (fun t => ((t.tu 0).exp.shapers.map fun e => (e.1, e.2.credit, e.2.built.length)) == [(7, 61428000, 0)]) = true := by decide +kernel

/-- R394: a pin reset raises RESET_EPOCH and names its kind. -/
theorem test_pin_reset :
    nextIs (exec (.resetPin 5 true true) State.reset) (fun t => t.fy.resetEpoch == 1 && t.fy.boot.kind == 2 && t.fy.boot.image == 0) = true := by
  decide +kernel

/-- R344: clearing PHASE_ENABLE needs OPERATE. -/
theorem test_level :
    nextIs (exec (.phaseEnableWrite 5 0 .observe 0) State.reset)
      (fun t => (t.tu 0).rd 0x2600 1 == 1 && (t.tu 0).out == [.answer 5]) = true := by decide +kernel

/-- R368: a doorbell of 64 bytes on channel 0 of a TU is held with its stamp and counted. -/
theorem test_doorbell :
    nextIs (exec (.mboxDoorbell 5 (.tu 0) 0 7 (List.replicate 64 1)) State.reset)
      (fun t => (((t.tu 0).chan 0).queue.map fun m => (m.body.length, m.stamp, m.mseq)) == [(64, 7, 0)] && (t.tu 0).rd 0x6110 3 == 1) = true := by
  decide +kernel

/-- R154: FREEZE takes cause 3 and the rings of another TU go on. -/
theorem test_freeze :
    nextIs (exec (.freeze 5 0 .operate 1) State.reset) (fun t => ((t.tu 0).frz.frozen.map (·.1)) == some 3 && (t.tu 1).frz.frozen.isNone) = true := by
  decide +kernel

/-- The table gives no row any bits: no word spells a command. -/
theorem test_no_word : decodeTableWord 16 0 = none ∧ State.reset.withFetchWord 16 0 = State.reset := by decide +kernel

/-! ### States that meet the hypotheses -/

theorem witness_StepRunsFront :
    (∃ (s : State) (c : Instr) (r : List Instr), s.pending = c :: r) ∧ (∃ s : State, s.pending = []) :=
  ⟨⟨{ State.reset with pending := [.txqRead 5 0] }, .txqRead 5 0, [], rfl⟩, ⟨State.reset, rfl⟩⟩

theorem witness_TuIsolation :
    ∃ (c : Instr) (p : Port) (s₁ s₂ : State), c.site = .tu p ∧ s₁.tu p = s₂.tu p ∧ s₁ ≠ s₂ :=
  ⟨.treqSend 5 3, 3, State.reset, fyReady, by decide, by decide +kernel, by decide +kernel⟩

theorem witness_FysterIsolation :
    ∃ (c : Instr) (s₁ s₂ : State), c.site = .fyster ∧ s₁.fy = s₂.fy ∧ s₁ ≠ s₂ :=
  ⟨.txqRead 5 1, State.reset, tuS fun t => { t with discovered := true }, by decide, by decide +kernel, by decide +kernel⟩

theorem witness_TuTableKept : ∃ s s' : State, s.TuTable ∧ step s = .next s' :=
  ⟨State.reset, State.reset, by unfold State.TuTable; decide +kernel, rfl⟩

theorem witness_TimeExchange :
  (∃ (s : State) (dt : Nat) (p : Port),
    (s.tu p).link.st = .up ∧ (s.tu p).treq = none) ∧
  (∃ (s : State) (dt : Nat) (p : Port) (x : Tos),
    x.good 1 = true) ∧
  (∃ (s : State) (dt : Nat) (p : Port) (x : Tos) (seq : Nat) (t₁ : Nat),
    x.good 2 = true ∧ (s.tu p).part.time.servo = .freeRun ∧ (s.tu p).treq = some (seq, t₁) ∧ fieldAt x.payload 0 2 = seq ∧
    (s.tu p).part.time.now + dt ≤ t₁ + 20000 * 65536 ∧ fieldAt x.payload 2 1 % 16 ≠ 0 ∧ (s.tu p).mpds = [] ∧ (s.tu
    p).asymNew = none) ∧
  (∃ (s : State) (dt : Nat) (p : Port) (seq : Nat) (t₁ : Nat),
    (s.tu p).treq = some (seq, t₁) ∧ t₁ + 20000 * 65536 ≤ (s.tu p).part.time.now + dt ∧ (s.tu p).bad < 7) ∧
  (∃ (s : State) (dt : Nat) (p : Port) (seq : Nat) (t₁ : Nat),
    (s.tu p).treq = some (seq, t₁) ∧ t₁ + 20000 * 65536 ≤ (s.tu p).part.time.now + dt ∧ 7 ≤ (s.tu p).bad ∧ (s.tu
    p).part.time.servo = .locked) :=
  ⟨⟨tuS fun t => { t with link := { t.link with st := .up } }, 5, 0, by decide +kernel, by decide +kernel⟩,
    ⟨State.reset, 5, 0, mkTos 1 [7, 0, 0, 0], by decide +kernel⟩,
    ⟨tuS fun t => { t with treq := some (7, 100) }, 5000, 0, mkTos 2 (leBytes 2 7 ++ leBytes 1 0x12 ++ leBytes 1 0 ++ leBytes 2 3 ++ leBytes 2 9 ++ leBytes 8 1000 ++ leBytes 8 1001 ++ leBytes 2 8 ++ leBytes 2 0 ++ leBytes 4 0 ++ leBytes 8 77 ++ leBytes 4 0), 7, 100, by decide +kernel, by decide +kernel, by decide +kernel, by decide +kernel, by decide +kernel, by decide +kernel, by decide +kernel, by decide +kernel⟩,
    ⟨tuS fun t => { t with treq := some (7, 100), bad := 6 }, 20000 * 65536 + 100, 0, 7, 100, by decide +kernel, by decide +kernel, by decide +kernel⟩,
    ⟨tuS fun t => { t with treq := some (7, 100), bad := 7, mpds := [4], part := { t.part with time := { t.part.time with servo := .locked } } }, 20000 * 65536 + 100, 0, 7, 100, by decide +kernel, by decide +kernel, by decide +kernel, by decide +kernel⟩⟩

theorem witness_PtpPorts :
  (∃ (s : State) (dt : Nat) (q : Fin 2) (m : PtpMsg),
    s.fy.ptpBad m = true) ∧
  (∃ (s : State) (dt : Nat) (q : Fin 2) (m : PtpMsg),
    s.fy.ptpBad m = false ∧ m.mtype = 0 ∧ m.twoStep = true ∧ s.fy.fromMaster q.val m = true) ∧
  (∃ (s : State) (dt : Nat) (q : Fin 2),
    (s.fy.oob q.val).st = .slave) :=
  ⟨⟨State.reset, 5, 1, { ptpMsg with version := 1 }, by decide +kernel⟩,
    ⟨fyS fun f => f.setOob 1 { f.oob 1 with st := .slave, foreign := some { source := 9, quality := 1, gm := 5, steps := 0, utcOffset := 37 } }, 5, 1, { ptpMsg with source := 9, twoStep := true }, by decide +kernel, by decide +kernel, by decide +kernel, by decide +kernel⟩,
    ⟨fyS fun f => f.setOob 1 { f.oob 1 with up := true, st := .slave, foreign := some { source := 9, quality := 1, gm := 5, steps := 0, utcOffset := 37 } }, 5, 1, by decide +kernel⟩⟩

theorem witness_StepsAndTicks :
  (∃ (s : State) (dt : Nat) (lvl : Level) (n : BitVec 32),
    1 ≤ Level.rank lvl ∧ s.fy.part.time.servo = .stepPending ∧ s.fy.part.time.pendingSerial = n.toNat) ∧
  (∃ (s : State) (dt : Nat) (lvl : Level) (n : BitVec 32),
    Level.rank lvl < 1 ∨ s.fy.part.time.servo ≠ .stepPending ∨ s.fy.part.time.pendingSerial ≠ n.toNat) ∧
  (∃ (s : State) (dt : Nat) (p : Port) (lvl : Level) (n : BitVec 32),
    1 ≤ Level.rank lvl ∧ (s.tu p).part.time.servo = .stepPending ∧ (s.tu p).part.time.pendingSerial = n.toNat) ∧
  (∃ (s : State) (dt : Nat) (p : Port) (lvl : Level) (n : BitVec 32),
    Level.rank lvl < 1 ∨ (s.tu p).part.time.servo ≠ .stepPending ∨ (s.tu p).part.time.pendingSerial ≠ n.toNat) ∧
  (∃ (s : State) (dt : Nat) (p : Port),
    ((s.tu p).tick dt).part.time.atSecond = true ∧ (s.tu p).part.time.servo = .locked) ∧
  (∃ (s : State) (dt : Nat),
    (s.fy.tick dt).part.time.atSecond = true ∧ s.fy.part.time.servo = .locked) ∧
  (∃ (s : State) (dt : Nat) (p : Port),
    ((s.tu p).tick dt).part.time.atRollover = true) ∧
  (∃ (s : State) (dt : Nat),
    (s.fy.tick dt).part.time.atRollover = true) ∧
  (∃ (s : State) (dt : Nat) (p : Port) (g : GSlot) (x : TGroup),
    tfind (s.tu p).groups g.val = some x ∧ (x.state = 3 ∨ x.state = 5) ∧ (s.tu p).part.time.everLocked = true ∧ onGrid
    x.period x.phase ((s.tu p).tick dt).ns = true ∧ x.fired.getD 0 < ((s.tu p).tick dt).ns) ∧
  (∃ (s : State) (dt : Nat),
    s.fy.rd 0x1210 1 = 3 ∧ s.fy.part.time.servo ≠ .locked) :=
  ⟨⟨fyS fun f => { f with part := { f.part with time := { f.part.time with servo := .stepPending, pendingSerial := 4 } } }, 5, .operate, 4, by decide +kernel, by decide +kernel, by decide +kernel⟩,
    ⟨fyS fun f => { f with part := { f.part with time := { f.part.time with servo := .stepPending, pendingSerial := 4 } } }, 5, .operate, 5, by decide +kernel⟩,
    ⟨tuS fun f => { f with part := { f.part with time := { f.part.time with servo := .stepPending, pendingSerial := 4 } } }, 5, 0, .service, 4, by decide +kernel, by decide +kernel, by decide +kernel⟩,
    ⟨State.reset, 5, 31, .observe, 4, by decide +kernel⟩,
    ⟨tuS fun f => { f with discovered := true, part := { f.part with time := { f.part.time with servo := .locked } } }, 65536000000000, 0, by decide +kernel, by decide +kernel⟩,
    ⟨fyS fun f => { f with part := { f.part with time := { f.part.time with servo := .locked } } }, 65536000000000, by decide +kernel, by decide +kernel⟩,
    ⟨State.reset, 2 ^ 80, 3, by decide +kernel⟩,
    ⟨State.reset, 2 ^ 80, by decide +kernel⟩,
    ⟨tuS fun t => { t with groups := [(5, gridGroup)], part := { t.part with time := { t.part.time with everLocked := true } } }, 65536000000, 0, 5, gridGroup, by decide +kernel, by decide +kernel, by decide +kernel, by decide +kernel, by decide +kernel⟩,
    ⟨fyS fun f => f.wr 0x1210 1 3, 5, by decide +kernel, by decide +kernel⟩⟩

theorem witness_CounterCommands :
  (∃ (s : State) (dt : Nat) (p : Port) (k : Fin 72) (i : Fin 32) (b : IncBeat),
    b.dstart = false ∧ b.full = none ∧ ((s.tu p).cnt (32 * k.val + i.val)).source ≠ 0 ∧ ((s.tu p).cnt (32 * k.val +
    i.val)).percmd = false ∧ ((s.tu p).cnt (32 * k.val + i.val)).isNs (32 * k.val + i.val) = false ∧ ((s.tu p).cnt (32 *
    k.val + i.val)).val ≤ max64) ∧
  (∃ (s : State) (dt : Nat) (p : Port) (lvl : Level) (c : Fin 2816) (v : BitVec 32),
    1 ≤ Level.rank lvl ∧ sourceOk c.val (bitsOf v.toNat 0 10) = true ∧ (bitOf v.toNat 10 = false ∨ hasBank c.val = true)) ∧
  (∃ (s : State) (dt : Nat) (p : Port) (lvl : Level) (c : Fin 2816) (v : BitVec 32),
    1 ≤ Level.rank lvl ∧ sourceOk c.val (bitsOf v.toNat 0 10) = true ∧ (bitOf v.toNat 10 = false ∨ hasBank c.val = true) ∧
    bitsOf v.toNat 0 10 = ((s.tu p).cnt c.val).source ∧ bitOf v.toNat 10 = ((s.tu p).cnt c.val).percmd ∧ bitOf v.toNat 16 =
    true) ∧
  (∃ (s : State) (dt : Nat) (p : Port) (lvl : Level),
    1 ≤ Level.rank lvl) :=
  ⟨⟨tuS fun t => (t.setCnt 33 { Cnt.zero with source := 1, val := 40 }).setCnt 34 { Cnt.zero with source := 7, level := true }, 70000, 0, 1, 1, { lanes := [5, 6, 7], bank := true, dstart := false, full := none }, by decide +kernel, by decide +kernel, by decide +kernel, by decide +kernel, by decide +kernel, by decide +kernel⟩,
    ⟨State.reset, 5, 0, .operate, 24, 0x401, by decide +kernel, by decide +kernel, by decide +kernel⟩,
    ⟨tuS fun t => t.setCnt 2700 { Cnt.zero with source := 1, val := 40, sat := true }, 5, 0, .operate, 2700, 0x10001, by decide +kernel, by decide +kernel, by decide +kernel, by decide +kernel, by decide +kernel, by decide +kernel⟩,
    ⟨tuS fun t => t.setCnt 2700 { Cnt.zero with source := 1, val := 40, sat := true }, 5, 0, .service, by decide +kernel⟩⟩

theorem witness_SampleSetCommands :
  (∃ (s : State) (dt : Nat) (p : Port) (lvl : Level) (k : Fin 16) (v : List Byte),
    1 ≤ Level.rank lvl ∧ v.length ≤ 512 ∧ v.length % 2 = 0 ∧ distinct (u16s (v.length / 2) v) = true ∧ ((u16s (v.length /
    2) v).all fun c => decide (c ≤ 2815)) = true ∧ ((s.tu p).set k.val).enable = false ∧ sumBy (fun e => if e.1 = k.val
    then 0 else e.2.list.length) (s.tu p).sets + (u16s (v.length / 2) v).length ≤ 2048) ∧
  (∃ (s : State) (dt : Nat) (p : Port) (lvl : Level) (k : Fin 16) (v : Word),
    1 ≤ Level.rank lvl ∧ v.toNat % 1000 = 0 ∧ 1000 ≤ v.toNat ∧ v.toNat ≤ 10000000000 ∧ ((s.tu p).set k.val).enable = false) ∧
  (∃ (s : State) (dt : Nat) (p : Port) (lvl : Level) (k : Fin 16) (v : Word),
    1 ≤ Level.rank lvl ∧ v.toNat % 1000 = 0 ∧ v.toNat < 10000000000 ∧ ((s.tu p).set k.val).enable = false) ∧
  (∃ (s : State) (dt : Nat) (p : Port) (lvl : Level) (k : Fin 16) (v : BitVec 32),
    1 ≤ Level.rank lvl ∧ bitOf v.toNat 0 = true ∧ bitOf v.toNat 1 = false ∧ (bitsOf v.toNat 8 8 < 64 ∨ bitsOf v.toNat 8 8 =
    255) ∧ ((s.tu p).set k.val).phase < ((s.tu p).set k.val).period ∧ ((s.tu p).set k.val).enable = false ∧ ((s.tu p).set
    k.val).list ≠ []) ∧
  (∃ (s : State) (dt : Nat) (p : Port) (lvl : Level) (k : Fin 16) (v : Word),
    1 ≤ Level.rank lvl ∧ (v.toNat = 0 ∨ zoomOk v.toNat ((s.tu p).baseGrid ((s.tu p).set k.val)).1 = true)) ∧
  (∃ (s : State) (dt : Nat) (p : Port) (lvl : Level) (k : Fin 16),
    1 ≤ Level.rank lvl ∧ ((s.tu p).set k.val).pin = false) ∧
  (∃ (s : State) (dt : Nat) (p : Port) (k : Fin 16) (sw : Bool),
    (s.tu p).setRunning ((s.tu p).set k.val) = true ∧ onGrid ((s.tu p).baseGrid ((s.tu p).set k.val)).1 ((s.tu p).baseGrid
    ((s.tu p).set k.val)).2 ((s.tu p).tick dt).ns = true ∧ ((s.tu p).set k.val).fired.getD 0 < ((s.tu p).tick dt).ns ∧
    ((s.tu p).set k.val).wanted ((s.tu p).baseGrid ((s.tu p).set k.val)).1 = ((s.tu p).set k.val).zoom) :=
  ⟨⟨State.reset, 5, 0, .operate, 15, [0xFF, 0x0A, 1, 0], by decide +kernel, by decide +kernel, by decide +kernel, by decide +kernel, by decide +kernel, by decide +kernel, by decide +kernel⟩,
    ⟨State.reset, 5, 0, .operate, 15, 10000000000, by decide +kernel, by decide +kernel, by decide +kernel, by decide +kernel, by decide +kernel⟩,
    ⟨State.reset, 5, 0, .operate, 0, 0, by decide +kernel, by decide +kernel, by decide +kernel, by decide +kernel⟩,
    ⟨tuS fun t => t.setSet 3 { SampleSet.zero with list := [1] }, 5, 0, .operate, 3, 0xFF01, by decide +kernel, by decide +kernel, by decide +kernel, by decide +kernel, by decide +kernel, by decide +kernel, by decide +kernel⟩,
    ⟨State.reset, 5, 0, .operate, 3, 500000, by decide +kernel, by decide +kernel⟩,
    ⟨tuS fun t => { t with discovered := true }, 5, 0, .operate, 3, by decide +kernel, by decide +kernel⟩,
    ⟨tuS fun t => { t.setSet 3 { SampleSet.zero with list := [1, 2], enable := true } with discovered := true, part := { t.part with time := { t.part.time with everLocked := true } } }, 65536000000, 0, 3, false, by decide +kernel, by decide +kernel, by decide +kernel, by decide +kernel⟩⟩

theorem witness_PhaseCommands :
  (∃ (s : State) (dt : Nat) (p : Port) (g : BitVec 32) (ver : BitVec 16) (l : Word) (pers : Bool),
    (s.tu p).part.flag 0x2940 1 = false) ∧
  (∃ (s : State) (dt : Nat) (p : Port) (l : Word) (b : Binding),
    (s.tu p).binding l.toNat = some b ∧ ((s.tu p).newest.find? fun n => n.1 == b.graph) = some (b.graph, b.ver) ∧ ((s.tu
    p).units.filter fun u => u.2.launches.contains l.toNat) = []) ∧
  (∃ (s : State) (dt : Nat) (p : Port) (o : OpenEv) (k : Nat),
    (s.tu p).part.flag 0x2600 1 = true ∧ o.unit.toNat < 4 ∧ (s.tu p).slotOf o.launch.toNat o.tag.toNat = none ∧ (s.tu
    p).freeSlot = some k) ∧
  (∃ (s : State) (dt : Nat) (p : Port) (l : Word) (tag : BitVec 32) (code : Byte) (k : Nat) (x : PhSlot),
    (s.tu p).part.flag 0x2600 1 = true ∧ phaseOk code.toNat = true ∧ (s.tu p).slotOf l.toNat tag.toNat = some (k, x) ∧
    (x.entry code.toNat).isOpen = false) ∧
  (∃ (s : State) (dt : Nat) (p : Port) (l : Word) (tag : BitVec 32) (code : Byte) (k : Nat) (x : PhSlot),
    (s.tu p).part.flag 0x2600 1 = true ∧ phaseOk code.toNat = true ∧ (s.tu p).slotOf l.toNat tag.toNat = some (k, x) ∧
    (x.entry code.toNat).isOpen = true) ∧
  (∃ (s : State) (dt : Nat) (p : Port) (l : Word) (tag : BitVec 32) (k : Nat) (x : PhSlot),
    (s.tu p).part.flag 0x2600 1 = true ∧ (s.tu p).slotOf l.toNat tag.toNat = some (k, x)) ∧
  (∃ (s : State) (dt : Nat) (p : Port) (d : DispatchEv) (u : Nat),
    dispatchUnit d.unit.toNat = some u) :=
  ⟨⟨State.reset, 5, 0, 7, 1, 99, true, by decide +kernel⟩,
    ⟨tuS fun t => { t with binds := [bind9], newest := [(7, 1)] }, 5, 0, 9, bind9, by decide +kernel, by decide +kernel, by decide +kernel⟩,
    ⟨tuS fun t => t.wr 0x2600 1 1, 5, 0, { launch := 9, tag := 2, size := 100, unit := 3, node := 4, indirect := false, workUnknown := true }, 0, by decide +kernel, by decide +kernel, by decide +kernel, by decide +kernel⟩,
    ⟨tuS fun t => { t.wr 0x2600 1 1 with slots := [(5, some slot9)] }, 70000, 0, 9, 2, 0x1B, 5, slot9, by decide +kernel, by decide +kernel, by decide +kernel, by decide +kernel⟩,
    ⟨tuS fun t => { t.wr 0x2600 1 1 with slots := [(5, some (slot9.setEntry { PhEntry.zero 3 with count := 1, start := some 0, isOpen := true }))] }, 70000, 0, 9, 2, 3, 5, slot9.setEntry { PhEntry.zero 3 with count := 1, start := some 0, isOpen := true }, by decide +kernel, by decide +kernel, by decide +kernel, by decide +kernel⟩,
    ⟨tuS fun t => { t.wr 0x2600 1 1 with slots := [(5, some slot9)], discovered := true }, 70000, 0, 9, 2, 5, slot9, by decide +kernel, by decide +kernel⟩,
    ⟨State.reset, 70000, 0, { unit := 128, graph := 7, ver := 1, node := 2, launch := 9 }, 72, by decide +kernel⟩⟩

theorem witness_LongPhasesAndNames :
  (∃ (s : State) (dt : Nat) (p : Port) (k : Fin 64) (x : PhSlot),
    (s.tu p).slot k.val = some x ∧ x.opened + x.mult * (s.tu p).rd 0x2600 2 ≤ ((s.tu p).tick dt).ns) ∧
  (∃ (s : State) (dt : Nat) (p : Port) (lvl : Level),
    1 ≤ Level.rank lvl) ∧
  (∃ (s : State) (dt : Nat) (p : Port) (lvl : Level),
    1 ≤ Level.rank lvl) ∧
  (∃ (s : State) (dt : Nat) (p : Port) (lvl : Level) (v : List Byte),
    1 ≤ Level.rank lvl ∧ v.length = 16 + 8 * fieldAt v 6 2 ∧ 1 ≤ fieldAt v 6 2 ∧ fieldAt v 6 2 ≤ 4096 ∧ ((nameEntries
    (fieldAt v 6 2) (v.drop 16)).all fun e => e.2 != 0) = true ∧ distinct ((nameEntries (fieldAt v 6 2) (v.drop 16)).map
    Prod.fst) = true ∧ ((s.tu p).names.filter fun x => x.graph == fieldAt v 0 4) = [] ∧ (s.tu p).names.length < 64 ∧ sumBy
    (fun x => x.names.length) (s.tu p).names + fieldAt v 6 2 ≤ 16384) :=
  ⟨⟨tuS fun t => { t with slots := [(5, some slot9)], discovered := true }, 65536 * 100000000000, 0, 5, slot9, by decide +kernel, by decide +kernel⟩,
    ⟨State.reset, 5, 0, .operate, by decide +kernel⟩,
    ⟨tuS fun t => { t.wr 0x2600 1 1 with slots := [(5, some slot9)] }, 5, 0, .operate, by decide +kernel⟩,
    ⟨State.reset, 5, 0, .operate, leBytes 4 7 ++ leBytes 2 1 ++ leBytes 2 1 ++ leBytes 8 0 ++ leBytes 2 4 ++ leBytes 2 0 ++ leBytes 4 77, by decide +kernel, by decide +kernel, by decide +kernel, by decide +kernel, by decide +kernel, by decide +kernel, by decide +kernel, by decide +kernel, by decide +kernel⟩⟩

theorem witness_TraceBeats :
  (∃ (s : State) (dt : Nat) (p : Port) (i : Fin 73) (b : TraceBeat),
    b.lost = false ∧ 1 ≤ b.nout.toNat ∧ ((s.tu p).enc i.val).down = none ∧ ((s.tu p).enc i.val).inForce = 2 ∧ ((s.tu p).enc
    i.val).addr ≠ none ∧ ((s.tu p).enc i.val).due = none ∧ ((s.tu p).enc i.val).lost = none ∧ ((s.tu p).enc
    i.val).outcomes.length + b.nout.toNat < 6 ∧ ((s.tu p).enc i.val).sinceSync + (tsBytes ((s.tu p).tick dt).ns false
    ((s.tu p).enc i.val)).length < 4096) ∧
  (∃ (s : State) (dt : Nat) (p : Port) (i : Fin 73) (b : TraceBeat) (c : TrOpen),
    b.lost = false ∧ ((s.tu p).enc i.val).down = none ∧ ((s.tu p).enc i.val).inForce ≠ 0 ∧ ((s.tu p).enc i.val).addr ≠ none
    ∧ ((s.tu p).enc i.val).due = none ∧ ((s.tu p).enc i.val).lost = none ∧ ((s.tu p).enc i.val).outcomes = [] ∧ ((s.tu
    p).enc i.val).tsInt = 0 ∧ ((s.tu p).enc i.val).sinceSync < 4096 ∧ ((s.tu p).enc i.val).cur = some c ∧ c.bytes.length ≤
    1980) ∧
  (∃ (s : State) (dt : Nat) (p : Port) (i : Fin 73) (b : TraceBeat),
    b.lost = false ∧ ((s.tu p).enc i.val).down = none ∧ ((s.tu p).enc i.val).due = none ∧ ((s.tu p).enc i.val).lost = none) ∧
  (∃ (s : State) (dt : Nat) (p : Port) (i : Fin 73) (b : TraceBeat),
    b.lost = false ∧ b.state.toNat ≠ 0 ∧ ((s.tu p).enc i.val).down = none ∧ ((s.tu p).enc i.val).inForce ≠ 0 ∧ ((s.tu
    p).enc i.val).addr ≠ none ∧ ((s.tu p).enc i.val).due = none ∧ ((s.tu p).enc i.val).lost = none) ∧
  (∃ (s : State) (dt : Nat) (p : Port) (i : Fin 73) (b : TraceBeat),
    b.lost = false ∧ ((s.tu p).enc i.val).down ≠ none) ∧
  (∃ (s : State) (dt : Nat) (p : Port) (i : Fin 74),
    i.val < 73 ∧ i.val ∉ (s.tu p).dpcDown ∧ ((s.tu p).enc i.val).down = none) ∧
  (∃ (s : State) (dt : Nat) (p : Port) (i : Fin 74),
    i.val < 73 ∧ i.val ∈ (s.tu p).dpcDown) ∧
  (∃ (s : State) (dt : Nat) (p : Port) (i : Fin 73) (c : TrOpen),
    ((s.tu p).enc i.val).cur = some c ∧ c.opened + 1000 * (s.tu p).rd 0x2760 5 ≤ ((s.tu p).tick dt).ns) :=
  ⟨⟨tuS fun t => t.setEnc 72 { Enc.zero 72 with addr := some 4, due := none, outcomes := [true] }, 5, 0, 72, { nout := 3, outcomes := 5, state := 0, addr := 0x123456789, lost := false }, by decide +kernel, by decide +kernel, by decide +kernel, by decide +kernel, by decide +kernel, by decide +kernel, by decide +kernel, by decide +kernel, by decide +kernel⟩,
    ⟨tuS fun t => t.setEnc 3 { Enc.zero 3 with addr := some 4, due := none, tsInt := 0, ibase := 100, cur := some { first := 0, last := 0, opened := 0, mode := 1, ofs := 0, syncOfs := 0, bytes := [1] } }, 70000, 0, 3, { nout := 3, outcomes := 5, state := 0, addr := 40, lost := false }, { first := 0, last := 0, opened := 0, mode := 1, ofs := 0, syncOfs := 0, bytes := [1] }, by decide +kernel, by decide +kernel, by decide +kernel, by decide +kernel, by decide +kernel, by decide +kernel, by decide +kernel, by decide +kernel, by decide +kernel, by decide +kernel, by decide +kernel⟩,
    ⟨tuS fun t => t.setEnc 3 { Enc.zero 3 with due := none }, 70000, 0, 3, { nout := 0, outcomes := 5, state := 0, addr := 40, lost := false }, by decide +kernel, by decide +kernel, by decide +kernel, by decide +kernel⟩,
    ⟨tuS fun t => { t.setEnc 3 { Enc.zero 3 with addr := some 4, due := none } with discovered := true }, 70000, 0, 3, { nout := 0, outcomes := 5, state := 2, addr := 40, lost := false }, by decide +kernel, by decide +kernel, by decide +kernel, by decide +kernel, by decide +kernel, by decide +kernel, by decide +kernel⟩,
    ⟨tuS fun t => t.setEnc 3 { Enc.zero 3 with addr := some 4, due := none, down := some (2, true) }, 70000, 0, 3, { nout := 0, outcomes := 5, state := 2, addr := 40, lost := false }, by decide +kernel, by decide +kernel⟩,
    ⟨tuS fun t => { t.setEnc 3 { Enc.zero 3 with addr := some 4, due := none } with discovered := true }, 70000, 0, 3, by decide +kernel, by decide +kernel, by decide +kernel⟩,
    ⟨tuS fun t => { t.setEnc 3 { Enc.zero 3 with addr := some 4, due := none, down := some (0, true) } with discovered := true, dpcDown := [3] }, 70000, 0, 3, by decide +kernel, by decide +kernel⟩,
    ⟨tuS fun t => { t.setEnc 3 { Enc.zero 3 with cur := some { first := 0, last := 0, opened := 0, mode := 1, ofs := 0, syncOfs := 0, bytes := [1] } } with discovered := true }, 65536000000000, 0, 3, { first := 0, last := 0, opened := 0, mode := 1, ofs := 0, syncOfs := 0, bytes := [1] }, by decide +kernel, by decide +kernel⟩⟩

theorem witness_TraceRegisters :
  (∃ (s : State) (dt : Nat) (p : Port) (lvl : Level) (i : Fin 73) (v : Byte),
    1 ≤ Level.rank lvl ∧ v.toNat ≤ 2 ∧ (i.val = 72 ∨ v.toNat ≠ 2)) ∧
  (∃ (s : State) (dt : Nat) (p : Port) (lvl : Level) (i : Fin 73) (v : BitVec 32),
    1 ≤ Level.rank lvl ∧ (v.toNat = 0 ∨ (100 ≤ v.toNat ∧ v.toNat ≤ 1000000))) ∧
  (∃ (s : State) (dt : Nat) (p : Port) (lvl : Level) (v : Word),
    1 ≤ Level.rank lvl ∧ v.toNat % 2097152 = 0 ∧ (s.tu p).win.base = 0 ∧ (s.tu p).win.recs = []) ∧
  (∃ (s : State) (dt : Nat) (p : Port) (lvl : Level) (v : Word) (k : Fin 11),
    1 ≤ Level.rank lvl ∧ v.toNat = 16777216 * 2 ^ k.val ∧ (s.tu p).win.base = 0 ∧ (s.tu p).win.recs = []) ∧
  (∃ (s : State) (dt : Nat) (p : Port) (w : NocWr) (r : List NocWr),
    (s.tu p).win.noc = w :: r ∧ (w :: r).all (fun x => x.sent.isSome) = true ∧ w.last = false) ∧
  (∃ (s : State) (dt : Nat) (p : Port) (w : NocWr) (r : List NocWr),
    (s.tu p).win.noc = w :: r ∧ (w :: r).all (fun x => x.sent.isSome) = true ∧ w.last = false) ∧
  (∃ (s : State) (dt : Nat) (p : Port) (w : NocWr) (r : List NocWr) (at' : Nat),
    (s.tu p).win.noc = w :: r ∧ w.sent = some at' ∧ at' + 10000 * 65536 ≤ ((s.tu p).tick dt).part.time.now) :=
  ⟨⟨tuS fun t => { t.setEnc 3 { Enc.zero 3 with addr := some 4, due := none } with discovered := true }, 70000, 0, .operate, 3, 0, by decide +kernel, by decide +kernel, by decide +kernel⟩,
    ⟨State.reset, 5, 0, .operate, 72, 1000000, by decide +kernel, by decide +kernel⟩,
    ⟨State.reset, 5, 0, .operate, 0x200000, by decide +kernel, by decide +kernel, by decide +kernel, by decide +kernel⟩,
    ⟨State.reset, 5, 0, .operate, 0x400000000, 10, by decide +kernel, by decide +kernel, by decide +kernel, by decide +kernel⟩,
    ⟨tuS fun t => { t with win := { t.win with noc := [{ src := 3, ofs := 64, sent := some 0, last := false }] } }, 5, 0, { src := 3, ofs := 64, sent := some 0, last := false }, [], by decide +kernel, by decide +kernel, by decide +kernel⟩,
    ⟨tuS fun t => { t with win := { t.win with noc := [{ src := 3, ofs := 64, sent := some 0, last := false }] } }, 5, 0, { src := 3, ofs := 64, sent := some 0, last := false }, [], by decide +kernel, by decide +kernel, by decide +kernel⟩,
    ⟨tuS fun t => { t with win := { t.win with noc := [{ src := 3, ofs := 64, sent := some 0, last := true }] } }, 10000 * 65536, 0, { src := 3, ofs := 64, sent := some 0, last := true }, [], 0, by decide +kernel, by decide +kernel, by decide +kernel⟩⟩

theorem witness_RingCommands :
  (∃ (s : State) (dt : Nat) (p : Port) (k : Fin 101) (b : RingBeat),
    k.val < 72 ∧ ringCodeOk k.val b.code.toNat = true ∧ b.code.toNat ≠ 0x0B ∧ b.lost = false ∧ (s.tu p).frz.frozen = none ∧
    ((s.tu p).ring k.val).lastWr.getD 0 + 4 * 65536 ≤ (s.tu p).part.time.now + dt) ∧
  (∃ (s : State) (dt : Nat) (p : Port) (k : Fin 101) (b : RingBeat),
    k.val < 72 ∧ ringCodeOk k.val b.code.toNat = true ∧ b.lost = false ∧ (s.tu p).frz.frozen ≠ none) ∧
  (∃ (s : State) (dt : Nat) (p : Port) (k : Fin 101),
    (s.tu p).frz.frozen = none ∧ ((s.tu p).ring k.val).lastWr.getD 0 + 2 ^ 39 * 65536 ≤ (s.tu p).part.time.now + dt) ∧
  (∃ (s : State) (dt : Nat) (p : Port),
    (s.tu p).part.flag 0x2770 8 = true ∧ (s.tu p).frz.frozen = none) ∧
  (∃ (s : State) (dt : Nat) (p : Port),
    (s.tu p).part.flag 0x2770 8 = true ∧ (s.tu p).frz.frozen ≠ none) ∧
  (∃ (s : State) (dt : Nat) (p : Port),
    (s.tu p).rd 0x2770 6 ≠ 0 ∧ 0 < (s.tu p).frz.awaiting ∧ (s.tu p).frz.progress + 1000 * (s.tu p).rd 0x2770 6 ≤ ((s.tu
    p).tick dt).ns ∧ (s.tu p).frz.frozen = none) ∧
  (∃ (s : State) (dt : Nat) (p : Port) (lvl : Level),
    1 ≤ Level.rank lvl ∧ (s.tu p).frz.frozen = none) ∧
  (∃ (s : State) (dt : Nat) (p : Port) (lvl : Level) (c : Nat) (f : Nat) (k : Fin 101),
    1 ≤ Level.rank lvl ∧ (s.tu p).frz.frozen = some (c, f) ∧ c ≠ 5) ∧
  (∃ (s : State) (dt : Nat) (p : Port) (k : Nat) (n : Nat) (r : List (Nat × Nat)),
    (s.tu p).frz.readout = (k, n) :: r ∧ (((s.tu p).tick dt).charge 4 (40000 + 1500 * ((s.tu p).ring k).ents.length)
    true).2 = 0) ∧
  (∃ (s : State) (dt : Nat) (p : Port) (k : Nat) (n : Nat) (r : List (Nat × Nat)),
    (s.tu p).frz.readout = (k, n) :: r ∧ (((s.tu p).tick dt).charge 4 (40000 + 1500 * ((s.tu p).ring k).ents.length)
    true).2 ≠ 0) :=
  ⟨⟨tuS fun t => t.setRing 71 { ents := List.replicate 256 0, lastWr := some 0, gap := true, gaps := 0xFFFFFFFF, post := 0 }, 65536 * 4, 0, 71, { code := 0x0C, arg16 := 1, arg64 := 2, lost := false }, by decide +kernel, by decide +kernel, by decide +kernel, by decide +kernel, by decide +kernel, by decide +kernel⟩,
    ⟨tuS fun t => { t with frz := { t.frz with frozen := some (3, 0) } }, 65536 * 4, 0, 0, { code := 0x01, arg16 := 1, arg64 := 2, lost := false }, by decide +kernel, by decide +kernel, by decide +kernel, by decide +kernel⟩,
    ⟨State.reset, 65536 * 2 ^ 39, 0, 72, by decide +kernel, by decide +kernel⟩,
    ⟨tuS fun t => { t.wr 0x2770 8 1 with discovered := true }, 65536, 0, by decide +kernel, by decide +kernel⟩,
    ⟨tuS fun t => { t.wr 0x2770 8 1 with frz := { t.frz with frozen := some (2, 0) } }, 65536, 0, by decide +kernel, by decide +kernel⟩,
    ⟨tuS fun t => { t.wr 0x2770 6 1 with frz := { t.frz with awaiting := 1 } }, 65536000, 0, by decide +kernel, by decide +kernel, by decide +kernel, by decide +kernel⟩,
    ⟨State.reset, 65536000, 0, .operate, by decide +kernel, by decide +kernel⟩,
    ⟨tuS fun t => { t.setRing 5 { ents := [0], lastWr := none, gap := true, gaps := 0, post := 9 } with frz := { t.frz with frozen := some (3, 0) } }, 65536000, 0, .operate, 3, 0, 5, by decide +kernel, by decide +kernel, by decide +kernel⟩,
    ⟨tuS fun t => { t with discovered := true, frz := { t.frz with frozen := some (3, 0), readout := [(5, 0), (6, 0)] } }, 65536000, 0, 5, 0, [(6, 0)], by decide +kernel, by decide +kernel⟩,
    ⟨tuS fun t => { t with frz := { t.frz with frozen := some (3, 0), readout := [(5, 1), (6, 0)] } }, 65536000, 0, 5, 1, [(6, 0)], by decide +kernel, by decide +kernel⟩⟩

theorem witness_MaceChecks :
  (∃ (s : State) (dt : Nat) (p : Port) (tile : Fin 72) (r : CheckRec),
    (s.tu p).part.flag 0x2900 1 = true ∧ r.bufFull = false ∧ (((s.tu p).tick dt).charge 3 25000 (decide ((s.tu
    p).mace.intake.length < 64))).2 = 0 ∧ ((List.range 9).all fun k => !((s.tu p).mace.lane k).inService || ((s.tu
    p).mace.lane k).held.isSome) = true) ∧
  (∃ (s : State) (dt : Nat) (p : Port) (tile : Fin 72) (r : CheckRec),
    (s.tu p).part.flag 0x2900 1 = true ∧ r.bufFull = false ∧ (((s.tu p).tick dt).charge 3 25000 (decide ((s.tu
    p).mace.intake.length < 64))).2 = 0 ∧ (s.tu p).mace.intake = [] ∧ ((s.tu p).mace.lane 0).inService = true ∧ ((s.tu
    p).mace.lane 0).held = none) ∧
  (∃ (s : State) (dt : Nat) (p : Port) (k : Fin 9) (sig : Option TileSig) (c : Chk),
    ((s.tu p).mace.lane k.val).held = some c ∧ c.malformed = false ∧ c.saturated = false ∧ c.replay = false ∧ c.gated =
    false ∧ foldVerdict ((s.tu p).folds c) = .pass ∧ (s.tu p).part.flag 0x2940 1 = false ∧ (s.tu p).mace.intake = [] ∧ 8 ≤
    (s.tu p).mace.inService) ∧
  (∃ (s : State) (dt : Nat) (p : Port) (k : Fin 9) (sig : Option TileSig) (c : Chk),
    ((s.tu p).mace.lane k.val).held = some c ∧ c.malformed = false ∧ c.saturated = false ∧ c.replay = false ∧ foldVerdict
    ((s.tu p).folds c) = .fail ∧ (s.tu p).mace.queue.length < 64 ∧ (s.tu p).rd 0x2900 4 = 0) ∧
  (∃ (s : State) (dt : Nat) (p : Port) (k : Fin 9),
    ((s.tu p).mace.lane k.val).inService = true) ∧
  (∃ (s : State) (dt : Nat) (p : Port),
    ((s.tu p).tick dt).ts % (1000 * (s.tu p).rd 0x2900 3) = 0) ∧
  (∃ (s : State) (dt : Nat) (p : Port) (lvl : Level) (v : Byte),
    1 ≤ Level.rank lvl ∧ v.toNat ≤ 1) ∧
  (∃ (s : State) (dt : Nat) (p : Port) (lvl : Level) (v : Byte),
    1 ≤ Level.rank lvl ∧ (v.toNat = 1 ∨ (v.toNat = 0 ∧ (s.tu p).part.flag 0x2930 1 = false))) :=
  ⟨⟨tuS fun t => { t.wr 0x2900 1 1 with discovered := true, mace := { t.mace with lanes := (List.range 8).map fun k => (k, { inService := true, retired := false, held := some chkPass }) } }, 65536, 0, 71, { words := passWords, bufFull := false }, by decide +kernel, by decide +kernel, by decide +kernel, by decide +kernel⟩,
    ⟨tuS fun t => { t.wr 0x2900 1 1 with discovered := true }, 65536, 0, 71, { words := passWords, bufFull := false }, by decide +kernel, by decide +kernel, by decide +kernel, by decide +kernel, by decide +kernel, by decide +kernel⟩,
    ⟨tuS fun t => { t.wr 0x2900 1 1 with discovered := true, mace := { t.mace with lanes := [(3, { inService := true, retired := false, held := some chkPass })] } }, 65536, 0, 3, none, chkPass, by decide +kernel, by decide +kernel, by decide +kernel, by decide +kernel, by decide +kernel, by decide +kernel, by decide +kernel, by decide +kernel, by decide +kernel⟩,
    ⟨tuS fun t => { (t.wr 0x2900 1 1).wr 0x2900 4 0 with discovered := true, mace := { t.mace with lanes := [(3, { inService := true, retired := false, held := some chkFail })] } }, 65536, 0, 3, none, chkFail, by decide +kernel, by decide +kernel, by decide +kernel, by decide +kernel, by decide +kernel, by decide +kernel, by decide +kernel⟩,
    ⟨State.reset, 65536, 0, 3, by decide +kernel⟩,
    ⟨tuS fun t => { t with discovered := true, mace := { t.mace with hist := [(5, Hist.zero)] } }, 0, 0, by decide +kernel⟩,
    ⟨State.reset, 65536, 0, .operate, 1, by decide +kernel, by decide +kernel⟩,
    ⟨State.reset, 65536, 0, .operate, 0, by decide +kernel, by decide +kernel⟩⟩

theorem witness_TaintWatermarkAndShadow :
  (∃ (s : State) (dt : Nat) (p : Port) (x : Taint),
    (s.tu p).mace.queue = [x] ∧ (((s.tu p).tick dt).offer 8 1 30000 [((s.tu p).tick dt).mkRec 0x08 0x0680 x.tile x.gslot
    x.tc x.pay]).2 = true) ∧
  (∃ (s : State) (dt : Nat) (p : Port) (n : BitVec 32) (w : OpenWin),
    ((s.tu p).mace.windows.find? fun w => w.t.serial == n.toNat) = some w ∧ w.due ≤ ((s.tu p).tick dt).ns ∧ (s.tu
    p).mace.queue.length < 64) ∧
  (∃ (s : State) (dt : Nat) (p : Port) (tile : Fin 72) (r : RangeAcc),
    ((s.tu p).mace.ranges.find? fun r => r.tile == tile.val) = some r ∧ (s.tu p).mace.queue.length < 64) ∧
  (∃ (s : State) (dt : Nat) (p : Port) (lvl : Level) (n : BitVec 32) (r : Rec),
    1 ≤ Level.rank lvl ∧ ((s.tu p).mace.history.filter fun r => r.fld 672 32 == n.toNat).getLast? = some r ∧ (s.tu
    p).mace.queue.length < 64) ∧
  (∃ (s : State) (dt : Nat) (p : Port) (lvl : Level) (n : BitVec 32),
    1 ≤ Level.rank lvl ∧ ((s.tu p).mace.history.filter fun r => r.fld 672 32 == n.toNat) = []) ∧
  (∃ (s : State) (dt : Nat) (p : Port),
    ((s.tu p).tick dt).ts % 4000 = 0 ∧ (s.tu p).part.time.servo = .locked ∧ (s.tu p).link.st = .up) ∧
  (∃ (s : State) (dt : Nat) (p : Port) (n : BitVec 32) (r : Replay),
    ((s.tu p).mace.replays.find? fun r => r.ref == n.toNat) = some r ∧ r.at64 + 1000000 * (s.tu p).rd 0x2900 5 ≤ ((s.tu
    p).tick dt).ns) ∧
  (∃ (s : State) (dt : Nat) (p : Port) (lvl : Level),
    1 ≤ Level.rank lvl ∧ (s.tu p).part.flag 0x2940 1 = false ∧ s.fy.dec.shadows = []) ∧
  (∃ (s : State) (dt : Nat) (p : Port) (lvl : Level) (k : Nat) (x : ShadowPair),
    1 ≤ Level.rank lvl ∧ (s.tu p).part.flag 0x2940 1 = false ∧ s.fy.dec.shadows = [(k, x)] ∧ dieMatch x.cand (s.fy.dieOf
    p.val) = true ∧ x.running = false) ∧
  (∃ (s : State) (dt : Nat) (k : Fin 16) (x : ShadowPair),
    tfind s.fy.dec.shadows k.val = some x) ∧
  (∃ (s : State) (dt : Nat) (lvl : Level) (v : List Byte),
    1 ≤ Level.rank lvl ∧ v.length % 8 = 0 ∧ v.length ≤ 128 ∧ ((pairsOf (v.length / 8) v).all fun x => (s.fy.portOfDie
    x.1).isSome && (s.fy.portOfDie x.2).isSome) = true ∧ s.fy.dec.shadows = []) :=
  ⟨⟨tuS fun t => { t with discovered := true, mace := { t.mace with queue := [taint5], failHeld := [(5, 1, 0)] } }, 65536, 0, taint5, by decide +kernel, by decide +kernel⟩,
    ⟨tuS fun t => { t with discovered := true, mace := { t.mace with windows := [{ t := taint5, due := 1 }] } }, 65536, 0, 5, { t := taint5, due := 1 }, by decide +kernel, by decide +kernel, by decide +kernel⟩,
    ⟨tuS fun t => { t with discovered := true, mace := { t.mace with ranges := [{ tile := 1, t := taint5, seqs := [1], last := 0 }] } }, 65536, 0, 1, { tile := 1, t := taint5, seqs := [1], last := 0 }, by decide +kernel, by decide +kernel⟩,
    ⟨tuS fun t => { t with discovered := true, mace := { t.mace with history := [taintRec5] } }, 65536, 0, .operate, 5, taintRec5, by decide +kernel, by decide +kernel, by decide +kernel⟩,
    ⟨State.reset, 65536, 0, .operate, 5, by decide +kernel, by decide +kernel⟩,
    ⟨tuS fun t => { t with link := { t.link with st := .up }, part := { t.part with time := { t.part.time with servo := .locked } } }, 65536 * 8000, 0, by decide +kernel, by decide +kernel, by decide +kernel⟩,
    ⟨tuS fun t => { t with discovered := true, mace := { t.mace with replays := [replay7] } }, 65536 * 100000000000, 0, 7, replay7, by decide +kernel, by decide +kernel⟩,
    ⟨State.reset, 5, 0, .operate, by decide +kernel, by decide +kernel, by decide +kernel⟩,
    ⟨fyS fun f => { f.wr 0x1010 1 4 with dec := { f.dec with shadows := [(0, shadowPair 4 5 false)] } }, 5, 0, .operate, 0, shadowPair 4 5 false, by decide +kernel, by decide +kernel, by decide +kernel, by decide +kernel, by decide +kernel⟩,
    ⟨fyS fun f => { f with dec := { f.dec with shadows := [(0, { shadowPair 4 5 true with waiting := [{ cand := true, r := taintRec5, since := 0 }] })] } }, 65536 * 10000000, 0, { shadowPair 4 5 true with waiting := [{ cand := true, r := taintRec5, since := 0 }] }, by decide +kernel⟩,
    ⟨fyS fun f => ({ f with nodes := [(0, 2), (1, 2)] }.wr 0x1010 1 4).wr 0x1010 2 5, 5, .operate, leBytes 4 4 ++ leBytes 4 5, by decide +kernel, by decide +kernel, by decide +kernel, by decide +kernel, by decide +kernel⟩⟩

theorem witness_ExportArbiter :
  (∃ (s : State) (dt : Nat) (p : Port) (ratios : List Nat) (a : Fin 8),
    ((s.tu p).tick dt).ts % 1000 = 0 ∧ a.val ≠ 6) ∧
  (∃ (s : State) (dt : Nat) (p : Port) (lvl : Level) (a : Fin 9) (v : BitVec 16),
    1 ≤ Level.rank lvl ∧ v.toNat ≤ 4000 ∧ sumBy (fun i => if i = a.val then 0 else (s.tu p).rd 0x2A00 (i + 1)) (List.range
    9) + v.toNat ≤ 8000) ∧
  (∃ (s : State) (dt : Nat) (p : Port) (i : Fin 6),
    ((s.tu p).tick dt).ts % 1000 = 0 ∧ (s.tu p).exp.grant ≠ none) ∧
  (∃ (s : State) (dt : Nat) (p : Port) (lvl : Level) (m : Byte),
    1 ≤ Level.rank lvl) ∧
  (∃ (s : State) (dt : Nat) (p : Port) (g : Grant),
    (s.tu p).exp.dbgPort = none ∧ (s.tu p).exp.grant = some g) ∧
  (∃ (s : State) (dt : Nat) (p : Port) (g : Grant),
    (s.tu p).exp.grant = some g ∧ g.req < 8 ∧ g.since + 100 * 65536000 ≤ ((s.tu p).tick dt).part.time.now ∧ (s.tu p).cuts =
    []) ∧
  (∃ (s : State) (dt : Nat) (p : Port),
    (s.tu p).exp.dbgPort = none) ∧
  (∃ (s : State) (dt : Nat) (p : Port) (ws : List Word) (g : Grant),
    (s.tu p).exp.dbgPort = some (some g)) ∧
  (∃ (s : State) (dt : Nat) (p : Port) (c : Nat) (b : Built),
    (s.tu p).link.st = .up ∧ ((List.range 8).find? fun c => ((s.tu p).tick dt).eligible c) = some c ∧ ((s.tu p).tick
    dt).readyFrame c = some b) :=
  ⟨⟨tuS fun t => { t with exp := { t.exp with used := [(3, 9)] } }, 65536000, 0, [1, 2, 3, 70000], 3, by decide +kernel, by decide +kernel⟩,
    ⟨State.reset, 65536000, 0, .operate, 3, 10, by decide +kernel, by decide +kernel, by decide +kernel⟩,
    ⟨tuS fun t => { t with exp := { t.exp with grant := some grant2 } }, 65536000, 0, 3, by decide +kernel, by decide +kernel⟩,
    ⟨tuS fun t => t.wr 0x2A11 1 0xFF, 65536000, 0, .operate, 0x81, by decide +kernel⟩,
    ⟨tuS fun t => { t with exp := { t.exp with grant := some grant2 } }, 65536000, 0, grant2, by decide +kernel, by decide +kernel⟩,
    ⟨tuS fun t => { t with discovered := true, exp := { t.exp with grant := some grant2, queues := [(3, [{ r := taintRec5, act := 4 }])] } }, 65536000000, 0, grant2, by decide +kernel, by decide +kernel, by decide +kernel, by decide +kernel⟩,
    ⟨tuS fun t => { t with exp := { t.exp with grant := some grant2 } }, 65536000, 0, by decide +kernel⟩,
    ⟨tuS fun t => { t with discovered := true, exp := { t.exp with dbgPort := some (some grant2) } }, 65536000, 0, taintRec5.words, grant2, by decide +kernel⟩,
    ⟨tuS fun t => { t.setShaper 3 { build := [taintRec5], built := [], credit := 0, accrued := 0 } with link := { t.link with st := .up } }, 65536000, 0, 3, { payload := taintRec5.words, records := 1, sumac := false, first := false, last := false }, by decide +kernel, by decide +kernel, by decide +kernel⟩⟩

theorem witness_GatesAndPower :
  (∃ (s : State) (dt : Nat) (p : Port) (lvl : Level) (v : List Byte),
    1 ≤ Level.rank lvl ∧ v.length = 16 ∧ (s.tu p).part.orderAnswer .gateList 0 (fieldAt v 12 4) = .accepted ∧ ((s.tu
    p).part.rdDom 0x2A40 1) ≠ [] ∧ (gateOf ((s.tu p).part.rdDom 0x2A40 1)).pos (time96 v 0) = 0) ∧
  (∃ (s : State) (dt : Nat) (p : Port) (lvl : Level) (v : List Byte) (a : Nat),
    1 ≤ Level.rank lvl ∧ v.length = 16 ∧ (s.tu p).part.orderAnswer .gateList 0 (fieldAt v 12 4) = .refused a ∧ a ≠ 0 ∧
    ((s.tu p).part.rdDom 0x2A40 1) ≠ [] ∧ (gateOf ((s.tu p).part.rdDom 0x2A40 1)).pos (time96 v 0) = 0) ∧
  (∃ (s : State) (dt : Nat) (p : Port) (g : GateList),
    (s.tu p).exp.gate = some g) ∧
  (∃ (s : State) (dt : Nat) (p : Port) (o : Order),
    (s.tu p).part.order? .gateList 0 = some o ∧ o.eff ≤ ((s.tu p).tick dt).ns ∧ (s.tu p).part.turn .gateList o.eff = true) ∧
  (∃ (s : State) (dt : Nat) (p : Port) (id : Fin 16),
    id.val ≠ 0 ∧ ((s.tu p).part.pwrReq id.val).outstanding = true ∧ ((s.tu p).part.pwrReq id.val).wanted = true) ∧
  (∃ (s : State) (dt : Nat) (p : Port) (id : Fin 16),
    ((s.tu p).part.pwrReq id.val).outstanding = true ∧ ((s.tu p).part.pwrReq id.val).wanted = true ∧ ((s.tu p).part.pwrReq
    id.val).st = .pending) ∧
  (∃ (s : State) (dt : Nat) (p : Port) (id : Fin 16),
    id.val ≠ 0 ∧ ((s.tu p).part.pwrReq id.val).st = .granted) ∧
  (∃ (s : State) (dt : Nat) (p : Port) (id : Fin 16),
    ((s.tu p).part.pwrReq id.val).st = .pending ∧ ((s.tu p).part.pwrReq id.val).outstanding = true ∧ ((s.tu p).part.pwrReq
    id.val).since + 10 * 65536000 ≤ (s.tu p).part.time.now + dt) ∧
  (∃ (s : State) (dt : Nat) (p : Port) (id : Fin 16),
    ((s.tu p).part.pwrReq id.val).st = .backoff ∧ ((s.tu p).part.pwrReq id.val).wanted = true ∧ ((s.tu p).part.pwrReq
    id.val).since + ((s.tu p).part.pwrReq id.val).backoffUs * 65536000 ≤ (s.tu p).part.time.now + dt) :=
  ⟨⟨tuS fun t => { t with part := { t.part.wrDom 0x2A40 1 gateBytes with time := { t.part.time with everLocked := true } } }, 65536, 0, .operate, leBytes 8 0 ++ leBytes 4 2000 ++ leBytes 4 9, by decide +kernel, by decide +kernel, by decide +kernel, by decide +kernel, by decide +kernel⟩,
    ⟨tuS fun t => { t with part := t.part.wrDom 0x2A40 1 gateBytes }, 65536, 0, .operate, leBytes 8 0 ++ leBytes 4 2000 ++ leBytes 4 9, 0x2B, by decide +kernel, by decide +kernel, by decide +kernel, by decide +kernel, by decide +kernel, by decide +kernel⟩,
    ⟨tuS fun t => { t with exp := { t.exp with gate := some (gateOf gateBytes) } }, 65536 * 700, 0, gateOf gateBytes, by decide +kernel⟩,
    ⟨tuS fun t => { t with discovered := true, part := t.part.putOrder { kind := .gateList, target := 0, serial := 9, eff := 2000, late := false, data := gateBytes } }, 65536 * 2000, 0, { kind := .gateList, target := 0, serial := 9, eff := 2000, late := false, data := gateBytes }, by decide +kernel, by decide +kernel, by decide +kernel⟩,
    ⟨tuS fun t => { t with part := { t.part with pwr := [(3, pwrPending)] } }, 65536, 0, 3, by decide +kernel, by decide +kernel, by decide +kernel⟩,
    ⟨tuS fun t => { t with part := { t.part with pwr := [(3, pwrPending)] } }, 65536, 0, 3, by decide +kernel, by decide +kernel, by decide +kernel⟩,
    ⟨tuS fun t => { t with part := { t.part with pwr := [(3, { pwrPending with st := .granted, outstanding := false })] } }, 65536, 0, 3, by decide +kernel, by decide +kernel⟩,
    ⟨tuS fun t => { t with part := { t.part with pwr := [(3, pwrPending)] } }, 655360000, 0, 3, by decide +kernel, by decide +kernel, by decide +kernel⟩,
    ⟨tuS fun t => { t with part := { t.part with pwr := [(3, { pwrPending with st := .backoff, backoffUs := 100 })] } }, 6553600000, 0, 3, by decide +kernel, by decide +kernel, by decide +kernel⟩⟩

theorem witness_SumacAndSpares :
  (∃ (s : State) (dt : Nat) (p : Port),
    (s.tu p).sumac.opened + (s.tu p).rd 0x2800 2 * 65536000 ≤ (s.tu p).part.time.now + dt ∧ (s.tu p).sumac.block ≠ []) ∧
  (∃ (s : State) (dt : Nat) (p : Port) (e : Fin 5) (b : List QRec) (r : List (List QRec)),
    (s.tu p).sumac.closed = b :: r) ∧
  (∃ (s : State) (dt : Nat) (e : Fin 5),
    bitOf (s.fy.rd 0x4800 1) e.val = true) ∧
  (∃ (s : State) (dt : Nat) (p : Port) (r : WearReading),
    readingUsable r = true ∧ ((s.tu p).part.wearRead (s.tu p).limits r).2 = false) ∧
  (∃ (s : State) (dt : Nat) (p : Port) (r : WearReading),
    readingUsable r = true ∧ ((s.tu p).part.wearRead (s.tu p).limits r).2 = true ∧ r.unit < 88 ∧ (s.tu p).bankSwapped
    r.unit = false ∧ (s.tu p).freeBank ≠ none) ∧
  (∃ (s : State) (dt : Nat) (p : Port) (u : Nat) (i : Nat),
    u ∈ (s.tu p).part.swapQ ∧ u < 88 ∧ (s.tu p).freeBank = some i) ∧
  (∃ (s : State) (dt : Nat) (e : Fin 18),
    bitOf (s.fy.rd 0x3400 1) e.val = true ∧ s.fy.part.swaps (600 + e.val) = 0) ∧
  (∃ (s : State) (dt : Nat) (l : Fin 72) (i : Nat),
    l.val < 64 ∧ s.fy.jun.logical l.val = some i ∧ bitOf (s.fy.rd 0x4400 1) i = true ∧ s.fy.part.swaps (640 + l.val) = 0) :=
  ⟨⟨tuS fun t => { t with sumac := { t.sumac with block := [{ r := taintRec5, act := 6 }] } }, 65536000000000, 0, by decide +kernel, by decide +kernel⟩,
    ⟨tuS fun t => { t with sumac := { t.sumac with closed := [[{ r := taintRec5, act := 6 }]] } }, 65536, 0, 0, [{ r := taintRec5, act := 6 }], [], by decide +kernel⟩,
    ⟨fyS fun f => f.wr 0x4800 1 0xF, 5, 2, by decide +kernel⟩,
    ⟨State.reset, 65536, 0, { unit := 3, monitor := .margin, value := 1000, sameAddr := 0 }, by decide +kernel, by decide +kernel⟩,
    ⟨State.reset, 65536, 0, { unit := 87, monitor := .ecc, value := 0, sameAddr := 3 }, by decide +kernel, by decide +kernel, by decide +kernel, by decide +kernel, by decide +kernel⟩,
    ⟨tuS fun t => { t with part := { t.part with swapQ := [87] }, spares := [(0, 5)] }, 65536, 0, 87, 1, by decide +kernel, by decide +kernel, by decide +kernel⟩,
    ⟨fyS fun f => f.wr 0x3400 1 0xFFFF, 5, 2, by decide +kernel, by decide +kernel⟩,
    ⟨fyS fun f => f.wr 0x4400 1 0xFFFF, 5, 2, 2, by decide +kernel, by decide +kernel, by decide +kernel, by decide +kernel⟩⟩

theorem witness_HoldsAndDumps :
  (∃ (s : State) (dt : Nat) (lvl : Level) (tag : BitVec 32),
    1 ≤ Level.rank lvl ∧ (s.fy.holds.any fun h => h.2.tag == tag.toNat) = true) ∧
  (∃ (s : State) (dt : Nat) (lvl : Level) (tag : BitVec 32),
    1 ≤ Level.rank lvl ∧ (s.fy.holds.any fun h => h.2.tag == tag.toNat) = false) ∧
  (∃ (s : State) (dt : Nat) (k : Fin 8) (x : Hold),
    tfind s.fy.holds k.val = some x ∧ s.fy.rd 0x6809 2 ≠ 0 ∧ x.since + s.fy.rd 0x6809 2 * 1000000000 < (s.fy.tick dt).ns) ∧
  (∃ (s : State) (dt : Nat) (lvl : Level) (p : Fin 32) (v : BitVec 16),
    2 ≤ Level.rank lvl ∧ 64 ≤ v.toNat ∧ v.toNat ≤ 16384 ∧ sumBy (fun q => if q = p.val then 0 else (s.fy.partition q).size)
    (List.range 32) + v.toNat ≤ 131072 ∧ (s.fy.link p.val).st = .down ∧ s.fy.pinnedSegs p.val = []) ∧
  (∃ (s : State) (dt : Nat) (lvl : Level) (p : Fin 32) (v : BitVec 16),
    2 ≤ Level.rank lvl ∧ (v.toNat < 64 ∨ 16384 < v.toNat)) ∧
  (∃ (s : State) (dt : Nat) (lvl : Level) (ch : Fin 4) (n : BitVec 32),
    1 ≤ Level.rank lvl ∧ s.fy.dumpCode (s.fy.dump ch.val) (s.fy.part.rdDom (0x6840 + ch.val) 1) = 0 ∧ s.fy.rd 0x7880 2 ≠ 1
    ∧ (s.fy.part.pwrReq (1 + ch.val)).wanted = false) ∧
  (∃ (s : State) (dt : Nat) (lvl : Level) (ch : Fin 4),
    1 ≤ Level.rank lvl ∧ (s.fy.dump ch.val).state = 2) ∧
  (∃ (s : State) (dt : Nat) (lvl : Level) (ch : Fin 4),
    1 ≤ Level.rank lvl ∧ (s.fy.dump ch.val).state ≠ 1 ∧ (s.fy.dump ch.val).state ≠ 2) ∧
  (∃ (s : State) (dt : Nat) (ch : Fin 4),
    (s.fy.dump ch.val).state = 2) ∧
  (∃ (s : State) (dt : Nat) (ch : Fin 4) (q : Nat) (n : Nat) (r : List (Nat × Nat)) (x : Seg),
    (s.fy.dump ch.val).state = 2 ∧ (s.fy.dump ch.val).todo = (q, n) :: r ∧ r ≠ [] ∧ q ≠ 0xFE ∧ (s.fy.dump ch.val).here =
    true ∧ (s.fy.dump ch.val).isOpen = false ∧ (s.fy.dump ch.val).unpinned = false ∧ (s.fy.dump ch.val).abort = false ∧
    ((s.fy.partition q).segs.find? fun s => s.serial == n) = some x ∧ (s.fy.dump ch.val).bytes + (x.form (fieldAt
    (s.fy.dump ch.val).spec 1 1) q (s.fy.pinMask q n)).length ≤ fieldAt (s.fy.dump ch.val).spec 40 8) :=
  ⟨⟨fyS fun f => { f with holds := [(0, hold7), (2, { hold7 with tag := 8 })] }, 5, .operate, 7, by decide +kernel, by decide +kernel⟩,
    ⟨fyS fun f => { f with holds := [(0, hold7)] }, 5, .operate, 9, by decide +kernel, by decide +kernel⟩,
    ⟨fyS fun f => { f.wr 0x6809 2 1 with holds := [(0, hold7)] }, 65536 * 1000000001, 0, hold7, by decide +kernel, by decide +kernel, by decide +kernel⟩,
    ⟨State.reset, 5, .service, 3, 64, by decide +kernel, by decide +kernel, by decide +kernel, by decide +kernel, by decide +kernel, by decide +kernel⟩,
    ⟨State.reset, 5, .service, 3, 63, by decide +kernel, by decide +kernel⟩,
    ⟨fyS fun f => { f with part := f.part.wrDom 0x6842 1 (dumpSpec 0 1) }, 5, .operate, 2, 77, by decide +kernel, by decide +kernel, by decide +kernel, by decide +kernel⟩,
    ⟨fyS fun f => f.setDump 2 dump2, 5, .operate, 2, by decide +kernel, by decide +kernel⟩,
    ⟨State.reset, 5, .operate, 2, by decide +kernel, by decide +kernel, by decide +kernel⟩,
    ⟨fyS fun f => f.setDump 2 dump2, 5, 2, by decide +kernel⟩,
    ⟨fyS fun f => { f.setDump 2 dump2 with ring := [(3, { Partition.empty 4096 with segs := [seg1], next := 2 })] }, 5, 2, 3, 1, [(3, 2)], seg1, by decide +kernel, by decide +kernel, by decide +kernel, by decide +kernel, by decide +kernel, by decide +kernel, by decide +kernel, by decide +kernel, by decide +kernel, by decide +kernel⟩⟩

theorem witness_CutInTu :
  (∃ (s : State) (dt : Nat) (p : Port) (r : Rec),
    r.type = 0x0D ∧ r.fld 192 8 = 1 ∧ (s.tu p).part.orderAnswer .cut (r.fld 224 32) (r.fld 384 32) = .accepted) ∧
  (∃ (s : State) (dt : Nat) (p : Port) (r : Rec) (o : Order),
    r.type = 0x0D ∧ r.fld 192 8 = 5 ∧ (s.tu p).part.order? .cut (r.fld 224 32) = some o ∧ o.serial = r.fld 384 32 ∧ ((s.tu
    p).tick dt).ns < o.eff) ∧
  (∃ (s : State) (dt : Nat) (p : Port) (id : BitVec 32) (l : List LinkTap) (o : Order),
    (s.tu p).part.order? .cut id.toNat = some o ∧ o.eff ≤ ((s.tu p).tick dt).ns ∧ (s.tu p).cuts.length < 2) ∧
  (∃ (s : State) (dt : Nat) (p : Port) (id : BitVec 32) (l : List LinkTap) (o : Order),
    (s.tu p).part.order? .cut id.toNat = some o ∧ o.eff ≤ ((s.tu p).tick dt).ns ∧ 2 ≤ (s.tu p).cuts.length ∧ ((s.tu
    p).cuts.all fun c => c.cutId != id.toNat) = true) ∧
  (∃ (s : State) (dt : Nat) (p : Port) (id : BitVec 32) (c : CutSet),
    ((s.tu p).cuts.find? fun c => c.cutId == id.toNat) = some c ∧ c.taken + s.fy.rd 0x6830 6 * 1000000 ≤ ((s.tu p).tick
    dt).ns) :=
  ⟨⟨tuS fun t => { t with discovered := true, part := { t.part with time := { t.part.time with everLocked := true } } }, 65536, 0, cutRec9 1, by decide +kernel, by decide +kernel, by decide +kernel⟩,
    ⟨tuS fun t => { t with part := { t.part with orders := [cutOrder9] }, cutsPending := [5000] }, 65536, 0, cutRec9 5, cutOrder9, by decide +kernel, by decide +kernel, by decide +kernel, by decide +kernel, by decide +kernel⟩,
    ⟨tuS fun t => { t with discovered := true, part := { t.part with orders := [cutOrder9] } }, 65536 * 5000, 0, 9, [], cutOrder9, by decide +kernel, by decide +kernel, by decide +kernel⟩,
    ⟨tuS fun t => { t with discovered := true, cuts := [cutSet 3, cutSet 4], part := { t.part with orders := [cutOrder9] } }, 65536 * 5000, 0, 9, [], cutOrder9, by decide +kernel, by decide +kernel, by decide +kernel, by decide +kernel⟩,
    ⟨tuS fun t => { t with discovered := true, cuts := [cutSet 3, cutSet 4] }, 65536 * 60000000000, 0, 4, cutSet 4, by decide +kernel, by decide +kernel⟩⟩

theorem witness_CutInFyster :
  (∃ (s : State) (dt : Nat) (lvl : Level) (v : List Byte) (k : Nat),
    1 ≤ Level.rank lvl ∧ s.fy.part.heldSerial .cut (fieldAt v 0 4) ≠ some (fieldAt v 4 4) ∧ (s.fy.tick dt).cutCode v = 0 ∧
    s.fy.cutPlace (fieldAt v 0 4) = some k ∧ fieldAt v 20 1 = 1) ∧
  (∃ (s : State) (dt : Nat) (lvl : Level) (v : List Byte),
    1 ≤ Level.rank lvl ∧ s.fy.part.heldSerial .cut (fieldAt v 0 4) ≠ some (fieldAt v 4 4) ∧ (s.fy.tick dt).cutCode v = 0) ∧
  (∃ (s : State) (dt : Nat) (lvl : Level) (v : List Byte) (k : Nat) (c : CutSlot),
    1 ≤ Level.rank lvl ∧ v.length = 8 ∧ s.fy.cutSlot (fieldAt v 0 4) = some (k, c) ∧ c.serial = fieldAt v 4 4 ∧
    (s.fy.part.order? .cut (fieldAt v 0 4)).isSome = true ∧ (s.fy.tick dt).ns < c.tf) ∧
  (∃ (s : State) (dt : Nat) (g : GSlot) (lv : Fin 3) (sub : Fin 2) (x : Grp) (r : Role),
    s.fy.grp g.val = some x ∧ x.roleAt lv.val = some r ∧ fieldAt (s.fy.ledger (roleArea g.val lv.val + downOfs lv.val
    sub.val + 56) 32) 0 4 ≠ 0 ∧ fieldAt (s.fy.ledger (roleArea g.val lv.val + downOfs lv.val sub.val + 56) 32) 20 1 ≠ 0 ∧
    s.fy.part.orderAnswer .cut (fieldAt (s.fy.ledger (roleArea g.val lv.val + downOfs lv.val sub.val + 56) 32) 0 4)
    (fieldAt (s.fy.ledger (roleArea g.val lv.val + downOfs lv.val sub.val + 56) 32) 4 4) = .accepted ∧ (s.fy.cutPlace
    (fieldAt (s.fy.ledger (roleArea g.val lv.val + downOfs lv.val sub.val + 56) 32) 0 4)).isSome = true) ∧
  (∃ (s : State) (dt : Nat) (id : BitVec 32) (i : Nat) (k : Nat) (c : CutSlot) (y : CutChild),
    s.fy.cutSlot id.toNat = some (k, c) ∧ c.children[i]? = some y ∧ y.acked = false ∧ y.missing = false ∧ y.second = false
    ∧ y.sentAt + s.fy.rd 0x6830 3 * 1000 ≤ (s.fy.tick dt).ns) ∧
  (∃ (s : State) (dt : Nat) (id : BitVec 32) (i : Nat) (k : Nat) (c : CutSlot) (y : CutChild),
    s.fy.cutSlot id.toNat = some (k, c) ∧ c.children[i]? = some y ∧ y.acked = false ∧ y.missing = false ∧ y.second = true ∧
    y.kind = 0 ∧ y.sentAt + s.fy.rd 0x6830 3 * 1000 ≤ (s.fy.tick dt).ns) ∧
  (∃ (s : State) (dt : Nat) (id : BitVec 32) (o : Order) (k : Nat) (c : CutSlot),
    s.fy.part.order? .cut id.toNat = some o ∧ s.fy.cutSlot id.toNat = some (k, c) ∧ o.eff ≤ (s.fy.tick dt).ns) ∧
  (∃ (s : State) (dt : Nat) (id : BitVec 32) (k : Nat) (c : CutSlot),
    s.fy.cutSlot id.toNat = some (k, c) ∧ c.issuer = true ∧ c.summarised = false ∧ c.tf + s.fy.rd 0x6830 4 * 1000000 ≤
    (s.fy.tick dt).ns) ∧
  (∃ (s : State) (dt : Nat) (id : BitVec 32) (k : Nat) (c : CutSlot),
    s.fy.cutSlot id.toNat = some (k, c) ∧ c.takenAt.isSome = true ∧ c.tf + s.fy.rd 0x6830 4 * 1000000 ≤ (s.fy.tick dt).ns) :=
  ⟨⟨fyReady, 5, .operate, cutBytes 1 0, 0, by decide +kernel, by decide +kernel, by decide +kernel, by decide +kernel, by decide +kernel⟩,
    ⟨{ fyReady with fy := { fyReady.fy with red := { fyReady.fy.red with groups := [(1, cutGroup)] } } }, 5, .operate, cutBytes 2 40, by decide +kernel, by decide +kernel, by decide +kernel⟩,
    ⟨fyS fun f => { f with cuts := [(2, cutSlot9)], part := { f.part with orders := [cutOrder9] } }, 5, .operate, leBytes 8 (9 + 2 ^ 32), 2, cutSlot9, by decide +kernel, by decide +kernel, by decide +kernel, by decide +kernel, by decide +kernel, by decide +kernel⟩,
    ⟨{ fyReady with fy := { fyReady.fy.putLedger (roleArea 1 0 + downOfs 0 0 + 56) (cutBytes 2 40) with red := { (fyReady.fy.putLedger (roleArea 1 0 + downOfs 0 0 + 56) (cutBytes 2 40)).red with groups := [(1, cutGroup)] } } }, 5, 1, 0, 0, cutGroup, roleL1, by decide +kernel, by decide +kernel, by decide +kernel, by decide +kernel, by decide +kernel, by decide +kernel⟩,
    ⟨fyS fun f => { f with cuts := [(2, cutSlot9)] }, 65536 * 100000000, 9, 1, 2, cutSlot9, cutChild 0 1 0, by decide +kernel, by decide +kernel, by decide +kernel, by decide +kernel, by decide +kernel, by decide +kernel⟩,
    ⟨fyS fun f => { f with cuts := [(2, { cutSlot9 with children := [{ cutChild 0 1 0 with second := true }] })] }, 65536 * 100000000, 9, 0, 2, { cutSlot9 with children := [{ cutChild 0 1 0 with second := true }] }, { cutChild 0 1 0 with second := true }, by decide +kernel, by decide +kernel, by decide +kernel, by decide +kernel, by decide +kernel, by decide +kernel, by decide +kernel⟩,
    ⟨fyS fun f => { f with cuts := [(2, { cutSlot9 with oflags := 3 })], part := { f.part with orders := [cutOrder9] } }, 65536 * 5000, 9, cutOrder9, 2, { cutSlot9 with oflags := 3 }, by decide +kernel, by decide +kernel, by decide +kernel⟩,
    ⟨fyS fun f => { f with cuts := [(2, { cutSlot9 with issuer := true })] }, 65536 * 90000000000, 9, 2, { cutSlot9 with issuer := true }, by decide +kernel, by decide +kernel, by decide +kernel, by decide +kernel⟩,
    ⟨fyS fun f => { f with cuts := [(2, { cutSlot9 with takenAt := some 5 })], holds := [(0, { hold7 with tag := 9, cause := 1, ranges := [(3, 1, none)] })] }, 65536 * 90000000000, 9, 2, { cutSlot9 with takenAt := some 5 }, by decide +kernel, by decide +kernel, by decide +kernel⟩⟩

theorem witness_ArmMessages :
  (∃ (s : State) (dt : Nat) (src : BitVec 16) (b : List Byte) (d : List Byte) (k : Nat) (sect : Nat),
    armGood b = true ∧ (armMsg b).kind = 1 ∧ (armMsg b).role ≠ 0 ∧ d.length = (armMsg b).len ∧ crc32c d = (armMsg b).crc ∧
    dKind d = 1 ∧ ((List.range (dNl2 d)).find? fun i => sectionOfs d i (dSectionsAt d) == (armMsg b).sect).getD 0 = sect ∧
    s.fy.part.heldSerial .membership (armMsg b).group ≠ some (armMsg b).serial ∧ (s.fy.tick dt).armCode d (armMsg b)
    (newRole ((armMsg b).role - 1) (armMsg b).standby (armMsg b).index sect (peerTray d ((armMsg b).role - 1) (armMsg
    b).index sect (armMsg b).standby)) = 0 ∧ s.fy.armPlace (dSlot d) (armMsg b).group = some k ∧ s.fy.grp k = none) ∧
  (∃ (s : State) (dt : Nat) (lvl : Level) (v : List Byte) (k : Nat),
    1 ≤ Level.rank lvl ∧ s.fy.part.heldSerial .membership (dGroup v) ≠ some (dSerial v) ∧ (s.fy.tick dt).armOrderCode v = 0
    ∧ dKind v = 1 ∧ s.fy.armPlace (dSlot v) (dGroup v) = some k ∧ s.fy.grp k = none) ∧
  (∃ (s : State) (dt : Nat) (lvl : Level) (v : List Byte) (k : Nat) (x : Grp),
    1 ≤ Level.rank lvl ∧ s.fy.part.heldSerial .membership (dGroup v) ≠ some (dSerial v) ∧ (s.fy.tick dt).armOrderCode v = 0
    ∧ dKind v = 2 ∧ s.fy.armKey (dGroup v) = some k ∧ s.fy.grp k = some x ∧ x.id = dGroup v ∧ x.state = 3) ∧
  (∃ (s : State) (dt : Nat) (src : BitVec 16) (b : List Byte) (k : Nat) (lv : Nat) (key : Nat) (c : ArmChild),
    s.fy.answered src.toNat b 2 = some (k, lv, key) ∧ s.fy.armChildAt k lv key = some c) ∧
  (∃ (s : State) (dt : Nat) (src : BitVec 16) (b : List Byte) (k : Nat) (lv : Nat) (key : Nat) (c : ArmChild),
    s.fy.answered src.toNat b 3 = some (k, lv, key) ∧ s.fy.armChildAt k lv key = some c) ∧
  (∃ (s : State) (dt : Nat) (src : BitVec 16) (b : List Byte) (k : Nat) (x : Grp) (r : Role) (t : Nat × (Nat × Nat) × Nat × Nat × Bool),
    armGood b = true ∧ (armMsg b).kind = 4 ∧ s.fy.armKey (armMsg b).group = some k ∧ s.fy.grp k = some x ∧ (x.roles.find?
    fun r => r.level == (armMsg b).role && r.standby && r.peer == src.toNat) = some r ∧ ((armTargets (if dKind x.latest = 1
    then x.latest else x.desc) r).find? fun t => t.1 == armChildKey (armMsg b).index (armMsg b).standby) = some t) ∧
  (∃ (s : State) (dt : Nat) (g : GSlot) (lv : Fin 3) (key : Nat) (c : ArmChild),
    s.fy.armChildAt g.val lv.val key = some c ∧ c.state = 5 ∧ c.sentAt + 200000 ≤ (s.fy.tick dt).ns) ∧
  (∃ (s : State) (dt : Nat) (w : Nat × Nat × List Byte),
    s.fy.red.armWait = [w] ∧ (s.fy.red.armSent.filter fun t => decide ((s.fy.tick dt).ns < t + 100000)).length < s.fy.rd
    0x3140 4) :=
  ⟨⟨fyReady, 5, 6, armNotice9, armDesc9, 3, 0, by decide +kernel, by decide +kernel, by decide +kernel, by decide +kernel, by decide +kernel, by decide +kernel, by decide +kernel, by decide +kernel, by decide +kernel, by decide +kernel, by decide +kernel⟩,
    ⟨fyReady, 5, .operate, armDesc9, 3, by decide +kernel, by decide +kernel, by decide +kernel, by decide +kernel, by decide +kernel, by decide +kernel⟩,
    ⟨{ fyReady with fy := fyReady.fy.setGrp 3 armGroup9 }, 5, .operate, tearDesc9, 3, armGroup9, by decide +kernel, by decide +kernel, by decide +kernel, by decide +kernel, by decide +kernel, by decide +kernel, by decide +kernel, by decide +kernel⟩,
    ⟨{ fyReady with fy := { fyReady.fy.setGrp 3 armRoot9 with part := { fyReady.fy.part with held := [held9] } } }, 5, 6, armAnswer9 2, 3, 2, 0, armChild0, by decide +kernel, by decide +kernel⟩,
    ⟨{ fyReady with fy := { fyReady.fy.setGrp 3 armRoot9 with part := { fyReady.fy.part with held := [held9] } } }, 5, 6, armAnswer9 3, 3, 2, 0, armChild0, by decide +kernel, by decide +kernel⟩,
    ⟨{ fyReady with fy := fyReady.fy.setGrp 3 { armGroup9 with roles := [newRole 2 true 0 0 7] } }, 5, 7, armRelay9, 3, { armGroup9 with roles := [newRole 2 true 0 0 7] }, newRole 2 true 0 0 7, (0, (6, 4096), 0, 0, false), by decide +kernel, by decide +kernel, by decide +kernel, by decide +kernel, by decide +kernel, by decide +kernel⟩,
    ⟨{ fyReady with fy := fyReady.fy.setGrp 3 { armRoot9 with roles := [{ newRole 2 false 0 0 7 with children := [(0, { armChild0 with state := 5, resent := true })] }] } }, 65536 * 300000, 3, 2, 0, { armChild0 with state := 5, resent := true }, by decide +kernel, by decide +kernel, by decide +kernel⟩,
    ⟨{ fyReady with fy := { fyReady.fy with red := { fyReady.fy.red with armWait := [(7, 4096, armRelay9)] } } }, 5, (7, 4096, armRelay9), by decide +kernel, by decide +kernel⟩⟩

theorem witness_ArmWaiting :
  (∃ (s : State) (dt : Nat) (g : GSlot) (x : Grp) (r : Nat),
    s.fy.grp g.val = some x ∧ x.state = 2 ∧ (((s.fy.tick dt).rearmTus g.val).admitRole g.val).2 = r) ∧
  (∃ (s : State) (dt : Nat) (g : GSlot) (x : Grp),
    s.fy.grp g.val = some x ∧ x.state = 2 ∧ x.waitSince + s.fy.rd 0x3140 2 * 1000000 ≤ (s.fy.tick dt).ns) ∧
  (∃ (s : State) (dt : Nat) (g : GSlot) (lv : Fin 3) (x : Grp) (r : Role),
    s.fy.grp g.val = some x ∧ x.held lv.val = some r) ∧
  (∃ (s : State) (dt : Nat) (g : GSlot) (q : Nat) (c : ArmChild),
    s.fy.armChildAt g.val 0 q = some c ∧ (c.state = 0 ∨ c.state = 4)) :=
  ⟨⟨{ fyReady with fy := fyReady.fy.setGrp 3 { armGroup9 with state := 2, roles := [{ newRole 0 false 0 0 0 with admitted := true }] } }, 5, 3, { armGroup9 with state := 2, roles := [{ newRole 0 false 0 0 0 with admitted := true }] }, 0, by decide +kernel, by decide +kernel, by decide +kernel⟩,
    ⟨{ fyReady with fy := fyReady.fy.setGrp 3 { armGroup9 with state := 2 } }, 65536 * 60000000000, 3, { armGroup9 with state := 2 }, by decide +kernel, by decide +kernel, by decide +kernel⟩,
    ⟨{ fyReady with fy := fyReady.fy.setGrp 3 armRoot9 }, 5, 3, 2, armRoot9, { newRole 2 false 0 0 7 with children := [(0, armChild0)] }, by decide +kernel, by decide +kernel⟩,
    ⟨{ fyReady with fy := fyReady.fy.setGrp 3 { armGroup9 with roles := [{ newRole 0 false 0 0 0 with children := [(4, { armChild0 with state := 4 })] }] } }, 5, 3, 4, { armChild0 with state := 4 }, by decide +kernel, by decide +kernel⟩⟩

theorem witness_GroupSlots :
  (∃ (s : State) (dt : Nat) (p : Port) (lvl : Level) (g : GSlot) (v : List Byte),
    1 ≤ Level.rank lvl ∧ v.length = 40 ∧ fieldAt v 8 1 = 1 ∧ ((s.tu p).tick dt).armCode g.val v = 0 ∧ ((s.tu p).tgroup
    g.val).state = 0) ∧
  (∃ (s : State) (dt : Nat) (p : Port) (lvl : Level) (g : GSlot) (v : List Byte),
    1 ≤ Level.rank lvl ∧ v.length = 40 ∧ fieldAt v 8 1 = 2 ∧ ((s.tu p).tgroup g.val).state = 3 ∧ ((s.tu p).tgroup g.val).id
    = fieldAt v 0 4 ∧ fieldAt v 0 4 ≠ 0 ∧ ((s.tu p).tgroup g.val).serial < fieldAt v 4 4 ∧ fieldAt v 20 4 ≤ 999999999 ∧
    (s.tu p).part.time.everLocked = true ∧ ((s.tu p).part.orders.filter fun o => o.target != fieldAt v 0 4 || o.kind ==
    .gateList).length < 32) ∧
  (∃ (s : State) (dt : Nat) (p : Port) (g : GSlot),
    ((s.tu p).tgroup g.val).state = 1 ∧ ((s.tu p).tgroup g.val).eff ≤ ((s.tu p).tick dt).ns ∧ (s.tu p).part.turn
    .membership ((s.tu p).tgroup g.val).eff = true) ∧
  (∃ (s : State) (dt : Nat) (g : GSlot) (x : Grp),
    s.fy.grp g.val = some x ∧ x.state = 1 ∧ x.eff ≤ (s.fy.tick dt).ns ∧ s.fy.part.turn .membership x.eff = true) ∧
  (∃ (s : State) (dt : Nat) (p : Port) (g : GSlot) (o : Order),
    (s.tu p).part.order? .membership ((s.tu p).tgroup g.val).id = some o ∧ ((s.tu p).tgroup g.val).state = 3 ∧ ((s.tu
    p).tgroup g.val).leave = none ∧ o.eff ≤ ((s.tu p).tick dt).ns ∧ (s.tu p).part.turn .membership o.eff = true) ∧
  (∃ (s : State) (dt : Nat) (g : GSlot) (x : Grp) (d : List Byte),
    s.fy.grp g.val = some x ∧ x.next = some d ∧ x.state = 3 ∧ dKind d = 1 ∧ dEff d ≤ (s.fy.tick dt).ns ∧ s.fy.part.turn
    .membership (dEff d) = true ∧ s.fy.rolesUnder x d ≠ []) ∧
  (∃ (s : State) (dt : Nat) (p : Port) (g : GSlot) (o : Order),
    (s.tu p).part.order? .grid ((s.tu p).tgroup g.val).id = some o ∧ (((s.tu p).tgroup g.val).state = 3 ∨ ((s.tu p).tgroup
    g.val).state = 5) ∧ o.eff ≤ ((s.tu p).tick dt).ns ∧ (s.tu p).part.turn .grid o.eff = true) ∧
  (∃ (s : State) (dt : Nat) (g : GSlot) (x : Grp) (o : Order),
    s.fy.grp g.val = some x ∧ s.fy.part.order? .grid x.id = some o ∧ (x.state = 3 ∨ x.state = 5) ∧ o.eff ≤ (s.fy.tick
    dt).ns ∧ s.fy.part.turn .grid o.eff = true) ∧
  (∃ (s : State) (dt : Nat) (p : Port) (g : GSlot) (e : Nat),
    ((s.tu p).tgroup g.val).leave = some e ∧ ((s.tu p).tgroup g.val).state = 3 ∧ e ≤ ((s.tu p).tick dt).ns ∧ (s.tu
    p).part.turn .membership e = true) ∧
  (∃ (s : State) (dt : Nat) (g : GSlot) (x : Grp) (e : Nat),
    s.fy.grp g.val = some x ∧ x.endAt = some e ∧ x.state ≠ 5 ∧ e ≤ (s.fy.tick dt).ns ∧ s.fy.part.turn .membership e = true) ∧
  (∃ (s : State) (dt : Nat) (p : Port) (g : GSlot),
    ((s.tu p).tgroup g.val).state = 5 ∧ ((s.tu p).tgroup g.val).release ≤ ((s.tu p).tick dt).ns) ∧
  (∃ (s : State) (dt : Nat) (g : GSlot) (x : Grp) (e : Nat),
    s.fy.grp g.val = some x ∧ x.state = 5 ∧ x.release = some e ∧ e ≤ (s.fy.tick dt).ns) :=
  ⟨⟨tuS fun t => { t with part := { t.part with time := { t.part.time with everLocked := true } } }, 5, 0, .operate, 3, tuArm9 1, by decide +kernel, by decide +kernel, by decide +kernel, by decide +kernel, by decide +kernel⟩,
    ⟨tuS fun t => { t with groups := [(3, { gridGroup with id := 9 })], part := { t.part with time := { t.part.time with everLocked := true } } }, 5, 0, .operate, 3, tuArm9 2, by decide +kernel, by decide +kernel, by decide +kernel, by decide +kernel, by decide +kernel, by decide +kernel, by decide +kernel, by decide +kernel, by decide +kernel, by decide +kernel⟩,
    ⟨tuS fun t => { t with groups := [(3, { gridGroup with state := 1 })], sets := [(2, { SampleSet.zero with follow := true, gslot := 3 })] }, 5, 0, 3, by decide +kernel, by decide +kernel, by decide +kernel⟩,
    ⟨{ fyReady with fy := fyReady.fy.setGrp 3 { armGroup9 with state := 1 } }, 65536 * 60000000000, 3, { armGroup9 with state := 1 }, by decide +kernel, by decide +kernel, by decide +kernel, by decide +kernel⟩,
    ⟨tuS fun t => { t with groups := [(3, { gridGroup with id := 9 })], part := { t.part with orders := [{ kind := .membership, target := 9, serial := 2, eff := 0, late := false, data := tuArm9 1 }] } }, 5, 0, 3, { kind := .membership, target := 9, serial := 2, eff := 0, late := false, data := tuArm9 1 }, by decide +kernel, by decide +kernel, by decide +kernel, by decide +kernel, by decide +kernel⟩,
    ⟨{ fyReady with fy := fyReady.fy.setGrp 3 { armRoot9 with next := some armDesc9 } }, 65536 * 60000000000, 3, { armRoot9 with next := some armDesc9 }, armDesc9, by decide +kernel, by decide +kernel, by decide +kernel, by decide +kernel, by decide +kernel, by decide +kernel, by decide +kernel⟩,
    ⟨tuS fun t => { t with discovered := true, groups := [(3, { gridGroup with id := 9 })], part := { t.part with orders := [{ kind := .grid, target := 9, serial := 2, eff := 0, late := false, data := tuArm9 1 }] } }, 5, 0, 3, { kind := .grid, target := 9, serial := 2, eff := 0, late := false, data := tuArm9 1 }, by decide +kernel, by decide +kernel, by decide +kernel, by decide +kernel⟩,
    ⟨{ fyReady with fy := { fyReady.fy.setGrp 3 armGroup9 with part := { fyReady.fy.part with orders := [{ kind := .grid, target := 9, serial := 2, eff := 0, late := false, data := [] }] } } }, 5, 3, armGroup9, { kind := .grid, target := 9, serial := 2, eff := 0, late := false, data := [] }, by decide +kernel, by decide +kernel, by decide +kernel, by decide +kernel, by decide +kernel⟩,
    ⟨tuS fun t => { t with groups := [(3, { gridGroup with leave := some 0 })] }, 5, 0, 3, 0, by decide +kernel, by decide +kernel, by decide +kernel, by decide +kernel⟩,
    ⟨{ fyReady with fy := fyReady.fy.setGrp 3 { armGroup9 with endAt := some 0 } }, 5, 3, { armGroup9 with endAt := some 0 }, 0, by decide +kernel, by decide +kernel, by decide +kernel, by decide +kernel, by decide +kernel⟩,
    ⟨tuS fun t => { t with groups := [(3, { gridGroup with state := 5 })] }, 5, 0, 3, by decide +kernel, by decide +kernel⟩,
    ⟨{ fyReady with fy := fyReady.fy.setGrp 3 { armGroup9 with state := 5, release := some 0 } }, 5, 3, { armGroup9 with state := 5, release := some 0 }, 0, by decide +kernel, by decide +kernel, by decide +kernel, by decide +kernel⟩⟩

theorem witness_TrayWatermarks :
  (∃ (s : State) (dt : Nat) (p : Port) (x : Tos),
    x.good 3 = true ∧ bitOf (fieldAt x.payload 2 1) 6 = false ∧ (s.fy.wmkOf p.val).waiting = [] ∧ (s.fy.wmkOf
    p.val).gapFrom = none ∧ fieldAt x.payload 4 4 ≤ (s.fy.wmkOf p.val).lastSerial ∧ s.fy.taintWrites = []) ∧
  (∃ (s : State) (dt : Nat) (p : Port) (x : Tos),
    x.good 3 = true ∧ bitOf (fieldAt x.payload 2 1) 6 = false ∧ (s.fy.wmkOf p.val).waiting = [] ∧ (s.fy.wmkOf
    p.val).lastSerial < fieldAt x.payload 4 4) ∧
  (∃ (s : State) (dt : Nat) (p : Port) (x : Tos),
    x.good 3 = false) ∧
  (∃ (s : State) (dt : Nat) (p : Port) (m : WmkWait) (n : Nat),
    s.fy.nodeCode (p.val + 1) = 0 ∧ ((s.fy.wmkOf p.val).waiting.find? fun m => !((s.fy.wmkOf p.val).missing m).isEmpty) =
    some m ∧ (s.fy.wmkOf p.val).missing m = [n] ∧ ((s.fy.wmkOf p.val).resends.find? fun r => r.1 == n) = none ∧ m.since +
    1000 * s.fy.rd 0x4100 1 ≤ (s.fy.tick dt).ns) ∧
  (∃ (s : State) (dt : Nat) (p : Port) (g : GSlot) (n : BitVec 32) (w : TaintWrite),
    (s.fy.taintWrites.find? fun w => w.g == g.val && w.port == p.val && w.serial == n.toNat && !w.held) = some w ∧
    (s.fy.wmkOf p.val).waiting = []) ∧
  (∃ (s : State) (dt : Nat) (p : Port) (x : Tos),
    x.good 4 = true ∧ fieldAt x.payload 2 1 < 64 ∧ ((s.tu p).rd 0x2911 (fieldAt x.payload 2 1 + 1) ≠ fieldAt x.payload 8 8
    ∨ (s.tu p).rd 0x2912 (fieldAt x.payload 2 1 + 1) ≠ fieldAt x.payload 4 4)) ∧
  (∃ (s : State) (dt : Nat) (p : Port) (x : Tos),
    x.good 4 = true ∧ (s.tu p).rd 0x2911 (fieldAt x.payload 2 1 + 1) = fieldAt x.payload 8 8 ∧ (s.tu p).rd 0x2912 (fieldAt
    x.payload 2 1 + 1) = fieldAt x.payload 4 4) :=
  ⟨⟨fyS fun f => f.setWmk 3 { PortWmk.zero with w := 9, lastSerial := 4 }, 5, 3, mkTos 3 (leBytes 28 (packNat [(0, 32), (4, 32), (7, 64), (2, 32), (1, 32), (0, 32)])), by decide +kernel, by decide +kernel, by decide +kernel, by decide +kernel, by decide +kernel, by decide +kernel⟩,
    ⟨fyS fun f => f.setWmk 3 { PortWmk.zero with w := 9, lastSerial := 3 }, 5, 3, mkTos 3 (leBytes 28 (packNat [(0, 32), (4, 32), (7, 64), (2, 32), (1, 32), (0, 32)])), by decide +kernel, by decide +kernel, by decide +kernel, by decide +kernel⟩,
    ⟨State.reset, 5, 3, mkTos 4 [], by decide +kernel⟩,
    ⟨fyS fun f => { (f.setLink 3 { Link.reset with st := .up }).setWmk 3 { PortWmk.zero with waiting := [{ w := 9, last := 1, since := 0, uncertain := false }] } with nodes := [(3, 2)] }, 65536 * 1000000000, 3, { w := 9, last := 1, since := 0, uncertain := false }, 1, by decide +kernel, by decide +kernel, by decide +kernel, by decide +kernel, by decide +kernel⟩,
    ⟨fyS fun f => { f with taintWrites := [{ g := 4, port := 3, serial := 5, held := false, r := taintRec5 }] }, 5, 3, 4, 5, { g := 4, port := 3, serial := 5, held := false, r := taintRec5 }, by decide +kernel, by decide +kernel⟩,
    ⟨State.reset, 5, 3, mkTos 4 (leBytes 20 (packNat [(0, 16), (4, 8), (0, 8), (6, 32), (7, 64), (0, 32)])), by decide +kernel, by decide +kernel, by decide +kernel⟩,
    ⟨tuS fun t => (t.wr 0x2911 5 7).wr 0x2912 5 6, 5, 0, mkTos 4 (leBytes 20 (packNat [(0, 16), (4, 8), (0, 8), (6, 32), (7, 64), (0, 32)])), by decide +kernel, by decide +kernel, by decide +kernel⟩⟩

theorem witness_GroupWatermarks :
  (∃ (s : State) (dt : Nat) (g : GSlot) (x : Grp) (r : Role),
    s.fy.grp g.val = some x ∧ (s.fy.tick dt).wmkInstant x = true ∧ (x.roles.filter fun r => r.level == 0 && r.holder) = [r]
    ∧ r.standby = false) ∧
  (∃ (s : State) (dt : Nat) (g : GSlot) (x : Grp) (r : Role),
    s.fy.grp g.val = some x ∧ x.held 1 = some r ∧ (s.fy.tick dt).wmkInstant x = true) ∧
  (∃ (s : State) (dt : Nat) (g : GSlot) (x : Grp) (r : Role),
    s.fy.grp g.val = some x ∧ x.held 2 = some r ∧ (s.fy.tick dt).wmkInstant x = true) ∧
  (∃ (s : State) (dt : Nat) (p : Port),
    ((s.tu p).tick dt).ts % (1000 * (s.tu p).rd 0x2900 7) = 0) ∧
  (∃ (s : State) (dt : Nat) (g : Nat) (x : Grp),
    (s.fy.tick dt).ts % 1000000 = 0 ∧ s.fy.red.groups = [(g, x)] ∧ g < 64 ∧ x.state = 3) :=
  ⟨⟨{ fyReady with fy := fyReady.fy.setGrp 3 { armGroup9 with roles := [newRole 0 false 0 0 7] } }, 65536 * 4000, 3, { armGroup9 with roles := [newRole 0 false 0 0 7] }, newRole 0 false 0 0 7, by decide +kernel, by decide +kernel, by decide +kernel, by decide +kernel⟩,
    ⟨{ fyReady with fy := fyReady.fy.setGrp 3 { armGroup9 with roles := [newRole 1 false 0 0 7] } }, 65536 * 4000, 3, { armGroup9 with roles := [newRole 1 false 0 0 7] }, newRole 1 false 0 0 7, by decide +kernel, by decide +kernel, by decide +kernel⟩,
    ⟨{ fyReady with fy := fyReady.fy.setGrp 3 armGroup9 }, 65536 * 4000, 3, armGroup9, newRole 2 false 0 0 7, by decide +kernel, by decide +kernel, by decide +kernel⟩,
    ⟨tuS fun t => { t with discovered := true }, 0, 0, by decide +kernel⟩,
    ⟨{ fyReady with fy := fyReady.fy.setGrp 3 armGroup9 }, 65536 * 1000000, 3, armGroup9, by decide +kernel, by decide +kernel, by decide +kernel, by decide +kernel⟩⟩

theorem witness_FramesAndReplay :
  (∃ (s : State) (dt : Nat) (p : Port) (x : RawFrame),
    (s.tu p).link.st = .up ∧ frameSound x = true ∧ (frameHead x.header).kind ≠ 2 ∧ (frameHead x.header).nak = false ∧ (s.tu
    p).link.arrival (frameHead x.header).fseq = .inOrder) ∧
  (∃ (s : State) (dt : Nat) (e : End) (p : Port) (x : RawFrame),
    e = .tuEnd p ∧ (s.tu p).link.st = .up ∧ frameSound x = false) ∧
  (∃ (s : State) (dt : Nat) (p : Port) (x : RawFrame),
    (s.fy.link p.val).st = .up ∧ frameSound x = true ∧ (frameHead x.header).kind = 1 ∧ frameFault (frameHead x.header) true
    = 0 ∧ (frameHead x.header).nak = false ∧ tget s.fy.toTu p.val [] = [] ∧ (s.fy.link p.val).arrival (frameHead
    x.header).fseq = .inOrder) ∧
  (∃ (s : State) (dt : Nat) (p : Port) (x : RawFrame),
    (s.fy.link p.val).st = .up ∧ frameSound x = true ∧ (frameHead x.header).kind ≠ 2 ∧ (((s.fy.tick dt).takeReport p
    (frameHead x.header)).link p.val).arrival (frameHead x.header).fseq = .inOrder) ∧
  (∃ (s : State) (dt : Nat) (p : Port) (x : RawFrame),
    (s.tu p).link.st = .up ∧ frameSound x = true ∧ (frameHead x.header).kind = 2 ∧ (frameHead x.header).plen = 0 ∧
    (frameHead x.header).ackValid = true ∧ (frameHead x.header).nak = false ∧ seqDiff (frameHead x.header).fseq (s.tu
    p).link.rxFseq ≤ 0) ∧
  (∃ (s : State) (dt : Nat) (p : Port) (x : RawFrame),
    (s.fy.link p.val).st = .up ∧ frameSound x = true ∧ (frameHead x.header).kind = 2 ∧ (frameHead x.header).plen = 0 ∧
    (frameHead x.header).ackValid = true ∧ (frameHead x.header).nak = false ∧ tget s.fy.toTu p.val [] = [] ∧ seqDiff
    (frameHead x.header).fseq (s.fy.link p.val).rxFseq ≤ 0) ∧
  (∃ (s : State) (dt : Nat) (p : Port),
    (s.tu p).link.st = .up ∧ (s.tu p).link.ackDue = true) ∧
  (∃ (s : State) (dt : Nat) (p : Port),
    (s.fy.link p.val).st = .up ∧ (s.fy.link p.val).ackDue = true) ∧
  (∃ (s : State) (dt : Nat) (p : Port),
    (s.tu p).link.replayDue ((s.tu p).tick dt).part.time.now = true ∧ (s.tu p).link.stuck = false) ∧
  (∃ (s : State) (dt : Nat) (p : Port),
    (s.fy.link p.val).replayDue (s.fy.tick dt).part.time.now = true ∧ (s.fy.link p.val).stuck = false) :=
  ⟨⟨tuS fun t => { t with link := { t.link with st := .up } }, 5, 0, rawFrame 1 [0], by decide +kernel, by decide +kernel, by decide +kernel, by decide +kernel, by decide +kernel⟩,
    ⟨tuS fun t => { t with link := { t.link with st := .up } }, 5, .tuEnd 0, 0, { rawFrame 1 [0] with crc := 0 }, by decide +kernel, by decide +kernel, by decide +kernel⟩,
    ⟨fyS fun f => f.setLink 0 { Link.reset with st := .up }, 5, 0, rawFrame 1 [0], by decide +kernel, by decide +kernel, by decide +kernel, by decide +kernel, by decide +kernel, by decide +kernel, by decide +kernel⟩,
    ⟨fyS fun f => f.setLink 0 { Link.reset with st := .up }, 5, 0, rawFrame 0 taintRec5.words, by decide +kernel, by decide +kernel, by decide +kernel, by decide +kernel⟩,
    ⟨tuS fun t => { t with link := { t.link with st := .up } }, 5, 0, rawFrame 2 [], by decide +kernel, by decide +kernel, by decide +kernel, by decide +kernel, by decide +kernel, by decide +kernel, by decide +kernel⟩,
    ⟨fyS fun f => f.setLink 0 { Link.reset with st := .up }, 5, 0, rawFrame 2 [], by decide +kernel, by decide +kernel, by decide +kernel, by decide +kernel, by decide +kernel, by decide +kernel, by decide +kernel, by decide +kernel⟩,
    ⟨tuS fun t => { t with link := { t.link with st := .up, ackDue := true } }, 5, 0, by decide +kernel, by decide +kernel⟩,
    ⟨fyS fun f => f.setLink 3 { Link.reset with st := .up, ackDue := true }, 5, 3, by decide +kernel, by decide +kernel⟩,
    ⟨tuS fun t => { t with link := heldLink }, 65536 * 5000, 0, by decide +kernel, by decide +kernel⟩,
    ⟨fyS fun f => f.setLink 3 heldLink, 65536 * 5000, 3, by decide +kernel, by decide +kernel⟩⟩

theorem witness_LinkTraining :
  (∃ (s : State) (dt : Nat) (p : Port) (x : Tos),
    x.good 5 = true ∧ (statusMsg x).restart = false ∧ (statusMsg x).retrain = false) ∧
  (∃ (s : State) (dt : Nat) (p : Port) (x : Tos),
    x.good 5 = true ∧ (statusMsg x).restart = true ∧ (statusMsg x).retrain = false) ∧
  (∃ (s : State) (dt : Nat) (p : Port) (x : Tos),
    x.good 5 = true ∧ (statusMsg x).restart = false ∧ (statusMsg x).retrain = false ∧ tget s.fy.toTu p.val [] = []) ∧
  (∃ (s : State) (dt : Nat) (p : Port),
    (s.tu p).link.st = .up) ∧
  (∃ (s : State) (dt : Nat) (p : Port),
    (s.fy.link p.val).st = .up) ∧
  (∃ (s : State) (dt : Nat) (p : Port),
    (s.tu p).link.st = .up) ∧
  (∃ (s : State) (dt : Nat) (p : Port),
    (s.fy.link p.val).st = .up) ∧
  (∃ (s : State) (dt : Nat) (p : Port),
    (s.tu p).link.st ≠ .up) ∧
  (∃ (s : State) (dt : Nat) (p : Port),
    (s.fy.link p.val).st ≠ .up) ∧
  (∃ (s : State) (dt : Nat) (p : Port) (a : Nat),
    (s.tu p).link.st = .down ∧ (s.tu p).link.failedAt = some a ∧ a + 10000000 * 65536 ≤ ((s.tu p).tick dt).part.time.now) ∧
  (∃ (s : State) (dt : Nat) (p : Port) (a : Nat),
    (s.fy.link p.val).st = .down ∧ (s.fy.link p.val).failedAt = some a ∧ a + 10000000 * 65536 ≤ (s.fy.tick
    dt).part.time.now) ∧
  (∃ (s : State) (dt : Nat) (p : Port) (lvl : Level),
    1 ≤ Level.rank lvl ∧ (s.tu p).link.st = .up) ∧
  (∃ (s : State) (dt : Nat) (p : Port) (lvl : Level),
    1 ≤ Level.rank lvl ∧ (s.fy.link p.val).st = .up) ∧
  (∃ (s : State) (dt : Nat) (p : Port),
    (s.tu p).link.quiesced = true) ∧
  (∃ (s : State) (dt : Nat) (p : Port),
    (s.fy.link p.val).quiesced = true) ∧
  (∃ (s : State) (dt : Nat) (p : Port),
    (s.tu p).link.swapLate ((s.tu p).tick dt).part.time.now = true) ∧
  (∃ (s : State) (dt : Nat) (p : Port),
    (s.fy.link p.val).swapLate (s.fy.tick dt).part.time.now = true) ∧
  (∃ (s : State) (dt : Nat) (p : Port) (r : TrainResult) (m : BitVec 8),
    (s.tu p).link.st ≠ .up ∧ (s.tu p).powered = true ∧ r.status.good 5 = true ∧ laneAssign r.healthy (s.tu p).link.retired
    = some m) ∧
  (∃ (s : State) (dt : Nat) (p : Port) (r : TrainResult) (m : BitVec 8),
    (s.fy.link p.val).st ≠ .up ∧ s.fy.boot.running = true ∧ s.fy.boot.hbm = true ∧ r.status.good 5 = true ∧ (statusMsg
    r.status).restart = false ∧ laneAssign r.healthy (s.fy.link p.val).retired = some m ∧ s.fy.rd 0x1010 (p.val + 1) ≠
    0xFFFFFFFF) ∧
  (∃ (s : State) (dt : Nat) (p : Port) (lvl : Level) (v : BitVec 32),
    2 ≤ Level.rank lvl ∧ bitOf (s.fy.rd 0x1030 7) p.val = true ∧ (s.fy.link p.val).st = .up ∧ tget s.fy.nodes p.val 0 ≠ 2 ∧
    v.toNat ≠ 0xFFFFFFFF) ∧
  (∃ (s : State) (dt : Nat) (p : Port) (lvl : Level) (v : BitVec 32),
    2 ≤ Level.rank lvl ∧ bitOf (s.fy.rd 0x1030 7) p.val = false) :=
  ⟨⟨tuS fun t => { t with link := heldLink }, 5, 0, mkStatus 2 false false 1 4 none, by decide +kernel, by decide +kernel, by decide +kernel⟩,
    ⟨tuS fun t => { t with link := heldLink }, 5, 0, mkStatus 1 true false 1 4 none, by decide +kernel, by decide +kernel, by decide +kernel⟩,
    ⟨fyS fun f => f.setLink 3 heldLink, 5, 3, mkStatus 2 false false 1 4 none, by decide +kernel, by decide +kernel, by decide +kernel, by decide +kernel⟩,
    ⟨tuS fun t => { t with link := heldLink }, 5, 0, by decide +kernel⟩,
    ⟨fyS fun f => f.setLink 3 heldLink, 5, 3, by decide +kernel⟩,
    ⟨tuS fun t => { t with link := heldLink }, 5, 0, by decide +kernel⟩,
    ⟨fyS fun f => { f.setLink 3 heldLink with nodes := [(3, 2)] }, 5, 3, by decide +kernel⟩,
    ⟨State.reset, 5, 0, by decide +kernel⟩,
    ⟨State.reset, 5, 3, by decide +kernel⟩,
    ⟨tuS fun t => { t with link := { t.link with failedAt := some 0 } }, 65536 * 10000000, 0, 0, by decide +kernel, by decide +kernel, by decide +kernel⟩,
    ⟨fyS fun f => f.setLink 3 { Link.reset with failedAt := some 0 }, 65536 * 10000000, 3, 0, by decide +kernel, by decide +kernel, by decide +kernel⟩,
    ⟨tuS fun t => { t with link := heldLink }, 5, 0, .operate, by decide +kernel, by decide +kernel⟩,
    ⟨fyS fun f => f.setLink 3 heldLink, 5, 3, .operate, by decide +kernel, by decide +kernel⟩,
    ⟨tuS fun t => { t with link := { heldLink with swapSince := some 0, ackDue := false } }, 5, 0, by decide +kernel⟩,
    ⟨fyS fun f => f.setLink 3 { heldLink with swapSince := some 0, ackDue := false }, 5, 3, by decide +kernel⟩,
    ⟨tuS fun t => { t with link := { heldLink with swapSince := some 0 } }, 65536 * 10000000, 0, by decide +kernel⟩,
    ⟨fyS fun f => f.setLink 3 { heldLink with swapSince := some 0 }, 65536 * 10000000, 3, by decide +kernel⟩,
    ⟨tuS fun t => { t with powered := true }, 5, 0, trained9, 0x14, by decide +kernel, by decide +kernel, by decide +kernel, by decide +kernel⟩,
    ⟨{ fyReady with fy := fyReady.fy.wr 0x1010 4 4 }, 5, 3, trained9, 0x14, by decide +kernel, by decide +kernel, by decide +kernel, by decide +kernel, by decide +kernel, by decide +kernel, by decide +kernel⟩,
    ⟨fyS fun f => { (f.setLink 3 heldLink).wr 0x1030 7 8 with nodes := [(3, 1)] }, 5, 3, .service, 4, by decide +kernel, by decide +kernel, by decide +kernel, by decide +kernel, by decide +kernel⟩,
    ⟨State.reset, 5, 3, .service, 4, by decide +kernel, by decide +kernel⟩⟩

theorem witness_OtherPortsAndLosses :
  (∃ (s : State) (dt : Nat) (q : Fin 2),
    s.fy.boot.running = true ∧ (s.fy.oob q.val).up = false) ∧
  (∃ (s : State) (dt : Nat) (q : Fin 2),
    (s.fy.oob q.val).up = true) ∧
  (∃ (s : State) (dt : Nat) (q : Fin 2),
    s.fy.boot.running = true ∧ (s.fy.oob q.val).up = false) ∧
  (∃ (s : State) (dt : Nat) (k : Fin 8),
    bitOf (s.fy.rd 0x1170 1) k.val = true) ∧
  (∃ (s : State) (dt : Nat) (p : Port) (cause : Fin 10) (a : Nat),
    ((s.tu p).part.acc a cause.val).fresh = true ∧ ((s.tu p).part.acc a cause.val).active = false) ∧
  (∃ (s : State) (dt : Nat) (p : Port) (cause : Fin 10) (a : Nat),
    ((s.tu p).part.acc a cause.val).fresh = false ∧ ((s.tu p).part.acc a cause.val).active = false) ∧
  (∃ (s : State) (dt : Nat) (cause : Fin 10) (a : Nat),
    (s.fy.part.acc a cause.val).fresh = true ∧ (s.fy.part.acc a cause.val).active = false) :=
  ⟨⟨fyReady, 5, 1, by decide +kernel, by decide +kernel⟩,
    ⟨fyS fun f => f.setOob 1 { f.oob 1 with up := true }, 5, 1, by decide +kernel⟩,
    ⟨fyReady, 5, 1, by decide +kernel, by decide +kernel⟩,
    ⟨fyS fun f => f.wr 0x1170 1 0xFF, 5, 3, by decide +kernel⟩,
    ⟨tuS fun t => { t with discovered := true, part := t.part.setAcc 5 2 { LossAcc.zero with fresh := true, records := 4 } }, 65536, 0, 2, 5, by decide +kernel, by decide +kernel⟩,
    ⟨State.reset, 65536, 0, 2, 5, by decide +kernel, by decide +kernel⟩,
    ⟨fyS fun f => { f with part := f.part.setAcc 5 2 { LossAcc.zero with fresh := true, records := 4 } }, 65536, 2, 5, by decide +kernel, by decide +kernel⟩⟩

theorem witness_CrcUnits :
  (∃ (s : State) (dt : Nat) (p : Port) (lvl : Level) (u : CrcId) (v : Bool) (k : Nat),
    1 ≤ Level.rank lvl ∧ crcKey false u = some k) ∧
  (∃ (s : State) (dt : Nat) (lvl : Level) (u : CrcId) (v : Bool) (k : Nat),
    1 ≤ Level.rank lvl ∧ crcKey true u = some k) ∧
  (∃ (s : State) (dt : Nat) (p : Port) (lvl : Level) (u : CrcId) (k : Nat),
    1 ≤ Level.rank lvl ∧ crcKey false u = some k ∧ crcInPath k = false ∧ ((s.tu p).part.crcUnit k).busy = false) ∧
  (∃ (s : State) (dt : Nat) (p : Port) (lvl : Level) (u : CrcId) (k : Nat),
    1 ≤ Level.rank lvl ∧ crcKey false u = some k ∧ crcInPath k = false) ∧
  (∃ (s : State) (dt : Nat) (lvl : Level) (u : CrcId) (k : Nat),
    1 ≤ Level.rank lvl ∧ crcKey true u = some k ∧ (s.fy.part.crcUnit k).busy = false) ∧
  (∃ (s : State) (dt : Nat) (lvl : Level) (u : CrcId) (k : Nat),
    1 ≤ Level.rank lvl ∧ crcKey true u = some k ∧ (s.fy.part.crcUnit k).busy = true) ∧
  (∃ (s : State) (dt : Nat) (p : Port) (u : CrcId) (k : Nat),
    crcKey false u = some k ∧ crcInPath k = false ∧ ((s.tu p).part.crcUnit k).pause = true ∧ ((s.tu p).part.crcUnit k).busy
    = false) ∧
  (∃ (s : State) (dt : Nat) (u : CrcId) (k : Nat),
    crcKey true u = some k ∧ (s.fy.part.crcUnit k).pause = true ∧ (s.fy.part.crcUnit k).busy = false) ∧
  (∃ (s : State) (dt : Nat) (p : Port) (lvl : Level) (u : CrcId) (k : Nat),
    1 ≤ Level.rank lvl ∧ crcKey false u = some k) ∧
  (∃ (s : State) (dt : Nat) (lvl : Level) (u : CrcId) (k : Nat),
    1 ≤ Level.rank lvl ∧ crcKey true u = some k) ∧
  (∃ (s : State) (dt : Nat) (p : Port) (lvl : Level) (u : CrcId) (b : Bool) (v : Word) (k : Nat),
    1 ≤ Level.rank lvl ∧ crcKey false u = some k ∧ (if crcInPath k then (s.tu p).link.st != .up else ((s.tu p).part.crcUnit
    k).paused) = true) ∧
  (∃ (s : State) (dt : Nat) (lvl : Level) (u : CrcId) (b : Bool) (v : Word) (k : Nat),
    1 ≤ Level.rank lvl ∧ crcKey true u = some k ∧ (s.fy.part.crcUnit k).paused = true) ∧
  (∃ (s : State) (dt : Nat) (lvl : Level) (u : CrcId) (b : Bool) (v : Word) (k : Nat),
    1 ≤ Level.rank lvl ∧ crcKey true u = some k ∧ (s.fy.part.crcUnit k).paused = false) :=
  ⟨⟨State.reset, 5, 0, .operate, .snapshot, true, 0x2810, by decide +kernel, by decide +kernel⟩,
    ⟨State.reset, 5, .operate, .dump 2, true, 0x6822, by decide +kernel, by decide +kernel⟩,
    ⟨State.reset, 5, 0, .operate, .snapshot, 0x2810, by decide +kernel, by decide +kernel, by decide +kernel, by decide +kernel⟩,
    ⟨State.reset, 5, 0, .operate, .snapshot, 0x2810, by decide +kernel, by decide +kernel, by decide +kernel⟩,
    ⟨State.reset, 5, .operate, .dump 2, 0x6822, by decide +kernel, by decide +kernel, by decide +kernel⟩,
    ⟨fyS fun f => { f with part := f.part.setCrc 0x6810 { f.part.crcUnit 0x6810 with busy := true } }, 5, .operate, .snapshot, 0x6810, by decide +kernel, by decide +kernel, by decide +kernel⟩,
    ⟨tuS fun t => { t with part := t.part.setCrc 0x2810 { t.part.crcUnit 0x2810 with pause := true } }, 5, 0, .snapshot, 0x2810, by decide +kernel, by decide +kernel, by decide +kernel, by decide +kernel⟩,
    ⟨fyS fun f => { f with part := f.part.setCrc 0x6822 { f.part.crcUnit 0x6822 with pause := true } }, 5, .dump 2, 0x6822, by decide +kernel, by decide +kernel, by decide +kernel⟩,
    ⟨State.reset, 5, 0, .operate, .tlRx, 2, by decide +kernel, by decide +kernel⟩,
    ⟨State.reset, 5, .operate, .model 1, 0x4421, by decide +kernel, by decide +kernel⟩,
    ⟨State.reset, 5, 0, .operate, .tlTx, false, 7, 1, by decide +kernel, by decide +kernel, by decide +kernel⟩,
    ⟨fyS fun f => { f with part := f.part.setCrc 0x6822 { f.part.crcUnit 0x6822 with paused := true } }, 5, .operate, .dump 2, true, 9, 0x6822, by decide +kernel, by decide +kernel, by decide +kernel⟩,
    ⟨State.reset, 5, .operate, .dump 2, true, 9, 0x6822, by decide +kernel, by decide +kernel, by decide +kernel⟩⟩

theorem witness_SlotWrites :
  (∃ (s : State) (dt : Nat) (id : Nat) (w : PendWrite) (x : Grp) (r : Role),
    (s.fy.red.writes.find? fun w => w.id == id) = some w ∧ w.header = false ∧ s.fy.writer w = some (x, r)) ∧
  (∃ (s : State) (dt : Nat) (id : Nat) (w : PendWrite),
    (s.fy.red.writes.find? fun w => w.id == id) = some w ∧ w.header = true) ∧
  (∃ (s : State) (dt : Nat) (g : GSlot) (lv : Fin 3) (i : Nat) (sub : Fin 2) (inst : Word) (x : Grp) (r : Role) (o : Nat) (c : Contrib),
    s.fy.grp g.val = some x ∧ x.held lv.val = some r ∧ r.admitted = true ∧ lv.val ≠ 0 ∧ samplingOnly x.period = false ∧ i <
    x.childCount r ∧ o = roleArea g.val lv.val + x.ofs r 0 + x.frame inst.toNat * (x.childCount r * 2 * slotAl (dMetrics
    x.desc)) + (2 * i + sub.val) * slotAl (dMetrics x.desc) ∧ fieldAt (s.fy.ledger o 8) 0 8 = inst.toNat ∧ slotOfBytes
    (s.fy.ledger o (slotBytes (dMetrics x.desc))) = c ∧ c.inst = inst.toNat ∧ x.slotOk (s.fy.ledger o (slotBytes (dMetrics
    x.desc))) = true ∧ x.memb ≤ c.memb ∧ (r.closed.any fun n => decide (inst.toNat ≤ n)) = false ∧ (r.open_.find? fun o =>
    o.1.inst == inst.toNat) = none) ∧
  (∃ (s : State) (dt : Nat) (g : GSlot) (lv : Fin 3) (i : Nat) (sub : Fin 2) (inst : Word) (x : Grp) (r : Role) (o : Nat),
    s.fy.grp g.val = some x ∧ x.held lv.val = some r ∧ r.admitted = true ∧ lv.val ≠ 0 ∧ samplingOnly x.period = false ∧ i <
    x.childCount r ∧ o = roleArea g.val lv.val + x.ofs r 0 + x.frame inst.toNat * (x.childCount r * 2 * slotAl (dMetrics
    x.desc)) + (2 * i + sub.val) * slotAl (dMetrics x.desc) ∧ fieldAt (s.fy.ledger o 8) 0 8 = inst.toNat ∧ (slotOfBytes
    (s.fy.ledger o (slotBytes (dMetrics x.desc)))).inst = inst.toNat ∧ x.slotOk (s.fy.ledger o (slotBytes (dMetrics
    x.desc))) = false) ∧
  (∃ (s : State) (dt : Nat) (g : GSlot) (lv : Fin 3) (n : Nat) (x : Grp) (r : Role) (w : PendWrite),
    s.fy.grp g.val = some x ∧ x.held lv.val = some r ∧ r.carry = none ∧ (s.fy.red.writes.filter fun w => w.gslot == g.val
    && w.role == lv.val && w.c.kind != 2 && x.frame w.c.inst == n) = [w]) :=
  ⟨⟨{ fyReady with fy := { (fyReady.fy.setGrp 3 l2Group9) with red := { (fyReady.fy.setGrp 3 l2Group9).red with writes := [write9 false] } } }, 5, 1, write9 false, l2Group9, l2Role9, by decide +kernel, by decide +kernel, by decide +kernel⟩,
    ⟨{ fyReady with fy := { fyReady.fy with red := { fyReady.fy.red with writes := [write9 true] } } }, 65536 * 60000000000, 1, write9 true, by decide +kernel, by decide +kernel⟩,
    ⟨{ fyReady with fy := (fyReady.fy.setGrp 3 l2Group0).putLedger arriveAt0 contrib0.bytes }, 5, 3, 1, 0, 0, 2000000, l2Group0, l2Role9, arriveAt0, slotOfBytes contrib0.bytes, by decide +kernel, by decide +kernel, by decide +kernel, by decide +kernel, by decide +kernel, by decide +kernel, by decide +kernel, by decide +kernel, by decide +kernel, by decide +kernel, by decide +kernel, by decide +kernel, by decide +kernel, by decide +kernel⟩,
    ⟨{ fyReady with fy := (fyReady.fy.setGrp 3 l2Group0).putLedger arriveAt0 (contrib0.bytes.set 8 99) }, 5, 3, 1, 0, 0, 2000000, l2Group0, l2Role9, arriveAt0, by decide +kernel, by decide +kernel, by decide +kernel, by decide +kernel, by decide +kernel, by decide +kernel, by decide +kernel, by decide +kernel, by decide +kernel, by decide +kernel⟩,
    ⟨{ fyReady with fy := { (fyReady.fy.setGrp 3 l2Group9) with red := { (fyReady.fy.setGrp 3 l2Group9).red with writes := [write9 false] } } }, 5, 3, 1, 2, l2Group9, l2Role9, write9 false, by decide +kernel, by decide +kernel, by decide +kernel, by decide +kernel⟩⟩

theorem witness_InstantCloses :
  (∃ (s : State) (dt : Nat) (g : GSlot) (inst : Word) (x : Grp) (r : Role),
    s.fy.grp g.val = some x ∧ x.reduces inst.toNat = true ∧ (x.gathered.all fun n => decide (n < inst.toNat)) = true ∧
    inst.toNat + s.fy.rd (0x3410 + g.val) 3 * 1000 ≤ ts64Of (s.fy.tick dt).ns ∧ (x.roles.find? fun r => r.level == 0 &&
    !r.standby && r.holder) = some r) ∧
  (∃ (s : State) (dt : Nat) (g : GSlot) (inst : Word),
    ((s.fy.grp g.val).any fun x => x.reduces inst.toNat) = false) ∧
  (∃ (s : State) (dt : Nat) (g : GSlot) (inst : Word) (x : Grp) (r : Role),
    s.fy.grp g.val = some x ∧ x.held 1 = some r ∧ (s.fy.tick dt).closes x r inst.toNat = true) ∧
  (∃ (s : State) (dt : Nat) (g : GSlot) (inst : Word) (x : Grp) (r : Role),
    s.fy.grp g.val = some x ∧ x.held 2 = some r ∧ (s.fy.tick dt).closes x r inst.toNat = true) ∧
  (∃ (s : State) (dt : Nat) (g : GSlot) (inst : Word) (x : Grp) (r : Role) (c : Contrib),
    s.fy.grp g.val = some x ∧ x.held 2 = some r ∧ (s.fy.tick dt).closes x r inst.toNat = false ∧ (r.sent.find? fun c =>
    c.inst == inst.toNat) = some c ∧ inst.toNat + 1000000 ≤ ts64Of (s.fy.tick dt).ns ∧ bitOf c.hflags 0 = false) ∧
  (∃ (s : State) (dt : Nat) (g : GSlot) (inst : Word) (v : List Byte) (x : Grp) (r : Role),
    s.fy.grp g.val = some x ∧ x.accepts inst.toNat v = true ∧ x.held 1 = none ∧ (x.roles.find? fun r => r.level == 0 &&
    !r.standby && r.holder) = some r ∧ (match x.summary with | some c => decide (c.inst < inst.toNat) | none => true) =
    true) ∧
  (∃ (s : State) (dt : Nat) (g : GSlot) (inst : Word) (v : List Byte) (x : Grp),
    s.fy.grp g.val = some x ∧ x.accepts inst.toNat v = false) ∧
  (∃ (s : State) (dt : Nat) (g : GSlot) (inst : Word) (x : Grp),
    s.fy.grp g.val = some x ∧ x.reduces inst.toNat = true ∧ (x.held 0).isSome = true ∧ (x.summary.any fun c => decide
    (inst.toNat ≤ c.inst)) = false ∧ x.missed < inst.toNat ∧ inst.toNat + 1000000 + x.period / 2 ≤ ts64Of (s.fy.tick dt).ns) :=
  ⟨⟨{ fyReady with fy := fyReady.fy.setGrp 3 { armGroup9 with roles := [newRole 0 false 0 0 7] } }, 65536 * 3000000, 3, 2000000, { armGroup9 with roles := [newRole 0 false 0 0 7] }, newRole 0 false 0 0 7, by decide +kernel, by decide +kernel, by decide +kernel, by decide +kernel, by decide +kernel⟩,
    ⟨State.reset, 5, 3, 2000000, by decide +kernel⟩,
    ⟨{ fyReady with fy := fyReady.fy.setGrp 3 l2Group9 }, 65536 * 3000000, 3, 2000000, l2Group9, l2Role9, by decide +kernel, by decide +kernel, by decide +kernel⟩,
    ⟨{ fyReady with fy := fyReady.fy.setGrp 3 rootGroup9 }, 65536 * 3000000, 3, 2000000, rootGroup9, rootRole9, by decide +kernel, by decide +kernel, by decide +kernel⟩,
    ⟨{ fyReady with fy := fyReady.fy.setGrp 3 { rootGroup9 with roles := [{ rootRole9 with closed := some 2000000, sent := [contrib9] }] } }, 65536 * 3000000, 3, 2000000, { rootGroup9 with roles := [{ rootRole9 with closed := some 2000000, sent := [contrib9] }] }, { rootRole9 with closed := some 2000000, sent := [contrib9] }, contrib9, by decide +kernel, by decide +kernel, by decide +kernel, by decide +kernel, by decide +kernel, by decide +kernel⟩,
    ⟨{ fyReady with fy := fyReady.fy.setGrp 3 { l2Group0 with roles := [newRole 0 false 0 0 7] } }, 65536 * 3000000, 3, 2000000, { contrib0 with hflags := 1, level := 3, kind := 3 }.bytes, { l2Group0 with roles := [newRole 0 false 0 0 7] }, newRole 0 false 0 0 7, by decide +kernel, by decide +kernel, by decide +kernel, by decide +kernel, by decide +kernel⟩,
    ⟨{ fyReady with fy := fyReady.fy.setGrp 3 armGroup9 }, 65536 * 3000000, 3, 2000000, [], armGroup9, by decide +kernel, by decide +kernel⟩,
    ⟨{ fyReady with fy := fyReady.fy.setGrp 3 { armGroup9 with roles := [newRole 0 false 0 0 7] } }, 65536 * 4000000, 3, 2000000, { armGroup9 with roles := [newRole 0 false 0 0 7] }, by decide +kernel, by decide +kernel, by decide +kernel, by decide +kernel, by decide +kernel, by decide +kernel⟩⟩

theorem witness_RolesAndLedger :
  (∃ (s : State) (dt : Nat) (g : GSlot) (lv : Fin 3) (x : Grp) (r : Role) (y : Nat × Nat × Nat),
    s.fy.grp g.val = some x ∧ x.live = true ∧ samplingOnly x.period = false ∧ (x.roles.filter fun r => r.level == lv.val) =
    [r] ∧ x.peerPlace g.val r = some y ∧ y.1 ≠ s.fy.tray) ∧
  (∃ (s : State) (dt : Nat) (g : GSlot) (lv : Fin 3) (x : Grp) (r : Role),
    s.fy.grp g.val = some x ∧ x.state = 3 ∧ (x.roles.filter fun r => r.level == lv.val && r.standby && !r.holder &&
    r.admitted && decide (max r.seenAt x.eff + s.fy.rd 0x3600 0x0B * 1000 ≤ (s.fy.tick dt).ns)) = [r]) ∧
  (∃ (s : State) (dt : Nat) (src : BitVec 16) (a : Word) (v : List Byte),
    s.fy.rd 0x3600 1 ≠ 0 ∧ s.fy.rd 0x3600 1 ≤ a.toNat ∧ a.toNat - s.fy.rd 0x3600 1 + v.length ≤ s.fy.rd 0x3600 2 ∧ a.toNat
    - s.fy.rd 0x3600 1 < 2097152 ∧ within (a.toNat - s.fy.rd 0x3600 1) v.length (256 * src.toNat) 256 = true ∧ Memory.wf
    s.fy.red.ledger = true) ∧
  (∃ (s : State) (dt : Nat) (src : BitVec 16) (a : Word) (v : List Byte) (j : Nat),
    s.fy.rd 0x3600 1 ≠ 0 ∧ s.fy.rd 0x3600 1 ≤ a.toNat ∧ a.toNat - s.fy.rd 0x3600 1 + v.length ≤ s.fy.rd 0x3600 2 ∧ a.toNat
    - s.fy.rd 0x3600 1 < 2097152 ∧ within (a.toNat - s.fy.rd 0x3600 1) v.length (256 * src.toNat) 256 = true ∧ (j < a.toNat
    - s.fy.rd 0x3600 1 ∨ a.toNat - s.fy.rd 0x3600 1 + v.length ≤ j)) ∧
  (∃ (s : State) (dt : Nat) (src : BitVec 16) (a : Word) (v : List Byte),
    s.fy.rd 0x3600 1 = 0 ∨ a.toNat < s.fy.rd 0x3600 1 ∨ s.fy.rd 0x3600 2 < a.toNat - s.fy.rd 0x3600 1 + v.length) :=
  ⟨⟨{ fyReady with fy := fyReady.fy.setGrp 3 rootGroup9 }, 5, 3, 2, rootGroup9, rootRole9, (7, 8192, roleArea 3 2 + peerOfs 2 0), by decide +kernel, by decide +kernel, by decide +kernel, by decide +kernel, by decide +kernel, by decide +kernel⟩,
    ⟨{ fyReady with fy := fyReady.fy.setGrp 3 { rootGroup9 with roles := [{ rootRole9 with standby := true, holder := false }] } }, 65536 * 60000000000, 3, 2, { rootGroup9 with roles := [{ rootRole9 with standby := true, holder := false }] }, { rootRole9 with standby := true, holder := false }, by decide +kernel, by decide +kernel, by decide +kernel⟩,
    ⟨{ fyReady with fy := fyReady.fy.wr 0x3600 2 268435456 }, 5, 7, 5900, [1, 0, 3], by decide +kernel, by decide +kernel, by decide +kernel, by decide +kernel, by decide +kernel, by decide +kernel⟩,
    ⟨{ fyReady with fy := fyReady.fy.wr 0x3600 2 268435456 }, 5, 7, 5900, [1, 0, 3], 4, by decide +kernel, by decide +kernel, by decide +kernel, by decide +kernel, by decide +kernel, by decide +kernel⟩,
    ⟨State.reset, 5, 7, 5900, [1, 0, 3], by decide +kernel⟩⟩

theorem witness_GovernorAndZoom :
  (∃ (s : State) (dt : Nat) (lvl : Level) (g : GSlot) (b : Bool) (v : BitVec 32),
    1 ≤ Level.rank lvl ∧ ((s.fy.grp g.val).bind fun x => x.held 2) = none) ∧
  (∃ (s : State) (dt : Nat) (lvl : Level) (g : GSlot) (b : Bool) (v : BitVec 32),
    1 ≤ Level.rank lvl ∧ ((s.fy.grp g.val).bind fun x => x.held 2).isSome = true) ∧
  (∃ (s : State) (dt : Nat) (lvl : Level) (g : GSlot) (v : BitVec 32),
    1 ≤ Level.rank lvl ∧ v.toNat ≤ 1 ∧ ((s.fy.grp g.val).bind fun x => x.held 2) = none) ∧
  (∃ (s : State) (dt : Nat) (lvl : Level) (g : GSlot) (v : BitVec 32),
    1 ≤ Level.rank lvl ∧ fp32.isNan v.toNat = false ∧ fp32.le 0 v.toNat = true ∧ fp32.lt 0x3F800000 v.toNat = false ∧
    ((s.fy.grp g.val).bind fun x => x.held 2) = none) ∧
  (∃ (s : State) (dt : Nat) (lvl : Level) (g : GSlot) (v : BitVec 32),
    1 ≤ Level.rank lvl ∧ 1 < v.toNat) ∧
  (∃ (s : State) (dt : Nat) (g : GSlot) (l : List (Nat × List Byte)) (x : Grp) (r : Role),
    s.fy.grp g.val = some x ∧ x.held 2 = some r ∧ samplingOnly x.period = false ∧ (s.fy.gov g.val).pollAt + 1000 * s.fy.rd
    (0x3300 + g.val) 9 ≤ (s.fy.tick dt).ns) ∧
  (∃ (s : State) (dt : Nat) (lvl : Level) (g : GSlot) (n : BitVec 32) (p : Nat),
    1 ≤ Level.rank lvl ∧ s.fy.portOfDie n.toNat = some p ∧ ((s.fy.die g.val p).dstate = 3 ∨ (s.fy.die g.val p).dstate = 4)) ∧
  (∃ (s : State) (dt : Nat) (p : Port) (n : BitVec 32) (x : SigWait),
    (s.fy.dec.sigs.find? fun x => x.port == p.val && x.serial == n.toNat) = some x ∧ x.since + 1000000 * s.fy.rd 0x33C0 8 ≤
    (s.fy.tick dt).ns) ∧
  (∃ (s : State) (dt : Nat) (p : Port) (r : Rec),
    r.type = 0x10 ∧ r.fld 192 8 = 9) :=
  ⟨⟨State.reset, 5, .operate, 3, true, 7, by decide +kernel, by decide +kernel⟩,
    ⟨{ fyReady with fy := (fyReady.fy.setGrp 3 rootGroup9).wr 0x3303 3 1 }, 5, .operate, 3, true, 7, by decide +kernel, by decide +kernel⟩,
    ⟨State.reset, 5, .operate, 3, 1, by decide +kernel, by decide +kernel, by decide +kernel⟩,
    ⟨State.reset, 5, .operate, 3, 0x3F000000, by decide +kernel, by decide +kernel, by decide +kernel, by decide +kernel, by decide +kernel⟩,
    ⟨State.reset, 5, .operate, 3, 2, by decide +kernel, by decide +kernel⟩,
    ⟨{ fyReady with fy := fyReady.fy.setGrp 3 rootGroup9 }, 65536 * 60000000000, 3, [], rootGroup9, rootRole9, by decide +kernel, by decide +kernel, by decide +kernel, by decide +kernel⟩,
    ⟨{ fyReady with fy := (fyReady.fy.wr 0x1010 4 4).setDie 3 3 { DieDec.zero with dstate := 3 } }, 5, .operate, 3, 4, 3, by decide +kernel, by decide +kernel, by decide +kernel⟩,
    ⟨fyS fun f => { f with dec := { f.dec with sigs := [{ port := 3, serial := 5, r := taintRec5, since := 0 }] } }, 65536 * 60000000000, 3, 5, { port := 3, serial := 5, r := taintRec5, since := 0 }, by decide +kernel, by decide +kernel⟩,
    ⟨tuS fun t => { t with discovered := true, sets := [(2, { SampleSet.zero with follow := true, gslot := 3 })] }, 5, 0, { taintRec5 with type := 0x10, gslot := 3, pay := payload 17 [(9, 8), (1, 8)] }, by decide +kernel, by decide +kernel⟩⟩

theorem witness_ModelSlotsAndBinding :
  (∃ (s : State) (dt : Nat) (lvl : Level) (k : Fin 3) (v : List Byte),
    1 ≤ Level.rank lvl ∧ s.fy.stageCode k.val v.length = 0) ∧
  (∃ (s : State) (dt : Nat) (lvl : Level) (k : Fin 3) (v : List Byte),
    1 ≤ Level.rank lvl ∧ (s.fy.slotState k.val = 1 ∨ s.fy.slotState k.val = 4) ∧ v.length ≤ 8388608) ∧
  (∃ (s : State) (dt : Nat) (lvl : Level) (k : Fin 3) (v : List Byte) (d : List Byte),
    1 ≤ Level.rank lvl ∧ v.length = 16 ∧ (fieldAt v 12 1 = 1 ∨ fieldAt v 12 1 = 2) ∧ s.fy.stageCode k.val (fieldAt v 8 4) =
    0) ∧
  (∃ (s : State) (dt : Nat) (k : Fin 3),
    (s.fy.mslot k.val).state = 1 ∧ (s.fy.mslot k.val).fetch = true) ∧
  (∃ (s : State) (dt : Nat) (k : Fin 3),
    (s.fy.mslot k.val).state = 1 ∧ (s.fy.mslot k.val).fed = true) ∧
  (∃ (s : State) (dt : Nat) (lvl : Level) (g : GSlot) (v : List Byte) (x : Grp),
    1 ≤ Level.rank lvl ∧ s.fy.grp g.val = some x ∧ (s.fy.tick dt).part.orderAnswer .model g.val (moSerial v) = .accepted ∧
    s.fy.modelOrderCode g.val v = 0) ∧
  (∃ (s : State) (dt : Nat) (lvl : Level) (g : GSlot) (v : List Byte),
    1 ≤ Level.rank lvl ∧ v.length = 24 ∧ s.fy.grp g.val = none ∧ (s.fy.tick dt).part.orderAnswer .model g.val (moSerial v)
    = .accepted) ∧
  (∃ (s : State) (dt : Nat) (g : GSlot) (o : Order),
    s.fy.part.order? .model g.val = some o ∧ o.eff ≤ (s.fy.tick dt).ns ∧ s.fy.part.turn .model o.eff = true) ∧
  (∃ (s : State) (dt : Nat) (g : GSlot) (inst : Word) (r : InstRun) (n : Nat),
    s.fy.jun.run? g.val inst.toNat = some r ∧ r.deadline ≤ (s.fy.tick dt).ns ∧ n = (s.fy.jun.rows.filter fun x => x.gslot
    == g.val && x.inst == inst.toNat).length ∧ 0 < n) :=
  ⟨⟨State.reset, 5, .operate, 1, [1, 2, 3], by decide +kernel, by decide +kernel⟩,
    ⟨fyS fun f => f.setMslot 1 { MSlot.zero with state := 1 }, 5, .operate, 1, [1, 2, 3], by decide +kernel, by decide +kernel, by decide +kernel⟩,
    ⟨State.reset, 5, .operate, 1, leBytes 8 4096 ++ leBytes 4 3 ++ leBytes 4 1, [1, 2, 3], by decide +kernel, by decide +kernel, by decide +kernel, by decide +kernel⟩,
    ⟨fyS fun f => f.setMslot 1 { MSlot.zero with state := 1, fetch := true }, 5, 1, by decide +kernel, by decide +kernel⟩,
    ⟨fyS fun f => f.setMslot 1 { MSlot.zero with state := 1, fed := true, image := image9 }, 5, 1, by decide +kernel, by decide +kernel⟩,
    ⟨{ fyReady with fy := fyReady.fy.setGrp 3 armGroup9 }, 5, .operate, 3, leBytes 12 7000000 ++ leBytes 4 2 ++ leBytes 8 0xFF, armGroup9, by decide +kernel, by decide +kernel, by decide +kernel, by decide +kernel⟩,
    ⟨fyReady, 5, .operate, 3, leBytes 12 7000000 ++ leBytes 4 2 ++ leBytes 8 0xFF, by decide +kernel, by decide +kernel, by decide +kernel, by decide +kernel⟩,
    ⟨{ fyReady with fy := { fyReady.fy with part := fyReady.fy.part.putOrder { kind := .model, target := 3, serial := 2, eff := 5000, late := false, data := leBytes 12 5000 ++ leBytes 4 2 ++ leBytes 8 1 } } }, 65536 * 60000000000, 3, { kind := .model, target := 3, serial := 2, eff := 5000, late := false, data := leBytes 12 5000 ++ leBytes 4 2 ++ leBytes 8 1 }, by decide +kernel, by decide +kernel, by decide +kernel⟩,
    ⟨fyRun, 65536 * 60000000000, 3, 2000000, run9, 1, by decide +kernel, by decide +kernel, by decide +kernel, by decide +kernel⟩⟩

theorem witness_RowsAndBatches :
  (∃ (s : State) (dt : Nat) (run : InstRun) (r : Row) (out : List Nat) (n : Nat),
    (s.fy.jun.runs.filter fun r => s.fy.rowsOver r) = [] ∧ s.fy.jun.nextRun = some run ∧ (s.fy.jun.rows.find? fun x =>
    x.gslot == run.gslot && x.inst == run.inst) = some r ∧ r.gslot < 64 ∧ scoreRow (s.fy.mslot r.mslot).image r.raws =
    .scored out n) ∧
  (∃ (s : State) (dt : Nat) (run : InstRun) (r : Row) (i : Nat),
    (s.fy.jun.runs.filter fun r => s.fy.rowsOver r) = [] ∧ s.fy.jun.nextRun = some run ∧ (s.fy.jun.rows.find? fun x =>
    x.gslot == run.gslot && x.inst == run.inst) = some r ∧ r.gslot < 64 ∧ scoreRow (s.fy.mslot r.mslot).image r.raws =
    .rejected i) ∧
  (∃ (s : State) (dt : Nat) (d : Demand),
    s.fy.jun.runs = [] ∧ s.fy.jun.demand = some d ∧ d.why = none) ∧
  (∃ (s : State) (dt : Nat) (lvl : Level) (v : List Byte),
    1 ≤ Level.rank lvl ∧ fieldAt v 0 1 ≤ 2 ∧ (s.fy.mslot (fieldAt v 0 1)).state = 2 ∧ v.length = 8 + 4 * mRaw (s.fy.mslot
    (fieldAt v 0 1)).image ∧ s.fy.jun.demand = none) ∧
  (∃ (s : State) (dt : Nat) (lvl : Level) (v : List Byte),
    1 ≤ Level.rank lvl ∧ 8 ≤ v.length ∧ fieldAt v 0 1 ≤ 2 ∧ (s.fy.mslot (fieldAt v 0 1)).state ≠ 2 ∧ v.length ≠ 8 + 4 *
    mRaw (s.fy.mslot (fieldAt v 0 1)).image) ∧
  (∃ (s : State) (dt : Nat) (d : Demand),
    s.fy.jun.demand = some d ∧ d.why = none ∧ d.since + 10000000 ≤ (s.fy.tick dt).ns) ∧
  (∃ (s : State) (dt : Nat) (lvl : Level) (n : BitVec 32),
    1 ≤ Level.rank lvl ∧ s.fy.jun.batch.state ≠ 1 ∧ s.fy.jun.batch.state ≠ 2 ∧ s.fy.jun.batch.spec.isEmpty = false ∧
    (s.fy.mslot (fieldAt s.fy.jun.batch.spec 0 1)).state = 2) ∧
  (∃ (s : State) (dt : Nat) (lvl : Level) (n : BitVec 32),
    1 ≤ Level.rank lvl ∧ (s.fy.jun.batch.state = 1 ∨ s.fy.jun.batch.state = 2 ∨ s.fy.jun.batch.spec.isEmpty = true)) ∧
  (∃ (s : State) (dt : Nat) (lvl : Level),
    1 ≤ Level.rank lvl ∧ (s.fy.jun.batch.state = 1 ∨ s.fy.jun.batch.state = 2)) :=
  ⟨⟨{ fyRun with fy := { fyRun.fy with jun := { fyRun.fy.jun with runs := [{ run9 with deadline := 100000000000 }], binds := [(3, { Bind.zero with slot := 1, shareNum := 1 })], rows := [row9] }, red := { fyRun.fy.red with groups := [(3, armGroup9)] } } }, 5, { run9 with deadline := 100000000000 }, row9, [0x40000000], 0, by decide +kernel, by decide +kernel, by decide +kernel, by decide +kernel, by decide +kernel⟩,
    ⟨{ fyRun with fy := { fyRun.fy with jun := { fyRun.fy.jun with runs := [{ run9 with deadline := 100000000000 }], binds := [(3, { Bind.zero with slot := 1, shareNum := 1 })], rows := [{ row9 with raws := [0x7FC00000] }] }, red := { fyRun.fy.red with groups := [(3, armGroup9)] } } }, 5, { run9 with deadline := 100000000000 }, { row9 with raws := [0x7FC00000] }, 0, by decide +kernel, by decide +kernel, by decide +kernel, by decide +kernel, by decide +kernel⟩,
    ⟨{ fyModel with fy := { fyModel.fy with jun := { fyModel.fy.jun with demand := some demand9 } } }, 5, demand9, by decide +kernel, by decide +kernel, by decide +kernel⟩,
    ⟨fyModel, 5, .operate, leBytes 8 1 ++ leBytes 4 0x3F800000, by decide +kernel, by decide +kernel, by decide +kernel, by decide +kernel, by decide +kernel⟩,
    ⟨fyModel, 5, .operate, leBytes 8 0 ++ leBytes 4 0x3F800000, by decide +kernel, by decide +kernel, by decide +kernel, by decide +kernel, by decide +kernel⟩,
    ⟨{ fyModel with fy := { fyModel.fy with jun := { fyModel.fy.jun with demand := some demand9 } } }, 65536 * 60000000000, demand9, by decide +kernel, by decide +kernel, by decide +kernel⟩,
    ⟨{ fyModel with fy := { fyModel.fy with jun := { fyModel.fy.jun with batch := { fyModel.fy.jun.batch with spec := leBytes 48 (1 + 256 + 5 * 2 ^ 32) } } } }, 5, .operate, 7, by decide +kernel, by decide +kernel, by decide +kernel, by decide +kernel, by decide +kernel⟩,
    ⟨State.reset, 5, .operate, 7, by decide +kernel, by decide +kernel⟩,
    ⟨{ fyModel with fy := { fyModel.fy with jun := { fyModel.fy.jun with batch := { fyModel.fy.jun.batch with state := 2 } } } }, 5, .operate, by decide +kernel, by decide +kernel⟩⟩

theorem witness_ObjectWrites :
  (∃ (s : State) (dt : Nat) (lvl : Level) (i : BitVec 16) (k : Byte) (v : List Byte),
    writeCode 1 (Level.rank lvl) i.toNat k.toNat v ≠ 0) ∧
  (∃ (s : State) (dt : Nat) (lvl : Level) (i : BitVec 16) (k : Byte) (v : List Byte),
    writeCode 1 (Level.rank lvl) i.toNat k.toNat v = 0 ∧ i.toNat = 0x1100 ∧ s.fy.resetAfter = none) ∧
  (∃ (s : State) (dt : Nat) (p : Port) (lvl : Level) (i : BitVec 16) (k : Byte) (v : List Byte),
    writeCode 2 (Level.rank lvl) i.toNat k.toNat v ≠ 0) ∧
  (∃ (s : State) (dt : Nat) (p : Port) (lvl : Level) (i : BitVec 16) (k : Byte) (v : List Byte),
    writeCode 2 (Level.rank lvl) i.toNat k.toNat v = 0 ∧ i.toNat = 0x2110) :=
  ⟨⟨State.reset, 5, .observe, 0x1100, 2, leBytes 2 100, by decide +kernel⟩,
    ⟨State.reset, 5, .service, 0x1100, 2, leBytes 2 100, by decide +kernel, by decide +kernel, by decide +kernel⟩,
    ⟨State.reset, 5, 3, .observe, 0x2110, 16, [7], by decide +kernel⟩,
    ⟨State.reset, 5, 3, .service, 0x2110, 16, leBytes 4 200, by decide +kernel, by decide +kernel⟩⟩

theorem witness_Calibration :
  (∃ (s : State) (dt : Nat) (n : BitVec 32) (lvl : Level) (v : BitVec 32),
    2 ≤ Level.rank lvl ∧ (s.fy.session? n.toNat).isSome = true ∧ v = BitVec.ofNat 32 s.fy.calDigest) ∧
  (∃ (s : State) (dt : Nat) (n : BitVec 32) (lvl : Level) (v : BitVec 32),
    2 ≤ Level.rank lvl ∧ (s.fy.session? n.toNat).isSome = true ∧ v ≠ BitVec.ofNat 32 s.fy.calDigest) ∧
  (∃ (s : State) (dt : Nat) (n : BitVec 32) (lvl : Level) (i : BitVec 16) (k : Byte) (v : BitVec 32),
    calIndex i.toNat = true ∧ writeCode 1 (Level.rank lvl) i.toNat k.toNat (leBytes 4 v.toNat) = 0 ∧ (s.fy.tick dt).calCode
    n.toNat = 0 ∧ i.toNat ≠ 0x7C10 ∧ i.toNat < 0x7C40 ∧ s.fy.resetAfter = none) ∧
  (∃ (s : State) (dt : Nat) (n : BitVec 32) (lvl : Level) (i : BitVec 16) (k : Byte) (v : BitVec 32),
    calIndex i.toNat = true ∧ writeCode 1 (Level.rank lvl) i.toNat k.toNat (leBytes 4 v.toNat) = 0 ∧ s.fy.calNor.busy =
    none ∧ (s.fy.tick dt).calArmed n.toNat = false) ∧
  (∃ (s : State) (dt : Nat) (cal : Bool) (v : List (Nat × Nat)) (again : Bool),
    (if cal then s.fy.calNor else s.fy.objNor).busy = some (v, again)) ∧
  (∃ (s : State) (dt : Nat) (cal : Bool) (v : List (Nat × Nat)) (again : Bool),
    (if cal then s.fy.calNor else s.fy.objNor).busy = some (v, again)) ∧
  (∃ (s : State) (dt : Nat) (p : Port) (row : Fin 12),
    ((s.tu p).part.recovOf row.val).repeatDue ((s.tu p).tick dt).ns = true) ∧
  (∃ (s : State) (dt : Nat) (row : Fin 12) (p : Port),
    (s.fy.part.recovOf row.val).repeatDue (s.fy.tick dt).ns = true) :=
  ⟨⟨fyCal, 5, 9, .service, BitVec.ofNat 32 fyCal.fy.calDigest, by decide +kernel, by decide +kernel, by rfl⟩,
    ⟨fyCal, 5, 9, .service, BitVec.ofNat 32 fyCal.fy.calDigest + 1, by decide +kernel, by decide +kernel, by simp⟩,
    ⟨fyCal, 5, 9, .service, 0x7C01, 2, 9, by decide +kernel, by decide +kernel, by decide +kernel, by decide +kernel, by decide +kernel, by decide +kernel⟩,
    ⟨State.reset, 5, 9, .service, 0x7C01, 2, 9, by decide +kernel, by decide +kernel, by decide +kernel, by decide +kernel⟩,
    ⟨fyS fun f => { f with calNor := { f.calNor with busy := some ([(0x7C0102, 9)], false) } }, 5, true, [(0x7C0102, 9)], false, by decide +kernel⟩,
    ⟨fyS fun f => { f with objNor := { f.objNor with busy := some ([(0x110002, 9)], true) } }, 5, false, [(0x110002, 9)], true, by decide +kernel⟩,
    ⟨tuS fun t => { t with part := { t.part with recov := [(1, { Recovery.zero with failed := true })] }, link := { t.link with st := .down } }, 65536 * 60000000000, 0, 1, by decide +kernel⟩,
    ⟨fyS fun f => { f with part := { f.part with recov := [(1, { Recovery.zero with failed := true })] }, links := [(4, { f.link 4 with st := .down })] }, 65536 * 60000000000, 1, 4, by decide +kernel⟩⟩

theorem witness_CalibrationImage :
  (∃ (s : State) (dt : Nat) (n : BitVec 32) (lvl : Level) (ts : Word) (vals : List Nat) (v : List Byte),
    Level.rank lvl = 2 ∧ (s.fy.tick dt).calCode n.toNat = 0 ∧ s.fy.resetAfter = none ∧ vals.length = 199 ∧ ((∀ x ∈ vals, x
    < 2 ^ 32)) ∧ ((∀ e ∈ calKeys.zip vals, ((objFind 1 e.1.1 e.1.2).any fun r => outOfRange r e.2) = false)) ∧ v = calHead
    ++ wordBytes ts ++ ((calKeys.zip vals).flatMap fun e => leBytes 8 (packNat [(e.1.1, 16), (e.1.2, 8), (if e.1.1 = 0x7C30
    then 8 else 6, 8), (e.2, 32)]))) ∧
  (∃ (s : State) (dt : Nat) (n : BitVec 32) (lvl : Level) (v : List Byte),
    v.length ≠ 1624 ∧ Level.rank lvl = 2) :=
  ⟨⟨fyCal, 5, 9, .service, 0, calVals9, calBytes9, by decide +kernel, by decide +kernel, by decide +kernel, by decide +kernel, by decide +kernel, by decide +kernel, by rfl⟩,
    ⟨fyCal, 5, 9, .service, [1, 2], by decide +kernel, by decide +kernel⟩⟩

theorem witness_RelayedAccess :
  (∃ (s : State) (dt : Nat) (p : Port) (r : Rec) (m : DictMsg) (v : Nat × Nat × List Byte),
    dictReq r 1 = some m ∧ v = ((s.tu p).tick dt).readObj p m.index m.sub ∧ v.1 = 0 ∧ v.2.2.length ≤ 512 ∧ (((s.tu p).tick
    dt).charge 7 (dictCost v.2.2.length) (decide (((s.tu p).tick dt).queued 0 + (64 + 8 * ceilDiv v.2.2.length 8) ≤ reqCap
    0))).2 = 0) ∧
  (∃ (s : State) (dt : Nat) (p : Port) (r : Rec) (m : DictMsg),
    dictReq r 2 = some m ∧ typeBad 2 m.index m.sub m.type = false ∧ m.index ≠ 0x2E00 ∧ m.index ≠ 0x2940 ∧ (((s.tu p).tick
    dt).charge 7 (dictCost m.data.length) (decide (((s.tu p).tick dt).queued 0 + 64 ≤ reqCap 0))).2 = 0) ∧
  (∃ (s : State) (dt : Nat) (p : Port) (r : Rec) (m : DictMsg),
    dictReq r 3 = some m ∧ segmentCode 2 m.index m.sub m.offset m.data.length = 0 ∧ (((s.tu p).tick dt).charge 7 (dictCost
    m.data.length) (decide (((s.tu p).tick dt).queued 0 + (64 + 8 * ceilDiv m.data.length 8) ≤ reqCap 0))).2 = 0 ∧
    Memory.wf (s.tu p).staging = true) ∧
  (∃ (s : State) (dt : Nat) (p : Port) (r : Rec) (m : DictMsg) (a : Nat),
    dictReq r 3 = some m ∧ segmentCode 2 m.index m.sub m.offset m.data.length = 0 ∧ (((s.tu p).tick dt).charge 7 (dictCost
    m.data.length) (decide (((s.tu p).tick dt).queued 0 + (64 + 8 * ceilDiv m.data.length 8) ≤ reqCap 0))).2 = 0 ∧ (a <
    m.offset ∨ m.offset + m.data.length ≤ a)) ∧
  (∃ (s : State) (dt : Nat) (p : Port) (r : Rec) (m : DictMsg) (v : List Byte),
    dictReq r 4 = some m ∧ m.index ≠ 0x2E00 ∧ m.index ≠ 0x2940 ∧ v = memRead (s.tu p).staging 0 (min m.total 65536) ∧
    commitCode m.total m.crc v = 0 ∧ typeBad 2 m.index m.sub m.type = false ∧ (((s.tu p).tick dt).charge 7 (dictCost 0)
    (decide (((s.tu p).tick dt).queued 0 + 64 ≤ reqCap 0))).2 = 0) ∧
  (∃ (s : State) (dt : Nat) (p : Port) (r : Rec) (m : DictMsg),
    dictReq r 4 = some m ∧ m.total ≤ 65536 ∧ crc32c (memRead (s.tu p).staging 0 m.total) ≠ m.crc ∧ (((s.tu p).tick
    dt).charge 7 (dictCost 0) (decide (((s.tu p).tick dt).queued 0 + 64 ≤ reqCap 0))).2 = 0) ∧
  (∃ (s : State) (dt : Nat) (p : Port) (r : Rec) (m : DictMsg) (v : List Byte),
    dictReq r 5 = some m ∧ (((s.tu p).tick dt).charge 7 (dictCost 0) (decide (((s.tu p).tick dt).queued 0 + 64 ≤ reqCap
    0))).2 = 0 ∧ ((((s.tu p).tick dt).charge 7 (dictCost 0) (decide (((s.tu p).tick dt).queued 0 + 64 ≤ reqCap
    0))).1.internal 0x347 1).copyOf p m.index m.sub = (0, v)) ∧
  (∃ (s : State) (dt : Nat) (p : Port) (r : Rec) (m : DictMsg) (k : Copy) (n : Nat),
    dictReq r 6 = some m ∧ (s.tu p).dcopy = some k ∧ k.index = m.index ∧ k.sub = m.sub ∧ m.offset < k.bytes.length ∧ n =
    min 512 (k.bytes.length - m.offset) ∧ (((s.tu p).tick dt).charge 7 (dictCost n) (decide (((s.tu p).tick dt).queued 0 +
    (64 + 8 * ceilDiv n 8) ≤ reqCap 0))).2 = 0) ∧
  (∃ (s : State) (dt : Nat) (p : Port) (r : Rec) (x : Relay),
    r.type = 0x14 ∧ (dictMsg r).answer = true ∧ (s.fy.relays.find? fun x => x.rid == (dictMsg r).rid && x.port == p.val &&
    x.dkind == (dictMsg r).dkind) = some x) ∧
  (∃ (s : State) (dt : Nat) (p : Port) (r : Rec),
    (s.fy.relays.find? fun x => x.rid == (dictMsg r).rid && x.port == p.val && x.dkind == (dictMsg r).dkind) = none) ∧
  (∃ (s : State) (dt : Nat) (rid : BitVec 16) (x : Relay),
    (s.fy.relays.find? fun x => x.rid == rid.toNat) = some x ∧ x.sentAt + 200000 * 65536 ≤ (s.fy.tick dt).part.time.now) ∧
  (∃ (s : State) (dt : Nat) (rid : BitVec 16) (x : Relay),
    (s.fy.relays.find? fun x => x.rid == rid.toNat) = some x ∧ (s.fy.tick dt).part.time.now < x.sentAt + 200000 * 65536) :=
  ⟨⟨tuDict, 5, 0, dictRec9 (dictReadMsg 1 0x2110 16 4), dictMsg (dictRec9 (dictReadMsg 1 0x2110 16 4)), ((tuDict.tu 0).tick 5).readObj 0 0x2110 16, by decide +kernel, by decide +kernel, by decide +kernel, by decide +kernel, by decide +kernel⟩,
    ⟨tuDict, 5, 0, dictRec9 (dictWriteMsg 2 0x2110 16 4 [200, 0, 0, 0]), dictMsg (dictRec9 (dictWriteMsg 2 0x2110 16 4 [200, 0, 0, 0])), by decide +kernel, by decide +kernel, by decide +kernel, by decide +kernel, by decide +kernel⟩,
    ⟨tuDict, 5, 0, dictRec9 (segmentMsg 2 0x2610 1 512 (List.replicate 515 7)), dictMsg (dictRec9 (segmentMsg 2 0x2610 1 512 (List.replicate 515 7))), by decide +kernel, by decide +kernel, by decide +kernel, by decide +kernel⟩,
    ⟨tuDict, 5, 0, dictRec9 (segmentMsg 2 0x2610 1 512 (List.replicate 515 7)), dictMsg (dictRec9 (segmentMsg 2 0x2610 1 512 (List.replicate 515 7))), 515, by decide +kernel, by decide +kernel, by decide +kernel, by decide +kernel⟩,
    ⟨tuS fun t => { t with discovered := true, staging := memWrite [] 0 [7] }, 5, 0, dictRec9 (commitMsg 2 0x2610 1 1 (crc32c [7])), dictMsg (dictRec9 (commitMsg 2 0x2610 1 1 (crc32c [7]))), [7], by decide +kernel, by decide +kernel, by decide +kernel, by decide +kernel, by decide +kernel, by decide +kernel, by decide +kernel⟩,
    ⟨tuS fun t => { t with discovered := true, staging := memWrite [] 0 [7] }, 5, 0, dictRec9 (commitMsg 2 0x2610 1 1 5), dictMsg (dictRec9 (commitMsg 2 0x2610 1 1 5)), by decide +kernel, by decide +kernel, by decide +kernel, by decide +kernel⟩,
    ⟨tuDict, 5, 0, dictRec9 (copyMsg 2 0x2600 10), dictMsg (dictRec9 (copyMsg 2 0x2600 10)), [], by decide +kernel, by decide +kernel, by decide +kernel⟩,
    ⟨tuS fun t => { t with discovered := true, dcopy := some { node := 1, index := 0x2600, sub := 10, bytes := [7, 8, 9] } }, 5, 0, dictRec9 (copyReadMsg 2 0x2600 10 1), dictMsg (dictRec9 (copyReadMsg 2 0x2600 10 1)), { node := 1, index := 0x2600, sub := 10, bytes := [7, 8, 9] }, 2, by decide +kernel, by decide +kernel, by decide +kernel, by decide +kernel, by decide +kernel, by decide +kernel, by decide +kernel⟩,
    ⟨fyS fun f => { f with relays := [relay9] }, 5, 3, dictRec9 { dictReadMsg 1 0x2110 16 4 with answer := true, rid := 6 }, relay9, by decide +kernel, by decide +kernel, by decide +kernel⟩,
    ⟨State.reset, 5, 3, dictRec9 { dictReadMsg 1 0x2110 16 4 with answer := true, rid := 6 }, by decide +kernel⟩,
    ⟨fyS fun f => { f with relays := [relay9] }, 65536 * 60000000000, 6, relay9, by decide +kernel, by decide +kernel⟩,
    ⟨fyS fun f => { f with relays := [relay9] }, 5, 6, relay9, by decide +kernel, by decide +kernel⟩⟩

theorem witness_EventRecorder :
  (∃ (s : State) (dt : Nat) (n : EvRec),
    s.fy.part.evr.newest = some n ∧ s.fy.part.evr.updateDue (s.fy.tick dt).ts = true) ∧
  (∃ (s : State) (dt : Nat) (p : Port) (n : EvRec),
    (s.tu p).part.evr.newest = some n ∧ (s.tu p).part.evr.updateDue ((s.tu p).tick dt).ts = true) ∧
  (∃ (s : State) (dt : Nat) (v : Word),
    v.toNat ≤ s.fy.part.evr.total) ∧
  (∃ (s : State) (dt : Nat) (p : Port) (v : Word),
    v.toNat ≤ (s.tu p).part.evr.total) ∧
  (∃ (s : State) (dt : Nat) (v : Word),
    s.fy.part.evr.total < v.toNat) ∧
  (∃ (s : State) (dt : Nat) (lvl : Level) (k : Nat) (l : List Nat),
    1 ≤ Level.rank lvl ∧ s.fy.part.evr.flush = none ∧ s.fy.erasedSlots = k :: l) ∧
  (∃ (s : State) (dt : Nat) (lvl : Level),
    1 ≤ Level.rank lvl ∧ s.fy.part.evr.flush = none ∧ s.fy.erasedSlots = []) ∧
  (∃ (s : State) (dt : Nat) (p : Port) (lvl : Level),
    1 ≤ Level.rank lvl ∧ (s.tu p).part.evr.flush = none ∧ (s.tu p).part.evr.log ≠ []) ∧
  (∃ (s : State) (dt : Nat) (p : Port) (r : Rec),
    isPfailEvent r = true ∧ (s.tu p).part.evr.flush = none ∧ (s.tu p).part.evr.log ≠ []) ∧
  (∃ (s : State) (dt : Nat) (p : Port) (r : Rec),
    isPfailEvent r = false) ∧
  (∃ (s : State) (dt : Nat) (e : Nat × NorFlush),
    s.fy.boot.running = true ∧ s.fy.erasedSlots = [] ∧ (sortBy (fun (a b : Nat × NorFlush) => decide (a.2.serial ≤
    b.2.serial)) s.fy.flushNor).head? = some e) :=
  ⟨⟨fyS fun f => { f with part := { f.part with evr := grown9 } }, 65536 * 60000000000, evr9, by decide +kernel, by decide +kernel⟩,
    ⟨tuS fun t => { t with part := { t.part with evr := grown9 } }, 65536 * 60000000000, 0, evr9, by decide +kernel, by decide +kernel⟩,
    ⟨fyS fun f => { f with part := { f.part with evr := grown9 } }, 5, 1, by decide +kernel⟩,
    ⟨tuS fun t => { t with part := { t.part with evr := grown9 } }, 5, 0, 1, by decide +kernel⟩,
    ⟨State.reset, 5, 1, by decide +kernel⟩,
    ⟨State.reset, 5, .operate, 0, [1, 2, 3], by decide +kernel, by decide +kernel, by decide +kernel⟩,
    ⟨fyS fun f => { f with norTorn := [0, 1, 2, 3] }, 5, .operate, by decide +kernel, by decide +kernel, by decide +kernel⟩,
    ⟨tuS fun t => { t with part := { t.part with evr := grown9 } }, 5, 0, .operate, by decide +kernel, by decide +kernel, by decide +kernel⟩,
    ⟨tuS fun t => { t with part := { t.part with evr := grown9 } }, 5, 0, { taintRec5 with type := 0x0A, pay := payload 5 [(1, 8), (1, 8), (0, 48), (3, 256)] }, by decide +kernel, by decide +kernel, by decide +kernel⟩,
    ⟨State.reset, 5, 0, taintRec5, by decide +kernel⟩,
    ⟨fyS fun f => { f with boot := { f.boot with running := true }, flushNor := [(0, nor9 6), (1, nor9 3), (2, nor9 4), (3, nor9 5)] }, 5, (1, nor9 3), by decide +kernel, by decide +kernel, by decide +kernel⟩⟩

theorem witness_Channels :
  (∃ (s : State) (dt : Nat) (p : Port) (c : Fin 64) (stamp : BitVec 32) (v : List Byte),
    c.val < 8 ∧ v.length = 64 ∧ ((s.tu p).chan c.val).out = false ∧ ((s.tu p).chan c.val).queue.length < 16) ∧
  (∃ (s : State) (dt : Nat) (p : Port) (c : Fin 64) (stamp : BitVec 32) (v : List Byte),
    c.val < 8 ∧ (v.length ≠ 64 ∨ ((s.tu p).chan c.val).out = true)) ∧
  (∃ (s : State) (dt : Nat) (c : Fin 64) (stamp : BitVec 32) (v : List Byte),
    v.length = 64 ∧ (s.fy.chan c.val).out = false ∧ stampPort stamp ≠ 0x12 ∧ (s.fy.chan c.val).queue.length < 16) ∧
  (∃ (s : State) (dt : Nat) (c : Fin 64) (stamp : BitVec 32) (v : List Byte),
    v.length = 64 ∧ (s.fy.chan c.val).out = false ∧ stampPort stamp ≠ 0x12 ∧ 16 ≤ (s.fy.chan c.val).queue.length) ∧
  (∃ (s : State) (dt : Nat) (c : Fin 64) (rc : BitVec 16) (v : List Byte) (m : Msg) (l : List Msg),
    (s.fy.chan c.val).queue = m :: l) ∧
  (∃ (s : State) (dt : Nat) (p : Port) (c : Fin 64) (rc : BitVec 16) (v : List Byte) (m : Msg) (l : List Msg),
    c.val < 8 ∧ ((s.tu p).chan c.val).out = false ∧ ((s.tu p).chan c.val).queue = m :: l) ∧
  (∃ (s : State) (dt : Nat) (c : Fin 64) (rc : BitVec 16) (v : List Byte),
    (s.fy.chan c.val).queue = []) ∧
  (∃ (s : State) (dt : Nat) (p : Port) (c : Fin 64) (v : Bool),
    c.val < 8) ∧
  (∃ (s : State) (dt : Nat) (lvl : Level) (c : Fin 64) (v : Byte),
    1 ≤ Level.rank lvl ∧ v.toNat ≤ 1 ∧ (s.fy.chan c.val).queue = []) ∧
  (∃ (s : State) (dt : Nat) (lvl : Level) (c : Fin 64) (v : Byte),
    1 ≤ Level.rank lvl ∧ v.toNat ≤ 1 ∧ (s.fy.chan c.val).queue ≠ []) ∧
  (∃ (s : State) (dt : Nat) (p : Port) (lvl : Level) (c : Fin 64) (v : Byte),
    1 ≤ Level.rank lvl ∧ c.val < 8 ∧ v.toNat ≤ 1 ∧ ((s.tu p).chan c.val).queue = [] ∧ (v.toNat = 1 ∨ (s.tu p).rd 0x2900 9 ≠
    c.val)) ∧
  (∃ (s : State) (dt : Nat) (p : Port) (lvl : Level) (v : Byte),
    1 ≤ Level.rank lvl ∧ v.toNat ≤ 7 ∧ ((s.tu p).chan v.toNat).out = true) :=
  ⟨⟨State.reset, 5, 0, 2, 1, List.replicate 64 7, by decide +kernel, by decide +kernel, by decide +kernel, by decide +kernel⟩,
    ⟨State.reset, 5, 0, 2, 1, [7], by decide +kernel, by decide +kernel⟩,
    ⟨State.reset, 5, 2, 0x11, List.replicate 64 7, by decide +kernel, by decide +kernel, by decide +kernel, by decide +kernel⟩,
    ⟨fyS fun f => { f with part := { f.part with chans := [(2, { f.chan 2 with queue := List.replicate 16 { body := [], stamp := 1, mseq := 5 } })] } }, 5, 2, 0x11, List.replicate 64 7, by decide +kernel, by decide +kernel, by decide +kernel, by decide +kernel⟩,
    ⟨fyMsg9 [], 5, 2, 3, [7], { body := [], stamp := 0x11, mseq := 5 }, [], by decide +kernel⟩,
    ⟨tuMsg9 [], 5, 0, 0, 3, [7], { body := [], stamp := 1, mseq := 5 }, [], by decide +kernel, by decide +kernel, by decide +kernel⟩,
    ⟨State.reset, 5, 2, 3, [7], by decide +kernel⟩,
    ⟨tuMsg9 [], 5, 0, 0, true, by decide +kernel⟩,
    ⟨State.reset, 5, .operate, 2, 1, by decide +kernel, by decide +kernel, by decide +kernel⟩,
    ⟨fyMsg9 [], 5, .operate, 2, 1, by decide +kernel, by decide +kernel, by decide +kernel⟩,
    ⟨State.reset, 5, 0, .operate, 2, 1, by decide +kernel, by decide +kernel, by decide +kernel, by decide +kernel, by decide +kernel⟩,
    ⟨State.reset, 5, 0, .operate, 1, by decide +kernel, by decide +kernel, by decide +kernel⟩⟩

theorem witness_MailboxDictionary :
  (∃ (s : State) (dt : Nat) (p : Port) (c : Fin 64) (q : MboxReq) (v : Nat × Nat × List Byte),
    ((s.tu p).chan c.val).dictReq 0x60 = some q ∧ v = ((s.tu p).tick dt).readObj p q.index q.sub ∧ v.1 = 0 ∧ v.2.1 ≠ 12 ∧
    (((s.tu p).tick dt).mboxCharge (min 48 v.2.2.length) 0).2 = false ∧ q.code (q.node != 0) ((s.tu p).part.mboxLevel false
    q.stamp) false = 0) ∧
  (∃ (s : State) (dt : Nat) (c : Fin 64) (q : MboxReq) (v : Nat × Nat × List Byte),
    s.fy.mboxReq c.val 0x60 = some q ∧ s.fy.mboxCode q = 0 ∧ q.node = 0 ∧ v = (s.fy.tick dt).readObj q.index q.sub ∧ v.1 =
    0 ∧ v.2.1 ≠ 12) ∧
  (∃ (s : State) (dt : Nat) (c : Fin 64) (q : MboxReq) (a : Nat),
    s.fy.mboxReq c.val 0x60 = some q ∧ s.fy.mboxCode q = a ∧ 0 < a) ∧
  (∃ (s : State) (dt : Nat) (p : Port) (c : Fin 64) (q : MboxReq),
    ((s.tu p).chan c.val).dictReq 0x61 = some q ∧ (((s.tu p).tick dt).mboxCharge q.len q.len).2 = false ∧ q.code (q.node !=
    0) ((s.tu p).part.mboxLevel false q.stamp) false = 0 ∧ q.index = 0x2110 ∧ typeBad 2 q.index q.sub q.type = false ∧
    writeCode 2 ((s.tu p).part.mboxLevel false q.stamp - 1) q.index q.sub q.data = 0) ∧
  (∃ (s : State) (dt : Nat) (c : Fin 64) (q : MboxReq),
    s.fy.mboxReq c.val 0x61 = some q ∧ s.fy.mboxCode q = 0 ∧ q.node ≠ 0) ∧
  (∃ (s : State) (dt : Nat) (p : Port) (c : Fin 64) (q : MboxReq),
    ((s.tu p).chan c.val).dictReq 0x62 = some q ∧ (((s.tu p).tick dt).mboxCharge q.len q.len).2 = false ∧ q.code (q.node !=
    0) ((s.tu p).part.mboxLevel false q.stamp) false = 0 ∧ segmentCode 2 q.index q.sub q.ofs q.data.length = 0) ∧
  (∃ (s : State) (dt : Nat) (c : Fin 64) (q : MboxReq),
    s.fy.mboxReq c.val 0x62 = some q ∧ s.fy.mboxCode q = 0 ∧ segmentCode (if q.node = 0 then 1 else 2) q.index q.sub q.ofs
    q.data.length = 0) ∧
  (∃ (s : State) (dt : Nat) (p : Port) (c : Fin 64) (q : MboxReq) (b : List Host.Cell),
    ((s.tu p).chan c.val).dictReq 0x63 = some q ∧ (((s.tu p).tick dt).mboxCharge 0 0).2 = false ∧ q.code (q.node != 0)
    ((s.tu p).part.mboxLevel false q.stamp) false = 0 ∧ ((s.tu p).chan c.val).gathered q = some b ∧ q.total ≤ 65536 ∧
    q.index ≠ 0x2E00 ∧ q.index ≠ 0x2940) ∧
  (∃ (s : State) (dt : Nat) (c : Fin 64) (q : MboxReq) (b : List Host.Cell),
    s.fy.mboxReq c.val 0x63 = some q ∧ s.fy.mboxCode q = 0 ∧ (s.fy.chan c.val).gathered q = some b ∧ q.total ≤ 65536 ∧
    q.node = 0 ∧ q.index = 0x4480 ∧ q.sub = 1 ∧ writeCode 1 (s.fy.mboxLevel q) 0x4480 1 (memRead b 0 q.total) = 0 ∧
    batchSpecCode (memRead b 0 q.total) = 0 ∧ s.fy.jun.batch.state = 0 ∧ s.fy.resetAfter = none) ∧
  (∃ (s : State) (dt : Nat) (c : Fin 64) (q : MboxReq),
    s.fy.mboxReq c.val 0x63 = some q ∧ s.fy.mboxCode q = 0 ∧ (s.fy.chan c.val).gathered q = none ∧ q.total ≤ 65536) ∧
  (∃ (s : State) (dt : Nat) (p : Port) (c : Fin 64) (m : Msg),
    ((s.tu p).chan c.val).headIn = some m ∧ otherCode (fieldAt m.body 0 1) = true) ∧
  (∃ (s : State) (dt : Nat) (c : Fin 64) (m : Msg),
    (s.fy.chan c.val).headIn = some m ∧ otherCode (fieldAt m.body 0 1) = true ∧ fieldAt m.body 0 1 < 0x80) ∧
  (∃ (s : State) (dt : Nat) (c : Fin 64) (m : Msg),
    (s.fy.chan c.val).headIn = some m ∧ 0x80 ≤ fieldAt m.body 0 1) :=
  ⟨⟨tuMsg9 (dictBody9 0x60 0 0x2110 16 4 0 0 []), 5, 0, 0, { node := 0, index := 0x2110, sub := 16, type := 4, len := 0, ofs := 0, total := 0, data := [], stamp := 1 }, (0, 4, leBytes 4 100), by decide +kernel, by decide +kernel, by decide +kernel, by decide +kernel, by decide +kernel, by decide +kernel⟩,
    ⟨fyMsg9 (dictBody9 0x60 0 0x1100 2 4 0 0 []), 5, 2, { node := 0, index := 0x1100, sub := 2, type := 4, len := 0, ofs := 0, total := 0, data := [], stamp := 0x11 }, (0, 3, leBytes 2 60), by decide +kernel, by decide +kernel, by decide +kernel, by decide +kernel, by decide +kernel, by decide +kernel⟩,
    ⟨fyMsg9 (dictBody9 0x60 7 0x2110 2 4 0 0 []), 5, 2, { node := 7, index := 0x2110, sub := 2, type := 4, len := 0, ofs := 0, total := 0, data := [], stamp := 0x11 }, 0x10, by decide +kernel, by decide +kernel, by decide +kernel⟩,
    ⟨tuMsg9 (dictBody9 0x61 0 0x2110 16 4 0 0 [200, 0, 0, 0]), 5, 0, 0, { node := 0, index := 0x2110, sub := 16, type := 4, len := 4, ofs := 0, total := 0, data := [200, 0, 0, 0], stamp := 1 }, by decide +kernel, by decide +kernel, by decide +kernel, by decide +kernel, by decide +kernel, by decide +kernel⟩,
    ⟨{ (fyMsg9 (dictBody9 0x61 4 0x2110 16 4 0 0 [200, 0, 0, 0])) with fy := { (fyMsg9 (dictBody9 0x61 4 0x2110 16 4 0 0 [200, 0, 0, 0])).fy with nodes := [(3, 2)], links := [(3, { Link.reset with st := .up })] } }, 5, 2, { node := 4, index := 0x2110, sub := 16, type := 4, len := 4, ofs := 0, total := 0, data := [200, 0, 0, 0], stamp := 0x11 }, by decide +kernel, by decide +kernel, by decide +kernel⟩,
    ⟨tuMsg9 (dictBody9 0x62 0 0x2610 1 12 8 0 [200, 0, 0, 0]), 5, 0, 0, { node := 0, index := 0x2610, sub := 1, type := 12, len := 4, ofs := 8, total := 0, data := [200, 0, 0, 0], stamp := 1 }, by decide +kernel, by decide +kernel, by decide +kernel, by decide +kernel⟩,
    ⟨fyMsg9 (dictBody9 0x62 0 0x4480 1 12 8 0 [200, 0, 0, 0]), 5, 2, { node := 0, index := 0x4480, sub := 1, type := 12, len := 4, ofs := 8, total := 0, data := [200, 0, 0, 0], stamp := 0x11 }, by decide +kernel, by decide +kernel, by decide +kernel⟩,
    ⟨tuS fun t => (t.wr 0x6100 2 2).putChan 0 { t.chan 0 with queue := [{ body := dictBody9 0x63 0 0x2600 10 12 0 8 [], stamp := 1, mseq := 5 }], gather := some { sender := 1, node := 0, index := 0x2600, sub := 10, bytes := memWrite [] 0 [7, 0, 0, 0, 3, 0, 0, 0] } }, 5, 0, 0, { node := 0, index := 0x2600, sub := 10, type := 12, len := 0, ofs := 0, total := 8, data := [], stamp := 1 }, memWrite [] 0 [7, 0, 0, 0, 3, 0, 0, 0], by decide +kernel, by decide +kernel, by decide +kernel, by decide +kernel, by decide +kernel, by decide +kernel, by decide +kernel⟩,
    ⟨fyS fun f => (f.wr 0x6100 6 2).putChan 2 { f.chan 2 with queue := [{ body := dictBody9 0x63 0 0x4480 1 12 0 48 [], stamp := 0x11, mseq := 5 }], gather := some { sender := 0x11, node := 0, index := 0x4480, sub := 1, bytes := memWrite [] 0 (leBytes 48 (1 + 256 + 5 * 2 ^ 32)) } }, 5, 2, { node := 0, index := 0x4480, sub := 1, type := 12, len := 0, ofs := 0, total := 48, data := [], stamp := 0x11 }, memWrite [] 0 (leBytes 48 (1 + 256 + 5 * 2 ^ 32)), by decide +kernel, by decide +kernel, by decide +kernel, by decide +kernel, by decide +kernel, by decide +kernel, by decide +kernel, by decide +kernel, by decide +kernel, by decide +kernel, by decide +kernel⟩,
    ⟨fyMsg9 (dictBody9 0x63 0 0x4480 1 12 0 48 []), 5, 2, { node := 0, index := 0x4480, sub := 1, type := 12, len := 0, ofs := 0, total := 48, data := [], stamp := 0x11 }, by decide +kernel, by decide +kernel, by decide +kernel, by decide +kernel⟩,
    ⟨tuMsg9 (dictBody9 0x55 0 0 0 0 0 0 []), 5, 0, 0, { body := dictBody9 0x55 0 0 0 0 0 0 [], stamp := 1, mseq := 5 }, by decide +kernel, by decide +kernel⟩,
    ⟨fyMsg9 (dictBody9 0x55 0 0 0 0 0 0 []), 5, 2, { body := dictBody9 0x55 0 0 0 0 0 0 [], stamp := 0x11, mseq := 5 }, by decide +kernel, by decide +kernel, by decide +kernel⟩,
    ⟨fyMsg9 (dictBody9 0x95 0 0 0 0 0 0 []), 5, 2, { body := dictBody9 0x95 0 0 0 0 0 0 [], stamp := 0x11, mseq := 5 }, by decide +kernel, by decide +kernel⟩⟩

theorem witness_OpeningASession :
  (∃ (s : State) (dt : Nat) (m : Datagram) (h : TdpMsg),
    s.fy.tdpFor m 1 = some h ∧ h.shape = true ∧ h.version = 1 ∧ (s.fy.tick dt).lockedOut h.src = false ∧ (fieldAt h.value 4
    1 = 1 ∨ fieldAt h.value 4 1 = 2) ∧ s.fy.sessions.length < 16 ∧ (recentMs (s.fy.tick dt).ns 1000 (s.fy.source
    h.src).times).length < s.fy.rd 0x1100 3) ∧
  (∃ (s : State) (dt : Nat) (m : Datagram) (h : TdpMsg),
    s.fy.tdpFor m 1 = some h ∧ h.shape = true ∧ h.version = 1 ∧ (s.fy.tick dt).lockedOut h.src = true) ∧
  (∃ (s : State) (dt : Nat) (a : SecLeave) (h : Hello),
    s.fy.boot.running = true ∧ (s.fy.hellos.find? fun h => h.src == a.src) = some h ∧ a.leave = true ∧ s.fy.sessions.length
    < 16) ∧
  (∃ (s : State) (dt : Nat) (a : SecLeave) (h : Hello),
    s.fy.boot.running = true ∧ (s.fy.hellos.find? fun h => h.src == a.src) = some h ∧ a.leave = false) ∧
  (∃ (s : State) (dt : Nat) (m : Datagram) (h : TdpMsg) (x : Session),
    s.fy.tdpFor m 3 = some h ∧ h.shape = true ∧ h.version = 1 ∧ (s.fy.sessions.find? fun s => s.id == h.session) = some x ∧
    x.live = false ∧ x.proof = none ∧ (s.fy.tick dt).ns ≤ x.since + 5000000000) ∧
  (∃ (s : State) (dt : Nat) (m : Datagram) (h : TdpMsg) (x : Session),
    s.fy.tdpFor m 3 = some h ∧ h.shape = true ∧ h.version = 1 ∧ (s.fy.sessions.find? fun s => s.id == h.session) = some x ∧
    x.live = false ∧ x.proof = none ∧ x.since + 5000000000 < (s.fy.tick dt).ns) ∧
  (∃ (s : State) (dt : Nat) (n : BitVec 32) (x : Session) (q : Nat),
    s.fy.boot.running = true ∧ (s.fy.sessions.find? fun s => s.id == n.toNat && !s.live) = some x ∧ x.proof = some q) ∧
  (∃ (s : State) (dt : Nat) (n : BitVec 32) (x : Session) (q : Nat),
    s.fy.boot.running = true ∧ (s.fy.sessions.find? fun s => s.id == n.toNat && !s.live) = some x ∧ x.proof = some q) ∧
  (∃ (s : State) (dt : Nat) (n : BitVec 32) (x : Session),
    (s.fy.sessions.find? fun s => s.id == n.toNat) = some x ∧ x.live = false ∧ x.proof = none ∧ x.since + 5000000000 ≤
    (s.fy.tick dt).ns) ∧
  (∃ (s : State) (dt : Nat) (n : BitVec 32) (x : Session),
    s.fy.session? n.toNat = some x ∧ x.lastAt + s.fy.rd 0x1100 2 * 1000000000 ≤ (s.fy.tick dt).ns) ∧
  (∃ (s : State) (dt : Nat) (a : BitVec 128),
    (s.fy.source a).locked.isSome = true ∧ (s.fy.tick dt).lockedOut a = false) ∧
  (∃ (s : State) (dt : Nat) (m : Datagram),
    s.fy.boot.running = true ∧ tdpMsg m = none) :=
  ⟨⟨fyTdp id, 5, hello9, msgOf9 hello9, by decide +kernel, by decide +kernel, by decide +kernel, by decide +kernel, by decide +kernel, by decide +kernel, by decide +kernel⟩,
    ⟨fyTdp fun f => { f with sources := [{ Source.new 5 with locked := some 0 }] }, 5, hello9, msgOf9 hello9, by decide +kernel, by decide +kernel, by decide +kernel, by decide +kernel⟩,
    ⟨fyTdp fun f => { f with hellos := [helloWait9] }, 5, { src := 5, leave := true, nonce := List.replicate 16 3 }, helloWait9, by decide +kernel, by decide +kernel, by decide +kernel, by decide +kernel⟩,
    ⟨fyTdp fun f => { f with hellos := [helloWait9] }, 5, { src := 5, leave := false, nonce := [] }, helloWait9, by decide +kernel, by decide +kernel, by decide +kernel⟩,
    ⟨fyTdp fun f => { f with sessions := [provis9] }, 5, auth9, msgOf9 auth9, provis9, by decide +kernel, by decide +kernel, by decide +kernel, by decide +kernel, by decide +kernel, by decide +kernel, by decide +kernel⟩,
    ⟨fyTdp fun f => { f with sessions := [provis9] }, 65536 * 60000000000, auth9, msgOf9 auth9, provis9, by decide +kernel, by decide +kernel, by decide +kernel, by decide +kernel, by decide +kernel, by decide +kernel, by decide +kernel⟩,
    ⟨fyTdp fun f => { f with sessions := [{ provis9 with proof := some 4 }] }, 5, 9, { provis9 with proof := some 4 }, 4, by decide +kernel, by decide +kernel, by decide +kernel⟩,
    ⟨fyTdp fun f => { f with sessions := [{ provis9 with proof := some 4 }] }, 5, 9, { provis9 with proof := some 4 }, 4, by decide +kernel, by decide +kernel, by decide +kernel⟩,
    ⟨fyTdp fun f => { f with sessions := [provis9] }, 65536 * 60000000000, 9, provis9, by decide +kernel, by decide +kernel, by decide +kernel, by decide +kernel⟩,
    ⟨fyTdp id, 65536 * 600000000000, 9, session9, by decide +kernel, by decide +kernel⟩,
    ⟨fyTdp fun f => { f with sources := [{ Source.new 5 with locked := some 0 }] }, 65536 * 600000000000, 5, by decide +kernel, by decide +kernel⟩,
    ⟨fyTdp id, 5, { src := 5, port := 7, bytes := [1, 2], tagOk := false }, by decide +kernel, by decide +kernel⟩⟩

theorem witness_Requests :
  (∃ (s : State) (dt : Nat) (m : Datagram) (h : TdpMsg) (v : Nat × Nat × List Byte),
    s.fy.tdpFor m 0x10 = some h ∧ ((s.fy.tick dt).tdpTake h).2 = true ∧ h.node = 0 ∧ v = ((s.fy.tick dt).tdpTake
    h).1.readObj h.index h.sub ∧ v.1 = 0 ∧ v.2.2.length ≤ 512) ∧
  (∃ (s : State) (dt : Nat) (m : Datagram) (h : TdpMsg),
    s.fy.tdpFor m 0x10 = some h ∧ ((s.fy.tick dt).tdpTake h).2 = true ∧ h.node ≠ 0 ∧ s.fy.nodeCode h.node = 0) ∧
  (∃ (s : State) (dt : Nat) (m : Datagram) (h : TdpMsg) (x : Session) (k : Kept),
    s.fy.tdpFor m 0x10 = some h ∧ h.shape = true ∧ h.version = 1 ∧ h.tagged = true ∧ h.tagOk = true ∧ s.fy.session?
    h.session = some x ∧ x.received h.seq = true ∧ h.seq ≠ 0 ∧ (x.kept.find? fun k => k.seq == h.seq) = some k) ∧
  (∃ (s : State) (dt : Nat) (m : Datagram) (h : TdpMsg),
    s.fy.tdpFor m 0x12 = some h ∧ ((s.fy.tick dt).tdpTake h).2 = true ∧ h.node = 0 ∧ h.index = 0x1100 ∧ typeBad 1 h.index
    h.sub h.type = false ∧ writeCode 1 (((s.fy.tick dt).tdpTake h).1.levelOf h.session) h.index h.sub h.value = 0 ∧
    s.fy.resetAfter = none) ∧
  (∃ (s : State) (dt : Nat) (m : Datagram) (h : TdpMsg),
    s.fy.tdpFor m 0x12 = some h ∧ ((s.fy.tick dt).tdpTake h).2 = true ∧ h.node ≠ 0 ∧ s.fy.nodeCode h.node = 0) ∧
  (∃ (s : State) (dt : Nat) (m : Datagram) (h : TdpMsg),
    s.fy.tdpFor m 0x05 = some h ∧ ((s.fy.tick dt).tdpTake h).2 = true ∧ h.session ≠ 0) :=
  ⟨⟨fyTdp id, 5, dg9 (out9 0x10 5 0 0x1100 2 3) 0 [], msgOf9 (dg9 (out9 0x10 5 0 0x1100 2 3) 0 []), (0, 3, leBytes 2 60), by decide +kernel, by decide +kernel, by decide +kernel, by decide +kernel, by decide +kernel, by decide +kernel⟩,
    ⟨fyTdp tuUp, 5, dg9 (out9 0x10 5 4 0x2110 16 4) 0 [], msgOf9 (dg9 (out9 0x10 5 4 0x2110 16 4) 0 []), by decide +kernel, by decide +kernel, by decide +kernel, by decide +kernel⟩,
    ⟨fyTdp fun f => { f with sessions := [{ session9 with kept := [{ seq := 4, bytes := leBytes 32 1 }] }] }, 5, dg9 (out9 0x10 4 0 0x1100 2 3) 0 [], msgOf9 (dg9 (out9 0x10 4 0 0x1100 2 3) 0 []), { session9 with kept := [{ seq := 4, bytes := leBytes 32 1 }] }, { seq := 4, bytes := leBytes 32 1 }, by decide +kernel, by decide +kernel, by decide +kernel, by decide +kernel, by decide +kernel, by decide +kernel, by decide +kernel, by decide +kernel, by decide +kernel⟩,
    ⟨fyTdp id, 5, dg9 (out9 0x12 5 0 0x1100 2 3) 2 [100, 0], msgOf9 (dg9 (out9 0x12 5 0 0x1100 2 3) 2 [100, 0]), by decide +kernel, by decide +kernel, by decide +kernel, by decide +kernel, by decide +kernel, by decide +kernel, by decide +kernel⟩,
    ⟨fyTdp tuUp, 5, dg9 (out9 0x12 5 4 0x2110 16 4) 4 [200, 0, 0, 0], msgOf9 (dg9 (out9 0x12 5 4 0x2110 16 4) 4 [200, 0, 0, 0]), by decide +kernel, by decide +kernel, by decide +kernel, by decide +kernel⟩,
    ⟨fyTdp id, 5, dg9 (out9 5 5 0xFF 0 0 0) 0 [], msgOf9 (dg9 (out9 5 5 0xFF 0 0 0) 0 []), by decide +kernel, by decide +kernel, by decide +kernel⟩⟩

theorem witness_BlockTransfers :
  (∃ (s : State) (dt : Nat) (m : Datagram) (h : TdpMsg) (v : Nat × Nat × List Byte),
    s.fy.tdpFor m 0x20 = some h ∧ ((s.fy.tick dt).tdpTake h).2 = true ∧ h.session ≠ 0 ∧ h.node = 0 ∧ v = ((s.fy.tick
    dt).tdpTake h).1.readObj h.index h.sub ∧ v.1 = 0 ∧ v.2.1 = 12 ∧ s.fy.xfersFull h.session = false) ∧
  (∃ (s : State) (dt : Nat) (m : Datagram) (h : TdpMsg),
    s.fy.tdpFor m 0x21 = some h ∧ ((s.fy.tick dt).tdpTake h).2 = true ∧ h.session ≠ 0 ∧ s.fy.nodeCode h.node = 0 ∧
    blkWriteCode (if h.node = 0 then 1 else 2) h.index h.sub (fieldAt h.value 0 4) = 0 ∧ s.fy.xfersFull h.session = false) ∧
  (∃ (s : State) (dt : Nat) (m : Datagram) (h : TdpMsg) (x : Xfer),
    s.fy.tdpFor m 0x23 = some h ∧ ((s.fy.tick dt).tdpTake h).2 = true ∧ s.fy.xferOf h true = some x ∧ fieldAt h.value 4 4 =
    x.next ∧ x.next < segCount x.total ∧ (h.value.drop 8).length = min 512 (x.total - 512 * x.next) ∧ x.sinceAck ≠ 3) ∧
  (∃ (s : State) (dt : Nat) (m : Datagram) (h : TdpMsg) (x : Xfer),
    s.fy.tdpFor m 0x23 = some h ∧ ((s.fy.tick dt).tdpTake h).2 = true ∧ s.fy.xferOf h true = some x ∧ fieldAt h.value 4 4 ≠
    x.next) ∧
  (∃ (s : State) (dt : Nat) (m : Datagram) (h : TdpMsg) (x : Xfer) (n : Nat),
    s.fy.tdpFor m 0x24 = some h ∧ ((s.fy.tick dt).tdpHead h).2 = true ∧ s.fy.xferOf h false = some x ∧ x.ready = true ∧ n =
    (fieldAt h.value 4 4 + 1) % 2 ^ 32 ∧ x.next < n ∧ n ≤ x.sent) ∧
  (∃ (s : State) (dt : Nat) (m : Datagram) (h : TdpMsg) (x : Xfer),
    s.fy.tdpFor m 0x25 = some h ∧ ((s.fy.tick dt).tdpTake h).2 = true ∧ s.fy.xferOf h true = some x ∧ s.fy.partsUnderWay
    x.id = false ∧ (x.bytes.length ≠ x.total ∨ crc32c x.bytes ≠ x.crc)) ∧
  (∃ (s : State) (dt : Nat) (m : Datagram) (h : TdpMsg) (x : Xfer),
    s.fy.tdpFor m 0x25 = some h ∧ ((s.fy.tick dt).tdpTake h).2 = true ∧ s.fy.xferOf h true = some x ∧ s.fy.partsUnderWay
    x.id = false ∧ x.bytes.length = x.total ∧ crc32c x.bytes = x.crc ∧ x.node = 0 ∧ x.index = 0x4480 ∧ x.sub = 1 ∧
    writeCode 1 (((s.fy.tick dt).tdpTake h).1.levelOf h.session) 0x4480 1 x.bytes = 0 ∧ batchSpecCode x.bytes = 0 ∧
    s.fy.jun.batch.state = 0 ∧ s.fy.resetAfter = none) ∧
  (∃ (s : State) (dt : Nat) (n : BitVec 16) (x : Xfer),
    s.fy.xfer? n.toNat = some x ∧ x.write = false ∧ x.ready = true ∧ x.next < x.sent ∧ x.ackAt + 100000000 ≤ (s.fy.tick
    dt).ns) ∧
  (∃ (s : State) (dt : Nat) (n : BitVec 16) (x : Xfer),
    s.fy.xfer? n.toNat = some x ∧ x.lastAt + 1000000000 ≤ (s.fy.tick dt).ns) :=
  ⟨⟨fyTdp id, 5, dg9 (out9 0x20 5 0 0x4480 1 12) 0 [], msgOf9 (dg9 (out9 0x20 5 0 0x4480 1 12) 0 []), (0, 12, []), by decide +kernel, by decide +kernel, by decide +kernel, by decide +kernel, by decide +kernel, by decide +kernel, by decide +kernel, by decide +kernel⟩,
    ⟨fyTdp id, 5, dg9 (out9 0x21 5 0 0x4480 1 12) 8 (leBytes 8 48), msgOf9 (dg9 (out9 0x21 5 0 0x4480 1 12) 8 (leBytes 8 48)), by decide +kernel, by decide +kernel, by decide +kernel, by decide +kernel, by decide +kernel, by decide +kernel⟩,
    ⟨fyTdp fun f => { f with xfers := [xfer9 true] }, 5, dg9 (out9 0x23 5 0 0 0 0) 48 (leBytes 4 3 ++ leBytes 4 0 ++ xferBytes9), msgOf9 (dg9 (out9 0x23 5 0 0 0 0) 48 (leBytes 4 3 ++ leBytes 4 0 ++ xferBytes9)), xfer9 true, by decide +kernel, by decide +kernel, by decide +kernel, by decide +kernel, by decide +kernel, by decide +kernel, by decide +kernel⟩,
    ⟨fyTdp fun f => { f with xfers := [xfer9 true] }, 5, dg9 (out9 0x23 5 0 0 0 0) 48 (leBytes 4 3 ++ leBytes 4 1 ++ xferBytes9), msgOf9 (dg9 (out9 0x23 5 0 0 0 0) 48 (leBytes 4 3 ++ leBytes 4 1 ++ xferBytes9)), xfer9 true, by decide +kernel, by decide +kernel, by decide +kernel, by decide +kernel⟩,
    ⟨fyTdp fun f => { f with xfers := [{ xfer9 false with sent := 1, bytes := xferBytes9 }] }, 5, dg9 (out9 0x24 5 0 0 0 0) 8 (leBytes 8 3), msgOf9 (dg9 (out9 0x24 5 0 0 0 0) 8 (leBytes 8 3)), { xfer9 false with sent := 1, bytes := xferBytes9 }, 1, by decide +kernel, by decide +kernel, by decide +kernel, by decide +kernel, by decide +kernel, by decide +kernel, by decide +kernel⟩,
    ⟨fyTdp fun f => { f with xfers := [xfer9 true] }, 5, dg9 (out9 0x25 5 0 0 0 0) 8 (leBytes 8 3), msgOf9 (dg9 (out9 0x25 5 0 0 0 0) 8 (leBytes 8 3)), xfer9 true, by decide +kernel, by decide +kernel, by decide +kernel, by decide +kernel, by decide +kernel⟩,
    ⟨fyTdp fun f => { f with xfers := [{ xfer9 true with next := 1, bytes := xferBytes9 }] }, 5, dg9 (out9 0x25 5 0 0 0 0) 8 (leBytes 8 3), msgOf9 (dg9 (out9 0x25 5 0 0 0 0) 8 (leBytes 8 3)), { xfer9 true with next := 1, bytes := xferBytes9 }, by decide +kernel, by decide +kernel, by decide +kernel, by decide +kernel, by decide +kernel, by decide +kernel, by decide +kernel, by decide +kernel, by decide +kernel, by decide +kernel, by decide +kernel, by decide +kernel, by decide +kernel⟩,
    ⟨fyTdp fun f => { f with xfers := [{ xfer9 false with sent := 1, bytes := xferBytes9 }] }, 65536 * 60000000000, 3, { xfer9 false with sent := 1, bytes := xferBytes9 }, by decide +kernel, by decide +kernel, by decide +kernel, by decide +kernel, by decide +kernel⟩,
    ⟨fyTdp fun f => { f with xfers := [xfer9 true] }, 65536 * 60000000000, 3, xfer9 true, by decide +kernel, by decide +kernel⟩⟩

theorem witness_Subscriptions :
  (∃ (s : State) (dt : Nat) (m : Datagram) (h : TdpMsg),
    s.fy.tdpFor m 0x30 = some h ∧ ((s.fy.tick dt).tdpTake h).2 = true ∧ h.session ≠ 0 ∧ h.node = 0 ∧ ((s.fy.tick
    dt).tdpTake h).1.subObjCode h = 0 ∧ 0 < fieldAt h.value 2 2 ∧ fieldAt h.value 2 2 ≤ 60000 ∧ (fieldAt h.value 0 1 = 1 ∨
    fieldAt h.value 0 1 = 2) ∧ s.fy.subsFull h.session = false) ∧
  (∃ (s : State) (dt : Nat) (m : Datagram) (h : TdpMsg),
    s.fy.tdpFor m 0x32 = some h ∧ ((s.fy.tick dt).tdpTake h).2 = true ∧ h.session ≠ 0 ∧ (s.fy.subs.any fun x => x.id ==
    fieldAt h.value 0 2 && x.session == h.session) = true) ∧
  (∃ (s : State) (dt : Nat) (n : BitVec 16) (x : Sub) (v : Nat × Nat × List Byte),
    (s.fy.subs.find? fun x => x.id == n.toNat) = some x ∧ x.node = 0 ∧ x.last.isSome = true ∧ x.readAt + 1000000 ≤
    (s.fy.tick dt).ns ∧ v = (s.fy.tick dt).readObj x.index x.sub ∧ v.1 = 0 ∧ v.2.2.length ≤ 512) ∧
  (∃ (s : State) (dt : Nat) (n : BitVec 16) (x : Sub),
    (s.fy.subs.find? fun x => x.id == n.toNat) = some x ∧ (s.fy.tick dt).ns < x.readAt + 1000000) :=
  ⟨⟨fyTdp id, 5, dg9 (out9 0x30 5 0 0x1100 2 3) 4 (leBytes 4 (1 + 10 * 65536)), msgOf9 (dg9 (out9 0x30 5 0 0x1100 2 3) 4 (leBytes 4 (1 + 10 * 65536))), by decide +kernel, by decide +kernel, by decide +kernel, by decide +kernel, by decide +kernel, by decide +kernel, by decide +kernel, by decide +kernel, by decide +kernel⟩,
    ⟨fyTdp fun f => { f with subs := [sub9] }, 5, dg9 (out9 0x32 5 0 0 0 0) 2 (leBytes 2 6), msgOf9 (dg9 (out9 0x32 5 0 0 0 0) 2 (leBytes 2 6)), by decide +kernel, by decide +kernel, by decide +kernel, by decide +kernel⟩,
    ⟨fyTdp fun f => { f with subs := [sub9] }, 65536 * 60000000000, 6, sub9, (0, 3, leBytes 2 60), by decide +kernel, by decide +kernel, by decide +kernel, by decide +kernel, by decide +kernel, by decide +kernel, by decide +kernel⟩,
    ⟨fyTdp fun f => { f with subs := [sub9] }, 5, 6, sub9, by decide +kernel, by decide +kernel⟩⟩

theorem witness_FysterResets :
  (∃ (s : State) (dt : Nat) (lvl : Level) (a : Bool) (b : Bool),
    2 ≤ Level.rank lvl) ∧
  (∃ (s : State) (dt : Nat) (lvl : Level) (a : Bool) (b : Bool),
    2 ≤ Level.rank lvl) ∧
  (∃ (s : State) (dt : Nat) (a : Bool) (b : Bool) (k : Nat) (l : List Nat),
    s.fy.boot.running = true ∧ s.fy.part.evr.flush = none ∧ s.fy.erasedSlots = k :: l) ∧
  (∃ (s : State) (dt : Nat),
    s.fy.boot.running = true ∧ s.fy.boot.hbm = false) :=
  ⟨⟨fyCal, 5, .service, true, false, by decide +kernel⟩,
    ⟨fyCal, 5, .service, true, false, by decide +kernel⟩,
    ⟨fyReady, 5, true, false, 0, [1, 2, 3], by decide +kernel, by decide +kernel, by decide +kernel⟩,
    ⟨fyTdp id, 5, by decide +kernel, by decide +kernel⟩⟩

theorem witness_PowerFailure :
  (∃ (s : State) (dt : Nat) (k : Nat) (l : List Nat),
    s.fy.boot.running = true ∧ s.fy.boot.pfail = false ∧ s.fy.part.evr.flush = none ∧ s.fy.erasedSlots = k :: l) ∧
  (∃ (s : State) (dt : Nat) (k : Nat) (x : Flush),
    s.fy.norSlot = some k ∧ s.fy.part.evr.flush = some x ∧ s.fy.resetAfter = none) ∧
  (∃ (s : State) (dt : Nat) (k : Nat) (x : Flush),
    s.fy.norSlot = some k ∧ s.fy.part.evr.flush = some x ∧ s.fy.resetAfter = some 5) :=
  ⟨⟨fyReady, 5, 0, [1, 2, 3], by decide +kernel, by decide +kernel, by decide +kernel, by decide +kernel⟩,
    ⟨fyS fun f => { f with norSlot := some 2, part := { f.part with evr := flushing9 } }, 5, 2, { cause := 3, at64 := 0, records := [evr9], parts := [(0, 0)] }, by decide +kernel, by decide +kernel, by decide +kernel⟩,
    ⟨fyS fun f => { f with norSlot := some 2, resetAfter := some 5, part := { f.part with evr := flushing9 } }, 5, 2, { cause := 3, at64 := 0, records := [evr9], parts := [(0, 0)] }, by decide +kernel, by decide +kernel, by decide +kernel⟩⟩

theorem witness_TuResets :
  (∃ (s : State) (dt : Nat) (p : Port) (lvl : Level),
    2 ≤ Level.rank lvl) ∧
  (∃ (s : State) (dt : Nat) (p : Port) (lvl : Level),
    Level.rank lvl < 2) ∧
  (∃ (s : State) (dt : Nat) (p : Port),
    (s.tu p).link.st ≠ .up) ∧
  (∃ (s : State) (dt : Nat) (p : Port),
    (s.tu p).link.st = .up ∧ (s.tu p).part.evr.flush = none ∧ (s.tu p).part.evr.log ≠ []) ∧
  (∃ (s : State) (dt : Nat) (p : Port) (x : Flush) (i : Nat) (k : Nat) (l : List (Nat × Nat)),
    (s.tu p).part.evr.flush = some x ∧ x.parts = (i, k) :: l ∧ (k < 2 ∨ l ≠ []) ∧ (((s.tu p).tick dt).offer 5 2 20000 [{
    ((s.tu p).tick dt).mkRec 0x0A selfStream 224 0xFF ((s.tu p).tick dt).ns (flushPay x (s.tu p).part.evr.flushSerial i)
    with ts64 := x.at64 }]).2 = false) ∧
  (∃ (s : State) (dt : Nat) (p : Port) (x : Flush) (i : Nat) (k : Nat),
    (s.tu p).part.evr.flush = some x ∧ x.parts = [(i, k)] ∧ (((s.tu p).tick dt).offer 5 2 20000 [{ ((s.tu p).tick dt).mkRec
    0x0A selfStream 224 0xFF ((s.tu p).tick dt).ns (flushPay x (s.tu p).part.evr.flushSerial i) with ts64 := x.at64 }]).2 =
    true ∧ (s.tu p).faultReset = true) :=
  ⟨⟨tuUpDown9, 5, 0, .service, by decide +kernel⟩,
    ⟨tuUpDown9, 5, 0, .operate, by decide +kernel⟩,
    ⟨State.reset, 5, 0, by decide +kernel⟩,
    ⟨tuUpDown9, 5, 0, by decide +kernel, by decide +kernel, by decide +kernel⟩,
    ⟨tuS fun t => { t with part := { t.part with evr := flushing9 } }, 5, 0, { cause := 3, at64 := 0, records := [evr9], parts := [(0, 0)] }, 0, 0, [], by decide +kernel, by decide +kernel, by decide +kernel, by decide +kernel⟩,
    ⟨tuS fun t => { t with discovered := true, faultReset := true, part := { t.part with evr := flushing9 } }, 5, 0, { cause := 3, at64 := 0, records := [evr9], parts := [(0, 0)] }, 0, 0, by decide +kernel, by decide +kernel, by decide +kernel, by decide +kernel⟩⟩

theorem witness_TrayPower :
  (∃ (s : State) (dt : Nat) (m : Word) (id : Nat) (q : Nat),
    powerAnswer m = some (id, 8, q) ∧ (s.fy.part.pwrReq id).seq = q ∧ (s.fy.part.pwrReq id).outstanding = true ∧
    s.fy.boot.pfail = false) ∧
  (∃ (s : State) (dt : Nat) (m : Word) (id : Nat) (q : Nat),
    powerAnswer m = some (id, 9, q) ∧ (s.fy.part.pwrReq id).seq = q ∧ (s.fy.part.pwrReq id).outstanding = true) ∧
  (∃ (s : State) (dt : Nat) (m : Word) (id : Nat) (q : Nat),
    powerAnswer m = some (id, 10, q) ∧ (s.fy.part.pwrReq id).seq = q ∧ (s.fy.part.pwrReq id).st = .granted) ∧
  (∃ (s : State) (dt : Nat) (m : Word),
    powerAnswer m = none) ∧
  (∃ (s : State) (dt : Nat) (k : Fin 16),
    (s.fy.part.pwrReq k.val).st = .pending ∧ (s.fy.part.pwrReq k.val).outstanding = true ∧ (s.fy.part.pwrReq k.val).since +
    s.fy.rd 0x7880 4 * 65536000 ≤ (s.fy.tick dt).part.time.now) ∧
  (∃ (s : State) (dt : Nat) (k : Fin 16),
    (s.fy.part.pwrReq k.val).st = .backoff ∧ (s.fy.part.pwrReq k.val).wanted = true ∧ (s.fy.part.pwrReq k.val).since +
    (s.fy.part.pwrReq k.val).backoffUs * 65536000 ≤ (s.fy.tick dt).part.time.now) ∧
  (∃ (s : State) (dt : Nat) (k : Fin 16) (t : Nat),
    (s.fy.part.pwrReq k.val).releaseDue = some t ∧ t + 20000 * 65536 ≤ (s.fy.tick dt).part.time.now ∧ s.fy.rd 0x7880 2 ≠ 1) :=
  ⟨⟨fyPwr pwrPending, 5, powerWord9 5 8 7, 5, 7, by decide +kernel, by decide +kernel, by decide +kernel, by decide +kernel⟩,
    ⟨fyPwr pwrPending, 5, powerWord9 5 9 7, 5, 7, by decide +kernel, by decide +kernel, by decide +kernel⟩,
    ⟨fyPwr { pwrPending with st := .granted, outstanding := false }, 5, powerWord9 5 10 7, 5, 7, by decide +kernel, by decide +kernel, by decide +kernel⟩,
    ⟨fyPwr pwrPending, 5, 0, by decide +kernel⟩,
    ⟨fyPwr pwrPending, 65536 * 60000000000, 5, by decide +kernel, by decide +kernel, by decide +kernel⟩,
    ⟨fyPwr { pwrPending with st := .backoff }, 65536 * 60000000000, 5, by decide +kernel, by decide +kernel, by decide +kernel⟩,
    ⟨fyPwr { pwrPending with st := .idle, releaseDue := some 0 }, 65536 * 60000000000, 5, 0, by decide +kernel, by decide +kernel, by decide +kernel⟩⟩

theorem witness_TemperatureAndHost :
  (∃ (s : State) (dt : Nat) (hbm : Bool) (v : Int),
    (if hbm then 10000 else 11500) ≤ v) ∧
  (∃ (s : State) (dt : Nat) (hbm : Bool) (v : Int),
    v < (if hbm then 10000 else 11500)) ∧
  (∃ (s : State) (dt : Nat),
    s.fy.host.raised < s.fy.host.count ∧ s.fy.host.raisedAt + s.fy.host.intUs * 1000 ≤ (s.fy.tick dt).ns) ∧
  (∃ (s : State) (dt : Nat),
    s.fy.host.count ≤ s.fy.host.raised ∨ (s.fy.tick dt).ns < s.fy.host.raisedAt + s.fy.host.intUs * 1000) ∧
  (∃ (s : State) (dt : Nat) (v : Word),
    s.fy.host.base = 0 ∧ v.toNat % 4096 = 0) ∧
  (∃ (s : State) (dt : Nat) (v : Word),
    s.fy.host.base ≠ 0 ∨ v.toNat % 4096 ≠ 0) ∧
  (∃ (s : State) (dt : Nat) (v : Word),
    s.fy.host.rd ≤ v.toNat ∧ v.toNat ≤ s.fy.host.count) :=
  ⟨⟨fyReady, 5, true, 10000, by decide +kernel⟩,
    ⟨fyReady, 5, true, 9999, by decide +kernel⟩,
    ⟨fyS fun f => { f with host := { f.host with count := 64 } }, 65536 * 60000000000, by decide +kernel, by decide +kernel⟩,
    ⟨State.reset, 5, by decide +kernel⟩,
    ⟨fyReady, 5, 8192, by decide +kernel, by decide +kernel⟩,
    ⟨fyReady, 5, 8193, by decide +kernel⟩,
    ⟨fyS fun f => { f with host := { f.host with count := 64, entries := [(1, [1, 2])] } }, 5, 2, by decide +kernel, by decide +kernel⟩⟩

theorem witness_EventStampQueue :
  (∃ (s : State) (dt : Nat) (q : Fin 2) (id : BitVec 16) (mt : BitVec 4) (seq : BitVec 16),
    s.fy.rd 0x1210 1 ≠ 3 ∧ (s.fy.oob q.val).txq.length < 64) ∧
  (∃ (s : State) (dt : Nat) (q : Fin 2) (id : BitVec 16) (mt : BitVec 4) (seq : BitVec 16),
    s.fy.rd 0x1210 1 ≠ 3 ∧ 64 ≤ (s.fy.oob q.val).txq.length ∧ (s.fy.oob q.val).txqOvf = true) ∧
  (∃ (s : State) (dt : Nat) (q : Fin 2) (e : Nat × Nat × Nat × Nat) (r : List (Nat × Nat × Nat × Nat)),
    (s.fy.oob q.val).txq = e :: r) ∧
  (∃ (s : State) (dt : Nat) (q : Fin 2),
    (s.fy.oob q.val).txq = []) :=
  ⟨⟨State.reset, 5, 1, 3, 1, 8, by decide +kernel, by decide +kernel⟩,
    ⟨fyS fun f => f.setOob 1 { f.oob 1 with txq := List.replicate 64 (0, 0, 0, 0), txqOvf := true }, 5, 1, 3, 1, 8, by decide +kernel, by decide +kernel, by decide +kernel⟩,
    ⟨fyS fun f => f.setOob 0 { f.oob 0 with txq := [(1, 2, 3, 4)] }, 5, 0, (1, 2, 3, 4), [], by decide +kernel⟩,
    ⟨State.reset, 5, 0, by decide +kernel⟩⟩

theorem witness_RecordHeaders :
  (∃ (r : Rec),
    r.wf = true) ∧
  (∃ (v : Nat) (left : Nat) (die : Nat) (may : Nat → Bool),
    popCount 192 v % 2 = 1) :=
  ⟨⟨taintRec5, by decide +kernel⟩,
    ⟨0x40, 5, 0, fun _ => true, by decide +kernel⟩⟩

theorem witness_AccessLevels :
  (∃ (s : State) (dt : Nat) (m : Datagram) (h : TdpMsg) (r : ObjRow),
    s.fy.tdpFor m 0x10 = some h ∧ ((s.fy.tick dt).tdpTake h).2 = true ∧ h.node = 0 ∧ objFind 1 h.index h.sub = some r ∧
    r.acc ≠ 2 ∧ (((s.fy.tick dt).tdpTake h).1.objRead r h.index h.sub).length ≤ 512) ∧
  (∃ (s : State) (dt : Nat) (m : Datagram) (h : TdpMsg) (r : ObjRow),
    s.fy.tdpFor m 0x10 = some h ∧ ((s.fy.tick dt).tdpTake h).2 = true ∧ h.node = 0 ∧ objFind 1 h.index h.sub = some r ∧
    r.acc = 2) ∧
  (∃ (t : Tu) (p : Port) (i : Nat) (k : Nat) (r : ObjRow),
    objFind 2 i k = some r) ∧
  (∃ (s : State) (dt : Nat) (lvl : Level) (i : BitVec 16) (k : Byte) (v : List Byte) (r : ObjRow),
    objFind 1 i.toNat k.toNat = some r ∧ Level.rank lvl < r.level) ∧
  (∃ (s : State) (dt : Nat) (p : Port) (lvl : Level) (i : BitVec 16) (k : Byte) (v : List Byte) (r : ObjRow),
    objFind 2 i.toNat k.toNat = some r ∧ Level.rank lvl < r.level) ∧
  (∃ (s : State) (dt : Nat) (v : Word),
    v.toNat ≤ s.fy.part.evr.total) ∧
  (∃ (s : State) (dt : Nat) (p : Port) (v : Word),
    v.toNat ≤ (s.tu p).part.evr.total) :=
  ⟨⟨fyTdp id, 5, dg9 { out9 0x10 5 0 0x1100 2 3 with session := 0, tagged := false } 0 [], msgOf9 (dg9 { out9 0x10 5 0 0x1100 2 3 with session := 0, tagged := false } 0 []), (objFind 1 0x1100 2).getD ⟨0, 0, 0, 0, 0, 0, 0, 0, 0, none, false⟩, by decide +kernel, by decide +kernel, by decide +kernel, by decide +kernel, by decide +kernel, by decide +kernel⟩,
    ⟨fyTdp id, 5, dg9 (out9 0x10 5 0 0x7C00 4 4) 0 [], msgOf9 (dg9 (out9 0x10 5 0 0x7C00 4 4) 0 []), (objFind 1 0x7C00 4).getD ⟨0, 0, 0, 0, 0, 0, 0, 0, 0, none, false⟩, by decide +kernel, by decide +kernel, by decide +kernel, by decide +kernel, by decide +kernel⟩,
    ⟨Tu.reset, 3, 0x2110, 16, (objFind 2 0x2110 16).getD ⟨0, 0, 0, 0, 0, 0, 0, 0, 0, none, false⟩, by decide +kernel⟩,
    ⟨State.reset, 5, .observe, 0x1100, 2, [], (objFind 1 0x1100 2).getD ⟨0, 0, 0, 0, 0, 0, 0, 0, 0, none, false⟩, by decide +kernel, by decide +kernel⟩,
    ⟨State.reset, 5, 3, .observe, 0x2110, 16, [], (objFind 2 0x2110 16).getD ⟨0, 0, 0, 0, 0, 0, 0, 0, 0, none, false⟩, by decide +kernel, by decide +kernel⟩,
    ⟨fyS fun f => { f with part := { f.part with evr := grown9 } }, 5, 1, by decide +kernel⟩,
    ⟨tuS fun t => { t with part := { t.part with evr := grown9 } }, 5, 0, 1, by decide +kernel⟩⟩

theorem witness_OrdersHeld :
  (∃ (q : Part) (k : OrderKind) (g : Nat) (n : Nat) (o : Order),
    q.orderAnswer k g n = .accepted ∧ o.kind = k ∧ o.target = g) ∧
  (∃ (s : State) (dt : Nat) (lvl : Level) (g : GSlot) (v : List Byte),
    1 ≤ Level.rank lvl ∧ 32 ≤ (s.fy.part.orders.filter fun o => !(o.kind == .model && o.target == g.val)).length ∧
    s.fy.part.heldSerial .model g.val ≠ some (moSerial v)) ∧
  (∃ (s : State) (dt : Nat) (lvl : Level) (v : List Byte),
    1 ≤ Level.rank lvl ∧ 32 ≤ (s.fy.part.orders.filter fun o => !(o.kind == .cut && o.target == fieldAt v 0 4)).length ∧
    s.fy.part.heldSerial .cut (fieldAt v 0 4) ≠ some (fieldAt v 4 4)) ∧
  (∃ (s : State) (dt : Nat) (lvl : Level) (v : List Byte),
    1 ≤ Level.rank lvl ∧ 32 ≤ (s.fy.part.orders.filter fun o => !(o.kind == .membership && o.target == dGroup v)).length ∧
    s.fy.part.heldSerial .membership (dGroup v) ≠ some (dSerial v)) ∧
  (∃ (s : State) (dt : Nat) (p : Port) (lvl : Level) (v : List Byte),
    1 ≤ Level.rank lvl ∧ 32 ≤ ((s.tu p).part.orders.filter fun o => !(o.kind == .gateList && o.target == 0)).length ∧ (s.tu
    p).part.heldSerial .gateList 0 ≠ some (fieldAt v 12 4)) ∧
  (∃ (s : State) (dt : Nat) (p : Port) (lvl : Level) (g : GSlot) (v : List Byte),
    1 ≤ Level.rank lvl ∧ fieldAt v 8 1 = 1 ∧ 32 ≤ ((s.tu p).part.orders.filter fun o => !(o.kind == .membership && o.target
    == fieldAt v 0 4)).length ∧ (s.tu p).part.heldSerial .membership (fieldAt v 0 4) ≠ some (fieldAt v 4 4)) ∧
  (∃ (s : State) (dt : Nat) (p : Port) (r : Rec),
    32 ≤ ((s.tu p).part.orders.filter fun o => !(o.kind == .cut && o.target == r.fld 224 32)).length ∧ (s.tu
    p).part.heldSerial .cut (r.fld 224 32) ≠ some (r.fld 384 32)) ∧
  (∃ (s : State) (dt : Nat) (p : Port),
    (s.tu p).link.st ≠ .up) :=
  ⟨⟨fyReady.fy.part, .model, 3, 2, { kind := .model, target := 3, serial := 2, eff := 5000, late := false, data := [] }, by decide +kernel, by decide +kernel, by decide +kernel⟩,
    ⟨fyFull9, 5, .operate, 3, leBytes 12 7000000 ++ leBytes 4 2 ++ leBytes 8 0xFF, by decide +kernel, by decide +kernel, by decide +kernel⟩,
    ⟨fyFull9, 5, .operate, cutBytes 1 0, by decide +kernel, by decide +kernel, by decide +kernel⟩,
    ⟨fyFull9, 5, .operate, armDesc9, by decide +kernel, by decide +kernel, by decide +kernel⟩,
    ⟨tuFull9, 5, 0, .operate, leBytes 12 7000000 ++ leBytes 4 2, by decide +kernel, by decide +kernel, by decide +kernel⟩,
    ⟨tuFull9, 5, 0, .operate, 3, tuArm9 1, by decide +kernel, by decide +kernel, by decide +kernel, by decide +kernel⟩,
    ⟨tuFull9, 5, 0, cutRec9 1, by decide +kernel, by decide +kernel⟩,
    ⟨tuFull9, 5, 0, by decide +kernel⟩⟩

theorem witness_WriteLevels :
  (∃ (s : State) (dt : Nat) (lvl : Level) (serial : BitVec 32),
    Level.rank lvl < 1) ∧
  (∃ (s : State) (dt : Nat) (p : Port) (lvl : Level) (serial : BitVec 32),
    Level.rank lvl < 1) ∧
  (∃ (s : State) (dt : Nat) (n : Node) (lvl : Level) (u : CrcId) (v : Bool),
    Level.rank lvl < 1) ∧
  (∃ (s : State) (dt : Nat) (n : Node) (lvl : Level) (u : CrcId) (v : Bool),
    Level.rank lvl < 1) ∧
  (∃ (s : State) (dt : Nat) (n : Node) (lvl : Level) (u : CrcId),
    Level.rank lvl < 1) ∧
  (∃ (s : State) (dt : Nat) (n : Node) (lvl : Level) (u : CrcId) (isLength : Bool) (v : Word),
    Level.rank lvl < 1) ∧
  (∃ (s : State) (dt : Nat) (p : Port) (lvl : Level) (c : Fin 2816) (v : BitVec 32),
    Level.rank lvl < 1) ∧
  (∃ (s : State) (dt : Nat) (p : Port) (lvl : Level) (c : Fin 2816) (v : BitVec 32),
    Level.rank lvl < 1) ∧
  (∃ (s : State) (dt : Nat) (p : Port) (lvl : Level) (v : Byte),
    Level.rank lvl < 1) ∧
  (∃ (s : State) (dt : Nat) (p : Port) (lvl : Level) (set : Fin 16) (v : BitVec 32),
    Level.rank lvl < 1) ∧
  (∃ (s : State) (dt : Nat) (p : Port) (lvl : Level) (set : Fin 16) (v : List Byte),
    Level.rank lvl < 1) ∧
  (∃ (s : State) (dt : Nat) (p : Port) (lvl : Level) (set : Fin 16) (isPhase : Bool) (v : Word),
    Level.rank lvl < 1) ∧
  (∃ (s : State) (dt : Nat) (p : Port) (lvl : Level) (set : Fin 16) (isPeriod : Bool) (v : Word),
    Level.rank lvl < 1) ∧
  (∃ (s : State) (dt : Nat) (p : Port) (lvl : Level) (v : Byte),
    Level.rank lvl < 1) ∧
  (∃ (s : State) (dt : Nat) (p : Port) (lvl : Level) (v : List Byte),
    Level.rank lvl < 1) ∧
  (∃ (s : State) (dt : Nat) (p : Port) (lvl : Level) (src : Fin 73) (v : Byte),
    Level.rank lvl < 1) ∧
  (∃ (s : State) (dt : Nat) (p : Port) (lvl : Level) (src : Fin 73) (v : BitVec 32),
    Level.rank lvl < 1) ∧
  (∃ (s : State) (dt : Nat) (p : Port) (lvl : Level) (isSize : Bool) (v : Word),
    Level.rank lvl < 1) ∧
  (∃ (s : State) (dt : Nat) (p : Port) (lvl : Level) (v : Byte),
    Level.rank lvl < 1) ∧
  (∃ (s : State) (dt : Nat) (p : Port) (lvl : Level) (v : Byte),
    Level.rank lvl < 1) ∧
  (∃ (s : State) (dt : Nat) (p : Port) (lvl : Level) (serial : BitVec 32),
    Level.rank lvl < 1) ∧
  (∃ (s : State) (dt : Nat) (p : Port) (lvl : Level) (v : Byte),
    Level.rank lvl < 1) ∧
  (∃ (s : State) (dt : Nat) (p : Port) (lvl : Level) (v : Byte),
    Level.rank lvl < 1) ∧
  (∃ (s : State) (dt : Nat) (p : Port) (lvl : Level) (v : Byte),
    Level.rank lvl < 1) ∧
  (∃ (s : State) (dt : Nat) (lvl : Level) (v : List Byte),
    Level.rank lvl < 1) ∧
  (∃ (s : State) (dt : Nat) (p : Port) (lvl : Level) (sub : Fin 9) (v : BitVec 16),
    Level.rank lvl < 1) ∧
  (∃ (s : State) (dt : Nat) (p : Port) (lvl : Level) (mask : Byte),
    Level.rank lvl < 1) ∧
  (∃ (s : State) (dt : Nat) (p : Port) (lvl : Level) (v : List Byte),
    Level.rank lvl < 1) ∧
  (∃ (s : State) (dt : Nat) (lvl : Level) (tag : BitVec 32),
    Level.rank lvl < 1) ∧
  (∃ (s : State) (dt : Nat) (lvl : Level) (part : Fin 32) (v : BitVec 16),
    Level.rank lvl < 2) ∧
  (∃ (s : State) (dt : Nat) (lvl : Level) (v : List Byte),
    Level.rank lvl < 1) ∧
  (∃ (s : State) (dt : Nat) (lvl : Level) (v : List Byte),
    Level.rank lvl < 1) ∧
  (∃ (s : State) (dt : Nat) (lvl : Level) (ch : Fin 4) (serial : BitVec 32),
    Level.rank lvl < 1) ∧
  (∃ (s : State) (dt : Nat) (lvl : Level) (ch : Fin 4),
    Level.rank lvl < 1) ∧
  (∃ (s : State) (dt : Nat) (lvl : Level) (v : List Byte),
    Level.rank lvl < 1) ∧
  (∃ (s : State) (dt : Nat) (p : Port) (lvl : Level) (g : GSlot) (v : List Byte),
    Level.rank lvl < 1) ∧
  (∃ (s : State) (dt : Nat) (p : Port) (lvl : Level) (g : GSlot) (v : List Byte),
    Level.rank lvl < 1) ∧
  (∃ (s : State) (dt : Nat) (lvl : Level) (slot : Fin 3) (v : List Byte),
    Level.rank lvl < 1) ∧
  (∃ (s : State) (dt : Nat) (lvl : Level) (slot : Fin 3) (v : List Byte) (fetched : List Byte),
    Level.rank lvl < 1) ∧
  (∃ (s : State) (dt : Nat) (lvl : Level) (g : GSlot) (v : List Byte),
    Level.rank lvl < 1) ∧
  (∃ (s : State) (dt : Nat) (lvl : Level) (v : List Byte),
    Level.rank lvl < 1) ∧
  (∃ (s : State) (dt : Nat) (lvl : Level) (serial : BitVec 32),
    Level.rank lvl < 1) ∧
  (∃ (s : State) (dt : Nat) (lvl : Level) (v : Byte),
    Level.rank lvl < 1) ∧
  (∃ (s : State) (dt : Nat) (lvl : Level) (g : GSlot) (isFloor : Bool) (v : BitVec 32),
    Level.rank lvl < 1) ∧
  (∃ (s : State) (dt : Nat) (lvl : Level) (g : GSlot) (isValue : Bool) (v : BitVec 32),
    Level.rank lvl < 1) ∧
  (∃ (s : State) (dt : Nat) (lvl : Level) (g : GSlot) (die : BitVec 32),
    Level.rank lvl < 1) ∧
  (∃ (s : State) (dt : Nat) (session : BitVec 32) (lvl : Level) (v : BitVec 32),
    Level.rank lvl < 2) ∧
  (∃ (s : State) (dt : Nat) (n : Node) (lvl : Level) (ch : Fin 64) (v : Byte),
    Level.rank lvl < 1) ∧
  (∃ (s : State) (dt : Nat) (p : Port) (lvl : Level) (v : Byte),
    Level.rank lvl < 1) ∧
  (∃ (s : State) (dt : Nat) (n : Node) (lvl : Level) (v : Byte),
    Level.rank lvl < 1) ∧
  (∃ (s : State) (dt : Nat) (lvl : Level) (imageA : Bool) (imageB : Bool),
    Level.rank lvl < 2) ∧
  (∃ (s : State) (dt : Nat) (lvl : Level) (imageA : Bool) (imageB : Bool),
    Level.rank lvl < 2) ∧
  (∃ (s : State) (dt : Nat) (p : Port) (lvl : Level) (v : BitVec 32),
    Level.rank lvl < 2) ∧
  (∃ (s : State) (dt : Nat) (p : Port) (lvl : Level) (v : Byte),
    Level.rank lvl < 2) ∧
  (∃ (s : State) (dt : Nat) (e : End) (lvl : Level) (v : Byte),
    Level.rank lvl < 1) :=
  ⟨⟨fyReady, 5, .observe, 7, by decide +kernel⟩,
    ⟨fyReady, 5, 3, .observe, 7, by decide +kernel⟩,
    ⟨fyReady, 5, .fyster, .observe, (.sumac 1), true, by decide +kernel⟩,
    ⟨fyReady, 5, .fyster, .observe, (.sumac 1), true, by decide +kernel⟩,
    ⟨fyReady, 5, .fyster, .observe, (.sumac 1), by decide +kernel⟩,
    ⟨fyReady, 5, .fyster, .observe, (.sumac 1), true, 7, by decide +kernel⟩,
    ⟨fyReady, 5, 3, .observe, 1, 7, by decide +kernel⟩,
    ⟨fyReady, 5, 3, .observe, 1, 7, by decide +kernel⟩,
    ⟨fyReady, 5, 3, .observe, 1, by decide +kernel⟩,
    ⟨fyReady, 5, 3, .observe, 1, 7, by decide +kernel⟩,
    ⟨fyReady, 5, 3, .observe, 1, [1, 2], by decide +kernel⟩,
    ⟨fyReady, 5, 3, .observe, 1, true, 7, by decide +kernel⟩,
    ⟨fyReady, 5, 3, .observe, 1, true, 7, by decide +kernel⟩,
    ⟨fyReady, 5, 3, .observe, 1, by decide +kernel⟩,
    ⟨fyReady, 5, 3, .observe, [1, 2], by decide +kernel⟩,
    ⟨fyReady, 5, 3, .observe, 1, 1, by decide +kernel⟩,
    ⟨fyReady, 5, 3, .observe, 1, 7, by decide +kernel⟩,
    ⟨fyReady, 5, 3, .observe, true, 7, by decide +kernel⟩,
    ⟨fyReady, 5, 3, .observe, 1, by decide +kernel⟩,
    ⟨fyReady, 5, 3, .observe, 1, by decide +kernel⟩,
    ⟨fyReady, 5, 3, .observe, 7, by decide +kernel⟩,
    ⟨fyReady, 5, 3, .observe, 1, by decide +kernel⟩,
    ⟨fyReady, 5, 3, .observe, 1, by decide +kernel⟩,
    ⟨fyReady, 5, 3, .observe, 1, by decide +kernel⟩,
    ⟨fyReady, 5, .observe, [1, 2], by decide +kernel⟩,
    ⟨fyReady, 5, 3, .observe, 1, 7, by decide +kernel⟩,
    ⟨fyReady, 5, 3, .observe, 1, by decide +kernel⟩,
    ⟨fyReady, 5, 3, .observe, [1, 2], by decide +kernel⟩,
    ⟨fyReady, 5, .observe, 7, by decide +kernel⟩,
    ⟨fyReady, 5, .operate, 1, 7, by decide +kernel⟩,
    ⟨fyReady, 5, .observe, [1, 2], by decide +kernel⟩,
    ⟨fyReady, 5, .observe, [1, 2], by decide +kernel⟩,
    ⟨fyReady, 5, .observe, 1, 7, by decide +kernel⟩,
    ⟨fyReady, 5, .observe, 1, by decide +kernel⟩,
    ⟨fyReady, 5, .observe, [1, 2], by decide +kernel⟩,
    ⟨fyReady, 5, 3, .observe, 3, [1, 2], by decide +kernel⟩,
    ⟨fyReady, 5, 3, .observe, 3, [1, 2], by decide +kernel⟩,
    ⟨fyReady, 5, .observe, 1, [1, 2], by decide +kernel⟩,
    ⟨fyReady, 5, .observe, 1, [1, 2], [1, 2], by decide +kernel⟩,
    ⟨fyReady, 5, .observe, 3, [1, 2], by decide +kernel⟩,
    ⟨fyReady, 5, .observe, [1, 2], by decide +kernel⟩,
    ⟨fyReady, 5, .observe, 7, by decide +kernel⟩,
    ⟨fyReady, 5, .observe, 1, by decide +kernel⟩,
    ⟨fyReady, 5, .observe, 3, true, 7, by decide +kernel⟩,
    ⟨fyReady, 5, .observe, 3, true, 7, by decide +kernel⟩,
    ⟨fyReady, 5, .observe, 3, 7, by decide +kernel⟩,
    ⟨fyReady, 5, 7, .operate, 7, by decide +kernel⟩,
    ⟨fyReady, 5, .fyster, .observe, 1, 1, by decide +kernel⟩,
    ⟨fyReady, 5, 3, .observe, 1, by decide +kernel⟩,
    ⟨fyReady, 5, .fyster, .observe, 1, by decide +kernel⟩,
    ⟨fyReady, 5, .operate, true, true, by decide +kernel⟩,
    ⟨fyReady, 5, .operate, true, true, by decide +kernel⟩,
    ⟨fyReady, 5, 3, .operate, 7, by decide +kernel⟩,
    ⟨fyReady, 5, 3, .operate, 1, by decide +kernel⟩,
    ⟨fyReady, 5, .fysterEnd 3, .observe, 1, by decide +kernel⟩⟩
end

section
/-! SUPPORT. Scheduled orders (R17 to R23): when a node refuses one, what a refusal leaves unchanged, and what a reset discards. -/

namespace Sys2Proof.Machine

/-! ### Running a command on one node -/

/-- A command that runs `g` on Fyster leaves Fyster as `g` makes it. -/
theorem fyNext_of_onFy {c : Instr} {s : State} {dt : Nat} {g : Fyster → Fyster} {Q : Fyster → Prop}
    (hexec : exec c s = .next (onFy dt g s)) (hQ : Q (g (s.fy.tick dt))) : FyNext c s Q :=
  ⟨_, hexec, hQ⟩

/-- A command that runs `g` on the TU of port `p` leaves that TU as `g` makes it. -/
theorem tuNext_of_onTu {c : Instr} {s : State} {p : Port} {dt : Nat} {g : Tu → Tu} {Q : Tu → Prop}
    (hexec : exec c s = .next (onTu p dt g s)) (hQ : Q (g ((s.tu p).tick dt))) : TuNext c s p Q :=
  ⟨_, hexec, hQ⟩

/-- R344, R360: a write at a sufficient level that ends in an abort code changes nothing and answers that code. -/
theorem Fyster.reply_refused {f : Fyster} {lvl : Level} {need : Nat} {r : Fyster × Nat} (hlvl : need ≤ Level.rank lvl)
    (hr : r.2 ≠ 0) : f.reply lvl need r = f.emit (.answer r.2) := by
  simp only [Fyster.reply, if_neg (Nat.not_lt.mpr hlvl), if_neg hr]

/-- R344, R360: a write at a sufficient level that ends in no abort code takes effect. -/
theorem Fyster.reply_accepted {f g : Fyster} {lvl : Level} {need : Nat} (hlvl : need ≤ Level.rank lvl) :
    f.reply lvl need (g, 0) = g.emit (.answer 0) := by
  simp only [Fyster.reply, if_neg (Nat.not_lt.mpr hlvl), if_true]

/-- R344, R360: a write at a sufficient level that ends in an abort code changes nothing and answers that code. -/
theorem Tu.reply_refused {t : Tu} {lvl : Level} {need : Nat} {r : Tu × Nat} (hlvl : need ≤ Level.rank lvl)
    (hr : r.2 ≠ 0) : t.reply lvl need r = t.emit (.answer r.2) := by
  simp only [Tu.reply, if_neg (Nat.not_lt.mpr hlvl), if_neg hr]

/-- A refused write of Fyster, as its command runs it. -/
theorem fyNext_refused {c : Instr} {s : State} {dt need : Nat} {lvl : Level} (w : Fyster → Fyster × Nat)
    (hexec : exec c s = .next (onFy dt (fun f => f.reply lvl need (w f)) s)) (hlvl : need ≤ Level.rank lvl)
    (hw : (w (s.fy.tick dt)).2 ≠ 0) :
    FyNext c s fun f => f = (s.fy.tick dt).emit (.answer (w (s.fy.tick dt)).2) ∧ (w (s.fy.tick dt)).2 ≠ 0 :=
  fyNext_of_onFy hexec ⟨Fyster.reply_refused hlvl hw, hw⟩

/-- A refused write of a TU, as its command runs it. -/
theorem tuNext_refused {c : Instr} {s : State} {p : Port} {dt need : Nat} {lvl : Level} (w : Tu → Tu × Nat)
    (hexec : exec c s = .next (onTu p dt (fun t => t.reply lvl need (w t)) s)) (hlvl : need ≤ Level.rank lvl)
    (hw : (w ((s.tu p).tick dt)).2 ≠ 0) :
    TuNext c s p fun t => t = ((s.tu p).tick dt).emit (.answer (w ((s.tu p).tick dt)).2) ∧ (w ((s.tu p).tick dt)).2 ≠ 0 :=
  tuNext_of_onTu hexec ⟨Tu.reply_refused hlvl hw, hw⟩

/-! ### Abort codes (R360) -/

/-- The fold of `lowestAbort` from any code reached so far. -/
theorem foldl_abort_eq_zero_iff (l : List (Bool × Nat)) (hcodes : ∀ c ∈ l, c.1 = true → c.2 ≠ 0) (m : Nat) :
    l.foldl (fun m c => if c.1 && (m == 0 || decide (c.2 < m)) then c.2 else m) m = 0 ↔ m = 0 ∧ ∀ c ∈ l, c.1 = false := by
  induction l generalizing m with
  | nil => simp
  | cons c l ih =>
    obtain ⟨hc, hl⟩ := List.forall_mem_cons.mp hcodes
    rw [List.foldl_cons, ih hl, List.forall_mem_cons, ← and_assoc]
    refine and_congr_left fun _ => ?_
    cases hc1 : c.1 with
    | false => simp
    | true =>
      have hc2 : c.2 ≠ 0 := hc hc1
      simp only [Bool.true_and, Bool.true_eq_false, and_false, iff_false]
      split
      · exact hc2
      next hlow =>
        simp only [Bool.or_eq_true, beq_iff_eq, not_or] at hlow
        exact hlow.1

/-- Where every condition that holds has an abort code, the answer is 0 just when none holds. -/
theorem lowestAbort_eq_zero_iff {l : List (Bool × Nat)} (hcodes : ∀ c ∈ l, c.1 = true → c.2 ≠ 0) :
    lowestAbort l = 0 ↔ ∀ c ∈ l, c.1 = false :=
  (foldl_abort_eq_zero_iff l hcodes 0).trans (and_iff_right rfl)

/-- A condition that holds keeps the answer from being 0. -/
theorem lowestAbort_ne_zero {l : List (Bool × Nat)} (hcodes : ∀ c ∈ l, c.1 = true → c.2 ≠ 0) {a : Nat} (ha : (true, a) ∈ l) :
    lowestAbort l ≠ 0 := fun h =>
  Bool.noConfusion ((lowestAbort_eq_zero_iff hcodes).mp h _ ha)

/-! ### The answer to an order (R20, R22, R23) -/

/-- R22: with 32 orders pending for other targets, an order whose serial is not held is refused for want of space: of the codes
that may apply, that one is the lowest. -/
theorem Part.orderAnswer_full {p : Part} {k : OrderKind} {g n : Nat}
    (hfull : 32 ≤ (p.orders.filter fun o => !(o.kind == k && o.target == g)).length) (hnew : p.heldSerial k g ≠ some n) :
    p.orderAnswer k g n = .refused 0x28 := by
  have hlowest (stale unlocked : Bool) : lowestAbort [(true, 0x28), (stale, 0x2A), (unlocked, 0x2B)] = 0x28 := by
    cases stale <;> cases unlocked <;> rfl
  simp only [Part.orderAnswer, if_neg hnew, decide_eq_true hfull, hlowest]

/-- R22: an order is accepted only where fewer than 32 are pending for other targets. -/
theorem Part.lt_of_orderAnswer_accepted {p : Part} {k : OrderKind} {g n : Nat} (h : p.orderAnswer k g n = .accepted) :
    (p.orders.filter fun o => !(o.kind == k && o.target == g)).length < 32 := by
  refine Nat.lt_of_not_le fun hfull => ?_
  by_cases hheld : p.heldSerial k g = some n
  · simp only [Part.orderAnswer, if_pos hheld, reduceCtorEq] at h
  · rw [Part.orderAnswer_full hfull hheld] at h
    cases h

/-- An order put in place pends beside those for other targets. -/
theorem Part.putOrder_orders_length (p : Part) (o : Order) :
    (p.putOrder o).orders.length = (p.orders.filter fun x => !(x.kind == o.kind && x.target == o.target)).length + 1 := by
  simp only [Part.putOrder, List.length_append, List.length_singleton]

/-! ### Writes of orders that the node refuses -/

/-- R304: a MODEL_ORDER that R20 to R23 refuse is refused, whatever else is wrong with it. -/
theorem Fyster.wrModelOrder_refused {f : Fyster} {g a : Nat} {v : List Byte}
    (h : f.part.orderAnswer .model g (moSerial v) = .refused a) (ha : a ≠ 0) : (f.wrModelOrder g v).2 ≠ 0 := by
  have hcode : lowestAbort [(f.modelOrderCode g v != 0, f.modelOrderCode g v), (a != 0, a)] ≠ 0 :=
    lowestAbort_ne_zero (a := a) (by simp) (by simp [ha])
  simp only [Fyster.wrModelOrder, h]
  split
  · rw [if_pos hcode]
    exact hcode
  · exact hcode

/-- R231: a refusal under R20 to R23 is one of the abort codes of CUT_ORDER. -/
theorem Fyster.cutCode_refused {f : Fyster} {a : Nat} {v : List Byte}
    (h : f.part.orderAnswer .cut (fieldAt v 0 4) (fieldAt v 4 4) = .refused a) (ha : a ≠ 0) : f.cutCode v ≠ 0 := by
  simp only [Fyster.cutCode, h]
  exact lowestAbort_ne_zero (a := a) (by simp [ha]) (by simp)

/-- R230, R231: only a serial that is held already passes over the abort code of a CUT_ORDER. -/
theorem Fyster.wrCutOrder_refused {f : Fyster} {v : List Byte}
    (hnew : f.part.heldSerial .cut (fieldAt v 0 4) ≠ some (fieldAt v 4 4)) (hcode : f.cutCode v ≠ 0) :
    (f.wrCutOrder v).2 ≠ 0 := by
  simp only [Fyster.wrCutOrder, hnew, and_false, if_false]
  split
  next h0 _ => exact absurd h0 hcode
  next => exact hcode

/-- R274, R281: a refusal under R20 to R23 is one of the abort codes of ARM_ORDER. -/
theorem Fyster.armOrderCode_refused {f : Fyster} {a : Nat} {v : List Byte}
    (h : f.part.orderAnswer .membership (dGroup v) (dSerial v) = .refused a) (ha : a ≠ 0) : f.armOrderCode v ≠ 0 := by
  simp only [Fyster.armOrderCode, h]
  exact lowestAbort_ne_zero (a := a) (by simp [ha]) (by simp)

/-- R274, R278: only a serial that is held already passes over the abort code of an ARM_ORDER. -/
theorem Fyster.wrArmOrder_refused {f : Fyster} {v : List Byte}
    (hnew : f.part.heldSerial .membership (dGroup v) ≠ some (dSerial v)) (hcode : f.armOrderCode v ≠ 0) :
    (f.wrArmOrder v).2 ≠ 0 := by
  simp only [Fyster.wrArmOrder, hnew, and_false, if_false]
  exact hcode

/-- R207: a GATE_ORDER that R20 to R23 refuse is refused, whatever else is wrong with it. -/
theorem Tu.wrGateOrder_refused {t : Tu} {a : Nat} {v : List Byte}
    (h : t.part.orderAnswer .gateList 0 (fieldAt v 12 4) = .refused a) (ha : a ≠ 0) : (t.wrGateOrder v).2 ≠ 0 := by
  simp only [Tu.wrGateOrder, h]
  split
  · exact Nat.succ_ne_zero _
  · rw [if_pos] <;> exact lowestAbort_ne_zero (a := a) (by simp) (by simp [ha])

/-- R280: a refusal under R20 to R23 is one of the abort codes of an ARM. -/
theorem Tu.armCode_refused {t : Tu} {g a : Nat} {v : List Byte}
    (h : t.part.orderAnswer .membership (fieldAt v 0 4) (fieldAt v 4 4) = .refused a) (ha : a ≠ 0) : t.armCode g v ≠ 0 := by
  simp only [Tu.armCode, h]
  exact lowestAbort_ne_zero (a := a) (by simp [ha]) (by simp)

/-- R280: only a serial that is held already passes over the abort code of an ARM. -/
theorem Tu.wrArm_refused {t : Tu} {g : Nat} {v : List Byte}
    (hnew : t.part.heldSerial .membership (fieldAt v 0 4) ≠ some (fieldAt v 4 4)) (hcode : t.armCode g v ≠ 0) :
    (t.wrArm g v).2 ≠ 0 := by
  simp only [Tu.wrArm, hnew, and_false, if_false]
  exact hcode

/-- R280: a TU_GROUP_ARM of KIND 1 is an ARM. -/
theorem Tu.wrGroupArm_arm {t : Tu} {g : Nat} {v : List Byte} (hkind : fieldAt v 8 1 = 1) : t.wrGroupArm g v = t.wrArm g v := by
  have hleave : ¬(v.length = 40 ∧ fieldAt v 8 1 = 2) := fun h => absurd (hkind.symm.trans h.2) (by decide)
  have hother : ¬(v.length = 40 ∧ fieldAt v 8 1 ≠ 1) := fun h => h.2 hkind
  simp only [Tu.wrGroupArm, if_neg hleave, if_neg hother]

/-! ### A TR_CUT ORDER that the TU refuses (R232, R233) -/

/-- What `Tu.bareBut` keeps of orders and cuts. -/
theorem Tu.orders_of_bareBut {t u : Tu} {ks : List Nat} (h : t.bareBut ks = u.bareBut ks) :
    t.part.orders = u.part.orders ∧ t.part.held = u.part.held ∧ t.cuts = u.cuts :=
  ⟨congrArg (·.part.orders) h, congrArg (·.part.held) h, congrArg (·.cuts) h⟩

/-- The ACK that refuses is all that a refused TR_CUT ORDER brings about. -/
theorem Tu.bare_cutOrderRx_refused {t : Tu} {r : Rec} {a : Nat} {ks : List Nat}
    (h : t.part.orderAnswer .cut (r.fld 224 32) (r.fld 384 32) = .refused a) : (t.cutOrderRx r).bareBut ks = t.bareBut ks := by
  simp only [Tu.cutOrderRx, h]
  split
  · rfl
  · exact Tu.bare_sendFree _ _

/-! ### Resets (R22, R394, R395) -/

/-- What `Fyster.bareBut` keeps of orders. -/
theorem Fyster.orders_of_bareBut {f g : Fyster} {ks : List Nat} (h : f.bareBut ks = g.bareBut ks) :
    f.part.orders = g.part.orders := congrArg (·.part.orders) h

@[simp] theorem Fyster.resetBase_part_orders (f : Fyster) (kind : Nat) (imageA imageB : Bool) :
    (f.resetBase kind imageA imageB).part.orders = [] := rfl

@[simp] theorem Fyster.pin_part_orders (f : Fyster) (tag cause : Nat) (ranges : List (Nat × Nat × Option Nat)) :
    (f.pin tag cause ranges).1.part.orders = f.part.orders := by
  simp only [Fyster.pin]
  split
  · rfl
  · dsimp only
    split <;> rfl

@[simp] theorem Fyster.resetHold_part_orders (f : Fyster) : f.resetHold.part.orders = f.part.orders := by
  simp only [Fyster.resetHold]
  split
  · rfl
  · exact Fyster.pin_part_orders _ _ _ _

@[simp] theorem Fyster.recovCount_part_orders (f : Fyster) (row : Nat) : (f.recovCount row).part.orders = f.part.orders :=
  (Fyster.orders_of_bareBut (ks := []) (Fyster.bare_log _ _)).trans rfl

@[simp] theorem Fyster.recovStart_part_orders (f : Fyster) (row : Nat) : (f.recovStart row).part.orders = f.part.orders :=
  List.foldlRecOn (motive := fun g : Fyster => g.part.orders = f.part.orders) _ _ (f.recovCount_part_orders row)
    fun g hg row _ => (g.recovCount_part_orders row).trans hg

@[simp] theorem Fyster.startCheck_part_orders (f : Fyster) : f.startCheck.part.orders = f.part.orders :=
  Fyster.orders_of_bareBut (ks := []) f.bare_startCheck

/-- R22: a reset of Fyster, of whatever cause, discards its pending orders. -/
theorem Fyster.resetAs_part_orders (f : Fyster) (kind : Nat) (imageA imageB : Bool) :
    (f.resetAs kind imageA imageB).part.orders = [] := by
  simp only [Fyster.resetAs, apply_ite Fyster.part, apply_ite Part.orders, Fyster.startCheck_part_orders,
    Fyster.recovStart_part_orders, Fyster.resetHold_part_orders, Fyster.resetBase_part_orders, ite_self]

/-- R394: the reset that a write has ordered. -/
theorem Fyster.resetIfOrdered_part_orders {f : Fyster} {k : Nat} (hafter : f.resetAfter = some k) (hk : k = 3 ∨ k = 4) :
    f.resetIfOrdered.part.orders = [] := by
  simp only [Fyster.resetIfOrdered, hafter, if_pos hk]
  exact Fyster.resetAs_part_orders _ _ _ _

/-- R394: RESET_REQUEST at SERVICE with a value of the table is a reset, cold or warm. -/
theorem Fyster.resetRequest_part_orders (f : Fyster) {lvl : Level} {v : Nat} (hlvl : 2 ≤ Level.rank lvl) (hv : v = 1 ∨ v = 2)
    (imageA imageB : Bool) : (f.resetRequest lvl v imageA imageB).part.orders = [] := by
  simp only [Fyster.resetRequest, if_neg (Nat.not_lt.mpr hlvl)]
  refine Fyster.resetIfOrdered_part_orders (k := if v = 2 then 3 else 4) ?_ (by split <;> decide)
  simp only [Fyster.wrResetRequest, if_pos hv, Fyster.reply_accepted hlvl, Fyster.emit_resetAfter]

/-- R22: a reset of a TU, of whatever cause, discards its pending orders. -/
theorem Tu.resetAs_part_orders (t : Tu) (kind : Nat) : (t.resetAs kind).part.orders = [] := by
  simp only [Tu.resetAs]
  split <;> rfl

/-- R395: an internal fault with the TL not up resets the TU at once. -/
theorem Tu.internalFault_of_not_up {t : Tu} (h : t.link.st ≠ .up) : t.internalFault = t.resetAs 4 := by
  simp only [Tu.internalFault, if_neg h]

/-- R395: TU_RESET_REQUEST of value 1 at SERVICE resets the TU. -/
theorem exec_tuResetRequest_resets (s : State) (dt : Nat) (p : Port) :
    ∃ u, exec (.tuResetRequest dt p .service 1) s = .next u ∧ ∃ t : Tu, u.tu p = t.resetAs 3 :=
  ⟨_, rfl, _, State.tu_setTu_self _ p _⟩

end Sys2Proof.Machine

namespace Sys2Proof

open Machine

/-- Settles O59: every order goes through `Part.orderAnswer`, which refuses where 32 pend for other targets, and every reset
starts the node from a part without orders. -/
theorem ordersHeld : Obligations.OrdersHeld := by
  unfold Obligations.OrdersHeld
  refine ⟨?accepted, ?model, ?cut, ?arm, ?gate, ?tuArm, ?tuCut, ?pin, ?powerOn, ?cold, ?warm, ?tuPowerOn, ?tuResetIn, ?tuFault,
    ?tuRequest⟩
  case accepted =>
    rintro q k g n o hacc rfl rfl
    rw [Part.putOrder_orders_length]
    exact Part.lt_of_orderAnswer_accepted hacc
  case model =>
    intro s dt lvl g v hlvl hfull hnew
    exact fyNext_refused (·.wrModelOrder g.val v) rfl hlvl
      (Fyster.wrModelOrder_refused (f := s.fy.tick dt) (Part.orderAnswer_full hfull hnew) (by decide))
  case cut =>
    intro s dt lvl v hlvl hfull hnew
    exact fyNext_refused (·.wrCutOrder v) rfl hlvl (Fyster.wrCutOrder_refused (f := s.fy.tick dt) hnew
      (Fyster.cutCode_refused (Part.orderAnswer_full hfull hnew) (by decide)))
  case arm =>
    intro s dt lvl v hlvl hfull hnew
    exact fyNext_refused (·.wrArmOrder v) rfl hlvl (Fyster.wrArmOrder_refused (f := s.fy.tick dt) hnew
      (Fyster.armOrderCode_refused (Part.orderAnswer_full hfull hnew) (by decide)))
  case gate =>
    intro s dt p lvl v hlvl hfull hnew
    exact tuNext_refused (·.wrGateOrder v) rfl hlvl
      (Tu.wrGateOrder_refused (t := (s.tu p).tick dt) (Part.orderAnswer_full hfull hnew) (by decide))
  case tuArm =>
    intro s dt p lvl g v hlvl hkind hfull hnew
    refine tuNext_refused (·.wrGroupArm g.val v) rfl hlvl ?_
    rw [Tu.wrGroupArm_arm hkind]
    exact Tu.wrArm_refused (t := (s.tu p).tick dt) hnew
      (Tu.armCode_refused (Part.orderAnswer_full hfull hnew) (by decide))
  case tuCut =>
    intro s dt p r hfull hnew
    exact tuNext_of_onTu rfl (Tu.orders_of_bareBut (u := (s.tu p).tick dt) (ks := [])
      (Tu.bare_cutOrderRx_refused (Part.orderAnswer_full hfull hnew)))
  case pin =>
    exact fun s dt a b => fyNext_of_onFy rfl (Fyster.resetAs_part_orders _ 2 a b)
  case powerOn =>
    exact fun s dt a b => fyNext_of_onFy rfl (Fyster.resetAs_part_orders _ 1 a b)
  case cold =>
    exact fun s dt a b => fyNext_of_onFy rfl (Fyster.resetRequest_part_orders _ (by decide) (.inr rfl) a b)
  case warm =>
    exact fun s dt a b => fyNext_of_onFy rfl (Fyster.resetRequest_part_orders _ (by decide) (.inl rfl) a b)
  case tuPowerOn =>
    exact fun s dt p => tuNext_of_onTu rfl (Tu.resetAs_part_orders _ 1)
  case tuResetIn =>
    exact fun s dt p => tuNext_of_onTu rfl (Tu.resetAs_part_orders _ 2)
  case tuFault =>
    intro s dt p hdown
    refine tuNext_of_onTu rfl ?_
    rw [Tu.internalFault_of_not_up (t := (s.tu p).tick dt) hdown]
    exact Tu.resetAs_part_orders _ 4
  case tuRequest =>
    intro s dt p
    obtain ⟨u, hexec, t, ht⟩ := exec_tuResetRequest_resets s dt p
    exact ⟨u, hexec, ht ▸ t.resetAs_part_orders 3⟩

end Sys2Proof
end

section
/-! SUPPORT. The transmit-timestamp queue of an out-of-band port (R34 to R36): what an event message and a read do with it. -/

namespace Sys2Proof.Machine

/-! ### The out-of-band ports as part of Fyster -/

@[simp] theorem Fyster.oob_setOob_self (f : Fyster) (q : Nat) (o : PtpPort) : (f.setOob q o).oob q = o :=
  tget_tset_self f.ptp q o .reset

/-- Nothing beside the ports changes where a port is replaced. -/
theorem Fyster.setOob_frame (f : Fyster) (q : Nat) (o : PtpPort) : { f.setOob q o with ptp := f.ptp } = f := rfl

/-! ### An event message (R34, R36) -/

/-- R34: with room in the queue the stamp goes behind the entries held. The stamp of a Delay_Req or Pdelay_Req is also kept for
the exchange under way. -/
theorem Fyster.eventTx_of_room {f : Fyster} {q : Nat} (txid mtype seq : Nat) (hprofile : f.rd 0x1210 1 ≠ 3)
    (hroom : (f.oob q).txq.length < 64) :
    f.eventTx q txid mtype seq =
      f.setOob q { f.oob q with
        txq := (f.oob q).txq ++ [(txid, mtype, f.part.time.now, seq)]
        reqSent := if mtype = 1 ∨ mtype = 2 then some (seq, f.part.time.now) else (f.oob q).reqSent } := by
  simp only [Fyster.eventTx, if_neg hprofile, if_neg (Nat.not_le.mpr hroom)]

/-- R36: a further drop at a full queue, the first one being reported, is only counted. -/
theorem Fyster.eventTx_of_full {f : Fyster} {q : Nat} (txid mtype seq : Nat) (hprofile : f.rd 0x1210 1 ≠ 3)
    (hfull : 64 ≤ (f.oob q).txq.length) (hreported : (f.oob q).txqOvf = true) :
    f.eventTx q txid mtype seq = f.bump 0x1240 (q + 1) 1 := by
  simp only [Fyster.eventTx, if_neg hprofile, if_pos hfull, if_pos hreported]

/-! ### A read of the queue (R35) -/

/-- R35: a read takes the oldest entry out and answers it; the next drop is reported again (R36). -/
theorem Fyster.txqRead_of_cons {f : Fyster} {q : Nat} {e : Nat × Nat × Nat × Nat} {r : List (Nat × Nat × Nat × Nat)}
    (hq : (f.oob q).txq = e :: r) :
    f.txqRead q = (f.setOob q { f.oob q with txq := r, txqOvf := false }).emit (.value (txqBytes e)) := by
  simp only [Fyster.txqRead, hq]

/-- R35: a read of an empty queue answers VALID 0 and removes nothing. -/
theorem Fyster.txqRead_of_nil {f : Fyster} {q : Nat} (hq : (f.oob q).txq = []) :
    f.txqRead q = f.emit (.value (leBytes 24 0)) := by
  simp only [Fyster.txqRead, hq]

end Sys2Proof.Machine

namespace Sys2Proof

open Machine

/-- Settles O56: an event message and a read each have one equation per state of the queue, taken at Fyster's clock after the
tick, which leaves the ports as they are. -/
theorem eventStampQueue : Obligations.EventStampQueue := by
  unfold Obligations.EventStampQueue
  refine ⟨?room, ?full, ?oldest, ?empty⟩
  case room =>
    intro s dt q id mt seq hprofile hroom
    refine fyNext_of_onFy rfl ?_
    rw [Fyster.eventTx_of_room (f := s.fy.tick dt) _ _ _ hprofile hroom, Fyster.oob_setOob_self]
    exact ⟨rfl, Fyster.setOob_frame (s.fy.tick dt) _ _⟩
  case full =>
    intro s dt q id mt seq hprofile hfull hreported
    exact fyNext_of_onFy rfl (Fyster.eventTx_of_full (f := s.fy.tick dt) _ _ _ hprofile hfull hreported)
  case oldest =>
    intro s dt q e r hq
    exact fyNext_of_onFy rfl (Fyster.txqRead_of_cons (f := s.fy.tick dt) hq)
  case empty =>
    intro s dt q hq
    exact fyNext_of_onFy rfl (Fyster.txqRead_of_nil (f := s.fy.tick dt) hq)

end Sys2Proof
end

section
/-! SUPPORT. Record headers (R59, R60, R67): reading a field of packed fields, words of a number, and what PARITY does to the
header. -/

namespace Sys2Proof.Machine

/-! ### Packed fields -/

/-- Packed fields take no more bits than their widths. -/
theorem packNat_lt (fs : List (Nat × Nat)) : packNat fs < 2 ^ (fs.map Prod.snd).sum := by
  induction fs with
  | nil => exact Nat.one_pos
  | cons e fs ih =>
    obtain ⟨v, w⟩ := e
    have hv : v % 2 ^ w < 2 ^ w := Nat.mod_lt _ (Nat.two_pow_pos w)
    calc v % 2 ^ w + 2 ^ w * packNat fs
        < 2 ^ w + 2 ^ w * packNat fs := Nat.add_lt_add_right hv _
      _ = 2 ^ w * (packNat fs + 1) := by rw [Nat.mul_succ, Nat.add_comm]
      _ ≤ 2 ^ w * 2 ^ (fs.map Prod.snd).sum := Nat.mul_le_mul_left _ ih
      _ = 2 ^ (((v, w) :: fs).map Prod.snd).sum := by rw [← Nat.pow_add]; rfl

/-- The lowest field is read at bit 0, in whole or from its low bits. -/
@[simp] theorem bitsOf_packNat_zero {w len : Nat} (v : Nat) (fs : List (Nat × Nat)) (h : len ≤ w) :
    bitsOf (packNat ((v, w) :: fs)) 0 len = v % 2 ^ len := by
  have hdvd : 2 ^ len ∣ 2 ^ w := Nat.pow_dvd_pow 2 h
  rw [bitsOf, packNat, Nat.pow_zero, Nat.div_one, Nat.add_mod, Nat.mod_mod_of_dvd _ hdvd,
    Nat.mod_eq_zero_of_dvd (Nat.dvd_mul_right_of_dvd hdvd _), Nat.add_zero, Nat.mod_mod]

/-- A field above the lowest one is read from the fields that follow it. -/
@[simp] theorem bitsOf_packNat_cons {w lo : Nat} (v : Nat) (fs : List (Nat × Nat)) (len : Nat) (h : w ≤ lo) :
    bitsOf (packNat ((v, w) :: fs)) lo len = bitsOf (packNat fs) (lo - w) len := by
  have hlow : packNat ((v, w) :: fs) / 2 ^ w = packNat fs := by
    rw [packNat, Nat.add_mul_div_left _ _ (Nat.two_pow_pos w), Nat.mod_div_self, Nat.zero_add]
  rw [bitsOf, bitsOf, ← hlow, Nat.div_div_eq_div_mul, ← Nat.pow_add, Nat.add_sub_cancel' h]

/-- A bit is a field of one bit. -/
theorem bitOf_eq_bitsOf (v i : Nat) : bitOf v i = (bitsOf v i 1 == 1) := rfl

/-! ### Words of a number -/

@[simp] theorem length_natWords (n v : Nat) : (natWords n v).length = n := by
  induction n generalizing v with
  | zero => rfl
  | succ n ih => rw [natWords, List.length_cons, ih]

/-- `n` words hold the low `64 n` bits of a number. -/
theorem wordsNat_natWords (n v : Nat) : wordsNat (natWords n v) = v % 2 ^ (64 * n) := by
  induction n generalizing v with
  | zero => exact (Nat.mod_one v).symm
  | succ n ih =>
    rw [natWords, wordsNat, ih, BitVec.toNat_ofNat, Nat.mul_succ, Nat.add_comm (64 * n), Nat.pow_add, Nat.mod_mul]

/-! ### Counting ones -/

theorem setBit_true_of_clear {v i : Nat} (h : bitOf v i = false) : setBit v i true = v + 2 ^ i := by
  simp only [setBit, h, Bool.false_eq_true, if_false, if_true]

theorem popCount_add_two_pow {n i v : Nat} (hi : i < n) (h0 : v / 2 ^ i % 2 = 0) :
    popCount n (v + 2 ^ i) = popCount n v + 1 := by
  induction n generalizing i v with
  | zero => exact absurd hi (Nat.not_lt_zero i)
  | succ n ih =>
    cases i with
    | zero =>
      have hmod : (v + 2 ^ 0) % 2 = v % 2 + 1 := by omega
      have hdiv : (v + 2 ^ 0) / 2 = v / 2 := by omega
      rw [popCount, popCount, hmod, hdiv]
      omega
    | succ i =>
      have hmod : (v + 2 ^ (i + 1)) % 2 = v % 2 := by omega
      have hdiv : (v + 2 ^ (i + 1)) / 2 = v / 2 + 2 ^ i := by omega
      have hbit : v / 2 / 2 ^ i % 2 = 0 := by rwa [Nat.div_div_eq_div_mul, ← Nat.pow_succ']
      rw [popCount, popCount, hmod, hdiv, ih (Nat.lt_of_succ_lt_succ hi) hbit, Nat.add_assoc]

/-- Setting a bit that is 0 adds a one. -/
theorem popCount_setBit {n i v : Nat} (hi : i < n) (h : bitOf v i = false) :
    popCount n (setBit v i true) = popCount n v + 1 := by
  rw [setBit_true_of_clear h]
  have h0 : v / 2 ^ i % 2 ≠ 1 := beq_eq_false_iff_ne.mp h
  exact popCount_add_two_pow hi (Nat.mod_two_ne_one.mp h0)

end Sys2Proof.Machine

namespace Sys2Proof

open Machine

/-! ### The header of a record -/

/-- The header of R59 field by field, with PARITY as a field of its own above the other flags. -/
def Rec.headFields (r : Rec) (parity : Bool) : List (Nat × Nat) :=
  [(r.type, 8), (r.len, 8), (r.stream, 16), (r.alive, 8), (r.flags, 7), (b2n parity, 1), (r.unit, 10), (0, 6), (r.die, 32),
    (r.gslot, 8), (0, 24), (r.ts64, 64)]

/-- PARITY as the originator sets it (R67). -/
def Rec.parity (r : Rec) : Bool := popCount 192 r.headNat % 2 == 1

theorem Rec.headNat_eq (r : Rec) : r.headNat = packNat (r.headFields false) := by
  simp only [Rec.headNat, Rec.headFields, packNat, b2n, Bool.false_eq_true, if_false]
  omega

/-- The header leaves room for PARITY. -/
theorem Rec.bitOf_headNat_parity (r : Rec) : bitOf r.headNat 47 = false := by
  rw [r.headNat_eq, bitOf_eq_bitsOf, Rec.headFields]
  simp only [bitsOf_packNat_cons, bitsOf_packNat_zero, Nat.reduceLeDiff, Nat.reduceSub, b2n, Bool.false_eq_true, if_false]
  rfl

theorem Rec.setBit_headNat_parity (r : Rec) : setBit r.headNat 47 true = packNat (r.headFields true) := by
  rw [setBit_true_of_clear r.bitOf_headNat_parity]
  simp only [Rec.headNat, Rec.headFields, packNat, b2n, if_true]
  omega

theorem Rec.header_of_odd {r : Rec} (h : popCount 192 r.headNat % 2 = 1) : r.header = setBit r.headNat 47 true := by
  simp only [Rec.header, if_pos h]

theorem Rec.header_of_even {r : Rec} (h : popCount 192 r.headNat % 2 ≠ 1) : r.header = r.headNat := by
  simp only [Rec.header, if_neg h]

/-- R59: the header is its fields packed. -/
theorem Rec.header_eq (r : Rec) : r.header = packNat (r.headFields r.parity) := by
  by_cases h : popCount 192 r.headNat % 2 = 1
  · rw [Rec.header_of_odd h, Rec.setBit_headNat_parity, Rec.parity, beq_iff_eq.mpr h]
  · rw [Rec.header_of_even h, Rec.headNat_eq, Rec.parity, beq_eq_false_iff_ne.mpr h]

theorem Rec.header_lt (r : Rec) : r.header < 2 ^ 192 :=
  r.header_eq ▸ packNat_lt (r.headFields r.parity)

/-- R67: PARITY makes the number of ones of the header even. -/
theorem Rec.popCount_header (r : Rec) : popCount 192 r.header % 2 = 0 := by
  by_cases h : popCount 192 r.headNat % 2 = 1
  · rw [Rec.header_of_odd h, popCount_setBit (by decide) r.bitOf_headNat_parity]
    omega
  · rw [Rec.header_of_even h]
    omega

/-! ### The words of a record -/

theorem Rec.take_words (r : Rec) : r.words.take 3 = natWords 3 r.header :=
  List.take_left' (length_natWords 3 r.header)

theorem Rec.drop_words (r : Rec) : r.words.drop 3 = r.pay :=
  List.drop_left' (length_natWords 3 r.header)

theorem Rec.length_words (r : Rec) : r.words.length = r.len := by
  rw [Rec.words, List.length_append, length_natWords, Rec.len]

/-- The first three words hold the whole header. -/
theorem Rec.wordsNat_take_words (r : Rec) : wordsNat (r.words.take 3) = r.header := by
  rw [r.take_words, wordsNat_natWords]
  exact Nat.mod_eq_of_lt r.header_lt

/-! ### Reading a record back -/

theorem Rec.wf_iff (r : Rec) : r.wf = true ↔
    r.type < 2 ^ 8 ∧ r.stream < 2 ^ 16 ∧ r.alive < 2 ^ 8 ∧ r.flags < 2 ^ 7 ∧ r.unit < 2 ^ 10 ∧ r.die < 2 ^ 32 ∧
      r.gslot < 2 ^ 8 ∧ r.ts64 < 2 ^ 64 ∧ r.pay.length ≤ 252 := by
  simp only [Rec.wf, Bool.and_eq_true, decide_eq_true_eq, and_assoc, Nat.reducePow]

/-- R60: LEN has 8 bits, which hold the length of every well-formed record. -/
theorem Rec.bitsOf_header_len {r : Rec} (h : r.wf = true) : bitsOf r.header 8 8 = r.len := by
  obtain ⟨-, -, -, -, -, -, -, -, hpay⟩ := r.wf_iff.mp h
  have hlen : r.len < 256 := by rw [Rec.len]; omega
  rw [r.header_eq, Rec.headFields]
  simp only [bitsOf_packNat_cons, bitsOf_packNat_zero, Nat.reduceLeDiff, Nat.reduceSub]
  exact Nat.mod_eq_of_lt hlen

/-- R59: the fields of the header read back. -/
theorem Rec.recOf_header {r : Rec} (h : r.wf = true) : recOf r.header r.pay = r := by
  obtain ⟨htype, hstream, halive, hflags, hunit, hdie, hgslot, hts, -⟩ := r.wf_iff.mp h
  rw [r.header_eq, Rec.headFields, recOf]
  simp only [bitsOf_packNat_cons, bitsOf_packNat_zero, Nat.reduceLeDiff, Nat.reduceSub, Nat.mod_eq_of_lt htype,
    Nat.mod_eq_of_lt hstream, Nat.mod_eq_of_lt halive, Nat.mod_eq_of_lt hflags, Nat.mod_eq_of_lt hunit, Nat.mod_eq_of_lt hdie,
    Nat.mod_eq_of_lt hgslot, Nat.mod_eq_of_lt hts]

/-! ### The check of a receiver -/

/-- R67, R84: a header with an odd number of ones has a fault, that of PARITY or one found before it. -/
theorem headerFault_of_odd {v : Nat} (left die : Nat) (may : Nat → Bool) (h : popCount 192 v % 2 = 1) :
    headerFault v left die may ≠ 0 := by
  simp only [headerFault, if_pos h]
  repeat' split
  all_goals decide

/-- Settles O57: the header is its fields packed with the PARITY that makes the ones even, so each field and the words read
back; the check of a receiver ends with PARITY. -/
theorem recordHeaders : Obligations.RecordHeaders := by
  unfold Obligations.RecordHeaders
  refine ⟨?readsBack, ?oddIsFault⟩
  case readsBack =>
    intro r hwf
    rw [r.wordsNat_take_words, r.drop_words]
    exact ⟨r.popCount_header, r.header_lt, Rec.bitsOf_header_len hwf, r.length_words, rfl, rfl, Rec.recOf_header hwf⟩
  case oddIsFault =>
    exact fun v left die may hodd => headerFault_of_odd left die may hodd

end Sys2Proof
end

section
/-! SUPPORT. Access to objects (R343, R344, R347, R360): what a read answers, how a write below the level of its object is
refused, and the clearing of a recorder (R381). -/

namespace Sys2Proof.Machine

/-! ### Abort codes (R360) -/

/-- The fold of `lowestAbort` keeps a code that none of the rest is below. -/
theorem foldl_abort_of_le {m : Nat} (l : List (Bool × Nat)) (hm : m ≠ 0) (hle : ∀ c ∈ l, m ≤ c.2) :
    l.foldl (fun m c => if c.1 && (m == 0 || decide (c.2 < m)) then c.2 else m) m = m := by
  induction l with
  | nil => rfl
  | cons c l ih =>
    obtain ⟨hc, hl⟩ := List.forall_mem_cons.mp hle
    have hkeep : (c.1 && (m == 0 || decide (c.2 < m))) = false := by
      rw [beq_false_of_ne hm, decide_eq_false (Nat.not_lt.mpr hc), Bool.or_false, Bool.and_false]
    rw [List.foldl_cons, hkeep]
    exact ih hl

/-- R360: a code that applies and that none of the others is below is the answer. -/
theorem lowestAbort_cons_of_le {a : Nat} {l : List (Bool × Nat)} (ha : a ≠ 0) (hle : ∀ c ∈ l, a ≤ c.2) :
    lowestAbort ((true, a) :: l) = a :=
  foldl_abort_of_le l ha hle

/-! ### Reads (R344, R347) -/

theorem Fyster.readObj_of_find {f : Fyster} {i k : Nat} {r : ObjRow} (hfind : objFind 1 i k = some r) :
    f.readObj i k = if r.acc = 2 then (0x22, 0, []) else (0, r.type, f.objRead r i k) := by
  simp only [Fyster.readObj, hfind]

theorem Tu.readObj_of_find {t : Tu} {p : Port} {i k : Nat} {r : ObjRow} (hfind : objFind 2 i k = some r) :
    t.readObj p i k = if r.acc = 2 then (0x22, 0, []) else (0, r.type, t.objRead p r i k) := by
  simp only [Tu.readObj, hfind]

/-- A READ of an own object of Fyster that fits one answer. -/
theorem Fyster.tdpRead_of_value {f : Fyster} {h : TdpMsg} {ty : Nat} {v : List Byte} (hnode : h.node = 0)
    (hread : f.readObj h.index h.sub = (0, ty, v)) (hfits : v.length ≤ 512) : f.tdpRead h = f.answer h.ask 0 ty f.ts v := by
  have hcode : f.nodeCode h.node = 0 := by rw [hnode]; rfl
  simp only [Fyster.tdpRead, hcode, if_pos hnode, hread, ne_eq, not_true_eq_false, if_false, if_neg (Nat.not_lt.mpr hfits)]

/-- A READ of an own object of Fyster that cannot be read. -/
theorem Fyster.tdpRead_of_abort {f : Fyster} {h : TdpMsg} {a ty : Nat} {v : List Byte} (hnode : h.node = 0)
    (hread : f.readObj h.index h.sub = (a, ty, v)) (ha : a ≠ 0) : f.tdpRead h = f.answer h.ask a 0 f.ts [] := by
  have hcode : f.nodeCode h.node = 0 := by rw [hnode]; rfl
  simp only [Fyster.tdpRead, hcode, if_pos hnode, hread, if_pos ha]

/-- A READ that Fyster takes is performed on Fyster as taking it left it. -/
theorem fyNext_tdpRead {s : State} {dt : Nat} {m : Datagram} {h : TdpMsg} {Q : Fyster → Prop}
    (hmsg : s.fy.tdpFor m 0x10 = some h) (htaken : ((s.fy.tick dt).tdpTake h).2 = true)
    (hQ : Q (((s.fy.tick dt).tdpTake h).1.tdpRead h)) : FyNext (.tdpRead dt m) s Q := by
  refine fyNext_of_onFy rfl ?_
  have hmsg' : (s.fy.tick dt).tdpFor m 0x10 = some h := hmsg
  simpa only [Fyster.request, hmsg', if_pos htaken] using hQ

/-! ### Writes below the level of an object (R344) -/

/-- LEVEL is the lowest of the codes that a write can have. -/
theorem ObjRow.code'_of_level_lt {r : ObjRow} {level : Nat} (i k : Nat) (v : List Byte) (hlow : level < r.level) :
    r.code' level i k v = 5 := by
  simp only [ObjRow.code', decide_eq_true hlow]
  exact lowestAbort_cons_of_le (by decide) (by simp)

theorem writeCode_of_level_lt {nodes level i k : Nat} {r : ObjRow} (v : List Byte) (hfind : objFind nodes i k = some r)
    (hlow : level < r.level) : writeCode nodes level i k v = 5 := by
  simp only [writeCode, hfind, ObjRow.code'_of_level_lt i k v hlow]

theorem Fyster.wrObj_of_level_lt {f : Fyster} {tus : Tab Tu} {session level i k : Nat} {v : List Byte} {why : Option RelayFor}
    {r : ObjRow} (hfind : objFind 1 i k = some r) (hlow : level < r.level) :
    f.wrObj tus session level i k v why = (f, 5) := by
  simp only [Fyster.wrObj, writeCode_of_level_lt v hfind hlow]

theorem Tu.wrObj_of_level_lt {t : Tu} {p : Port} {level i k : Nat} {v : List Byte} {r : ObjRow}
    (hfind : objFind 2 i k = some r) (hlow : level < r.level) : t.wrObj p level i k v = (t, 5) := by
  simp only [Tu.wrObj, writeCode_of_level_lt v hfind hlow]

/-- A refused write of Fyster's dictionary changes what its answer changes. -/
theorem State.writeFy_refused {s : State} {f : Fyster} {session level i k a : Nat} {v : List Byte} {why : Option RelayFor}
    {answer : Fyster → Nat → Fyster} (hwr : f.wrObj s.tus session level i k v why = (f, a)) (ha : a ≠ 0) :
    s.writeFy f session level i k v why answer = { s with fy := answer f a } := by
  simp only [State.writeFy, hwr, if_neg ha]

/-- A refused write of a TU's dictionary changes what its answer changes. -/
theorem State.writeTu_refused {s : State} {p : Port} {t : Tu} {level i k a : Nat} {v : List Byte} {answer : Tu → Nat → Tu}
    (hwr : t.wrObj p level i k v = (t, a)) (ha : a ≠ 0) :
    s.writeTu p t level i k v answer = shadowWatch p s (s.setTu p (answer t a)) := by
  simp only [State.writeTu, hwr, ha, false_and, if_false]

/-- R185: a TU that keeps its objects keeps its SHADOW_ENABLE, which is all that Fyster watches. -/
theorem shadowWatch_of_obj_eq {s : State} {p : Port} {t : Tu} (hobj : t.part.obj = (s.tu p).part.obj) :
    shadowWatch p s (s.setTu p t) = s.setTu p t := by
  simp only [shadowWatch, State.tu_setTu_self, Part.flag, Part.rd, hobj, beq_self_eq_true, if_true]

/-! ### Clearing a recorder (R381) -/

theorem exec_evrClear_fyster (s : State) (dt : Nat) (v : Word) :
    exec (.evrClear dt .fyster v) s = .next (onFy dt (fun f => f.reply .observe 0 (f.wrEvrClear v.toNat)) s) := rfl

theorem exec_evrClear_tu (s : State) (dt : Nat) (p : Port) (v : Word) :
    exec (.evrClear dt (.tu p) v) s = .next (onTu p dt (fun t => t.reply .observe 0 (t.wrEvrClear v.toNat)) s) := rfl

theorem Fyster.wrEvrClear_of_le {f : Fyster} {n : Nat} (h : n ≤ f.part.evr.total) : (f.wrEvrClear n).2 = 0 := by
  simp only [Fyster.wrEvrClear, if_neg (Nat.not_lt.mpr h)]

theorem Tu.wrEvrClear_of_le {t : Tu} {n : Nat} (h : n ≤ t.part.evr.total) : (t.wrEvrClear n).2 = 0 := by
  simp only [Tu.wrEvrClear, if_neg (Nat.not_lt.mpr h)]

/-- R344, R360: the answer of a write at a sufficient level is its abort code. -/
theorem Fyster.reply_out_head {f : Fyster} {lvl : Level} {need : Nat} (r : Fyster × Nat) (hlvl : need ≤ Level.rank lvl) :
    (f.reply lvl need r).out.head? = some (.answer r.2) := by
  obtain ⟨g, a⟩ := r
  by_cases ha : a = 0
  · rw [ha, Fyster.reply_accepted hlvl, Fyster.emit_out]
    rfl
  · rw [Fyster.reply_refused hlvl ha, Fyster.emit_out]
    rfl

/-- R344, R360: a write at a sufficient level that ends in no abort code takes effect. -/
theorem Tu.reply_accepted {t u : Tu} {lvl : Level} {need : Nat} (hlvl : need ≤ Level.rank lvl) :
    t.reply lvl need (u, 0) = u.emit (.answer 0) := by
  simp only [Tu.reply, if_neg (Nat.not_lt.mpr hlvl), if_true]

/-- R344, R360: the answer of a write at a sufficient level is its abort code. -/
theorem Tu.reply_out_head {t : Tu} {lvl : Level} {need : Nat} (r : Tu × Nat) (hlvl : need ≤ Level.rank lvl) :
    (t.reply lvl need r).out.head? = some (.answer r.2) := by
  obtain ⟨u, a⟩ := r
  by_cases ha : a = 0
  · rw [ha, Tu.reply_accepted hlvl, Tu.emit_out]
    rfl
  · rw [Tu.reply_refused hlvl ha, Tu.emit_out]
    rfl

end Sys2Proof.Machine

namespace Sys2Proof

open Machine

/-- Settles O58: a read asks for no level and turns on the access of the object's row alone; of the codes of a write LEVEL is
the lowest, so it is the answer wherever it applies; EVR_CLEAR needs level 0. -/
theorem accessLevels : Obligations.AccessLevels := by
  unfold Obligations.AccessLevels
  refine ⟨?read, ?readWo, ?readTu, ?write, ?writeTu, ?clear, ?clearTu⟩
  case read =>
    intro s dt m h r hmsg htaken hnode hfind hacc hfits
    exact fyNext_tdpRead hmsg htaken
      (Fyster.tdpRead_of_value hnode ((Fyster.readObj_of_find hfind).trans (if_neg hacc)) hfits)
  case readWo =>
    intro s dt m h r hmsg htaken hnode hfind hacc
    exact fyNext_tdpRead hmsg htaken
      (Fyster.tdpRead_of_abort hnode ((Fyster.readObj_of_find hfind).trans (if_pos hacc)) (by decide))
  case readTu =>
    exact fun t p i k r hfind => Tu.readObj_of_find hfind
  case write =>
    intro s dt lvl i k v r hfind hlow
    exact ⟨_, congrArg Host.Outcome.next (State.writeFy_refused (Fyster.wrObj_of_level_lt hfind hlow) (by decide)), rfl⟩
  case writeTu =>
    intro s dt p lvl i k v r hfind hlow
    exact ⟨_, congrArg Host.Outcome.next ((State.writeTu_refused (Tu.wrObj_of_level_lt hfind hlow) (by decide)).trans
      (shadowWatch_of_obj_eq rfl)), rfl⟩
  case clear =>
    intro s dt v hle
    refine fyNext_of_onFy (exec_evrClear_fyster s dt v) ?_
    rw [Fyster.reply_out_head _ (Nat.zero_le _), Fyster.wrEvrClear_of_le (f := s.fy.tick dt) hle]
  case clearTu =>
    intro s dt p v hle
    refine tuNext_of_onTu (exec_evrClear_tu s dt p v) ?_
    rw [Tu.reply_out_head _ (Nat.zero_le _), Tu.wrEvrClear_of_le (t := (s.tu p).tick dt) hle]

end Sys2Proof
end

section
/-! SUPPORT. The block as a whole: where each command acts, and what every command leaves of the queue and of the table of TUs. -/

namespace Sys2Proof.Machine

/-! ### What every command keeps -/

/-- The queue is as before, and the table of TUs is in canonical form if it was. -/
def State.Keeps (s t : State) : Prop := t.pending = s.pending ∧ (s.TuTable → t.TuTable)

theorem State.Keeps.refl (s : State) : s.Keeps s := ⟨rfl, id⟩

theorem State.Keeps.trans {s t u : State} (h : s.Keeps t) (k : t.Keeps u) : s.Keeps u :=
  ⟨k.1.trans h.1, k.2 ∘ h.2⟩

theorem State.keeps_setFy (s : State) (f : Fyster) : s.Keeps { s with fy := f } := ⟨rfl, id⟩

/-- R1: a TU put in the place of a port of the tray keeps the table in form. -/
theorem State.keeps_tset (s : State) {p : Nat} (hp : p < 32) (t : Tu) : s.Keeps { s with tus := tset s.tus p t } := by
  refine ⟨rfl, fun ⟨hrising, hports⟩ => ⟨tset_rising s.tus p t hrising, fun e he => ?_⟩⟩
  rcases (mem_keys_tset s.tus p t e.1).mp (List.mem_map_of_mem he) with heq | hmem
  · exact heq ▸ hp
  · obtain ⟨e', he', hkey⟩ := List.mem_map.mp hmem
    exact hkey ▸ hports e' he'

theorem State.keeps_setTu (s : State) (p : Port) (t : Tu) : s.Keeps (s.setTu p t) := s.keeps_tset p.isLt t

theorem State.keeps_ite {s t u : State} {c : Prop} [Decidable c] (ht : s.Keeps t) (hu : s.Keeps u) :
    s.Keeps (if c then t else u) := by
  split
  · exact ht
  · exact hu

theorem keeps_shadowWatch {p : Port} {s t : State} (h : s.Keeps t) : s.Keeps (shadowWatch p s t) :=
  State.keeps_ite h (h.trans (t.keeps_setFy _))

/-! ### Writes of the dictionary (R344, R365) -/

/-- An object that can be written is one of the table. -/
theorem objFind_of_writeCode {nodes level i k : Nat} {v : List Byte} (h : writeCode nodes level i k v = 0) :
    ∃ r, objFind nodes i k = some r := by
  cases hfind : objFind nodes i k with
  | some r => exact ⟨r, rfl⟩
  | none =>
    simp only [writeCode, hfind, objMissing] at h
    split at h <;> cases h

theorem Fyster.writeCode_of_wrObj {f : Fyster} {tus : Tab Tu} {session level i k : Nat} {v : List Byte} {why : Option RelayFor}
    (h : (f.wrObj tus session level i k v why).2 = 0) : writeCode 1 level i k v = 0 := by
  simp only [Fyster.wrObj] at h
  split at h
  · assumption
  · exact h

/-- What `objFind` finds covers the subindex. -/
theorem objFind_covers {nodes i k : Nat} {r : ObjRow} (h : objFind nodes i k = some r) :
    r ∈ objChunk i ∧ r.base ≤ i ∧ i < r.base + r.count ∧ k ≤ r.subHi := by
  have hp := List.find?_some h
  simp only [Bool.and_eq_true, Nat.ble_eq, Nat.blt_eq] at hp
  obtain ⟨⟨⟨⟨hbase, hcount⟩, -⟩, hsub⟩, -⟩ := hp
  exact ⟨List.mem_of_find?_eq_some h, hbase, hcount, hsub⟩

/-- R362, R365: the objects of ports that are pushed have one subindex for each of the 32 ports. -/
theorem sub_le_of_port_row {i k : Nat} {r : ObjRow} (hi : i = 0x1010 ∨ i = 0x7C10) (h : objFind 1 i k = some r) : k ≤ 32 := by
  have hrows : ∀ r ∈ objRows0 ++ objRows17, (r.base ≤ 0x1010 ∧ 0x1010 < r.base + r.count) ∨
      (r.base ≤ 0x7C10 ∧ 0x7C10 < r.base + r.count) → r.subHi ≤ 32 := by decide
  obtain ⟨hmem, hbase, hcount, hsub⟩ := objFind_covers h
  refine Nat.le_trans hsub (hrows r ?_ ?_)
  · rcases hi with rfl | rfl
    · exact List.mem_append_left _ hmem
    · exact List.mem_append_right _ hmem
  · rcases hi with rfl | rfl
    · exact .inl ⟨hbase, hcount⟩
    · exact .inr ⟨hbase, hcount⟩

/-- R1: a write is pushed to ports of the tray alone. -/
theorem lt_of_mem_pushPorts {i k p : Nat} {r : ObjRow} (hfind : objFind 1 i k = some r) (h : p ∈ pushPorts i k) : p < 32 := by
  simp only [pushPorts] at h
  split at h
  next hi =>
    have hk : k ≤ 32 := sub_le_of_port_row hi hfind
    rw [List.mem_singleton.mp h]
    omega
  next =>
    split at h
    next hi =>
      rw [List.mem_singleton.mp h]
      omega
    next =>
      split at h
      · exact List.mem_range.mp h
      · cases h

theorem State.keeps_foldl_tset {g : State → Nat → Tu} (l : List Nat) (hl : ∀ p ∈ l, p < 32) (s : State) :
    s.Keeps (l.foldl (fun (s : State) p => { s with tus := tset s.tus p (g s p) }) s) :=
  List.foldlRecOn (motive := s.Keeps) l _ (State.Keeps.refl s) fun t ht p hp => ht.trans (t.keeps_tset (hl p hp) _)

theorem State.keeps_writeFy (s : State) (f : Fyster) (session level i k : Nat) (v : List Byte) (why : Option RelayFor)
    (answer : Fyster → Nat → Fyster) : s.Keeps (s.writeFy f session level i k v why answer) := by
  simp only [State.writeFy]
  split
  next hok =>
    obtain ⟨r, hfind⟩ := objFind_of_writeCode (Fyster.writeCode_of_wrObj hok)
    refine State.Keeps.trans ?_ (State.keeps_setFy _ _)
    exact (s.keeps_setFy _).trans (State.keeps_foldl_tset _ (fun p hp => lt_of_mem_pushPorts hfind hp) _)
  next => exact s.keeps_setFy _

theorem State.keeps_writeTu (s : State) (p : Port) (t : Tu) (level i k : Nat) (v : List Byte) (answer : Tu → Nat → Tu) :
    s.Keeps (s.writeTu p t level i k v answer) :=
  State.keeps_ite ((s.keeps_setFy _).trans (State.keeps_setTu _ p _)) (keeps_shadowWatch (s.keeps_setTu p _))

theorem State.keeps_dictWriteTu (s : State) (p : Port) (t : Tu) (m : DictMsg) (v : List Byte) :
    s.Keeps (s.dictWriteTu p t m v) :=
  State.keeps_ite (s.keeps_setTu p _) (s.keeps_writeTu p t _ _ _ _ _)

theorem State.keeps_request (s : State) (dt : Nat) (m : Datagram) (mtype : Nat) (act : State → Fyster → TdpMsg → State)
    (hact : ∀ f h, s.Keeps (act s f h)) : s.Keeps (s.request dt m mtype act) := by
  simp only [State.request]
  split
  · exact s.keeps_setFy _
  · exact State.keeps_ite (hact _ _) (s.keeps_setFy _)

theorem State.keeps_tdpWrite (s : State) (f : Fyster) (h : TdpMsg) : s.Keeps (s.tdpWrite f h) := by
  simp only [State.tdpWrite]
  split
  · exact State.keeps_ite (s.keeps_setFy _) (State.keeps_ite (s.keeps_setFy _) (s.keeps_writeFy f _ _ _ _ _ _ _))
  · exact s.keeps_setFy _

theorem State.keeps_blkEnd (s : State) (f : Fyster) (h : TdpMsg) : s.Keeps (s.blkEnd f h) := by
  simp only [State.blkEnd]
  split
  · exact State.keeps_ite (s.keeps_setFy _) (State.keeps_ite (s.keeps_setFy _)
      (State.keeps_ite (s.keeps_setFy _) (s.keeps_writeFy _ _ _ _ _ _ _ _)))
  · exact s.keeps_setFy _
  · exact s.keeps_setFy _

theorem State.keeps_mboxWriteTu (s : State) (p : Port) (t : Tu) (c : Nat) (q : MboxReq) : s.Keeps (s.mboxWriteTu p t c q) := by
  simp only [State.mboxWriteTu]
  split
  · exact State.keeps_ite (s.keeps_setTu p _) (s.keeps_writeTu p _ _ _ _ _ _)
  · exact s.keeps_setTu p _

theorem State.keeps_mboxCommitTu (s : State) (p : Port) (t : Tu) (c : Nat) (q : MboxReq) :
    s.Keeps (s.mboxCommitTu p t c q) := by
  simp only [State.mboxCommitTu]
  split
  · exact s.keeps_writeTu p _ _ _ _ _ _
  · exact s.keeps_setTu p _

theorem State.keeps_mboxWriteFy (s : State) (f : Fyster) (c : Nat) (q : MboxReq) : s.Keeps (s.mboxWriteFy f c q) := by
  simp only [State.mboxWriteFy]
  split
  · exact State.keeps_ite (s.keeps_setFy _) (State.keeps_ite (s.keeps_setFy _) (s.keeps_writeFy f _ _ _ _ _ _ _))
  · exact s.keeps_setFy _

theorem State.keeps_mboxCommitFy (s : State) (f : Fyster) (c : Nat) (q : MboxReq) : s.Keeps (s.mboxCommitFy f c q) := by
  simp only [State.mboxCommitFy]
  split
  · exact State.keeps_ite (s.keeps_setFy _) (s.keeps_writeFy _ _ _ _ _ _ _ _)
  · exact s.keeps_setFy _

/-! ### Commands on Fyster and a TU together -/

/-- A command that completes and keeps the queue and the form of the table. -/
def Completes (c : Instr) : Prop := ∀ s, ∃ t, exec c s = .next t ∧ s.Keeps t

theorem completes_trDictWrite (dt : Nat) (p : Port) (r : Rec) : Completes (.trDictWrite dt p r) := by
  refine fun s => ⟨_, rfl, ?_⟩
  split
  · exact s.keeps_setTu p _
  · exact State.keeps_ite (s.keeps_dictWriteTu p _ _ _) (s.keeps_setTu p _)

theorem completes_trDictCommit (dt : Nat) (p : Port) (r : Rec) : Completes (.trDictCommit dt p r) := by
  refine fun s => ⟨_, rfl, ?_⟩
  split
  · exact s.keeps_setTu p _
  · refine State.keeps_ite ?_ (s.keeps_setTu p _)
    dsimp only
    split
    · exact s.keeps_dictWriteTu p _ _ _
    · exact s.keeps_setTu p _

theorem completes_objectWrite (dt : Nat) (n : Node) (lvl : Level) (i : BitVec 16) (k : Byte) (v : List Byte) :
    Completes (.objectWrite dt n lvl i k v) := by
  intro s
  cases n with
  | fyster => exact ⟨_, rfl, s.keeps_writeFy _ _ _ _ _ _ _ _⟩
  | tu p => exact ⟨_, rfl, s.keeps_writeTu p _ _ _ _ _ _⟩

theorem completes_dictWrite (dt : Nat) (n : Node) (ch : Fin 64) : Completes (.dictWrite dt n ch) := by
  refine fun s => ⟨_, rfl, ?_⟩
  cases n with
  | fyster =>
    dsimp only
    split
    · exact s.keeps_mboxWriteFy _ _ _
    · exact s.keeps_setFy _
  | tu p =>
    dsimp only
    split
    · exact s.keeps_mboxWriteTu p _ _ _
    · exact s.keeps_setTu p _

theorem completes_dictCommit (dt : Nat) (n : Node) (ch : Fin 64) : Completes (.dictCommit dt n ch) := by
  refine fun s => ⟨_, rfl, ?_⟩
  cases n with
  | fyster =>
    dsimp only
    split
    · exact s.keeps_mboxCommitFy _ _ _
    · exact s.keeps_setFy _
  | tu p =>
    dsimp only
    split
    · exact s.keeps_mboxCommitTu p _ _ _
    · exact s.keeps_setTu p _

theorem completes_tlTrainingDone (dt : Nat) (e : End) (r : TrainResult) : Completes (.tlTrainingDone dt e r) := by
  intro s
  cases e with
  | tuEnd p => exact ⟨_, rfl, s.keeps_setTu p _⟩
  | fysterEnd p => exact ⟨_, rfl, State.keeps_ite ((s.keeps_setFy _).trans (State.keeps_setTu _ p _)) (s.keeps_setFy _)⟩

theorem completes_portDieIdWrite (dt : Nat) (p : Port) (lvl : Level) (v : BitVec 32) :
    Completes (.portDieIdWrite dt p lvl v) := fun s =>
  ⟨_, rfl, State.keeps_ite ((s.keeps_setFy _).trans (State.keeps_setTu _ p _)) (s.keeps_setFy _)⟩

theorem completes_tuResetRequest (dt : Nat) (p : Port) (lvl : Level) (v : Byte) :
    Completes (.tuResetRequest dt p lvl v) := fun s =>
  ⟨_, rfl, State.keeps_ite ((s.keeps_setFy _).trans (State.keeps_setTu _ p _)) (s.keeps_setTu p _)⟩

/-! ### Commands at their sites -/

/-- What a command does at its site: on one part of the tray an effect on that part, whatever else the tray holds. -/
def ActsAt (c : Instr) : Site → Prop
  | .fyster => ∃ dt g, ∀ s, exec c s = .next (onFy dt g s)
  | .tu p => ∃ dt g, ∀ s, exec c s = .next (onTu p dt g s)
  | .tray => Completes c

theorem actsAt_node {c : Instr} {n : Node} {dt : Nat} {ft : Port → Tu → Tu} {ff : Fyster → Fyster}
    (h : ∀ s, exec c s = .next (onNode n dt ft ff s)) : ActsAt c n.site := by
  cases n with
  | fyster => exact ⟨dt, ff, h⟩
  | tu p => exact ⟨dt, ft p, h⟩

theorem actsAt_end {c : Instr} {e : End} {dt : Nat} {ft : Port → Tu → Tu} {ff : Port → Fyster → Fyster}
    (h : ∀ s, exec c s = .next (onEnd e dt ft ff s)) : ActsAt c e.site := by
  cases e with
  | fysterEnd p => exact ⟨dt, ff p, h⟩
  | tuEnd p => exact ⟨dt, ft p, h⟩

/-- Every command acts at its site. -/
theorem actsAt_site (c : Instr) : ActsAt c c.site := by
  cases c
  case timeSecondTick | ts64Rollover | gridChange | lossReport | crcEnable | crcPause | crcPaused | crcInit | crcValueWrite
      | spareSwap | wearReading | wmkRecordTick | sumacBlockDone | groupArmEffective | membershipChange | groupDrainEffective
      | groupRelease | mboxDoorbell | dictRead | dictSegment | mboxReservedCode | mboxAck | idleIntentWrite | chDirWrite
      | evrUpdateTimer | evrClear | evrFlush | recoveryRetry =>
    exact actsAt_node fun _ => rfl
  case tosStatusRx | statusSendTimer | frameRx | controlFrameRx | ackControlSend | replayTimeout | tlLinkLoss
      | tlRetrainAttempt | tlRetrain | laneSwapQuiesce | laneSwapQuiesceTimeout | tlTrainingAttemptFailed =>
    exact actsAt_end fun _ => rfl
  case shadowEnableWrite => exact fun s => ⟨_, rfl, keeps_shadowWatch (s.keeps_setTu _ _)⟩
  case shadowPairsWrite | l1GatherClose => exact fun s => ⟨_, rfl, s.keeps_setFy _⟩
  case cutHoldTimeout => exact fun s => ⟨_, rfl, s.keeps_setTu _ _⟩
  case tdpWrite => exact fun s => ⟨_, rfl, s.keeps_request _ _ _ _ fun f h => s.keeps_tdpWrite f h⟩
  case blkEnd => exact fun s => ⟨_, rfl, s.keeps_request _ _ _ _ fun f h => s.keeps_blkEnd f h⟩
  case trDictWrite => exact completes_trDictWrite _ _ _
  case trDictCommit => exact completes_trDictCommit _ _ _
  case calWrite => exact fun s => ⟨_, rfl, State.keeps_ite (s.keeps_writeFy _ _ _ _ _ _ _ _) (s.keeps_setFy _)⟩
  case calImage => exact fun s => ⟨_, rfl, s.keeps_writeFy _ _ _ _ _ _ _ _⟩
  case objectWrite => exact completes_objectWrite _ _ _ _ _ _
  case dictWrite => exact completes_dictWrite _ _ _
  case dictCommit => exact completes_dictCommit _ _ _
  case tlTrainingDone => exact completes_tlTrainingDone _ _ _
  case portDieIdWrite => exact completes_portDieIdWrite _ _ _ _
  case tuResetRequest => exact completes_tuResetRequest _ _ _ _
  all_goals
    dsimp only [Instr.site, ActsAt]
    exact ⟨_, _, fun _ => rfl⟩

theorem exec_of_site_tu {c : Instr} {p : Port} (h : c.site = .tu p) : ∃ dt g, ∀ s, exec c s = .next (onTu p dt g s) := by
  have hacts : ActsAt c c.site := actsAt_site c
  rwa [h] at hacts

theorem exec_of_site_fyster {c : Instr} (h : c.site = .fyster) : ∃ dt g, ∀ s, exec c s = .next (onFy dt g s) := by
  have hacts : ActsAt c c.site := actsAt_site c
  rwa [h] at hacts

/-- Every command completes, and what it leaves alone of the tray. -/
theorem exec_keeps (c : Instr) (s : State) : ∃ t, exec c s = .next t ∧ s.Keeps t := by
  cases hsite : c.site with
  | fyster =>
    obtain ⟨dt, g, hexec⟩ := exec_of_site_fyster hsite
    exact ⟨_, hexec s, s.keeps_setFy _⟩
  | tu p =>
    obtain ⟨dt, g, hexec⟩ := exec_of_site_tu hsite
    exact ⟨_, hexec s, s.keeps_setTu p _⟩
  | tray =>
    have hacts : ActsAt c c.site := actsAt_site c
    rw [hsite] at hacts
    exact hacts s

end Sys2Proof.Machine

namespace Sys2Proof

open Machine

/-- Settles O1: the two cases of `step`. -/
theorem stepRunsFront : Obligations.StepRunsFront := by
  unfold Obligations.StepRunsFront
  refine ⟨fun s c r hfront => ?_, fun s hempty => ?_⟩
  · simp only [step, hfront]
  · simp only [step, hempty]

/-- Settles O2: a command on one part leaves the queue alone, and so does each command on Fyster and a TU together. -/
theorem everyCommandCompletes : Obligations.EveryCommandCompletes := by
  unfold Obligations.EveryCommandCompletes
  intro c s
  obtain ⟨t, hexec, hpending, -⟩ := exec_keeps c s
  exact ⟨t, hexec, hpending⟩

/-- Settles O3: a command on a TU is an effect on that TU, the same effect whatever else the tray holds. -/
theorem tuIsolation : Obligations.TuIsolation := by
  unfold Obligations.TuIsolation
  intro c p s₁ s₂ hsite heq
  obtain ⟨dt, g, hexec⟩ := exec_of_site_tu hsite
  refine ⟨g ((s₁.tu p).tick dt), hexec s₁, ?_⟩
  rw [hexec s₂, onTu, heq]

/-- Settles O4: a command on Fyster is an effect on Fyster, the same effect whatever the TUs hold. -/
theorem fysterIsolation : Obligations.FysterIsolation := by
  unfold Obligations.FysterIsolation
  intro c s₁ s₂ hsite heq
  obtain ⟨dt, g, hexec⟩ := exec_of_site_fyster hsite
  refine ⟨g (s₁.fy.tick dt), hexec s₁, ?_⟩
  rw [hexec s₂, onFy, heq]

/-- Settles O5: every command keeps the table in form, because every TU that it puts in place is on a port of the tray. -/
theorem tuTableKept : Obligations.TuTableKept := by
  unfold Obligations.TuTableKept
  intro s s' htable hstep
  cases hpending : s.pending with
  | nil =>
    simp only [step, hpending] at hstep
    cases hstep
    exact htable
  | cons c rest =>
    simp only [step, hpending] at hstep
    obtain ⟨t, hexec, -, hkept⟩ := exec_keeps c { s with pending := rest }
    cases hexec.symm.trans hstep
    exact hkept htable

/-- Settles O6: the tray after reset lists no TU. -/
theorem tuTableAtReset : Obligations.TuTableAtReset := by
  unfold Obligations.TuTableAtReset
  exact ⟨List.Pairwise.nil, fun _ he => nomatch he⟩

end Sys2Proof
end

section
/-! SUPPORT. Calibration images (R365 to R367): reading fields of bytes, writes of Fyster's dictionary that take effect, and the
entries of an image. -/

namespace Sys2Proof.Machine

/-! ### Fields of bytes (R2) -/

@[simp] theorem length_leBytes (n v : Nat) : (leBytes n v).length = n := by
  induction n generalizing v with
  | zero => rfl
  | succ n ih => rw [leBytes, List.length_cons, ih]

/-- `n` bytes hold the low `8 n` bits of a number. -/
theorem leNat_leBytes (n v : Nat) : leNat (leBytes n v) = v % 2 ^ (8 * n) := by
  induction n generalizing v with
  | zero => exact (Nat.mod_one v).symm
  | succ n ih =>
    rw [leBytes, leNat, ih, BitVec.toNat_ofNat, Nat.mul_succ, Nat.add_comm (8 * n), Nat.pow_add, Nat.mod_mul]

theorem take_leBytes_append {n m : Nat} (v : Nat) (r : List Byte) (h : n ≤ m) :
    (leBytes m v ++ r).take n = leBytes n v := by
  induction n generalizing m v with
  | zero => rfl
  | succ n ih =>
    obtain ⟨m, rfl⟩ := Nat.exists_eq_succ_of_ne_zero (Nat.ne_zero_of_lt h)
    rw [leBytes, leBytes, List.cons_append, List.take_succ_cons, ih _ (Nat.le_of_succ_le_succ h)]

theorem drop_leBytes_append {a m : Nat} (v : Nat) (r : List Byte) (h : a ≤ m) :
    (leBytes m v ++ r).drop a = leBytes (m - a) (v / 2 ^ (8 * a)) ++ r := by
  induction a generalizing m v with
  | zero => rw [Nat.mul_zero, Nat.pow_zero, Nat.div_one]; rfl
  | succ a ih =>
    obtain ⟨m, rfl⟩ := Nat.exists_eq_succ_of_ne_zero (Nat.ne_zero_of_lt h)
    rw [leBytes, List.cons_append, List.drop_succ_cons, ih _ (Nat.le_of_succ_le_succ h), Nat.succ_sub_succ, Nat.mul_succ,
      Nat.add_comm (8 * a), Nat.pow_add, Nat.div_div_eq_div_mul]

/-- A field within a number's bytes is a bit field of the number. -/
theorem fieldAt_leBytes {a n m : Nat} (pre r : List Byte) (v : Nat) (h : a + n ≤ m) :
    fieldAt (pre ++ (leBytes m v ++ r)) (pre.length + a) n = bitsOf v (8 * a) (8 * n) := by
  rw [fieldAt, slice, List.drop_length_add_append, drop_leBytes_append v r (by omega),
    take_leBytes_append _ r (by omega), leNat_leBytes, bitsOf]

/-! ### Writes of Fyster's dictionary that take effect (R344, R365) -/

theorem State.afterWrite_fy (s : State) (f : Fyster) (i k : Nat) : (s.afterWrite f i k).fy = f :=
  List.foldlRecOn (motive := fun t : State => t.fy = f) _ _ rfl fun _ ht _ _ => ht

/-- A write that takes effect at once and orders no reset leaves Fyster as the answer makes it. -/
theorem State.writeFy_accepted {s : State} {f g : Fyster} {session level i k : Nat} {v : List Byte} {why : Option RelayFor}
    {answer : Fyster → Nat → Fyster} (hwr : f.wrObj s.tus session level i k v why = (g, 0))
    (hnow : answersLater i k 0 = false) (hreset : (answer g 0).resetAfter = none) :
    s.writeFy f session level i k v why answer = s.afterWrite (answer g 0) i k := by
  have hstay : (s.afterWrite (answer g 0) i k).fy.resetIfOrdered = (s.afterWrite (answer g 0) i k).fy := by
    simp only [Fyster.resetIfOrdered, State.afterWrite_fy, hreset]
  simp only [State.writeFy, hwr, hnow, Bool.false_eq_true, if_true, if_false, hstay]

/-! ### Numeric objects written one after another -/

/-- Fyster with numeric objects written in order. -/
def Fyster.wrAll (f : Fyster) (es : List ((Nat × Nat) × Nat)) : Fyster := es.foldl (fun f e => f.wr e.1.1 e.1.2 e.2) f

/-- The key of an object. -/
def keyOf (k : Nat × Nat) : Nat := objKey k.1 k.2

theorem Fyster.wrAll_frame (f : Fyster) (es : List ((Nat × Nat) × Nat)) : { f.wrAll es with part := f.part } = f :=
  List.foldlRecOn (motive := fun g : Fyster => { g with part := f.part } = f) es _ rfl fun _ hg _ _ => hg

theorem Fyster.rd_wrAll_other (f : Fyster) {es : List ((Nat × Nat) × Nat)} {i k : Nat}
    (h : ∀ e ∈ es, objKey i k ≠ keyOf e.1) : (f.wrAll es).rd i k = f.rd i k :=
  List.foldlRecOn (motive := fun g : Fyster => g.rd i k = f.rd i k) es _ rfl fun g hg e he =>
    (Part.rd_wr_other g.part e.2 (h e he)).trans hg

/-- Objects with keys of their own read what was written. -/
theorem Fyster.rd_wrAll {es : List ((Nat × Nat) × Nat)} (f : Fyster) (hkeys : (es.map fun e => keyOf e.1).Nodup)
    {e : (Nat × Nat) × Nat} (he : e ∈ es) : (f.wrAll es).rd e.1.1 e.1.2 = e.2 := by
  induction es generalizing f with
  | nil => cases he
  | cons x es ih =>
    rw [List.map_cons, List.nodup_cons] at hkeys
    rcases List.mem_cons.mp he with rfl | hmem
    · refine (Fyster.rd_wrAll_other (f.wr e.1.1 e.1.2 e.2) fun y hy heq => hkeys.1 ?_).trans (Part.rd_wr_self f.part _ _ _)
      have hsame : keyOf e.1 = keyOf y.1 := heq
      exact List.mem_map.mpr ⟨y, hy, hsame.symm⟩
    · exact ih (f.wr x.1.1 x.1.2 x.2) hkeys.2 hmem

/-! ### The keys of the set (R366) -/

theorem length_calKeys : calKeys.length = 199 := by decide +kernel

theorem calKeys_fit : ∀ k ∈ calKeys, k.1 < 2 ^ 16 ∧ k.2 < 2 ^ 8 := by decide +kernel

theorem calKeys_above : ∀ k ∈ calKeys, objKey 0x7C00 3 < keyOf k := by decide +kernel

theorem calKeys_nodup : (calKeys.map keyOf).Nodup := by decide +kernel

/-! ### Entries of an image (R366) -/

/-- TYPE of a calibration object: FP32 for SENSOR_GAIN, else a signed number. -/
def calType (k : Nat × Nat) : Nat := if k.1 = 0x7C30 then 8 else 6

/-- The 8 bytes of an entry. -/
def calEntryBytes (e : (Nat × Nat) × Nat) : List Byte :=
  leBytes 8 (packNat [(e.1.1, 16), (e.1.2, 8), (calType e.1, 8), (e.2, 32)])

/-- An entry as it is read. -/
def calEntryOf (e : (Nat × Nat) × Nat) : Nat × Nat × Nat × Nat := (e.1.1, e.1.2, calType e.1, e.2)

/-- The four fields of 8 bytes at an offset. -/
def entryAt (v : List Byte) (o : Nat) : Nat × Nat × Nat × Nat :=
  (fieldAt v o 2, fieldAt v (o + 2) 1, fieldAt v (o + 3) 1, fieldAt v (o + 4) 4)

theorem calType_lt (k : Nat × Nat) : calType k < 2 ^ 8 := by
  rw [calType]; split <;> decide

theorem entryAt_calEntryBytes {e : (Nat × Nat) × Nat} (pre r : List Byte) (hkey : e.1.1 < 2 ^ 16 ∧ e.1.2 < 2 ^ 8)
    (hval : e.2 < 2 ^ 32) : entryAt (pre ++ (calEntryBytes e ++ r)) pre.length = calEntryOf e := by
  have hfield (a n : Nat) (h : a + n ≤ 8) := fieldAt_leBytes pre r
    (packNat [(e.1.1, 16), (e.1.2, 8), (calType e.1, 8), (e.2, 32)]) h
  have h0 := hfield 0 2 (by omega)
  rw [Nat.add_zero] at h0
  rw [entryAt, calEntryBytes, h0, hfield 2 1 (by omega), hfield 3 1 (by omega), hfield 4 4 (by omega), calEntryOf]
  simp only [Nat.reduceMul, Nat.mul_zero, bitsOf_packNat_cons, bitsOf_packNat_zero, Nat.reduceLeDiff, Nat.reduceSub,
    Nat.mod_eq_of_lt hkey.1, Nat.mod_eq_of_lt hkey.2, Nat.mod_eq_of_lt (calType_lt e.1), Nat.mod_eq_of_lt hval]

/-- Entries one after another are read back in order. -/
theorem map_entryAt {es : List ((Nat × Nat) × Nat)} (pre : List Byte)
    (hfit : ∀ e ∈ es, (e.1.1 < 2 ^ 16 ∧ e.1.2 < 2 ^ 8) ∧ e.2 < 2 ^ 32) :
    (List.range es.length).map (fun k => entryAt (pre ++ es.flatMap calEntryBytes) (pre.length + 8 * k)) = es.map calEntryOf := by
  induction es generalizing pre with
  | nil => rfl
  | cons e es ih =>
    obtain ⟨he, hes⟩ := List.forall_mem_cons.mp hfit
    have hlen : (pre ++ calEntryBytes e).length = pre.length + 8 := by rw [List.length_append, calEntryBytes, length_leBytes]
    have hrest := ih (pre ++ calEntryBytes e) hes
    rw [List.length_cons, List.range_succ_eq_map, List.map_cons, List.map_cons, List.map_map, List.flatMap_cons, Nat.mul_zero,
      Nat.add_zero, entryAt_calEntryBytes pre _ he.1 he.2, ← hrest, hlen, List.append_assoc]
    refine congrArg (calEntryOf e :: ·) (List.map_congr_left fun k _ => ?_)
    rw [Function.comp_apply, Nat.mul_succ, Nat.add_comm (8 * k), Nat.add_assoc]

/-! ### A sound image (R367) -/

/-- The image that gives the objects of the set the values of `es`. -/
def calImageOf (ts : Word) (es : List ((Nat × Nat) × Nat)) : List Byte :=
  calHead ++ wordBytes ts ++ es.flatMap calEntryBytes

theorem length_calHead : calHead.length = 24 := by
  rw [calHead, List.length_append, length_leBytes, Vector.length_toList]

theorem length_calPrefix (ts : Word) : (calHead ++ wordBytes ts).length = 32 := by
  rw [List.length_append, length_calHead, wordBytes, length_leBytes]

section
variable {ts : Word} {es : List ((Nat × Nat) × Nat)} (hkeys : es.map Prod.fst = calKeys) (hvals : ∀ e ∈ es, e.2 < 2 ^ 32)
include hkeys

theorem length_of_keys : es.length = 199 := by
  rw [← List.length_map (f := Prod.fst), hkeys, length_calKeys]

theorem length_calImageOf : (calImageOf ts es).length = 1624 := by
  have hbytes : (es.flatMap calEntryBytes).length = 8 * es.length := by
    have heach : ∀ e ∈ es, (calEntryBytes e).length = 8 := fun e _ => length_leBytes 8 _
    rw [List.length_flatMap, List.map_congr_left heach, List.map_const', List.sum_replicate_nat, Nat.mul_comm]
  rw [calImageOf, List.length_append, length_calPrefix, hbytes, length_of_keys hkeys]

include hvals

theorem map_calEntry : (List.range 199).map (calEntry (calImageOf ts es)) = es.map calEntryOf := by
  have hfit : ∀ e ∈ es, (e.1.1 < 2 ^ 16 ∧ e.1.2 < 2 ^ 8) ∧ e.2 < 2 ^ 32 := fun e he =>
    ⟨calKeys_fit e.1 (hkeys ▸ List.mem_map_of_mem he), hvals e he⟩
  rw [← map_entryAt (calHead ++ wordBytes ts) hfit, length_of_keys hkeys, length_calPrefix]
  rfl

/-- A fact about the entries of the image is one about the entries that it is made of. -/
theorem calEntry_of_mem_range {P : Nat × Nat × Nat × Nat → Prop} (h : ∀ e ∈ es, P (calEntryOf e)) :
    ∀ k ∈ List.range 199, P (calEntry (calImageOf ts es) k) := fun k hk => by
  have hmem : calEntry (calImageOf ts es) k ∈ es.map calEntryOf :=
    map_calEntry hkeys hvals ▸ List.mem_map_of_mem hk
  obtain ⟨e, he, heq⟩ := List.mem_map.mp hmem
  exact heq ▸ h e he

theorem calMatches_calImageOf : calMatches (calImageOf ts es) = true := by
  have hhead : (calImageOf ts es).take 24 = calHead := by
    rw [calImageOf, List.append_assoc]
    exact List.take_left' length_calHead
  have hnames : (List.range 199).map (fun k => ((calEntry (calImageOf ts es) k).1, (calEntry (calImageOf ts es) k).2.1)) =
      calKeys := by
    calc _ = ((List.range 199).map (calEntry (calImageOf ts es))).map fun x => (x.1, x.2.1) := by rw [List.map_map]; rfl
      _ = (es.map calEntryOf).map fun x => (x.1, x.2.1) := by rw [map_calEntry hkeys hvals]
      _ = es.map Prod.fst := by rw [List.map_map]; rfl
      _ = calKeys := hkeys
  have htypes : ∀ k ∈ List.range 199, (calEntry (calImageOf ts es) k).2.2.1 =
      if (calEntry (calImageOf ts es) k).1 = 0x7C30 then 8 else 6 :=
    calEntry_of_mem_range (P := fun x => x.2.2.1 = if x.1 = 0x7C30 then 8 else 6) hkeys hvals fun e _ => rfl
  simp only [calMatches, hhead, hnames, beq_self_eq_true, Bool.true_and, List.all_eq_true, beq_iff_eq]
  exact htypes

theorem calOutside_calImageOf (hrange : ∀ e ∈ es, ((objFind 1 e.1.1 e.1.2).any fun r => outOfRange r e.2) = false) :
    calOutside (calImageOf ts es) = false := by
  refine List.any_eq_false.mpr fun k hk => ?_
  have hentry := calEntry_of_mem_range (ts := ts)
    (P := fun x => ((objFind 1 x.1 x.2.1).any fun r => outOfRange r x.2.2.2) = false) hkeys hvals hrange k hk
  cases hfind : objFind 1 (calEntry (calImageOf ts es) k).1 (calEntry (calImageOf ts es) k).2.1 with
  | none => exact Bool.false_ne_true
  | some r =>
    rw [hfind] at hentry
    exact hentry ▸ Bool.false_ne_true

/-- R367: a sound image under an arm is taken as a whole. -/
theorem Fyster.wrCalImage_calImageOf {f : Fyster} {session : Nat}
    (hrange : ∀ e ∈ es, ((objFind 1 e.1.1 e.1.2).any fun r => outOfRange r e.2) = false) (hcode : f.calCode session = 0) :
    f.wrCalImage session (calImageOf ts es) = ((f.wrAll es).calChanged session, 0) := by
  have hwrites : (List.range 199).foldl (fun (f : Fyster) k => f.wr (calEntry (calImageOf ts es) k).1
      (calEntry (calImageOf ts es) k).2.1 (calEntry (calImageOf ts es) k).2.2.2) f = f.wrAll es := by
    calc _ = ((List.range 199).map (calEntry (calImageOf ts es))).foldl (fun (f : Fyster) x => f.wr x.1 x.2.1 x.2.2.2) f := by
            rw [List.foldl_map]
      _ = f.wrAll es := by rw [map_calEntry hkeys hvals, List.foldl_map]; rfl
  simp only [Fyster.wrCalImage, length_calImageOf hkeys, calOutside_calImageOf hkeys hvals hrange,
    calMatches_calImageOf hkeys hvals, hcode, hwrites]
  rfl

end

/-! ### The change of the set (R365) -/

theorem Fyster.calChanged_frame (f : Fyster) (session : Nat) :
    { f.calChanged session with part := f.part, calNor := f.calNor, sessions := f.sessions } = f := rfl

theorem Fyster.rd_calChanged_other (f : Fyster) (session : Nat) {i k : Nat} (h : objKey 0x7C00 3 < objKey i k) :
    (f.calChanged session).rd i k = f.rd i k := by
  have h1 : objKey i k ≠ objKey 0x7C00 1 := fun heq => by rw [heq] at h; exact absurd h (by decide)
  exact (Part.rd_bump_other _ _ (Nat.ne_of_gt h)).trans (Part.rd_wr_other _ _ h1)

theorem Fyster.rd_calChanged_count (f : Fyster) (session : Nat) :
    (f.calChanged session).rd 0x7C00 3 = raised 0x7C00 3 (f.rd 0x7C00 3) 1 := by
  have hold : (f.part.wr 0x7C00 1 1).rd 0x7C00 3 = f.part.rd 0x7C00 3 := Part.rd_wr_other _ _ (by decide)
  exact (Part.rd_wr_self _ _ _ _).trans (congrArg (raised 0x7C00 3 · 1) hold)

/-- R366: an image of another length is refused, whatever else is wrong. -/
theorem Fyster.wrCalImage_length {f : Fyster} {session : Nat} {v : List Byte} (hlen : v.length ≠ 1624) :
    f.wrCalImage session v = (f, 0x24) := by
  have hlowest : lowestAbort [(true, 0x24), (false, 0x25), (f.calCode session != 0, f.calCode session), (false, 0x51)] = 0x24 := by
    rw [Fyster.calCode]
    cases f.calNor.busy.isSome <;> cases f.calArmed session <;> rfl
  simp only [Fyster.wrCalImage, bne_iff_ne.mpr hlen, beq_false_of_ne hlen, Bool.false_and, hlowest]

/-! ### A write of CAL_IMAGE as the dictionary takes it -/

/-- The object CAL_IMAGE. -/
theorem objFind_calImage : objFind 1 0x7C00 5 = some ⟨1, 0x7c00, 1, 0x05, 0x05, 12, 1, 2, 0, none, false⟩ := by decide

theorem writeCode_calImage {v : List Byte} : writeCode 1 2 0x7C00 5 v = if 1624 < v.length then 0x24 else 0 := by
  have hlimit : domLimit 0x7C00 5 = 1624 := by decide
  simp only [writeCode, objFind_calImage, ObjRow.code', hlimit]
  by_cases h : 1624 < v.length
  · rw [if_pos h]
    simp only [decide_eq_true h]
    rfl
  · rw [if_neg h]
    simp only [decide_eq_false h]
    rfl

theorem Fyster.wrObj_calImage_accepted {f g : Fyster} {tus : Tab Tu} {session : Nat} {v : List Byte} {why : Option RelayFor}
    (hlen : v.length ≤ 1624) (hwr : f.wrCalImage session v = (g, 0)) : f.wrObj tus session 2 0x7C00 5 v why = (g, 0) := by
  have hcode : writeCode 1 2 0x7C00 5 v = 0 := writeCode_calImage.trans (if_neg (Nat.not_lt.mpr hlen))
  have hobj : f.wrObj5 session 0x7C00 5 v (leNat v) = (g, 0) := hwr
  have hpersist : g.persistIf 0x7C00 5 = g := if_neg (by decide)
  have h2 : ¬(0x7C00 < 0x2000) := by decide
  simp only [Fyster.wrObj, hcode, hobj, Nat.reduceLT, if_false, if_true, hpersist]

/-- R347: a value of another length is answered TYPE_LENGTH. -/
theorem Fyster.wrObj_calImage_length {f : Fyster} {tus : Tab Tu} {session : Nat} {v : List Byte} {why : Option RelayFor}
    (hlen : v.length ≠ 1624) : f.wrObj tus session 2 0x7C00 5 v why = (f, 0x24) := by
  by_cases hlong : 1624 < v.length
  · simp only [Fyster.wrObj, writeCode_calImage.trans (if_pos hlong)]
  · have hcode : writeCode 1 2 0x7C00 5 v = 0 := writeCode_calImage.trans (if_neg hlong)
    have hwr : f.wrCalImage session v = (f, 0x24) := Fyster.wrCalImage_length hlen
    have hobj : f.wrObj5 session 0x7C00 5 v (leNat v) = (f, 0x24) := hwr
    simp only [Fyster.wrObj, hcode, hobj, Nat.reduceLT, if_false]
    rfl

end Sys2Proof.Machine

namespace Sys2Proof

open Machine

/-- Settles O42: the entries of the image are read back as they were made, so all are written and read their values; a value
of another length is refused with the lowest code that can apply. -/
theorem calibrationImage : Obligations.CalibrationImage := by
  unfold Obligations.CalibrationImage
  refine ⟨?sound, ?length⟩
  case sound =>
    intro s dt n lvl ts vals v hlvl hcode hreset hlen hvals hrange hv
    have hkeys : (calKeys.zip vals).map Prod.fst = calKeys :=
      List.map_fst_zip (Nat.le_of_eq (length_calKeys.trans hlen.symm))
    have hsmall : ∀ e ∈ calKeys.zip vals, e.2 < 2 ^ 32 := fun e he => hvals e.2 (List.of_mem_zip he).2
    have himage : v = calImageOf ts (calKeys.zip vals) := hv
    let f : Fyster := s.fy.tick dt
    let g : Fyster := (f.wrAll (calKeys.zip vals)).calChanged n.toNat
    have hwr : f.wrObj s.tus n.toNat 2 0x7C00 5 v none = (g, 0) := by
      rw [himage]
      exact Fyster.wrObj_calImage_accepted (Nat.le_of_eq (length_calImageOf hkeys))
        (Fyster.wrCalImage_calImageOf hkeys hsmall hrange hcode)
    have hframe : { f.wrAll (calKeys.zip vals) with part := f.part } = f := f.wrAll_frame _
    have hafter : g.resetAfter = none := (congrArg Fyster.resetAfter hframe).trans hreset
    refine ⟨_, congrArg Host.Outcome.next (hlvl ▸ State.writeFy_accepted hwr rfl hafter), ?_⟩
    rw [State.afterWrite_fy]
    refine ⟨fun e he => ?_, ?_, rfl, rfl, (congrArg Fyster.links hframe :), (congrArg Fyster.objNor hframe :)⟩
    · have hmem : e.1 ∈ calKeys := (List.of_mem_zip he).1
      have hnodup : ((calKeys.zip vals).map fun e => keyOf e.1).Nodup := by
        have hmap : (calKeys.zip vals).map (fun e => keyOf e.1) = calKeys.map keyOf := by
          conv => rhs; rw [← hkeys, List.map_map]
          rfl
        exact hmap ▸ calKeys_nodup
      exact (Fyster.rd_calChanged_other _ _ (calKeys_above e.1 hmem)).trans (Fyster.rd_wrAll f hnodup he)
    · have hcount : (f.wrAll (calKeys.zip vals)).rd 0x7C00 3 = s.fy.rd 0x7C00 3 :=
        Fyster.rd_wrAll_other f fun e he => Nat.ne_of_lt (calKeys_above e.1 (List.of_mem_zip he).1)
      exact (Fyster.rd_calChanged_count _ _).trans (congrArg (raised 0x7C00 3 · 1) hcount)
  case length =>
    intro s dt n lvl v hlen hlvl
    refine ⟨_, congrArg Host.Outcome.next ?_, rfl⟩
    rw [hlvl]
    exact State.writeFy_refused (Fyster.wrObj_calImage_length hlen) (by decide)

end Sys2Proof
end

section
/-! SUPPORT. Fleet time (R30 to R58): what a servo operation leaves unchanged, the exchange on the tray link, PTP messages, step
authorisation and the events of passing time. -/

namespace Sys2Proof.Machine

/-! ### Objects that reporting leaves alone -/

theorem tfind_filter_hidden {α : Type} (t : Tab α) {k : Nat} (K : List Nat) (h : K.contains k = false) :
    tfind (t.filter fun e => !K.contains e.1) k = tfind t k := by
  induction t with
  | nil => rfl
  | cons e r ih =>
    obtain ⟨a, b⟩ := e
    by_cases ha : a = k
    · subst ha
      rw [List.filter_cons, if_pos (by simp only [h, Bool.not_false])]
      simp only [tfind, if_true]
    · rw [List.filter_cons]
      split
      · simp only [tfind, if_neg ha, ih]
      · simp only [tfind, if_neg ha, ih]

/-- An object that the form `Tu.bareBut` keeps. -/
theorem Tu.rd_of_bareBut {t u : Tu} {ks : List Nat} {i j : Nat} (h : t.bareBut ks = u.bareBut ks)
    (hkey : (tuReportKeys ++ ks).contains (objKey i j) = false) : t.rd i j = u.rd i j := by
  have hobj : (t.bareBut ks).part.obj = (u.bareBut ks).part.obj := congrArg (·.part.obj) h
  have hfind : tfind t.part.obj (objKey i j) = tfind u.part.obj (objKey i j) := by
    rw [← tfind_filter_hidden t.part.obj _ hkey, ← tfind_filter_hidden u.part.obj _ hkey]
    exact congrArg (tfind · (objKey i j)) hobj
  simp only [Tu.rd, Part.rd, hfind]

/-- An object that the form `Fyster.bareBut` keeps. -/
theorem Fyster.rd_of_bareBut {f g : Fyster} {ks : List Nat} {i j : Nat} (h : f.bareBut ks = g.bareBut ks)
    (hkey : (fyReportKeys ++ ks).contains (objKey i j) = false) : f.rd i j = g.rd i j := by
  have hobj : (f.bareBut ks).part.obj = (g.bareBut ks).part.obj := congrArg (·.part.obj) h
  have hfind : tfind f.part.obj (objKey i j) = tfind g.part.obj (objKey i j) := by
    rw [← tfind_filter_hidden f.part.obj _ hkey, ← tfind_filter_hidden g.part.obj _ hkey]
    exact congrArg (tfind · (objKey i j)) hobj
  simp only [Fyster.rd, Part.rd, hfind]

/-! ### Recovery procedures touch themselves and what reporting touches (R399) -/

/-- A TU without its recovery procedures and what reporting touches. -/
def Tu.bareRecov (t : Tu) : Tu := ({ t with part := { t.part with recov := [] } } : Tu).bare

/-- Fyster without its recovery procedures and what reporting touches. -/
def Fyster.bareRecov (f : Fyster) : Fyster := ({ f with part := { f.part with recov := [] } } : Fyster).bare

theorem Tu.bareRecov_of_bare {t u : Tu} (h : t.bare = u.bare) : t.bareRecov = u.bareRecov :=
  congrArg (fun b : Tu => { b with part := { b.part with recov := [] } }) h

theorem Fyster.bareRecov_of_bare {f g : Fyster} (h : f.bare = g.bare) : f.bareRecov = g.bareRecov :=
  congrArg (fun b : Fyster => { b with part := { b.part with recov := [] } }) h

theorem Tu.bareRecov_recovCount (t : Tu) (row : Nat) : (t.recovCount row).bareRecov = t.bareRecov := by
  simp only [Tu.recovCount]
  exact (Tu.bareRecov_of_bare (Tu.bare_log _ _)).trans rfl

theorem Fyster.bareRecov_recovCount (f : Fyster) (row : Nat) : (f.recovCount row).bareRecov = f.bareRecov := by
  simp only [Fyster.recovCount]
  exact (Fyster.bareRecov_of_bare (Fyster.bare_log _ _)).trans rfl

theorem Tu.bareRecov_recovStart (t : Tu) (row : Nat) : (t.recovStart row).bareRecov = t.bareRecov :=
  List.foldlRecOn (motive := fun u : Tu => u.bareRecov = t.bareRecov) _ _ (t.bareRecov_recovCount row)
    fun u hu row _ => (u.bareRecov_recovCount row).trans hu

theorem Fyster.bareRecov_recovStart (f : Fyster) (row : Nat) : (f.recovStart row).bareRecov = f.bareRecov :=
  List.foldlRecOn (motive := fun g : Fyster => g.bareRecov = f.bareRecov) _ _ (f.bareRecov_recovCount row)
    fun g hg row _ => (g.bareRecov_recovCount row).trans hg

theorem Tu.bareRecov_recovDone (t : Tu) (row : Nat) : (t.recovDone row).bareRecov = t.bareRecov := by
  simp only [Tu.recovDone]
  split <;> rfl

theorem Fyster.bareRecov_recovDone (f : Fyster) (row : Nat) : (f.recovDone row).bareRecov = f.bareRecov := by
  simp only [Fyster.recovDone]
  split <;> rfl

/-! ### The servo of a TU (R41 to R49) -/

/-- A TU with its time unit replaced. -/
def Tu.setTime (t : Tu) (tm : TimeUnit) : Tu := { t with part := { t.part with time := tm } }

/-- A servo operation without an event sets the time unit alone. -/
theorem Tu.servo_of_quiet (t : Tu) {o : ServoOut} (hrecs : o.recs = []) (hlimit : o.limit = none) :
    t.servo o = t.setTime o.tm := by
  simp only [Tu.servo, hrecs, hlimit]
  rfl

/-- R49, R90: besides the time unit, a servo operation touches what reporting touches and the STEP marks of sample sets. -/
theorem Tu.bare_servo (t : Tu) (o : ServoOut) :
    ({ t.servo o with sets := [] } : Tu).bare = ({ t.setTime o.tm with sets := [] } : Tu).bare := by
  have hstep (u : Tu) (b : Nat) : ({ u.stepped b with sets := [] } : Tu).bare = ({ u with sets := [] } : Tu).bare := rfl
  have hrec (u : Tu) (r : Nat × Int) : (u.timeRec r.1 (offsetPs r.2) 0xFF false false).bare = u.bare := Tu.bare_timeRec ..
  have hfold (u : Tu) : ({ o.recs.foldl (fun u r => u.timeRec r.1 (offsetPs r.2) 0xFF false false) u with sets := [] } : Tu).bare =
      ({ u with sets := [] } : Tu).bare :=
    congrArg (fun b : Tu => { b with sets := [] }) (Tu.bare_foldl (ks := []) _ hrec o.recs u)
  have hlog (u : Tu) (e : Event) : ({ u.log e with sets := [] } : Tu).bare = ({ u with sets := [] } : Tu).bare :=
    congrArg (fun b : Tu => { b with sets := [] }) (Tu.bare_log (ks := []) u e)
  have hite (c : Bool) (b : Nat) : ({ (if c then (t.setTime o.tm).stepped b else t.setTime o.tm) with sets := [] } : Tu).bare =
      ({ t.setTime o.tm with sets := [] } : Tu).bare := by
    cases c
    · rfl
    · exact hstep _ _
  simp only [Tu.servo]
  split
  · exact (hlog _ _).trans ((hfold _).trans (hite _ _))
  · exact (hfold _).trans (hite _ _)

/-- R44: a change of master where no step is pending is taken without an event. -/
theorem TimeUnit.newMaster_of_ne {t : TimeUnit} (gm : Word) (h : t.servo ≠ .stepPending) :
    t.newMaster gm = { tm := { t with gm := gm }, recs := [], limit := none } := by
  simp only [TimeUnit.newMaster, if_neg h]
  split
  next heq => rw [← heq]; rfl
  next => rfl

/-! ### The exchange on the tray link (R37, R38) -/

theorem Tu.treqSend_of_idle {t : Tu} (p : Port) (hup : t.link.st = .up) (hidle : t.treq = none) :
    t.treqSend p = { t with
      treqSeq := (t.treqSeq + 1) % 65536, treq := some ((t.treqSeq + 1) % 65536, t.part.time.now),
      out := .tos (.tuEnd p) (mkTos 1 (leBytes 2 ((t.treqSeq + 1) % 65536) ++ leBytes 2 0)) :: t.out } := by
  simp only [Tu.treqSend, if_pos hup, hidle, Option.isSome_none, Bool.false_eq_true, if_false]
  rfl

/-- R38: an exchange is missing, and fewer than 8 in a row are. -/
theorem Tu.missed_of_lt {t : Tu} (p : Port) (h : t.bad < 7) : t.missed p = { t with treq := none, bad := t.bad + 1 } :=
  if_neg (by simp only; omega)

/-- R47: a LOCKED unit that loses its offsets is in HOLDOVER, and says so. -/
theorem TimeUnit.holdover_of_locked {t : TimeUnit} (freq : BitVec 32) (h : t.servo = .locked) :
    (t.holdover freq).recs = [(2, t.offset2)] ∧ (t.holdover freq).tm.servo = .holdover := by
  simp only [TimeUnit.holdover, h, and_self]

/-- R38, R47: a LOCKED TU goes into HOLDOVER with its delay history emptied. -/
theorem Tu.holdover_of_locked {t : Tu} (p : Port) (h : t.part.time.servo = .locked) :
    (t.holdover p).part.time.servo = .holdover ∧ (t.holdover p).mpds = [] ∧ (t.holdover p).treq = t.treq := by
  have hlocked := TimeUnit.holdover_of_locked (t := (t.free p).1.part.time) (clampFreq (t.free p).2) h
  have hheld : t.holdover p = ({ (t.free p).1 with mpds := [] } : Tu).servo
      ((t.free p).1.part.time.holdover (clampFreq (t.free p).2)) := by
    simp only [Tu.holdover, hlocked.1, List.isEmpty_cons, Bool.false_eq_true, if_false]
  have hbare := Tu.bare_servo ({ (t.free p).1 with mpds := [] } : Tu) ((t.free p).1.part.time.holdover (clampFreq (t.free p).2))
  rw [← hheld] at hbare
  exact ⟨(congrArg (·.part.time.servo) hbare :).trans hlocked.2, (congrArg Tu.mpds hbare :), (congrArg Tu.treq hbare :)⟩

theorem Tu.missed_of_locked {t : Tu} (p : Port) (h : 7 ≤ t.bad) (hlocked : t.part.time.servo = .locked) :
    (t.missed p).part.time.servo = .holdover ∧ (t.missed p).mpds = [] ∧ (t.missed p).treq = none := by
  have hmissed : t.missed p = ({ t with treq := none, bad := t.bad + 1 } : Tu).holdover p :=
    if_pos (Nat.succ_le_succ h)
  rw [hmissed]
  exact Tu.holdover_of_locked p hlocked

theorem Tu.trspTimeout_of_late {t : Tu} {seq t₁ : Nat} (p : Port) (htreq : t.treq = some (seq, t₁))
    (hlate : t₁ + 20000 * 65536 ≤ t.part.time.now) : t.trspTimeout p = t.missed p := by
  simp only [Tu.trspTimeout, htreq, if_pos hlate]

/-- Receive minus send on the way to the TU, in 2^-16 ns. -/
def wayDown (t₄ t₃ : Nat) : Int := toInt 80 (ofInt 80 ((t₄ : Int) - t₃))

/-- Receive minus send on the way to Fyster, in 2^-16 ns. -/
def wayUp (t₂ t₁ : Nat) : Int := toInt 80 (ofInt 80 ((t₂ : Int) - t₁))

/-- Twice the offset of an exchange in 2^-16 ps (R37, R39, log 17). -/
def Tu.offset2 (t : Tu) (t₁ t₂ t₃ : Nat) : Int :=
  (wayDown t.part.time.now t₃ - wayUp t₂ t₁) * 1000 - t.asym * 65536

/-- R43, R46: the first usable offset steps the time unit. -/
theorem Tu.exchange_of_freeRun {t : Tu} (p : Port) (t₁ t₂ t₃ epoch : Nat) (hservo : t.part.time.servo = .freeRun)
    (hmpds : t.mpds = []) :
    let u := t.exchange p t₁ t₂ t₃ epoch
    u.part.time = (t.part.time.stepBy (t.offset2 t₁ t₂ t₃) epoch).tm ∧ u.treq = none ∧ u.bad = 0 ∧
      u.mpds = [wayUp t₂ t₁ + wayDown t.part.time.now t₃] := by
  intro u
  let v : Tu := ({ t with treq := none, bad := 0, mpds := [wayUp t₂ t₁ + wayDown t.part.time.now t₃], restartSeen := false } : Tu).wr
    0x2200 6 (ofInt 32 (offsetPs ((wayUp t₂ t₁ + wayDown t.part.time.now t₃) * 1000)))
  have hstep : u = v.servo (t.part.time.stepBy (t.offset2 t₁ t₂ t₃) epoch) := by
    simp only [u, Tu.exchange, hmpds, lowerMedian, sortBy, List.getElem?_nil, Bool.false_eq_true, if_false, Tu.wr_part_time, hservo, true_or, if_true]
    rfl
  have hbare := Tu.bare_servo v (t.part.time.stepBy (t.offset2 t₁ t₂ t₃) epoch)
  rw [← hstep] at hbare
  exact ⟨(congrArg (·.part.time) hbare :), (congrArg Tu.treq hbare :), (congrArg Tu.bad hbare :), (congrArg Tu.mpds hbare :)⟩

/-- What a TRSP tells a TU of Fyster: servo state and profile, holdover, grandmaster (R37, R44). -/
def Tu.hear (t : Tu) (x : Tos) : Tu :=
  { t with
    fyServo := fieldAt x.payload 2 1 % 16, fyProfile := fieldAt x.payload 2 1 / 16, fyHold := fieldAt x.payload 28 4,
    part := { t.part with time := { t.part.time with gm := BitVec.ofNat 64 (fieldAt x.payload 32 8) } } }

/-- R37: a sound TRSP that matches in time is an exchange. -/
theorem Tu.trspRx_of_match {t : Tu} {x : Tos} {seq t₁ : Nat} (p : Port) (hgood : x.good 2 = true)
    (hservo : t.part.time.servo ≠ .stepPending) (htreq : t.treq = some (seq, t₁)) (hseq : fieldAt x.payload 0 2 = seq)
    (hintime : t.part.time.now ≤ t₁ + 20000 * 65536) (hstate : fieldAt x.payload 2 1 % 16 ≠ 0) (hasym : t.asymNew = none) :
    t.trspRx p x = (t.hear x).exchange p t₁ (fieldAt x.payload 8 8 * 65536 + fieldAt x.payload 6 2)
      (fieldAt x.payload 16 8 * 65536 + fieldAt x.payload 24 2) (fieldAt x.payload 4 2) := by
  have hnot : ¬(fieldAt x.payload 0 2 ≠ seq ∨ t₁ + 20000 * 65536 < t.part.time.now) := by
    rw [not_or, Classical.not_not]
    exact ⟨hseq, Nat.not_lt.mpr hintime⟩
  have hheard : ({ t with
      fyServo := fieldAt x.payload 2 1 % 16, fyProfile := fieldAt x.payload 2 1 / 16,
      fyHold := fieldAt x.payload 28 4 } : Tu).servo (t.part.time.newMaster (BitVec.ofNat 64 (fieldAt x.payload 32 8))) = t.hear x := by
    rw [TimeUnit.newMaster_of_ne _ hservo]
    exact Tu.servo_of_quiet _ rfl rfl
  have htake : (t.hear x).takeAsym = t.hear x := by
    have hnone : (t.hear x).asymNew = none := hasym
    simp only [Tu.takeAsym, hnone]
  have htreq' : (t.hear x).treq = some (seq, t₁) := htreq
  have hnow : (t.hear x).part.time.now = t.part.time.now := rfl
  simp only [Tu.trspRx, hgood, Bool.not_true, Bool.false_eq_true, if_false, hheard, htreq', hnow, if_neg hnot, if_neg hstate, htake]

/-! ### The servo of Fyster (R41 to R49) -/

/-- Fyster with its time unit replaced. -/
def Fyster.setTime (f : Fyster) (tm : TimeUnit) : Fyster := { f with part := { f.part with time := tm } }

/-- R332: besides the time unit, a servo operation touches recovery, what reporting touches and the decision unit's tray window. -/
theorem Fyster.bareRecov_servo (f : Fyster) (o : ServoOut) (d : Dec) :
    ({ f.servo o with dec := d } : Fyster).bareRecov = ({ f.setTime o.tm with dec := d } : Fyster).bareRecov := by
  have hide {g h : Fyster} (heq : g.bareRecov = h.bareRecov) :
      ({ g with dec := d } : Fyster).bareRecov = ({ h with dec := d } : Fyster).bareRecov :=
    congrArg (fun b : Fyster => { b with dec := d }) heq
  have hdone : ({ (if f.part.time.servo = .holdover ∧ o.tm.servo ≠ .holdover then f.recovDone 5 else f).setTime o.tm with
      dec := d } : Fyster).bareRecov = ({ f.setTime o.tm with dec := d } : Fyster).bareRecov := by
    split
    · exact congrArg (fun b : Fyster => { b.setTime o.tm with dec := d }) (f.bareRecov_recovDone 5)
    · rfl
  have hfill (g : Fyster) (c : Bool) (l : List Nat) :
      ({ (if c then { g with dec := { g.dec with tray := l } } else g) with dec := d } : Fyster).bareRecov =
        ({ g with dec := d } : Fyster).bareRecov := by
    cases c <;> rfl
  have hrecs (g : Fyster) (port : Nat) :
      (o.recs.foldl (fun g r => g.timeRec r.1 port (offsetPs r.2) 0xFF false false) g).bareRecov = g.bareRecov :=
    Fyster.bareRecov_of_bare (Fyster.bare_foldl _ (fun g r => Fyster.bare_timeRec g _ _ _ _ _ _) o.recs g)
  have hlog (g : Fyster) (e : Event) : (g.log e).bareRecov = g.bareRecov := Fyster.bareRecov_of_bare (Fyster.bare_log g e)
  have hcheck (g : Fyster) : g.startCheck.bareRecov = g.bareRecov := Fyster.bareRecov_of_bare (Fyster.bare_startCheck g)
  simp only [Fyster.servo]
  refine (hide (hcheck _)).trans ?_
  split
  · exact (hide (hlog _ _)).trans ((hide (hrecs _ _)).trans ((hfill _ _ _).trans hdone))
  · exact (hide (hrecs _ _)).trans ((hfill _ _ _).trans hdone)

/-! ### PTP (R32, R33) -/

theorem Fyster.ptpRx_of_good {f : Fyster} {q : Nat} {m : PtpMsg} (h : f.ptpBad m = false) : f.ptpRx q m = f.ptpTake q m := by
  simp only [Fyster.ptpRx, h, Bool.false_eq_true, if_false]

theorem Fyster.ptpTake_sync {f : Fyster} {q : Nat} {m : PtpMsg} (htype : m.mtype = 0) (htwo : m.twoStep = true)
    (hfrom : f.fromMaster q m = true) :
    f.ptpTake q m = f.setOob q { f.oob q with sync := some (m.seq.toNat, f.part.time.now, m.correction) } := by
  simp only [Fyster.ptpTake, htype, hfrom, htwo, if_true]
  rfl

/-- What a holdover of Fyster leaves of its ports. -/
theorem Fyster.holdover_ptp (f : Fyster) : f.holdover.ptp = f.ptp := by
  simp only [Fyster.holdover]
  split
  · rfl
  · exact (congrArg Fyster.ptp (Fyster.bareRecov_recovStart _ 5) :).trans (congrArg Fyster.ptp (Fyster.bareRecov_servo _ _ f.dec) :)

theorem Fyster.servo_ptp (f : Fyster) (o : ServoOut) : (f.servo o).ptp = f.ptp :=
  (congrArg Fyster.ptp (f.bareRecov_servo o f.dec) :)

theorem Fyster.timeRec_ptp (f : Fyster) (ev port : Nat) (offs : Int) (g : Nat) (late unc : Bool) :
    (f.timeRec ev port offs g late unc).ptp = f.ptp :=
  (congrArg Fyster.ptp (Fyster.bare_timeRec (ks := []) f ev port offs g late unc) :)

/-- The port that BMCA chooses. -/
def Fyster.chosen (f : Fyster) : Option Nat := if f.rd 0x1210 1 = 3 then none else f.bestPort

/-- R32: BMCA sets the states of the ports. -/
theorem Fyster.bmca_ptp (f : Fyster) : f.bmca.ptp = ((f.setOob 0 { f.oob 0 with st := f.portState f.chosen 0 }).setOob 1
    { f.oob 1 with st := f.portState f.chosen 1 }).ptp := by
  simp only [Fyster.bmca]
  split
  next hnone =>
    simp only [Fyster.chosen, hnone]
    split
    · exact Fyster.holdover_ptp _
    · rfl
  next q hq =>
    simp only [Fyster.chosen, hq]
    split
    · rfl
    · split
      · exact (Fyster.servo_ptp _ _).trans (Fyster.timeRec_ptp _ _ _ _ _ _ _)
      · split
        · exact Fyster.timeRec_ptp _ _ _ _ _ _ _
        · rfl

theorem oob_zero_or_one (q : Fin 2) : q = 0 ∨ q = 1 := by omega

/-- A port that hears no master is not chosen. -/
theorem Fyster.chosen_ne {f : Fyster} {q : Fin 2} (h : (f.oob q.val).foreign = none) : f.chosen ≠ some q.val := by
  have hheard : (f.oob q.val).heard = none := by
    simp only [PtpPort.heard, h, ite_self]
  simp only [Fyster.chosen, Fyster.bestPort]
  split
  · exact (Option.some_ne_none _).symm
  · rcases oob_zero_or_one q with rfl | rfl
    · have hnone : (f.oob 0).heard = none := hheard
      cases hother : (f.oob 1).heard with
      | none =>
        simp only [hnone]
        exact (Option.some_ne_none _).symm
      | some b =>
        simp only [hnone]
        exact fun heq => Nat.one_ne_zero (Option.some.inj heq)
    · have hnone : (f.oob 1).heard = none := hheard
      cases hother : (f.oob 0).heard with
      | none =>
        simp only [hnone]
        exact (Option.some_ne_none _).symm
      | some a =>
        simp only [hnone]
        exact fun heq => Nat.one_ne_zero (Option.some.inj heq).symm

theorem Fyster.portState_ne_slave {f : Fyster} {best : Option Nat} {q : Nat} (h : best ≠ some q) :
    f.portState best q ≠ .slave := by
  simp only [Fyster.portState, if_neg h]
  repeat' split
  all_goals exact PtpState.noConfusion

/-- R32: a port without a master is not SLAVE after BMCA and still has none. -/
theorem Fyster.bmca_of_unheard {f : Fyster} {q : Fin 2} (h : (f.oob q.val).foreign = none) :
    (f.bmca.oob q.val).st ≠ .slave ∧ (f.bmca.oob q.val).foreign = none := by
  have hstate : f.portState f.chosen q.val ≠ .slave := Fyster.portState_ne_slave (Fyster.chosen_ne h)
  have hoob : f.bmca.oob q.val = { f.oob q.val with st := f.portState f.chosen q.val } := by
    rw [Fyster.oob, Fyster.bmca_ptp]
    rcases oob_zero_or_one q with rfl | rfl
    · exact (tget_tset_other _ _ _ (by decide)).trans (tget_tset_self _ _ _ _)
    · exact tget_tset_self _ _ _ _
  rw [hoob]
  exact ⟨hstate, h⟩

theorem Fyster.announceLost_of_slave {f : Fyster} {q : Nat} (h : (f.oob q).st = .slave) :
    f.announceLost q = (f.setOob q { f.oob q with foreign := none, sync := none }).bmca := if_pos h

/-! ### Answers to a write (R344, R360) -/

/-- A write below its level answers LEVEL. -/
theorem Fyster.reply_below {f : Fyster} {lvl : Level} {need : Nat} {r : Fyster × Nat} (h : Level.rank lvl < need) :
    f.reply lvl need r = f.emit (.answer 5) := if_pos h

/-- A write below its level answers LEVEL. -/
theorem Tu.reply_below {t : Tu} {lvl : Level} {need : Nat} {r : Tu × Nat} (h : Level.rank lvl < need) :
    t.reply lvl need r = t.emit (.answer 5) := if_pos h

/-! ### Step authorisation (R45) -/

/-- R45: the code of a write of STEP_AUTHORISE is 0 for the pending serial in STEP_PENDING alone. -/
theorem TimeUnit.authoriseCode_eq_zero_iff (t : TimeUnit) (n : Nat) :
    t.authoriseCode n = 0 ↔ t.servo = .stepPending ∧ t.pendingSerial = n := by
  simp only [TimeUnit.authoriseCode]
  split
  next hservo => exact ⟨fun h => absurd h (by decide), fun h => absurd h.1 hservo⟩
  next hservo =>
    rw [Classical.not_not] at hservo
    split
    · exact ⟨fun h => absurd h (by decide), fun h => by omega⟩
    · split
      · exact ⟨fun h => absurd h (by decide), fun h => by omega⟩
      · exact ⟨fun _ => ⟨hservo, by omega⟩, fun _ => rfl⟩

/-- R45: the codes in order. -/
theorem TimeUnit.authoriseCode_refused {t : TimeUnit} {n : Nat} (h : t.authoriseCode n ≠ 0) :
    t.authoriseCode n = if t.servo ≠ .stepPending then 0x27 else if n < t.pendingSerial then 0x2A else 0x2D := by
  simp only [TimeUnit.authoriseCode] at h ⊢
  split
  · rfl
  · split
    · rfl
    · split
      · rfl
      · simp_all

theorem Fyster.wrStepAuthorise_of_code {f : Fyster} {n : Nat} (h : f.part.time.authoriseCode n = 0) :
    f.wrStepAuthorise n = (f.setTime { f.part.time with authorised := true }, 0) := by
  simp only [Fyster.wrStepAuthorise, h]
  rfl

theorem Fyster.wrStepAuthorise_code (f : Fyster) (n : Nat) : (f.wrStepAuthorise n).2 = f.part.time.authoriseCode n := by
  simp only [Fyster.wrStepAuthorise]
  split
  · symm; assumption
  · rfl

theorem Tu.wrStepAuthorise_of_code {t : Tu} {n : Nat} (h : t.part.time.authoriseCode n = 0) :
    t.wrStepAuthorise n = (t.setTime { t.part.time with authorised := true }, 0) := by
  simp only [Tu.wrStepAuthorise, h]
  rfl

theorem Tu.wrStepAuthorise_code (t : Tu) (n : Nat) : (t.wrStepAuthorise n).2 = t.part.time.authoriseCode n := by
  simp only [Tu.wrStepAuthorise]
  split
  · symm; assumption
  · rfl

/-- R45: what a write of STEP_AUTHORISE answers where it is refused. -/
def TimeUnit.authoriseAnswer (t : TimeUnit) (lvl : Level) (n : Nat) : Nat :=
  if Level.rank lvl < 1 then 5 else if t.servo ≠ .stepPending then 0x27 else if n < t.pendingSerial then 0x2A else 0x2D

theorem TimeUnit.authorise_refused {t : TimeUnit} {lvl : Level} {n : Nat}
    (h : Level.rank lvl < 1 ∨ t.servo ≠ .stepPending ∨ t.pendingSerial ≠ n) :
    (Level.rank lvl < 1 ∧ t.authoriseAnswer lvl n = 5) ∨
      (1 ≤ Level.rank lvl ∧ t.authoriseCode n ≠ 0 ∧ t.authoriseAnswer lvl n = t.authoriseCode n) := by
  by_cases hlvl : Level.rank lvl < 1
  · exact .inl ⟨hlvl, if_pos hlvl⟩
  · have hcode : t.authoriseCode n ≠ 0 := by
      rw [ne_eq, t.authoriseCode_eq_zero_iff]
      rintro ⟨hservo, hserial⟩
      rcases h with h | h | h
      · exact hlvl h
      · exact h hservo
      · exact h hserial
    exact .inr ⟨Nat.not_lt.mp hlvl, hcode, (if_neg hlvl).trans (TimeUnit.authoriseCode_refused hcode).symm⟩

theorem Fyster.reply_wrStepAuthorise_refused {f : Fyster} {lvl : Level} {n : Nat}
    (h : Level.rank lvl < 1 ∨ f.part.time.servo ≠ .stepPending ∨ f.part.time.pendingSerial ≠ n) :
    f.reply lvl 1 (f.wrStepAuthorise n) = f.emit (.answer (f.part.time.authoriseAnswer lvl n)) := by
  rcases TimeUnit.authorise_refused h with ⟨hlvl, hans⟩ | ⟨hlvl, hcode, hans⟩
  · rw [hans, Fyster.reply_below hlvl]
  · rw [hans, Fyster.reply_refused hlvl (by rwa [Fyster.wrStepAuthorise_code]), Fyster.wrStepAuthorise_code]

theorem Tu.reply_wrStepAuthorise_refused {t : Tu} {lvl : Level} {n : Nat}
    (h : Level.rank lvl < 1 ∨ t.part.time.servo ≠ .stepPending ∨ t.part.time.pendingSerial ≠ n) :
    t.reply lvl 1 (t.wrStepAuthorise n) = t.emit (.answer (t.part.time.authoriseAnswer lvl n)) := by
  rcases TimeUnit.authorise_refused h with ⟨hlvl, hans⟩ | ⟨hlvl, hcode, hans⟩
  · rw [hans, Tu.reply_below hlvl]
  · rw [hans, Tu.reply_refused hlvl (by rwa [Tu.wrStepAuthorise_code]), Tu.wrStepAuthorise_code]

/-! ### The passing of time (R27, R31, R52, R56) -/

theorem Tu.second_of_locked {t : Tu} (hsecond : t.part.time.atSecond = true) (hlocked : t.part.time.servo = .locked) :
    t.second = (if t.part.flag 0x2E00 5 then t.emit .pulse else t).timeRec 1 (offsetPs t.part.time.offset2) 0xFF false false := by
  simp only [Tu.second, hsecond, if_true]
  cases t.part.flag 0x2E00 5
  · exact if_pos hlocked
  · exact if_pos hlocked

theorem Fyster.second_of_locked {f : Fyster} (hsecond : f.part.time.atSecond = true) (hlocked : f.part.time.servo = .locked) :
    f.second = (if f.part.flag 0x1173 1 then f.emit .pulse else f).timeRec 1 (f.slave.getD 0)
      (offsetPs f.part.time.offset2) 0xFF false false := by
  simp only [Fyster.second, hsecond, if_true]
  cases f.part.flag 0x1173 1
  · exact if_pos hlocked
  · exact if_pos hlocked

theorem Tu.bare_pulse_if (t : Tu) (c : Bool) : (if c then t.emit .pulse else t).bare = t.bare := by
  cases c <;> rfl

theorem Fyster.bare_pulse_if (f : Fyster) (c : Bool) : (if c then f.emit .pulse else f).bare = f.bare := by
  cases c <;> rfl

/-- R52: an instant of the grid of an armed group that has not fired yet fires. -/
theorem Tu.gridInstant_of_due {t : Tu} {g : Nat} {x : TGroup} (hgroup : tfind t.groups g = some x)
    (hstate : x.state = 3 ∨ x.state = 5) (hlocked : t.part.time.everLocked = true)
    (hgrid : onGrid x.period x.phase t.ns = true) (hnew : x.fired.getD 0 < t.ns) :
    t.gridInstant g = { t with groups := tset t.groups g { x with fired := some t.ns } } := by
  have hfresh : (match x.fired with
      | some n => decide (n < t.ns)
      | none => true) = true := by
    cases hfired : x.fired with
    | none => rfl
    | some n => exact decide_eq_true (by rwa [hfired] at hnew)
  simp only [Tu.gridInstant, hgroup]
  exact if_pos ⟨hstate, hlocked, hgrid, hfresh⟩

/-- R31: under LOCAL a stable reference sets the time unit to LOCKED. -/
theorem Fyster.localStable_time {f : Fyster} (hlocal : f.rd 0x1210 1 = 3) (hservo : f.part.time.servo ≠ .locked) :
    f.localStable.part.time = { f.part.time with
      servo := .locked, everLocked := true, holdAt := none, inLock := 0, outLock := 0, lockedAt := f.part.time.now,
      gm := Config.clockIdentity, pending2 := 0, authorised := false } := by
  rw [Fyster.localStable, if_pos ⟨hlocal, hservo⟩]
  exact (congrArg (fun g : Fyster => g.part.time) (Fyster.bareRecov_servo _ _ f.dec) :)

end Sys2Proof.Machine

namespace Sys2Proof

open Machine

/-- Settles O7: each command is one case of the exchange; a step and a loss of offsets set the time unit through the servo, which
leaves the rest of the exchange alone. -/
theorem timeExchange : Obligations.TimeExchange := by
  unfold Obligations.TimeExchange
  refine ⟨?send, ?treq, ?trsp, ?missing, ?holdover⟩
  case send =>
    intro s dt p hup hidle
    exact tuNext_of_onTu rfl (Tu.treqSend_of_idle (t := (s.tu p).tick dt) p hup hidle)
  case treq =>
    intro s dt p x hgood
    exact fyNext_of_onFy rfl (if_pos hgood)
  case trsp =>
    intro s dt p x seq t₁ hgood hservo htreq hseq hintime hstate hmpds hasym
    have hne : ((s.tu p).tick dt).part.time.servo ≠ .stepPending := fun h => by cases hservo.symm.trans h
    refine tuNext_of_onTu rfl ?_
    rw [Tu.trspRx_of_match (t := (s.tu p).tick dt) p hgood hne htreq hseq hintime hstate hasym]
    obtain ⟨htime, hnone, hbad, hlist⟩ := Tu.exchange_of_freeRun (t := ((s.tu p).tick dt).hear x) p t₁
      (fieldAt x.payload 8 8 * 65536 + fieldAt x.payload 6 2) (fieldAt x.payload 16 8 * 65536 + fieldAt x.payload 24 2)
      (fieldAt x.payload 4 2) hservo hmpds
    rw [htime]
    exact ⟨rfl, rfl, rfl, hnone, hbad, hlist, rfl⟩
  case missing =>
    intro s dt p seq t₁ htreq hlate hbad
    refine tuNext_of_onTu rfl ?_
    rw [Tu.trspTimeout_of_late (t := (s.tu p).tick dt) p htreq hlate]
    exact Tu.missed_of_lt (t := (s.tu p).tick dt) p hbad
  case holdover =>
    intro s dt p seq t₁ htreq hlate hbad hlocked
    refine tuNext_of_onTu rfl ?_
    rw [Tu.trspTimeout_of_late (t := (s.tu p).tick dt) p htreq hlate]
    exact Tu.missed_of_locked (t := (s.tu p).tick dt) p hbad hlocked

/-- Settles O8: a discarded message is counted, a Sync is held, and BMCA makes no port SLAVE that hears no master. -/
theorem ptpPorts : Obligations.PtpPorts := by
  unfold Obligations.PtpPorts
  refine ⟨?discarded, ?sync, ?lost⟩
  case discarded =>
    intro s dt q m hbad
    exact fyNext_of_onFy rfl (if_pos hbad)
  case sync =>
    intro s dt q m hbad htype htwo hfrom
    exact fyNext_of_onFy rfl
      ((Fyster.ptpRx_of_good (f := s.fy.tick dt) hbad).trans (Fyster.ptpTake_sync (f := s.fy.tick dt) htype htwo hfrom))
  case lost =>
    intro s dt q hslave
    refine fyNext_of_onFy rfl ?_
    rw [Fyster.announceLost_of_slave (f := s.fy.tick dt) hslave]
    exact Fyster.bmca_of_unheard (congrArg PtpPort.foreign (Fyster.oob_setOob_self _ _ _))

/-- Settles O9: the code of a write of STEP_AUTHORISE is 0 for the pending serial alone; the events of passing time send their
records, which touch nothing else. -/
theorem stepsAndTicks : Obligations.StepsAndTicks := by
  unfold Obligations.StepsAndTicks
  refine ⟨?authorise, ?refused, ?tuAuthorise, ?tuRefused, ?tuSecond, ?second, ?tuRollover, ?rollover, ?grid, ?stable⟩
  case authorise =>
    intro s dt lvl n hlvl hservo hserial
    refine fyNext_of_onFy rfl ?_
    rw [Fyster.wrStepAuthorise_of_code (f := s.fy.tick dt) ((TimeUnit.authoriseCode_eq_zero_iff _ _).mpr ⟨hservo, hserial⟩)]
    exact Fyster.reply_accepted hlvl
  case refused =>
    intro s dt lvl n h
    exact fyNext_of_onFy rfl (Fyster.reply_wrStepAuthorise_refused (f := s.fy.tick dt) h)
  case tuAuthorise =>
    intro s dt p lvl n hlvl hservo hserial
    refine tuNext_of_onTu rfl ?_
    rw [Tu.wrStepAuthorise_of_code (t := (s.tu p).tick dt) ((TimeUnit.authoriseCode_eq_zero_iff _ _).mpr ⟨hservo, hserial⟩)]
    exact Tu.reply_accepted hlvl
  case tuRefused =>
    intro s dt p lvl n h
    exact tuNext_of_onTu rfl (Tu.reply_wrStepAuthorise_refused (t := (s.tu p).tick dt) h)
  case tuSecond =>
    intro s dt p hsecond hlocked
    refine tuNext_of_onTu rfl ?_
    rw [Tu.second_of_locked (t := (s.tu p).tick dt) hsecond hlocked]
    exact ⟨rfl, (Tu.bare_timeRec _ _ _ _ _ _).trans (Tu.bare_pulse_if _ _)⟩
  case second =>
    intro s dt hsecond hlocked
    refine fyNext_of_onFy rfl ?_
    rw [Fyster.second_of_locked (f := s.fy.tick dt) hsecond hlocked]
    exact ⟨rfl, (Fyster.bare_timeRec _ _ _ _ _ _ _).trans (Fyster.bare_pulse_if _ _)⟩
  case tuRollover =>
    intro s dt p hrollover
    refine tuNext_of_onTu rfl ?_
    rw [if_pos hrollover]
    exact ⟨rfl, Tu.bare_timeRec _ _ _ _ _ _⟩
  case rollover =>
    intro s dt hrollover
    refine fyNext_of_onFy rfl ?_
    rw [if_pos hrollover]
    exact ⟨rfl, Fyster.bare_timeRec _ _ _ _ _ _ _⟩
  case grid =>
    intro s dt p g x hgroup hstate hlocked hgrid hnew
    exact tuNext_of_onTu rfl (Tu.gridInstant_of_due (t := (s.tu p).tick dt) hgroup hstate hlocked hgrid hnew)
  case stable =>
    intro s dt hlocal hservo
    refine fyNext_of_onFy rfl ?_
    rw [Fyster.localStable_time (f := s.fy.tick dt) hlocal hservo]
    exact ⟨rfl, rfl, rfl, rfl, rfl⟩

end Sys2Proof
end

section
/-! SUPPORT. Event counters and the sampler (R90 to R113): what the TU's own reporting leaves of a tile's counters, increments of a
beat, selections, and the registers and instants of sample sets. -/

namespace Sys2Proof.Machine

/-! ### Abort codes that do not apply (R360) -/

@[simp] theorem lowestAbort_nil : lowestAbort [] = 0 := rfl

@[simp] theorem lowestAbort_cons_false (a : Nat) (l : List (Bool × Nat)) : lowestAbort ((false, a) :: l) = lowestAbort l := rfl

/-! ### The counters of a tile and the TU's own work (R89, R94, R95) -/

theorem Tu.charge_cnts (t : Tu) (a cost : Nat) (fits : Bool) : (t.charge a cost fits).1.cnts = t.cnts := by
  have hmark (u : Tu) (a : Nat) : (u.markFull a).cnts = u.cnts := by
    simp only [Tu.markFull]
    split <;> split <;> rfl
  simp only [Tu.charge]
  split
  · rfl
  · split
    · refine (hmark _ _).trans ?_
      split <;> rfl
    · split
      · exact hmark _ _
      · split
        · rfl
        · split <;> rfl

theorem Tu.admitAll_cnts (t : Tu) (rs : List Rec) : (t.admitAll rs).1.cnts = t.cnts := by
  induction rs generalizing t with
  | nil => rfl
  | cons r rest ih => exact ih _

theorem Tu.offerRaw_cnts (t : Tu) (a req cost : Nat) (rs : List Rec) : (t.offerRaw a req cost rs).1.cnts = t.cnts := by
  simp only [Tu.offerRaw]
  split
  · exact (Tu.admitAll_cnts _ _).trans (t.charge_cnts a cost _)
  · exact t.charge_cnts a cost _

theorem Tu.cnt_setCnt_self (t : Tu) (c : Nat) (x : Cnt) : (t.setCnt c x).cnt c = x := tget_tset_self _ _ _ _

theorem Tu.cnt_setCnt_other (t : Tu) {c d : Nat} (x : Cnt) (h : d ≠ c) : (t.setCnt c x).cnt d = t.cnt d :=
  tget_tset_other _ _ _ h

theorem Tu.putCnt_cnts (t : Tu) (c : Nat) (x : Cnt) : (t.putCnt c x).cnts = (t.setCnt c x).cnts := by
  simp only [Tu.putCnt]
  split
  · exact Tu.offerRaw_cnts _ _ _ _ _
  · rfl

theorem Tu.cnt_putCnt_self (t : Tu) (c : Nat) (x : Cnt) : (t.putCnt c x).cnt c = x := by
  rw [Tu.cnt, Tu.putCnt_cnts]
  exact t.cnt_setCnt_self c x

theorem Tu.cnt_putCnt_other (t : Tu) {c d : Nat} (x : Cnt) (h : d ≠ c) : (t.putCnt c x).cnt d = t.cnt d := by
  rw [Tu.cnt, Tu.putCnt_cnts]
  exact t.cnt_setCnt_other x h

/-- R94: the TU's own work counts in uncore counters alone. -/
theorem Tu.cnt_internal (t : Tu) (src n : Nat) {c : Nat} (h : c < tileCounters) : (t.internal src n).cnt c = t.cnt c := by
  simp only [Tu.internal]
  split
  · rfl
  · refine List.foldlRecOn (motive := fun u : Tu => u.cnt c = t.cnt c) _ _ rfl fun u hu e he => ?_
    have huncore : tileCounters ≤ e.1 := by
      have := (List.mem_filter.mp he).2
      simp only [Bool.and_eq_true, decide_eq_true_eq] at this
      exact this.1
    exact (u.cnt_putCnt_other _ (by omega)).trans hu

theorem Tu.cnt_offer (t : Tu) (a req cost : Nat) (rs : List Rec) {c : Nat} (h : c < tileCounters) :
    (t.offer a req cost rs).1.cnt c = t.cnt c := by
  have hraw : (t.offerRaw a req cost rs).1.cnt c = t.cnt c := by rw [Tu.cnt, Tu.offerRaw_cnts]; rfl
  simp only [Tu.offer]
  split
  · exact (Tu.cnt_internal _ _ _ h).trans hraw
  · exact (Tu.cnt_internal _ _ _ h).trans ((Tu.cnt_internal _ _ _ h).trans hraw)

theorem Tu.cnt_log (t : Tu) (e : Event) {c : Nat} (h : c < tileCounters) : (t.log e).cnt c = t.cnt c := by
  simp only [Tu.log]
  refine List.foldlRecOn (motive := fun u : Tu => u.cnt c = t.cnt c) _ _ ?_ fun u hu o _ => (Tu.cnt_offer _ _ _ _ _ h).trans hu
  split <;> rfl

theorem Tu.cnt_counted (t : Tu) (i k n : Nat) {c : Nat} (h : c < tileCounters) : (t.counted i k n).cnt c = t.cnt c :=
  Tu.cnt_log _ _ h

/-- A count that is logged touches its object and what reporting touches. -/
theorem Tu.bare_counted (t : Tu) {i k : Nat} (n : Nat) {ks : List Nat} (h : (tuReportKeys ++ ks).contains (objKey i k) = true) :
    (t.counted i k n).bareBut ks = t.bareBut ks :=
  (Tu.bare_log _ _).trans (Tu.bare_bump_hidden t i k n h)

/-! ### Increments (R90, R95) -/

theorem Cnt.add_zero {x : Cnt} (h : x.val ≤ max64) : x.add 0 = x := by
  simp only [Cnt.add]
  split
  · rfl
  · rw [if_pos (show x.val + 0 ≤ max64 from h)]
    rfl

theorem Tu.cnt_increment_other (t : Tu) {c d : Nat} (n : Nat) (tag : Bool) (h : d < tileCounters) (hne : d ≠ c) :
    (t.increment c n tag).cnt d = t.cnt d := by
  simp only [Tu.increment]
  split
  · rfl
  · split
    · split
      · exact t.cnt_setCnt_other _ hne
      · exact t.cnt_counted _ _ _ h
    · exact t.cnt_putCnt_other _ hne

/-- R90: a counter that is not per-command takes what its lane brings. -/
theorem Tu.cnt_increment_self {t : Tu} {c : Nat} (n : Nat) (tag : Bool) (hper : (t.cnt c).percmd = false)
    (hval : (t.cnt c).val ≤ max64) : (t.increment c n tag).cnt c = (t.cnt c).add n := by
  simp only [Tu.increment, hper, Bool.false_and, Bool.false_eq_true, if_false]
  split
  next hn => rw [hn, Cnt.add_zero hval]
  next => exact t.cnt_putCnt_self _ _

/-- The object that counts increments of a bank that is gone (R101). -/
def lateKey : Nat := objKey 0x2380 3

theorem Tu.bare_increment (t : Tu) (c n : Nat) (tag : Bool) : (t.increment c n tag).bareBut [lateKey] = t.bareBut [lateKey] := by
  simp only [Tu.increment]
  split
  · rfl
  · split
    · split
      · exact Tu.bare_setCnt _ _ _
      · exact Tu.bare_counted t 1 (by decide)
    · exact Tu.bare_putCnt _ _ _

/-- Increments of other counters, one after another. -/
theorem Tu.cnt_increments_other (t : Tu) (l : List (Nat × Nat)) (lane : Nat → Nat) (tag : Bool) {c : Nat} (h : c < tileCounters)
    (hl : c ∉ l.map Prod.fst) : (l.foldl (fun t cl => t.increment cl.1 (lane cl.2) tag) t).cnt c = t.cnt c :=
  List.foldlRecOn (motive := fun u : Tu => u.cnt c = t.cnt c) _ _ rfl fun u hu _ he =>
    (u.cnt_increment_other _ _ h fun heq => hl (heq ▸ List.mem_map_of_mem he)).trans hu

/-- Each counter of a beat takes its lane once. -/
theorem Tu.cnt_increments {t : Tu} {l : List (Nat × Nat)} (lane : Nat → Nat) (tag : Bool) {c i : Nat} (h : c < tileCounters)
    (hnodup : (l.map Prod.fst).Nodup) (hmem : (c, i) ∈ l) (hper : (t.cnt c).percmd = false) (hval : (t.cnt c).val ≤ max64) :
    (l.foldl (fun t cl => t.increment cl.1 (lane cl.2) tag) t).cnt c = (t.cnt c).add (lane i) := by
  obtain ⟨a, b, rfl⟩ := List.append_of_mem hmem
  rw [List.map_append, List.map_cons, List.perm_middle.nodup_iff, List.nodup_cons, List.mem_append, not_or] at hnodup
  obtain ⟨⟨ha, hb⟩, -⟩ := hnodup
  have hbefore : (a.foldl (fun t cl => t.increment cl.1 (lane cl.2) tag) t).cnt c = t.cnt c :=
    t.cnt_increments_other a lane tag h ha
  rw [List.foldl_append, List.foldl_cons, Tu.cnt_increments_other _ b lane tag h hb, Tu.cnt_increment_self _ _ (by rwa [hbefore])
    (by rwa [hbefore]), hbefore]

theorem Tu.cnt_level_other (t : Tu) {c d : Nat} (high : Bool) (h : d ≠ c) : (t.level c high).cnt d = t.cnt d :=
  t.cnt_putCnt_other _ h

/-- R434: levels of other counters, one after another. -/
theorem Tu.cnt_levels_other (t : Tu) (l : List (Nat × Nat)) (lane : Nat → Nat) {c : Nat} (hl : c ∉ l.map Prod.fst) :
    (l.foldl (fun t cl => t.level cl.1 (lane cl.2 % 2 == 1)) t).cnt c = t.cnt c :=
  List.foldlRecOn (motive := fun u : Tu => u.cnt c = t.cnt c) _ _ rfl fun u hu e he =>
    (u.cnt_level_other _ fun heq : c = e.1 => hl (heq ▸ List.mem_map_of_mem he)).trans hu

theorem Tu.lanes_tile_nodup (t : Tu) (k : Fin 72) : ((t.lanes (.tile k)).map Prod.fst).Nodup := by
  have hall : (((List.range 32).map fun c => (32 * k.val + c, c)).map Prod.fst).Nodup := by
    rw [List.map_map]
    exact List.pairwise_map.mpr (List.nodup_range.imp fun hne heq => hne (Nat.add_left_cancel heq))
  exact hall.sublist (List.filter_sublist.map _)

theorem Tu.mem_lanes_tile {t : Tu} {k : Fin 72} {i : Fin 32} (h : (t.cnt (32 * k.val + i.val)).source ≠ 0) :
    (32 * k.val + i.val, i.val) ∈ t.lanes (.tile k) :=
  List.mem_filter.mpr ⟨List.mem_map.mpr ⟨i.val, List.mem_range.mpr i.isLt, rfl⟩, bne_iff_ne.mpr h⟩

/-- A list of pairs with keys of their own holds one pair for a key. -/
theorem not_mem_filter_keys {l : List (Nat × Nat)} {p : Nat × Nat → Bool} {c : Nat} (h : ∀ i, (c, i) ∈ l → p (c, i) = false) :
    c ∉ (l.filter p).map Prod.fst := by
  intro hmem
  obtain ⟨⟨c', i⟩, hfilter, rfl⟩ := List.mem_map.mp hmem
  obtain ⟨hl, hp⟩ := List.mem_filter.mp hfilter
  exact Bool.false_ne_true ((h i hl).symm.trans hp)

/-- R90: a beat of a tile's tap without a marker. -/
theorem Tu.incBeat_tile {t : Tu} {k : Fin 72} {b : IncBeat} (hstart : b.dstart = false) (hfull : b.full = none) :
    let lane := fun i => (b.lanes.getD i 0).toNat
    let u := ((t.lanes (.tile k)).filter fun cl => (t.cnt cl.1).isNs cl.1).foldl
      (fun t cl => t.level cl.1 (lane cl.2 % 2 == 1)) t
    t.incBeat (.tile k) b =
      ((t.lanes (.tile k)).filter fun cl => !(u.cnt cl.1).isNs cl.1).foldl (fun t cl => t.increment cl.1 (lane cl.2) b.bank) u := by
  simp only [Tu.incBeat, incDropped, hfull, hstart, tapUnit, Option.isSome_some, if_true, reduceCtorEq, if_false,
    Bool.false_eq_true]

theorem Tu.cnt_incBeat_tile {t : Tu} {k : Fin 72} {i : Fin 32} {b : IncBeat} (hstart : b.dstart = false) (hfull : b.full = none)
    (hsource : (t.cnt (32 * k.val + i.val)).source ≠ 0) (hper : (t.cnt (32 * k.val + i.val)).percmd = false)
    (hns : (t.cnt (32 * k.val + i.val)).isNs (32 * k.val + i.val) = false) (hval : (t.cnt (32 * k.val + i.val)).val ≤ max64) :
    (t.incBeat (.tile k) b).cnt (32 * k.val + i.val) = (t.cnt (32 * k.val + i.val)).add (b.lanes.getD i.val 0).toNat := by
  have htile : 32 * k.val + i.val < tileCounters := by simp only [tileCounters]; omega
  have hlevels := t.cnt_levels_other ((t.lanes (.tile k)).filter fun cl => (t.cnt cl.1).isNs cl.1)
    (fun i => (b.lanes.getD i 0).toNat) (not_mem_filter_keys fun _ _ => hns)
  rw [Tu.incBeat_tile hstart hfull, Tu.cnt_increments (i := i.val) (fun i => (b.lanes.getD i 0).toNat) _ htile, hlevels]
  · exact (t.lanes_tile_nodup k).sublist (List.filter_sublist.map _)
  · refine List.mem_filter.mpr ⟨Tu.mem_lanes_tile hsource, ?_⟩
    simp only [hlevels, hns, Bool.not_false]
  · rwa [hlevels]
  · rwa [hlevels]

theorem Tu.bare_incBeat_tile {t : Tu} {k : Fin 72} {b : IncBeat} (hstart : b.dstart = false) (hfull : b.full = none) :
    (t.incBeat (.tile k) b).bareBut [lateKey] = t.bareBut [lateKey] := by
  rw [Tu.incBeat_tile hstart hfull]
  exact (Tu.bare_foldl _ (fun t cl => t.bare_increment _ _ _) _ _).trans
    (Tu.bare_foldl _ (fun t cl => Tu.bare_putCnt t _ _) _ _)

/-! ### Selections and resets (R91, R97) -/

@[simp] theorem Cnt.add_resets (x : Cnt) (n : Nat) : (x.add n).resets = x.resets := by
  simp only [Cnt.add]
  split
  · rfl
  · split <;> rfl

@[simp] theorem Cnt.add_source (x : Cnt) (n : Nat) : (x.add n).source = x.source := by
  simp only [Cnt.add]
  split
  · rfl
  · split <;> rfl

@[simp] theorem Cnt.add_percmd (x : Cnt) (n : Nat) : (x.add n).percmd = x.percmd := by
  simp only [Cnt.add]
  split
  · rfl
  · split <;> rfl

@[simp] theorem Cnt.settle_resets (x : Cnt) (ns : Nat) : (x.settle ns).resets = x.resets := by
  simp only [Cnt.settle]
  split <;> simp only [Cnt.add_resets]

@[simp] theorem Cnt.settle_source (x : Cnt) (ns : Nat) : (x.settle ns).source = x.source := by
  simp only [Cnt.settle]
  split <;> simp only [Cnt.add_source]

@[simp] theorem Cnt.settle_percmd (x : Cnt) (ns : Nat) : (x.settle ns).percmd = x.percmd := by
  simp only [Cnt.settle]
  split <;> simp only [Cnt.add_percmd]

/-- R91: a counter under a new selection word. -/
def Cnt.select (x : Cnt) (src : Nat) (per again : Bool) : Cnt :=
  let y := if src ≠ x.source ∨ per ≠ x.percmd ∨ again = true then x.reset else x
  { y with source := src, percmd := per, level := if src = x.source then y.level else false }

/-- R91: a legal selection word. -/
theorem Tu.wrCntSel_of_legal {t : Tu} {c v : Nat} (hsource : sourceOk c (bitsOf v 0 10) = true)
    (hbank : bitOf v 10 = false ∨ hasBank c = true) :
    t.wrCntSel c v = (t.setCnt c (((t.cnt c).settle t.ns).select (bitsOf v 0 10) (bitOf v 10) (bitOf v 16)), 0) := by
  have hper : (bitOf v 10 && !hasBank c) = false := by rcases hbank with h | h <;> simp [h]
  simp only [Tu.wrCntSel, hper, hsource, Bool.not_true, lowestAbort_cons_false, lowestAbort_nil, ne_eq, not_true_eq_false,
    if_false, Cnt.select, Bool.or_eq_true, bne_iff_ne, or_assoc]

/-- R97: the present selection with bit 16 set is a reset. -/
theorem Cnt.select_again {x : Cnt} {src : Nat} {per : Bool} (hsource : src = x.source) (hper : per = x.percmd) :
    x.select src per true = x.reset := by
  simp only [Cnt.select, hsource, hper, or_true, if_true]
  rfl

/-! ### Registers of sample sets (R103, R112, R113) -/

theorem Tu.wrSetList_of_legal {t : Tu} {k : Nat} {v : List Byte} (hlen : v.length ≤ 512) (heven : v.length % 2 = 0)
    (hdistinct : distinct (u16s (v.length / 2) v) = true) (hrange : ((u16s (v.length / 2) v).all fun c => decide (c ≤ 2815)) = true)
    (hoff : (t.set k).enable = false)
    (hroom : sumBy (fun e => if e.1 = k then 0 else e.2.list.length) t.sets + (u16s (v.length / 2) v).length ≤ 2048) :
    t.wrSetList k v = (t.setSet k { t.set k with list := u16s (v.length / 2) v, base := [], first := true }, 0) := by
  have hin : ((u16s (v.length / 2) v).any fun c => decide (2815 < c)) = false := by
    simp only [List.any_eq_false, List.all_eq_true, decide_eq_true_eq, Nat.not_lt] at hrange ⊢
    exact hrange
  simp only [Tu.wrSetList, decide_eq_false (Nat.not_lt.mpr hlen), heven, hdistinct, hin, hoff, decide_eq_false (Nat.not_lt.mpr hroom),
    Bool.not_true, Bool.or_self, Nat.reduceBEq, lowestAbort_cons_false, lowestAbort_nil, ne_eq, not_true_eq_false, if_false]

theorem Tu.wrSetGrid_period {t : Tu} {k v : Nat} (hstep : v % 1000 = 0) (hlo : 1000 ≤ v) (hhi : v ≤ 10000000000)
    (hoff : (t.set k).enable = false) : t.wrSetGrid k false v = (t.setSet k { t.set k with period := v }, 0) := by
  simp only [Tu.wrSetGrid, hstep, decide_eq_false (Nat.not_lt.mpr hlo), decide_eq_false (Nat.not_lt.mpr hhi), hoff, bne_self_eq_false,
    Bool.or_self, Bool.false_eq_true, if_false, lowestAbort_cons_false, lowestAbort_nil, ne_eq, not_true_eq_false]

theorem Tu.wrSetGrid_phase {t : Tu} {k v : Nat} (hstep : v % 1000 = 0) (hhi : v < 10000000000)
    (hoff : (t.set k).enable = false) : t.wrSetGrid k true v = (t.setSet k { t.set k with phase := v }, 0) := by
  simp only [Tu.wrSetGrid, hstep, decide_eq_false (Nat.not_le.mpr hhi), hoff, bne_self_eq_false,
    Bool.or_self, if_true, if_false, lowestAbort_cons_false, lowestAbort_nil, ne_eq, not_true_eq_false]

/-- R103: a set with a list that is enabled on its own grid starts afresh. -/
theorem Tu.wrSetCtrl_of_enable {t : Tu} {k v : Nat} (hen : bitOf v 0 = true) (hfol : bitOf v 1 = false)
    (hslot : bitsOf v 8 8 < 64 ∨ bitsOf v 8 8 = 255) (hphase : (t.set k).phase < (t.set k).period)
    (hoff : (t.set k).enable = false) (hlist : (t.set k).list ≠ []) :
    t.wrSetCtrl k v = (t.setSet k { t.set k with
      enable := true, follow := false, gslot := bitsOf v 8 8, first := true, base := [], fired := none, step := false }, 0) := by
  have hgs : (decide (64 ≤ bitsOf v 8 8) && decide (bitsOf v 8 8 ≤ 254)) = false := by
    rw [← Bool.decide_and]
    exact decide_eq_false (by omega)
  have hempty : (t.set k).list.isEmpty = false := List.isEmpty_eq_false_iff.mpr hlist
  simp only [Tu.wrSetCtrl, hgs, hen, hfol, hoff, hempty, decide_eq_false (Nat.not_le.mpr hphase), Bool.and_false, Bool.false_and,
    Bool.not_false, Bool.true_and, lowestAbort_cons_false, lowestAbort_nil, ne_eq, not_true_eq_false, if_false, if_true]

theorem Tu.wrZoomPin_pin {t : Tu} {k : Nat} (hpin : (t.set k).pin = false) :
    t.wrZoomPin k false 1 = ((t.setSet k { t.set k with pin := true }).zoomState k false, 0) := by
  simp only [Tu.wrZoomPin, hpin, Bool.false_eq_true, if_false, Nat.lt_irrefl, beq_self_eq_true]

/-! ### Instants of a set (R104, R105) -/

/-- R104: an instant of the base grid at which a RUNNING set has not been sampled yet, with no change of its zoom. -/
theorem Tu.setInstant_of_due {t : Tu} {k : Nat} (sw : Bool) (hrun : t.setRunning (t.set k) = true)
    (hgrid : onGrid (t.baseGrid (t.set k)).1 (t.baseGrid (t.set k)).2 t.ns = true) (hnew : (t.set k).fired.getD 0 < t.ns)
    (hzoom : (t.set k).wanted (t.baseGrid (t.set k)).1 = (t.set k).zoom) :
    t.setInstant k sw = (t.setSet k { t.set k with fired := some t.ns }).sample k false sw := by
  have hfresh : (match (t.set k).fired with
      | some n => decide (n < t.ns)
      | none => true) = true := by
    cases hfired : (t.set k).fired with
    | none => rfl
    | some n => exact decide_eq_true (by rwa [hfired] at hnew)
  simp only [Tu.setInstant, hrun, hgrid, hzoom, Bool.true_or, Bool.and_self, bne_self_eq_false, Bool.and_false,
    Bool.false_eq_true, if_false, Bool.not_true]
  exact if_pos hfresh

/-- A set that has been sampled, behind the counts of its records. -/
theorem Tu.set_samplePeak (t : Tu) (k i n v : Nat) (x : SampleSet) :
    ((((t.setSet k x).bump i 8 n).wr i 0x0A v).samplePeak).set k = x := tget_tset_self _ _ _ _

/-- The sets and units of a TU that has offered the records of a sample. -/
theorem Tu.offer_sets_units {t u : Tu} (h : u.bare = t.bare) (cost : Nat) (rs : List Rec) (i n : Nat) :
    (∀ k, ((u.offer 0 4 cost rs).1.bump i 9 n).set k = t.set k) ∧ ((u.offer 0 4 cost rs).1.bump i 9 n).units = t.units := by
  have hbare : (u.offer 0 4 cost rs).1.bare = t.bare := (Tu.bare_offer u 0 4 cost rs (by decide)).trans h
  exact ⟨fun k => (congrArg (fun u : Tu => u.set k) hbare :), (congrArg Tu.units hbare :)⟩

/-- Fields of a sample set that a sample leaves alone, and the descriptors of the units. -/
theorem Tu.sample_frame (t : Tu) (k : Nat) (zoomed sw : Bool) :
    ((t.sample k zoomed sw).set k).fired = (t.set k).fired ∧ ((t.sample k zoomed sw).set k).list = (t.set k).list ∧
      (t.sample k zoomed sw).units = t.units := by
  have hlatch : ((t.set k).list.foldl (fun t c => t.putCnt c { (t.cnt c).settle t.ns with latched := t.ns }) t).bare = t.bare :=
    Tu.bare_foldl _ (fun t c => Tu.bare_putCnt t _ _) _ t
  have hoffer := Tu.offer_sets_units hlatch
  simp only [Tu.sample]
  split
  · exact ⟨(congrArg SampleSet.fired (Tu.set_samplePeak _ _ _ _ _ _) :),
      (congrArg SampleSet.list (Tu.set_samplePeak _ _ _ _ _ _) :), (hoffer _ _ (0x2400 + k) 0).2⟩
  · exact ⟨congrArg SampleSet.fired ((hoffer _ _ _ _).1 k), congrArg SampleSet.list ((hoffer _ _ _ _).1 k), (hoffer _ _ _ _).2⟩

end Sys2Proof.Machine

namespace Sys2Proof

open Machine

/-- Settles O10: each counter of a tile is fed by one lane, and the TU's own reporting counts in other counters. -/
theorem counterCommands : Obligations.CounterCommands := by
  unfold Obligations.CounterCommands
  refine ⟨?beat, ?select, ?reset, ?resetAll⟩
  case beat =>
    intro s dt p k i b hstart hfull hsource hper hns hval
    have hbare := Tu.bare_incBeat_tile (t := (s.tu p).tick dt) (k := k) hstart hfull
    refine tuNext_of_onTu rfl ⟨Tu.cnt_incBeat_tile (t := (s.tu p).tick dt) hstart hfull hsource hper hns hval, ?_⟩
    exact ⟨(congrArg Tu.units hbare :), (congrArg Tu.mace hbare :), (congrArg Tu.link hbare :)⟩
  case select =>
    intro s dt p lvl c v hlvl hsource hbank
    refine tuNext_of_onTu rfl ?_
    rw [Tu.wrCntSel_of_legal (t := (s.tu p).tick dt) hsource hbank]
    exact Tu.reply_accepted hlvl
  case reset =>
    intro s dt p lvl c v hlvl hsource hbank hsame hper hagain
    refine tuNext_of_onTu rfl ?_
    have hreset : (((s.tu p).cnt c.val).settle ((s.tu p).tick dt).ns).select (bitsOf v.toNat 0 10) (bitOf v.toNat 10) true =
        (((s.tu p).cnt c.val).settle ((s.tu p).tick dt).ns).reset :=
      Cnt.select_again (by rw [Cnt.settle_source, hsame]) (by rw [Cnt.settle_percmd, hper])
    have hwr : ((s.tu p).tick dt).wrCntSel c.val v.toNat =
        (((s.tu p).tick dt).setCnt c.val (((s.tu p).cnt c.val).settle ((s.tu p).tick dt).ns).reset, 0) := by
      rw [Tu.wrCntSel_of_legal (t := (s.tu p).tick dt) hsource hbank, hagain]
      exact congrArg (fun x => (((s.tu p).tick dt).setCnt c.val x, 0)) hreset
    rw [hwr, Tu.reply_accepted hlvl]
    have hcnt : ((((s.tu p).tick dt).setCnt c.val (((s.tu p).cnt c.val).settle ((s.tu p).tick dt).ns).reset).emit
        (.answer 0)).cnt c.val = (((s.tu p).cnt c.val).settle ((s.tu p).tick dt).ns).reset := Tu.cnt_setCnt_self _ _ _
    rw [hcnt]
    exact ⟨rfl, rfl, congrArg (· + 1) (Cnt.settle_resets _ _), Cnt.settle_source _ _, Cnt.settle_percmd _ _, rfl⟩
  case resetAll =>
    intro s dt p lvl hlvl
    exact tuNext_of_onTu rfl (Tu.reply_accepted hlvl)

/-- Settles O11: each register takes a legal value, and an instant samples the set under its own settings. -/
theorem sampleSetCommands : Obligations.SampleSetCommands := by
  unfold Obligations.SampleSetCommands
  refine ⟨?list, ?period, ?phase, ?enable, ?zoomPeriod, ?pin, ?instant⟩
  case list =>
    intro s dt p lvl k v hlvl hlen heven hdistinct hrange hoff hroom
    refine tuNext_of_onTu rfl ?_
    rw [Tu.wrSetList_of_legal (t := (s.tu p).tick dt) hlen heven hdistinct hrange hoff hroom]
    exact Tu.reply_accepted hlvl
  case period =>
    intro s dt p lvl k v hlvl hstep hlo hhi hoff
    refine tuNext_of_onTu rfl ?_
    rw [Tu.wrSetGrid_period (t := (s.tu p).tick dt) hstep hlo hhi hoff]
    exact Tu.reply_accepted hlvl
  case phase =>
    intro s dt p lvl k v hlvl hstep hhi hoff
    refine tuNext_of_onTu rfl ?_
    rw [Tu.wrSetGrid_phase (t := (s.tu p).tick dt) hstep hhi hoff]
    exact Tu.reply_accepted hlvl
  case enable =>
    intro s dt p lvl k v hlvl hen hfol hslot hphase hoff hlist
    refine tuNext_of_onTu rfl ?_
    rw [Tu.wrSetCtrl_of_enable (t := (s.tu p).tick dt) hen hfol hslot hphase hoff hlist]
    exact Tu.reply_accepted hlvl
  case zoomPeriod =>
    intro s dt p lvl k v hlvl hzoom
    refine tuNext_of_onTu rfl ?_
    have hwr : ((s.tu p).tick dt).wrZoomPin k.val true v.toNat =
        (((s.tu p).tick dt).setSet k.val { (s.tu p).set k.val with pinZ := v.toNat }, 0) := if_pos hzoom
    rw [hwr]
    exact Tu.reply_accepted hlvl
  case pin =>
    intro s dt p lvl k hlvl hpin
    refine tuNext_of_onTu rfl ?_
    have hwr := Tu.wrZoomPin_pin (t := (s.tu p).tick dt) (k := k.val) hpin
    have hone : (1 : Word).toNat = 1 := rfl
    rw [hone, hwr, Tu.reply_accepted hlvl]
    exact ⟨rfl, (Tu.bare_answer _ _).trans (Tu.bare_log _ _)⟩
  case instant =>
    intro s dt p k sw hrun hgrid hnew hzoom
    refine tuNext_of_onTu rfl ?_
    rw [Tu.setInstant_of_due (t := (s.tu p).tick dt) sw hrun hgrid hnew hzoom]
    obtain ⟨hfired, hlist, hunits⟩ := Tu.sample_frame (((s.tu p).tick dt).setSet k.val
      { ((s.tu p).tick dt).set k.val with fired := some ((s.tu p).tick dt).ns }) k.val false sw
    have hset : (((s.tu p).tick dt).setSet k.val { ((s.tu p).tick dt).set k.val with fired := some ((s.tu p).tick dt).ns }).set
        k.val = { ((s.tu p).tick dt).set k.val with fired := some ((s.tu p).tick dt).ns } := tget_tset_self _ _ _ _
    rw [hset] at hfired hlist
    exact ⟨rfl, hfired, hlist, hunits⟩

end Sys2Proof
end

section
/-! SUPPORT. Phases (R117 to R138): launches, slots, descriptors, long phases and name tables. -/

namespace Sys2Proof.Machine

/-! ### Counting objects behind reporting -/

/-- A counting object is raised, whatever reporting has come before. -/
theorem Tu.rd_bump_of_bareBut {t u : Tu} {ks : List Nat} {i j : Nat} (n : Nat) (h : u.bareBut ks = t.bareBut ks)
    (hkey : (tuReportKeys ++ ks).contains (objKey i j) = false) : (u.bump i j n).rd i j = raised i j (t.rd i j) n :=
  (Part.rd_wr_self _ _ _ _).trans (congrArg (raised i j · n) (Tu.rd_of_bareBut h hkey))

/-- A counting object is raised, whatever reporting has come before. -/
theorem Fyster.rd_bump_of_bareBut {f g : Fyster} {ks : List Nat} {i j : Nat} (n : Nat) (h : g.bareBut ks = f.bareBut ks)
    (hkey : (fyReportKeys ++ ks).contains (objKey i j) = false) : (g.bump i j n).rd i j = raised i j (f.rd i j) n :=
  (Part.rd_wr_self _ _ _ _).trans (congrArg (raised i j · n) (Fyster.rd_of_bareBut h hkey))

/-! ### Launches (R132 to R135) -/

theorem Tu.launchStart_of_unshadowed {t : Tu} (g ver l : Nat) (pers : Bool) (h : t.part.flag 0x2940 1 = false) :
    t.launchStart g ver l pers =
      { t with binds := (t.binds.filter fun b => b.launch != l) ++
        [{ launch := l, graph := g, ver := ver, persistent := pers
           flags := if (t.nameTab g ver).isSome then 0 else if 4 ≤ (t.boundVersions g).length then 1 else 2
           ordinal := tget t.mace.ordinals g 0 }] } := by
  simp only [Tu.launchStart, h, Bool.false_eq_true, if_false]

/-- R135: the newest version of a graph stays. -/
theorem Tu.retireVersion_newest {t : Tu} {g ver : Nat} (h : (t.newest.find? fun n => n.1 == g) = some (g, ver)) :
    t.retireVersion g ver = t := by
  simp only [Tu.retireVersion, h, beq_self_eq_true, Bool.or_true, if_true]

theorem Tu.launchEnd_newest {t : Tu} {l : Nat} {b : Binding} (hbind : t.binding l = some b)
    (hnewest : (t.newest.find? fun n => n.1 == b.graph) = some (b.graph, b.ver))
    (hunits : (t.units.filter fun u => u.2.launches.contains l) = []) :
    t.launchEnd l = { t with binds := t.binds.filter fun x => x.launch != l } := by
  simp only [Tu.launchEnd, hunits, List.map_nil, List.foldl_nil, hbind]
  exact Tu.retireVersion_newest hnewest

/-! ### Items and their phases (R117 to R124) -/

theorem Tu.cpOpen_of_free {t : Tu} {o : OpenEv} {k : Nat} (hen : t.part.flag 0x2600 1 = true) (hunit : o.unit.toNat < 4)
    (hnew : t.slotOf o.launch.toNat o.tag.toNat = none) (hfree : t.freeSlot = some k) :
    t.cpOpen o = { t with slots := tset t.slots k (some (t.newItem o)) }.wr 0x2600 4
      (max (t.rd 0x2600 4) { t with slots := tset t.slots k (some (t.newItem o)) }.openSlots.length) := by
  simp only [Tu.cpOpen, hen, Bool.not_true, Bool.false_eq_true, if_false, Nat.not_le.mpr hunit, hnew, hfree]
  rfl

theorem Tu.cpBegin_of_closed {t : Tu} {l tag code k : Nat} {x : PhSlot} (hen : t.part.flag 0x2600 1 = true)
    (hcode : phaseOk code = true) (hslot : t.slotOf l tag = some (k, x)) (hclosed : (x.entry code).isOpen = false) :
    t.cpBegin l tag code = { t with slots := tset t.slots k (some { x.setEntry { x.entry code with
      count := (x.entry code).count + 1
      start := some ((x.entry code).start.getD t.ns)
      isOpen := true
      since := t.ns } with lastCode := code }) } := by
  simp only [Tu.cpBegin, hen, Bool.not_true, Bool.false_eq_true, if_false, hcode, hslot, PhEntry.begin', hclosed]

theorem Tu.cpEnd_of_open {t : Tu} {l tag code k : Nat} {x : PhSlot} (hen : t.part.flag 0x2600 1 = true)
    (hcode : phaseOk code = true) (hslot : t.slotOf l tag = some (k, x)) (hopen : (x.entry code).isOpen = true) :
    t.cpEnd l tag code = { t with slots := tset t.slots k (some (x.setEntry { x.entry code with
      busy := (x.entry code).busy + (t.ns - (x.entry code).since)
      ended := some t.ns
      isOpen := false })) } := by
  simp only [Tu.cpEnd, hen, Bool.not_true, Bool.false_eq_true, if_false, hcode, hslot, PhEntry.end', hopen, if_true]

/-- What offers a record and then counts it leaves all but the count. -/
theorem Tu.bare_offer_bump (t : Tu) {a : Nat} (req cost : Nat) (rs : List Rec) (i j n : Nat) (ha : a ≤ 8) :
    ((t.offer a req cost rs).1.bump i j n).bareBut [objKey i j] = t.bareBut [objKey i j] :=
  (Tu.bare_bump_hidden _ _ _ _ (by simp)).trans (Tu.bare_offer t a req cost rs ha)

theorem Tu.bare_closeSlot (t : Tu) (k : Nat) (x : PhSlot) (abandoned : Bool) :
    (t.closeSlot k x abandoned).bareBut [objKey 0x2600 8] =
      { t with slots := tset t.slots k none }.bareBut [objKey 0x2600 8] :=
  Tu.bare_offer_bump _ _ _ _ _ _ _ (by decide)

theorem Tu.rd_closeSlot (t : Tu) (k : Nat) (x : PhSlot) (abandoned : Bool) :
    (t.closeSlot k x abandoned).rd 0x2600 8 = raised 0x2600 8 (t.rd 0x2600 8) 1 :=
  Tu.rd_bump_of_bareBut (ks := []) (t := { t with slots := tset t.slots k none }) _ (Tu.bare_offer _ _ _ _ _ (by decide))
    (by decide)

theorem Tu.abandonSlots_frame (t : Tu) : t.abandonSlots.binds = t.binds ∧ t.abandonSlots.names = t.names :=
  List.foldlRecOn (motive := fun u : Tu => u.binds = t.binds ∧ u.names = t.names) _ _ ⟨rfl, rfl⟩ fun u hu e _ =>
    ⟨(congrArg Tu.binds (u.bare_closeSlot e.1 e.2 true) :).trans hu.1, (congrArg Tu.names (u.bare_closeSlot e.1 e.2 true) :).trans
      hu.2⟩

/-! ### Long phases (R125) -/

/-- R125: the slot of an item that has been reported. -/
def PhSlot.crossed (x : PhSlot) : PhSlot := { x with mult := 2 * x.mult, emitN := min (x.emitN + 1) 255 }

theorem Tu.longCrossing_of_due {t : Tu} {k : Nat} {x : PhSlot} (hslot : t.slot k = some x)
    (hdue : x.opened + x.mult * t.rd 0x2600 2 ≤ t.ns) :
    (t.longCrossing k).bareBut [objKey 0x2600 9] =
        { t with slots := tset t.slots k (some x.crossed) }.bareBut [objKey 0x2600 9] ∧
      (t.longCrossing k).rd 0x2600 9 = raised 0x2600 9 (t.rd 0x2600 9) 1 := by
  simp only [Tu.longCrossing, hslot, if_neg (Nat.not_lt.mpr hdue)]
  exact ⟨Tu.bare_offer_bump _ _ _ _ _ _ _ (by decide), Tu.rd_bump_of_bareBut (ks := [])
    (t := { t with slots := tset t.slots k (some x.crossed) }) _ (Tu.bare_offer _ _ _ _ _ (by decide)) (by decide)⟩

/-! ### Name tables (R133, R138) -/

/-- R133: the first table of a graph, with room for it. -/
theorem Tu.wrNameTable_first {t : Tu} {v : List Byte} (hlen : v.length = 16 + 8 * fieldAt v 6 2) (hlo : 1 ≤ fieldAt v 6 2)
    (hhi : fieldAt v 6 2 ≤ 4096) (hkeys : ((nameEntries (fieldAt v 6 2) (v.drop 16)).all fun e => e.2 != 0) = true)
    (hdistinct : distinct ((nameEntries (fieldAt v 6 2) (v.drop 16)).map Prod.fst) = true)
    (hnone : (t.names.filter fun x => x.graph == fieldAt v 0 4) = []) (htabs : t.names.length < 64)
    (hroom : sumBy (fun x => x.names.length) t.names + fieldAt v 6 2 ≤ 16384) :
    t.wrNameTable v = ({ t with
      newest := (t.newest.filter fun x => x.1 != fieldAt v 0 4) ++ [(fieldAt v 0 4, fieldAt v 4 2)]
      names := t.names ++ [{ graph := fieldAt v 0 4
                             ver := fieldAt v 4 2
                             age := 1 + t.names.foldl (fun m x => max m x.age) 0
                             names := nameEntries (fieldAt v 6 2) (v.drop 16) }] }, 0) := by
  have hsame : t.nameTab (fieldAt v 0 4) (fieldAt v 4 2) = none := by
    simp only [List.filter_eq_nil_iff] at hnone
    refine List.find?_eq_none.mpr fun x hx => ?_
    simp only [hnone x hx, Bool.false_and, Bool.false_eq_true, not_false_eq_true]
  have hzero : ((nameEntries (fieldAt v 6 2) (v.drop 16)).any fun e => e.2 == 0) = false := by
    simp only [List.any_eq_false, List.all_eq_true, bne_iff_ne, beq_iff_eq] at hkeys ⊢
    exact hkeys
  have hshort : (decide (v.length < 16) || v.length != 16 + 8 * fieldAt v 6 2) = false := by
    rw [hlen]
    simp
  have hn : (fieldAt v 6 2 == 0) = false := beq_eq_false_iff_ne.mpr (by omega)
  simp only [Tu.wrNameTable, hsame, hnone, hshort, hn, hzero, hdistinct, decide_eq_false (Nat.not_lt.mpr hhi), List.length_nil,
    Nat.reduceLeDiff, decide_false, decide_eq_false (Nat.not_le.mpr htabs), decide_eq_false (Nat.not_lt.mpr hroom),
    Option.isNone_none, Bool.and_false, Bool.false_and, Bool.not_false, Bool.not_true, Bool.or_self, Bool.false_eq_true, if_false,
    lowestAbort_cons_false, lowestAbort_nil, ne_eq, not_true_eq_false]

end Sys2Proof.Machine

namespace Sys2Proof

open Machine

/-- Settles O12: each event of the command processor has one case of its own, and a record that closes is offered and counted. -/
theorem phaseCommands : Obligations.PhaseCommands := by
  unfold Obligations.PhaseCommands
  refine ⟨?launchStart, ?launchEnd, ?opened, ?begun, ?ended, ?closed, ?dispatch⟩
  case launchStart =>
    intro s dt p g ver l pers hshadow
    exact tuNext_of_onTu rfl (Tu.launchStart_of_unshadowed (t := (s.tu p).tick dt) _ _ _ _ hshadow)
  case launchEnd =>
    intro s dt p l b hbind hnewest hunits
    exact tuNext_of_onTu rfl (Tu.launchEnd_newest (t := (s.tu p).tick dt) hbind hnewest hunits)
  case opened =>
    intro s dt p o k hen hunit hnew hfree
    exact tuNext_of_onTu rfl (Tu.cpOpen_of_free (t := (s.tu p).tick dt) hen hunit hnew hfree)
  case begun =>
    intro s dt p l tag code k x hen hcode hslot hclosed
    exact tuNext_of_onTu rfl (Tu.cpBegin_of_closed (t := (s.tu p).tick dt) hen hcode hslot hclosed)
  case ended =>
    intro s dt p l tag code k x hen hcode hslot hopen
    exact tuNext_of_onTu rfl (Tu.cpEnd_of_open (t := (s.tu p).tick dt) hen hcode hslot hopen)
  case closed =>
    intro s dt p l tag k x hen hslot
    have hclose : ((s.tu p).tick dt).cpClose l.toNat tag.toNat = ((s.tu p).tick dt).closeSlot k x false := by
      have hslot : ((s.tu p).tick dt).slotOf l.toNat tag.toNat = some (k, x) := hslot
      have hen : ((s.tu p).tick dt).part.flag 0x2600 1 = true := hen
      simp only [Tu.cpClose, hen, Bool.not_true, Bool.false_eq_true, if_false, hslot]
    refine tuNext_of_onTu rfl ?_
    rw [hclose]
    have hbare := ((s.tu p).tick dt).bare_closeSlot k x false
    exact ⟨(congrArg Tu.slots hbare :), Tu.rd_closeSlot _ _ _ _, hbare⟩
  case dispatch =>
    intro s dt p d u hunit
    refine tuNext_of_onTu rfl ?_
    simp only [Tu.cpDispatch, hunit]

/-- Settles O13: a crossing is reported and counted, PHASE_ENABLE closes slot by slot, and the first table of a graph meets none
of the reasons to refuse it. -/
theorem longPhasesAndNames : Obligations.LongPhasesAndNames := by
  unfold Obligations.LongPhasesAndNames
  refine ⟨?crossing, ?enable, ?disable, ?names⟩
  case crossing =>
    intro s dt p k x hslot hdue
    obtain ⟨hbare, hcount⟩ := Tu.longCrossing_of_due (t := (s.tu p).tick dt) hslot hdue
    exact tuNext_of_onTu rfl ⟨(congrArg Tu.slots hbare :), hcount, hbare⟩
  case enable =>
    intro s dt p lvl hlvl
    exact tuNext_of_onTu rfl (Tu.reply_accepted hlvl)
  case disable =>
    intro s dt p lvl hlvl
    obtain ⟨hbinds, hnames⟩ := ((s.tu p).tick dt).abandonSlots_frame
    have hwr : ((s.tu p).tick dt).wrPhaseEnable (0 : Byte).toNat = (((s.tu p).tick dt).abandonSlots.wr 0x2600 1 0, 0) := rfl
    refine tuNext_of_onTu rfl ?_
    rw [hwr, Tu.reply_accepted hlvl]
    exact ⟨rfl, congrArg (· == 1) (Part.rd_wr_self _ _ _ _), hbinds, hnames⟩
  case names =>
    intro s dt p lvl v hlvl hlen hlo hhi hkeys hdistinct hnone htabs hroom
    refine tuNext_of_onTu rfl ?_
    rw [Tu.wrNameTable_first (t := (s.tu p).tick dt) hlen hlo hhi hkeys hdistinct hnone htabs hroom]
    exact Tu.reply_accepted hlvl

end Sys2Proof
end

section
/-! SUPPORT. Control-flow trace (R139 to R149): what writing packets leaves of a TU and of its encoders' settings, the beats of a
trace tap, the trace window and its NoC writes. -/

namespace Sys2Proof.Machine

theorem tset_tset {α : Type} (t : Tab α) (k : Nat) (v w : α) : tset (tset t k v) k w = tset t k w := by
  induction t with
  | nil => simp only [tset, Nat.lt_irrefl, if_false, if_true]
  | cons e r ih =>
    obtain ⟨a, b⟩ := e
    simp only [tset]
    split
    · simp only [tset, Nat.lt_irrefl, if_false, if_true]
    · split
      · simp only [tset, Nat.lt_irrefl, if_false, if_true]
      next h₁ h₂ => simp only [tset, h₁, h₂, if_false, ih]

/-! ### Encoders -/

theorem Tu.enc_setEnc_self (t : Tu) (i : Nat) (e : Enc) : (t.setEnc i e).enc i = e := tget_tset_self _ _ _ _

theorem Tu.enc_setEnc_other (t : Tu) {i j : Nat} (e : Enc) (h : j ≠ i) : (t.setEnc i e).enc j = t.enc j :=
  tget_tset_other _ _ _ h

theorem Tu.setEnc_setEnc (t : Tu) (i : Nat) (e e' : Enc) : (t.setEnc i e).setEnc i e' = t.setEnc i e' :=
  congrArg (fun m => { t with encs := m }) (tset_tset t.encs i e e')

/-- What packets leave of an encoder: its modes, the next address and its power state. -/
def Enc.setting (e : Enc) : Nat × Nat × Option Nat × Option (Nat × Bool) := (e.mode, e.inForce, e.addr, e.down)

/-- A TU without its encoders, the records and writes of the trace window, Sumac's intake, its objects and what reporting
touches. -/
def Tu.untraced (t : Tu) : Tu :=
  { t.bare with
    encs := []
    win := { t.win with writePtr := 0, drainPtr := 0, recs := [], noc := [] }
    sumac := Tu.reset.sumac
    part := { t.bare.part with obj := [] } }

/-- What a TU counts of its cuts (R235). -/
def Tu.cutCounts (t : Tu) : Nat × Nat × Nat := (t.rd 0x2820 2, t.rd 0x2820 3, t.rd 0x2820 6)

/-- What writing packets leaves: the settings of every encoder, the TU around them, its counts of cuts and of die resets. -/
def Tu.traceForm (t : Tu) : (Nat → Nat × Nat × Option Nat × Option (Nat × Bool)) × Tu × (Nat × Nat × Nat) × Nat :=
  (fun j => (t.enc j).setting, t.untraced, t.cutCounts, t.rd 0x2E00 3)

theorem Tu.cutCounts_of_bare {t u : Tu} (h : t.bare = u.bare) : t.cutCounts = u.cutCounts :=
  Prod.ext (Tu.rd_of_bareBut (ks := []) h (by decide)) (Prod.ext (Tu.rd_of_bareBut (ks := []) h (by decide))
    (Tu.rd_of_bareBut (ks := []) h (by decide)))

theorem Tu.untraced_of_bareBut {t u : Tu} {ks : List Nat} (h : t.bareBut ks = u.bareBut ks) : t.untraced = u.untraced :=
  (congrArg (fun b : Tu => b.untraced) h :)

theorem Tu.traceForm_of_bare {t u : Tu} (h : t.bare = u.bare) : t.traceForm = u.traceForm :=
  Prod.ext (congrArg (fun b : Tu => b.traceForm.1) h :) (Prod.ext (Tu.untraced_of_bareBut (ks := []) h)
    (Prod.ext (Tu.cutCounts_of_bare h) (Tu.rd_of_bareBut (ks := []) h (by decide))))

theorem Tu.setting_of_traceForm {t u : Tu} (h : t.traceForm = u.traceForm) (j : Nat) :
    (t.enc j).setting = (u.enc j).setting := congrArg (fun x => x.1 j) h

theorem Tu.addr_of_traceForm {t u : Tu} (h : t.traceForm = u.traceForm) (j : Nat) : (t.enc j).addr = (u.enc j).addr :=
  congrArg (fun x => x.2.2.1) (Tu.setting_of_traceForm h j)

theorem Tu.down_of_traceForm {t u : Tu} (h : t.traceForm = u.traceForm) (j : Nat) : (t.enc j).down = (u.enc j).down :=
  congrArg (fun x => x.2.2.2) (Tu.setting_of_traceForm h j)

theorem Tu.untraced_of_traceForm {t u : Tu} (h : t.traceForm = u.traceForm) : t.untraced = u.untraced := congrArg (·.2.1) h

theorem Tu.untraced_setEnc (t : Tu) (i : Nat) (e : Enc) : (t.setEnc i e).untraced = t.untraced := rfl

/-- An encoder may be replaced by one of the same settings. -/
theorem Tu.traceForm_setEnc {t u : Tu} {i : Nat} {e : Enc} (hform : t.traceForm = u.traceForm)
    (h : e.setting = (t.enc i).setting) : (t.setEnc i e).traceForm = u.traceForm := by
  refine Eq.trans (b := t.traceForm) (Prod.ext (funext fun j => ?_) rfl) hform
  by_cases hj : j = i
  · subst hj
    exact (congrArg Enc.setting (t.enc_setEnc_self j e)).trans h
  · exact congrArg Enc.setting (t.enc_setEnc_other e hj)

/-- The objects that `traceForm` holds: the counts of cuts and of die resets. -/
def traceFormKeys : List Nat := [objKey 0x2820 2, objKey 0x2820 3, objKey 0x2820 6, objKey 0x2E00 3]

theorem Tu.traceForm_bump (t : Tu) (i j n : Nat) (h : ∀ k ∈ traceFormKeys, k ≠ objKey i j) : (t.bump i j n).traceForm = t.traceForm := by
  simp only [traceFormKeys, List.forall_mem_cons] at h
  obtain ⟨hdone, hfull, hlate, hreset, -⟩ := h
  exact Prod.ext rfl (Prod.ext rfl (Prod.ext
    (Prod.ext (Part.rd_bump_other _ _ hdone) (Prod.ext (Part.rd_bump_other _ _ hfull) (Part.rd_bump_other _ _ hlate)))
    (Part.rd_bump_other _ _ hreset)))

theorem traceFormKeys_ne_source (i : Nat) : ∀ k ∈ traceFormKeys, k ≠ objKey (0x2700 + i) 4 := by
  simp only [traceFormKeys, List.forall_mem_cons, objKey]
  refine ⟨by omega, by omega, by omega, by omega, fun _ h => absurd h List.not_mem_nil⟩

theorem Tu.traceForm_nocIssue (t : Tu) : t.nocIssue.traceForm = t.traceForm :=
  List.foldlRecOn (motive := fun u : Tu => u.traceForm = t.traceForm) _ _ rfl fun _ hu _ _ => hu

theorem Tu.traceForm_sumacPop (t : Tu) : t.sumacPop.traceForm = t.traceForm := by
  simp only [Tu.sumacPop]
  split <;> rfl

theorem Tu.traceForm_sumacClose (t : Tu) : t.sumacClose.traceForm = t.traceForm := by
  simp only [Tu.sumacClose]
  split <;> rfl

theorem Tu.traceForm_sumacTake (t : Tu) : t.sumacTake.1.traceForm = t.traceForm := by
  simp only [Tu.sumacTake]
  split
  · rfl
  · split
    · rfl
    · have hcharge (cost : Nat) : (t.charge 6 cost true).1.traceForm = t.traceForm :=
        Tu.traceForm_of_bare (Tu.bare_charge t 6 cost true (by decide))
      split
      · refine (Tu.traceForm_sumacPop _).trans ?_
        split
        · exact (Tu.traceForm_sumacClose _).trans (hcharge _)
        · exact hcharge _
      · exact hcharge _

theorem Tu.traceForm_sumacFeedN (n : Nat) (t : Tu) : (Tu.sumacFeedN n t).traceForm = t.traceForm := by
  induction n generalizing t with
  | zero => rfl
  | succ n ih =>
    simp only [Tu.sumacFeedN]
    split
    · exact (ih _).trans t.traceForm_sumacTake
    · exact t.traceForm_sumacTake

theorem Tu.traceForm_sumacFeed (t : Tu) : t.sumacFeed.traceForm = t.traceForm := Tu.traceForm_sumacFeedN _ t

theorem Tu.traceForm_windowPut (t : Tu) (i last : Nat) (r : Rec) : (t.windowPut i last r).traceForm = t.traceForm := by
  refine (Tu.traceForm_sumacFeed _).trans ((Tu.traceForm_nocIssue _).trans ((Tu.traceForm_bump _ _ _ _ (by decide)).trans ?_))
  exact Tu.traceForm_setEnc rfl rfl

theorem Tu.traceForm_traceClose (t : Tu) (i : Nat) : (t.traceClose i).traceForm = t.traceForm := by
  simp only [Tu.traceClose]
  split
  · rfl
  next c hc =>
    have hopen : (t.setEnc i { t.enc i with cur := none }).traceForm = t.traceForm := Tu.traceForm_setEnc rfl rfl
    have hcharge (u : Tu) (cost : Nat) (fits : Bool) : (u.charge 2 cost fits).1.traceForm = u.traceForm :=
      Tu.traceForm_of_bare (Tu.bare_charge u 2 cost fits (by decide))
    have hinternal (u : Tu) (src n : Nat) : (u.internal src n).traceForm = u.traceForm :=
      Tu.traceForm_of_bare (Tu.bare_internal u src n)
    split
    · refine (hinternal _ _ _).trans (List.foldlRecOn (motive := fun u : Tu => u.traceForm = t.traceForm) _ _ ?_
        fun u hu r _ => (u.traceForm_windowPut i c.last r).trans hu)
      exact (Tu.traceForm_of_bare (Tu.bare_admitAll _ _)).trans ((hcharge _ _ _).trans hopen)
    · refine (Tu.traceForm_bump _ _ _ _ (by decide)).trans (Tu.traceForm_setEnc ((hinternal _ _ _).trans ((hinternal _ _ _).trans ?_)) rfl)
      exact (Tu.traceForm_of_bare (Tu.bare_lose _ _ _ _)).trans ((hcharge _ _ _).trans hopen)

theorem Tu.traceForm_traceRaw (t : Tu) (i ts : Nat) (sync : Bool) (bs : List Byte) :
    (t.traceRaw i ts sync bs).traceForm = t.traceForm := by
  simp only [Tu.traceRaw]
  split
  · rfl
  · exact Tu.traceForm_setEnc rfl rfl

theorem Tu.traceForm_tracePrep (i ts : Nat) (build : Enc → List Byte) (n : Nat) (t : Tu) :
    (Tu.tracePrep i ts build n t).traceForm = t.traceForm := by
  induction n generalizing t with
  | zero => rfl
  | succ n ih =>
    have hclose : (Tu.tracePrep i ts build n (t.traceClose i)).traceForm = t.traceForm := (ih _).trans (t.traceForm_traceClose i)
    simp only [Tu.tracePrep]
    split
    · rfl
    · split
      · split
        · exact (ih _).trans ((Tu.traceForm_bump _ _ _ _ (traceFormKeys_ne_source i)).trans (Tu.traceForm_setEnc (t.traceForm_traceRaw _ _ _ _) rfl))
        · exact hclose
      · split
        · exact (ih _).trans (Tu.traceForm_setEnc (t.traceForm_traceRaw _ _ _ _) rfl)
        · exact hclose
      · split
        · exact (ih _).trans (Tu.traceForm_setEnc rfl rfl)
        · split
          · rfl
          · exact hclose
      · split
        · rfl
        · exact hclose

theorem Tu.traceForm_tracePut (t : Tu) (i ts : Nat) (build : Enc → List Byte) :
    (t.tracePut i ts build).traceForm = t.traceForm := by
  simp only [Tu.tracePut]
  split
  · exact (Tu.traceForm_traceRaw _ _ _ _ _).trans (Tu.traceForm_tracePrep _ _ _ _ _)
  · exact Tu.traceForm_setEnc (Tu.traceForm_tracePrep _ _ _ _ _) rfl

theorem Tu.traceForm_traceDue (t : Tu) (i ts : Nat) : (t.traceDue i ts).traceForm = t.traceForm := by
  simp only [Tu.traceDue]
  split
  · split
    · exact Tu.traceForm_tracePrep _ _ _ _ _
    · split
      · exact Tu.traceForm_setEnc rfl rfl
      · rfl
  · rfl

theorem Tu.traceForm_traceTs (t : Tu) (i ts : Nat) (always : Bool) : (t.traceTs i ts always).traceForm = t.traceForm := by
  simp only [Tu.traceTs]
  split
  · exact t.traceForm_traceDue i ts
  · exact Tu.traceForm_setEnc ((Tu.traceForm_tracePut _ _ _ _).trans (t.traceForm_traceDue i ts)) rfl

theorem Tu.traceForm_traceBranch (t : Tu) (i ts : Nat) : (t.traceBranch i ts).traceForm = t.traceForm := by
  simp only [Tu.traceBranch]
  split
  · rfl
  · exact (Tu.traceForm_tracePut _ _ _ _).trans ((Tu.traceForm_traceTs _ _ _ _).trans (Tu.traceForm_setEnc rfl rfl))

theorem Tu.traceForm_traceSync (t : Tu) (i ts reason : Nat) : (t.traceSync i ts reason).traceForm = t.traceForm := by
  simp only [Tu.traceSync]
  exact (Tu.traceForm_traceDue _ _ _).trans (Tu.traceForm_setEnc ((Tu.traceForm_traceDue _ _ _).trans
    (Tu.traceForm_traceBranch _ _ _)) rfl)

theorem Tu.traceForm_traceFreeze (t : Tu) (f : Nat) : (t.traceFreeze f).traceForm = t.traceForm := by
  simp only [Tu.traceFreeze]
  refine List.foldlRecOn (motive := fun u : Tu => u.traceForm = t.traceForm) _ _ rfl fun u hu i _ => Eq.trans ?_ hu
  split
  · rfl
  · split
    · exact u.traceForm_traceClose i
    · exact (Tu.traceForm_traceClose _ _).trans ((Tu.traceForm_traceTs _ _ _ _).trans (Tu.traceForm_traceBranch _ _ _))

/-! ### A source that is caught up -/

/-- Sumac's intake leaves the encoders. -/
theorem Tu.encs_sumacFeedN (n : Nat) (t : Tu) : (Tu.sumacFeedN n t).encs = t.encs := by
  have htake (t : Tu) : t.sumacTake.1.encs = t.encs := by
    have hcharge (cost : Nat) : (t.charge 6 cost true).1.encs = t.encs :=
      (congrArg Tu.encs (Tu.bare_charge (ks := []) t 6 cost true (by decide)) :)
    have hpop (u : Tu) : u.sumacPop.encs = u.encs := by
      simp only [Tu.sumacPop]
      split <;> rfl
    have hclose (u : Tu) : u.sumacClose.encs = u.encs := by
      simp only [Tu.sumacClose]
      split <;> rfl
    simp only [Tu.sumacTake]
    split
    · rfl
    · split
      · rfl
      · split
        · refine (hpop _).trans ?_
          split
          · exact (hclose _).trans (hcharge _)
          · exact hcharge _
        · exact hcharge _
  induction n generalizing t with
  | zero => rfl
  | succ n ih =>
    simp only [Tu.sumacFeedN]
    split
    · exact (ih _).trans (htake t)
    · exact htake t

/-- A closed record leaves its source without an open one. -/
theorem Tu.enc_windowPut_cur {t : Tu} {i : Nat} (last : Nat) (r : Rec) (h : (t.enc i).cur = none) :
    ((t.windowPut i last r).enc i).cur = none := by
  have hissue (u : Tu) : u.nocIssue.encs = u.encs :=
    List.foldlRecOn (motive := fun v : Tu => v.encs = u.encs) _ _ rfl fun _ hv _ _ => hv
  simp only [Tu.windowPut, Tu.sumacFeed, Tu.enc, Tu.encs_sumacFeedN, hissue]
  exact (congrArg Enc.cur (tget_tset_self _ _ _ _)).trans h

theorem Tu.enc_traceClose_cur (t : Tu) (i : Nat) : ((t.traceClose i).enc i).cur = none := by
  have hnone (u : Tu) (e : Enc) (h : e.cur = none) : ((u.setEnc i e).enc i).cur = none :=
    (congrArg Enc.cur (u.enc_setEnc_self i e)).trans h
  have hencs (u v : Tu) (h : u.bare = v.bare) : u.enc i = v.enc i := (congrArg (fun w : Tu => w.enc i) h :)
  simp only [Tu.traceClose]
  split
  next h => exact h
  next c _ =>
    have hopen (cost : Nat) (fits : Bool) :
        ((((t.setEnc i { t.enc i with cur := none }).charge 2 cost fits).1.enc i).cur = none) :=
      (congrArg Enc.cur (hencs _ _ (Tu.bare_charge _ 2 cost fits (by decide)))).trans (hnone t _ rfl)
    split
    · refine (congrArg Enc.cur (hencs _ _ (Tu.bare_internal _ _ _))).trans (List.foldlRecOn
        (motive := fun u : Tu => (u.enc i).cur = none) _ _ ?_ fun u hu r _ => Tu.enc_windowPut_cur _ r hu)
      exact (congrArg Enc.cur (hencs _ _ (Tu.bare_admitAll _ _))).trans (hopen _ _)
    · refine hnone _ _ ((congrArg Enc.cur (hencs _ _ (Tu.bare_internal _ _ _))).trans ?_)
      exact (congrArg Enc.cur (hencs _ _ ((Tu.bare_internal _ _ _).trans (Tu.bare_lose _ _ _ _)))).trans (hopen _ _)

/-- No SYNC and no OVERFLOW waits: nothing is written for them. -/
theorem Tu.traceDue_of_caught_up {t : Tu} {i : Nat} (ts : Nat) (hdue : (t.enc i).due = none) (hlost : (t.enc i).lost = none) :
    t.traceDue i ts = t := by
  simp only [Tu.traceDue, hdue, hlost, Option.isSome_none, Bool.or_self, Bool.and_false, Bool.false_eq_true, if_false]

theorem Tu.traceBranch_of_none {t : Tu} {i : Nat} (ts : Nat) (h : (t.enc i).outcomes = []) : t.traceBranch i ts = t := by
  simp only [Tu.traceBranch, h, List.isEmpty_nil, if_true]

/-- R142: outcomes join the pending ones while fewer than six are pending. -/
theorem Tu.traceOutcomes_addr {t : Tu} {i : Nat} (a : Nat) (os : List Bool) (h : (t.enc i).outcomes.length + os.length < 6) :
    (os.foldl (fun t o => t.traceOutcome i o) t).traceAddr i a =
      t.setEnc i { t.enc i with outcomes := (t.enc i).outcomes ++ os, addr := some a } := by
  induction os generalizing t with
  | nil => simp only [List.foldl_nil, Tu.traceAddr, List.append_nil]
  | cons o os ih =>
    rw [List.length_cons] at h
    have hone : t.traceOutcome i o = t.setEnc i { t.enc i with outcomes := (t.enc i).outcomes ++ [o] } := by
      simp only [Tu.traceOutcome]
      exact if_neg (by omega)
    have henc := t.enc_setEnc_self i { t.enc i with outcomes := (t.enc i).outcomes ++ [o] }
    rw [List.foldl_cons, hone, ih (by rw [henc, List.length_append, List.length_singleton]; omega), henc, Tu.setEnc_setEnc,
      List.append_assoc, List.singleton_append]

/-- R139, R142: a COND beat in FULL mode at a source that is caught up. -/
theorem Tu.traceCond_of_full {t : Tu} {i : Nat} {b : TraceBeat} (p : Port) (hlost : b.lost = false) (hn : 1 ≤ b.nout.toNat)
    (hdown : (t.enc i).down = none) (hmode : (t.enc i).inForce = 2) (hdue : (t.enc i).due = none)
    (hloss : (t.enc i).lost = none) (hroom : (t.enc i).outcomes.length + b.nout.toNat < 6)
    (hsync : (t.enc i).sinceSync + (tsBytes t.ns false (t.enc i)).length < 4096) :
    t.traceCond p i b =
      t.setEnc i { t.enc i with outcomes := (t.enc i).outcomes ++ beatOuts b, addr := some (beatAddr i b) } := by
  have hcount : ¬(b.nout.toNat = 0 ∨ 6 < b.nout.toNat) := by omega
  have hlen : (beatOuts b).length = b.nout.toNat := by rw [beatOuts, List.length_map, List.length_range]
  refine Eq.trans ?_ (Tu.traceOutcomes_addr _ _ (by rwa [hlen]))
  simp only [Tu.traceCond, if_neg hcount, Tu.beatStart, hlost, Bool.false_eq_true, if_false, hdown, Option.isSome_none,
    Enc.absorbs, hdue, hloss, Bool.or_self, Bool.and_false, hmode, if_true, Tu.traceDue_of_caught_up t.ns hdue hloss,
    Tu.traceInterval, if_neg (Nat.not_le.mpr hsync)]

theorem length_varint_le (k v : Nat) : (varint k v).length ≤ k := by
  induction k generalizing v with
  | zero => exact Nat.le_refl 0
  | succ k ih =>
    simp only [varint]
    split
    · simp only [List.length_singleton, Nat.le_add_left]
    · exact Nat.succ_le_succ (ih _)

/-- R146: a packet needs nothing before it at a source that is caught up, with room in the open record. -/
theorem Tu.tracePut_of_caught_up {t : Tu} {i ts : Nat} {c : TrOpen} {build : Enc → List Byte} (hlost : (t.enc i).lost = none)
    (hdue : (t.enc i).due = none) (haddr : (t.enc i).addr ≠ none) (hsync : (t.enc i).sinceSync < 4096)
    (hcur : (t.enc i).cur = some c) (hroom : c.bytes.length + (build (t.enc i)).length ≤ 2000) :
    t.tracePut i ts build = t.traceRaw i ts false (build (t.enc i)) := by
  obtain ⟨a, ha⟩ := Option.ne_none_iff_exists'.mp haddr
  have hfree : (t.enc i).bufFree = true := by simp only [Enc.bufFree, hcur, Option.isSome_some, Bool.true_or]
  have hfits : (t.enc i).fits (build (t.enc i)).length = true := by simp only [Enc.fits, hcur, decide_eq_true hroom]
  have hprep (k : Nat) : Tu.tracePrep i ts build (k + 1) t = t := by
    simp only [Tu.tracePrep, hfree, hlost, hdue, ha, decide_eq_false (Nat.not_le.mpr hsync), hfits, Bool.not_true, Bool.and_false,
      Bool.false_and, Bool.false_eq_true, if_false, if_true]
  simp only [Tu.tracePut, hprep 11, hfree, if_true]

/-- R144: an INDIRECT beat at a source that is caught up, with an open record that has room. -/
theorem Tu.traceIndirect_of_open {t : Tu} {i : Nat} {b : TraceBeat} {c : TrOpen} (p : Port) (hlost : b.lost = false)
    (hdown : (t.enc i).down = none) (hmode : (t.enc i).inForce ≠ 0) (haddr : (t.enc i).addr ≠ none) (hdue : (t.enc i).due = none)
    (hloss : (t.enc i).lost = none) (houts : (t.enc i).outcomes = []) (hts : (t.enc i).tsInt = 0)
    (hsync : (t.enc i).sinceSync < 4096) (hcur : (t.enc i).cur = some c) (hroom : c.bytes.length ≤ 1980) :
    ∃ x : Enc, t.traceIndirect p i b = t.setEnc i { x with ibase := beatAddr i b, addr := some (beatAddr i b) } ∧
      x.cur = some { c with
        last := t.ns
        bytes := c.bytes ++ 2 :: zigzag ((beatAddr i b : Int) - (t.enc i).ibase) } := by
  have hput : (t.tracePut i t.ns fun e => 2 :: zigzag ((beatAddr i b : Int) - e.ibase)) =
      t.traceRaw i t.ns false (2 :: zigzag ((beatAddr i b : Int) - (t.enc i).ibase)) := by
    refine Tu.tracePut_of_caught_up hloss hdue haddr hsync hcur ?_
    have : (zigzag ((beatAddr i b : Int) - (t.enc i).ibase)).length ≤ 10 := length_varint_le 10 _
    rw [List.length_cons]
    omega
  have htsb : tsBytes t.ns false (t.enc i) = [] := by
    simp only [tsBytes, hts, bne_self_eq_false, Bool.false_and, Bool.or_self, Bool.false_eq_true, if_false]
  have htraceTs : t.traceTs i t.ns false = t := by
    simp only [Tu.traceTs, Tu.traceDue_of_caught_up t.ns hdue hloss, htsb, List.isEmpty_nil, if_true]
  simp only [Tu.traceIndirect, Tu.beatStart, hlost, Bool.false_eq_true, if_false, hdown, Option.isSome_none,
    Enc.absorbs, hdue, hloss, Bool.or_self, Bool.and_false, hmode, Tu.traceBranch_of_none t.ns houts, htraceTs]
  simp only [hput, Tu.traceRaw, List.isEmpty_cons, Bool.false_eq_true, if_false, Tu.enc_setEnc_self, Tu.setEnc_setEnc, hcur,
    Option.getD_some, Bool.false_and]
  exact ⟨{ t.enc i with cur := some _, total := _, sinceSync := _ }, rfl, rfl⟩

/-! ### Power states and modes (R140, R148) -/

/-- R148: a domain that goes down with its next address known. -/
theorem Tu.enc_traceDown_of_known {t : Tu} {i : Nat} (state : Nat) (abrupt : Bool) (hmode : (t.enc i).inForce ≠ 0)
    (haddr : (t.enc i).addr ≠ none) :
    ((t.traceDown i state abrupt).enc i).down = some (state, true) ∧ ((t.traceDown i state abrupt).enc i).addr = none ∧
      ((t.traceDown i state abrupt).enc i).cur = none := by
  have hkept := (Tu.traceForm_traceDue (t.traceBranch i t.ns) i t.ns).trans (t.traceForm_traceBranch i t.ns)
  have hknown : (((t.traceBranch i t.ns).traceDue i t.ns).enc i).addr.isNone = false := by
    rw [Tu.addr_of_traceForm hkept i]
    exact Option.isNone_eq_false_iff.mpr (Option.isSome_iff_ne_none.mpr haddr)
  simp only [Tu.traceDown, hmode, if_false, hknown, Bool.and_false, Bool.false_eq_true, Tu.enc_setEnc_self,
    Tu.enc_traceClose_cur, and_self]

/-- R148: a domain that goes down loses its next address. -/
theorem Tu.enc_traceDown (t : Tu) (i state : Nat) (abrupt : Bool) :
    ((t.traceDown i state abrupt).enc i).addr = none ∧ ((t.traceDown i state abrupt).enc i).down.map Prod.fst = some state := by
  have hset (u : Tu) (e : Enc) (written : Bool) (haddr : e.addr = none) (hdown : e.down = some (state, written)) :
      ((u.setEnc i e).enc i).addr = none ∧ ((u.setEnc i e).enc i).down.map Prod.fst = some state := by
    rw [u.enc_setEnc_self i e, haddr, hdown]
    exact ⟨rfl, rfl⟩
  simp only [Tu.traceDown]
  split
  · exact hset _ _ false rfl rfl
  · split
    next h => exact hset _ _ false (Option.isNone_iff_eq_none.mp (Bool.and_eq_true_iff.mp h).2) rfl
    next => exact hset _ _ true rfl rfl

theorem Tu.untraced_traceDown (t : Tu) (i state : Nat) (abrupt : Bool) : (t.traceDown i state abrupt).untraced = t.untraced := by
  have hkept := Tu.untraced_of_traceForm ((Tu.traceForm_traceDue (t.traceBranch i t.ns) i t.ns).trans
    (t.traceForm_traceBranch i t.ns))
  have hput (u : Tu) (build : Enc → List Byte) := Tu.untraced_of_traceForm (Tu.traceForm_tracePut u i t.ns build)
  have hclose (u : Tu) := Tu.untraced_of_traceForm (Tu.traceForm_traceClose u i)
  simp only [Tu.traceDown]
  split
  · exact Tu.untraced_setEnc _ _ _
  · split
    · simp only [Tu.untraced_setEnc, hkept]
    · simp only [Tu.untraced_setEnc, hclose, hput, hkept]

/-- R148: the wake of a domain that was down. -/
theorem Tu.enc_traceUp {t : Tu} {i : Nat} (addr : Option Nat) (hdown : (t.enc i).down ≠ none) :
    ((t.traceUp i addr).enc i).down = none ∧ ((t.traceUp i addr).enc i).addr = addr ∧
      (t.traceUp i addr).untraced = t.untraced := by
  obtain ⟨⟨state, written⟩, hd⟩ := Option.ne_none_iff_exists'.mp hdown
  have hlast (u : Tu) (e : Enc) (ts : Nat) (he : e.addr = addr) (hup : e.down = none) (hu : u.untraced = t.untraced) :
      (((u.setEnc i e).traceDue i ts).enc i).down = none ∧ (((u.setEnc i e).traceDue i ts).enc i).addr = addr ∧
        ((u.setEnc i e).traceDue i ts).untraced = t.untraced := by
    have hform := Tu.traceForm_traceDue (u.setEnc i e) i ts
    rw [Tu.down_of_traceForm hform i, Tu.addr_of_traceForm hform i, Tu.untraced_of_traceForm hform, u.enc_setEnc_self i e]
    exact ⟨hup, he, hu⟩
  simp only [Tu.traceUp, hd]
  split
  · have hput (u : Tu) (build : Enc → List Byte) := Tu.traceForm_tracePut u i t.ns build
    refine hlast _ _ _ rfl ?_ ((Tu.untraced_of_traceForm (hput _ _)).trans (Tu.untraced_setEnc _ _ _))
    exact (Tu.down_of_traceForm (hput _ _) i).trans (congrArg Enc.down (t.enc_setEnc_self i _))
  · exact hlast _ _ _ rfl (congrArg Enc.down (t.enc_setEnc_self i _)) rfl

/-- The modes of an encoder: TRACE_MODE as written, and the mode in force. -/
def Enc.modes (e : Enc) : Nat × Nat := (e.mode, e.inForce)

theorem Enc.mode_of_modes {e : Enc} {a b : Nat} (h : e.modes = (a, b)) : e.mode = a := congrArg Prod.fst h

theorem Enc.inForce_of_modes {e : Enc} {a b : Nat} (h : e.modes = (a, b)) : e.inForce = b := congrArg Prod.snd h

theorem Tu.modes_of_traceForm {t u : Tu} (h : t.traceForm = u.traceForm) (j : Nat) : (t.enc j).modes = (u.enc j).modes :=
  congrArg (fun x => (x.1, x.2.1)) (Tu.setting_of_traceForm h j)

/-- R140: a mode comes into force at its own source alone. -/
theorem Tu.modes_traceSetMode (t : Tu) (i m j : Nat) :
    ((t.traceSetMode i m).enc j).modes = if j = i then ((t.enc i).mode, m) else (t.enc j).modes := by
  have hset (u : Tu) (e : Enc) (hu : u.traceForm = t.traceForm) (hmode : e.mode = (u.enc i).mode) (hforce : e.inForce = m) :
      ((u.setEnc i e).enc j).modes = if j = i then ((t.enc i).mode, m) else (t.enc j).modes := by
    split
    next h =>
      subst h
      rw [u.enc_setEnc_self j e, Enc.modes, hmode, hforce]
      exact congrArg (fun x => (x.1, m)) (Tu.modes_of_traceForm hu j)
    next h => rw [u.enc_setEnc_other e h, Tu.modes_of_traceForm hu j]
  have hbranch : (if (t.enc i).inForce = 0 then t else t.traceBranch i t.ns).traceForm = t.traceForm := by
    split
    · rfl
    · exact t.traceForm_traceBranch i t.ns
  simp only [Tu.traceSetMode]
  split
  next h =>
    split
    next hj => rw [hj, Enc.modes, h]
    next => rfl
  · split
    next hm => exact hset _ _ ((Tu.traceForm_traceClose _ i).trans hbranch) rfl hm.symm
    · split
      · exact hset _ _ rfl rfl rfl
      · have hbranch := t.traceForm_traceBranch i t.ns
        split
        · exact (Tu.modes_of_traceForm (Tu.traceForm_traceSync _ _ _ _) j).trans (hset _ _ hbranch rfl rfl)
        · rw [Tu.setEnc_setEnc, Tu.enc_setEnc_self]
          exact hset _ _ hbranch rfl rfl

theorem Tu.untraced_traceSetMode (t : Tu) (i m : Nat) : (t.traceSetMode i m).untraced = t.untraced := by
  have hclose (u : Tu) := Tu.untraced_of_traceForm (Tu.traceForm_traceClose u i)
  have hsync (u : Tu) (ts : Nat) := Tu.untraced_of_traceForm (Tu.traceForm_traceSync u i ts 3)
  have hbranch : (if (t.enc i).inForce = 0 then t else t.traceBranch i t.ns).untraced = t.untraced := by
    split
    · rfl
    · exact Tu.untraced_of_traceForm (t.traceForm_traceBranch i t.ns)
  simp only [Tu.traceSetMode]
  split
  · rfl
  · split
    · simp only [Tu.untraced_setEnc, hclose, hbranch]
    · split
      · exact Tu.untraced_setEnc _ _ _
      · have hbranch := Tu.untraced_of_traceForm (t.traceForm_traceBranch i t.ns)
        split
        · simp only [hsync, Tu.untraced_setEnc, hbranch]
        · simp only [Tu.untraced_setEnc, hbranch]

/-- Modes of other sources come into force. -/
theorem Tu.modes_setModes_other {m : Nat} {j : Nat} (l : List Nat) (h : j ∉ l) (t : Tu) :
    ((l.foldl (fun t i => t.traceSetMode i m) t).enc j).modes = (t.enc j).modes :=
  List.foldlRecOn (motive := fun u : Tu => (u.enc j).modes = (t.enc j).modes) _ _ rfl fun u hu i hi => by
    rw [u.modes_traceSetMode, if_neg fun hj : j = i => h (hj ▸ hi)]
    exact hu

theorem Tu.untraced_setModes (m : Nat) (l : List Nat) (t : Tu) :
    (l.foldl (fun t i => t.traceSetMode i m) t).untraced = t.untraced :=
  List.foldlRecOn (motive := fun u : Tu => u.untraced = t.untraced) _ _ rfl fun u hu i _ => (u.untraced_traceSetMode i m).trans hu

/-- R141: the modes that need no place come into force. -/
def Tu.modesFree (t : Tu) : Tu :=
  (List.range 73).foldl (fun t i => if i = 72 ∨ (t.enc i).mode ≠ 2 then t.traceSetMode i (t.enc i).mode else t) t

/-- R141: of a list of sources each that needs no place comes into force, and no TRACE_MODE changes. -/
theorem Tu.modes_modesFree_list (l : List Nat) (t : Tu) (j : Nat) :
    ((l.foldl (fun t i => if i = 72 ∨ (t.enc i).mode ≠ 2 then t.traceSetMode i (t.enc i).mode else t) t).enc j).modes =
      if j ∈ l ∧ (j = 72 ∨ (t.enc j).mode ≠ 2) then ((t.enc j).mode, (t.enc j).mode) else (t.enc j).modes := by
  induction l generalizing t with
  | nil => simp only [List.foldl_nil, List.not_mem_nil, false_and, if_false]
  | cons i l ih =>
    rw [List.foldl_cons, ih]
    by_cases hi : i = 72 ∨ (t.enc i).mode ≠ 2
    · rw [if_pos hi]
      have hmodes := t.modes_traceSetMode i (t.enc i).mode j
      by_cases hj : j = i
      · subst hj
        rw [if_pos rfl] at hmodes
        have hmode : ((t.traceSetMode j (t.enc j).mode).enc j).mode = (t.enc j).mode := congrArg Prod.fst hmodes
        rw [hmodes, hmode, ite_self, if_pos ⟨List.mem_cons_self, hi⟩]
      · rw [if_neg hj] at hmodes
        have hmode : ((t.traceSetMode i (t.enc i).mode).enc j).mode = (t.enc j).mode := congrArg Prod.fst hmodes
        simp only [hmodes, hmode, List.mem_cons, hj, false_or]
    · rw [if_neg hi]
      have hiff : (j ∈ l ∧ (j = 72 ∨ (t.enc j).mode ≠ 2)) ↔ (j ∈ i :: l ∧ (j = 72 ∨ (t.enc j).mode ≠ 2)) := by
        rw [List.mem_cons]
        refine ⟨fun h => ⟨Or.inr h.1, h.2⟩, fun h => ⟨h.1.resolve_left fun hj => hi (hj ▸ h.2), h.2⟩⟩
      simp only [hiff]

theorem Tu.untraced_modesFree (t : Tu) : t.modesFree.untraced = t.untraced :=
  List.foldlRecOn (motive := fun u : Tu => u.untraced = t.untraced) _ _ rfl fun u hu i _ => by
    split
    · exact (u.untraced_traceSetMode i _).trans hu
    · exact hu

/-- R209: a power request touches its requester, the power port and counting objects. -/
theorem Tu.pwr_frame (t : Tu) (id : Nat) (o : PwrOut) : { t.pwr id o with part := t.part, out := t.out } = t := by
  simp only [Tu.pwr]
  refine List.foldlRecOn (motive := fun u : Tu => { u with part := t.part, out := t.out } = t) _ _ ?_ fun u hu c _ => hu
  exact List.foldlRecOn (motive := fun u : Tu => { u with part := t.part, out := t.out } = t) _ _ rfl fun u hu c _ => hu

/-- R141: a source that asks for no place has its mode in force; rings are left alone. -/
theorem Tu.traceApply_spec {t : Tu} {i : Nat} (hi : i < 73) (hplace : i = 72 ∨ (t.enc i).mode ≠ 2) :
    (t.traceApply.enc i).modes = ((t.enc i).mode, (t.enc i).mode) ∧ t.traceApply.rings = t.rings := by
  have hfree : (t.modesFree.enc i).modes = ((t.enc i).mode, (t.enc i).mode) := by
    rw [Tu.modesFree, Tu.modes_modesFree_list, if_pos ⟨List.mem_range.mpr hi, hplace⟩]
  have hmode : (t.modesFree.enc i).mode = (t.enc i).mode := Enc.mode_of_modes hfree
  have hasked : i ∉ t.modesFree.fullAsked := by
    simp only [Tu.fullAsked, List.mem_filter, List.mem_range, beq_iff_eq, hmode]
    omega
  have hlist (l : List Nat) (hl : i ∉ l) :
      ((l.foldl (fun t i => t.traceSetMode i 2) t.modesFree).enc i).modes = ((t.enc i).mode, (t.enc i).mode) ∧
        (l.foldl (fun t i => t.traceSetMode i 2) t.modesFree).rings = t.rings :=
    ⟨(Tu.modes_setModes_other l hl _).trans hfree,
      (congrArg Tu.rings ((Tu.untraced_setModes 2 l t.modesFree).trans t.untraced_modesFree) :)⟩
  have hpwr (u : Tu) (id : Nat) (o : PwrOut) (hu : (u.enc i).modes = ((t.enc i).mode, (t.enc i).mode) ∧ u.rings = t.rings) :
      ((u.pwr id o).enc i).modes = ((t.enc i).mode, (t.enc i).mode) ∧ (u.pwr id o).rings = t.rings :=
    ⟨(congrArg (fun v : Tu => (v.enc i).modes) (u.pwr_frame id o) :).trans hu.1, (congrArg Tu.rings (u.pwr_frame id o) :).trans hu.2⟩
  simp only [Tu.traceApply]
  rw [← Tu.modesFree]
  split
  · exact hpwr _ _ _ (hlist _ hasked)
  · split
    · exact hlist _ hasked
    · refine hpwr _ _ _ (hlist _ fun hmem => hasked ?_)
      exact (List.mem_filter.mp (List.mem_of_mem_take hmem)).1

/-! ### The trace window and its NoC writes (R147, R439) -/

/-- R147: a write of the window's registers while the window has no base and holds nothing. -/
theorem Tu.wrWindow_of_empty {t : Tu} {isSize : Bool} {v : Nat} (hbase : t.win.base = 0) (hrecs : t.win.recs = [])
    (hlegal : (if isSize then !(List.range 11).any (fun k => v == 16777216 * 2 ^ k) else v % 2097152 != 0) = false) :
    t.wrWindow isSize v =
      ({ t with win := if isSize then { t.win with writePtr := 0, drainPtr := 0, size := v }
                       else { t.win with writePtr := 0, drainPtr := 0, base := v, error := false } }, 0) := by
  have hreset : t.windowReset = { t with win := { t.win with writePtr := 0, drainPtr := 0 } } := by
    simp only [Tu.windowReset, hrecs, List.isEmpty_nil, if_true]
  simp only [Tu.wrWindow, hlegal, hbase, beq_self_eq_true, Bool.true_or, Bool.not_true, lowestAbort_cons_false, lowestAbort_nil, ne_eq,
    not_true_eq_false, if_false, hreset]

/-- R439: with every write sent there is none to issue. -/
theorem Tu.nocIssue_of_sent {t : Tu} (h : t.win.noc.all (fun x => x.sent.isSome) = true) : t.nocIssue = t := by
  have hnone : (t.win.noc.filter fun x => x.sent.isNone) = [] := by
    rw [List.filter_eq_nil_iff]
    intro x hx
    rw [Option.isNone_iff_eq_none, ← Option.not_isSome_iff_eq_none, Classical.not_not]
    exact List.all_eq_true.mp h x hx
  have hnoc (n : Nat) : (t.win.noc.zipIdx.map fun xi =>
      if xi.2 < n ∧ xi.1.sent.isNone = true then { xi.1 with sent := some t.part.time.now } else xi.1) = t.win.noc := by
    refine Eq.trans (List.map_congr_left (g := Prod.fst) fun xi hxi => if_neg ?_) (List.zipIdx_map_fst 0 _)
    rintro ⟨-, hi⟩
    have hmem : xi.1 ∈ t.win.noc.filter fun x => x.sent.isNone :=
      List.mem_filter.mpr ⟨List.fst_mem_of_mem_zipIdx hxi, hi⟩
    rw [hnone] at hmem
    exact List.not_mem_nil hmem
  simp only [Tu.nocIssue, hnone, List.take_nil, List.foldl_nil, hnoc]

/-- R147, R439: the answer of the oldest of the writes under way. -/
theorem Tu.nocAnswer_of_good {t : Tu} {w : NocWr} {r : List NocWr} (hnoc : t.win.noc = w :: r)
    (hsent : (w :: r).all (fun x => x.sent.isSome) = true) (hlast : w.last = false) :
    t.nocAnswer false = { t with win := { t.win with noc := r } } := by
  rw [List.all_cons, Bool.and_eq_true] at hsent
  obtain ⟨hw, hr⟩ := hsent
  simp only [Tu.nocAnswer, hnoc, Option.isNone_eq_false_iff.mpr hw, Bool.false_eq_true, if_false, hlast, Bool.or_false]
  exact Tu.nocIssue_of_sent hr

/-- R147, R439: the answer of the oldest of the writes under way is an error. -/
theorem Tu.nocAnswer_of_error {t : Tu} {w : NocWr} {r : List NocWr} (hnoc : t.win.noc = w :: r)
    (hsent : (w :: r).all (fun x => x.sent.isSome) = true) (hlast : w.last = false) :
    (t.nocAnswer true).bare = { t with win := { t.win with noc := r, error := true } }.bare := by
  rw [List.all_cons, Bool.and_eq_true] at hsent
  obtain ⟨hw, hr⟩ := hsent
  simp only [Tu.nocAnswer, hnoc, Option.isNone_eq_false_iff.mpr hw, Bool.false_eq_true, if_false, if_true, hlast, Bool.or_true]
  have hlog := Tu.bare_log (ks := []) { t with win := { t.win with noc := r, error := true } } (event 0x0033 224 0 (w.ofs % 2 ^ 32))
  rw [Tu.nocIssue_of_sent]
  · exact hlog
  · rw [show (Tu.log _ _).win = _ from (congrArg Tu.win hlog :)]
    exact hr

/-- R439: an error answer marks the window, whatever else it sets off. -/
theorem Tu.nocAnswer_error_win {t : Tu} {w : NocWr} {r : List NocWr} (hnoc : t.win.noc = w :: r) (hsent : w.sent.isSome = true) :
    (t.nocAnswer true).win.error = true ∧ (t.nocAnswer true).win.base = t.win.base := by
  have hlog := Tu.untraced_of_bareBut
    (Tu.bare_log (ks := []) { t with win := { t.win with noc := r, error := true } } (event 0x0033 224 0 (w.ofs % 2 ^ 32)))
  have hframe : (t.nocAnswer true).untraced = { t with win := { t.win with noc := r, error := true } }.untraced := by
    simp only [Tu.nocAnswer, hnoc, Option.isNone_eq_false_iff.mpr hsent, Bool.false_eq_true, if_false, if_true, Bool.or_true]
    refine (Tu.untraced_of_traceForm (Tu.traceForm_nocIssue _)).trans (Eq.trans ?_ hlog)
    split
    · split
      · exact (Tu.untraced_of_traceForm (Tu.traceForm_traceDue _ _ _)).trans (Tu.untraced_setEnc _ _ _)
      · exact Tu.untraced_setEnc _ _ _
    · rfl
  exact ⟨(congrArg (fun u : Tu => u.win.error) hframe :), (congrArg (fun u : Tu => u.win.base) hframe :)⟩

end Sys2Proof.Machine

namespace Sys2Proof

open Machine

/-- Settles O14: a source that is caught up writes the beat's own packet, and writing packets leaves the settings of the
encoders. -/
theorem traceBeats : Obligations.TraceBeats := by
  unfold Obligations.TraceBeats
  refine ⟨?cond, ?indirect, ?progress, ?powerNotice, ?wake, ?dpcRise, ?dpcFall, ?flush⟩
  case cond =>
    intro s dt p i b hlost hn hdown hmode _ hdue hloss hroom hsync
    exact tuNext_of_onTu rfl (Tu.traceCond_of_full (t := (s.tu p).tick dt) p hlost hn hdown hmode hdue hloss hroom hsync)
  case indirect =>
    intro s dt p i b c hlost hdown hmode haddr hdue hloss houts hts hsync hcur hroom
    obtain ⟨x, hx, hopen⟩ := Tu.traceIndirect_of_open (t := (s.tu p).tick dt) p hlost hdown hmode haddr hdue hloss houts hts hsync
      hcur hroom
    refine tuNext_of_onTu rfl ?_
    rw [hx, Tu.enc_setEnc_self]
    exact ⟨hopen, rfl, rfl, rfl⟩
  case progress =>
    intro s dt p i b hlost hdown hdue hloss
    refine tuNext_of_onTu rfl ?_
    have hdown : (((s.tu p).tick dt).enc i.val).down = none := hdown
    have henc := ((s.tu p).tick dt).enc_setEnc_self i.val { (s.tu p).enc i.val with addr := some (beatAddr i.val b) }
    simp only [Tu.traceProgress, Tu.beatStart, hlost, hdown, Option.isSome_none, Bool.false_eq_true, if_false]
    exact Tu.traceDue_of_caught_up _ ((congrArg Enc.due henc).trans hdue) ((congrArg Enc.lost henc).trans hloss)
  case powerNotice =>
    intro s dt p i b hlost hstate hdown hmode haddr hdue hloss
    refine tuNext_of_onTu rfl ?_
    have hdown : (((s.tu p).tick dt).enc i.val).down = none := hdown
    have hdue : (((s.tu p).tick dt).enc i.val).due = none := hdue
    have hloss : (((s.tu p).tick dt).enc i.val).lost = none := hloss
    simp only [Tu.tracePwr, if_neg hstate, Tu.beatStart, hlost, hdown, Enc.absorbs, hdue, hloss, Option.isSome_none, Bool.or_self,
      Bool.and_false, Bool.false_eq_true, if_false]
    exact Tu.enc_traceDown_of_known (t := (s.tu p).tick dt) _ _ hmode haddr
  case wake =>
    intro s dt p i b hlost hdown
    refine tuNext_of_onTu rfl ?_
    have hdown : (((s.tu p).tick dt).enc i.val).down ≠ none := hdown
    obtain ⟨hup, haddr, hframe⟩ := Tu.enc_traceUp (some (beatAddr i.val b)) hdown
    simp only [Tu.traceWakeBeat, Tu.beatStart, hlost, Bool.false_eq_true, if_false, Option.isSome_iff_ne_none.mpr hdown, if_true]
    exact ⟨hup, haddr, (congrArg Tu.dpcDown hframe :)⟩
  case dpcRise =>
    intro s dt p i hi hnew hdown
    refine tuNext_of_onTu rfl ?_
    have hnew : ((s.tu p).tick dt).dpcDown.contains i.val = false := (List.contains_eq_mem _ _).trans (decide_eq_false hnew)
    have hdown : (({ (s.tu p).tick dt with dpcDown := ((s.tu p).tick dt).dpcDown ++ [i.val] } : Tu).enc i.val).down = none := hdown
    obtain ⟨haddr, hstate⟩ := Tu.enc_traceDown { (s.tu p).tick dt with dpcDown := ((s.tu p).tick dt).dpcDown ++ [i.val] } i.val 0 true
    simp only [Tu.dpcRise, hnew, Bool.false_eq_true, if_false, show i.val ≠ 73 by omega, hdown, Option.isSome_none]
    exact ⟨(congrArg Tu.dpcDown (Tu.untraced_traceDown _ i.val 0 true) :), haddr, hstate⟩
  case dpcFall =>
    intro s dt p i hi hmem
    refine tuNext_of_onTu rfl ?_
    have hmem : ((s.tu p).tick dt).dpcDown.contains i.val = true := List.contains_iff_mem.mpr hmem
    simp only [Tu.dpcFall, hmem, if_true, show i.val ≠ 73 by omega, if_false]
    by_cases hdown : (({ (s.tu p).tick dt with dpcDown := ((s.tu p).tick dt).dpcDown.filter (· != i.val) } : Tu).enc i.val).down =
        none
    · rw [Tu.traceUp, hdown]
      exact ⟨rfl, hdown⟩
    · obtain ⟨hup, -, hframe⟩ := Tu.enc_traceUp none hdown
      exact ⟨(congrArg Tu.dpcDown hframe :), hup⟩
  case flush =>
    intro s dt p i c hcur hdue
    refine tuNext_of_onTu rfl ?_
    have hcur : (((s.tu p).tick dt).enc i.val).cur = some c := hcur
    have hdue : c.opened + 1000 * ((s.tu p).tick dt).rd 0x2760 5 ≤ ((s.tu p).tick dt).ns := hdue
    have hframe := Tu.untraced_of_traceForm (((s.tu p).tick dt).traceForm_traceClose i.val)
    simp only [Tu.traceFlush, hcur, if_pos hdue]
    exact ⟨Tu.enc_traceClose_cur _ _, (congrArg Tu.rings hframe :), (congrArg Tu.frz hframe :)⟩

/-- Settles O15: a mode that asks for no place comes into force at its own source, and the writes of the window and the answers
of the NoC have one case each. -/
theorem traceRegisters : Obligations.TraceRegisters := by
  unfold Obligations.TraceRegisters
  refine ⟨?mode, ?interval, ?base, ?size, ?good, ?error, ?timeout⟩
  case mode =>
    intro s dt p lvl i v hlvl hv hplace
    refine tuNext_of_onTu rfl ?_
    have henc := ((s.tu p).tick dt).enc_setEnc_self i.val { ((s.tu p).tick dt).enc i.val with mode := v.toNat }
    have hmode := congrArg Enc.mode henc
    obtain ⟨hmodes, hrings⟩ := Tu.traceApply_spec
      (t := ((s.tu p).tick dt).setEnc i.val { ((s.tu p).tick dt).enc i.val with mode := v.toNat }) i.isLt (by rwa [hmode])
    rw [hmode] at hmodes
    have hwr : ((s.tu p).tick dt).wrTraceMode i.val v.toNat =
        ((((s.tu p).tick dt).setEnc i.val { ((s.tu p).tick dt).enc i.val with mode := v.toNat }).traceApply, 0) :=
      if_neg (Nat.not_lt.mpr hv)
    rw [hwr, Tu.reply_accepted hlvl]
    generalize (((s.tu p).tick dt).setEnc i.val { ((s.tu p).tick dt).enc i.val with mode := v.toNat }).traceApply = u at hmodes hrings ⊢
    exact ⟨Enc.mode_of_modes hmodes, Enc.inForce_of_modes hmodes, rfl, hrings⟩
  case interval =>
    intro s dt p lvl i v hlvl hv
    refine tuNext_of_onTu rfl ?_
    have hwr : ((s.tu p).tick dt).wrTsInterval i.val v.toNat =
        (((s.tu p).tick dt).setEnc i.val { (s.tu p).enc i.val with tsInt := v.toNat }, 0) := if_pos hv
    rw [hwr, Tu.reply_accepted hlvl]
  case base =>
    intro s dt p lvl v hlvl hv hbase hrecs
    refine tuNext_of_onTu rfl ?_
    rw [Tu.wrWindow_of_empty (t := (s.tu p).tick dt) hbase hrecs (by rw [if_neg Bool.false_ne_true, hv]; rfl)]
    exact Tu.reply_accepted hlvl
  case size =>
    intro s dt p lvl v k hlvl hv hbase hrecs
    refine tuNext_of_onTu rfl ?_
    have hlegal : ((List.range 11).any fun j => v.toNat == 16777216 * 2 ^ j) = true :=
      List.any_eq_true.mpr ⟨k.val, List.mem_range.mpr k.isLt, beq_iff_eq.mpr hv⟩
    rw [Tu.wrWindow_of_empty (t := (s.tu p).tick dt) hbase hrecs (by rw [if_pos rfl, hlegal]; rfl)]
    exact Tu.reply_accepted hlvl
  case good =>
    intro s dt p w r hnoc hsent hlast
    exact tuNext_of_onTu rfl (Tu.nocAnswer_of_good (t := (s.tu p).tick dt) hnoc hsent hlast)
  case error =>
    intro s dt p w r hnoc hsent hlast
    have hbare := Tu.nocAnswer_of_error (t := (s.tu p).tick dt) hnoc hsent hlast
    exact tuNext_of_onTu rfl ⟨(congrArg Tu.win hbare :), hbare⟩
  case timeout =>
    intro s dt p w r at' hnoc hsent hdue
    refine tuNext_of_onTu rfl ?_
    have hnoc : ((s.tu p).tick dt).win.noc = w :: r := hnoc
    simp only [Tu.nocTimeout, hnoc, List.head?_cons, Option.bind_some, hsent, if_pos hdue]
    exact Tu.nocAnswer_error_win hnoc (by rw [hsent]; rfl)

end Sys2Proof
end

section
/-! SUPPORT. Last-events rings (R151 to R157): writes of entries, freezing, resuming and the readout. -/

namespace Sys2Proof.Machine

/-! ### Entries of a ring (R151, R152) -/

theorem getLast?_lastN {α : Type} {n : Nat} (l : List α) (a : α) (h : 1 ≤ n) : (lastN n (l ++ [a])).getLast? = some a := by
  rw [lastN, List.getLast?_drop, List.length_append, List.length_singleton, if_neg (by omega), List.getLast?_concat]

/-- R151: ring `k` with an entry written into it at the time `now`, stamped `ts`. -/
def Ring.write (r : Ring) (k ts now code arg16 arg64 : Nat) : Ring :=
  { r with
    ents := lastN (ringDepth k) (r.ents ++ [ringEntry ts code r.gap arg16 arg64])
    lastWr := some now
    gap := false
    gaps := if r.gap then min (r.gaps + 1) 0xFFFFFFFF else r.gaps }

theorem Tu.ringWrite_eq (t : Tu) (k code a b : Nat) :
    t.ringWrite k code a b = t.setRing k ((t.ring k).write k t.ts t.part.time.now code a b) := rfl

theorem Ring.getLast?_write (r : Ring) (k ts now code a b : Nat) :
    (r.write k ts now code a b).ents.getLast? = some (ringEntry ts code r.gap a b) := by
  refine getLast?_lastN _ _ ?_
  simp only [ringDepth]
  split
  · decide
  · split
    · decide
    · split <;> decide

theorem Tu.ring_setRing_self (t : Tu) (k : Nat) (r : Ring) : (t.setRing k r).ring k = r := tget_tset_self _ _ _ _

theorem Tu.ring_setRing_other (t : Tu) {j k : Nat} (r : Ring) (h : j ≠ k) : (t.setRing k r).ring j = t.ring j :=
  tget_tset_other _ _ _ h

/-! ### Beats of a tile's ring (R151 to R154) -/

theorem Tu.ringTake_of_frozen {t : Tu} {k : Nat} {b : RingBeat} (h : t.frz.frozen ≠ none) :
    t.ringTake k b = (t.setRing k { t.ring k with post := min ((t.ring k).post + 1) 0xFFFFFFFF }, false) := by
  simp only [Tu.ringTake, Option.isSome_iff_ne_none.mpr h, if_true]

/-- R151: an entry more than the ring's write time after the last one is written. -/
theorem Tu.ringTake_of_idle {t : Tu} {k : Nat} {b : RingBeat} (hrun : t.frz.frozen = none)
    (hidle : (t.ring k).lastWr.getD 0 + 4 * 65536 ≤ t.part.time.now) :
    t.ringTake k b = (t.ringWrite k b.code.toNat b.arg16.toNat b.arg64.toNat, true) := by
  have hbusy : (match (t.ring k).lastWr with
      | some a => decide (a ≤ t.part.time.now) && decide (t.part.time.now < a + 4 * 65536)
      | none => false) = false := by
    cases hw : (t.ring k).lastWr with
    | none => rfl
    | some a =>
      rw [hw, Option.getD_some] at hidle
      exact Bool.and_eq_false_iff.mpr (Or.inr (decide_eq_false (Nat.not_lt.mpr hidle)))
  simp only [Tu.ringTake, hrun, Option.isSome_none, Bool.false_eq_true, if_false]
  exact if_neg (Bool.eq_false_iff.mp hbusy)

/-- R153: codes of a tile's ring are neither those of the egress nor the completion of a descriptor. -/
theorem Tu.ringBeat_tile {t : Tu} {k : Nat} {b : RingBeat} (hk : k < 72) (hcode : ringCodeOk k b.code.toNat = true)
    (hlost : b.lost = false) (hstop : b.code.toNat ≠ 0x0B ∨ (t.ringTake k b).2 = false) : t.ringBeat k b = (t.ringTake k b).1 := by
  have hc : b.code.toNat ≤ 0x0C := by
    simp only [ringCodeOk, hk, if_true, Bool.and_eq_true, decide_eq_true_eq] at hcode
    exact hcode.2
  have hstop : ¬((b.code.toNat = 0x0B ∨ b.code.toNat = 0x29) ∧ (t.ringTake k b).2 = true ∧ t.part.flag 0x2770 9 = true) := by
    rintro ⟨hend, htaken, -⟩
    rcases hstop with h | h
    · omega
    · exact Bool.false_ne_true (h.symm.trans htaken)
  have hfabric : ¬(73 ≤ k ∧ k < 97 ∧ (b.code.toNat = 0x40 ∨ b.code.toNat = 0x41)) := by omega
  have hdone : ¬b.code.toNat = 0x23 := by omega
  simp only [Tu.ringBeat, hlost, Bool.false_eq_true, if_false, hcode, Bool.not_true, hfabric, hdone]
  exact if_neg fun h => hstop ⟨h.1, h.2.1, by
    have hpart : (t.ringTake k b).1.part = t.part := by
      simp only [Tu.ringTake]
      split
      · rfl
      · split <;> split <;> rfl
    rw [← hpart]
    exact h.2.2⟩

/-! ### Freezing and resuming (R154, R155) -/

theorem Tu.untraced_flush (t : Tu) (cause : Nat) : (t.flush cause).untraced = t.untraced := by
  have hlog (u : Tu) (e : Event) : (u.log e).untraced = u.untraced := Tu.untraced_of_bareBut (ks := []) (Tu.bare_log u e)
  simp only [Tu.flush]
  split
  · rfl
  · refine (hlog _ _).trans ?_
    split <;> rfl

/-- R154: a freeze of running rings, and what it leaves. -/
theorem Tu.freezeRings_of_running {t : Tu} (cause at' : Nat) (h : t.frz.frozen = none) :
    (t.freezeRings cause at').frz.frozen = some (cause, ts64Of at') ∧
      (t.freezeRings cause at').frz.awaiting = t.frz.awaiting ∧ (t.freezeRings cause at').mace = t.mace := by
  have hfrozen : (t.bump 0x2770 0x0B 1).frz.frozen = none := h
  have hstop (u v : Tu) (huv : u.untraced = v.untraced) (hv : v.frz.frozen = some (cause, ts64Of at') ∧
      v.frz.awaiting = t.frz.awaiting ∧ v.mace = t.mace) :
      u.frz.frozen = some (cause, ts64Of at') ∧ u.frz.awaiting = t.frz.awaiting ∧ u.mace = t.mace := by
    obtain ⟨hf, ha, hm⟩ := hv
    exact ⟨(congrArg (fun w : Tu => w.frz.frozen) huv :).trans hf, (congrArg (fun w : Tu => w.frz.awaiting) huv :).trans ha,
      (congrArg Tu.mace huv :).trans hm⟩
  have hclosed (u : Tu) : (u.traceFreeze at').sumacClose.untraced = u.untraced :=
    Tu.untraced_of_traceForm ((Tu.traceForm_sumacClose _).trans (Tu.traceForm_traceFreeze _ _))
  simp only [Tu.freezeRings, hfrozen, Option.isSome_none, Bool.false_eq_true, if_false]
  split
  · exact hstop _ _ ((Tu.untraced_flush _ _).trans (hclosed _)) ⟨rfl, rfl, rfl⟩
  · exact hstop _ _ (hclosed _) ⟨rfl, rfl, rfl⟩

/-- R154: a further trigger is only counted. -/
theorem Tu.freezeRings_of_frozen {t : Tu} (cause at' : Nat) (h : t.frz.frozen ≠ none) :
    t.freezeRings cause at' = t.bump 0x2770 0x0B 1 := if_pos (Option.isSome_iff_ne_none.mpr h)

/-- R155: of a list of rings each gets one RESUME entry. -/
theorem Tu.ring_resumed {k : Nat} (l : List Nat) (hl : l.Nodup) (t : Tu) :
    (l.foldl (fun t k => t.ringWrite k 0x7D 0 (t.ring k).post) t).ring k =
      if k ∈ l then (t.ring k).write k t.ts t.part.time.now 0x7D 0 (t.ring k).post else t.ring k := by
  induction l generalizing t with
  | nil => simp only [List.foldl_nil, List.not_mem_nil, if_false]
  | cons j l ih =>
    obtain ⟨hj, hl⟩ := List.nodup_cons.mp hl
    rw [List.foldl_cons, ih hl, Tu.ringWrite_eq]
    by_cases hk : k = j
    · subst hk
      rw [if_neg hj, if_pos List.mem_cons_self, Tu.ring_setRing_self]
    · rw [Tu.ring_setRing_other _ _ hk]
      simp only [List.mem_cons, hk, false_or]
      rfl

theorem Tu.resumed_frame (l : List Nat) (t : Tu) :
    { l.foldl (fun t k => t.ringWrite k 0x7D 0 (t.ring k).post) t with rings := t.rings } = t :=
  List.foldlRecOn (motive := fun u : Tu => { u with rings := t.rings } = t) _ _ rfl fun _ hu _ _ => hu

theorem Tu.wrResume_of_frozen {t : Tu} {c f : Nat} (h : t.frz.frozen = some (c, f)) (hc : c ≠ 5) :
    t.wrResume 1 = (t.resumeRings, 0) := by
  simp only [Tu.wrResume, Nat.lt_irrefl, if_false, if_true, h, if_neg hc]

theorem Tu.resumeRings_of_frozen {t : Tu} (h : t.frz.frozen ≠ none) :
    t.resumeRings.frz = { t.frz with frozen := none, readout := [], progress := t.ns } ∧
      (∀ k, k < 101 → t.resumeRings.ring k = (t.ring k).write k t.ts t.part.time.now 0x7D 0 (t.ring k).post) ∧
      { t.resumeRings with rings := t.rings, frz := t.frz } = t := by
  have hframe := t.resumed_frame (List.range 101)
  have hring := fun k (hk : k < 101) => (Tu.ring_resumed _ List.nodup_range t).trans (if_pos (List.mem_range.mpr hk))
  simp only [Tu.resumeRings, Option.isNone_eq_false_iff.mpr (Option.isSome_iff_ne_none.mpr h), Bool.false_eq_true, if_false]
  generalize (List.range 101).foldl (fun t k => t.ringWrite k 0x7D 0 (t.ring k).post) t = u at hframe hring ⊢
  exact ⟨(congrArg (fun u : Tu => { u.frz with frozen := none, readout := [], progress := u.ns }) hframe :), hring,
    (congrArg (fun u : Tu => { u with frz := t.frz }) hframe :)⟩

/-! ### Readout (R156, R157) -/

theorem Tu.readoutStep_of_admitted {t : Tu} {k n : Nat} {r : List (Nat × Nat)} (hlist : t.frz.readout = (k, n) :: r)
    (hfits : (t.charge 4 (40000 + 1500 * (t.ring k).ents.length) true).2 = 0) :
    t.readoutStep.untraced = { t with frz := { t.frz with readout := r } }.untraced := by
  have hbare (rs : List Rec) : ((t.charge 4 (40000 + 1500 * (t.ring k).ents.length) true).1.admitAll rs).1.bare = t.bare :=
    (Tu.bare_admitAll _ rs).trans (Tu.bare_charge t 4 _ true (by decide))
  simp only [Tu.readoutStep, hlist, hfits, if_true]
  refine (Tu.untraced_of_traceForm (Tu.traceForm_sumacFeed _)).trans ((Tu.untraced_of_bareBut (ks := []) (Tu.bare_internal _ _ _)).trans ?_)
  exact (congrArg (fun b : Tu => ({ b with frz := { b.frz with readout := r } } : Tu).untraced) (hbare (t.ringChain k)) :)

theorem Tu.readoutStep_of_refused {t : Tu} {k n : Nat} {r : List (Nat × Nat)} (hlist : t.frz.readout = (k, n) :: r)
    (hfull : (t.charge 4 (40000 + 1500 * (t.ring k).ents.length) true).2 ≠ 0) :
    t.readoutStep.untraced = { t with frz := { t.frz with readout := if n < 2 then r ++ [(k, n + 1)] else r } }.untraced := by
  have hbare : (t.charge 4 (40000 + 1500 * (t.ring k).ents.length) true).1.bare = t.bare := Tu.bare_charge t 4 _ true (by decide)
  have hlost (u : Tu) (rs : List Rec) (c a b : Nat) :
      ((((u.lose 4 c rs).bump 0x2770 0x0A 1).internal 0x344 a).internal 0x34C b).untraced = u.untraced :=
    Tu.untraced_of_bareBut (ks := [objKey 0x2770 0x0A]) ((Tu.bare_internal _ _ _).trans ((Tu.bare_internal _ _ _).trans
      ((Tu.bare_bump_hidden _ _ _ _ (by decide)).trans (Tu.bare_lose _ _ _ _))))
  simp only [Tu.readoutStep, hlist, if_neg hfull]
  refine (hlost _ _ _ _ _).trans ?_
  exact (congrArg (fun b : Tu => ({ b with frz := { b.frz with readout := if n < 2 then r ++ [(k, n + 1)] else r } } : Tu).untraced)
    hbare :)

end Sys2Proof.Machine

namespace Sys2Proof

open Machine

/-- Settles O16: rings are written one at a time, and freezing leaves all but the rings and what tracing touches. -/
theorem ringCommands : Obligations.RingCommands := by
  unfold Obligations.RingCommands
  refine ⟨?beat, ?frozenBeat, ?tick, ?watchdog, ?counted, ?progress, ?written, ?resume, ?readout, ?again⟩
  case beat =>
    intro s dt p k b hk hcode hend hlost hrun hidle
    have htake := Tu.ringTake_of_idle (t := (s.tu p).tick dt) (k := k.val) (b := b) hrun hidle
    refine tuNext_of_onTu rfl ?_
    rw [Tu.ringBeat_tile hk hcode hlost (Or.inl hend), htake, Tu.ringWrite_eq, Ring.write, ringDepth, if_pos hk]
  case frozenBeat =>
    intro s dt p k b hk hcode hlost hfrozen
    have htake := Tu.ringTake_of_frozen (t := (s.tu p).tick dt) (k := k.val) (b := b) hfrozen
    refine tuNext_of_onTu rfl ?_
    rw [Tu.ringBeat_tile hk hcode hlost (Or.inr (congrArg Prod.snd htake)), htake]
    rfl
  case tick =>
    intro s dt p k hrun hidle
    refine tuNext_of_onTu rfl ?_
    have hdue : (((s.tu p).tick dt).frz.frozen.isNone && decide ((((s.tu p).tick dt).ring k.val).lastWr.getD 0 + 2 ^ 39 * 65536 ≤
        ((s.tu p).tick dt).part.time.now)) = true := by
      rw [Bool.and_eq_true]
      exact ⟨Option.isNone_iff_eq_none.mpr hrun, decide_eq_true hidle⟩
    exact if_pos hdue
  case watchdog =>
    intro s dt p hen hrun
    refine tuNext_of_onTu rfl ?_
    rw [if_pos (show ((s.tu p).tick dt).part.flag 0x2770 8 = true from hen)]
    exact Tu.freezeRings_of_running (t := (s.tu p).tick dt) 1 _ hrun
  case counted =>
    intro s dt p hen hfrozen
    refine tuNext_of_onTu rfl ?_
    rw [if_pos (show ((s.tu p).tick dt).part.flag 0x2770 8 = true from hen)]
    exact Tu.freezeRings_of_frozen (t := (s.tu p).tick dt) 1 _ hfrozen
  case progress =>
    intro s dt p hen hwait hdue hrun
    refine tuNext_of_onTu rfl ?_
    have hstep : ((s.tu p).tick dt).progressTimeout = ((s.tu p).tick dt).freezeRings 2 ((s.tu p).tick dt).ns :=
      if_pos ⟨hen, hwait, hdue⟩
    rw [hstep]
    exact (Tu.freezeRings_of_running (t := (s.tu p).tick dt) 2 _ hrun).1
  case written =>
    intro s dt p lvl hlvl hrun
    refine tuNext_of_onTu rfl ?_
    have hwr : ((s.tu p).tick dt).wrFreeze (1 : Byte).toNat = (((s.tu p).tick dt).freezeRings 3 ((s.tu p).tick dt).ns, 0) := rfl
    rw [hwr, Tu.reply_accepted hlvl]
    exact ⟨(Tu.freezeRings_of_running (t := (s.tu p).tick dt) 3 _ hrun).1, rfl⟩
  case resume =>
    intro s dt p lvl c f k hlvl hfrozen hc
    refine tuNext_of_onTu rfl ?_
    have hfrozen : ((s.tu p).tick dt).frz.frozen = some (c, f) := hfrozen
    obtain ⟨hfrz, hring, hrest⟩ := Tu.resumeRings_of_frozen (t := (s.tu p).tick dt) (by rw [hfrozen]; exact Option.some_ne_none _)
    have hone : (1 : Byte).toNat = 1 := rfl
    rw [hone, Tu.wrResume_of_frozen hfrozen hc, Tu.reply_accepted hlvl]
    refine ⟨hfrz, ?_, (congrArg (fun u : Tu => u.emit (.answer 0)) hrest :)⟩
    exact (congrArg (fun r => r.ents.getLast?) (hring k.val k.isLt)).trans (Ring.getLast?_write _ _ _ _ _ _ _)
  case readout =>
    intro s dt p k n r hlist hfits
    have hframe := Tu.readoutStep_of_admitted (t := (s.tu p).tick dt) hlist hfits
    exact tuNext_of_onTu rfl ⟨(congrArg Tu.frz hframe :), (congrArg Tu.rings hframe :)⟩
  case again =>
    intro s dt p k n r hlist hfull
    have hframe := Tu.readoutStep_of_refused (t := (s.tu p).tick dt) hlist hfull
    exact tuNext_of_onTu rfl ⟨(congrArg Tu.frz hframe :), (congrArg Tu.rings hframe :)⟩

end Sys2Proof
end

section
/-! SUPPORT. Mace (R159 to R187): check records and lanes, verdicts, taint notices, the die's watermark and shadow runs. -/

namespace Sys2Proof.Machine

/-! ### The TU's own work sends nothing -/

theorem Tu.out_markFull (t : Tu) (a : Nat) : (t.markFull a).out = t.out := by
  simp only [Tu.markFull]
  split <;> split <;> rfl

theorem Tu.out_charge (t : Tu) (a cost : Nat) (fits : Bool) : (t.charge a cost fits).1.out = t.out := by
  simp only [Tu.charge]
  split
  · rfl
  · split
    · refine (Tu.out_markFull _ _).trans ?_
      split <;> rfl
    · split
      · exact Tu.out_markFull _ _
      · split
        · rfl
        · split <;> rfl

theorem Tu.out_admitAll (t : Tu) (rs : List Rec) : (t.admitAll rs).1.out = t.out := by
  induction rs generalizing t with
  | nil => rfl
  | cons r rest ih => exact ih _

theorem Tu.out_offerRaw (t : Tu) (a req cost : Nat) (rs : List Rec) : (t.offerRaw a req cost rs).1.out = t.out := by
  simp only [Tu.offerRaw]
  split
  · exact (Tu.out_admitAll _ _).trans (t.out_charge a cost _)
  · exact t.out_charge a cost _

theorem Tu.out_internal (t : Tu) (src n : Nat) : (t.internal src n).out = t.out := by
  simp only [Tu.internal]
  split
  · rfl
  · refine List.foldlRecOn (motive := fun u : Tu => u.out = t.out) _ _ rfl fun u hu e _ => Eq.trans ?_ hu
    simp only [Tu.putCnt]
    split
    · exact Tu.out_offerRaw _ _ _ _ _
    · rfl

/-- What a budget answers depends on the budgets alone. -/
theorem Tu.charge_snd_congr {t u : Tu} (hexp : t.exp = u.exp) (hdisc : t.discovered = u.discovered) (a cost : Nat) (fits : Bool) :
    (t.charge a cost fits).2 = (u.charge a cost fits).2 := by
  have hratio : t.ratio a = u.ratio a := by rw [Tu.ratio, Tu.ratio, hexp]
  have hbudget : t.budget a = u.budget a := by rw [Tu.budget, Tu.budget, hexp]
  have hused : t.used a = u.used a := by rw [Tu.used, Tu.used, hexp]
  simp only [Tu.charge, hdisc, hratio, hbudget, hused]
  split
  · rfl
  · split
    · rfl
    · split
      · rfl
      · split
        · rfl
        · split <;> rfl

theorem Tu.mace_of_bareBut {t u : Tu} {ks : List Nat} (h : t.bareBut ks = u.bareBut ks) : t.mace = u.mace :=
  (congrArg Tu.mace h :)

theorem Tu.mace_log (t : Tu) (e : Event) : (t.log e).mace = t.mace := Tu.mace_of_bareBut (ks := []) (t.bare_log e)

/-! ### Lanes (R165, R166) -/

theorem Mace.lane_setLane_self (m : Mace) (k : Nat) (l : MLane) : (m.setLane k l).lane k = l := tget_tset_self _ _ _ _

theorem Mace.lane_setLane_other (m : Mace) {j k : Nat} (l : MLane) (h : j ≠ k) : (m.setLane k l).lane j = m.lane j :=
  tget_tset_other _ _ _ h

/-- R165: a lane takes the record that has waited longest. -/
def Mace.fillLane (m : Mace) (k : Nat) : Mace :=
  match m.intake with
  | [] => m
  | c :: r =>
    if (m.lane k).inService && (m.lane k).held.isNone then { m.setLane k { m.lane k with held := some c } with intake := r } else m

theorem Mace.fill_eq (m : Mace) : m.fill = (List.range 9).foldl Mace.fillLane m := rfl

theorem Mace.fillLane_of_empty {m : Mace} (h : m.intake = []) (k : Nat) : m.fillLane k = m := by
  simp only [Mace.fillLane, h]

theorem Mace.fillLanes_of_empty {m : Mace} (h : m.intake = []) (l : List Nat) : l.foldl Mace.fillLane m = m := by
  induction l with
  | nil => rfl
  | cons k l ih => rw [List.foldl_cons, Mace.fillLane_of_empty h, ih]

theorem Mace.fill_of_busy {m : Mace} (h : ((List.range 9).all fun k => !(m.lane k).inService || (m.lane k).held.isSome) = true) :
    m.fill = m := by
  rw [Mace.fill_eq]
  refine List.foldlRecOn (motive := fun u : Mace => u = m) _ _ rfl fun u hu k hk => ?_
  subst hu
  have hbusy := List.all_eq_true.mp h k hk
  rw [Mace.fillLane]
  split
  · rfl
  · refine if_neg fun hfree => ?_
    rw [Bool.and_eq_true] at hfree
    obtain ⟨hin, hheld⟩ := hfree
    rw [hin, Option.isNone_iff_eq_none.mp hheld] at hbusy
    exact Bool.false_ne_true hbusy

/-- R165: a record goes to the lowest lane when that is free. -/
theorem Mace.fill_of_free {m : Mace} {c : Chk} (hintake : m.intake = [c]) (hin : (m.lane 0).inService = true)
    (hheld : (m.lane 0).held = none) : m.fill = { m.setLane 0 { m.lane 0 with held := some c } with intake := [] } := by
  have hfirst : m.fillLane 0 = { m.setLane 0 { m.lane 0 with held := some c } with intake := [] } := by
    simp only [Mace.fillLane, hintake, hin, hheld, Option.isNone_none, Bool.and_self, if_true]
  rw [Mace.fill_eq, List.range_succ_eq_map, List.foldl_cons, hfirst]
  exact Mace.fillLanes_of_empty rfl _

theorem Tu.maceSpare_of_waiting {t : Tu} (h : t.mace.intake ≠ []) : t.maceSpare = t := by
  simp only [Tu.maceSpare, List.isEmpty_eq_false_iff.mpr h, Bool.false_and, Bool.false_eq_true, if_false]

theorem Tu.maceSpare_of_served {t : Tu} (h : 8 ≤ t.mace.inService) : t.maceSpare = t := by
  simp only [Tu.maceSpare, decide_eq_false (Nat.not_lt.mpr h), Bool.and_false, Bool.false_eq_true, if_false]

/-- R166: the spare lane enters service in a place of its own. -/
theorem Tu.maceSpare_keeps_lane {t : Tu} {k : Nat} (h : (t.mace.lane k).inService = true ∨ (t.mace.lane k).retired = true) :
    t.maceSpare.mace.lane k = t.mace.lane k ∧ t.maceSpare.mace.intake = t.mace.intake := by
  have hlog (j : Nat) (l : MLane) (e : Event) (hj : k ≠ j) :
      ((({ t with mace := t.mace.setLane j l }).bump 0x2D00 5 1).log e).mace.lane k = t.mace.lane k ∧
        ((({ t with mace := t.mace.setLane j l }).bump 0x2D00 5 1).log e).mace.intake = t.mace.intake := by
    rw [Tu.mace_log]
    exact ⟨Mace.lane_setLane_other _ _ hj, rfl⟩
  simp only [Tu.maceSpare]
  split
  · split
    next j hfind =>
      refine hlog j _ _ fun hj => ?_
      have hout := List.find?_some hfind
      subst hj
      rcases h with h | h <;> simp only [h, Bool.not_true, Bool.false_and, Bool.and_false, Bool.false_eq_true] at hout
    next => exact ⟨rfl, rfl⟩
  · exact ⟨rfl, rfl⟩

/-! ### Arrival of a check record (R159, R165) -/

/-- R159: the TU that has taken down the sequence of a record. -/
def Tu.noted (t : Tu) (tile : Nat) (c : Chk) : Tu :=
  if c.lateChk then { t with mace := { t.mace with lastSeq := tset t.mace.lastSeq tile c.seq } }.bump 0x2910 0x12 1
  else { t with mace := { t.mace with lastSeq := tset t.mace.lastSeq tile c.seq } }

theorem Tu.noted_mace (t : Tu) (tile : Nat) (c : Chk) :
    (t.noted tile c).mace = { t.mace with lastSeq := tset t.mace.lastSeq tile c.seq } := by
  simp only [Tu.noted]
  split <;> rfl

theorem Tu.checkRecord_of_admitted {t : Tu} {tile : Nat} {r : CheckRec} (hen : t.part.flag 0x2900 1 = true)
    (hbuf : r.bufFull = false) (hfits : (t.charge 3 25000 (decide (t.mace.intake.length < 64))).2 = 0) :
    ∃ u : Tu, u.mace = { t.mace with
        lastSeq := tset t.mace.lastSeq tile (t.chkOf tile r.words).seq
        intake := t.mace.intake ++ [t.chkOf tile r.words] } ∧
      t.checkRecord tile r = u.maceFill := by
  have hmace := t.noted_mace tile (t.chkOf tile r.words)
  have hexp : (t.noted tile (t.chkOf tile r.words)).exp = t.exp := by
    simp only [Tu.noted]
    split <;> rfl
  have hdisc : (t.noted tile (t.chkOf tile r.words)).discovered = t.discovered := by
    simp only [Tu.noted]
    split <;> rfl
  have hflag : (t.noted tile (t.chkOf tile r.words)).part.flag 0x2900 1 = true := by
    simp only [Tu.noted]
    split
    · exact (congrArg (· == 1) (Part.rd_bump_other _ _ (by decide))).trans hen
    · exact hen
  have hlen : (t.noted tile (t.chkOf tile r.words)).mace.intake = t.mace.intake := by rw [hmace]
  have hfits : ((t.noted tile (t.chkOf tile r.words)).charge 3 25000
      (decide ((t.noted tile (t.chkOf tile r.words)).mace.intake.length < 64))).2 = 0 := by
    rw [hlen, Tu.charge_snd_congr hexp hdisc]
    exact hfits
  simp only [Tu.checkRecord]
  rw [← Tu.noted]
  generalize t.noted tile (t.chkOf tile r.words) = u at *
  have hbare : ((u.charge 3 25000 (decide (u.mace.intake.length < 64))).1.internal 0x343 1).mace = u.mace :=
    Tu.mace_of_bareBut (ks := []) ((Tu.bare_internal _ _ _).trans (Tu.bare_charge u 3 25000 _ (by decide)))
  simp only [hflag, hbuf, hfits, Bool.not_true, Bool.false_eq_true, if_false, if_true]
  refine ⟨_, ?_, rfl⟩
  rw [hbare, hmace]

/-! ### Taint notices (R169 to R173) -/

/-- Mace without its notices under way, its lanes and the records that wait. -/
def Mace.quiet (m : Mace) : Mace := { m with queue := [], history := [], failHeld := [], lanes := [], intake := [] }

/-- What a verdict leaves of a TU once its count stands: the count of FAILs, REPLAY_MODE, and Mace but for notices under way
and lanes. -/
def Tu.verdictForm (t : Tu) : (Nat × Nat) × Mace := ((t.rd 0x2910 3, t.rd 0x2900 4), t.mace.quiet)

theorem Tu.verdictForm_of_bare {t u : Tu} (h : t.bare = u.bare) : t.verdictForm = u.verdictForm :=
  Prod.ext (Prod.ext (Tu.rd_of_bareBut (ks := []) h (by decide)) (Tu.rd_of_bareBut (ks := []) h (by decide)))
    (congrArg Mace.quiet (Tu.mace_of_bareBut h))

theorem Tu.verdictForm_wr (t : Tu) {i j : Nat} (v : Nat) (h : objKey 0x2910 3 ≠ objKey i j ∧ objKey 0x2900 4 ≠ objKey i j) :
    (t.wr i j v).verdictForm = t.verdictForm := Prod.ext (Prod.ext (Part.rd_wr_other _ _ h.1) (Part.rd_wr_other _ _ h.2)) rfl

theorem Tu.verdictForm_bump (t : Tu) {i j : Nat} (n : Nat) (h : objKey 0x2910 3 ≠ objKey i j ∧ objKey 0x2900 4 ≠ objKey i j) :
    (t.bump i j n).verdictForm = t.verdictForm := t.verdictForm_wr _ h

theorem Tu.verdictForm_log (t : Tu) (e : Event) : (t.log e).verdictForm = t.verdictForm :=
  Tu.verdictForm_of_bare (t.bare_log e)

/-- Objects of mailbox channels lie above those of Mace. -/
theorem mace_ne_channel (c : Nat) {j : Nat} (h : j < 256) :
    objKey 0x2910 3 ≠ objKey (0x6110 + c) j ∧ objKey 0x2900 4 ≠ objKey (0x6110 + c) j := by
  simp only [objKey]
  omega

theorem Tu.verdictForm_enqueueMsg (t : Tu) (c : Nat) (body : List Byte) (stamp : BitVec 32) :
    (t.enqueueMsg c body stamp).1.verdictForm = t.verdictForm := by
  simp only [Tu.enqueueMsg]
  split
  next x _ =>
    refine (Tu.verdictForm_bump _ _ (mace_ne_channel c (by decide))).trans ?_
    simp only [Tu.putChan, Part.putChan]
    split
    · exact (Tu.verdictForm_bump { t with part := { t.part with chans := _ } } _ (mace_ne_channel c (by decide))).trans rfl
    · rfl
  · exact (Tu.verdictForm_log _ _).trans (Tu.verdictForm_bump _ _ (mace_ne_channel c (by decide)))

/-- R169: an offered notice touches the notices under way. -/
theorem Tu.verdictForm_offerTaint (t : Tu) (x : Taint) : (t.offerTaint x).verdictForm = t.verdictForm := by
  have hoffer : (t.offer 8 1 30000 [t.mkRec 0x08 0x0680 x.tile x.gslot x.tc x.pay]).1.verdictForm = t.verdictForm :=
    Tu.verdictForm_of_bare (Tu.bare_offer t 8 1 30000 _ (by decide))
  simp only [Tu.offerTaint]
  split
  · exact Eq.trans rfl hoffer
  · exact hoffer

theorem Tu.verdictForm_raiseTaint (t : Tu) (x : Taint) : (t.raiseTaint x).verdictForm = t.verdictForm := by
  simp only [Tu.raiseTaint]
  split
  · exact (Tu.verdictForm_offerTaint _ _).trans rfl
  · exact (Tu.verdictForm_enqueueMsg _ _ _ _).trans ((Tu.verdictForm_offerTaint _ _).trans rfl)

theorem Tu.verdictForm_verdictRec (t : Tu) (tile gslot ns : Nat) (pay : List Word) :
    (t.verdictRec tile gslot ns pay).verdictForm = t.verdictForm := Tu.verdictForm_of_bare (Tu.bare_offer t 3 5 _ _ (by decide))

theorem Tu.verdictForm_signature (t : Tu) (c : Chk) (x : Taint) (n : Nat) (sig : Option TileSig) :
    (t.signature c x n sig).verdictForm = t.verdictForm := by
  simp only [Tu.signature]
  refine (Tu.verdictForm_verdictRec _ _ _ _ _).trans ?_
  split
  · exact t.verdictForm_bump _ (by decide)
  · rfl

theorem Tu.verdictForm_shadowRec (t : Tu) (c : Chk) (fs : List Fold) : (t.shadowRec c fs).verdictForm = t.verdictForm := by
  simp only [Tu.shadowRec]
  split
  · rfl
  · exact Tu.verdictForm_verdictRec _ _ _ _ _

theorem Tu.verdictForm_gateAnswer (t : Tu) (c : Chk) (refuse : Bool) : (t.gateAnswer c refuse).verdictForm = t.verdictForm := by
  have hbump (u : Tu) (k : Nat) (hk : k = 3 ∨ k = 2) : (u.bump 0x2930 k 1).verdictForm = u.verdictForm :=
    u.verdictForm_bump _ (by rcases hk with rfl | rfl <;> decide)
  simp only [Tu.gateAnswer]
  split
  · rfl
  · refine (Tu.verdictForm_wr _ _ (by decide)).trans ((hbump _ _ ?_).trans rfl)
    split
    · exact Or.inl rfl
    · exact Or.inr rfl

theorem Tu.verdictForm_maceFill (t : Tu) : t.maceFill.verdictForm = t.verdictForm := by
  have hfill (m : Mace) : m.fill.quiet = m.quiet := by
    refine List.foldlRecOn (motive := fun u : Mace => u.quiet = m.quiet) _ _ rfl fun u hu k _ => Eq.trans ?_ hu
    split
    · rfl
    · split <;> rfl
  have hfilled : ({ t with mace := t.mace.fill } : Tu).verdictForm = t.verdictForm := Prod.ext rfl (hfill t.mace)
  simp only [Tu.maceFill, Tu.maceSpare]
  split
  · split
    · exact (Tu.verdictForm_log _ _).trans ((Tu.verdictForm_bump _ _ (by decide)).trans (Eq.trans rfl hfilled))
    · exact hfilled
  · exact hfilled

/-! ### Verdicts (R164 to R168) -/

/-- R168: the statistics of a TU whose tile has had one more compared block. -/
def Tu.withBlock (t : Tu) (c : Chk) (fs : List Fold) (v : Verdict) : Tu :=
  (t.bump 0x2910 v.sub 1).modHist c.tile fun h => h.add fs v

/-- R164: a PASS of a block that is not gated, with no shadow run. -/
theorem Tu.giveVerdict_pass {t : Tu} {c : Chk} (sig : Option TileSig) (hform : c.malformed = false) (hsat : c.saturated = false)
    (hreplay : c.replay = false) (hgated : c.gated = false) (hpass : foldVerdict (t.folds c) = .pass)
    (hshadow : t.part.flag 0x2940 1 = false) : t.giveVerdict c sig = (t.internal 0x353 1).withBlock c (t.folds c) .pass := by
  have hrd : ((t.internal 0x353 1).withBlock c (t.folds c) .pass).part.flag 0x2940 1 = false := by
    refine Eq.trans (congrArg (· == 1) ?_) hshadow
    exact (Part.rd_bump_other _ _ (by decide)).trans (Tu.rd_of_bareBut (ks := []) (Tu.bare_internal t _ _) (by decide))
  simp only [Tu.withBlock] at hrd ⊢
  simp only [Tu.giveVerdict, hform, hsat, hreplay, hpass, Tu.gateAnswer, hgated, Tu.shadowRec, hrd, Bool.not_false,
    Bool.false_eq_true, if_false, if_true, reduceCtorEq]

/-- R169: a FAIL that finds room in the taint queue gets the next serial. -/
theorem Tu.taintBlock_of_room {t : Tu} {x : Taint} (holds : Bool) (hroom : t.mace.queue.length < 64) :
    ∃ y : OpenWin, y.t.serial = t.mace.serial + 1 ∧ (t.taintBlock x holds).1.verdictForm =
      ({ t with mace := { t.mace with serial := t.mace.serial + 1, windows := t.mace.windows ++ [y] } } : Tu).verdictForm := by
  have hfull : t.mace.taintFull = false := decide_eq_false (Nat.not_le.mpr hroom)
  simp only [Tu.taintBlock, hfull, Bool.false_eq_true, if_false]
  exact ⟨_, rfl, (Tu.verdictForm_raiseTaint _ _).trans rfl⟩

theorem Tu.mace_gateAnswer (t : Tu) (c : Chk) (refuse : Bool) : (t.gateAnswer c refuse).mace = t.mace := by
  simp only [Tu.gateAnswer]
  split <;> rfl

theorem Tu.mace_shadowRec (t : Tu) (c : Chk) (fs : List Fold) : (t.shadowRec c fs).mace = t.mace := by
  simp only [Tu.shadowRec]
  split
  · rfl
  · exact Tu.mace_of_bareBut (ks := []) (Tu.bare_offer t 3 5 _ _ (by decide))

/-- R164, R169: a FAIL of a block, with no replay to be asked for, is counted and gets a notice of its own. -/
theorem Tu.giveVerdict_fail {t : Tu} {c : Chk} (sig : Option TileSig) (hform : c.malformed = false) (hsat : c.saturated = false)
    (hreplay : c.replay = false) (hfail : foldVerdict (t.folds c) = .fail) (hroom : t.mace.queue.length < 64)
    (hmode : t.rd 0x2900 4 = 0) :
    ∃ y : OpenWin, y.t.serial = t.mace.serial + 1 ∧
      (t.giveVerdict c sig).rd 0x2910 3 = raised 0x2910 3 (t.rd 0x2910 3) 1 ∧
      (t.giveVerdict c sig).mace.quiet = { t.mace with
        serial := t.mace.serial + 1
        windows := t.mace.windows ++ [y]
        hist := tmod t.mace.hist c.tile .zero fun h => h.add (t.folds c) .fail }.quiet := by
  have hint : (t.internal 0x353 1).mace = t.mace := Tu.mace_of_bareBut (ks := []) (Tu.bare_internal t _ _)
  have hintForm : (t.internal 0x353 1).verdictForm = t.verdictForm := Tu.verdictForm_of_bare (Tu.bare_internal t _ _)
  have hcount : ((t.internal 0x353 1).withBlock c (t.folds c) .fail).rd 0x2910 3 = raised 0x2910 3 (t.rd 0x2910 3) 1 :=
    Tu.rd_bump_of_bareBut (ks := []) (j := 3) 1 (Tu.bare_internal t 0x353 1) (by decide)
  have hmode : ((t.internal 0x353 1).withBlock c (t.folds c) .fail).rd 0x2900 4 = 0 :=
    (Part.rd_bump_other _ _ (by decide)).trans ((congrArg (fun v => v.1.2) hintForm).trans hmode)
  have hmace : ((t.internal 0x353 1).withBlock c (t.folds c) .fail).mace =
      { t.mace with hist := tmod t.mace.hist c.tile .zero fun h => h.add (t.folds c) .fail } :=
    congrArg (fun m : Mace => { m with hist := tmod m.hist c.tile .zero fun h => h.add (t.folds c) .fail }) hint
  simp only [Tu.giveVerdict, hform, hsat, hreplay, hfail, Bool.false_eq_true, if_false, if_true, reduceCtorEq, beq_self_eq_true]
  rw [← Tu.withBlock]
  generalize (t.internal 0x353 1).withBlock c (t.folds c) .fail = u at hcount hmode hmace ⊢
  have hu : ((u.gateAnswer c true).shadowRec c (t.folds c)).verdictForm = u.verdictForm :=
    (Tu.verdictForm_shadowRec _ _ _).trans (Tu.verdictForm_gateAnswer _ _ _)
  have huMace : ((u.gateAnswer c true).shadowRec c (t.folds c)).mace = u.mace :=
    (Tu.mace_shadowRec _ _ _).trans (Tu.mace_gateAnswer _ _ _)
  generalize (u.gateAnswer c true).shadowRec c (t.folds c) = v at hu huMace ⊢
  obtain ⟨y, hserial, hy⟩ := Tu.taintBlock_of_room (t := v) (x := v.taintOf c (t.folds c) false sig.isNone) true
    (by rw [huMace, hmace]; exact hroom)
  have hask : (v.taintBlock (v.taintOf c (t.folds c) false sig.isNone) true).1.rd 0x2900 4 = 0 :=
    (congrArg (fun w => w.1.2) hy).trans ((congrArg (fun w => w.1.2) hu).trans hmode)
  simp only [Tu.replayAsk, hask, if_true]
  have hlast := (Tu.verdictForm_signature (v.taintBlock (v.taintOf c (t.folds c) false sig.isNone) true).1 c
    (v.taintOf c (t.folds c) false sig.isNone) (v.taintBlock (v.taintOf c (t.folds c) false sig.isNone) true).2 sig).trans hy
  rw [huMace, hmace] at hserial hlast
  exact ⟨y, hserial, (congrArg (fun w => w.1.1) hlast).trans ((congrArg (fun w => w.1.1) hu).trans hcount),
    (congrArg Prod.snd hlast).trans rfl⟩

theorem Mace.inService_setLane {m : Mace} {k : Nat} {l : MLane} (h : l.inService = (m.lane k).inService) :
    (m.setLane k l).inService = m.inService := by
  have hlane (j : Nat) : ((m.setLane k l).lane j).inService = (m.lane j).inService := by
    by_cases hj : j = k
    · rw [hj, Mace.lane_setLane_self, h]
    · rw [Mace.lane_setLane_other _ _ hj]
  simp only [Mace.inService, hlane]

/-- A lane that has finished its record holds none. -/
def Tu.laneFreed (t : Tu) (k : Nat) : Tu := { t with mace := t.mace.setLane k { t.mace.lane k with held := none } }

theorem Tu.maceVerdict_of_held {t : Tu} {k : Nat} {c : Chk} (sig : Option TileSig) (h : (t.mace.lane k).held = some c) :
    t.maceVerdict k sig = ((t.laneFreed k).giveVerdict c sig).maceFill := by
  simp only [Tu.maceVerdict, h]
  rfl

/-- R168: the statistics that go out leave all but themselves. -/
theorem Tu.bare_histEnd {t : Tu} (h : t.ts % (1000 * t.rd 0x2900 3) = 0) :
    t.histEnd.bare = { t with mace := { t.mace with hist := [] } }.bare := by
  simp only [Tu.histEnd, h, ne_eq, not_true_eq_false, if_false]
  exact Tu.bare_foldl _ (fun u e => Tu.bare_offer u 3 5 _ _ (by decide)) _ _

/-- R181: Mace cannot be switched off while verdicts gate the fabric. -/
theorem Tu.wrMaceEnable_of_legal {t : Tu} {v : Nat} (h : v = 1 ∨ (v = 0 ∧ t.part.flag 0x2930 1 = false)) :
    t.wrMaceEnable v = (t.wr 0x2900 1 v, 0) := by
  rcases h with rfl | ⟨rfl, hgate⟩
  · rfl
  · simp only [Tu.wrMaceEnable, hgate, Bool.and_false, Nat.not_lt_zero, decide_false, lowestAbort_cons_false, lowestAbort_nil, ne_eq,
      not_true_eq_false, if_false]

/-- R166: a lane that has failed its self-test is out of service for good. -/
theorem Tu.laneSelftest_of_fail {t : Tu} {k : Nat} (h : (t.mace.lane k).inService = true) :
    (t.laneSelftest k false).mace.lane k = { inService := false, retired := true, held := none } := by
  have hfill (m : Mace) (hm : m.lane k = { inService := false, retired := true, held := none }) :
      m.fill.lane k = { inService := false, retired := true, held := none } := by
    refine List.foldlRecOn (motive := fun u : Mace => u.lane k = { inService := false, retired := true, held := none }) _ _ hm
      fun u hu j _ => ?_
    split
    · exact hu
    · split
      next hfree =>
        refine (Mace.lane_setLane_other _ _ fun hj => ?_).trans hu
        subst hj
        rw [hu] at hfree
        exact Bool.false_ne_true hfree
      next => exact hu
  have hlane : (t.mace.setLane k { inService := false, retired := true, held := none }).lane k =
      { inService := false, retired := true, held := none } := Mace.lane_setLane_self _ _ _
  have hlast (u : Tu) (hu : u.mace.lane k = { inService := false, retired := true, held := none }) :
      u.maceFill.mace.lane k = { inService := false, retired := true, held := none } := by
    have hfilled : ({ u with mace := u.mace.fill } : Tu).mace.lane k = { inService := false, retired := true, held := none } :=
      hfill _ hu
    exact (Tu.maceSpare_keeps_lane (Or.inr (by rw [hfilled]))).1.trans hfilled
  simp only [Tu.laneSelftest, h, Bool.not_true, Bool.or_self, Bool.false_eq_true, if_false]
  have hlogged (c : Bool) (u : Tu) (e : Event) (hu : u.mace.lane k = { inService := false, retired := true, held := none }) :
      (if c then u else u.log e).mace.lane k = { inService := false, retired := true, held := none } := by
    cases c
    · exact (congrArg (fun m => m.lane k) (u.mace_log e)).trans hu
    · exact hu
  refine hlast _ ?_
  split <;> exact hlogged _ _ _ hlane

/-! ### Notices that are offered later (R169, R171 to R174) -/

theorem Tu.mace_offerTaint_of_admitted {t : Tu} {x : Taint}
    (h : (t.offer 8 1 30000 [t.mkRec 0x08 0x0680 x.tile x.gslot x.tc x.pay]).2 = true) :
    ∃ hist, (t.offerTaint x).mace = { t.mace with
      queue := t.mace.queue.filter (· != x)
      history := hist
      failHeld := if x.kind = 2 then t.mace.failHeld else t.mace.failHeld.filter fun h => h.1 != x.serial } := by
  have hmace : (t.offer 8 1 30000 [t.mkRec 0x08 0x0680 x.tile x.gslot x.tc x.pay]).1.mace = t.mace :=
    Tu.mace_of_bareBut (ks := []) (Tu.bare_offer t 8 1 30000 _ (by decide))
  simp only [Tu.offerTaint, h, if_true, hmace]
  exact ⟨_, rfl⟩

/-- R171: the FINAL notice of a window that is due. -/
theorem Tu.taintFinal_of_due {t : Tu} {n : Nat} {w : OpenWin} (hfind : (t.mace.windows.find? fun w => w.t.serial == n) = some w)
    (hdue : w.due ≤ t.ns) (hroom : t.mace.queue.length < 64) :
    (t.taintFinal n).mace.windows = t.mace.windows.filter (fun y => y.t.serial != n) ∧
      (t.taintFinal n).mace.serial = t.mace.serial := by
  have hfull : t.mace.taintFull = false := decide_eq_false (Nat.not_le.mpr hroom)
  simp only [Tu.taintFinal, hfind, hfull, decide_eq_false (Nat.not_lt.mpr hdue), Bool.or_self, Bool.false_eq_true, if_false]
  have hquiet := fun (u : Tu) (x : Taint) => congrArg Prod.snd (u.verdictForm_raiseTaint x)
  exact ⟨(congrArg Mace.windows (hquiet _ _) :), (congrArg Mace.serial (hquiet _ _) :)⟩

/-- R172: the RANGE notice of a tile. -/
theorem Tu.taintRange_of_room {t : Tu} {tile : Nat} {r : RangeAcc} (hfind : (t.mace.ranges.find? fun r => r.tile == tile) = some r)
    (hroom : t.mace.queue.length < 64) :
    (t.taintRange tile).mace.ranges = t.mace.ranges.filter (fun y => y.tile != tile) ∧
      (t.taintRange tile).mace.serial = t.mace.serial + 1 := by
  have hfull : t.mace.taintFull = false := decide_eq_false (Nat.not_le.mpr hroom)
  simp only [Tu.taintRange, hfind, hfull, Bool.false_eq_true, if_false]
  have hquiet := fun (u : Tu) (x : Taint) => congrArg Prod.snd (u.verdictForm_raiseTaint x)
  exact ⟨(congrArg Mace.ranges (hquiet _ _) :), (congrArg Mace.serial (hquiet _ _) :)⟩

theorem Tu.wrTaintResend_of_held {t : Tu} {n : Nat} {r : Rec}
    (hheld : (t.mace.history.filter fun r => r.fld 672 32 == n).getLast? = some r) (hroom : t.mace.queue.length < 64) :
    t.wrTaintResend n =
      (({ t with mace := { t.mace with queue := t.mace.queue ++ [taintOfRec r] } }).offerTaint (taintOfRec r), 0) := by
  have hfull : t.mace.taintFull = false := decide_eq_false (Nat.not_le.mpr hroom)
  simp only [Tu.wrTaintResend, hheld, hfull, Bool.false_eq_true, if_false]

theorem Mace.le_watermark (m : Mace) (p : Nat) : m.w ≤ m.watermark p := Nat.le_max_left _ _

/-- R174, R175: the publication of a LOCKED TU whose link is UP. -/
theorem Tu.publishW_of_locked {t : Tu} (p : Port) (hdue : t.ts % 4000 = 0) (hlocked : t.part.time.servo = .locked)
    (hup : t.link.st = .up) :
    (t.publishW p).mace = { t.mace with
        w := t.mace.watermark t.ns, wmkSeq := (t.mace.wmkSeq + 1) % 65536, resetSeen := false } ∧
      { t.publishW p with mace := t.mace, out := t.out } = t := by
  simp only [Tu.publishW, hdue, hlocked, hup, ne_eq, not_true_eq_false, if_false, true_or, if_true]
  exact ⟨rfl, rfl⟩

/-- R183: a request that ends is forgotten, and its outcome is counted. -/
theorem Tu.replayEnd_spec (t : Tu) (r : Replay) {outcome : Nat} (reason : Nat) (h : outcome < 9) :
    (t.replayEnd r outcome reason).mace = { t.mace with replays := t.mace.replays.filter fun x => x.ref != r.ref } ∧
      (t.replayEnd r outcome reason).rd 0x2910 (8 + outcome) = raised 0x2910 (8 + outcome) (t.rd 0x2910 (8 + outcome)) 1 := by
  have hkeys : ∀ o, o < 9 → (tuReportKeys ++ []).contains (objKey 0x2910 (8 + o)) = false := by decide
  have hrec (u : Tu) (tile gslot ns : Nat) (pay : List Word) : (u.verdictRec tile gslot ns pay).bare = u.bare :=
    Tu.bare_offer u 3 5 _ _ (by decide)
  exact ⟨Tu.mace_of_bareBut (ks := []) (hrec { t with mace := { t.mace with replays := t.mace.replays.filter fun x => x.ref != r.ref } }
      r.tile r.gslot _ _),
    Tu.rd_bump_of_bareBut (ks := []) (t := { t with mace := { t.mace with replays := t.mace.replays.filter fun x => x.ref != r.ref } })
      1 (hrec _ _ _ _ _) (hkeys outcome h)⟩

/-! ### Shadow runs (R185, R187) -/

theorem Tu.wrShadowEnable_of_rise {t : Tu} (h : t.part.flag 0x2940 1 = false) :
    t.wrShadowEnable 1 = ({ t with mace := { t.mace with ordinals := [] } }.wr 0x2940 1 1, 0) := by
  simp only [Tu.wrShadowEnable, h, Nat.lt_irrefl, if_false, and_self, if_true]

theorem Tu.flag_wr_one (t : Tu) (i j : Nat) : (t.wr i j 1).part.flag i j = true := congrArg (· == 1) (Part.rd_wr_self _ _ _ _)

/-- R185: a rise of SHADOW_ENABLE at the TU of port `p`, with the runs it begins at Fyster. -/
theorem shadowWatch_of_rise {s : State} {p : Port} {t : Tu} (hoff : (s.tu p).part.flag 0x2940 1 = false)
    (hon : t.part.flag 0x2940 1 = true) :
    shadowWatch p s (s.setTu p t) = { s.setTu p t with fy := s.fy.shadowEdge p.val true } := by
  simp only [shadowWatch, State.tu_setTu_self, hoff, hon]
  rfl

/-- R185: a pair whose candidate is this die begins its run anew. -/
theorem Fyster.shadowEdge_of_one {f : Fyster} {p k : Nat} {x : ShadowPair} (hone : f.dec.shadows = [(k, x)])
    (hdie : dieMatch x.cand (f.dieOf p) = true) (hrun : x.running = false) :
    f.shadowEdge p true = { f with dec := { f.dec with shadows := [(k, shadowPair x.cand x.partner true)] } } := by
  simp only [Fyster.shadowEdge, hone, List.filter_cons, hdie, hrun, List.filter_nil, Bool.and_self,
    if_true, List.foldl_cons, List.foldl_nil, Fyster.setShadow, tset,
    Nat.lt_irrefl, if_false, show (false != true) = true from rfl]

theorem Fyster.shadowEdge_of_none {f : Fyster} {p : Nat} (h : f.dec.shadows = []) (on : Bool) : f.shadowEdge p on = f := by
  simp only [Fyster.shadowEdge, h, List.filter_nil, List.foldl_nil]

theorem length_pairsOf (n : Nat) (v : List Byte) : (pairsOf n v).length = n := by
  induction n generalizing v with
  | zero => rfl
  | succ n ih => rw [pairsOf, List.length_cons, ih]

/-- R185: SHADOW_PAIRS of dies of the tray, with no pair before. -/
theorem Fyster.wrShadowPairs_of_none {f : Fyster} {tus : Tab Tu} {v : List Byte} (hlen : v.length % 8 = 0) (hmax : v.length ≤ 128)
    (hdies : ((pairsOf (v.length / 8) v).all fun x => (f.portOfDie x.1).isSome && (f.portOfDie x.2).isSome) = true)
    (hnone : f.dec.shadows = []) :
    f.wrShadowPairs tus v = ({ f with dec := { f.dec with shadows := (pairsOf (v.length / 8) v).zipIdx.map fun e =>
      (e.2, shadowPair e.1.1 e.1.2 (f.shadowOn tus e.1.1)) } }, 0) := by
  have hoff : ((pairsOf (v.length / 8) v).any fun x => (f.portOfDie x.1).isNone || (f.portOfDie x.2).isNone) = false := by
    rw [List.any_eq_false]
    intro x hx
    have h := List.all_eq_true.mp hdies x hx
    rw [Bool.and_eq_true] at h
    rw [Option.isNone_eq_false_iff.mpr h.1, Option.isNone_eq_false_iff.mpr h.2]
    exact Bool.false_ne_true
  have hcount : ¬16 < (pairsOf (v.length / 8) v).length := by
    rw [length_pairsOf]
    omega
  simp only [Fyster.wrShadowPairs, hlen, hoff, decide_eq_false hcount, hnone, tfind, bne_self_eq_false, lowestAbort_cons_false,
    lowestAbort_nil, ne_eq, not_true_eq_false, if_false]

end Sys2Proof.Machine

namespace Sys2Proof

open Machine

/-- Settles O17: a check record is taken down and waits or goes to lane 0, a verdict counts once, and the spare lane enters in a
place of its own. -/
theorem maceChecks : Obligations.MaceChecks := by
  unfold Obligations.MaceChecks
  refine ⟨?busy, ?free, ?pass, ?fail, ?selftestFail, ?selftestPass, ?period, ?gate, ?enable⟩
  case busy =>
    intro s dt p tile r hen hbuf hfits hbusy
    obtain ⟨u, hmace, hcheck⟩ := Tu.checkRecord_of_admitted (t := (s.tu p).tick dt) (tile := tile.val) hen hbuf hfits
    have hfill : u.mace.fill = u.mace := Mace.fill_of_busy (by rw [hmace]; exact hbusy)
    have hwait : u.mace.intake ≠ [] := by rw [hmace]; exact List.concat_ne_nil _ _
    refine tuNext_of_onTu rfl ?_
    rw [hcheck, Tu.maceFill, hfill, Tu.maceSpare_of_waiting hwait, hmace]
    exact ⟨rfl, tget_tset_self _ _ _ _, rfl⟩
  case free =>
    intro s dt p tile r hen hbuf hfits hintake hin hheld
    obtain ⟨u, hmace, hcheck⟩ := Tu.checkRecord_of_admitted (t := (s.tu p).tick dt) (tile := tile.val) hen hbuf hfits
    have hone : u.mace.intake = [((s.tu p).tick dt).chkOf tile.val r.words] := by
      rw [hmace]
      exact congrArg (· ++ _) hintake
    have hlane : u.mace.lane 0 = (s.tu p).mace.lane 0 := by rw [hmace]; rfl
    have hfill := Mace.fill_of_free hone (by rw [hlane, hin]) (by rw [hlane, hheld])
    have hfilled : u.mace.fill.lane 0 = { u.mace.lane 0 with held := some (((s.tu p).tick dt).chkOf tile.val r.words) } := by
      rw [hfill]
      exact Mace.lane_setLane_self _ _ _
    obtain ⟨hkept, hnone⟩ := Tu.maceSpare_keeps_lane (t := { u with mace := u.mace.fill }) (k := 0)
      (Or.inl (by rw [show ({ u with mace := u.mace.fill } : Tu).mace.lane 0 = _ from hfilled, hlane]; exact hin))
    refine tuNext_of_onTu rfl ?_
    rw [hcheck, Tu.maceFill]
    exact ⟨hnone.trans (congrArg Mace.intake hfill), congrArg MLane.held (hkept.trans hfilled)⟩
  case pass =>
    intro s dt p k sig c hheld hform hsat hreplay hgated hpass hshadow hintake hserved
    have hverdict := Tu.giveVerdict_pass (t := ((s.tu p).tick dt).laneFreed k.val) sig hform hsat hreplay hgated hpass hshadow
    have hcount : ((((s.tu p).tick dt).laneFreed k.val).giveVerdict c sig).rd 0x2910 2 = raised 0x2910 2 ((s.tu p).rd 0x2910 2) 1 := by
      rw [hverdict]
      exact Tu.rd_bump_of_bareBut (ks := []) (t := ((s.tu p).tick dt).laneFreed k.val) (j := 2) 1 (Tu.bare_internal _ _ _) (by decide)
    have hmace : ((((s.tu p).tick dt).laneFreed k.val).giveVerdict c sig).mace =
        { (s.tu p).mace.setLane k.val { (s.tu p).mace.lane k.val with held := none } with
          hist := tmod (s.tu p).mace.hist c.tile .zero (fun x => x.add ((s.tu p).folds c) .pass) } := by
      rw [hverdict]
      exact (congrArg (fun m : Mace => { m with hist := tmod m.hist c.tile .zero (fun x => x.add ((s.tu p).folds c) .pass) })
        (Tu.mace_of_bareBut (ks := []) (Tu.bare_internal (((s.tu p).tick dt).laneFreed k.val) 0x353 1)) :)
    have hout : ((((s.tu p).tick dt).laneFreed k.val).giveVerdict c sig).out = (s.tu p).out := by
      rw [hverdict]
      exact Tu.out_internal (((s.tu p).tick dt).laneFreed k.val) 0x353 1
    have hserved : 8 ≤ ((s.tu p).mace.setLane k.val { (s.tu p).mace.lane k.val with held := none }).inService :=
      Nat.le_trans hserved (Nat.le_of_eq (Eq.symm (Mace.inService_setLane (l := { (s.tu p).mace.lane k.val with held := none }) rfl)))
    refine tuNext_of_onTu rfl ?_
    rw [Tu.maceVerdict_of_held (t := (s.tu p).tick dt) sig hheld]
    generalize (((s.tu p).tick dt).laneFreed k.val).giveVerdict c sig = v at hcount hmace hout ⊢
    have hfill : v.mace.fill = v.mace := by
      rw [Mace.fill_eq]
      exact Mace.fillLanes_of_empty (by rw [hmace]; exact hintake) _
    rw [Tu.maceFill, hfill, Tu.maceSpare_of_served (by rw [hmace]; exact hserved), hmace]
    exact ⟨hcount, congrArg MLane.held (Mace.lane_setLane_self _ _ _), rfl, rfl, rfl, hout⟩
  case fail =>
    intro s dt p k sig c hheld hform hsat hreplay hfail hroom hmode
    obtain ⟨y, hserial, hcount, hmace⟩ := Tu.giveVerdict_fail (t := ((s.tu p).tick dt).laneFreed k.val) sig hform hsat hreplay hfail
      hroom hmode
    refine tuNext_of_onTu rfl ?_
    rw [Tu.maceVerdict_of_held (t := (s.tu p).tick dt) sig hheld]
    generalize (((s.tu p).tick dt).laneFreed k.val).giveVerdict c sig = v at hcount hmace ⊢
    have hlast := v.verdictForm_maceFill
    have hquiet := (congrArg Prod.snd hlast).trans hmace
    refine ⟨(congrArg (fun w => w.1.1) hlast).trans hcount, (congrArg Mace.serial hquiet :), ?_, (congrArg Mace.replays hquiet :)⟩
    refine (congrArg (fun m : Mace => m.windows.map (·.t.serial)) hquiet :).trans ?_
    exact (List.map_append).trans (congrArg (fun n => (s.tu p).mace.windows.map (·.t.serial) ++ [n]) hserial)
  case selftestFail =>
    intro s dt p k hin
    exact tuNext_of_onTu rfl (Tu.laneSelftest_of_fail (t := (s.tu p).tick dt) hin)
  case selftestPass =>
    intro s dt p k
    exact tuNext_of_onTu rfl rfl
  case period =>
    intro s dt p hdue
    have hbare := Tu.bare_histEnd (t := (s.tu p).tick dt) hdue
    exact tuNext_of_onTu rfl ⟨(congrArg (fun u : Tu => u.mace.hist) hbare :), hbare⟩
  case gate =>
    intro s dt p lvl v hlvl hv
    refine tuNext_of_onTu rfl ?_
    have hwr : ((s.tu p).tick dt).wrGateEnable v.toNat = (((s.tu p).tick dt).wr 0x2930 1 v.toNat, 0) := if_neg (Nat.not_lt.mpr hv)
    rw [hwr, Tu.reply_accepted hlvl]
  case enable =>
    intro s dt p lvl v hlvl hv
    refine tuNext_of_onTu rfl ?_
    rw [Tu.wrMaceEnable_of_legal (t := (s.tu p).tick dt) hv, Tu.reply_accepted hlvl]

/-- Settles O18: a notice that is raised touches the notices under way alone, and a rise of SHADOW_ENABLE begins the runs of its
own die. -/
theorem taintWatermarkAndShadow : Obligations.TaintWatermarkAndShadow := by
  unfold Obligations.TaintWatermarkAndShadow
  refine ⟨?reoffer, ?final, ?range, ?resend, ?unknown, ?publish, ?replay, ?enable, ?begins, ?unpaired, ?pairs⟩
  case reoffer =>
    intro s dt p x hqueue hfits
    obtain ⟨hist, hmace⟩ := Tu.mace_offerTaint_of_admitted hfits
    have hqueue : ((s.tu p).tick dt).mace.queue = [x] := hqueue
    refine tuNext_of_onTu rfl ?_
    rw [Tu.taintReoffer, hqueue, List.foldl_cons, List.foldl_nil, hmace]
    refine ⟨?_, rfl, rfl, rfl⟩
    rw [hqueue, List.filter_cons, bne_self_eq_false]
    rfl
  case final =>
    intro s dt p n w hfind hdue hroom
    exact tuNext_of_onTu rfl (Tu.taintFinal_of_due (t := (s.tu p).tick dt) hfind hdue hroom)
  case range =>
    intro s dt p tile r hfind hroom
    exact tuNext_of_onTu rfl (Tu.taintRange_of_room (t := (s.tu p).tick dt) hfind hroom)
  case resend =>
    intro s dt p lvl n r hlvl hheld hroom
    refine tuNext_of_onTu rfl ?_
    rw [Tu.wrTaintResend_of_held (t := (s.tu p).tick dt) hheld hroom, Tu.reply_accepted hlvl]
  case unknown =>
    intro s dt p lvl n hlvl hnone
    have hnone : (((s.tu p).tick dt).mace.history.filter fun r => r.fld 672 32 == n.toNat) = [] := hnone
    have hwr : ((s.tu p).tick dt).wrTaintResend n.toNat = ((s.tu p).tick dt, 0x2D) := by
      simp only [Tu.wrTaintResend, hnone, List.getLast?_nil]
    refine tuNext_of_onTu rfl ?_
    rw [hwr]
    exact Tu.reply_refused hlvl (show 0x2D ≠ 0 by decide)
  case publish =>
    intro s dt p hdue hlocked hup
    obtain ⟨hmace, hframe⟩ := Tu.publishW_of_locked (t := (s.tu p).tick dt) p hdue hlocked hup
    refine tuNext_of_onTu rfl ⟨hmace, ?_, hframe⟩
    rw [hmace]
    exact Mace.le_watermark _ _
  case replay =>
    intro s dt p n r hfind hlate
    have hfind : (((s.tu p).tick dt).mace.replays.find? fun r => r.ref == n.toNat) = some r := hfind
    have hlate : r.at64 + 1000000 * ((s.tu p).tick dt).rd 0x2900 5 ≤ ((s.tu p).tick dt).ns := hlate
    have hstep : ((s.tu p).tick dt).replayExpiry n.toNat = ((s.tu p).tick dt).replayEnd r 5 1 := by
      simp only [Tu.replayExpiry, hfind, if_pos hlate]
    refine tuNext_of_onTu rfl ?_
    rw [hstep]
    exact Tu.replayEnd_spec ((s.tu p).tick dt) r 1 (by decide)
  case enable =>
    intro s dt p lvl hlvl hoff hnone
    have hwr := Tu.wrShadowEnable_of_rise (t := (s.tu p).tick dt) hoff
    have hwatch := shadowWatch_of_rise (t := ({ (s.tu p).tick dt with mace := { ((s.tu p).tick dt).mace with ordinals := [] } }.wr 0x2940 1
      1).emit (.answer 0)) hoff (Tu.flag_wr_one _ _ _)
    refine ⟨_, ?_, rfl⟩
    refine congrArg Host.Outcome.next (Eq.trans ?_ hwatch |>.trans ?_)
    · rw [onTu, show (1 : Byte).toNat = 1 from rfl, hwr, Tu.reply_accepted hlvl]
    · rw [Fyster.shadowEdge_of_none hnone]
      rfl
  case begins =>
    intro s dt p lvl k x hlvl hoff hone hdie hrun
    have hwr := Tu.wrShadowEnable_of_rise (t := (s.tu p).tick dt) hoff
    have hwatch := shadowWatch_of_rise (t := ({ (s.tu p).tick dt with mace := { ((s.tu p).tick dt).mace with ordinals := [] } }.wr 0x2940 1
      1).emit (.answer 0)) hoff (Tu.flag_wr_one _ _ _)
    refine ⟨_, congrArg Host.Outcome.next (Eq.trans ?_ hwatch), ?_, ?_⟩
    · rw [onTu, show (1 : Byte).toNat = 1 from rfl, hwr, Tu.reply_accepted hlvl]
    · exact (congrArg (fun t : Tu => t.part.flag 0x2940 1) (State.tu_setTu_self s p _)).trans (Tu.flag_wr_one _ _ _)
    · exact Fyster.shadowEdge_of_one hone hdie hrun
  case unpaired =>
    intro s dt k x hfind
    have hfind : tfind (s.fy.tick dt).dec.shadows k.val = some x := hfind
    refine fyNext_of_onFy rfl ?_
    simp only [Fyster.shadowUnpaired, hfind]
  case pairs =>
    intro s dt lvl v hlvl hlen hmax hdies hnone
    refine fyNext_of_onFy rfl ?_
    rw [Fyster.wrShadowPairs_of_none (f := s.fy.tick dt) hlen hmax hdies hnone]
    exact Fyster.reply_accepted hlvl

end Sys2Proof
end

section
/-! SUPPORT. The reporting path of a TU (R190 to R210): budgets, the arbiter, the debug port, the shaper, gate lists and power
requests. -/

namespace Sys2Proof.Machine

/-! ### What records leave of the reporting path -/

/-- The reporting path without budgets used and the requesters' queues. -/
def Export.path (e : Export) : Export := { e with used := [], taintUsed := 0, full := [], queues := [] }

theorem Tu.path_markFull (t : Tu) (a : Nat) : (t.markFull a).exp.path = t.exp.path := by
  simp only [Tu.markFull]
  split <;> split <;> rfl

theorem Tu.path_charge (t : Tu) (a cost : Nat) (fits : Bool) : (t.charge a cost fits).1.exp.path = t.exp.path := by
  simp only [Tu.charge]
  split
  · rfl
  · split
    · refine (Tu.path_markFull _ _).trans ?_
      split <;> rfl
    · split
      · exact Tu.path_markFull _ _
      · split
        · rfl
        · split <;> rfl

theorem Tu.path_admitAll (t : Tu) (rs : List Rec) : (t.admitAll rs).1.exp.path = t.exp.path := by
  induction rs generalizing t with
  | nil => rfl
  | cons r rest ih => exact ih _

theorem Tu.path_offerRaw (t : Tu) (a req cost : Nat) (rs : List Rec) : (t.offerRaw a req cost rs).1.exp.path = t.exp.path := by
  simp only [Tu.offerRaw]
  split
  · exact (Tu.path_admitAll _ _).trans (t.path_charge a cost _)
  · exact t.path_charge a cost _

theorem Tu.path_internal (t : Tu) (src n : Nat) : (t.internal src n).exp.path = t.exp.path := by
  simp only [Tu.internal]
  split
  · rfl
  · refine List.foldlRecOn (motive := fun u : Tu => u.exp.path = t.exp.path) _ _ rfl fun u hu e _ => Eq.trans ?_ hu
    simp only [Tu.putCnt]
    split
    · exact Tu.path_offerRaw _ _ _ _ _
    · rfl

theorem Tu.path_offer (t : Tu) (a req cost : Nat) (rs : List Rec) : (t.offer a req cost rs).1.exp.path = t.exp.path := by
  simp only [Tu.offer]
  split
  · exact (Tu.path_internal _ _ _).trans (Tu.path_offerRaw _ _ _ _ _)
  · exact (Tu.path_internal _ _ _).trans ((Tu.path_internal _ _ _).trans (Tu.path_offerRaw _ _ _ _ _))

theorem Tu.path_log (t : Tu) (e : Event) : (t.log e).exp.path = t.exp.path := by
  simp only [Tu.log]
  refine List.foldlRecOn (motive := fun u : Tu => u.exp.path = t.exp.path) _ _ ?_ fun u hu o _ => (Tu.path_offer _ _ _ _ _).trans hu
  split <;> rfl

/-! ### What the arbiter and Sumac's intake leave (R197, R198) -/

/-- The reporting path without EXPORT's own budget, the units under way and the arbiter's counts. -/
def Export.still (e : Export) : Export :=
  { e with used := [], full := [], queues := [], readout := [], credit := [], waiting := [], grant := none }

/-- A snapshot without the records that are still to be sent. -/
def CutSet.sentAll (c : CutSet) : CutSet := { c with todo := [] }

/-- What granting the path and Sumac's intake leave of a TU: the budgets of the activities but EXPORT (6), the reporting path but for
the units under way, and the TU around it. -/
def Tu.arbForm (t : Tu) : (Nat → Nat) × Export × Tu :=
  (fun a => if a = 6 then 0 else t.used a, t.exp.still,
    { t.bare with sumac := Tu.reset.sumac, cuts := t.cuts.map CutSet.sentAll, win := Tu.reset.win })

theorem Tu.arbForm_ext {t u : Tu} (hused : ∀ a, a ≠ 6 → u.used a = t.used a) (hexp : u.exp.still = t.exp.still)
    (hbare : u.bare = t.bare) : u.arbForm = t.arbForm := by
  refine Prod.ext (funext fun a => ?_) (Prod.ext hexp (congrArg (fun b : Tu =>
    { b with sumac := Tu.reset.sumac, cuts := b.cuts.map CutSet.sentAll, win := Tu.reset.win }) hbare))
  simp only [Tu.arbForm]
  split
  · rfl
  next h => exact hused a h

theorem Tu.exp_markFull (t : Tu) (a : Nat) : ∃ l, (t.markFull a).exp = { t.exp with full := l } := by
  simp only [Tu.markFull]
  split <;> split <;> exact ⟨_, rfl⟩

/-- EXPORT's charge changes EXPORT's own budget. -/
theorem Tu.arbForm_charge (t : Tu) (cost : Nat) : (t.charge 6 cost true).1.arbForm = t.arbForm := by
  have hbare := Tu.bare_charge (ks := []) t 6 cost true (by decide)
  have hfull (u : Tu) (hu : u.exp = t.exp) :
      (∀ a, a ≠ 6 → (u.markFull 6).used a = t.used a) ∧ (u.markFull 6).exp.still = t.exp.still := by
    obtain ⟨l, hl⟩ := u.exp_markFull 6
    rw [hu] at hl
    exact ⟨fun a _ => by simp only [Tu.used, hl], (congrArg Export.still hl).trans rfl⟩
  have hkept : (∀ a, a ≠ 6 → (t.charge 6 cost true).1.used a = t.used a) ∧ (t.charge 6 cost true).1.exp.still = t.exp.still := by
    simp only [Tu.charge]
    split
    · exact ⟨fun _ _ => rfl, rfl⟩
    · split
      · exact hfull _ rfl
      · split
        · exact hfull _ rfl
        · refine ⟨fun a ha => ?_, rfl⟩
          simp only [Tu.used]
          split
          · rfl
          · exact tget_tset_other _ _ _ ha
  exact Tu.arbForm_ext hkept.1 hkept.2 hbare

theorem Tu.arbForm_sumacFeedN (n : Nat) (t : Tu) : (Tu.sumacFeedN n t).arbForm = t.arbForm := by
  have hpop (u : Tu) : u.sumacPop.arbForm = u.arbForm := by
    simp only [Tu.sumacPop]
    split <;> rfl
  have hclose (u : Tu) : u.sumacClose.arbForm = u.arbForm := by
    simp only [Tu.sumacClose]
    split <;> rfl
  have htake (t : Tu) : t.sumacTake.1.arbForm = t.arbForm := by
    simp only [Tu.sumacTake]
    split
    · rfl
    · split
      · rfl
      · split
        · refine (hpop _).trans ?_
          split
          · exact (hclose _).trans (t.arbForm_charge _)
          · exact t.arbForm_charge _
        · exact t.arbForm_charge _
  induction n generalizing t with
  | zero => rfl
  | succ n ih =>
    simp only [Tu.sumacFeedN]
    split
    · exact (ih _).trans (htake t)
    · exact htake t

theorem Tu.arbForm_grantTo (t : Tu) (r : Nat) (u : ExUnit) : (t.grantTo r u).arbForm = t.arbForm := by
  have htake : (t.takeUnit r).arbForm = t.arbForm := by
    simp only [Tu.takeUnit, Tu.snapTake]
    split
    · rfl
    · split
      · split
        · rfl
        next c r hc =>
          refine Prod.ext rfl (Prod.ext rfl (congrArg (fun l : List CutSet =>
            ({ t.bare with sumac := Tu.reset.sumac, cuts := l, win := Tu.reset.win } : Tu)) ?_))
          rw [hc]
          rfl
      · rfl
  simp only [Tu.grantTo]
  split <;> exact Eq.trans rfl htake

theorem Tu.arbForm_arbitrate (t : Tu) : t.arbitrate.arbForm = t.arbForm := by
  have hif (c : Bool) : (if c then (t.charge 6 40000 true).1 else t).arbForm = t.arbForm := by
    cases c
    · rfl
    · exact t.arbForm_charge _
  simp only [Tu.arbitrate]
  split
  · rfl
  · split
    · exact t.arbForm_grantTo _ _
    · split
      · exact hif _
      · split
        · exact (Tu.arbForm_grantTo _ _ _).trans (t.arbForm_charge _)
        · exact (Tu.arbForm_grantTo _ _ _).trans (hif _)

theorem Tu.arbitrate_of_granted {t : Tu} (h : t.exp.grant ≠ none) : t.arbitrate = t := by
  simp only [Tu.arbitrate, Option.isSome_iff_ne_none.mpr h, Bool.true_or, if_true]

/-- A grant that the arbiter gives begins now. -/
theorem Tu.grant_arbitrate {t : Tu} (h : t.exp.grant = none) :
    (t.arbitrate.exp.grant.all fun x => x.since == t.part.time.now) = true := by
  have hto (u : Tu) (r : Nat) (x : ExUnit) (hu : u.part.time.now = t.part.time.now) :
      ((u.grantTo r x).exp.grant.all fun x => x.since == t.part.time.now) = true := by
    have htake : (u.takeUnit r).part.time.now = t.part.time.now := by
      refine Eq.trans ?_ hu
      simp only [Tu.takeUnit, Tu.snapTake]
      split
      · rfl
      · split
        · split <;> rfl
        · rfl
    simp only [Tu.grantTo]
    split <;> exact beq_iff_eq.mpr htake
  have hcharge : (t.charge 6 40000 true).1.part.time.now = t.part.time.now :=
    (congrArg (fun b : Tu => b.part.time.now) (Tu.bare_charge (ks := []) t 6 40000 true (by decide)) :)
  have hnone : (t.charge 6 40000 true).1.exp.grant = none :=
    (congrArg Export.grant (t.path_charge 6 40000 true) :).trans h
  have hif (c : Bool) : (if c then (t.charge 6 40000 true).1 else t).exp.grant = none ∧
      (if c then (t.charge 6 40000 true).1 else t).part.time.now = t.part.time.now := by
    cases c
    · exact ⟨h, rfl⟩
    · exact ⟨hnone, hcharge⟩
  simp only [Tu.arbitrate]
  split
  · rw [h]
    rfl
  · split
    · exact hto _ _ _ rfl
    · split
      · rw [(hif _).1]
        rfl
      · split
        · exact hto _ _ _ hcharge
        · exact hto _ _ _ (hif _).2

/-- Granting the path sends nothing. -/
theorem Tu.out_arbitrate (t : Tu) : t.arbitrate.out = t.out := by
  have hto (u : Tu) (r : Nat) (x : ExUnit) : (u.grantTo r x).out = u.out := by
    have htake : (u.takeUnit r).out = u.out := by
      simp only [Tu.takeUnit, Tu.snapTake]
      split
      · rfl
      · split
        · split <;> rfl
        · rfl
    simp only [Tu.grantTo]
    split <;> exact htake
  have hif (c : Bool) : (if c then (t.charge 6 40000 true).1 else t).out = t.out := by
    cases c
    · rfl
    · exact t.out_charge _ _ _
  simp only [Tu.arbitrate]
  split
  · rfl
  · split
    · exact hto _ _ _
    · split
      · exact hif _
      · split
        · exact (hto _ _ _).trans (t.out_charge _ _ _)
        · exact (hto _ _ _).trans (hif _)

theorem Tu.link_of_arbForm {t u : Tu} (h : t.arbForm = u.arbForm) : t.link = u.link := (congrArg (fun x => x.2.2.link) h :)

/-! ### Budgets and the arbiter's windows (R190 to R199) -/

/-- A table that lists the values of a function. -/
theorem tget_map_add {α : Type} (f : Nat → α) (c : Nat) (d : α) {l : List Nat} {j : Nat} (h : j ∈ l) :
    tget (l.map fun i => (i + c, f i)) (j + c) d = f j := by
  induction l with
  | nil => exact absurd h List.not_mem_nil
  | cons i l ih =>
    rw [List.map_cons, tget]
    split
    next hi => rw [Nat.add_right_cancel hi]
    next hi => exact ih ((List.mem_cons.mp h).resolve_left fun hj => hi (congrArg (· + c) hj.symm))

/-- R190, R192, R193: a TU at the start of a budget period. -/
def Tu.renewed (t : Tu) (ratios : List Nat) : Tu :=
  { t.periodStart with exp := { t.periodStart.exp with
    ratios := (List.range 8).map fun a => (a, min 65536 (ratios.getD a 65536)) } }

theorem Tu.budgetPeriod_of_due {t : Tu} {ratios : List Nat} (hdue : t.ts % 1000 = 0) :
    t.budgetPeriod ratios = (t.renewed ratios).sumacFeed.arbitrate := by
  simp only [Tu.budgetPeriod, hdue, ne_eq, not_true_eq_false, if_false]
  rfl

theorem Tu.budgetPeriod_spec {t : Tu} {ratios : List Nat} {a : Nat} (hdue : t.ts % 1000 = 0) (ha : a < 8) (hexport : a ≠ 6) :
    (t.budgetPeriod ratios).used a = 0 ∧ (t.budgetPeriod ratios).budget a = t.rd 0x2A00 (a + 1) ∧
      (t.budgetPeriod ratios).ratio a = min 65536 (ratios.getD a 65536) ∧ (t.budgetPeriod ratios).link = t.link ∧
      (t.budgetPeriod ratios).mace = t.mace := by
  have hform : (t.budgetPeriod ratios).arbForm = (t.renewed ratios).arbForm := by
    rw [Tu.budgetPeriod_of_due hdue]
    exact (Tu.arbForm_arbitrate _).trans (Tu.arbForm_sumacFeedN _ _)
  have hbudget := tget_map_add (fun b => t.rd 0x2A00 (b + 1)) 0 (objDefault 0x2A00 (a + 1)) (List.mem_range.mpr (by omega : a < 9))
  have hratio := tget_map_add (fun b => min 65536 (ratios.getD b 65536)) 0 65536 (List.mem_range.mpr ha)
  generalize t.budgetPeriod ratios = u at hform ⊢
  refine ⟨?used, ?budget, ?ratio, (Tu.link_of_arbForm hform).trans rfl, (congrArg (fun x => x.2.2.mace) hform :).trans rfl⟩
  case used =>
    have hused : u.used a = (t.renewed ratios).used a := by
      have := congrArg (fun x => x.1 a) hform
      simpa only [Tu.arbForm, hexport, if_false] using this
    rw [hused, Tu.used, if_neg (by omega)]
    rfl
  case budget => exact (congrArg (fun x => tget x.2.1.budget a (objDefault 0x2A00 (a + 1))) hform :).trans hbudget
  case ratio =>
    rw [Tu.ratio, if_neg (by omega : ¬a = 8)]
    exact (congrArg (fun x => tget x.2.1.ratios a 65536) hform :).trans hratio

theorem Tu.wrBudget_of_legal {t : Tu} {a v : Nat} (hv : v ≤ 4000)
    (hsum : sumBy (fun i => if i = a then 0 else t.rd 0x2A00 (i + 1)) (List.range 9) + v ≤ 8000) :
    t.wrBudget a v = (if a = 8 then t.wr 0x2A00 (a + 1) v else (t.wr 0x2A00 (a + 1) v).wr 0x2A00 0x0A
      (setBit ((t.wr 0x2A00 (a + 1) v).rd 0x2A00 0x0A) a false), 0) := by
  refine if_neg ?_
  rintro (h | h)
  · omega
  · exact absurd hsum (Nat.not_le.mpr h)

/-- What a window start counts with: the credits, the grant and the weights; and the link. -/
def Tu.windowForm (t : Tu) : Tab Int × Option Grant × Link × (Fin 8 → Nat) :=
  (t.exp.credit, t.exp.grant, t.link, fun k => t.weight k.val)

/-- R199: a requester that is counted as waiting. -/
theorem Tu.windowForm_starve (t : Tu) (r : Nat) : (t.starve r).windowForm = t.windowForm := by
  have hkey : ∀ k : Fin 8, (tuReportKeys ++ []).contains (objKey 0x2A10 (k.val + 1)) = false := by decide
  have hlog (u : Tu) (e : Event) : (u.log e).windowForm = u.windowForm :=
    Prod.ext (congrArg Export.credit (u.path_log e) :) (Prod.ext (congrArg Export.grant (u.path_log e) :)
      (Prod.ext (congrArg Tu.link (Tu.bare_log (ks := []) u e) :)
        (funext fun k => Tu.rd_of_bareBut (ks := []) (u.bare_log e) (hkey k))))
  have hwr (u : Tu) (v : Nat) : (u.wr 0x2A11 1 v).windowForm = u.windowForm :=
    Prod.ext rfl (Prod.ext rfl (Prod.ext rfl (funext fun k => Part.rd_wr_other _ _ (by simp only [objKey]; omega))))
  simp only [Tu.starve]
  split
  · exact (hlog _ _).trans ((hwr _ _).trans rfl)
  · rfl

theorem Tu.arbWindow_spec {t : Tu} (i : Fin 6) (hdue : t.ts % 1000 = 0) (hgrant : t.exp.grant ≠ none) :
    t.arbWindow.arbCredit (i.val + 2) = min (t.arbCredit (i.val + 2) + t.weight (i.val + 2)) 65536 ∧
      t.arbWindow.exp.grant = t.exp.grant ∧ t.arbWindow.link = t.link := by
  have hfold (l : List Nat) (u : Tu) : (l.foldl Tu.starve u).windowForm = u.windowForm :=
    List.foldlRecOn (motive := fun v : Tu => v.windowForm = u.windowForm) _ _ rfl fun v hv r _ => (v.windowForm_starve r).trans hv
  have hcredit (u : Tu) (hu : u.windowForm = t.windowForm) :
      min (u.arbCredit (i.val + 2) + u.weight (i.val + 2)) 65536 = min (t.arbCredit (i.val + 2) + t.weight (i.val + 2)) 65536 := by
    have hc : u.arbCredit (i.val + 2) = t.arbCredit (i.val + 2) := (congrArg (fun x => tget x.1 (i.val + 2) 0) hu :)
    have hw : u.weight (i.val + 2) = t.weight (i.val + 2) := (congrArg (fun x => x.2.2.2 ⟨i.val + 2, by omega⟩) hu :)
    rw [hc, hw]
  have hlist (f : Nat → Int) := tget_map_add f 2 0 (List.mem_range.mpr i.isLt)
  simp only [Tu.arbWindow, hdue, ne_eq, not_true_eq_false, if_false, Tu.arbitrate_of_granted hgrant]
  refine ⟨(hlist _).trans (hcredit _ (hfold _ _)), (congrArg (fun x => x.2.1) (hfold _ _) :).trans rfl,
    (congrArg (fun x => x.2.2.1) (hfold _ _) :).trans rfl⟩

/-! ### Units that cross the path (R197 to R201, R235) -/

theorem Tu.link_resumeRings (t : Tu) : t.resumeRings.link = t.link := by
  by_cases h : t.frz.frozen = none
  · rw [Tu.resumeRings, h]
    rfl
  · exact (congrArg Tu.link (Tu.resumeRings_of_frozen h).2.2 :)

theorem Tu.link_cutDone (t : Tu) (c : CutSet) (cflags : Nat) : (t.cutDone c cflags).link = t.link := by
  have hsend (u : Tu) (r : Rec) : (u.sendFree r).link = u.link := (congrArg Tu.link (Tu.bare_sendFree (ks := []) u r) :)
  simp only [Tu.cutDone]
  split
  · split
    · exact hsend _ _
    · exact (Tu.link_resumeRings _).trans (hsend _ _)
  · exact hsend _ _

theorem Tu.link_deliver (t : Tu) (r : Nat) (u : ExUnit) : (t.deliver r u).link = t.link := by
  have hsent (t : Tu) (x : Rec) : (t.snapSent x).link = t.link := by
    simp only [Tu.snapSent]
    split
    · rfl
    · split
      · exact Tu.link_cutDone _ _ _
      · rfl
  simp only [Tu.deliver]
  split
  · split
    · exact hsent _ _
    · rfl
  · split <;> rfl

theorem Tu.link_arbitrate (t : Tu) : t.arbitrate.link = t.link := Tu.link_of_arbForm t.arbForm_arbitrate

theorem Tu.unitDone_of_granted {t : Tu} {g : Grant} (hport : t.exp.dbgPort = none) (hgrant : t.exp.grant = some g) :
    t.unitDone = ({ t with exp := { t.exp with grant := none } }.deliver g.req g.unit).arbitrate := by
  have hstill : t.arbitrate = t := Tu.arbitrate_of_granted (by rw [hgrant]; exact Option.some_ne_none g)
  simp only [Tu.unitDone, hport, Option.isSome_none, Bool.false_eq_true, if_false, hstill, hgrant]

/-- R200: the TU once its watchdog has emptied requester `r`: Sumac and the reporting path apart, it is as before, and the path is
free. -/
def Tu.WdgReset (t u : Tu) : Prop := ({ u with sumac := t.sumac } : Tu).bare = t.bare ∧ u.exp.grant = none

theorem Tu.wdgReset_lose {t u : Tu} (h : t.WdgReset u) (l : List QRec) : t.WdgReset (l.foldl (fun t q => t.lose q.act 4 [q.r]) u) :=
  List.foldlRecOn (motive := fun v : Tu => t.WdgReset v) _ _ h fun _ hv _ _ => ⟨hv.1, hv.2⟩

/-- R199, R200: the reset is counted and logged, and the path is granted anew. -/
theorem Tu.arbitrate_of_wdgReset {t u : Tu} {r : Nat} (e : Event) (hr : r < 8) (h : t.WdgReset u) :
    ((u.bump 0x2A12 (r + 1) 1).log e).arbitrate.rd 0x2A12 (r + 1) = raised 0x2A12 (r + 1) (t.rd 0x2A12 (r + 1)) 1 ∧
      (((u.bump 0x2A12 (r + 1) 1).log e).arbitrate.exp.grant.all fun x => x.since == t.part.time.now) = true ∧
      ((u.bump 0x2A12 (r + 1) 1).log e).arbitrate.link = t.link := by
  have hkeys : ∀ k, k < 8 → (tuReportKeys ++ []).contains (objKey 0x2A12 (k + 1)) = false := by decide
  obtain ⟨hbare, hgrant⟩ := h
  have hlog := Tu.bare_log (ks := []) (u.bump 0x2A12 (r + 1) 1) e
  have hrd : ((u.bump 0x2A12 (r + 1) 1).log e).rd 0x2A12 (r + 1) = raised 0x2A12 (r + 1) (t.rd 0x2A12 (r + 1)) 1 := by
    rw [Tu.rd_of_bareBut (ks := []) hlog (hkeys r hr)]
    exact Tu.rd_bump_of_bareBut (ks := []) (u := { u with sumac := t.sumac }) 1 hbare (hkeys r hr)
  have hnone : ((u.bump 0x2A12 (r + 1) 1).log e).exp.grant = none := (congrArg Export.grant (Tu.path_log _ e) :).trans hgrant
  have htime : ((u.bump 0x2A12 (r + 1) 1).log e).part.time.now = t.part.time.now :=
    (congrArg (fun b : Tu => b.part.time.now) hlog :).trans (congrArg (fun b : Tu => b.part.time.now) hbare :)
  have hlink : ((u.bump 0x2A12 (r + 1) 1).log e).link = t.link := (congrArg Tu.link hlog :).trans (congrArg Tu.link hbare :)
  generalize (u.bump 0x2A12 (r + 1) 1).log e = v at hrd hnone htime hlink ⊢
  have harb : ({ v.arbitrate.bare with sumac := Tu.reset.sumac, cuts := [], win := Tu.reset.win } : Tu) =
      { v.bare with sumac := Tu.reset.sumac, cuts := [], win := Tu.reset.win } := congrArg (fun x => { x.2.2 with cuts := [] }) v.arbForm_arbitrate
  refine ⟨?_, ?_, v.link_arbitrate.trans hlink⟩
  · refine (Tu.rd_of_bareBut (ks := []) (t := { v.arbitrate with sumac := Tu.reset.sumac, cuts := [], win := Tu.reset.win })
      (u := { v with sumac := Tu.reset.sumac, cuts := [], win := Tu.reset.win }) harb (hkeys r hr)).trans hrd
  · rw [← htime]
    exact Tu.grant_arbitrate hnone

theorem Tu.exportWdg_of_due {t : Tu} {g : Grant} (hgrant : t.exp.grant = some g) (hreq : g.req < 8)
    (hdue : g.since + 100 * 65536000 ≤ t.part.time.now) (hcuts : t.cuts = []) :
    t.exportWdg.rd 0x2A12 (g.req + 1) = raised 0x2A12 (g.req + 1) (t.rd 0x2A12 (g.req + 1)) 1 ∧
      (t.exportWdg.exp.grant.all fun x => x.since == t.part.time.now) = true ∧ t.exportWdg.link = t.link := by
  have hnone (u : Tu) (i j : Nat) (e : Event) (h : t.WdgReset u) : ((u.bump i j 1).log e).cuts = [] :=
    ((congrArg Tu.cuts (Tu.bare_log (ks := []) (u.bump i j 1) e) :).trans (congrArg Tu.cuts h.1 :)).trans hcuts
  have hreset (q : Tab (List QRec)) (z : SumacTu) (c : Prop) [Decidable c] (l : List QRec) :
      t.WdgReset (l.foldl (fun t q => t.lose q.act 4 [q.r])
        (if c then { { t with exp := { t.exp with grant := none, queues := q } } with sumac := z }
          else { t with exp := { t.exp with grant := none, queues := q } })) := by
    refine Tu.wdgReset_lose ?_ l
    split <;> exact ⟨rfl, rfl⟩
  simp only [Tu.exportWdg, hgrant, if_neg (Nat.not_lt.mpr hdue)]
  split
  next c r hc => exact absurd (hc.symm.trans (hnone _ _ _ _ (hreset _ _ _ _))) (List.cons_ne_nil c r)
  next => exact Tu.arbitrate_of_wdgReset _ hreq (hreset _ _ _ _)

theorem Tu.debugTake_of_free {t : Tu} (h : t.exp.dbgPort = none) :
    t.debugTake = { t with exp := { t.exp with
      grant := none
      dbgPort := some (t.exp.grant.map fun g => { g with since := t.part.time.now - g.since }) } } := by
  simp only [Tu.debugTake, h, Option.isSome_none, Bool.false_eq_true, if_false]

/-- R201: the debug port hands back what it interrupted. -/
theorem Tu.debugFree_of_taken {t : Tu} {g : Grant} (ws : List Word) (h : t.exp.dbgPort = some (some g)) :
    (t.debugFree ws).exp.dbgPort = none ∧
      (t.debugFree ws).exp.grant = some { g with since := t.part.time.now - g.since } ∧ (t.debugFree ws).link = t.link := by
  have hput (l : List Rec) : { l.foldl (fun t r => t.setShaper 0 ((t.shaper 0).put r)) t with exp := t.exp } = t :=
    List.foldlRecOn (motive := fun u : Tu => { u with exp := t.exp } = t) _ _ rfl fun _ hu _ _ => hu
  have hlast (u : Tu) (e : Event) (hport : u.exp.dbgPort = none)
      (hgrant : u.exp.grant = some { g with since := t.part.time.now - g.since }) (hlink : u.link = t.link) :
      (u.log e).arbitrate.exp.dbgPort = none ∧
        (u.log e).arbitrate.exp.grant = some { g with since := t.part.time.now - g.since } ∧ (u.log e).arbitrate.link = t.link := by
    have hlogged : (u.log e).exp.grant = some { g with since := t.part.time.now - g.since } :=
      (congrArg Export.grant (u.path_log e) :).trans hgrant
    rw [Tu.arbitrate_of_granted (by rw [hlogged]; exact Option.some_ne_none _)]
    exact ⟨(congrArg Export.dbgPort (u.path_log e) :).trans hport, hlogged,
      (congrArg Tu.link (Tu.bare_log (ks := []) u e) :).trans hlink⟩
  simp only [Tu.debugFree, h]
  refine hlast _ _ rfl ?_ (congrArg Tu.link (hput _) :)
  exact congrArg (fun n => some { g with since := n - g.since }) (congrArg (fun u : Tu => u.part.time.now) (hput _) :)

/-! ### The shaper (R202 to R204) -/

theorem Shaper.credit_close (x : Shaper) : x.close.credit = x.credit := by
  simp only [Shaper.close]
  split <;> rfl

/-- R203: the TU as class `c` pays for its frame. -/
def Tu.paid (t : Tu) (c : Nat) (b : Built) : Tu :=
  let t := t.accrue c
  let x := t.shaper c
  let x := if x.built.isEmpty then x.close else x
  t.setShaper c { x with built := x.built.drop 1, credit := x.credit - 1000 * t.charged b.payload }

theorem Tu.paid_credit (t : Tu) (c : Nat) (b : Built) :
    ((t.paid c b).shaper c).credit = t.credit c - 1000 * (t.charged b.payload : Int) := by
  have hself (u : Tu) (x : Shaper) : (u.setShaper c x).shaper c = x := tget_tset_self _ _ _ _
  simp only [Tu.paid, hself, Tu.accrue]
  split
  · exact congrArg (· - 1000 * (t.charged b.payload : Int)) (Shaper.credit_close _)
  · rfl

theorem Tu.frameStart_of_ready {t : Tu} {c : Nat} {b : Built} (p : Port) (hup : t.link.st = .up)
    (hfind : ((List.range 8).find? fun c => t.eligible c) = some c) (hready : t.readyFrame c = some b) :
    t.frameStart p =
      let y := t.link.sendData (.tuEnd p) t.part.time.now c b.sumac b.first b.last b.payload b.records
      (((((({ t.paid c b with link := y.1 } : Tu).emit y.2).bump (0x2A20 + c) 4 1).internal 0x350 1).internal 0x351
        (12 + 8 * b.payload.length))).arbitrate := by
  simp only [Tu.frameStart, hup, ne_eq, not_true_eq_false, if_false, hfind, hready]
  rfl

/-- What reporting and a new grant leave of a frame that has been sent. -/
theorem Tu.frame_kept (u : Tu) (m : Nat) {c : Nat} (hc : c < 8) :
    let v := ((u.internal 0x350 1).internal 0x351 m).arbitrate
    v.link = u.link ∧ v.out = u.out ∧ v.shaper c = u.shaper c ∧ v.rd (0x2A20 + c) 4 = u.rd (0x2A20 + c) 4 := by
  have hkeys : ∀ k, k < 8 → (tuReportKeys ++ []).contains (objKey (0x2A20 + k) 4) = false := by decide
  have hbare : ((u.internal 0x350 1).internal 0x351 m).bare = u.bare :=
    (Tu.bare_internal (ks := []) _ _ _).trans (Tu.bare_internal _ _ _)
  have hpath : ((u.internal 0x350 1).internal 0x351 m).exp.path = u.exp.path := (Tu.path_internal _ _ _).trans (u.path_internal _ _)
  have hout : ((u.internal 0x350 1).internal 0x351 m).out = u.out := (Tu.out_internal _ _ _).trans (u.out_internal _ _)
  generalize (u.internal 0x350 1).internal 0x351 m = v at hbare hpath hout ⊢
  have harb : ({ v.arbitrate.bare with sumac := Tu.reset.sumac, cuts := [], win := Tu.reset.win } : Tu) =
      { v.bare with sumac := Tu.reset.sumac, cuts := [], win := Tu.reset.win } := congrArg (fun x => { x.2.2 with cuts := [] }) v.arbForm_arbitrate
  have hstill : v.arbitrate.exp.still = v.exp.still := congrArg (fun x => x.2.1) v.arbForm_arbitrate
  refine ⟨v.link_arbitrate.trans (congrArg Tu.link hbare :), v.out_arbitrate.trans hout, ?_, ?_⟩
  · have hsh : v.arbitrate.exp.shapers = u.exp.shapers :=
      (congrArg Export.shapers hstill :).trans (congrArg Export.shapers hpath :)
    simp only [Tu.shaper, hsh]
  · exact (Tu.rd_of_bareBut (ks := []) (t := { v.arbitrate with sumac := Tu.reset.sumac, cuts := [], win := Tu.reset.win })
      (u := { v with sumac := Tu.reset.sumac, cuts := [], win := Tu.reset.win }) harb (hkeys c hc)).trans
      (Tu.rd_of_bareBut (ks := []) (t := v) (u := u) hbare (hkeys c hc))

theorem Tu.frameStart_spec {t : Tu} {c : Nat} {b : Built} (p : Port) (hup : t.link.st = .up)
    (hfind : ((List.range 8).find? fun c => t.eligible c) = some c) (hready : t.readyFrame c = some b) :
    let y := t.link.sendData (.tuEnd p) t.part.time.now c b.sumac b.first b.last b.payload b.records
    (t.frameStart p).link = y.1 ∧ (t.frameStart p).out = y.2 :: t.out ∧
      ((t.frameStart p).shaper c).credit = t.credit c - 1000 * (t.charged b.payload : Int) ∧
      (t.frameStart p).rd (0x2A20 + c) 4 = raised (0x2A20 + c) 4 (t.rd (0x2A20 + c) 4) 1 := by
  intro y
  have hc : c < 8 := List.mem_range.mp (List.mem_of_find?_eq_some hfind)
  have hout : (({ t.paid c b with link := y.1 } : Tu).emit y.2).out = y.2 :: t.out := Tu.emit_out _ _
  have hcount : (({ t.paid c b with link := y.1 } : Tu).emit y.2).rd (0x2A20 + c) 4 = t.rd (0x2A20 + c) 4 :=
    congrArg (fun o : Tab Nat => ({ t.part with obj := o } : Part).rd (0x2A20 + c) 4)
      (Tu.emit_part_obj { t.paid c b with link := y.1 } y.2)
  rw [Tu.frameStart_of_ready p hup hfind hready]
  obtain ⟨hlink, hemit, hshaper, hrd⟩ := Tu.frame_kept ((({ t.paid c b with link := y.1 } : Tu).emit y.2).bump (0x2A20 + c) 4 1)
    (12 + 8 * b.payload.length) hc
  refine ⟨hlink, hemit.trans hout, ?_, hrd.trans ((Part.rd_wr_self _ _ _ _).trans ?_)⟩
  · rw [hshaper]
    exact (congrArg (fun e : Export => (tget e.shapers c { build := [], built := [], credit := 0, accrued := 0 }).credit)
      (Tu.emit_exp { t.paid c b with link := y.1 } y.2)).trans (t.paid_credit c b)
  · exact congrArg (raised (0x2A20 + c) 4 · 1) hcount

/-! ### Gate lists (R206, R207) -/

theorem Tu.wrGateOrder_of_accepted {t : Tu} {v : List Byte} (hlen : v.length = 16)
    (hanswer : t.part.orderAnswer .gateList 0 (fieldAt v 12 4) = .accepted) (hadmin : t.part.rdDom 0x2A40 1 ≠ [])
    (hpos : (gateOf (t.part.rdDom 0x2A40 1)).pos (time96 v 0) = 0) :
    t.wrGateOrder v = ({ t with
      part := t.part.putOrder { kind := .gateList, target := 0, serial := fieldAt v 12 4, eff := time96 v 0, late := decide (time96 v 0 < t.ns), data := t.part.rdDom 0x2A40 1 } }, 0) := by
  simp only [Tu.wrGateOrder, hlen, hanswer, List.isEmpty_eq_false_iff.mpr hadmin, hpos, ne_eq, not_true_eq_false, if_false, bne_self_eq_false,
    Bool.and_false, lowestAbort_cons_false, lowestAbort_nil]

theorem Tu.wrGateOrder_of_refused {t : Tu} {v : List Byte} {a : Nat} (hlen : v.length = 16)
    (hanswer : t.part.orderAnswer .gateList 0 (fieldAt v 12 4) = .refused a) (ha : a ≠ 0) (hadmin : t.part.rdDom 0x2A40 1 ≠ [])
    (hpos : (gateOf (t.part.rdDom 0x2A40 1)).pos (time96 v 0) = 0) : t.wrGateOrder v = (t, a) := by
  have hcode : lowestAbort [(a != 0, a), (false, 0x27), (false, 0x29)] = a := by
    simp [lowestAbort, ha]
  simp only [Tu.wrGateOrder, hlen, hanswer, List.isEmpty_eq_false_iff.mpr hadmin, hpos, ne_eq, not_true_eq_false, if_false, bne_self_eq_false,
    Bool.not_false, Bool.and_false, hcode, ha, not_false_eq_true, if_true]

theorem Tu.gateTakeover_of_due {t : Tu} {o : Order} (horder : t.part.order? .gateList 0 = some o) (hdue : o.eff ≤ t.ns)
    (hturn : t.part.turn .gateList o.eff = true) :
    t.gateTakeover = ({ t with
      part := t.part.dropOrder .gateList 0
      exp := { t.exp with gate := some { gateOf o.data with entry := (gateOf o.data).at' t.ns } } } : Tu).log
        { event 0x0022 224 o.serial ((gateOf o.data).pos t.ns) with late := o.late } := by
  simp only [Tu.gateTakeover, Tu.gatePending, horder, Option.map_some, hturn, Bool.true_eq_false, or_false, if_neg (Nat.not_lt.mpr hdue)]
  rfl

/-! ### Power requests (R208 to R210, R437) -/

theorem PwrReq.grant_of_awaited {r : PwrReq} (now : Nat) (hout : r.outstanding = true) (hwant : r.wanted = true) :
    r.grant now = { r := { r with st := .granted, outstanding := false, n := 0, backoffUs := 0 }, sends := [], counts := [4] } := by
  simp only [PwrReq.grant, hout, hwant, Bool.not_true, Bool.false_eq_true, if_false, if_true]

theorem PwrReq.refuse_of_awaited {r : PwrReq} (now : Nat) (hout : r.outstanding = true) (hwant : r.wanted = true)
    (hst : r.st = .pending) :
    r.refuse now = { r := ({ r with outstanding := false } : PwrReq).backoff now, sends := [], counts := [5] } := by
  simp only [PwrReq.refuse, hout, hwant, hst, decide_true, Bool.and_true, if_true]

theorem PwrReq.revoke_of_granted {r : PwrReq} (now : Nat) (hst : r.st = .granted) :
    r.revoke now = { r := r.backoff now, sends := [], counts := [7] } := if_pos hst

theorem PwrReq.timeout_of_late {r : PwrReq} {us now : Nat} (hst : r.st = .pending) (hout : r.outstanding = true)
    (hlate : r.since + us * 65536000 ≤ now) : r.timeout us now = { r := r.backoff now, sends := [], counts := [6] } :=
  if_pos ⟨hst, hout, hlate⟩

theorem PwrReq.retry_of_due {r : PwrReq} {now : Nat} (hst : r.st = .backoff) (hwant : r.wanted = true)
    (hdue : r.since + r.backoffUs * 65536000 ≤ now) : r.retry now = r.send now := if_pos ⟨hst, hwant, hdue⟩

/-- A grant of an ID other than that of the trace port changes its requester alone. -/
theorem Tu.powerGrant_of_other {t : Tu} {id : Nat} (hid : id ≠ 0) :
    t.powerGrant id = t.pwr id ((t.part.pwrReq id).grant t.part.time.now) := if_neg fun h => hid h.1

theorem Tu.powerRefuse_of_awaited {t : Tu} {id : Nat} (hout : (t.part.pwrReq id).outstanding = true) :
    t.powerRefuse id = t.pwr id ((t.part.pwrReq id).refuse t.part.time.now) := by
  simp only [Tu.powerRefuse, hout, if_true]

theorem Tu.powerRevoke_of_granted {t : Tu} {id : Nat} (hid : id ≠ 0) (hst : (t.part.pwrReq id).st = .granted) :
    t.powerRevoke id = t.pwr id ((t.part.pwrReq id).revoke t.part.time.now) := by
  simp only [Tu.powerRevoke, hst, beq_self_eq_true, if_true, hid, false_and, if_false]

end Sys2Proof.Machine

namespace Sys2Proof
open Sys2Proof.Machine

/-- Settles O19: granting the path and Sumac's intake touch EXPORT's own budget and the units under way alone. -/
theorem exportArbiter : Obligations.ExportArbiter := by
  unfold Obligations.ExportArbiter
  refine ⟨?period, ?budget, ?window, ?starve, ?unitDone, ?watchdog, ?take, ?release, ?frame⟩
  case period =>
    intro s dt p ratios a hdue ha
    exact tuNext_of_onTu rfl (Tu.budgetPeriod_spec (t := (s.tu p).tick dt) hdue a.isLt ha)
  case budget =>
    intro s dt p lvl a v hlvl hv hsum
    refine tuNext_of_onTu rfl ?_
    rw [Tu.wrBudget_of_legal (t := (s.tu p).tick dt) hv hsum, Tu.reply_accepted hlvl]
  case window =>
    intro s dt p i hdue hgrant
    exact tuNext_of_onTu rfl (Tu.arbWindow_spec (t := (s.tu p).tick dt) i hdue hgrant)
  case starve =>
    intro s dt p lvl m hlvl
    refine tuNext_of_onTu rfl ?_
    rw [Tu.wrStarveClear, Tu.reply_accepted hlvl]
  case unitDone =>
    intro s dt p g hport hgrant
    refine tuNext_of_onTu rfl ?_
    rw [Tu.unitDone_of_granted (t := (s.tu p).tick dt) hport hgrant]
    exact ⟨rfl, (Tu.link_arbitrate _).trans (Tu.link_deliver _ _ _)⟩
  case watchdog =>
    intro s dt p g hgrant hreq hdue hcuts
    exact tuNext_of_onTu rfl (Tu.exportWdg_of_due (t := (s.tu p).tick dt) hgrant hreq hdue hcuts)
  case take =>
    intro s dt p hport
    exact tuNext_of_onTu rfl (Tu.debugTake_of_free (t := (s.tu p).tick dt) hport)
  case release =>
    intro s dt p ws g hport
    exact tuNext_of_onTu rfl (Tu.debugFree_of_taken (t := (s.tu p).tick dt) ws hport)
  case frame =>
    intro s dt p c b hup hfind hready
    exact tuNext_of_onTu rfl (Tu.frameStart_spec (t := (s.tu p).tick dt) p hup hfind hready)

/-- Settles O20: each answer of the power port moves one requester and counts itself. -/
theorem gatesAndPower : Obligations.GatesAndPower := by
  unfold Obligations.GatesAndPower
  refine ⟨?order, ?refused, ?advance, ?takeover, ?grant, ?refuse, ?revoke, ?timeout, ?retry⟩
  case order =>
    intro s dt p lvl v hlvl hlen hanswer hadmin hpos
    refine tuNext_of_onTu rfl ?_
    rw [Tu.wrGateOrder_of_accepted (t := (s.tu p).tick dt) hlen hanswer hadmin hpos, Tu.reply_accepted hlvl]
    rfl
  case refused =>
    intro s dt p lvl v a hlvl hlen hanswer ha hadmin hpos
    refine tuNext_of_onTu rfl ?_
    rw [Tu.wrGateOrder_of_refused (t := (s.tu p).tick dt) hlen hanswer ha hadmin hpos, Tu.reply_refused hlvl ha]
  case advance =>
    intro s dt p g hgate
    refine tuNext_of_onTu rfl ?_
    have hgate : ((s.tu p).tick dt).exp.gate = some g := hgate
    simp only [Tu.gateAdvance, hgate]
  case takeover =>
    intro s dt p o horder hdue hturn
    refine tuNext_of_onTu rfl ?_
    rw [Tu.gateTakeover_of_due (t := (s.tu p).tick dt) horder hdue hturn]
    have hbare := Tu.bare_log (ks := []) ({ (s.tu p).tick dt with
      part := ((s.tu p).tick dt).part.dropOrder .gateList 0
      exp := { ((s.tu p).tick dt).exp with gate := some { gateOf o.data with entry := (gateOf o.data).at' ((s.tu p).tick dt).ns } } } : Tu)
        { event 0x0022 224 o.serial ((gateOf o.data).pos ((s.tu p).tick dt).ns) with late := o.late }
    exact ⟨(congrArg Export.gate (Tu.path_log _ _) :), (congrArg (fun u : Tu => u.part.orders) hbare :), hbare.trans rfl⟩
  case grant =>
    intro s dt p id hid hout hwant
    refine tuNext_of_onTu rfl ?_
    rw [Tu.powerGrant_of_other hid, PwrReq.grant_of_awaited (r := ((s.tu p).tick dt).part.pwrReq id.val) _ hout hwant]
    rfl
  case refuse =>
    intro s dt p id hout hwant hst
    refine tuNext_of_onTu rfl ?_
    rw [Tu.powerRefuse_of_awaited (t := (s.tu p).tick dt) hout,
      PwrReq.refuse_of_awaited (r := ((s.tu p).tick dt).part.pwrReq id.val) _ hout hwant hst]
    rfl
  case revoke =>
    intro s dt p id hid hst
    refine tuNext_of_onTu rfl ?_
    rw [Tu.powerRevoke_of_granted (t := (s.tu p).tick dt) hid hst,
      PwrReq.revoke_of_granted (r := ((s.tu p).tick dt).part.pwrReq id.val) _ hst]
    rfl
  case timeout =>
    intro s dt p id hst hout hlate
    refine tuNext_of_onTu rfl ?_
    rw [PwrReq.timeout_of_late (now := ((s.tu p).tick dt).part.time.now) (r := ((s.tu p).tick dt).part.pwrReq id.val)
      hst hout hlate]
    rfl
  case retry =>
    intro s dt p id hst hwant hdue
    refine tuNext_of_onTu rfl ?_
    rw [PwrReq.retry_of_due (now := ((s.tu p).tick dt).part.time.now) (r := ((s.tu p).tick dt).part.pwrReq id.val)
      hst hwant hdue]
    rfl

end Sys2Proof
end

section
/-! SUPPORT. Notices of Fyster, wear and spares, and the end of Sumac blocks (R24, R102, R227, R271, R310, R335 to R340). -/

namespace Sys2Proof.Machine

/-! ### Running a command on a node or an end of a link -/

theorem tuNext_of_onNode {c : Instr} {s : State} {p : Port} {dt : Nat} {ft : Port → Tu → Tu} {ff : Fyster → Fyster} {Q : Tu → Prop}
    (hexec : exec c s = .next (onNode (.tu p) dt ft ff s)) (hQ : Q (ft p ((s.tu p).tick dt))) : TuNext c s p Q :=
  tuNext_of_onTu (g := ft p) hexec hQ

theorem fyNext_of_onNode {c : Instr} {s : State} {dt : Nat} {ft : Port → Tu → Tu} {ff : Fyster → Fyster} {Q : Fyster → Prop}
    (hexec : exec c s = .next (onNode .fyster dt ft ff s)) (hQ : Q (ff (s.fy.tick dt))) : FyNext c s Q :=
  fyNext_of_onFy (g := ff) hexec hQ

theorem tuNext_of_onEnd {c : Instr} {s : State} {p : Port} {dt : Nat} {ft : Port → Tu → Tu} {ff : Port → Fyster → Fyster}
    {Q : Tu → Prop} (hexec : exec c s = .next (onEnd (.tuEnd p) dt ft ff s)) (hQ : Q (ft p ((s.tu p).tick dt))) :
    TuNext c s p Q :=
  tuNext_of_onTu (g := ft p) hexec hQ

theorem fyNext_of_onEnd {c : Instr} {s : State} {p : Port} {dt : Nat} {ft : Port → Tu → Tu} {ff : Port → Fyster → Fyster}
    {Q : Fyster → Prop} (hexec : exec c s = .next (onEnd (.fysterEnd p) dt ft ff s)) (hQ : Q (ff p (s.fy.tick dt))) :
    FyNext c s Q :=
  fyNext_of_onFy (g := ff p) hexec hQ

/-! ### What a notice leaves (R336, R340) -/

/-- The objects that a notice writes: its serial, and the count of TSF records that its rate held back. -/
def noticeKeys : List Nat := [objKey 0x33C0 6, objKey 0x33C0 7]

/-- Fyster without what its reports, its notices and the counts of recoveries change. -/
def Fyster.unsaid (f : Fyster) : Fyster :=
  ({ f with dec := { f.dec with tsf := [] }, part := { f.part with recov := [] } } : Fyster).bareBut noticeKeys

theorem Fyster.unsaid_of_bareBut {f g : Fyster} (h : f.bareBut noticeKeys = g.bareBut noticeKeys) : f.unsaid = g.unsaid :=
  (congrArg (fun b : Fyster => { b with dec := { b.dec with tsf := [] }, part := { b.part with recov := [] } }) h :)

theorem Fyster.rd_of_unsaid {f g : Fyster} {i j : Nat} (h : f.unsaid = g.unsaid)
    (hkey : (fyReportKeys ++ noticeKeys).contains (objKey i j) = false) : f.rd i j = g.rd i j :=
  Fyster.rd_of_bareBut (f := { f with dec := { f.dec with tsf := [] }, part := { f.part with recov := [] } })
    (g := { g with dec := { g.dec with tsf := [] }, part := { g.part with recov := [] } }) h hkey

theorem Fyster.unsaid_log (f : Fyster) (e : Event) : (f.log e).unsaid = f.unsaid := Fyster.unsaid_of_bareBut (Fyster.bare_log f e)

theorem Fyster.unsaid_bump (f : Fyster) (i j n : Nat) (h : (fyReportKeys ++ noticeKeys).contains (objKey i j) = true) :
    (f.bump i j n).unsaid = f.unsaid := Fyster.unsaid_of_bareBut (Fyster.bare_bump_hidden f i j n h)

theorem Fyster.unsaid_wr (f : Fyster) (i j v : Nat) (h : (fyReportKeys ++ noticeKeys).contains (objKey i j) = true) :
    (f.wr i j v).unsaid = f.unsaid :=
  congrArg (fun o : Tab Nat => ({ ({ f with dec := { f.dec with tsf := [] } } : Fyster).bareBut noticeKeys with
    part := { f.part with recov := [], evr := .reset, alive := [], lossy := [], obj := o } } : Fyster))
    (filter_tset_hidden f.part.obj (objKey i j) v _ h)

theorem Fyster.unsaid_recovStart (f : Fyster) (row : Nat) : (f.recovStart row).unsaid = f.unsaid := by
  have hcount (g : Fyster) (row : Nat) : (g.recovCount row).unsaid = g.unsaid := Fyster.unsaid_log _ _
  exact List.foldlRecOn (motive := fun g : Fyster => g.unsaid = f.unsaid) _ _ (hcount f row) fun g hg row _ => (hcount g row).trans hg

theorem Fyster.unsaid_recovDone (f : Fyster) (row : Nat) : (f.recovDone row).unsaid = f.unsaid := by
  simp only [Fyster.recovDone]
  split <;> rfl

theorem Fyster.unsaid_hostEntry (f : Fyster) (k : Nat) (b : List Byte) : (f.hostEntry k b).unsaid = f.unsaid :=
  Fyster.unsaid_of_bareBut (Fyster.bare_hostEntry f k b)

theorem Fyster.unsaid_tsf (f : Fyster) (bs : List Byte) : (f.tsf bs).unsaid = f.unsaid := by
  simp only [Fyster.tsf]
  split
  · rfl
  · split
    · exact (Fyster.unsaid_bump _ _ _ _ (by decide)).trans rfl
    · refine (Fyster.unsaid_hostEntry _ _ _).trans ?_
      split <;> rfl

/-- R336: a notice that names no group. -/
theorem Fyster.unsaid_notify (f : Fyster) {x : Notice} (h : x.gslot = 0xFF) : (f.notify x).1.unsaid = f.unsaid := by
  have hwrite (g : Fyster) (p c s r : Nat) (l : Bool) (rs : List Rec) : (g.writeRecords p c s r l rs).unsaid = g.unsaid :=
    Fyster.unsaid_of_bareBut (Fyster.bare_writeRecords g p c s r l rs)
  simp only [Fyster.notify, h, if_true]
  refine (Fyster.unsaid_tsf _ _).trans ((Fyster.unsaid_hostEntry _ _ _).trans ((hwrite _ _ _ _ _ _ _).trans ?_))
  exact Fyster.unsaid_wr f _ _ _ (by decide)

theorem Fyster.unsaid_wearNotice (f : Fyster) (die unit spare at' : Nat) (noSpare : Bool) :
    (f.wearNotice die unit spare at' noSpare).unsaid = f.unsaid := Fyster.unsaid_notify f rfl

/-! ### Units that leave service (R24, R271, R310, R335) -/

/-- Fyster without its wear table and the units that wait for a spare. -/
def Fyster.unworn (f : Fyster) : Fyster := { f with part := { f.part with wear := [], swapQ := [] } }

theorem Fyster.unworn_unsaid_congr {f g : Fyster} (h : f.unsaid = g.unsaid) : f.unworn.unsaid = g.unworn.unsaid :=
  congrArg Fyster.unworn h

/-- A unit that fails its self-test leaves service at once. -/
theorem Fyster.unsaid_retireNow {f : Fyster} {u : Nat} (h : f.serving u = true) :
    (f.retireNow u).unworn.unsaid = (f.outOfService u).unworn.unsaid := by
  have hstart := Fyster.unworn_unsaid_congr ((f.outOfService u).unsaid_recovStart 8)
  have hmark (g : Fyster) : (g.markSwap u).unworn.unsaid = g.unworn.unsaid := by
    simp only [Fyster.markSwap]
    split <;> rfl
  have hnone (g : Fyster) : (g.wornNoSpare u 4).unworn.unsaid = g.unworn.unsaid := by
    simp only [Fyster.wornNoSpare, if_true]
    exact (Fyster.unworn_unsaid_congr ((Fyster.unsaid_wearNotice _ _ _ _ _ _).trans (Fyster.unsaid_log _ _))).trans rfl
  simp only [Fyster.retireNow, h, Bool.not_true, Bool.and_false, Bool.false_eq_true, if_false]
  split
  · exact (hmark _).trans hstart
  · exact (hnone _).trans hstart

theorem Fyster.rd_retireNow {f : Fyster} {u i j : Nat} (h : f.serving u = true)
    (hkey : (fyReportKeys ++ noticeKeys).contains (objKey i j) = false) :
    (f.retireNow u).rd i j = (f.outOfService u).rd i j :=
  Fyster.rd_of_unsaid (f := (f.retireNow u).unworn) (g := (f.outOfService u).unworn) (Fyster.unsaid_retireNow h) hkey

theorem spareKind_sumac (e : Fin 5) : spareKind (528 + e.val) = .sumac e.val := by
  revert e
  decide

theorem spareKind_merge (e : Fin 18) : spareKind (600 + e.val) = .merge e.val := by
  revert e
  decide

theorem spareKind_juniper (l : Fin 72) : spareKind (640 + l.val) = .juniper l.val := by
  revert l
  decide

theorem Fyster.selftest_of_fail {f : Fyster} {u : Nat} (h : f.part.swaps u = 0) : f.selftest u false = f.retireNow u := by
  simp only [Fyster.selftest, h, Nat.lt_irrefl, decide_false, Bool.or_self, Bool.false_eq_true, if_false]

theorem Fyster.selftest_of_pass (f : Fyster) (u : Nat) : f.selftest u true = f := rfl

theorem Fyster.mergeSelftest_of_fail {f : Fyster} {e : Fin 18} (hin : bitOf (f.rd 0x3400 1) e.val = true)
    (hswaps : f.part.swaps (600 + e.val) = 0) :
    (f.selftest (600 + e.val) false).rd 0x3400 1 = setBit (f.rd 0x3400 1) e.val false := by
  have hserving : f.serving (600 + e.val) = true := by
    simp only [Fyster.serving, spareKind_merge, hin]
  rw [Fyster.selftest_of_fail hswaps, Fyster.rd_retireNow hserving (by decide)]
  simp only [Fyster.outOfService, spareKind_merge]
  exact Part.rd_wr_self _ _ _ _

theorem Fyster.juniperSelftest_of_fail {f : Fyster} {l : Fin 72} {i : Nat} (hl : l.val < 64)
    (hlogical : f.jun.logical l.val = some i) (hin : bitOf (f.rd 0x4400 1) i = true) (hswaps : f.part.swaps (640 + l.val) = 0) :
    (f.selftest (640 + l.val) false).rd 0x4400 1 = setBit (f.rd 0x4400 1) i false := by
  have hserving : f.serving (640 + l.val) = true := by
    simp only [Fyster.serving, spareKind_juniper, hlogical, hin]
  rw [Fyster.selftest_of_fail hswaps, Fyster.rd_retireNow hserving (by decide)]
  simp only [Fyster.outOfService, spareKind_juniper, if_neg (Nat.not_le.mpr hl), hlogical]
  exact Part.rd_wr_self _ _ _ _

/-- R227: an engine of Sumac whose block fails its check leaves service and is counted. -/
theorem Fyster.sumacDone_of_fail {f : Fyster} {e : Fin 5} (hin : bitOf (f.rd 0x4800 1) e.val = true) :
    (f.sumacDone e.val false).rd 0x4800 1 = setBit (f.rd 0x4800 1) e.val false ∧
      (f.sumacDone e.val false).rd 0x4800 5 = raised 0x4800 5 (f.rd 0x4800 5) 1 := by
  have hserving : f.serving (528 + e.val) = true := by
    simp only [Fyster.serving, spareKind_sumac, hin]
  have hcase (g : Fyster) (hg : g.part.obj = f.part.obj) :
      ((g.counted 512 0x4800 5 1).retireNow (528 + e.val)).rd 0x4800 1 = setBit (f.rd 0x4800 1) e.val false ∧
        ((g.counted 512 0x4800 5 1).retireNow (528 + e.val)).rd 0x4800 5 = raised 0x4800 5 (f.rd 0x4800 5) 1 := by
    have hrd (i j : Nat) : g.rd i j = f.rd i j := by
      simp only [Fyster.rd, Part.rd, hg]
    have hmap : (g.counted 512 0x4800 5 1).rd 0x4800 1 = f.rd 0x4800 1 :=
      (Fyster.rd_of_bareBut (ks := []) (Fyster.bare_log _ _) (by decide)).trans
        ((Part.rd_bump_other g.part 1 (by decide)).trans (hrd 0x4800 1))
    have hcount : (g.counted 512 0x4800 5 1).rd 0x4800 5 = raised 0x4800 5 (f.rd 0x4800 5) 1 :=
      (Fyster.rd_of_bareBut (ks := []) (Fyster.bare_log _ _) (by decide)).trans
        ((Part.rd_wr_self _ _ _ _).trans (congrArg (raised 0x4800 5 · 1) (hrd 0x4800 5)))
    have hserving : (g.counted 512 0x4800 5 1).serving (528 + e.val) = true := by
      simp only [Fyster.serving, spareKind_sumac, hmap, hin]
    rw [Fyster.rd_retireNow hserving (by decide), Fyster.rd_retireNow hserving (by decide)]
    simp only [Fyster.outOfService, spareKind_sumac, hmap]
    exact ⟨Part.rd_wr_self _ _ _ _, (Part.rd_wr_other _ _ (by decide)).trans hcount⟩
  simp only [Fyster.sumacDone, hserving, Bool.not_true, Bool.false_eq_true, if_false]
  split
  · exact hcase _ rfl
  · exact hcase _ rfl

/-! ### Spare banks of a TU (R102, R335) -/

theorem Tu.wearReading_of_sound {t : Tu} {r : WearReading} (husable : readingUsable r = true)
    (hworn : (t.part.wearRead t.limits r).2 = false) :
    t.wearReading r = { t with part := (t.part.wearRead t.limits r).1 } := by
  simp only [Tu.wearReading, husable, hworn, Bool.not_true, Bool.false_eq_true, if_false]

theorem Part.worn_wearRead {p : Part} {l : WearLimits} {r : WearReading} (h : (p.wearRead l r).2 = true) :
    (p.wearRead l r).1.worn r.unit = true := by
  have hix : monitorIx r.monitor ∈ List.range 3 := by
    cases r.monitor <;> decide
  simp only [Part.wearRead, Bool.and_eq_true] at h
  exact List.any_eq_true.mpr ⟨monitorIx r.monitor, hix, (congrArg Wear.worn (tget_tset_self _ _ _ _)).trans h.2⟩

theorem Tu.wearReading_of_worn {t : Tu} {r : WearReading} (husable : readingUsable r = true)
    (hworn : (t.part.wearRead t.limits r).2 = true) (hunit : r.unit < 88) (hswapped : t.bankSwapped r.unit = false)
    (hfree : t.freeBank ≠ none) :
    t.wearReading r = { t with
      part := { (t.part.wearRead t.limits r).1 with swapQ := t.part.swapQ ++ [r.unit] } } := by
  have hswapped : ({ t with part := (t.part.wearRead t.limits r).1 } : Tu).bankSwapped r.unit = false := hswapped
  have hfree : ({ t with part := (t.part.wearRead t.limits r).1 } : Tu).freeBank.isSome = true := Option.isSome_iff_ne_none.mpr hfree
  simp only [Tu.wearReading, husable, hworn, Bool.not_true, Bool.false_eq_true, if_false, if_true, Tu.markWorn, hunit, hswapped, hfree]
  rfl

theorem Tu.spareSwap_of_free {t : Tu} {u i : Nat} (hmem : u ∈ t.part.swapQ) (hu : u < 88) (hfree : t.freeBank = some i) :
    t.spareSwap u = ((({ t with spares := tset t.spares i u } : Tu).bump 0x2370 2 1 |> fun (t : Tu) =>
      ({ t with part := t.part.swapped u } : Tu)).bump 0x2D00 5 1).log (event 0x0010 224 224 224) := by
  simp only [Tu.spareSwap, List.contains_iff_mem.mpr hmem, Bool.not_true, Bool.false_eq_true, if_false, hu, if_true, hfree]

theorem Tu.spareSwap_spec {t : Tu} {u i : Nat} (hmem : u ∈ t.part.swapQ) (hu : u < 88) (hfree : t.freeBank = some i) :
    (t.spareSwap u).spares = tset t.spares i u ∧ (t.spareSwap u).part.swapQ = t.part.swapQ.filter (· != u) ∧
      (t.spareSwap u).rd 0x2D00 5 = raised 0x2D00 5 (t.rd 0x2D00 5) 1 ∧
      (t.spareSwap u).rd 0x2370 2 = raised 0x2370 2 (t.rd 0x2370 2) 1 ∧ (t.spareSwap u).mace = t.mace := by
  rw [Tu.spareSwap_of_free hmem hu hfree]
  generalize hswapped : (({ t with spares := tset t.spares i u } : Tu).bump 0x2370 2 1 |> fun (t : Tu) =>
      ({ t with part := t.part.swapped u } : Tu)) = v
  have hbare := Tu.bare_log (ks := []) (v.bump 0x2D00 5 1) (event 0x0010 224 224 224)
  have hswaps : v.rd 0x2D00 5 = t.rd 0x2D00 5 := by
    rw [← hswapped]
    exact Part.rd_bump_other _ _ (by decide)
  have hbanks : v.rd 0x2370 2 = raised 0x2370 2 (t.rd 0x2370 2) 1 := by
    rw [← hswapped]
    exact Part.rd_wr_self _ _ _ _
  refine ⟨(congrArg Tu.spares hbare :).trans ?_, (congrArg (fun b : Tu => b.part.swapQ) hbare :).trans ?_, ?_, ?_,
    (Tu.mace_log _ _).trans ?_⟩
  · rw [← hswapped]
    rfl
  · rw [← hswapped]
    rfl
  · refine (Tu.rd_of_bareBut (ks := []) hbare (by decide)).trans ?_
    exact (Part.rd_wr_self _ _ _ _).trans (congrArg (raised 0x2D00 5 · 1) hswaps)
  · refine (Tu.rd_of_bareBut (ks := []) hbare (by decide)).trans ?_
    exact (Part.rd_bump_other _ _ (by decide)).trans hbanks
  · rw [← hswapped]
    rfl

/-! ### Sumac blocks of a TU (R227, R228) -/

theorem Tu.sumacFlush_of_due {t : Tu} (hdue : t.sumac.opened + t.rd 0x2800 2 * 65536000 ≤ t.part.time.now)
    (hopen : t.sumac.block ≠ []) :
    t.sumacFlush = { t with sumac := { t.sumac with closed := t.sumac.closed ++ [t.sumac.block], block := [] } } := by
  simp only [Tu.sumacFlush, if_pos hdue, Tu.sumacClose, List.isEmpty_eq_false_iff.mpr hopen, Bool.false_eq_true, if_false]

/-- R227: a block that has passed its check is no FALLBACK block. -/
theorem blockKind_of_pass (plain : Bool) (bseq : Nat) (input : List Byte) :
    blockKind (sumacBlock plain false bseq input) ≠ 3 := by
  have hkind (k : Nat) (hk : k < 256) (input body crc : List Byte) : blockKind (sumacHead k bseq input body ++ crc) = k := by
    simp only [sumacHead, leBytes, packNat, blockKind, fieldAt, slice, List.cons_append, List.drop_zero, List.take_succ_cons,
      List.take_zero, leNat, BitVec.toNat_ofNat]
    omega
  simp only [sumacBlock, Bool.false_eq_true, if_false]
  split
  · exact fun h => absurd ((hkind 2 (by decide) _ _ _).symm.trans h) (by decide)
  · split
    · exact fun h => absurd ((hkind 2 (by decide) _ _ _).symm.trans h) (by decide)
    · exact fun h => absurd ((hkind 1 (by decide) _ _ _).symm.trans h) (by decide)

theorem Tu.sumacDone_of_pass {t : Tu} {b : List QRec} {r : List (List QRec)} (h : t.sumac.closed = b :: r) :
    (t.sumacDone true).sumac = { t.sumac with
        closed := r
        frags := t.sumac.frags ++ fragments (sumacBlock t.sumacPlain false t.sumac.bseq (b.flatMap fun q => wordsBytes q.r.words))
        sending := t.sumac.sending ++ [b]
        bseq := t.sumac.bseq + 1 } ∧
      (t.sumacDone true).rd 0x2800 3 = raised 0x2800 3 (t.rd 0x2800 3) 1 ∧ (t.sumacDone true).exp = t.exp ∧
      (t.sumacDone true).link = t.link := by
  have htake (k : Nat) (bs : List Byte) : (t.part.crcTake k bs).rd 0x2800 3 = t.rd 0x2800 3 := by
    simp only [Part.crcTake]
    split <;> rfl
  have hcount (u : Tu) (m n : Nat) (hu : u.rd 0x2800 3 = t.rd 0x2800 3) :
      (((u.bump 0x2800 3 1).bump 0x2800 4 m).bump 0x2800 5 n).rd 0x2800 3 = raised 0x2800 3 (t.rd 0x2800 3) 1 :=
    (Part.rd_bump_other _ _ (by decide)).trans ((Part.rd_bump_other _ _ (by decide)).trans
      ((Part.rd_wr_self _ _ _ _).trans (congrArg (raised 0x2800 3 · 1) hu)))
  simp only [Tu.sumacDone, h, Bool.not_true, if_neg (blockKind_of_pass _ _ _)]
  split
  · exact ⟨rfl, (Part.rd_bump_other _ _ (by decide)).trans (hcount _ _ _ (htake _ _)), rfl, rfl⟩
  · exact ⟨rfl, hcount _ _ _ (htake _ _), rfl, rfl⟩

end Sys2Proof.Machine

namespace Sys2Proof
open Sys2Proof.Machine

/-- Settles O21: a unit that leaves service changes the map of its kind, and its notices change no map. -/
theorem sumacAndSpares : Obligations.SumacAndSpares := by
  unfold Obligations.SumacAndSpares
  refine ⟨?flush, ?pass, ?fail, ?sound, ?worn, ?swap, ?merge, ?juniper, ?mergePass, ?juniperPass⟩
  case flush =>
    intro s dt p hdue hopen
    refine tuNext_of_onTu rfl ?_
    exact Tu.sumacFlush_of_due (t := (s.tu p).tick dt) hdue hopen
  case pass =>
    intro s dt p e b r hclosed
    refine tuNext_of_onNode rfl ?_
    exact Tu.sumacDone_of_pass (t := (s.tu p).tick dt) hclosed
  case fail =>
    intro s dt e hin
    refine fyNext_of_onNode rfl ?_
    exact Fyster.sumacDone_of_fail (f := s.fy.tick dt) hin
  case sound =>
    intro s dt p r husable hworn
    refine tuNext_of_onNode rfl ?_
    exact Tu.wearReading_of_sound (t := (s.tu p).tick dt) husable hworn
  case worn =>
    intro s dt p r husable hworn hunit hswapped hfree
    refine tuNext_of_onNode rfl ?_
    rw [Tu.wearReading_of_worn (t := (s.tu p).tick dt) husable hworn hunit hswapped hfree]
    exact ⟨rfl, Part.worn_wearRead (p := ((s.tu p).tick dt).part) (l := ((s.tu p).tick dt).limits) hworn, rfl⟩
  case swap =>
    intro s dt p u i hmem hu hfree
    refine tuNext_of_onNode rfl ?_
    exact Tu.spareSwap_spec (t := (s.tu p).tick dt) hmem hu hfree
  case merge =>
    intro s dt e hin hswaps
    refine fyNext_of_onFy rfl ?_
    exact Fyster.mergeSelftest_of_fail (f := s.fy.tick dt) hin hswaps
  case juniper =>
    intro s dt l i hl hlogical hin hswaps
    refine fyNext_of_onFy rfl ?_
    exact Fyster.juniperSelftest_of_fail (f := s.fy.tick dt) hl hlogical hin hswaps
  case mergePass =>
    intro s dt e
    exact fyNext_of_onFy rfl rfl
  case juniperPass =>
    intro s dt l
    exact fyNext_of_onFy rfl rfl

end Sys2Proof
end

section
/-! SUPPORT. Pins, partition sizes and dumps (R219, R221, R244 to R248). -/

namespace Sys2Proof.Machine

/-! ### Power requests of the tray (R424) -/

/-- Fyster without its objects, its power requests and what it sends. -/
def Fyster.around (f : Fyster) : Fyster := { f with part := { f.part with obj := [], pwr := [] }, out := [] }

theorem Fyster.around_foldl {β : Type} (g : Fyster → β → Fyster) (hg : ∀ f b, (g f b).around = f.around) (l : List β) (f : Fyster) :
    (l.foldl g f).around = f.around :=
  List.foldlRecOn (motive := fun h : Fyster => h.around = f.around) _ _ rfl fun h hh b _ => (hg h b).trans hh

theorem Fyster.around_pwr (f : Fyster) (id : Nat) (o : PwrOut) : (f.pwr id o).around = f.around := by
  have hbump (l : List Nat) (g : Fyster) : (l.foldl (fun f c => f.bump (0x7800 + id) c 1) g).around = g.around :=
    Fyster.around_foldl (fun f c => f.bump (0x7800 + id) c 1) (fun _ _ => rfl) l g
  have hemit (l : List Nat) (g : Fyster) : (l.foldl (fun f op => f.emit (.power op id o.r.units o.r.seq)) g).around = g.around :=
    Fyster.around_foldl (fun f op => f.emit (.power op id o.r.units o.r.seq)) (fun _ _ => rfl) l g
  simp only [Fyster.pwr]
  split
  · split
    · exact (hbump _ _).trans (hbump _ _)
    · exact hbump _ _
  · exact (hemit _ _).trans (hbump _ _)

/-- Without SELF_GRANT the request is as its operation leaves it. -/
theorem Fyster.pwrReq_pwr {f : Fyster} (id : Nat) (o : PwrOut) (h : f.rd 0x7880 2 ≠ 1) : (f.pwr id o).part.pwrReq id = o.r := by
  have hself : (f.rd 0x7880 2 == 1) = false := beq_eq_false_iff_ne.mpr h
  have hbump (g : Fyster) (l : List Nat) : (l.foldl (fun f c => f.bump (0x7800 + id) c 1) g).part.pwr = g.part.pwr :=
    List.foldlRecOn (motive := fun h : Fyster => h.part.pwr = g.part.pwr) _ _ rfl fun _ hh _ _ => hh
  have hemit (g : Fyster) (l : List Nat) :
      (l.foldl (fun f op => f.emit (.power op id o.r.units o.r.seq)) g).part.pwr = g.part.pwr :=
    List.foldlRecOn (motive := fun h : Fyster => h.part.pwr = g.part.pwr) _ _ rfl fun _ hh _ _ => hh
  simp only [Fyster.pwr, hself, Bool.false_eq_true, if_false, Part.pwrReq, hemit, hbump]
  exact tget_tset_self _ _ _ _

/-! ### Pins (R219) -/

theorem Fyster.wrPinRelease_of_held {f : Fyster} {tag : Nat} (h : (f.holds.any fun h => h.2.tag == tag) = true) :
    f.wrPinRelease tag = ({ f with holds := f.holds.filter fun h => h.2.tag != tag }, 0) := by
  simp only [Fyster.wrPinRelease, Fyster.unpin, h, if_true]

theorem Fyster.wrPinRelease_of_none {f : Fyster} {tag : Nat} (h : (f.holds.any fun h => h.2.tag == tag) = false) :
    f.wrPinRelease tag = (f, 0x2D) := by
  simp only [Fyster.wrPinRelease, Fyster.unpin, h, Bool.false_eq_true, if_false]

theorem Fyster.pinExpire_of_old {f : Fyster} {h : Nat} {x : Hold} (hheld : tfind f.holds h = some x) (hset : f.rd 0x6809 2 ≠ 0)
    (hold : x.since + f.rd 0x6809 2 * 1000000000 < f.ns) : f.pinExpire h = { f with holds := tdel f.holds h } := by
  simp only [Fyster.pinExpire, hheld]
  exact if_pos ⟨hset, hold⟩

/-- A pin is made unless all eight holds are in use, and changes the holds and their count of trims alone. -/
theorem Fyster.pin_frame (f : Fyster) (tag cause : Nat) (ranges : List (Nat × Nat × Option Nat)) :
    { (f.pin tag cause ranges).1 with holds := f.holds, part := f.part } = f ∧
      (f.pin tag cause ranges).2.1 = !f.freeHold.isNone ∧
      (f.pin tag cause ranges).1.part.pwr = f.part.pwr ∧ (f.pin tag cause ranges).1.rd 0x7880 2 = f.rd 0x7880 2 := by
  simp only [Fyster.pin]
  split
  next h => exact ⟨rfl, by rw [h]; rfl, rfl, rfl⟩
  next h =>
    rw [h]
    split
    · exact ⟨rfl, rfl, rfl, Part.rd_bump_other _ _ (by decide)⟩
    · exact ⟨rfl, rfl, rfl, rfl⟩

/-! ### Partition sizes (R221) -/

theorem Fyster.wrPartSegments_of_legal {f : Fyster} {p v : Nat} (hlo : 64 ≤ v) (hhi : v ≤ 16384)
    (hsum : sumBy (fun q => if q = p then 0 else (f.partition q).size) (List.range 32) + v ≤ 131072)
    (hdown : (f.link p).st = .down) (hpins : f.pinnedSegs p = []) :
    f.wrPartSegments p v =
      ({ f with ring := tset f.ring p { f.partition p with size := v, segs := [], block := none } }, 0) := by
  simp only [Fyster.wrPartSegments, decide_eq_false (Nat.not_lt.mpr hlo), decide_eq_false (Nat.not_lt.mpr hhi),
    decide_eq_false (Nat.not_lt.mpr hsum), hdown, hpins, bne_self_eq_false, List.isEmpty_nil, Bool.not_true, Bool.or_false,
    lowestAbort_cons_false, lowestAbort_nil]

theorem Fyster.wrPartSegments_of_range {f : Fyster} {p v : Nat} (h : v < 64 ∨ 16384 < v) : f.wrPartSegments p v = (f, 0x25) := by
  have hcode (a b : Bool) : lowestAbort [(true, 0x25), (a, 0x28), (b, 0x27)] = 0x25 := by
    cases a <;> cases b <;> rfl
  simp only [Fyster.wrPartSegments, ← Bool.decide_or, decide_eq_true h, hcode]

/-! ### Dumps (R244 to R248) -/

theorem Fyster.dump_setDump (f : Fyster) (ch : Nat) (d : Dump) : (f.setDump ch d).dump ch = d := tget_tset_self _ _ _ _

theorem Fyster.dump_pwr (f : Fyster) (id ch : Nat) (o : PwrOut) : (f.pwr id o).dump ch = f.dump ch :=
  (congrArg (·.dump ch) (f.around_pwr id o) :)

theorem Fyster.ring_pwr (f : Fyster) (id : Nat) (o : PwrOut) : (f.pwr id o).ring = f.ring :=
  (congrArg Fyster.ring (f.around_pwr id o) :)

/-- The dump that a DUMP_START fixes. -/
def Fyster.started (f : Fyster) (ch serial : Nat) : Dump :=
  let spec := f.part.rdDom (0x6840 + ch) 1
  { state := 1, serial := serial, spec := spec, todo := f.dumpList spec, done := [], bytes := 0
    engines := f.dumpEngines (fieldAt spec 1 1), here := false, isOpen := false
    unpinned := fieldAt spec 3 1 == 1 && f.freeHold.isNone, abort := false }

theorem PwrReq.st_ask {r : PwrReq} (units now : Nat) (h : r.wanted = false) : (r.ask units now).r.st = .pending := by
  simp only [PwrReq.ask, h, Bool.false_eq_true, if_false]
  split <;> rfl

/-- A dump that waits for power does not run. -/
theorem Fyster.dumpRun_of_pending {f : Fyster} {ch : Nat} (h : (f.part.pwrReq (1 + ch)).st = .pending) : f.dumpRun ch = f := by
  have hnot : f.granted (1 + ch) = false := by
    simp only [Fyster.granted, h]
    decide
  simp only [Fyster.dumpRun, hnot, Bool.false_eq_true, and_false, if_false]

/-- The dump waits for power once it is fixed. -/
theorem Fyster.dumpRun_asked {g : Fyster} {ch units : Nat} {d : Dump} {ring : Tab Partition} (hdump : g.dump ch = d)
    (hself : g.rd 0x7880 2 ≠ 1) (hwant : (g.part.pwrReq (1 + ch)).wanted = false) (hring : g.ring = ring) :
    ((g.pwr (1 + ch) ((g.part.pwrReq (1 + ch)).ask units g.part.time.now)).dumpRun ch).dump ch = d ∧
      (((g.pwr (1 + ch) ((g.part.pwrReq (1 + ch)).ask units g.part.time.now)).dumpRun ch).part.pwrReq (1 + ch)).st = .pending ∧
      ((g.pwr (1 + ch) ((g.part.pwrReq (1 + ch)).ask units g.part.time.now)).dumpRun ch).ring = ring := by
  have hst : ((g.pwr (1 + ch) ((g.part.pwrReq (1 + ch)).ask units g.part.time.now)).part.pwrReq (1 + ch)).st = .pending := by
    rw [Fyster.pwrReq_pwr _ _ hself]
    exact PwrReq.st_ask _ _ hwant
  rw [Fyster.dumpRun_of_pending hst]
  exact ⟨(Fyster.dump_pwr _ _ _ _).trans hdump, hst, (Fyster.ring_pwr _ _ _).trans hring⟩

theorem Fyster.wrDumpStart_of_legal {f : Fyster} {ch serial : Nat}
    (hcode : f.dumpCode (f.dump ch) (f.part.rdDom (0x6840 + ch) 1) = 0) (hself : f.rd 0x7880 2 ≠ 1)
    (hwant : (f.part.pwrReq (1 + ch)).wanted = false) :
    (f.wrDumpStart ch serial).2 = 0 ∧ (f.wrDumpStart ch serial).1.dump ch = f.started ch serial ∧
      ((f.wrDumpStart ch serial).1.part.pwrReq (1 + ch)).st = .pending ∧ (f.wrDumpStart ch serial).1.ring = f.ring := by
  simp only [Fyster.wrDumpStart, hcode]
  refine ⟨trivial, ?_⟩
  split
  next hpin =>
    obtain ⟨hframe, hok, hpwr, hrd⟩ := f.pin_frame serial 2 _
    refine Fyster.dumpRun_asked ((Fyster.dump_setDump _ _ _).trans ?_) (fun hone => hself (hrd.symm.trans hone)) ?_
      (congrArg Fyster.ring hframe :)
    · simp only [hok, Fyster.started, hpin, Bool.not_not, beq_self_eq_true, Bool.true_and]
    · exact (congrArg (fun w => (tget w (1 + ch) PwrReq.zero).wanted) hpwr).trans hwant
  next hpin =>
    refine Fyster.dumpRun_asked ((Fyster.dump_setDump _ _ _).trans ?_) hself hwant rfl
    simp only [Fyster.started, beq_eq_false_iff_ne.mpr hpin, Bool.false_and, Bool.not_true]

theorem Fyster.abortDump_of_running {f : Fyster} {ch : Nat} (h : (f.dump ch).state = 2) :
    f.abortDump ch = f.setDump ch { f.dump ch with abort := true } := by
  simp [Fyster.abortDump, h]

theorem Fyster.abortDump_of_idle {f : Fyster} {ch : Nat} (h₁ : (f.dump ch).state ≠ 1) (h₂ : (f.dump ch).state ≠ 2) :
    f.abortDump ch = f := by
  simp only [Fyster.abortDump, h₁, h₂, if_false]

theorem Fyster.dumpEnd_spec (f : Fyster) (ch state : Nat) :
    (f.dumpEnd ch state).dump ch = { f.dump ch with state := state, todo := [], engines := 0, abort := false } ∧
      (f.dumpEnd ch state).ring = f.ring :=
  ⟨(Fyster.dump_pwr _ _ _ _).trans (Fyster.dump_setDump _ _ _), Fyster.ring_pwr _ _ _⟩

theorem Fyster.dumpStep_of_error {f : Fyster} {ch : Nat} (h : (f.dump ch).state = 2) : f.dumpStep ch .destError = f.dumpEnd ch 5 := by
  simp only [Fyster.dumpStep, h, ne_eq, not_true_eq_false, if_false]

/-- What the copying of a segment leaves: the dumps, the partitions and the holds. -/
def Fyster.dumpForm (f : Fyster) : Tab Dump × Tab Partition × Tab Hold := (f.dumps, f.ring, f.holds)

theorem Fyster.dumpForm_dumpWrite (f : Fyster) (ch : Nat) (d : Dump) (o : Nat) (bytes : List Byte) :
    (f.dumpWrite ch d o bytes).dumpForm = f.dumpForm := by
  simp only [Fyster.dumpWrite]
  split
  · rfl
  · split
    · rfl
    · split
      · rfl
      · exact List.foldlRecOn (motive := fun g : Fyster => g.dumpForm = f.dumpForm) _ _ rfl fun _ hg _ _ => hg

theorem Fyster.dumpForm_dumpDigest (f : Fyster) (ch : Nat) (o : SegOut) : (f.dumpDigest ch o).dumpForm = f.dumpForm := by
  simp only [Fyster.dumpDigest, Fyster.crcUnknown]
  split
  · rfl
  · split <;> rfl

/-- R246: the next segment is the dump's. -/
theorem Fyster.dumpLook_of_next {f : Fyster} {ch q n : Nat} {r : List (Nat × Nat)} (h : (f.dump ch).todo = (q, n) :: r) :
    ((f.dumpLook ch).dump ch).state = (f.dump ch).state ∧ ((f.dumpLook ch).dump ch).todo = (f.dump ch).todo ∧
      ((f.dumpLook ch).dump ch).bytes = (f.dump ch).bytes ∧ ((f.dumpLook ch).dump ch).done = (f.dump ch).done ∧
      (f.dumpLook ch).ring = f.ring ∧ (f.dumpLook ch).holds = f.holds := by
  simp only [Fyster.dumpLook, h, Fyster.dump_setDump]
  exact ⟨trivial, trivial, trivial, trivial, rfl, rfl⟩

/-- R245: Fyster once a segment has gone to the destination and into the digest. -/
def Fyster.segWritten (f : Fyster) (ch : Nat) (o : SegOut) : Fyster :=
  let f := (f.dumpWrite ch (f.dump ch) (f.dump ch).bytes o.bytes).dumpDigest ch o
  let f := if o.decoded = 0 then f else f.bump 0x4800 3 o.decoded
  if o.bad = 0 then f else f.bump 0x4800 4 o.bad

theorem Fyster.dumpForm_segWritten (f : Fyster) (ch : Nat) (o : SegOut) : (f.segWritten ch o).dumpForm = f.dumpForm := by
  have hbase := (Fyster.dumpForm_dumpDigest (f.dumpWrite ch (f.dump ch) (f.dump ch).bytes o.bytes) ch o).trans
    (Fyster.dumpForm_dumpWrite f ch (f.dump ch) (f.dump ch).bytes o.bytes)
  have hbump (g : Fyster) (i j n : Nat) (c : Prop) [Decidable c] : (if c then g else g.bump i j n).dumpForm = g.dumpForm := by
    split <;> rfl
  exact (hbump _ _ _ _ _).trans ((hbump _ _ _ _ _).trans hbase)

/-- R248: the dump with one more entry in its manifest. -/
def Dump.withEntry (d : Dump) (rest : List (Nat × Nat)) (e : DumpEntry) : Dump :=
  { d with todo := rest, done := d.done ++ [e], bytes := d.bytes + e.bytes }

theorem Fyster.dumpStep_of_copied {f : Fyster} {ch q n : Nat} {r : List (Nat × Nat)} {x : Seg} (hstate : (f.dump ch).state = 2)
    (htodo : (f.dump ch).todo = (q, n) :: r) (hrest : r ≠ []) (hq : q ≠ 0xFE) (hhere : (f.dump ch).here = true)
    (hopen : (f.dump ch).isOpen = false) (hpinned : (f.dump ch).unpinned = false) (habort : (f.dump ch).abort = false)
    (hseg : ((f.partition q).segs.find? fun s => s.serial == n) = some x)
    (hfits : (f.dump ch).bytes + (x.form (fieldAt (f.dump ch).spec 1 1) q (f.pinMask q n)).length ≤ fieldAt (f.dump ch).spec 40 8) :
    f.dumpStep ch .copied =
      ((f.segWritten ch (x.form (fieldAt (f.dump ch).spec 1 1) q (f.pinMask q n))).setDump ch
        ((f.dump ch).withEntry r { part := q, state := 0, bad := (x.form (fieldAt (f.dump ch).spec 1 1) q (f.pinMask q n)).bad, serial := n, offset := (f.dump ch).bytes, bytes := (x.form (fieldAt (f.dump ch).spec 1 1) q (f.pinMask q n)).length })).dumpLook ch := by
  simp only [Fyster.dumpStep, Fyster.segWritten, Dump.withEntry, hstate, htodo, hseg, hhere, hopen, hpinned, habort, hq, ne_eq,
    not_true_eq_false, if_false, Bool.not_true, Bool.false_eq_true, Option.isNone_some, if_neg (Nat.not_lt.mpr hfits),
    List.isEmpty_eq_false_iff.mpr hrest]

/-- R245, R248: a segment that has been copied in order is in the manifest. -/
theorem Fyster.dumpStep_spec {f : Fyster} {ch q n : Nat} {r : List (Nat × Nat)} {x : Seg} (hstate : (f.dump ch).state = 2)
    (htodo : (f.dump ch).todo = (q, n) :: r) (hrest : r ≠ []) (hq : q ≠ 0xFE) (hhere : (f.dump ch).here = true)
    (hopen : (f.dump ch).isOpen = false) (hpinned : (f.dump ch).unpinned = false) (habort : (f.dump ch).abort = false)
    (hseg : ((f.partition q).segs.find? fun s => s.serial == n) = some x)
    (hfits : (f.dump ch).bytes + (x.form (fieldAt (f.dump ch).spec 1 1) q (f.pinMask q n)).length ≤ fieldAt (f.dump ch).spec 40 8) :
    let d := f.dump ch
    let o := x.form (fieldAt d.spec 1 1) q (f.pinMask q n)
    ((f.dumpStep ch .copied).dump ch).state = 2 ∧ ((f.dumpStep ch .copied).dump ch).todo = r ∧
      ((f.dumpStep ch .copied).dump ch).bytes = d.bytes + o.length ∧
      ((f.dumpStep ch .copied).dump ch).done =
        d.done ++ [{ part := q, state := 0, bad := o.bad, serial := n, offset := d.bytes, bytes := o.length }] ∧
      (f.dumpStep ch .copied).ring = f.ring ∧ (f.dumpStep ch .copied).holds = f.holds := by
  intro d o
  rw [Fyster.dumpStep_of_copied hstate htodo hrest hq hhere hopen hpinned habort hseg hfits]
  have hform := f.dumpForm_segWritten ch o
  obtain ⟨⟨q', n'⟩, r', hr⟩ := List.exists_cons_of_ne_nil hrest
  obtain ⟨hst, htd, hby, hdn, hring, hholds⟩ := Fyster.dumpLook_of_next (f := (f.segWritten ch o).setDump ch
    (d.withEntry r { part := q, state := 0, bad := o.bad, serial := n, offset := d.bytes, bytes := o.length })) (ch := ch)
    (by rw [Fyster.dump_setDump]; exact hr)
  rw [Fyster.dump_setDump] at hst htd hby hdn
  exact ⟨hst.trans hstate, htd, hby, hdn, hring.trans (congrArg (fun x => x.2.1) hform :),
    hholds.trans (congrArg (fun x => x.2.2) hform :)⟩

end Sys2Proof.Machine

namespace Sys2Proof
open Sys2Proof.Machine

/-- Settles O22: a dump's power request changes no dump, no partition and no hold. -/
theorem holdsAndDumps : Obligations.HoldsAndDumps := by
  unfold Obligations.HoldsAndDumps
  refine ⟨?unpin, ?unknown, ?expiry, ?segments, ?range, ?start, ?abort, ?idle, ?error, ?copied⟩
  case unpin =>
    intro s dt lvl tag hlvl hheld
    refine fyNext_of_onFy rfl ?_
    rw [Fyster.wrPinRelease_of_held (f := s.fy.tick dt) hheld, Fyster.reply_accepted hlvl]
    rfl
  case unknown =>
    intro s dt lvl tag hlvl hheld
    refine fyNext_of_onFy rfl ?_
    rw [Fyster.wrPinRelease_of_none (f := s.fy.tick dt) hheld, Fyster.reply_refused hlvl (Nat.succ_ne_zero _)]
  case expiry =>
    intro s dt k x hheld hset hold
    exact fyNext_of_onFy rfl (Fyster.pinExpire_of_old (f := s.fy.tick dt) hheld hset hold)
  case segments =>
    intro s dt lvl p v hlvl hlo hhi hsum hdown hpins
    refine fyNext_of_onFy rfl ?_
    rw [Fyster.wrPartSegments_of_legal (f := s.fy.tick dt) hlo hhi hsum hdown hpins, Fyster.reply_accepted hlvl]
    rfl
  case range =>
    intro s dt lvl p v hlvl hv
    refine fyNext_of_onFy rfl ?_
    rw [Fyster.wrPartSegments_of_range (f := s.fy.tick dt) hv, Fyster.reply_refused hlvl (Nat.succ_ne_zero _)]
  case start =>
    intro s dt lvl ch n hlvl hcode hself hwant
    obtain ⟨hanswer, hdump, hst, hring⟩ := Fyster.wrDumpStart_of_legal (f := s.fy.tick dt) (serial := n.toNat) hcode hself hwant
    refine fyNext_of_onFy rfl ?_
    have hhead := Fyster.reply_out_head (f := s.fy.tick dt) ((s.fy.tick dt).wrDumpStart ch.val n.toNat) hlvl
    rw [hanswer] at hhead
    generalize (s.fy.tick dt).wrDumpStart ch.val n.toNat = r at hanswer hdump hst hring hhead ⊢
    obtain ⟨g, a⟩ := r
    subst hanswer
    rw [Fyster.reply_accepted hlvl] at hhead ⊢
    exact ⟨hdump, hst, hring, hhead⟩
  case abort =>
    intro s dt lvl ch hlvl hstate
    refine fyNext_of_onFy rfl ?_
    rw [Fyster.abortDump_of_running (f := s.fy.tick dt) hstate, Fyster.reply_accepted hlvl]
    rfl
  case idle =>
    intro s dt lvl ch hlvl h₁ h₂
    refine fyNext_of_onFy rfl ?_
    rw [Fyster.abortDump_of_idle (f := s.fy.tick dt) h₁ h₂, Fyster.reply_accepted hlvl]
  case error =>
    intro s dt ch hstate
    refine fyNext_of_onFy rfl ?_
    rw [Fyster.dumpStep_of_error (f := s.fy.tick dt) hstate]
    exact Fyster.dumpEnd_spec _ _ _
  case copied =>
    intro s dt ch q n r x hstate htodo hrest hq hhere hopen hpinned habort hseg hfits
    exact fyNext_of_onFy rfl (Fyster.dumpStep_spec (f := s.fy.tick dt) hstate htodo hrest hq hhere hopen hpinned habort hseg hfits)

end Sys2Proof
end

section
/-! SUPPORT. The Clove cut at a TU (R230, R232 to R235). -/

namespace Sys2Proof.Machine

/-! ### Orders of a cut (R17, R20, R21) -/

theorem Part.target_of_order {p : Part} {k : OrderKind} {n : Nat} {o : Order} (h : p.order? k n = some o) : o.target = n := by
  have hkey := List.find?_some h
  simp only [Bool.and_eq_true, beq_iff_eq] at hkey
  exact hkey.2

theorem Part.order_dropOrder (p : Part) (k : OrderKind) (n : Nat) : (p.dropOrder k n).order? k n = none := by
  refine List.find?_eq_none.mpr fun o ho hkey => ?_
  have hkept := (List.mem_filter.mp ho).2
  rw [hkey] at hkept
  exact absurd hkept (by decide)

/-- R232, R233: the TU holds an order that it accepts. -/
def Tu.cutHeld (t : Tu) (r : Rec) : Tu :=
  let tf := fullNs t.ns (r.fld 256 64)
  let old := match t.part.order? .cut (r.fld 224 32) with
    | some o => [o.eff]
    | none => []
  { t.pruneCuts with
    part := t.part.putOrder { kind := .cut, target := r.fld 224 32, serial := r.fld 384 32, eff := tf, late := decide (tf < t.ns), data := [BitVec.ofNat 8 r.gslot, BitVec.ofNat 8 (r.fld 416 8)] }
    cutsPending := (t.pruneCuts.cutsPending.filter fun f => !old.contains f) ++ [tf] }

theorem Tu.cutOrderRx_of_accepted {t : Tu} {r : Rec} (htype : r.type = 0x0D) (hkind : r.fld 192 8 = 1)
    (hanswer : t.part.orderAnswer .cut (r.fld 224 32) (r.fld 384 32) = .accepted) :
    t.cutOrderRx r = (t.cutHeld r).sendFree ((t.cutHeld r).cutCtl r.gslot 2 0 (r.fld 224 32) (fullNs t.ns (r.fld 256 64))
      [(r.fld 384 32, 32), (if decide (fullNs t.ns (r.fld 256 64) < t.ns) then 4 else 0, 8)]) := by
  simp only [Tu.cutOrderRx, htype, hkind, ne_eq, not_true_eq_false, or_self, if_false, hanswer]
  rfl

theorem Tu.cutCancelRx_of_held {t : Tu} {r : Rec} {o : Order} (htype : r.type = 0x0D) (hkind : r.fld 192 8 = 5)
    (horder : t.part.order? .cut (r.fld 224 32) = some o) (hserial : o.serial = r.fld 384 32) (hearly : t.ns < o.eff) :
    t.cutCancelRx r =
      { t with part := t.part.dropOrder .cut o.target, cutsPending := t.cutsPending.filter (· != o.eff) } := by
  simp only [Tu.cutCancelRx, htype, hkind, ne_eq, not_true_eq_false, or_self, if_false, horder]
  exact if_pos ⟨hserial, hearly⟩

/-! ### At T_f (R234) -/

/-- What a TU knows of its cuts: the snapshots held, the orders, the counts, and whether its rings are frozen. -/
def Tu.cutForm (t : Tu) : List CutSet × List Order × (Nat × Nat × Nat) × Bool :=
  (t.cuts, t.part.orders, t.cutCounts, t.frz.frozen.isSome)

theorem Tu.cutForm_of_traceForm {t u : Tu} (h : t.traceForm = u.traceForm) : t.cutForm = u.cutForm :=
  Prod.ext (congrArg (fun x => x.2.1.cuts) h :) (Prod.ext (congrArg (fun x => x.2.1.part.orders) h :)
    (Prod.ext (congrArg (fun x => x.2.2.1) h :) (congrArg (fun x => x.2.1.frz.frozen.isSome) h :)))

theorem Tu.cutForm_of_bare {t u : Tu} (h : t.bare = u.bare) : t.cutForm = u.cutForm := Tu.cutForm_of_traceForm (Tu.traceForm_of_bare h)

theorem Tu.cutForm_sendFree (t : Tu) (r : Rec) : (t.sendFree r).cutForm = t.cutForm := Tu.cutForm_of_bare (Tu.bare_sendFree t r)

/-- The strobe of a cut freezes the rings and leaves the rest of what the TU knows of its cuts. -/
theorem Tu.cutForm_freezeRings (t : Tu) (at' : Nat) :
    (t.freezeRings 5 at').cutForm = (t.cuts, t.part.orders, t.cutCounts, true) := by
  have hform (u : Tu) (hu : u.cutCounts = t.cutCounts) (hcuts : u.cuts = t.cuts) (horders : u.part.orders = t.part.orders)
      (hfrz : u.frz.frozen.isSome = true) : u.cutForm = (t.cuts, t.part.orders, t.cutCounts, true) := by
    simp only [Tu.cutForm, hu, hcuts, horders, hfrz]
  have hclosed (u : Tu) : ((u.traceFreeze at').sumacClose).cutForm = u.cutForm :=
    Tu.cutForm_of_traceForm ((Tu.traceForm_sumacClose _).trans (Tu.traceForm_traceFreeze _ _))
  have hcounts : (t.bump 0x2770 0x0B 1).cutCounts = t.cutCounts := congrArg (·.2.2.1) (t.traceForm_bump 0x2770 0x0B 1 (by decide))
  have hcuts : (t.bump 0x2770 0x0B 1).cuts = t.cuts := rfl
  have horders : (t.bump 0x2770 0x0B 1).part.orders = t.part.orders := rfl
  simp only [Tu.freezeRings]
  generalize t.bump 0x2770 0x0B 1 = v at hcounts hcuts horders ⊢
  split
  next h => exact hform _ hcounts hcuts horders h
  · rw [if_neg (by decide)]
    exact (hclosed _).trans (hform _ hcounts hcuts horders rfl)

theorem Tu.traceForm_traceCut (t : Tu) (tf : Nat) : (t.traceCut tf).traceForm = t.traceForm := by
  refine List.foldlRecOn (motive := fun u : Tu => u.traceForm = t.traceForm) _ _ rfl fun u hu i _ => Eq.trans ?_ hu
  dsimp only
  split
  · rfl
  · split
    · exact (Tu.traceForm_traceClose _ _).trans (Tu.traceForm_traceBranch _ _ _)
    · exact (Tu.traceForm_traceClose _ _).trans (Tu.traceForm_traceSync _ _ _ _)

/-- R234: the rings, Sumac's block and the trace sources at the strobe. -/
theorem Tu.cutForm_strobe (t : Tu) (at' : Nat) :
    (((t.freezeRings 5 at').sumacClose).traceCut at').cutForm = (t.cuts, t.part.orders, t.cutCounts, true) :=
  (Tu.cutForm_of_traceForm ((Tu.traceForm_traceCut _ _).trans (Tu.traceForm_sumacClose _))).trans (t.cutForm_freezeRings at')

/-- R200, R235: the snapshots' requester keeps the snapshots held; the records still to be sent apart. -/
theorem Tu.cutForm_arbitrate (t : Tu) :
    t.arbitrate.cuts.map CutSet.sentAll = t.cuts.map CutSet.sentAll ∧ t.arbitrate.part.orders = t.part.orders ∧
      t.arbitrate.cutCounts = t.cutCounts ∧ t.arbitrate.frz.frozen.isSome = t.frz.frozen.isSome := by
  have harb := t.arbForm_arbitrate
  have hbare : ({ t.arbitrate.bare with sumac := Tu.reset.sumac, cuts := [], win := Tu.reset.win } : Tu) =
      { t.bare with sumac := Tu.reset.sumac, cuts := [], win := Tu.reset.win } := congrArg (fun x => { x.2.2 with cuts := [] }) harb
  exact ⟨(congrArg (fun x => x.2.2.cuts) harb :), (congrArg (fun x => x.2.2.part.orders) harb :),
    Tu.cutCounts_of_bare (t := { t.arbitrate with sumac := Tu.reset.sumac, cuts := [], win := Tu.reset.win })
      (u := { t with sumac := Tu.reset.sumac, cuts := [], win := Tu.reset.win }) hbare,
    (congrArg (fun x => x.2.2.frz.frozen.isSome) harb :)⟩

/-- The CUT_IDs of the snapshots held. -/
def Tu.cutIds (t : Tu) : List Nat := t.cuts.map (·.cutId)

theorem Tu.cutPreempt_spec (t : Tu) :
    t.cutPreempt.cutIds = t.cutIds ∧ t.cutPreempt.part.orders = t.part.orders ∧ t.cutPreempt.cutCounts = t.cutCounts ∧
      t.cutPreempt.frz.frozen.isSome = t.frz.frozen.isSome := by
  simp only [Tu.cutPreempt]
  split
  · exact List.foldlRecOn (motive := fun u : Tu => u.cutIds = t.cutIds ∧ u.part.orders = t.part.orders ∧ u.cutCounts = t.cutCounts ∧
      u.frz.frozen.isSome = t.frz.frozen.isSome) _ _ ⟨rfl, rfl, rfl, rfl⟩ fun _ hu _ _ => hu
  · obtain ⟨hcuts, horders, hcounts, hfrz⟩ := t.cutForm_arbitrate
    refine ⟨?_, horders, hcounts, hfrz⟩
    have hids (l : List CutSet) : (l.map CutSet.sentAll).map CutSet.cutId = l.map (·.cutId) := List.map_map
    exact (hids _).symm.trans ((congrArg (List.map CutSet.cutId) hcuts).trans (hids _))

/-- R234: MARK and TR_LINKSTATE leave at the end of the cut. -/
theorem Tu.cutPreempt_of_sent {t u : Tu} {ids : List Nat} {orders : List Order} {n m k : Nat} (hform : t.cutForm = u.cutForm)
    (hids : u.cutIds = ids) (horders : u.part.orders = orders) (hid : u.rd 0x2820 2 = n) (htaken : u.rd 0x2820 3 = m)
    (hfull : u.rd 0x2820 6 = k) (hfrz : u.frz.frozen.isSome = true) :
    t.cutPreempt.part.orders = orders ∧ t.cutPreempt.cutIds = ids ∧ t.cutPreempt.rd 0x2820 2 = n ∧ t.cutPreempt.rd 0x2820 3 = m ∧
      t.cutPreempt.rd 0x2820 6 = k ∧ t.cutPreempt.frz.frozen.isSome = true := by
  obtain ⟨hcuts, horders', hcounts, hfrz'⟩ := t.cutPreempt_spec
  have hcounts := hcounts.trans (congrArg (·.2.2.1) hform)
  exact ⟨horders'.trans ((congrArg (·.2.1) hform).trans horders), hcuts.trans ((congrArg (·.1.map (·.cutId)) hform).trans hids),
    (congrArg (·.1) hcounts).trans hid, (congrArg (·.2.1) hcounts).trans htaken, (congrArg (·.2.2) hcounts).trans hfull,
    hfrz'.trans ((congrArg (·.2.2.2) hform).trans hfrz)⟩

/-- R18, R235: a cut is counted, and LATE if its order came late. -/
def Tu.cutCounted (t : Tu) (o : Order) : Tu :=
  let t := (t.wr 0x2820 2 o.target).bump 0x2820 3 1
  if o.late then t.bump 0x2820 4 1 else t

theorem Tu.cutCounted_spec (t : Tu) (o : Order) :
    (t.cutCounted o).rd 0x2820 2 = o.target ∧ (t.cutCounted o).rd 0x2820 3 = raised 0x2820 3 (t.rd 0x2820 3) 1 ∧
      (t.cutCounted o).rd 0x2820 6 = t.rd 0x2820 6 ∧ (t.cutCounted o).cuts = t.cuts ∧
      (t.cutCounted o).part.orders = t.part.orders ∧ (t.cutCounted o).frz = t.frz := by
  have hid : ((t.wr 0x2820 2 o.target).bump 0x2820 3 1).rd 0x2820 2 = o.target :=
    (Part.rd_bump_other _ _ (by decide)).trans (Part.rd_wr_self _ _ _ _)
  have htaken : ((t.wr 0x2820 2 o.target).bump 0x2820 3 1).rd 0x2820 3 = raised 0x2820 3 (t.rd 0x2820 3) 1 :=
    (Part.rd_wr_self _ _ _ _).trans (congrArg (raised 0x2820 3 · 1) (Part.rd_wr_other _ _ (by decide)))
  have hfull : ((t.wr 0x2820 2 o.target).bump 0x2820 3 1).rd 0x2820 6 = t.rd 0x2820 6 :=
    (Part.rd_bump_other _ _ (by decide)).trans (Part.rd_wr_other _ _ (by decide))
  simp only [Tu.cutCounted]
  split
  · exact ⟨(Part.rd_bump_other _ _ (by decide)).trans hid, (Part.rd_bump_other _ _ (by decide)).trans htaken,
      (Part.rd_bump_other _ _ (by decide)).trans hfull, rfl, rfl, rfl⟩
  · exact ⟨hid, htaken, hfull, rfl, rfl, rfl⟩

/-- R234: the TU at the strobe of a cut, which its counts show. -/
def Tu.strobed (t : Tu) (o : Order) : Tu :=
  let taken := if o.late then t.ns else o.eff
  (((({ t with part := t.part.dropOrder .cut o.target } : Tu).freezeRings 5 taken).sumacClose).traceCut taken).cutCounted o

theorem Tu.strobed_spec (t : Tu) (o : Order) :
    (t.strobed o).cuts = t.cuts ∧ (t.strobed o).part.orders = (t.part.dropOrder .cut o.target).orders ∧
      (t.strobed o).rd 0x2820 2 = o.target ∧ (t.strobed o).rd 0x2820 3 = raised 0x2820 3 (t.rd 0x2820 3) 1 ∧
      (t.strobed o).rd 0x2820 6 = t.rd 0x2820 6 ∧ (t.strobed o).frz.frozen.isSome = true := by
  have hstrobe := Tu.cutForm_strobe { t with part := t.part.dropOrder .cut o.target } (if o.late then t.ns else o.eff)
  simp only [Tu.strobed]
  generalize ((Tu.freezeRings _ 5 _).sumacClose).traceCut _ = v at hstrobe ⊢
  obtain ⟨hid, hcount, hkept, hcuts, horders, hfrz⟩ := v.cutCounted_spec o
  have hrd3 : v.rd 0x2820 3 = t.rd 0x2820 3 := congrArg (·.2.2.1.2.1) hstrobe
  have hrd6 : v.rd 0x2820 6 = t.rd 0x2820 6 := congrArg (·.2.2.1.2.2) hstrobe
  exact ⟨hcuts.trans (congrArg (·.1) hstrobe), horders.trans (congrArg (·.2.1) hstrobe), hid,
    hcount.trans (congrArg (raised 0x2820 3 · 1) hrd3), hkept.trans hrd6,
    (congrArg (·.frozen.isSome) hfrz).trans (congrArg (·.2.2.2) hstrobe)⟩

/-- R234: with a snapshot free it is held, and MARK and TR_LINKSTATE leave. -/
theorem Tu.takeCut_eq_of_room {t : Tu} {o : Order} (taps : List LinkTap) (hroom : t.cuts.length < 2) :
    ∃ (x : CutSet) (crc : Tab CrcUnit) (r₁ r₂ : Rec), x.cutId = o.target ∧ t.takeCut o taps =
      (((({ t.strobed o with part := { (t.strobed o).part with crc := crc }, cuts := (t.strobed o).cuts ++ [x] } : Tu).sendFree
        r₁)).sendFree r₂).cutPreempt := by
  have hroom : decide (2 ≤ t.cuts.length) = false := decide_eq_false (Nat.not_le.mpr hroom)
  simp only [Tu.takeCut, hroom, Bool.false_eq_true, if_false]
  exact ⟨_, _, _, _, rfl, rfl⟩

theorem Tu.takeCut_of_room {t : Tu} {o : Order} (taps : List LinkTap) (hroom : t.cuts.length < 2) :
    (t.takeCut o taps).part.orders = (t.part.dropOrder .cut o.target).orders ∧ (t.takeCut o taps).cutIds = t.cutIds ++ [o.target] ∧
      (t.takeCut o taps).rd 0x2820 2 = o.target ∧ (t.takeCut o taps).rd 0x2820 3 = raised 0x2820 3 (t.rd 0x2820 3) 1 ∧
      (t.takeCut o taps).rd 0x2820 6 = t.rd 0x2820 6 ∧ (t.takeCut o taps).frz.frozen.isSome = true := by
  obtain ⟨x, crc, r₁, r₂, hx, heq⟩ := Tu.takeCut_eq_of_room taps hroom
  obtain ⟨hcuts, horders, hid, hcount, hfull, hfrz⟩ := t.strobed_spec o
  rw [heq]
  refine Tu.cutPreempt_of_sent ((Tu.cutForm_sendFree _ _).trans (Tu.cutForm_sendFree _ _)) ?_ horders hid hcount hfull hfrz
  simp only [Tu.cutIds, hcuts, List.map_append, List.map_cons, List.map_nil, hx]

/-- A TU without its snapshots, its rings and its CRC units, and what reporting touches. -/
def Tu.uncut (t : Tu) : Tu :=
  ({ t with cuts := [], rings := [], frz := Tu.reset.frz, part := { t.part with crc := [] } } : Tu).bare

theorem Tu.uncut_of_bare {t u : Tu} (h : t.bare = u.bare) : t.uncut = u.uncut :=
  congrArg (fun b : Tu => { b with cuts := [], rings := [], frz := Tu.reset.frz, part := { b.part with crc := [] } }) h

theorem Tu.rd_of_uncut {t u : Tu} {i j : Nat} (h : t.uncut = u.uncut) (hkey : (tuReportKeys ++ []).contains (objKey i j) = false) :
    t.rd i j = u.rd i j :=
  Tu.rd_of_bareBut (ks := []) (t := { t with cuts := [], rings := [], frz := Tu.reset.frz, part := { t.part with crc := [] } })
    (u := { u with cuts := [], rings := [], frz := Tu.reset.frz, part := { u.part with crc := [] } }) h hkey

theorem Tu.resumeRings_frame (t : Tu) : { t.resumeRings with rings := t.rings, frz := t.frz } = t := by
  by_cases h : t.frz.frozen = none
  · rw [Tu.resumeRings, h]
    rfl
  · exact (Tu.resumeRings_of_frozen h).2.2

theorem map_cutId_modFirst (p : CutSet → Bool) (g : CutSet → CutSet) (hg : ∀ c, (g c).cutId = c.cutId) (l : List CutSet) :
    (modFirst p g l).map (·.cutId) = l.map (·.cutId) := by
  induction l with
  | nil => rfl
  | cons c r ih =>
    simp only [modFirst]
    split
    · exact congrArg (· :: r.map (·.cutId)) (hg c)
    · exact congrArg (c.cutId :: ·) ih

/-- R235: the end of a snapshot keeps the others, whatever it resumes. -/
theorem Tu.cutDone_spec (t : Tu) (c : CutSet) (cflags : Nat) :
    (t.cutDone c cflags).cutIds = t.cutIds.filter (· != c.cutId) ∧ (t.cutDone c cflags).uncut = t.uncut := by
  have hids : (t.cuts.filter fun x => x.cutId != c.cutId).map (·.cutId) = t.cutIds.filter (· != c.cutId) :=
    (List.filter_map (f := CutSet.cutId) (p := (· != c.cutId))).symm
  have hsend (u : Tu) (r : Rec) : (u.sendFree r).cuts = u.cuts ∧ (u.sendFree r).uncut = u.uncut :=
    ⟨(congrArg Tu.cuts (Tu.bare_sendFree (ks := []) u r) :), Tu.uncut_of_bare (Tu.bare_sendFree u r)⟩
  simp only [Tu.cutDone]
  generalize hsent : Tu.sendFree _ _ = v
  obtain ⟨hcuts, huncut⟩ : v.cuts = t.cuts.filter (fun x => x.cutId != c.cutId) ∧ v.uncut = t.uncut := by
    rw [← hsent]
    exact ⟨(hsend _ _).1, (hsend _ _).2⟩
  split
  · split
    · exact ⟨(map_cutId_modFirst _ (fun y => { y with resume := true }) (fun _ => rfl) _).trans hids, huncut⟩
    · have hframe := v.resumeRings_frame
      exact ⟨(congrArg (fun u : Tu => u.cutIds) hframe :).trans ((congrArg (List.map CutSet.cutId) hcuts).trans hids),
        (congrArg (fun u : Tu => u.uncut) hframe :).trans huncut⟩
  · exact ⟨(congrArg (List.map CutSet.cutId) hcuts).trans hids, huncut⟩

/-- R235: with two snapshots held the cut is FULL. -/
theorem Tu.takeCut_eq_of_full {t : Tu} {o : Order} (taps : List LinkTap) (hfull : 2 ≤ t.cuts.length) :
    ∃ (x : CutSet) (cflags : Nat) (r₁ r₂ : Rec), x.cutId = o.target ∧ t.takeCut o taps =
      ((((((t.strobed o).bump 0x2820 6 1).sendFree r₁).sendFree r₂).cutDone x cflags)).cutPreempt := by
  have hroom : decide (2 ≤ t.cuts.length) = true := decide_eq_true hfull
  simp only [Tu.takeCut, hroom, if_true]
  exact ⟨_, _, _, _, rfl, rfl⟩

theorem Tu.takeCut_of_full {t : Tu} {o : Order} (taps : List LinkTap) (hfull : 2 ≤ t.cuts.length)
    (hnew : (t.cuts.all fun c => c.cutId != o.target) = true) :
    (t.takeCut o taps).part.orders = (t.part.dropOrder .cut o.target).orders ∧ (t.takeCut o taps).cutIds = t.cutIds ∧
      (t.takeCut o taps).rd 0x2820 2 = o.target ∧ (t.takeCut o taps).rd 0x2820 3 = raised 0x2820 3 (t.rd 0x2820 3) 1 ∧
      (t.takeCut o taps).rd 0x2820 6 = raised 0x2820 6 (t.rd 0x2820 6) 1 := by
  obtain ⟨x, cflags, r₁, r₂, hx, heq⟩ := Tu.takeCut_eq_of_full taps hfull
  obtain ⟨hcuts, horders, hid, hcount, hkept, -⟩ := t.strobed_spec o
  generalize t.strobed o = u at heq hcuts horders hid hcount hkept
  generalize hv : ((u.bump 0x2820 6 1).sendFree r₁).sendFree r₂ = v at heq
  have hform : v.cutForm = (u.bump 0x2820 6 1).cutForm := by
    rw [← hv]
    exact (Tu.cutForm_sendFree _ _).trans (Tu.cutForm_sendFree _ _)
  obtain ⟨hids, huncut⟩ := v.cutDone_spec x cflags
  obtain ⟨hids', horders', hcounts', -⟩ := (v.cutDone x cflags).cutPreempt_spec
  have hcutIds : v.cutIds = t.cutIds := (congrArg (fun x => x.1.map (·.cutId)) hform).trans (congrArg (List.map CutSet.cutId) hcuts)
  have hfilter : t.cutIds.filter (· != x.cutId) = t.cutIds := by
    rw [hx]
    refine List.filter_eq_self.mpr fun n hn => ?_
    obtain ⟨c, hc, rfl⟩ := List.mem_map.mp hn
    exact List.all_eq_true.mp hnew c hc
  have hrd (j : Nat) (hkey : (tuReportKeys ++ []).contains (objKey 0x2820 j) = false) : (v.cutDone x cflags).rd 0x2820 j = v.rd 0x2820 j :=
    Tu.rd_of_uncut huncut hkey
  rw [heq]
  refine ⟨horders'.trans ((congrArg (fun u : Tu => u.part.orders) huncut :).trans ((congrArg (·.2.1) hform).trans horders)),
    hids'.trans (hids.trans (by rw [hcutIds, hfilter])), ?_, ?_, ?_⟩
  · exact (congrArg (·.1) hcounts').trans ((hrd 2 (by decide)).trans ((congrArg (·.2.2.1.1) hform).trans
      ((Part.rd_bump_other _ _ (by decide)).trans hid)))
  · exact (congrArg (·.2.1) hcounts').trans ((hrd 3 (by decide)).trans ((congrArg (·.2.2.1.2.1) hform).trans
      ((Part.rd_bump_other _ _ (by decide)).trans hcount)))
  · exact (congrArg (·.2.2) hcounts').trans ((hrd 6 (by decide)).trans ((congrArg (·.2.2.1.2.2) hform).trans
      ((Part.rd_wr_self _ _ _ _).trans (congrArg (raised 0x2820 6 · 1) hkept))))

/-- R235: a snapshot that has waited too long is abandoned. -/
theorem Tu.cutHold_of_late {t : Tu} {id hold : Nat} {c : CutSet} (hfind : (t.cuts.find? fun c => c.cutId == id) = some c)
    (hlate : c.taken + hold * 1000000 ≤ t.ns) :
    (t.cutHold id hold).cutIds = t.cutIds.filter (· != id) ∧ (t.cutHold id hold).rd 0x2820 5 = raised 0x2820 5 (t.rd 0x2820 5) 1 := by
  have hid : c.cutId = id := beq_iff_eq.mp (List.find?_some (p := fun c : CutSet => c.cutId == id) hfind)
  have hlate : ¬({ t with exp := t.exp } : Tu).ns < c.taken + hold * 1000000 := Nat.not_lt.mpr hlate
  have hdone (u : Tu) (hcuts : u.cuts = t.cuts) (hrd : u.rd 0x2820 5 = t.rd 0x2820 5) :
      ((u.bump 0x2820 5 1).cutDone { c with todo := [] } (cflag c.cflags 3)).cutIds = t.cutIds.filter (· != id) ∧
        ((u.bump 0x2820 5 1).cutDone { c with todo := [] } (cflag c.cflags 3)).rd 0x2820 5 = raised 0x2820 5 (t.rd 0x2820 5) 1 := by
    obtain ⟨hids, huncut⟩ := (u.bump 0x2820 5 1).cutDone_spec { c with todo := [] } (cflag c.cflags 3)
    refine ⟨hids.trans ?_, (Tu.rd_of_uncut huncut (by decide)).trans ((Part.rd_wr_self _ _ _ _).trans (congrArg (raised 0x2820 5 · 1) hrd))⟩
    rw [← hid]
    exact congrArg (fun l : List CutSet => (l.map (·.cutId)).filter (· != c.cutId)) hcuts
  simp only [Tu.cutHold, hfind]
  rw [if_neg hlate]
  split
  · split
    · exact hdone _ rfl rfl
    · exact hdone _ rfl rfl
  · exact hdone _ rfl rfl

end Sys2Proof.Machine

namespace Sys2Proof
open Sys2Proof.Machine

/-- Settles O23: the strobe freezes the rings and leaves the snapshots held; the end of a snapshot keeps the others. -/
theorem cutInTu : Obligations.CutInTu := by
  unfold Obligations.CutInTu
  refine ⟨?order, ?cancel, ?room, ?full, ?timeout⟩
  case order =>
    intro s dt p r htype hkind hanswer
    refine tuNext_of_onTu rfl ?_
    rw [Tu.cutOrderRx_of_accepted (t := (s.tu p).tick dt) htype hkind hanswer]
    exact ⟨rfl, Tu.bare_sendFree _ _⟩
  case cancel =>
    intro s dt p r o htype hkind horder hserial hearly
    refine tuNext_of_onTu rfl ?_
    rw [Tu.cutCancelRx_of_held (t := (s.tu p).tick dt) htype hkind horder hserial hearly, Part.target_of_order horder]
    exact ⟨rfl, Part.order_dropOrder _ _ _⟩
  case room =>
    intro s dt p id l o horder hdue hroom
    have horder : ((s.tu p).tick dt).part.order? .cut id.toNat = some o := horder
    obtain ⟨horders, hids, hid, hcount, hfull, hfrz⟩ := Tu.takeCut_of_room (t := (s.tu p).tick dt) (o := o) l hroom
    rw [Part.target_of_order horder] at horders hids hid
    refine tuNext_of_onTu rfl ?_
    simp only [Tu.cloveCut, horder, hdue, if_true]
    exact ⟨(congrArg (List.find? _) horders).trans (Part.order_dropOrder _ _ _), hids, hid, hcount, hfull, hfrz⟩
  case full =>
    intro s dt p id l o horder hdue hfull hnew
    have horder : ((s.tu p).tick dt).part.order? .cut id.toNat = some o := horder
    have htarget := Part.target_of_order horder
    obtain ⟨horders, hids, hid, hcount, hfull⟩ := Tu.takeCut_of_full (t := (s.tu p).tick dt) (o := o) l hfull (by rw [htarget]; exact hnew)
    rw [htarget] at horders hid
    refine tuNext_of_onTu rfl ?_
    simp only [Tu.cloveCut, horder, hdue, if_true]
    exact ⟨(congrArg (List.find? _) horders).trans (Part.order_dropOrder _ _ _), hids, hid, hcount, hfull⟩
  case timeout =>
    intro s dt p id c hfind hlate
    exact tuNext_of_onTu rfl (Tu.cutHold_of_late (t := (s.tu p).tick dt) hfind hlate)

end Sys2Proof
end

section
/-! SUPPORT. The Clove cut at Fyster (R230 to R233, R236, R241 to R243). -/

namespace Sys2Proof.Machine

/-! ### Tables and folds -/

/-- What every step of a fold keeps, the fold keeps. -/
theorem foldl_keeps {α β γ : Type} (F : α → γ) (g : α → β → α) (h : ∀ a b, F (g a b) = F a) (l : List β) (a : α) :
    F (l.foldl g a) = F a :=
  List.foldlRecOn (motive := fun b => F b = F a) _ _ rfl fun b hb x _ => (h b x).trans hb

/-- An entry that is set under the key of the first match becomes the first match. -/
theorem find_tset_of_first {α : Type} {p : Nat × α → Bool} {k : Nat} {v : α} (hnew : p (k, v) = true) (t : Tab α)
    (hold : ∀ e, t.find? p = some e → e.1 = k) : (tset t k v).find? p = some (k, v) := by
  induction t with
  | nil => exact List.find?_cons_of_pos hnew
  | cons e r ih =>
    obtain ⟨a, b⟩ := e
    simp only [tset]
    split
    · exact List.find?_cons_of_pos hnew
    · split
      · exact List.find?_cons_of_pos hnew
      next hne =>
        have hnot : ¬p (a, b) = true := fun hp => hne (hold _ (List.find?_cons_of_pos hp)).symm
        rw [List.find?_cons_of_neg hnot]
        exact ih fun e he => hold e ((List.find?_cons_of_neg hnot).trans he)

/-! ### What sending leaves -/

/-- Fyster without its links, what waits for them and what it has sent. -/
def Fyster.unsent (f : Fyster) : Fyster :=
  { f with links := [], toTu := [], out := [], part := { f.part with alive := [], lossy := [] } }

theorem Fyster.unsent_sendTu (f : Fyster) (p : Nat) (r : Rec) : (f.sendTu p r).unsent = f.unsent := by
  simp only [Fyster.sendTu, Fyster.sendStamped]
  split <;> rfl

/-- What a cut keeps for the ledger and the tree: the orders, the groups and the holds. -/
def Fyster.treeForm (f : Fyster) : List Order × Tab Grp × Tab Hold := (f.part.orders, f.red.groups, f.holds)

theorem Fyster.treeForm_remote (f : Fyster) (tray base ofs : Nat) (bs : List Byte) (id : Nat) :
    (f.remote tray base ofs bs id).treeForm = f.treeForm := by
  simp only [Fyster.remote]
  split <;> rfl

/-! ### The cut store (R241) -/

theorem Fyster.cutSlot_modCut (f : Fyster) (cut : Nat) {g : CutSlot → CutSlot} (hg : ∀ c, (g c).cutId = c.cutId) :
    (f.modCut cut g).cutSlot cut = (f.cutSlot cut).map fun x => (x.1, g x.2) := by
  have hkey : ((fun c : Nat × CutSlot => c.2.cutId == cut) ∘ fun c : Nat × CutSlot => if c.2.cutId = cut then (c.1, g c.2) else c) =
      fun c : Nat × CutSlot => c.2.cutId == cut := by
    funext c
    simp only [Function.comp]
    split
    · exact congrArg (· == cut) (hg c.2)
    · rfl
  simp only [Fyster.cutSlot, Fyster.modCut, List.find?_map, hkey]
  refine Option.map_congr fun c hc => if_pos ?_
  exact beq_iff_eq.mp (List.find?_some (p := fun c : Nat × CutSlot => c.2.cutId == cut) hc)

theorem Fyster.cutId_of_cutSlot {f : Fyster} {cut k : Nat} {c : CutSlot} (h : f.cutSlot cut = some (k, c)) : c.cutId = cut :=
  beq_iff_eq.mp (List.find?_some (p := fun c : Nat × CutSlot => c.2.cutId == cut) h)

theorem Fyster.cutSlot_holdCut {f : Fyster} {k : Nat} {c : CutSlot} (h : f.cutPlace c.cutId = some k) :
    (f.holdCut k c).cutSlot c.cutId = some (k, c) := by
  refine find_tset_of_first (p := fun x : Nat × CutSlot => x.2.cutId == c.cutId) (beq_self_eq_true _) _ fun e he => ?_
  have he : f.cutSlot c.cutId = some e := he
  simp only [Fyster.cutPlace, he] at h
  exact Option.some.inj h

theorem Part.order_putOrder (p : Part) (o : Order) : (p.putOrder o).order? o.kind o.target = some o := by
  have hgone : (p.orders.filter fun x => !(x.kind == o.kind && x.target == o.target)).find? (fun x => x.kind == o.kind && x.target == o.target) = none :=
    Part.order_dropOrder p o.kind o.target
  simp only [Part.putOrder, Part.order?, List.find?_append, hgone, Option.none_or]
  exact List.find?_cons_of_pos (by simp only [beq_self_eq_true, Bool.and_self])

theorem Part.ne_zero_of_refused {p : Part} {k : OrderKind} {target serial a : Nat} (h : p.orderAnswer k target serial = .refused a) :
    a ≠ 0 := by
  simp only [Part.orderAnswer] at h
  split at h
  · cases h
  · split at h
    · cases h
    next hne =>
      cases h
      exact hne

/-- R231: a legal order has a place in the cut store. -/
theorem Fyster.cutPlace_of_legal {f : Fyster} {v : List Byte} (h : f.cutCode v = 0) : ∃ k, f.cutPlace (fieldAt v 0 4) = some k := by
  cases hplace : f.cutPlace (fieldAt v 0 4) with
  | some k => exact ⟨k, rfl⟩
  | none =>
    refine absurd h ?_
    simp only [Fyster.cutCode, hplace]
    refine lowestAbort_ne_zero (a := 0x28) ?_ (by simp)
    simp only [List.forall_mem_cons]
    refine ⟨fun _ => by decide, fun _ => by decide, fun _ => by decide, fun _ => by decide, fun _ => by decide, fun _ => by decide,
      fun _ => by decide, fun _ => by decide, ?_, fun _ h => absurd h List.not_mem_nil⟩
    split
    next a ha => exact fun _ => Part.ne_zero_of_refused ha
    · exact fun h => absurd h Bool.false_ne_true

/-! ### Down the tree (R232) -/

theorem Fyster.unsent_cutToTus (f : Fyster) (c : CutSlot) (kind : Nat) (ports : List Nat) :
    (ports.foldl (fun f p => f.cutToTu c kind p) f).unsent = f.unsent :=
  foldl_keeps Fyster.unsent (fun f p => f.cutToTu c kind p) (fun f p => f.unsent_sendTu p _) ports f

theorem Fyster.treeForm_cutToPorts (f : Fyster) (cut : Nat) (ports : List Nat) (cancel : Bool) :
    (f.cutToPorts cut ports cancel).treeForm = f.treeForm := by
  have hsent (c : CutSlot) (kind : Nat) : (ports.foldl (fun f p => f.cutToTu c kind p) f).treeForm = f.treeForm :=
    (congrArg Fyster.treeForm (f.unsent_cutToTus c kind ports) :)
  simp only [Fyster.cutToPorts]
  split
  · rfl
  · split
    · exact hsent _ _
    · exact hsent _ _

theorem Fyster.treeForm_cutToRole (f : Fyster) (cut g : Nat) (x : Grp) (r : Role) (cancel : Bool) (raw : List Byte) :
    (f.cutToRole cut g x r cancel raw).treeForm = f.treeForm := by
  have hdown : ((x.childTrays r).foldl (fun f c => f.cutDown g (r.level - 1) (b2n r.standby) c.1 raw) f).treeForm = f.treeForm := by
    refine foldl_keeps Fyster.treeForm _ (fun f c => ?_) _ f
    exact f.treeForm_remote _ _ _ _ _
  simp only [Fyster.cutToRole]
  split
  · exact f.treeForm_cutToPorts _ _ _
  · split
    · exact hdown
    · exact hdown

theorem Fyster.treeForm_cutAck (f : Fyster) (g : Nat) (x : Grp) (r : Role) (sub cut code : Nat) :
    (f.cutAck g x r sub cut code).treeForm = f.treeForm := by
  have hseen (f : Fyster) (g level i : Nat) (bs : List Byte) : (f.cutAckSeen g level i bs).treeForm = f.treeForm := by
    simp only [Fyster.cutAckSeen]
    split
    · rfl
    · split <;> rfl
  have hwritten (tray base : Nat) (bs : List Byte) :
      (if tray = (f.remote tray base (r.upAt g + 48) bs 0).tray then
        (f.remote tray base (r.upAt g + 48) bs 0).cutAckSeen g (r.level + 1) r.index bs
        else f.remote tray base (r.upAt g + 48) bs 0).treeForm = f.treeForm := by
    split
    · exact (hseen _ _ _ _ _).trans (f.treeForm_remote _ _ _ _ _)
    · exact f.treeForm_remote _ _ _ _ _
  simp only [Fyster.cutAck]
  split
  · rfl
  · exact hwritten _ _ _

/-- R232: the tray's dies are the children of a cut over the tray. -/
theorem Fyster.cutToPorts_of_held {f : Fyster} {cut k : Nat} {c : CutSlot} (ports : List Nat) (h : f.cutSlot cut = some (k, c)) :
    (f.cutToPorts cut ports false).cutSlot cut = some (k, { c with children := c.children ++ ports.map fun p => cutChild 0 p f.ns }) ∧
      (f.cutToPorts cut ports false).part.orders = f.part.orders ∧ (f.cutToPorts cut ports false).red = f.red := by
  have hsent := f.unsent_cutToTus c 1 ports
  simp only [Fyster.cutToPorts, h, Bool.false_eq_true, if_false]
  generalize ports.foldl (fun f p => f.cutToTu c 1 p) f = g at hsent ⊢
  have hns : g.ns = f.ns := (congrArg Fyster.ns hsent :)
  have hslot : g.cutSlot cut = some (k, c) := (congrArg (fun u : Fyster => u.cutSlot cut) hsent :).trans h
  refine ⟨?_, (congrArg (fun u : Fyster => u.part.orders) hsent :), (congrArg Fyster.red hsent :)⟩
  refine (Fyster.cutSlot_modCut g cut ?_).trans ?_
  · exact fun _ => rfl
  · rw [hslot, hns]
    rfl

/-! ### Orders and cancellations (R21, R230, R231) -/

/-- The order that Fyster holds for a legal CUT_ORDER. -/
def cutOrderOf (v : List Byte) (now : Nat) : Order :=
  { kind := .cut, target := fieldAt v 0 4, serial := fieldAt v 4 4, eff := cutTf v, late := decide (cutTf v < now), data := [] }

theorem Fyster.wrCutOrder_of_tray {f : Fyster} {v : List Byte} {k : Nat} (hnew : f.part.heldSerial .cut (fieldAt v 0 4) ≠ some (fieldAt v 4 4))
    (hcode : f.cutCode v = 0) (hplace : f.cutPlace (fieldAt v 0 4) = some k) (hscope : fieldAt v 20 1 = 1) :
    f.wrCutOrder v = ((f.holdCut k (newCut (fieldAt v 0 4) (fieldAt v 4 4) (cutTf v) 1 (fieldAt v 21 1) 0 0xFF true v)).cutToPorts
      (fieldAt v 0 4) (List.range 32) false, 0) := by
  simp only [Fyster.wrCutOrder, hnew, and_false, if_false, hcode, hplace, hscope, if_true]

theorem Fyster.wrCutOrder_of_legal {f : Fyster} {v : List Byte} (hnew : f.part.heldSerial .cut (fieldAt v 0 4) ≠ some (fieldAt v 4 4))
    (hcode : f.cutCode v = 0) :
    (f.wrCutOrder v).2 = 0 ∧ (f.wrCutOrder v).1.part.order? .cut (fieldAt v 0 4) = some (cutOrderOf v f.ns) := by
  obtain ⟨k, hplace⟩ := Fyster.cutPlace_of_legal hcode
  have hheld (g : Fyster) (c : CutSlot) (hform : g.treeForm = (f.holdCut k c).treeForm) (hid : c.cutId = fieldAt v 0 4)
      (hserial : c.serial = fieldAt v 4 4) (htf : c.tf = cutTf v) :
      g.part.order? .cut (fieldAt v 0 4) = some (cutOrderOf v f.ns) := by
    have horders : g.part.orders = (f.holdCut k c).part.orders := congrArg Prod.fst hform
    have hput := Part.order_putOrder f.part { kind := .cut, target := c.cutId, serial := c.serial, eff := c.tf, late := decide (c.tf < f.ns), data := [] }
    rw [hid, hserial, htf] at hput
    simp only [Part.order?, horders, Fyster.holdCut, hid, hserial, htf]
    exact hput
  simp only [Fyster.wrCutOrder, hnew, and_false, if_false, hcode, hplace]
  split
  · exact ⟨rfl, hheld _ _ (Fyster.treeForm_cutToPorts _ _ _ _) rfl rfl rfl⟩
  · split
    · split
      · exact ⟨rfl, hheld _ _ (Fyster.treeForm_cutToRole _ _ _ _ _ _ _) rfl rfl rfl⟩
      · exact ⟨rfl, hheld _ _ rfl rfl rfl rfl⟩
    · exact ⟨rfl, hheld _ _ rfl rfl rfl rfl⟩

theorem Fyster.dropCut_spec (f : Fyster) (cut : Nat) :
    (f.dropCut cut).cutSlot cut = none ∧ (f.dropCut cut).part.order? .cut cut = none := by
  refine ⟨List.find?_eq_none.mpr fun c hc hid => ?_, Part.order_dropOrder _ _ _⟩
  exact absurd hid (by simpa using (List.mem_filter.mp hc).2)

theorem Fyster.wrCutCancel_of_pending {f : Fyster} {v : List Byte} {k : Nat} {c : CutSlot} (hlen : v.length = 8)
    (hslot : f.cutSlot (fieldAt v 0 4) = some (k, c)) (hserial : c.serial = fieldAt v 4 4)
    (hpending : (f.part.order? .cut (fieldAt v 0 4)).isSome = true) (hearly : f.ns < c.tf) :
    ∃ g : Fyster, f.wrCutCancel v = (g.dropCut (fieldAt v 0 4), 0) := by
  have hnone : (f.part.order? .cut (fieldAt v 0 4)).isNone = false := Option.isNone_eq_false_iff.mpr hpending
  simp only [Fyster.wrCutCancel, hlen, ne_eq, not_true_eq_false, if_false, hslot, hserial, Nat.lt_irrefl, decide_false, hnone,
    decide_eq_false (Nat.not_le.mpr hearly), Bool.or_self, lowestAbort_cons_false, lowestAbort_nil]
  exact ⟨_, rfl⟩

/-! ### Orders at a role (R232) -/

theorem Fyster.cutLanded_of_accepted {f : Fyster} {g lv sub : Nat} {x : Grp} {r : Role} {raw : List Byte} (hgrp : f.grp g = some x)
    (hrole : x.roleAt lv = some r) (hraw : f.ledger (roleArea g lv + downOfs lv sub + 56) 32 = raw) (hid : fieldAt raw 0 4 ≠ 0)
    (hscope : fieldAt raw 20 1 ≠ 0) (hanswer : f.part.orderAnswer .cut (fieldAt raw 0 4) (fieldAt raw 4 4) = .accepted)
    (hplace : (f.cutPlace (fieldAt raw 0 4)).isSome = true) :
    (f.cutLanded g lv sub).part.order? .cut (fieldAt raw 0 4) = some (cutOrderOf raw f.ns) ∧
      (f.cutLanded g lv sub).red.groups = f.red.groups ∧ (f.cutLanded g lv sub).holds = f.holds := by
  obtain ⟨k, hplace⟩ := Option.isSome_iff_exists.mp hplace
  have hform : (f.cutLanded g lv sub).treeForm = (f.part.putOrder (cutOrderOf raw f.ns) |>.orders, f.red.groups, f.holds) := by
    simp only [Fyster.cutLanded, hraw, hgrp, hrole, hid, hscope, if_false, Fyster.cutOrderLands, hanswer, hplace]
    exact (Fyster.treeForm_cutToRole _ _ _ _ _ _ _).trans (Fyster.treeForm_cutAck _ _ _ _ _ _ _)
  refine ⟨?_, congrArg (·.2.1) hform, congrArg (·.2.2) hform⟩
  exact (congrArg (fun l => l.1.find? fun o => o.kind == .cut && o.target == fieldAt raw 0 4) hform).trans (Part.order_putOrder f.part (cutOrderOf raw f.ns))

/-! ### Silent children (R232) -/

theorem Fyster.cutSlot_of_cuts {f g : Fyster} (h : g.cuts = f.cuts) (cut : Nat) : g.cutSlot cut = f.cutSlot cut :=
  congrArg (fun l : Tab CutSlot => l.find? fun c : Nat × CutSlot => c.2.cutId == cut) h

/-- R232: a silent child gets the order a second time. -/
theorem Fyster.cutSilent_of_first {f : Fyster} {cut i k : Nat} {c : CutSlot} {y : CutChild} (hslot : f.cutSlot cut = some (k, c))
    (hchild : c.children[i]? = some y) (hacked : y.acked = false) (hmissing : y.missing = false) (hsecond : y.second = false)
    (hdue : y.sentAt + f.rd 0x6830 3 * 1000 ≤ f.ns) :
    (f.cutSilent cut i).cutSlot cut =
      some (k, { c with children := c.children.set i { y with second := true, sentAt := f.ns }, resends := c.resends + 1 }) := by
  have hsaid (d : CutSlot) (kind p : Nat) (g : Fyster) : (g.cutToTu d kind p).cuts = g.cuts := (congrArg Fyster.cuts (g.unsent_sendTu p _) :)
  have hdown (g : Fyster) (gs l sub : Nat) (dst : Nat × Nat) (raw : List Byte) : (g.cutDown gs l sub dst raw).cuts = g.cuts := by
    simp only [Fyster.cutDown, Fyster.remote]
    split <;> rfl
  obtain ⟨kind, child, sentAt, second, acked, missing, trays, late, absent, resent⟩ := y
  subst hacked hmissing hsecond
  simp only [Fyster.cutSilent, hslot, hchild, Bool.false_eq_true, false_or, if_neg (Nat.not_lt.mpr hdue), if_false]
  generalize hmod : f.modCut cut _ = g
  have hset : g.cutSlot cut = some (k, { c with
      children := c.children.set i { kind := kind, child := child, sentAt := f.ns, second := true, acked := false, missing := false, trays := trays, late := late, absent := absent, resent := resent }
      resends := c.resends + 1 }) := by
    rw [← hmod]
    refine (Fyster.cutSlot_modCut f cut ?_).trans ?_
    · exact fun _ => rfl
    · rw [hslot]
      rfl
  split
  · exact (Fyster.cutSlot_of_cuts (hsaid _ _ _ _) cut).trans hset
  · split
    · split
      · split
        · exact (Fyster.cutSlot_of_cuts (hdown _ _ _ _ _ _) cut).trans hset
        · exact (Fyster.cutSlot_of_cuts (hdown _ _ _ _ _ _) cut).trans hset
      · exact hset
    · exact hset

/-- R232: a TU that stays silent is missing. -/
theorem Fyster.cutSilent_of_second {f : Fyster} {cut i k : Nat} {c : CutSlot} {y : CutChild} (hslot : f.cutSlot cut = some (k, c))
    (hchild : c.children[i]? = some y) (hacked : y.acked = false) (hmissing : y.missing = false) (hsecond : y.second = true)
    (hkind : y.kind = 0) (hdue : y.sentAt + f.rd 0x6830 3 * 1000 ≤ f.ns) :
    (f.cutSilent cut i).cutSlot cut = some (k, { c with
      children := c.children.set i { y with missing := true, absent := 0 }
      missing := if c.missing.contains y.child then c.missing else c.missing ++ [y.child] }) := by
  obtain ⟨kind, child, sentAt, second, acked, missing, trays, late, absent, resent⟩ := y
  subst hacked hmissing hsecond hkind
  simp only [Fyster.cutSilent, hslot, hchild, Bool.false_eq_true, false_or, if_neg (Nat.not_lt.mpr hdue), if_true]
  rw [if_neg (by decide)]
  refine (Fyster.cutSlot_modCut f cut ?_).trans ?_
  · exact fun _ => rfl
  · rw [hslot, Option.map_some]
    dsimp only
    cases c.missing.contains child
    · split <;> rfl
    · split <;> rfl

/-! ### The strobe at Fyster (R238, R241, R242) -/

/-- A cut-store entry with PIN_TRIMMED set. -/
def marked (e : Nat × CutSlot) : Nat × CutSlot := (e.1, { e.2 with cflags := setBit e.2.cflags 5 true })

/-- What reporting leaves of the cuts: the store with PIN_TRIMMED set, the orders, the reduction and the places of the holds. -/
def Fyster.cutForm (f : Fyster) : Tab CutSlot × List Order × Red × List Nat :=
  (f.cuts.map marked, f.part.orders, f.red, f.holds.map (·.1))

theorem Fyster.cutForm_of_bare {f g : Fyster} (h : f.bare = g.bare) : f.cutForm = g.cutForm := by
  have hkeys (l : Tab Hold) : (l.map fun e : Nat × Hold => (e.1, e.2.untrimmed)).map (·.1) = l.map (·.1) := List.map_map
  exact Prod.ext (congrArg Fyster.cuts h :) (Prod.ext (congrArg (fun b : Fyster => b.part.orders) h :) (Prod.ext (congrArg Fyster.red h :)
    ((hkeys f.holds).symm.trans ((congrArg (fun b : Fyster => b.holds.map (·.1)) h).trans (hkeys g.holds)))))

theorem Fyster.cutSlot_of_cutForm {f g : Fyster} (h : f.cutForm = g.cutForm) (cut : Nat) :
    (f.cutSlot cut).map marked = (g.cutSlot cut).map marked := by
  have hfind (l : Tab CutSlot) : (l.map marked).find? (fun c => c.2.cutId == cut) =
      (l.find? fun c => c.2.cutId == cut).map marked := List.find?_map ..
  exact (hfind f.cuts).symm.trans ((congrArg (fun x => x.1.find? fun c : Nat × CutSlot => c.2.cutId == cut) h).trans (hfind g.cuts))

/-- What a cut shows: its place, its state, when it was taken, and its children. -/
def Fyster.cutView (f : Fyster) (cut : Nat) : Option (Nat × Nat × Option Nat × List CutChild) :=
  (f.cutSlot cut).map fun x => (x.1, x.2.state, x.2.takenAt, x.2.children)

/-- What the strobe keeps: what the cut shows, the orders and the reduction. -/
def Fyster.strobeForm (f : Fyster) (cut : Nat) : Option (Nat × Nat × Option Nat × List CutChild) × List Order × Red :=
  (f.cutView cut, f.part.orders, f.red)

theorem Fyster.strobeForm_of_bare {f g : Fyster} (h : f.bare = g.bare) (cut : Nat) : f.strobeForm cut = g.strobeForm cut := by
  have hform := Fyster.cutForm_of_bare h
  have hview (f : Fyster) : f.cutView cut = ((f.cutSlot cut).map marked).map fun x => (x.1, x.2.state, x.2.takenAt, x.2.children) := by
    simp only [Fyster.cutView]
    cases f.cutSlot cut <;> rfl
  refine Prod.ext ?_ (Prod.ext (congrArg (·.2.1) hform) (congrArg (·.2.2.1) hform))
  exact (hview f).trans ((congrArg _ (Fyster.cutSlot_of_cutForm hform cut)).trans (hview g).symm)

theorem Fyster.strobeForm_modCut (f : Fyster) (cut : Nat) {g : CutSlot → CutSlot} (hg : ∀ c, (g c).cutId = c.cutId)
    (hview : ∀ c, ((g c).state, (g c).takenAt, (g c).children) = (c.state, c.takenAt, c.children)) :
    (f.modCut cut g).strobeForm cut = f.strobeForm cut := by
  refine Prod.ext ?_ rfl
  simp only [Fyster.strobeForm, Fyster.cutView, f.cutSlot_modCut cut hg, Option.map_map]
  refine Option.map_congr fun x _ => congrArg (x.1, ·) (hview x.2)

theorem Fyster.strobeForm_pwr (f : Fyster) (id : Nat) (o : PwrOut) (cut : Nat) : (f.pwr id o).strobeForm cut = f.strobeForm cut :=
  (congrArg (fun u : Fyster => u.strobeForm cut) (f.around_pwr id o) :)

theorem Fyster.strobeForm_linkState (f : Fyster) (c : CutSlot) (taken : Nat) (late : Bool) (cut : Nat) :
    (f.linkState c taken late).strobeForm cut = f.strobeForm cut := by
  have hentry (a : Fyster × List Word) (k : Nat) : (a.1.fabricEntry k).1.strobeForm cut = a.1.strobeForm cut := by
    simp only [Fyster.fabricEntry, Fyster.free]
    rfl
  refine (Fyster.strobeForm_of_bare (Fyster.bare_own _ _) cut).trans ?_
  exact foldl_keeps (fun a : Fyster × List Word => a.1.strobeForm cut)
    (fun a k => ((a.1.fabricEntry k).1, a.2 ++ (a.1.fabricEntry k).2)) hentry (List.range 8) (f, [])

theorem Fyster.strobeForm_mapCuts (f : Fyster) (cut : Nat) {g : CutSlot → CutSlot} (hg : ∀ c, (g c).cutId = c.cutId)
    (hview : ∀ c, ((g c).state, (g c).takenAt, (g c).children) = (c.state, c.takenAt, c.children)) :
    ({ f with cuts := f.cuts.map fun c => (c.1, g c.2) } : Fyster).strobeForm cut = f.strobeForm cut := by
  have hkey : ((fun c : Nat × CutSlot => c.2.cutId == cut) ∘ fun c : Nat × CutSlot => (c.1, g c.2)) =
      fun c : Nat × CutSlot => c.2.cutId == cut := funext fun c => congrArg (· == cut) (hg c.2)
  refine Prod.ext ?_ rfl
  simp only [Fyster.strobeForm, Fyster.cutView, Fyster.cutSlot, List.find?_map, hkey, Option.map_map]
  exact Option.map_congr fun x _ => congrArg (x.1, ·) (hview x.2)

theorem Fyster.strobeForm_snapshot (f : Fyster) (cut : Nat) : (f.snapshot cut).strobeForm cut = f.strobeForm cut := by
  have hcopied (g : Fyster) : g.snapCopied.strobeForm cut = g.strobeForm cut :=
    (Fyster.strobeForm_pwr _ _ _ _).trans (g.strobeForm_mapCuts cut (g := fun c => { c with waiting := false }) (fun _ => rfl) fun _ => rfl)
  have hmod (g : Fyster) (m : CutSlot → CutSlot) (hg : ∀ c, (m c).cutId = c.cutId)
      (hview : ∀ c, ((m c).state, (m c).takenAt, (m c).children) = (c.state, c.takenAt, c.children))
      (hform : g.strobeForm cut = f.strobeForm cut) : (g.modCut cut m).strobeForm cut = f.strobeForm cut :=
    (g.strobeForm_modCut cut hg hview).trans hform
  simp only [Fyster.snapshot]
  split
  · split
    · refine (hcopied _).trans ((Fyster.strobeForm_pwr _ _ _ _).trans (hmod _ _ ?_ ?_ rfl))
      · exact fun _ => rfl
      · exact fun _ => rfl
    · refine (Fyster.strobeForm_pwr _ _ _ _).trans (hmod _ _ ?_ ?_ rfl)
      · exact fun _ => rfl
      · exact fun _ => rfl
  · refine hmod _ _ ?_ ?_ rfl
    · exact fun _ => rfl
    · exact fun _ => rfl

theorem Fyster.strobeForm_cutPin (f : Fyster) (c : CutSlot) : (f.cutPin c).strobeForm c.cutId = f.strobeForm c.cutId := by
  have hpin (ranges : List (Nat × Nat × Option Nat)) : (f.pin c.cutId 1 ranges).1.strobeForm c.cutId = f.strobeForm c.cutId := by
    simp only [Fyster.pin]
    split
    · rfl
    · split <;> rfl
  have hlog (g : Fyster) : (g.counted 518 0x6809 3 1).strobeForm c.cutId = g.strobeForm c.cutId :=
    (Fyster.strobeForm_of_bare (Fyster.bare_log _ _) _).trans rfl
  simp only [Fyster.cutPin]
  split
  · split
    · refine (Fyster.strobeForm_modCut _ _ ?_ ?_).trans (hpin _)
      · exact fun _ => rfl
      · exact fun _ => rfl
    · exact hpin _
  · refine (Fyster.strobeForm_modCut _ _ ?_ ?_).trans ((hlog _).trans (hpin _))
    · exact fun _ => rfl
    · exact fun _ => rfl

/-- R19, R241: Fyster's time reaches T_f. -/
theorem Fyster.takeCut_of_due {f : Fyster} {cut k : Nat} {o : Order} {c : CutSlot} (horder : f.part.order? .cut cut = some o)
    (hslot : f.cutSlot cut = some (k, c)) (hdue : o.eff ≤ f.ns) :
    (f.takeCut cut).strobeForm cut =
      (some (k, 2, some (if o.late then f.ns else o.eff), c.children), (f.part.dropOrder .cut cut).orders, f.red) := by
  have hlink := Fyster.strobeForm_linkState { f with part := f.part.dropOrder .cut cut } c (if o.late then f.ns else o.eff) o.late cut
  have hid := Fyster.cutId_of_cutSlot hslot
  have hbefore : ({ f with part := f.part.dropOrder .cut cut } : Fyster).cutView cut = some (k, c.state, c.takenAt, c.children) := by
    change (f.cutSlot cut).map _ = _
    rw [hslot]
    rfl
  simp only [Fyster.takeCut, horder, hslot, if_neg (Nat.not_lt.mpr hdue)]
  generalize Fyster.linkState _ c _ o.late = v at hlink ⊢
  have htaken : (v.modCut cut fun c => { c with state := 2, takenAt := some (if o.late then f.ns else o.eff), cflags := setBit c.cflags 0 o.late }).strobeForm cut =
      (some (k, 2, some (if o.late then f.ns else o.eff), c.children), (f.part.dropOrder .cut cut).orders, f.red) := by
    refine Prod.ext ?_ (congrArg Prod.snd hlink :)
    have hview : v.cutView cut = some (k, c.state, c.takenAt, c.children) := (congrArg Prod.fst hlink).trans hbefore
    obtain ⟨⟨k', c'⟩, hslot', hfields⟩ := Option.map_eq_some_iff.mp hview
    simp only [Prod.mk.injEq] at hfields
    obtain ⟨hk, -, -, hchildren⟩ := hfields
    refine (congrArg (Option.map fun x => (x.1, x.2.state, x.2.takenAt, x.2.children)) (Fyster.cutSlot_modCut v cut ?_)).trans ?_
    · exact fun _ => rfl
    · rw [hslot', ← hk, ← hchildren]
      rfl
  generalize Fyster.modCut v cut _ = w at htaken ⊢
  have hsnap : (if bitOf c.oflags 1 then w.snapshot cut else w).strobeForm cut = w.strobeForm cut := by
    split
    · exact w.strobeForm_snapshot cut
    · rfl
  have hpin (g : Fyster) : (g.cutPin c).strobeForm cut = g.strobeForm cut := by
    rw [← hid]
    exact g.strobeForm_cutPin c
  split
  · exact (hpin _).trans (hsnap.trans htaken)
  · exact hsnap.trans htaken

/-! ### After T_f (R236, R242) -/

/-- R236: SUMMARY is sent once. -/
theorem Fyster.summarise_of_due {f : Fyster} {cut k : Nat} {c : CutSlot} (hslot : f.cutSlot cut = some (k, c))
    (hissuer : c.issuer = true) (hfirst : c.summarised = false) (hdue : c.tf + f.rd 0x6830 4 * 1000000 ≤ f.ns) :
    ((f.summarise cut).cutSlot cut).map marked = some (marked (k, { c with summarised := true })) ∧
      (f.summarise cut).red = f.red ∧ (f.summarise cut).holds.map (·.1) = f.holds.map (·.1) := by
  have hrec (r : Rec) : (f.hostRec r).cutForm = f.cutForm := Fyster.cutForm_of_bare (Fyster.bare_hostRec f r)
  have hgo : ¬((!c.issuer) = true ∨ c.summarised = true ∨ f.ns < c.tf + f.rd 0x6830 4 * 1000000) := by
    simp only [hissuer, hfirst, Bool.not_true, Bool.false_eq_true, false_or]
    exact Nat.not_lt.mpr hdue
  simp only [Fyster.summarise, hslot]
  rw [if_neg hgo]
  generalize hr : Fyster.hostRec f _ = v
  have hform : v.cutForm = f.cutForm := by
    rw [← hr]
    exact hrec _
  refine ⟨?_, congrArg (·.2.2.1) hform, congrArg (·.2.2.2) hform⟩
  have hmarked : (v.cutSlot cut).map marked = some (marked (k, c)) :=
    (Fyster.cutSlot_of_cutForm hform cut).trans (congrArg (Option.map marked) hslot)
  obtain ⟨e, he, hmark⟩ := Option.map_eq_some_iff.mp hmarked
  refine (congrArg (Option.map marked) (Fyster.cutSlot_modCut v cut (g := fun c => { c with summarised := true }) fun _ => rfl)).trans ?_
  rw [he]
  exact (congrArg (fun e : Nat × CutSlot => some (e.1, { e.2 with summarised := true })) hmark :)

/-- Fyster without its holds' ranges. -/
def Fyster.unpinned (f : Fyster) : List Nat × Fyster := (f.holds.map (·.1), { f with holds := [] })

theorem Fyster.unpinned_pinEndIfDue (f : Fyster) (c : CutSlot) (p : Nat) : (f.pinEndIfDue c p).unpinned = f.unpinned := by
  simp only [Fyster.pinEndIfDue]
  split
  · refine Prod.ext ?_ rfl
    simp only [Fyster.unpinned, Fyster.pinEnd, List.map_map]
    refine List.map_congr_left fun h _ => ?_
    simp only [Function.comp]
    split <;> rfl
  · rfl

/-- R242: the new end of the pin is fixed, and nothing else changes. -/
theorem Fyster.cutNewEnd_of_due {f : Fyster} {cut k : Nat} {c : CutSlot} (hslot : f.cutSlot cut = some (k, c))
    (htaken : c.takenAt.isSome = true) (hdue : c.tf + f.rd 0x6830 4 * 1000000 ≤ f.ns) :
    (f.cutNewEnd cut).cutSlot cut = some (k, { c with newEnd := true }) ∧
      (f.cutNewEnd cut).holds.map (·.1) = f.holds.map (·.1) ∧ { f.cutNewEnd cut with cuts := f.cuts, holds := f.holds } = f := by
  have hform : ((f.cutParts c).foldl (fun f p => f.pinEndIfDue c p) f).unpinned = f.unpinned :=
    foldl_keeps Fyster.unpinned (fun f p => f.pinEndIfDue c p) (fun f p => f.unpinned_pinEndIfDue c p) _ f
  have hgo : ¬(c.takenAt.isNone = true ∨ f.ns < c.tf + f.rd 0x6830 4 * 1000000) := by
    rw [Option.isNone_eq_false_iff.mpr htaken]
    exact fun h => h.elim Bool.false_ne_true (Nat.not_lt.mpr hdue)
  simp only [Fyster.cutNewEnd, hslot]
  rw [if_neg hgo]
  generalize (f.cutParts c).foldl (fun f p => f.pinEndIfDue c p) f = v at hform ⊢
  have hv : v.cutSlot cut = some (k, c) := (congrArg (fun u => u.2.cutSlot cut) hform :).trans hslot
  refine ⟨?_, congrArg Prod.fst hform, (congrArg (fun u => { u.2 with cuts := f.cuts, holds := f.holds }) hform :)⟩
  refine (Fyster.cutSlot_modCut v cut ?_).trans ?_
  · exact fun _ => rfl
  · rw [hv]
    rfl

end Sys2Proof.Machine

namespace Sys2Proof
open Sys2Proof.Machine

/-- Settles O24: what Fyster sends of a cut changes neither its orders nor its groups, and the strobe keeps what the cut shows. -/
theorem cutInFyster : Obligations.CutInFyster := by
  unfold Obligations.CutInFyster
  refine ⟨?tray, ?legal, ?cancel, ?landed, ?again, ?missing, ?taken, ?summary, ?newEnd⟩
  case tray =>
    intro s dt lvl v k hlvl hnew hcode hplace hscope
    have hslot := Fyster.cutSlot_holdCut (f := s.fy.tick dt) (k := k)
      (c := newCut (fieldAt v 0 4) (fieldAt v 4 4) (cutTf v) 1 (fieldAt v 21 1) 0 0xFF true v) hplace
    obtain ⟨hchildren, horders, hred⟩ := Fyster.cutToPorts_of_held (List.range 32) hslot
    refine fyNext_of_onFy rfl ?_
    rw [Fyster.wrCutOrder_of_tray (f := s.fy.tick dt) hnew hcode hplace hscope, Fyster.reply_accepted hlvl]
    refine ⟨hchildren, ?_, rfl, hred⟩
    exact (congrArg (List.find? fun o : Order => o.kind == .cut && o.target == fieldAt v 0 4) horders).trans
      (Part.order_putOrder (s.fy.tick dt).part (cutOrderOf v (s.fy.tick dt).ns))
  case legal =>
    intro s dt lvl v hlvl hnew hcode
    obtain ⟨hanswer, horder⟩ := Fyster.wrCutOrder_of_legal (f := s.fy.tick dt) hnew hcode
    refine fyNext_of_onFy rfl ?_
    generalize (s.fy.tick dt).wrCutOrder v = r at hanswer horder ⊢
    obtain ⟨g, a⟩ := r
    subst hanswer
    rw [Fyster.reply_accepted hlvl]
    exact ⟨horder, rfl⟩
  case cancel =>
    intro s dt lvl v k c hlvl hlen hslot hserial hpending hearly
    obtain ⟨g, hg⟩ := Fyster.wrCutCancel_of_pending (f := s.fy.tick dt) hlen hslot hserial hpending hearly
    obtain ⟨hnone, horder⟩ := g.dropCut_spec (fieldAt v 0 4)
    refine fyNext_of_onFy rfl ?_
    rw [hg, Fyster.reply_accepted hlvl]
    exact ⟨hnone, horder, rfl⟩
  case landed =>
    intro s dt g lv sub x r hgrp hrole hid hscope hanswer hplace
    exact fyNext_of_onFy rfl (Fyster.cutLanded_of_accepted (f := s.fy.tick dt) hgrp hrole rfl hid hscope hanswer hplace)
  case again =>
    intro s dt id i k c y hslot hchild hacked hmissing hsecond hdue
    exact fyNext_of_onFy rfl (Fyster.cutSilent_of_first (f := s.fy.tick dt) hslot hchild hacked hmissing hsecond hdue)
  case missing =>
    intro s dt id i k c y hslot hchild hacked hmissing hsecond hkind hdue
    exact fyNext_of_onFy rfl (Fyster.cutSilent_of_second (f := s.fy.tick dt) hslot hchild hacked hmissing hsecond hkind hdue)
  case taken =>
    intro s dt id o k c horder hslot hdue
    have hform := Fyster.takeCut_of_due (f := s.fy.tick dt) horder hslot hdue
    refine fyNext_of_onFy rfl ⟨?_, congrArg Prod.fst hform, congrArg (·.2.2) hform⟩
    exact (congrArg (fun x => x.2.1.find? fun o => o.kind == .cut && o.target == id.toNat) hform).trans (Part.order_dropOrder _ _ _)
  case summary =>
    intro s dt id k c hslot hissuer hfirst hdue
    exact fyNext_of_onFy rfl (Fyster.summarise_of_due (f := s.fy.tick dt) hslot hissuer hfirst hdue)
  case newEnd =>
    intro s dt id k c hslot htaken hdue
    exact fyNext_of_onFy rfl (Fyster.cutNewEnd_of_due (f := s.fy.tick dt) hslot htaken hdue)

end Sys2Proof
end

section
/-! SUPPORT. Arm messages and groups that wait for admission (R273 to R279). -/

namespace Sys2Proof.Machine

/-! ### The first element that meets a condition, changed -/

theorem modFirst_find_bind {α β : Type} {p q : α → Bool} {g : α → α} {F : α → Option β} (l : List α)
    (h : ∀ r, l.find? p = some r → q (g r) = q r ∧ (q r = true → F (g r) = F r)) :
    ((modFirst p g l).find? q).bind F = (l.find? q).bind F := by
  induction l with
  | nil => rfl
  | cons a l ih =>
    by_cases hp : p a = true
    · obtain ⟨hq, hF⟩ := h a (List.find?_cons_of_pos hp)
      simp only [modFirst, if_pos hp]
      by_cases hqa : q a = true
      · rw [List.find?_cons_of_pos (hq.trans hqa), List.find?_cons_of_pos hqa]
        exact hF hqa
      · rw [List.find?_cons_of_neg (by rwa [hq]), List.find?_cons_of_neg hqa]
    · simp only [modFirst, if_neg hp]
      have ih := ih fun r hr => h r ((List.find?_cons_of_neg hp).trans hr)
      by_cases hqa : q a = true
      · rw [List.find?_cons_of_pos hqa, List.find?_cons_of_pos hqa]
      · rw [List.find?_cons_of_neg hqa, List.find?_cons_of_neg hqa]
        exact ih

theorem modFirst_find_same {α : Type} {p : α → Bool} {g : α → α} (h : ∀ r, p r = true → p (g r) = true) (l : List α) :
    (modFirst p g l).find? p = (l.find? p).map g := by
  induction l with
  | nil => rfl
  | cons a l ih =>
    by_cases hp : p a = true
    · simp only [modFirst, if_pos hp]
      rw [List.find?_cons_of_pos (h a hp), List.find?_cons_of_pos hp]
      rfl
    · simp only [modFirst, if_neg hp]
      rw [List.find?_cons_of_neg hp, List.find?_cons_of_neg hp]
      exact ih

/-! ### What the messages of arming leave -/

/-- A group without its roles. -/
def Grp.hull (x : Grp) : Grp := { x with roles := [] }

/-- A child without the time of its NOTICE; a NOTICE that waits to leave counts as sent. -/
def ArmChild.still (c : ArmChild) : ArmChild := { c with sentAt := 0, state := if c.state = 6 then 5 else c.state }

theorem ArmChild.state_still {c : ArmChild} (h : c.state ≠ 6) : c.still.state = c.state := if_neg h

/-- What every step of arming but the taking of a descriptor leaves: orders, held serials, time, holds, cuts, and the counts
of refusals and of answers. -/
def Fyster.armBase (f : Fyster) : List Order × List Held × TimeUnit × Tab Hold × Tab CutSlot × Nat × Nat :=
  (f.part.orders, f.part.held, f.part.time, f.holds, f.cuts, f.rd 0x3140 9, f.rd 0x3140 7)

/-- The same with a group's own fields. -/
def Fyster.armGrp (j : Nat) (f : Fyster) :
    (List Order × List Held × TimeUnit × Tab Hold × Tab CutSlot × Nat × Nat) × Option Grp :=
  (f.armBase, (f.grp j).map Grp.hull)

/-- The same with a child of the group. -/
def Fyster.armKid (j lv key : Nat) (f : Fyster) :
    ((List Order × List Held × TimeUnit × Tab Hold × Tab CutSlot × Nat × Nat) × Option Grp) × Option ArmChild :=
  (f.armGrp j, (f.armChildAt j lv key).map ArmChild.still)

/-- The same with the links and the ring. -/
def Fyster.armForm (j lv key : Nat) (f : Fyster) :
    (((List Order × List Held × TimeUnit × Tab Hold × Tab CutSlot × Nat × Nat) × Option Grp) × Option ArmChild) ×
      Tab Link × Tab Partition :=
  (f.armKid j lv key, f.links, f.ring)

section
variable (j lv key : Nat)

theorem Fyster.armForm_congr {f g : Fyster} (hpart : g.part = f.part) (hgroups : g.red.groups = f.red.groups)
    (hkept : (g.holds, g.cuts, g.links, g.ring) = (f.holds, f.cuts, f.links, f.ring)) : g.armForm j lv key = f.armForm j lv key := by
  simp only [Prod.mk.injEq] at hkept
  obtain ⟨hholds, hcuts, hlinks, hring⟩ := hkept
  simp only [Fyster.armForm, Fyster.armKid, Fyster.armGrp, Fyster.armBase, Fyster.armChildAt, Fyster.grp, Fyster.rd,
    hpart, hgroups, hholds, hcuts, hlinks, hring]

theorem Fyster.armForm_putLedger (f : Fyster) (ofs : Nat) (bs : List Byte) :
    (f.putLedger ofs bs).armForm j lv key = f.armForm j lv key :=
  Fyster.armForm_congr j lv key rfl rfl rfl

theorem Fyster.grp_setGrp (f : Fyster) (k i : Nat) (x : Grp) : (f.setGrp k x).grp i = if i = k then some x else f.grp i :=
  tfind_tset _ _ _ _

theorem Fyster.grp_setGrp_self (f : Fyster) (k : Nat) (x : Grp) : (f.setGrp k x).grp k = some x :=
  (f.grp_setGrp k k x).trans (if_pos rfl)

theorem Fyster.armGrp_setGrp {f : Fyster} {k : Nat} {x y : Grp} (hgrp : f.grp k = some x) (h : y.hull = x.hull) :
    (f.setGrp k y).armGrp j = f.armGrp j := by
  refine Prod.ext rfl ?_
  change ((f.setGrp k y).grp j).map Grp.hull = _
  rw [Fyster.grp_setGrp]
  split
  next hk => subst hk; exact ((congrArg some h).trans (congrArg (Option.map Grp.hull) hgrp).symm)
  next => rfl

theorem Fyster.armForm_setGrp {f : Fyster} {k : Nat} {x y : Grp} (hgrp : f.grp k = some x) (h : y.hull = x.hull)
    (hkid : ((y.held lv).bind fun r => tfind r.children key).map ArmChild.still =
      ((x.held lv).bind fun r => tfind r.children key).map ArmChild.still) :
    (f.setGrp k y).armForm j lv key = f.armForm j lv key := by
  refine Prod.ext (Prod.ext (Fyster.armGrp_setGrp j hgrp h) ?_) rfl
  change ((((f.setGrp k y).grp j).bind fun x => x.held lv).bind fun r => tfind r.children key).map ArmChild.still =
    (((f.grp j).bind fun x => x.held lv).bind fun r => tfind r.children key).map ArmChild.still
  rw [Fyster.grp_setGrp]
  split
  next hk => rw [hk, hgrp]; exact hkid
  next => rfl

theorem tfind_tset_present {α β : Type} {t : Tab α} {k : Nat} {v w : α} {F : α → β} (hold : tfind t k = some v) (h : F w = F v) (i : Nat) :
    (tfind (tset t k w) i).map F = (tfind t i).map F := by
  rw [tfind_tset]
  split
  next hi => rw [hi, hold]; exact congrArg some h
  next => rfl

theorem Fyster.armForm_emit (f : Fyster) (o : Out) : (f.emit o).armForm j lv key = f.armForm j lv key :=
  Fyster.armForm_congr j lv key rfl rfl rfl

/-- A child's table with one child changed, if it is there. -/
def changeKid (h : ArmChild → ArmChild) (t : Tab ArmChild) (key : Nat) : Tab ArmChild :=
  match tfind t key with
  | some c => tset t key (h c)
  | none => t

theorem changeKid_find {h : ArmChild → ArmChild} (hstill : ∀ c, (h c).still = c.still) (t : Tab ArmChild) (k i : Nat) :
    (tfind (changeKid h t k) i).map ArmChild.still = (tfind t i).map ArmChild.still := by
  rw [changeKid]
  split
  next c hc => exact tfind_tset_present hc (hstill c) i
  next => rfl

theorem changeKid_find_self (h : ArmChild → ArmChild) (t : Tab ArmChild) (k : Nat) :
    tfind (changeKid h t k) k = (tfind t k).map h := by
  rw [changeKid]
  split
  next c hc => rw [hc, tfind_tset, if_pos rfl]; rfl
  next hc => rw [hc]; rfl

/-- A role with one of its children changed. -/
def Role.changeKid (r : Role) (kid : Nat) (h : ArmChild → ArmChild) : Role :=
  { r with children := Machine.changeKid h r.children kid }

/-- A group with a child of the holder of a level changed. -/
def Grp.changeKid (x : Grp) (level kid : Nat) (h : ArmChild → ArmChild) : Grp :=
  { x with roles := modFirst (fun r => r.level == level && r.holder) (fun r => r.changeKid kid h) x.roles }

theorem Grp.held_changeKid (x : Grp) (level kid : Nat) (h : ArmChild → ArmChild) :
    (x.changeKid level kid h).held level = (x.held level).map fun r => r.changeKid kid h :=
  modFirst_find_same (p := fun r : Role => r.level == level && r.holder) (g := fun r => r.changeKid kid h) (fun _ hr => hr) x.roles

theorem Fyster.modChild_of_grp {f : Fyster} {k level kid : Nat} {x : Grp} (h : ArmChild → ArmChild) (hgrp : f.grp k = some x) :
    f.modChild k level kid h = f.setGrp k (x.changeKid level kid h) := by
  simp only [Fyster.modChild, hgrp]
  rfl

theorem Fyster.modChild_of_none {f : Fyster} {k level kid : Nat} (h : ArmChild → ArmChild) (hgrp : f.grp k = none) :
    f.modChild k level kid h = f := by
  simp only [Fyster.modChild, hgrp]

theorem Fyster.armGrp_modChild (f : Fyster) (k level kid : Nat) (h : ArmChild → ArmChild) :
    (f.modChild k level kid h).armGrp j = f.armGrp j := by
  cases hgrp : f.grp k with
  | none => rw [Fyster.modChild_of_none h hgrp]
  | some x =>
    rw [Fyster.modChild_of_grp h hgrp]
    exact Fyster.armGrp_setGrp j hgrp rfl

theorem Fyster.armForm_modChild {h : ArmChild → ArmChild} (hstill : ∀ c, (h c).still = c.still) (f : Fyster) (k level kid : Nat) :
    (f.modChild k level kid h).armForm j lv key = f.armForm j lv key := by
  cases hgrp : f.grp k with
  | none => rw [Fyster.modChild_of_none h hgrp]
  | some x =>
    rw [Fyster.modChild_of_grp h hgrp]
    refine Fyster.armForm_setGrp j lv key hgrp rfl ?_
    rw [Option.map_bind, Option.map_bind]
    exact modFirst_find_bind x.roles fun r _ => ⟨rfl, fun _ => changeKid_find hstill r.children kid key⟩

theorem Fyster.armChildAt_modChild_self (f : Fyster) (h : ArmChild → ArmChild) :
    (f.modChild j lv key h).armChildAt j lv key = (f.armChildAt j lv key).map h := by
  cases hgrp : f.grp j with
  | none =>
    rw [Fyster.modChild_of_none h hgrp]
    simp only [Fyster.armChildAt, hgrp, Option.bind_none, Option.map_none]
  | some x =>
    rw [Fyster.modChild_of_grp h hgrp, Fyster.armChildAt, Fyster.armChildAt, Fyster.grp_setGrp_self, hgrp]
    simp only [Option.bind_some, Grp.held_changeKid]
    cases x.held lv with
    | none => rfl
    | some r => exact changeKid_find_self h r.children key

theorem changeKid_find_other (h : ArmChild → ArmChild) (t : Tab ArmChild) {k i : Nat} (hne : i ≠ k) :
    tfind (changeKid h t k) i = tfind t i := by
  rw [changeKid]
  split
  · rw [tfind_tset, if_neg hne]
  · rfl

theorem Fyster.armChildAt_modChild_other (f : Fyster) {k level kid : Nat} (h : ArmChild → ArmChild) (hne : (j, lv, key) ≠ (k, level, kid)) :
    (f.modChild k level kid h).armChildAt j lv key = f.armChildAt j lv key := by
  cases hgrp : f.grp k with
  | none => rw [Fyster.modChild_of_none h hgrp]
  | some x =>
    rw [Fyster.modChild_of_grp h hgrp, Fyster.armChildAt, Fyster.armChildAt, Fyster.grp_setGrp]
    split
    next hk =>
      rw [hk, hgrp]
      refine modFirst_find_bind x.roles fun r hr => ⟨rfl, fun hq => ?_⟩
      have hlevel := List.find?_some hr
      simp only [Bool.and_eq_true, beq_iff_eq] at hlevel hq
      refine changeKid_find_other h r.children fun hkey => hne ?_
      rw [hk, hkey, ← hq.1, hlevel.1]
    next => rfl

/-! ### Sending a message -/

/-- A message written into its entry of the inbox. -/
def Fyster.armOut (f : Fyster) (tray base : Nat) (m : ArmMsg) : Fyster :=
  let n := tget f.red.armSeq tray 0
  let bs := ({ m with seq := n % 65536 } : ArmMsg).bytes f.ts
  let f := { f with red := { f.red with armSeq := tset f.red.armSeq tray (n + 1), armSent := f.red.armSent ++ [f.ns] } }
  let ofs := (4 * f.tray + n % 4) * 64
  let f := if tray = f.tray then f.putLedger ofs bs else f
  f.emit (.fabric tray 0 (base + ofs) bs)

/-- A message that has left, counted. -/
def Fyster.armCount (f : Fyster) (m : ArmMsg) : Fyster :=
  if m.kind = 1 then f.bump 0x3140 6 1 else if m.kind = 4 then f.bump 0x3140 8 1 else f

/-- A NOTICE that has left is noted at its child. -/
def Fyster.armMark (f : Fyster) (m : ArmMsg) : Fyster :=
  if m.kind = 1 ∧ m.fromStandby = false then
    match f.armKey m.group with
    | some k => f.modChild k m.child.1 m.child.2 fun c => { c with sentAt := f.ns, state := if c.state = 6 then 5 else c.state }
    | none => f
  else f

theorem Fyster.armSend_eq (f : Fyster) (tray base : Nat) (m : ArmMsg) :
    f.armSend tray base m = ((f.armOut tray base m).armCount m).armMark m := rfl

theorem Fyster.armForm_armOut (f : Fyster) (tray base : Nat) (m : ArmMsg) :
    (f.armOut tray base m).armForm j lv key = f.armForm j lv key := by
  rw [Fyster.armOut]
  refine (Fyster.armForm_emit j lv key _ _).trans ?_
  split
  · exact (Fyster.armForm_putLedger j lv key _ _ _).trans (Fyster.armForm_congr j lv key rfl rfl rfl)
  · exact Fyster.armForm_congr j lv key rfl rfl rfl

theorem Fyster.armForm_bump (f : Fyster) {i k : Nat} (n : Nat) (h₉ : objKey 0x3140 9 ≠ objKey i k) (h₇ : objKey 0x3140 7 ≠ objKey i k) :
    (f.bump i k n).armForm j lv key = f.armForm j lv key := by
  have h₁ : (f.bump i k n).rd 0x3140 9 = f.rd 0x3140 9 := Part.rd_bump_other _ _ h₉
  have h₂ : (f.bump i k n).rd 0x3140 7 = f.rd 0x3140 7 := Part.rd_bump_other _ _ h₇
  have hbase : (f.bump i k n).armBase = f.armBase := by
    rw [Fyster.armBase, h₁, h₂]
    rfl
  exact Prod.ext (Prod.ext (Prod.ext hbase rfl) rfl) rfl

theorem Fyster.armForm_armCount (f : Fyster) (m : ArmMsg) : (f.armCount m).armForm j lv key = f.armForm j lv key := by
  rw [Fyster.armCount]
  split
  · exact Fyster.armForm_bump j lv key f 1 (by decide) (by decide)
  · split
    · exact Fyster.armForm_bump j lv key f 1 (by decide) (by decide)
    · rfl

theorem ArmChild.still_of_sent (c : ArmChild) (now : Nat) :
    ({ c with sentAt := now, state := if c.state = 6 then 5 else c.state } : ArmChild).still = c.still := by
  by_cases h : c.state = 6 <;> simp [ArmChild.still, h]

theorem Fyster.armForm_armMark (f : Fyster) (m : ArmMsg) : (f.armMark m).armForm j lv key = f.armForm j lv key := by
  rw [Fyster.armMark]
  split
  · split
    next k _ => exact Fyster.armForm_modChild j lv key (fun c => ArmChild.still_of_sent c f.ns) f k m.child.1 m.child.2
    next => rfl
  · rfl

theorem Fyster.armForm_armSend (f : Fyster) (tray base : Nat) (m : ArmMsg) :
    (f.armSend tray base m).armForm j lv key = f.armForm j lv key := by
  rw [Fyster.armSend_eq]
  exact (Fyster.armForm_armMark j lv key _ m).trans
    ((Fyster.armForm_armCount j lv key _ m).trans (Fyster.armForm_armOut j lv key f tray base m))

theorem Fyster.armForm_armPumpN (n : Nat) : ∀ f : Fyster, (Fyster.armPumpN n f).armForm j lv key = f.armForm j lv key := by
  induction n with
  | zero => exact fun _ => rfl
  | succ n ih =>
    intro f
    simp only [Fyster.armPumpN]
    split
    · rfl
    · split
      · exact Fyster.armForm_congr j lv key rfl rfl rfl
      next w _ =>
        refine (ih _).trans ((Fyster.armForm_armSend j lv key _ w.1 w.2.1 _).trans ?_)
        exact Fyster.armForm_congr j lv key rfl rfl rfl

theorem Fyster.armForm_armPost (f : Fyster) (tray base : Nat) (m : ArmMsg) :
    (f.armPost tray base m).armForm j lv key = f.armForm j lv key := by
  rw [Fyster.armPost, Fyster.armPump]
  exact (Fyster.armForm_armPumpN j lv key _ _).trans (Fyster.armForm_congr j lv key rfl rfl rfl)

theorem Fyster.armForm_notifyChild (f : Fyster) (g : Nat) (d : List Byte) (r : Role) (t : Nat × (Nat × Nat) × Nat × Nat × Bool) :
    (f.notifyChild g d r t).armForm j lv key = f.armForm j lv key :=
  Fyster.armForm_armPost j lv key _ _ _ _

theorem Fyster.armForm_answerUp (f : Fyster) (g : Nat) (x : Grp) (r : Role) (m : ArmMsg) :
    (f.answerUp g x r m).armForm j lv key = f.armForm j lv key := by
  rw [Fyster.answerUp]
  split
  · exact Fyster.armForm_armPost j lv key _ _ _ _
  · rfl

/-! ### Totals upward -/

theorem Fyster.armForm_putArmStatus (f : Fyster) (g : Nat) (x : Grp) (r : Role) (i : Nat) (c : ArmChild) :
    (f.putArmStatus g x r i c).armForm j lv key = f.armForm j lv key := by
  rw [Fyster.putArmStatus]
  split
  · rfl
  · refine foldl_keeps (Fyster.armForm j lv key) _ (fun f e => ?_) _ _
    split
    · exact Fyster.armForm_putLedger j lv key _ _ _
    · split
      · exact Fyster.armForm_putLedger j lv key _ _ _
      · split
        · exact Fyster.armForm_putLedger j lv key _ _ _
        · exact (Fyster.armForm_putLedger j lv key _ _ _).trans (Fyster.armForm_congr j lv key rfl rfl rfl)

/-- The place in the tree of the first role with a level, standby and index. -/
theorem find_role_place {l : List Role} {r q : Role}
    (h : (l.find? fun q => q.level == r.level && q.standby == r.standby && q.index == r.index) = some q) :
    (l.find? fun y => y.level == q.level && y.standby == q.standby && y.index == q.index && y.section_ == q.section_) = some q := by
  have hq := List.find?_some h
  simp only [Bool.and_eq_true, beq_iff_eq] at hq
  obtain ⟨⟨hlevel, hstandby⟩, hindex⟩ := hq
  obtain ⟨_, as, bs, hl, has⟩ := List.find?_eq_some_iff_append.mp h
  refine List.find?_eq_some_iff_append.mpr ⟨by simp, as, bs, hl, fun a ha => ?_⟩
  have hno := has a ha
  rw [Bool.not_eq_true', ← hlevel, ← hstandby, ← hindex] at hno
  rw [hno]
  rfl

theorem Fyster.armForm_setRole {f : Fyster} {k : Nat} {x : Grp} {q q' : Role} (hgrp : f.grp k = some x)
    (hfind : (x.roles.find? fun y => y.level == q.level && y.standby == q.standby && y.index == q.index && y.section_ == q.section_) = some q)
    (h : (q'.level, q'.standby, q'.index, q'.section_, q'.holder, q'.children) =
      (q.level, q.standby, q.index, q.section_, q.holder, q.children)) :
    (f.setGrp k (x.setRole q')).armForm j lv key = f.armForm j lv key := by
  simp only [Prod.mk.injEq] at h
  obtain ⟨hlevel, hstandby, hindex, hsect, hholder, hkids⟩ := h
  refine Fyster.armForm_setGrp j lv key hgrp rfl (congrArg (Option.map ArmChild.still) ?_)
  refine modFirst_find_bind x.roles fun r hr => ?_
  rw [hlevel, hstandby, hindex, hsect] at hr
  obtain rfl : r = q := Option.some.inj (hr.symm.trans hfind)
  rw [hlevel, hholder, hkids]
  exact ⟨rfl, fun _ => rfl⟩

theorem Fyster.armForm_armSettle {f : Fyster} {k : Nat} {x : Grp} {q : Role} (hgrp : f.grp k = some x)
    (hfind : (x.roles.find? fun y => y.level == q.level && y.standby == q.standby && y.index == q.index && y.section_ == q.section_) = some q) :
    (f.armSettle k q).armForm j lv key = f.armForm j lv key := by
  simp only [Fyster.armSettle, hgrp]
  split
  · rfl
  · have hset := fun s => Fyster.armForm_setRole (f := f) (q' := { q with doneSent := s }) j lv key hgrp hfind rfl
    split
    · refine (foldl_keeps (Fyster.armForm j lv key) _ (fun f i => Fyster.armForm_putArmStatus j lv key f _ _ _ _ _) _ _).trans ?_
      exact hset _
    · exact (Fyster.armForm_answerUp j lv key _ _ _ _ _).trans (hset _)

theorem Fyster.armForm_armSettleAll (f : Fyster) (k : Nat) : (f.armSettleAll k).armForm j lv key = f.armForm j lv key := by
  rw [Fyster.armSettleAll]
  split
  · refine foldl_keeps (Fyster.armForm j lv key) _ (fun f r => ?_) _ _
    cases hgrp : f.grp k with
    | none => rfl
    | some x =>
      dsimp only [Option.bind_some]
      split
      next q hq => exact Fyster.armForm_armSettle j lv key hgrp (find_role_place hq)
      next => rfl
  · rfl

/-! ### Orders to the TUs -/

theorem Fyster.armKid_of_unsent {f g : Fyster} (h : f.unsent = g.unsent) : f.armKid j lv key = g.armKid j lv key :=
  (congrArg (Fyster.armKid j lv key) h :)

theorem Fyster.armKid_relay (f : Fyster) (p : Nat) (why : RelayFor) (m : DictMsg) :
    (f.relay p why m).armKid j lv key = f.armKid j lv key :=
  (Fyster.armKid_of_unsent j lv key (Fyster.unsent_sendTu _ p _)).trans rfl

theorem Fyster.armKid_armTu (f : Fyster) (g p : Nat) (d : List Byte) (kind : Nat) :
    (f.armTu g p d kind).armKid j lv key = f.armKid j lv key := by
  rw [Fyster.armTu]
  split
  · exact Fyster.armKid_relay j lv key f p _ _
  · rfl

theorem Fyster.grp_armTu (f : Fyster) (g p : Nat) (d : List Byte) (kind i : Nat) : (f.armTu g p d kind).grp i = f.grp i := by
  rw [Fyster.armTu]
  split
  · exact (congrArg (fun x => Fyster.grp x i) (Fyster.unsent_sendTu _ p _) :)
  · rfl

theorem Fyster.armGrp_broadcast (f : Fyster) (k : Nat) (d old : List Byte) (r : Role) :
    (f.broadcast k d old r).armGrp j = f.armGrp j := by
  have htu := fun (g kind : Nat) (f : Fyster) (p : Nat) => congrArg Prod.fst (Fyster.armKid_armTu j 0 0 f g p d kind)
  have hkid := fun (g : Nat) (f : Fyster) (t : Nat × (Nat × Nat) × Nat × Nat × Bool) =>
    congrArg (fun x => x.1.1) (Fyster.armForm_notifyChild j 0 0 f g d r t)
  cases hgrp : f.grp k with
  | none => simp only [Fyster.broadcast, hgrp]
  | some x =>
    simp only [Fyster.broadcast, hgrp]
    split
    · refine (foldl_keeps (Fyster.armGrp j) _ (htu _ _) _ _).trans ((foldl_keeps (Fyster.armGrp j) _ (htu _ _) _ _).trans ?_)
      exact Fyster.armGrp_setGrp j hgrp rfl
    · refine (foldl_keeps (Fyster.armGrp j) _ (hkid _) _ _).trans ((foldl_keeps (Fyster.armGrp j) _ (hkid _) _ _).trans ?_)
      exact Fyster.armGrp_setGrp j hgrp rfl

/-! ### Admission -/

theorem Fyster.armGrp_admitRole (f : Fyster) (k : Nat) : (f.admitRole k).1.armGrp j = f.armGrp j := by
  cases hgrp : f.grp k with
  | none => simp only [Fyster.admitRole, hgrp]
  | some x =>
    simp only [Fyster.admitRole, hgrp]
    split
    · rfl
    · refine foldl_keeps (fun a : Fyster × Nat => a.1.armGrp j) _ (fun a r => ?_) _ _
      cases hy : a.1.grp k with
      | none => rfl
      | some y =>
        dsimp only
        split
        · rfl
        · split
          · exact Fyster.armGrp_setGrp j hy rfl
          · rfl

theorem Fyster.grp_of_armGrp {f g : Fyster} {x : Grp} (h : g.armGrp j = f.armGrp j) (hgrp : f.grp j = some x) :
    ∃ y, g.grp j = some y ∧ y.hull = x.hull :=
  Option.map_eq_some_iff.mp ((congrArg Prod.snd h).trans (congrArg (Option.map Grp.hull) hgrp))

theorem Fyster.grp_none_of_armGrp {f g : Fyster} (h : g.armGrp j = f.armGrp j) (hgrp : f.grp j = none) : g.grp j = none :=
  Option.map_eq_none_iff.mp ((congrArg Prod.snd h).trans (congrArg (Option.map Grp.hull) hgrp))

/-- What names a group: its GROUP_ID, serial, descriptor and pending change. -/
def Grp.name (x : Grp) : Nat × Nat × List Byte × Option (List Byte) := (x.id, x.serial, x.desc, x.next)

/-- What admission leaves. -/
def Fyster.armName (f : Fyster) :
    (List Order × List Held × TimeUnit × Tab Hold × Tab CutSlot × Nat × Nat) × Option (Nat × Nat × List Byte × Option (List Byte)) :=
  (f.armBase, (f.grp j).map Grp.name)

theorem Fyster.armName_of_armGrp {f g : Fyster} (h : g.armGrp j = f.armGrp j) : g.armName j = f.armName j := by
  have hname : ∀ f : Fyster, f.armName j = (fun y => (y.1, y.2.map Grp.name)) (f.armGrp j) := by
    intro f
    refine Prod.ext rfl ?_
    exact (Option.map_map Grp.name Grp.hull (f.grp j)).symm
  rw [hname g, hname f, h]

theorem Fyster.armName_admitted (f : Fyster) (k : Nat) : (f.admitted k).armName k = f.armName k := by
  have hrole := Fyster.armGrp_admitRole k f k
  refine Eq.trans ?_ (Fyster.armName_of_armGrp k hrole)
  cases hy : (f.admitRole k).1.grp k with
  | none => simp only [Fyster.admitted, hy]
  | some y =>
    have hset : ∀ z : Grp, z.name = y.name → ((f.admitRole k).1.setGrp k z).armName k = (f.admitRole k).1.armName k := by
      intro z hz
      refine Prod.ext rfl ?_
      change (((f.admitRole k).1.setGrp k z).grp k).map Grp.name = ((f.admitRole k).1.grp k).map Grp.name
      rw [Fyster.grp_setGrp_self, hy]
      exact congrArg some hz
    simp only [Fyster.admitted, hy]
    split
    · rfl
    · split <;> exact hset _ rfl

/-- R277: what a test of admission finds for a group that waits. -/
theorem Fyster.admitted_of_waiting {f : Fyster} {k : Nat} {x : Grp} (hgrp : f.grp k = some x) (hstate : x.state = 2) :
    ((f.admitted k).grp k).map (fun z => (z.state, z.wait)) =
      some (if (f.admitRole k).2 = 0 then
          (if x.eff ≤ f.ns ∧ (f.part.order? .membership x.id).isNone = true then (3, 0) else (1, 0))
        else (2, (f.admitRole k).2)) ∧ (f.admitted k).holds = f.holds := by
  have hrole := Fyster.armGrp_admitRole k f k
  obtain ⟨y, hy, hhull⟩ := Fyster.grp_of_armGrp k hrole hgrp
  have hy2 : y.state = 2 := (congrArg Grp.state hhull :).trans hstate
  have heff : y.eff = x.eff := (congrArg Grp.eff hhull :)
  have hid : y.id = x.id := (congrArg Grp.id hhull :)
  have hholds : (f.admitRole k).1.holds = f.holds := (congrArg (fun z => z.1.2.2.2.1) hrole :)
  simp only [Fyster.admitted, hy, hy2]
  rw [if_neg (by decide)]
  by_cases hr : (f.admitRole k).2 = 0
  · rw [if_pos hr, if_pos hr, Fyster.grp_setGrp_self, heff, hid]
    refine ⟨congrArg some ?_, hholds⟩
    by_cases hdue : x.eff ≤ f.ns ∧ (f.part.order? .membership x.id).isNone = true
    · simp only [if_pos hdue]
      rfl
    · simp only [if_neg hdue]
      rfl
  · rw [if_neg hr, if_neg hr, Fyster.grp_setGrp_self]
    exact ⟨rfl, hholds⟩

/-! ### Taking a descriptor -/

theorem Fyster.takeArm_of_new {f : Fyster} {k : Nat} {d : List Byte} {r : Role} (hgrp : f.grp k = none) :
    f.takeArm k d r = ({ f with part := f.part.putArm (armOrderOf d (decide (dEff d < f.ns))) }.setGrp k ((newGrp d f.ns).addRole r), []) := by
  simp only [Fyster.takeArm, hgrp]

theorem Part.heldSerial_putOrder (p : Part) (o : Order) : (p.putOrder o).heldSerial o.kind o.target = some o.serial := by
  simp only [Part.heldSerial, Part.putOrder, List.find?_append]
  have hnone : ((p.held.filter fun h => !(h.kind == o.kind && h.target == o.target)).find?
      fun h => h.kind == o.kind && h.target == o.target) = none := by
    refine List.find?_eq_none.mpr fun h hh => ?_
    rw [Bool.not_eq_true, ← Bool.not_eq_true']
    exact (List.mem_filter.mp hh).2
  rw [hnone]
  simp

theorem Part.heldSerial_of_held {p q : Part} (h : p.held = q.held) (k : OrderKind) (target : Nat) :
    p.heldSerial k target = q.heldSerial k target := by
  simp only [Part.heldSerial, h]

/-- What the table of orders holds once a descriptor has been taken. -/
theorem Fyster.orders_of_taken {f g : Fyster} {d : List Byte}
    (h : (g.part.orders, g.part.held) =
      ((f.part.putArm (armOrderOf d (decide (dEff d < f.ns)))).orders, (f.part.putArm (armOrderOf d (decide (dEff d < f.ns)))).held)) :
    g.part.order? .membership (dGroup d) = some (armOrderOf d (decide (dEff d < f.ns))) ∧
      g.part.heldSerial .membership (dGroup d) = some (dSerial d) := by
  simp only [Prod.mk.injEq] at h
  obtain ⟨horders, hheld⟩ := h
  have hput := Part.order_putOrder (f.part.dropOrder .grid (dGroup d)) (armOrderOf d (decide (dEff d < f.ns)))
  have hser := Part.heldSerial_putOrder (f.part.dropOrder .grid (dGroup d)) (armOrderOf d (decide (dEff d < f.ns)))
  exact ⟨(congrArg (List.find? fun o : Order => o.kind == .membership && o.target == dGroup d) horders).trans hput,
    (Part.heldSerial_of_held hheld _ _).trans hser⟩

theorem Fyster.armName_armRole (f : Fyster) (k : Nat) (d : List Byte) (r : Role) :
    (f.armRole k d r).armName k = (f.takeArm k d r).1.armName k := by
  refine Eq.trans ?_ (Fyster.armName_admitted _ k)
  simp only [Fyster.armRole]
  split
  · rfl
  · refine Fyster.armName_of_armGrp k ?_
    split
    · exact congrArg (fun x => x.1.1) (Fyster.armForm_putLedger k 0 0 _ _ _)
    · refine (Fyster.armGrp_broadcast k _ _ _ _ _).trans ?_
      exact congrArg (fun x => x.1.1) (Fyster.armForm_putLedger k 0 0 _ _ _)

theorem Fyster.armRole_of_new {f g : Fyster} {k : Nat} {d : List Byte} {r : Role} (hgrp : f.grp k = none)
    (h : g.armName k = (f.armRole k d r).armName k) :
    g.part.order? .membership (dGroup d) = some (armOrderOf d (decide (dEff d < f.ns))) ∧
      g.part.heldSerial .membership (dGroup d) = some (dSerial d) ∧
      (g.grp k).map (fun x => (x.id, x.serial, x.desc, x.next)) = some (dGroup d, dSerial d, d, none) ∧
      g.rd 0x3140 9 = f.rd 0x3140 9 := by
  have h := h.trans (Fyster.armName_armRole f k d r)
  rw [Fyster.takeArm_of_new hgrp] at h
  obtain ⟨horder, hheld⟩ := Fyster.orders_of_taken (f := f) (g := g) (d := d) (congrArg (fun x => (x.1.1, x.1.2.1)) h :)
  refine ⟨horder, hheld, ?_, (congrArg (fun x => x.1.2.2.2.2.2.1) h :)⟩
  refine (congrArg Prod.snd h :).trans ?_
  change ((Fyster.setGrp _ k _).grp k).map Grp.name = _
  rw [Fyster.grp_setGrp_self, Grp.addRole]
  rfl

theorem Fyster.armName_armPost (f : Fyster) (tray base : Nat) (m : ArmMsg) : (f.armPost tray base m).armName j = f.armName j :=
  Fyster.armName_of_armGrp j (congrArg (fun x => x.1.1) (Fyster.armForm_armPost j 0 0 f tray base m))

theorem Fyster.armName_armSettleAll (f : Fyster) (k : Nat) : (f.armSettleAll k).armName j = f.armName j :=
  Fyster.armName_of_armGrp j (congrArg (fun x => x.1.1) (Fyster.armForm_armSettleAll j 0 0 f k))

theorem Fyster.armNotice_of_new {f : Fyster} {src k sect : Nat} {b d : List Byte} (hgood : armGood b = true) (hkind : (armMsg b).kind = 1)
    (hrole : (armMsg b).role ≠ 0) (hlen : d.length = (armMsg b).len) (hcrc : crc32c d = (armMsg b).crc) (harm : dKind d = 1)
    (hsect : ((List.range (dNl2 d)).find? fun i => sectionOfs d i (dSectionsAt d) == (armMsg b).sect).getD 0 = sect)
    (hnew : f.part.heldSerial .membership (armMsg b).group ≠ some (armMsg b).serial)
    (hcode : f.armCode d (armMsg b) (newRole ((armMsg b).role - 1) (armMsg b).standby (armMsg b).index sect
      (peerTray d ((armMsg b).role - 1) (armMsg b).index sect (armMsg b).standby)) = 0)
    (hplace : f.armPlace (dSlot d) (armMsg b).group = some k) :
    (f.armNotice src b d).armName k = (f.armRole k d (newRole ((armMsg b).role - 1) (armMsg b).standby (armMsg b).index sect
      (peerTray d ((armMsg b).role - 1) (armMsg b).index sect (armMsg b).standby))).armName k := by
  have hheld : (f.part.heldSerial .membership (armMsg b).group == some (armMsg b).serial) = false := beq_eq_false_iff_ne.mpr hnew
  have hhead : ¬(!armGood b || (armMsg b).kind != 1 || (armMsg b).role == 0 || d.length != (armMsg b).len || crc32c d != (armMsg b).crc) = true := by
    simp [hgood, hkind, hrole, hlen, hcrc]
  simp only [Fyster.armNotice]
  rw [if_neg hhead]
  simp only [harm, hheld, beq_self_eq_true, if_true, hsect, Bool.false_and, Bool.false_eq_true, if_false, hcode, ne_eq, not_true, Bool.not_true, hplace]
  refine (Fyster.armName_armSettleAll k _ k).trans ?_
  split
  · exact Fyster.armName_armPost k _ _ _ _
  · rfl

theorem Fyster.wrArmOrder_of_new {f : Fyster} {v : List Byte} {k : Nat}
    (hnew : f.part.heldSerial .membership (dGroup v) ≠ some (dSerial v)) (hcode : f.armOrderCode v = 0) (harm : dKind v = 1)
    (hplace : f.armPlace (dSlot v) (dGroup v) = some k) :
    ∃ r, f.wrArmOrder v = ((f.armRole k v r).armSettleAll k, 0) := by
  simp only [Fyster.wrArmOrder, hcode, harm, hplace, if_true]
  rw [if_neg fun h => hnew h.2]
  exact ⟨_, rfl⟩

theorem Fyster.wrArmOrder_of_teardown {f : Fyster} {v : List Byte} {k : Nat}
    (hnew : f.part.heldSerial .membership (dGroup v) ≠ some (dSerial v)) (hcode : f.armOrderCode v = 0) (harm : dKind v = 2)
    (hkey : f.armKey (dGroup v) = some k) : f.wrArmOrder v = (f.takeTeardown k v, 0) := by
  simp only [Fyster.wrArmOrder, hcode, harm, hkey]
  rw [if_neg fun h => hnew h.2]
  rfl

theorem Fyster.takeTeardown_of_armed {f : Fyster} {k : Nat} {v : List Byte} {x : Grp} (hgrp : f.grp k = some x)
    (hstate : x.state = 3) (hnew : f.part.heldSerial .membership x.id ≠ some (dSerial v)) :
    (f.takeTeardown k v).armGrp k = ({ f with part := f.part.putArm (armOrderOf v (decide (dEff v < f.ns))) }.setGrp k
      { x with next := some v, endAt := some (dEff v) }).armGrp k := by
  simp only [Fyster.takeTeardown, hgrp, hstate]
  rw [if_neg hnew.symm, if_neg (by decide)]
  exact foldl_keeps (Fyster.armGrp k) _ (fun f r => Fyster.armGrp_broadcast k f k v x.desc r) _ _

theorem Fyster.takeTeardown_spec {f : Fyster} {k : Nat} {v : List Byte} {x : Grp} (hgrp : f.grp k = some x)
    (hstate : x.state = 3) (hnew : f.part.heldSerial .membership x.id ≠ some (dSerial v)) :
    (f.takeTeardown k v).part.order? .membership (dGroup v) = some (armOrderOf v (decide (dEff v < f.ns))) ∧
      ((f.takeTeardown k v).grp k).map (fun y => (y.id, y.state, y.desc, y.next, y.endAt)) =
        some (x.id, 3, x.desc, some v, some (dEff v)) := by
  have hdown := Fyster.takeTeardown_of_armed hgrp hstate hnew
  refine ⟨(Fyster.orders_of_taken (f := f) (congrArg (fun z => (z.1.1, z.1.2.1)) hdown :)).1, ?_⟩
  obtain ⟨y, hy, hhull⟩ := Fyster.grp_of_armGrp k hdown (Fyster.grp_setGrp_self _ _ _)
  rw [hy, ← hstate]
  exact congrArg some (congrArg (fun y : Grp => (y.id, y.state, y.desc, y.next, y.endAt)) hhull :)

/-- A child that has answered or is silent for good keeps its state. -/
theorem Fyster.child_of_armForm {f g : Fyster} (h : g.armForm j lv key = f.armForm j lv key) {c : ArmChild}
    (hc : f.armChildAt j lv key = some c) (hstate : c.state ≠ 5 ∧ c.state ≠ 6) :
    ∃ y, g.armChildAt j lv key = some y ∧ (y.state, y.resent, y.armed, y.unarmed, y.traysUnarmed, y.traysPartial) =
      (c.state, c.resent, c.armed, c.unarmed, c.traysUnarmed, c.traysPartial) := by
  have hkid : (g.armChildAt j lv key).map ArmChild.still = some c.still :=
    (congrArg (fun x => x.1.2) h :).trans (congrArg (Option.map ArmChild.still) hc)
  obtain ⟨y, hy, hstill⟩ := Option.map_eq_some_iff.mp hkid
  have hst : y.still.state = c.state := (congrArg ArmChild.state hstill).trans (ArmChild.state_still hstate.2)
  have hy6 : y.state ≠ 6 := fun h6 => hstate.1 (hst.symm.trans (if_pos h6))
  refine ⟨y, hy, Prod.ext ((ArmChild.state_still hy6).symm.trans hst) ?_⟩
  exact (congrArg (fun z : ArmChild => (z.resent, z.armed, z.unarmed, z.traysUnarmed, z.traysPartial)) hstill :)

/-! ### A child whose NOTICE has left -/

/-- The child's NOTICE does not wait to leave, and whether it is the second. -/
def Fyster.kidSent (resent : Bool) (f : Fyster) : Prop :=
  (f.armChildAt j lv key).map (fun c => (c.state, c.resent)) = some (5, resent)

theorem Fyster.kidSent_armMark {b : Bool} {f : Fyster} (m : ArmMsg) (h : f.kidSent j lv key b) : (f.armMark m).kidSent j lv key b := by
  rw [Fyster.armMark]
  split
  · split
    next k _ =>
      by_cases hsame : (j, lv, key) = (k, m.child.1, m.child.2)
      · simp only [Prod.mk.injEq] at hsame
        obtain ⟨rfl, rfl, rfl⟩ := hsame
        obtain ⟨c, hc, hview⟩ := Option.map_eq_some_iff.mp h
        simp only [Prod.mk.injEq] at hview
        rw [Fyster.kidSent, Fyster.armChildAt_modChild_self, hc]
        simp [hview]
      · rw [Fyster.kidSent, Fyster.armChildAt_modChild_other j lv key f _ hsame]
        exact h
    next => exact h
  · exact h

theorem Fyster.groups_armOut (f : Fyster) (tray base : Nat) (m : ArmMsg) : (f.armOut tray base m).red.groups = f.red.groups := by
  rw [Fyster.armOut]
  split <;> simp only [Fyster.emit, Fyster.putLedger]

theorem Fyster.armChildAt_armOut (f : Fyster) (tray base : Nat) (m : ArmMsg) :
    (f.armOut tray base m).armChildAt j lv key = f.armChildAt j lv key := by
  simp only [Fyster.armChildAt, Fyster.grp, Fyster.groups_armOut]

theorem Fyster.armChildAt_armCount (f : Fyster) (m : ArmMsg) : (f.armCount m).armChildAt j lv key = f.armChildAt j lv key := by
  rw [Fyster.armCount]
  split
  · rfl
  · split <;> rfl

theorem Fyster.kidSent_armPumpN {b : Bool} (n : Nat) : ∀ f : Fyster, f.kidSent j lv key b → (Fyster.armPumpN n f).kidSent j lv key b := by
  induction n with
  | zero => exact fun _ h => h
  | succ n ih =>
    intro f h
    simp only [Fyster.armPumpN]
    split
    · exact h
    · split
      · exact h
      next w _ =>
        refine ih _ ?_
        rw [Fyster.armSend_eq]
        refine Fyster.kidSent_armMark j lv key _ ?_
        rw [Fyster.kidSent, Fyster.armChildAt_armCount, Fyster.armChildAt_armOut]
        exact h

theorem Fyster.kidSent_armPost {b : Bool} {f : Fyster} (tray base : Nat) (m : ArmMsg) (h : f.kidSent j lv key b) :
    (f.armPost tray base m).kidSent j lv key b :=
  Fyster.kidSent_armPumpN j lv key _ _ h

theorem Fyster.kidSent_armTu {b : Bool} {f : Fyster} (g p : Nat) (d : List Byte) (kind : Nat) (h : f.kidSent j lv key b) :
    (f.armTu g p d kind).kidSent j lv key b := by
  rw [Fyster.kidSent, Fyster.armChildAt, Fyster.grp_armTu]
  exact h

/-! ### Silence of a child (R276) -/

theorem Fyster.armSilent_of_first {f : Fyster} {c : ArmChild} (hc : f.armChildAt j lv key = some c) (hstate : c.state = 5)
    (hlate : c.sentAt + 200000 ≤ f.ns) (hfirst : c.resent = false) :
    (f.armSilent j lv key).kidSent j lv key true ∧ (f.armSilent j lv key).armBase = f.armBase := by
  obtain ⟨r, hr, hkid⟩ := Option.bind_eq_some_iff.mp hc
  obtain ⟨x, hgrp, hheld⟩ := Option.bind_eq_some_iff.mp hr
  have hsent : (f.modChild j lv key fun c => { c with resent := true, sentAt := f.ns }).kidSent j lv key true := by
    rw [Fyster.kidSent, Fyster.armChildAt_modChild_self, hc, ← hstate]
    rfl
  have hbase : (f.modChild j lv key fun c => { c with resent := true, sentAt := f.ns }).armBase = f.armBase :=
    congrArg Prod.fst (Fyster.armGrp_modChild j f j lv key _)
  simp only [Fyster.armSilent, hgrp, hheld, hkid]
  rw [if_neg (by omega), if_neg (by rw [hfirst]; decide)]
  generalize (f.modChild j lv key fun c => { c with resent := true, sentAt := f.ns }) = g at hsent hbase
  split
  · exact ⟨Fyster.kidSent_armTu j lv key _ _ _ _ hsent,
      (congrArg (fun z => z.1.1) (Fyster.armKid_armTu j lv key g _ _ _ _)).trans hbase⟩
  · split
    · exact ⟨hsent, hbase⟩
    · split
      · exact ⟨Fyster.kidSent_armPost j lv key _ _ _ hsent,
          (congrArg (fun z => z.1.1.1) (Fyster.armForm_notifyChild j lv key g _ _ _ _)).trans hbase⟩
      · split
        · exact ⟨Fyster.kidSent_armPost j lv key _ _ _ hsent,
            (congrArg (fun z => z.1.1.1) (Fyster.armForm_armPost j lv key g _ _ _)).trans hbase⟩
        · exact ⟨hsent, hbase⟩

theorem Fyster.armSilent_of_second {f : Fyster} {c : ArmChild} (hc : f.armChildAt j lv key = some c) (hstate : c.state = 5)
    (hlate : c.sentAt + 200000 ≤ f.ns) (hsecond : c.resent = true) :
    ((f.armSilent j lv key).armChildAt j lv key).map (fun x => (x.state, x.resent)) = some (0, true) ∧
      (f.armSilent j lv key).armBase = f.armBase := by
  obtain ⟨r, hr, hkid⟩ := Option.bind_eq_some_iff.mp hc
  obtain ⟨x, hgrp, hheld⟩ := Option.bind_eq_some_iff.mp hr
  have hself : (f.modChild j lv key fun c => { c with state := 0 }).armChildAt j lv key = some { c with state := 0 } := by
    rw [Fyster.armChildAt_modChild_self, hc]
    rfl
  have hall := Fyster.armForm_armSettleAll j lv key (f.modChild j lv key fun c => { c with state := 0 }) j
  simp only [Fyster.armSilent, hgrp, hheld, hkid]
  rw [if_neg (by omega), if_pos hsecond]
  obtain ⟨y, hy, hview⟩ := Fyster.child_of_armForm j lv key hall hself ⟨(by decide : (0 : Nat) ≠ 5), (by decide : (0 : Nat) ≠ 6)⟩
  rw [hy, ← hsecond]
  refine ⟨congrArg some (congrArg (fun z => (z.1, z.2.1)) hview :), ?_⟩
  exact (congrArg (fun z => z.1.1.1) hall).trans (congrArg Prod.fst (Fyster.armGrp_modChild j f j lv key _))

/-! ### Answers of children (R276, R277) -/

theorem Fyster.links_modChild (f : Fyster) (h : ArmChild → ArmChild) : (f.modChild j lv key h).links = f.links := by
  cases hgrp : f.grp j with
  | none => rw [Fyster.modChild_of_none h hgrp]
  | some x =>
    rw [Fyster.modChild_of_grp h hgrp]
    rfl

/-- The state that an ACK gives a child. -/
def ackState (code old : Nat) : Nat :=
  if code = 0 then (if old = 1 ∨ old = 2 then old else 7) else if code = 1 then (if old = 1 ∨ old = 2 then old else 3)
  else if code = 2 then 4 else 8

theorem ackState_ne (code old : Nat) : ackState code old ≠ 5 ∧ ackState code old ≠ 6 := by
  rw [ackState]
  split
  · split <;> omega
  · split
    · split <;> omega
    · split <;> omega

theorem Fyster.armAck_of_answered {f : Fyster} {src : Nat} {b : List Byte} {c : ArmChild} (hans : f.answered src b 2 = some (j, lv, key))
    (hc : f.armChildAt j lv key = some c) :
    ((f.armAck src b).armChildAt j lv key).map (·.state) = some (ackState (armMsg b).code c.state) ∧
      (f.armAck src b).rd 0x3140 7 = raised 0x3140 7 (f.rd 0x3140 7) 1 ∧ (f.armAck src b).links = f.links := by
  have hack : f.armAck src b = ((f.bump 0x3140 7 1).modChild j lv key fun c =>
      { c with state := ackState (armMsg b).code c.state }).armSettleAll j := by
    simp only [Fyster.armAck, hans]
    rfl
  have hself : ((f.bump 0x3140 7 1).modChild j lv key fun c => { c with state := ackState (armMsg b).code c.state }).armChildAt j lv key =
      some { c with state := ackState (armMsg b).code c.state } := by
    rw [Fyster.armChildAt_modChild_self]
    exact congrArg (Option.map fun c : ArmChild => { c with state := ackState (armMsg b).code c.state }) hc
  rw [hack]
  have hall := Fyster.armForm_armSettleAll j lv key ((f.bump 0x3140 7 1).modChild j lv key fun c =>
    { c with state := ackState (armMsg b).code c.state }) j
  obtain ⟨y, hy, hview⟩ := Fyster.child_of_armForm j lv key hall hself (ackState_ne _ _)
  rw [hy]
  refine ⟨congrArg some (congrArg Prod.fst hview :), ?_, ?_⟩
  · refine (congrArg (fun z => z.1.1.1.2.2.2.2.2.2) hall :).trans ?_
    refine (congrArg (fun z => z.1.2.2.2.2.2.2) (Fyster.armGrp_modChild j (f.bump 0x3140 7 1) j lv key _) :).trans ?_
    exact Part.rd_wr_self _ _ _ _
  · exact (congrArg (fun z => z.2.1) hall :).trans (Fyster.links_modChild j lv key _ _)

theorem Fyster.armDone_of_answered {f : Fyster} {src : Nat} {b : List Byte} {c : ArmChild} (hans : f.answered src b 3 = some (j, lv, key))
    (hc : f.armChildAt j lv key = some c) :
    ((f.armDone src b).armChildAt j lv key).map (fun c => (c.state, c.armed, c.unarmed, c.traysUnarmed, c.traysPartial)) =
        some (if (armMsg b).code = 0 then 1 else 2, (armMsg b).armed, (armMsg b).unarmed, (armMsg b).traysUnarmed, (armMsg b).traysPartial) ∧
      (f.armDone src b).links = f.links := by
  have hst : (if (armMsg b).code = 0 then 1 else 2) ≠ 5 ∧ (if (armMsg b).code = 0 then 1 else 2) ≠ 6 := by
    split <;> decide
  simp only [Fyster.armDone, hans]
  generalize hh : (fun c : ArmChild => { c with
    state := if (armMsg b).code = 0 then 1 else 2, armed := (armMsg b).armed, unarmed := (armMsg b).unarmed,
    traysUnarmed := (armMsg b).traysUnarmed, traysPartial := (armMsg b).traysPartial }) = h
  have hself : (f.modChild j lv key h).armChildAt j lv key = some (h c) := by
    rw [Fyster.armChildAt_modChild_self, hc]
    rfl
  have hall := Fyster.armForm_armSettleAll j lv key (f.modChild j lv key h) j
  obtain ⟨y, hy, hview⟩ := Fyster.child_of_armForm j lv key hall hself (by rw [← hh]; exact hst)
  rw [hy]
  refine ⟨congrArg some ((congrArg (fun z => (z.1, z.2.2)) hview :).trans ?_), ?_⟩
  · rw [← hh]
  · exact (congrArg (fun z => z.2.1) hall :).trans (Fyster.links_modChild j lv key f h)

theorem Fyster.armRelay_of_sound {f : Fyster} {src k : Nat} {b : List Byte} {x : Grp} {r : Role} {t : Nat × (Nat × Nat) × Nat × Nat × Bool}
    (hgood : armGood b = true) (hkind : (armMsg b).kind = 4) (hkey : f.armKey (armMsg b).group = some k) (hgrp : f.grp k = some x)
    (hrole : (x.roles.find? fun r => r.level == (armMsg b).role && r.standby && r.peer == src) = some r)
    (htarget : ((armTargets (if dKind x.latest = 1 then x.latest else x.desc) r).find? fun t =>
      t.1 == armChildKey (armMsg b).index (armMsg b).standby) = some t) :
    f.armRelay src b = f.armPost t.2.1.1 t.2.1.2
      { f.noticeMsg (k % 64) r.level x.latest r.level t.2.2.1 t.2.2.2.1 t.2.2.2.2 with fromStandby := true } := by
  simp only [Fyster.armRelay, hgood, hkind, hkey, hgrp, hrole]
  rw [if_neg (by decide)]
  simp only [htarget]

/-! ### Pacing (R279) -/

theorem Fyster.armPump_of_one {f : Fyster} {w : Nat × Nat × List Byte} (hwait : f.red.armWait = [w])
    (hrate : (f.red.armSent.filter fun t => decide (f.ns < t + 100000)).length < f.rd 0x3140 4) :
    f.armPump = { f with red := { f.red with
      armSent := f.red.armSent.filter fun t => decide (f.ns < t + 100000), armWait := [],
      armTurn := (f.armKey (armMsg w.2.2).group).getD 0 } }.armSend w.1 w.2.1 (armMsg w.2.2) := by
  have hnext : ({ f with red := { f.red with armSent := f.red.armSent.filter fun t => decide (f.ns < t + 100000) } } : Fyster).armNext =
      some w := by
    simp only [Fyster.armNext, hwait, List.foldl_cons, List.foldl_nil]
  have herase : f.red.armWait.erase w = [] := by rw [hwait]; simp
  rw [Fyster.armPump, hwait]
  simp only [List.length_cons, List.length_nil, Fyster.armPumpN]
  refine (if_neg (Nat.not_le.mpr hrate)).trans ?_
  rw [hnext]
  simp only [herase]
  rfl

theorem Fyster.sent_modChild (f : Fyster) (k level kid : Nat) (h : ArmChild → ArmChild) :
    ((f.modChild k level kid h).red.armWait, (f.modChild k level kid h).red.armSent) = (f.red.armWait, f.red.armSent) := by
  cases hgrp : f.grp k with
  | none => rw [Fyster.modChild_of_none h hgrp]
  | some x =>
    rw [Fyster.modChild_of_grp h hgrp]
    rfl

theorem Fyster.sent_armSend (f : Fyster) (tray base : Nat) (m : ArmMsg) :
    ((f.armSend tray base m).red.armWait, (f.armSend tray base m).red.armSent) = (f.red.armWait, f.red.armSent ++ [f.ns]) := by
  have hout : ((f.armOut tray base m).red.armWait, (f.armOut tray base m).red.armSent) = (f.red.armWait, f.red.armSent ++ [f.ns]) := by
    rw [Fyster.armOut]
    split <;> simp only [Fyster.emit, Fyster.putLedger]
  have hcount : ((f.armOut tray base m).armCount m).red = (f.armOut tray base m).red := by
    rw [Fyster.armCount]
    split
    · rfl
    · split <;> rfl
  rw [Fyster.armSend_eq, Fyster.armMark]
  split
  · split
    · rw [Fyster.sent_modChild, hcount]
      exact hout
    · rw [hcount]
      exact hout
  · rw [hcount]
    exact hout

end

/-- Settles O25: a message of arming leaves orders, holds, cuts and the groups' own fields, and of a child it changes at most
the time of its NOTICE; so each answer, silence or descriptor shows as it was taken. -/
theorem armMessages : Obligations.ArmMessages := by
  unfold Obligations.ArmMessages
  refine ⟨?notice, ?order, ?teardown, ?ack, ?done, ?relay, ?silent, ?pacing⟩
  case notice =>
    intro s dt src b d k sect hgood hkind hrole hlen hcrc harm hsect hnew hcode hplace hgrp
    refine fyNext_of_onFy rfl ?_
    exact Fyster.armRole_of_new (f := s.fy.tick dt) hgrp
      (Fyster.armNotice_of_new (f := s.fy.tick dt) hgood hkind hrole hlen hcrc harm hsect hnew hcode hplace)
  case order =>
    intro s dt lvl v k hlvl hnew hcode harm hplace hgrp
    refine fyNext_of_onFy rfl ?_
    obtain ⟨r, hr⟩ := Fyster.wrArmOrder_of_new (f := s.fy.tick dt) hnew hcode harm hplace
    obtain ⟨horder, _, hname, _⟩ := Fyster.armRole_of_new (f := s.fy.tick dt) (r := r) hgrp
      (Fyster.armName_armSettleAll k ((s.fy.tick dt).armRole k v r) k)
    rw [hr, Fyster.reply_accepted hlvl]
    generalize ((s.fy.tick dt).armRole k v r).armSettleAll k = g at horder hname
    exact ⟨horder, hname, rfl⟩
  case teardown =>
    intro s dt lvl v k x hlvl hnew hcode harm hkey hgrp hid hstate
    refine fyNext_of_onFy rfl ?_
    rw [Fyster.wrArmOrder_of_teardown (f := s.fy.tick dt) hnew hcode harm hkey, Fyster.reply_accepted hlvl]
    obtain ⟨horder, hname⟩ := Fyster.takeTeardown_spec (f := s.fy.tick dt) (v := v) hgrp hstate (by rw [hid]; exact hnew)
    generalize (s.fy.tick dt).takeTeardown k v = g at horder hname
    exact ⟨horder, hname, rfl⟩
  case ack =>
    intro s dt src b k lv key c hans hc
    exact fyNext_of_onFy rfl (Fyster.armAck_of_answered k lv key (f := s.fy.tick dt) hans hc)
  case done =>
    intro s dt src b k lv key c hans hc
    exact fyNext_of_onFy rfl (Fyster.armDone_of_answered k lv key (f := s.fy.tick dt) hans hc)
  case relay =>
    intro s dt src b k x r t hgood hkind hkey hgrp hrole htarget
    refine fyNext_of_onFy rfl ?_
    have hpost := Fyster.armForm_armPost 0 0 0 (s.fy.tick dt) t.2.1.1 t.2.1.2
      { (s.fy.tick dt).noticeMsg (k % 64) r.level x.latest r.level t.2.2.1 t.2.2.2.1 t.2.2.2.2 with fromStandby := true }
    rw [Fyster.armRelay_of_sound (f := s.fy.tick dt) hgood hkind hkey hgrp hrole htarget]
    exact ⟨rfl, (congrArg (fun z => z.2.1) hpost :), (congrArg (fun z => z.2.2) hpost :)⟩
  case silent =>
    intro s dt g lv key c hc hstate hlate
    refine fyNext_of_onFy rfl ?_
    by_cases hresent : c.resent = true
    · obtain ⟨hkid, hbase⟩ := Fyster.armSilent_of_second g.val lv.val key (f := s.fy.tick dt) hc hstate hlate hresent
      rw [if_pos hresent]
      exact ⟨hkid, (congrArg (fun z => z.2.2.2.1) hbase :), (congrArg (fun z => z.2.2.2.2.1) hbase :)⟩
    · obtain ⟨hkid, hbase⟩ := Fyster.armSilent_of_first g.val lv.val key (f := s.fy.tick dt) hc hstate hlate (Bool.not_eq_true _ ▸ hresent)
      rw [if_neg hresent]
      exact ⟨hkid, (congrArg (fun z => z.2.2.2.1) hbase :), (congrArg (fun z => z.2.2.2.2.1) hbase :)⟩
  case pacing =>
    intro s dt w hwait hrate
    refine fyNext_of_onFy rfl ?_
    rw [Fyster.armPump_of_one (f := s.fy.tick dt) hwait hrate]
    have hsent := Fyster.sent_armSend { s.fy.tick dt with red := { (s.fy.tick dt).red with
      armSent := (s.fy.tick dt).red.armSent.filter fun t => decide ((s.fy.tick dt).ns < t + 100000), armWait := [],
      armTurn := ((s.fy.tick dt).armKey (armMsg w.2.2).group).getD 0 } } w.1 w.2.1 (armMsg w.2.2)
    simp only [Prod.mk.injEq] at hsent
    exact ⟨rfl, hsent.1, hsent.2⟩

/-! ### Waiting and retrying (R277, R278) -/

theorem Fyster.promote_of_held {f : Fyster} {g : Nat} {x : Grp} (hgrp : f.grp g = some x) : f.promote g = f := by
  simp only [Fyster.promote, hgrp]

theorem Fyster.armKid_rearmTus (f : Fyster) (j k : Nat) : (f.rearmTus k).armKid j 0 0 = f.armKid j 0 0 := by
  rw [Fyster.rearmTus]
  split
  · exact foldl_keeps (Fyster.armKid j 0 0) _ (fun f c => Fyster.armKid_armTu j 0 0 f _ _ _ _) _ _
  · rfl

theorem Fyster.armRetest_of_waiting {f : Fyster} {g : Nat} {x : Grp} (hgrp : f.grp g = some x) (hstate : x.state = 2) :
    ((f.armRetest g).grp g).map (fun z => (z.state, z.wait)) =
      some (if ((f.rearmTus g).admitRole g).2 = 0 then
          (if x.eff ≤ f.ns ∧ (f.part.order? .membership x.id).isNone = true then (3, 0) else (1, 0))
        else (2, ((f.rearmTus g).admitRole g).2)) ∧ (f.armRetest g).holds = f.holds := by
  have hrearm := congrArg Prod.fst (Fyster.armKid_rearmTus f g g)
  obtain ⟨y, hy, hhull⟩ := Fyster.grp_of_armGrp g hrearm hgrp
  have hy2 : y.state = 2 := (congrArg Grp.state hhull :).trans hstate
  have heff : y.eff = x.eff := (congrArg Grp.eff hhull :)
  have hid : y.id = x.id := (congrArg Grp.id hhull :)
  have hns : (f.rearmTus g).ns = f.ns := (congrArg (fun z => z.1.2.2.1.ns) hrearm :)
  have horders : (f.rearmTus g).part.orders = f.part.orders := (congrArg (fun z => z.1.1) hrearm :)
  have hholds : (f.rearmTus g).holds = f.holds := (congrArg (fun z => z.1.2.2.2.1) hrearm :)
  have hretest : f.armRetest g = ((f.rearmTus g).admitted g).armSettleAll g := by
    simp only [Fyster.armRetest, Fyster.promote_of_held hgrp, hgrp]
    exact if_pos (Or.inl hstate)
  have hall := congrArg (fun z => z.1.1) (Fyster.armForm_armSettleAll g 0 0 ((f.rearmTus g).admitted g) g)
  obtain ⟨hadm, hadmHolds⟩ := Fyster.admitted_of_waiting hy hy2
  obtain ⟨z, hz, hview⟩ := Option.map_eq_some_iff.mp hadm
  obtain ⟨w, hw, hwz⟩ := Fyster.grp_of_armGrp g hall hz
  rw [hretest, hw]
  refine ⟨?_, (congrArg (fun z => z.1.2.2.2.1) hall :).trans (hadmHolds.trans hholds)⟩
  refine (congrArg some (congrArg (fun z : Grp => (z.state, z.wait)) hwz :)).trans ((congrArg some hview).trans ?_)
  rw [heff, hns, hid]
  rw [Part.order?, Part.order?, horders]

theorem Fyster.armWaited_of_late {f : Fyster} {g : Nat} {x : Grp} (hgrp : f.grp g = some x) (hstate : x.state = 2)
    (hlate : x.waitSince + f.rd 0x3140 2 * 1000000 ≤ f.ns) :
    ((f.armWaited g).grp g).map (fun z => (z.state, z.partialSent, z.desc, z.eff)) = some (4, true, x.desc, x.eff) ∧
      (f.armWaited g).links = f.links := by
  have hall := Fyster.armForm_armSettleAll g 0 0 (f.setGrp g { x with state := 4, partialSent := true }) g
  obtain ⟨y, hy, hhull⟩ := Fyster.grp_of_armGrp g (congrArg (fun z => z.1.1) hall) (Fyster.grp_setGrp_self _ _ _)
  simp only [Fyster.armWaited, hgrp]
  rw [if_pos ⟨hstate, hlate⟩, hy]
  exact ⟨congrArg some (congrArg (fun z : Grp => (z.state, z.partialSent, z.desc, z.eff)) hhull :), (congrArg (fun z => z.2.1) hall :)⟩

/-- A TU that is sent its arm again. -/
def Fyster.rearm (k g : Nat) (d : List Byte) (kind : Nat) (f : Fyster) (c : Nat × ArmChild) : Fyster :=
  (f.modChild k 0 c.1 fun c => { c with state := 5, sentAt := f.ns, resent := false }).armTu g c.1 d kind

theorem Fyster.armBase_rearm (k g : Nat) (d : List Byte) (kind : Nat) (f : Fyster) (c : Nat × ArmChild) :
    (f.rearm k g d kind c).armBase = f.armBase := by
  refine (congrArg (fun z => z.1.1) (Fyster.armKid_armTu 0 0 0 _ g c.1 d kind)).trans ?_
  exact congrArg Prod.fst (Fyster.armGrp_modChild 0 f k 0 c.1 _)

theorem Fyster.armRetryRole_of_l1 {f : Fyster} {k : Nat} {x : Grp} {r : Role} (hgrp : f.grp k = some x) (hlevel : r.level = 0) :
    f.armRetryRole k r = (r.children.filter fun c => c.2.state == 0 || c.2.state == 4).foldl
      (Fyster.rearm k (k % 64) x.latest (if dKind x.latest = 1 then 1 else 2)) f := by
  simp only [Fyster.armRetryRole, hgrp]
  exact if_pos hlevel

theorem Fyster.armBase_armRetryRole (f : Fyster) (k : Nat) (r : Role) : (f.armRetryRole k r).armBase = f.armBase := by
  cases hgrp : f.grp k with
  | none => simp only [Fyster.armRetryRole, hgrp]
  | some x =>
    by_cases hlevel : r.level = 0
    · rw [Fyster.armRetryRole_of_l1 hgrp hlevel]
      exact foldl_keeps Fyster.armBase _ (Fyster.armBase_rearm _ _ _ _) _ _
    · simp only [Fyster.armRetryRole, hgrp]
      rw [if_neg hlevel]
      refine foldl_keeps Fyster.armBase _ (fun f t => ?_) _ _
      split
      · refine (congrArg (fun z => z.1.1.1) (Fyster.armForm_notifyChild 0 0 0 _ _ _ _ _)).trans ?_
        exact congrArg Prod.fst (Fyster.armGrp_modChild 0 _ _ _ _ _)
      · rfl

/-- A child as its arm has just been sent again. -/
def kidView (c : ArmChild) : Nat × Nat × Bool := (c.state, c.sentAt, c.resent)

theorem Fyster.armChildAt_rearm_self (k g q : Nat) (d : List Byte) (kind : Nat) (f : Fyster) (c : ArmChild)
    (h : (f.armChildAt k 0 q).isSome = true) :
    ((f.rearm k g d kind (q, c)).armChildAt k 0 q).map kidView = some (5, f.ns, false) := by
  obtain ⟨y, hy⟩ := Option.isSome_iff_exists.mp h
  rw [Fyster.rearm, Fyster.armChildAt, Fyster.grp_armTu]
  refine (congrArg (Option.map kidView) (Fyster.armChildAt_modChild_self k 0 q f _)).trans ?_
  rw [hy]
  rfl

theorem Fyster.armChildAt_rearm_other (k g : Nat) {q : Nat} (d : List Byte) (kind : Nat) (f : Fyster) {c : Nat × ArmChild} (h : q ≠ c.1) :
    (f.rearm k g d kind c).armChildAt k 0 q = f.armChildAt k 0 q := by
  rw [Fyster.rearm, Fyster.armChildAt, Fyster.grp_armTu]
  exact Fyster.armChildAt_modChild_other k 0 q f _ fun he => h (congrArg (fun z => z.2.2) he)

/-- A child that is sent its arm again, once or more often in a round, is as at its last NOTICE. -/
theorem Fyster.armChildAt_rearms (k g q : Nat) (d : List Byte) (kind : Nat) (l : List (Nat × ArmChild)) :
    ∀ f : Fyster, (f.armChildAt k 0 q).isSome = true →
      (q ∈ l.map Prod.fst ∨ (f.armChildAt k 0 q).map kidView = some (5, f.ns, false)) →
      ((l.foldl (Fyster.rearm k g d kind) f).armChildAt k 0 q).map kidView = some (5, f.ns, false) := by
  induction l with
  | nil => exact fun f _ h => h.resolve_left List.not_mem_nil
  | cons e l ih =>
    intro f hsome h
    have hns : (f.rearm k g d kind e).ns = f.ns := (congrArg (fun z => z.2.2.1.ns) (Fyster.armBase_rearm k g d kind f e) :)
    rw [List.foldl_cons, ← hns]
    by_cases hq : q = e.1
    · subst hq
      have hself := Fyster.armChildAt_rearm_self k g e.1 d kind f e.2 hsome
      obtain ⟨y, hy, _⟩ := Option.map_eq_some_iff.mp hself
      exact ih _ (Option.isSome_iff_exists.mpr ⟨y, hy⟩) (Or.inr (hself.trans (by rw [hns])))
    · have hother := Fyster.armChildAt_rearm_other k g d kind f hq
      refine ih _ (by rw [hother]; exact hsome) ?_
      rw [hother, hns]
      exact h.imp_left fun hmem => (List.mem_cons.mp hmem).resolve_left hq

theorem mem_of_tfind {α : Type} {t : Tab α} {k : Nat} {v : α} (h : tfind t k = some v) : (k, v) ∈ t := by
  induction t with
  | nil => cases h
  | cons e r ih =>
    simp only [tfind] at h
    split at h
    next he => exact List.mem_cons.mpr (Or.inl (Prod.ext he.symm (Option.some.inj h).symm))
    next => exact List.mem_cons_of_mem _ (ih h)

/-- Settles O26: a test of admission changes the group's state and reason alone, and what follows it leaves them; a retry is
a fold over the children of the L1 that have not answered. -/
theorem armWaiting : Obligations.ArmWaiting := by
  unfold Obligations.ArmWaiting
  refine ⟨?retest, ?expiry, ?retry, ?again⟩
  case retest =>
    intro s dt g x r hgrp hstate hr
    refine fyNext_of_onFy rfl ?_
    rw [← hr]
    exact Fyster.armRetest_of_waiting (f := s.fy.tick dt) hgrp hstate
  case expiry =>
    intro s dt g x hgrp hstate hlate
    exact fyNext_of_onFy rfl (Fyster.armWaited_of_late (f := s.fy.tick dt) hgrp hstate hlate)
  case retry =>
    intro s dt g lv x r hgrp hheld
    refine fyNext_of_onFy rfl ?_
    have hgo : ((s.fy.tick dt).grp g.val).bind (fun x => x.held lv.val) = some r :=
      Option.bind_eq_some_iff.mpr ⟨x, hgrp, hheld⟩
    have hbase := Fyster.armBase_armRetryRole (s.fy.tick dt) g.val r
    simp only [hgo]
    exact ⟨trivial, (congrArg (fun z => z.2.2.2.1) hbase :), (congrArg (fun z => z.2.2.2.2.1) hbase :)⟩
  case again =>
    intro s dt g q c hc hstate
    refine fyNext_of_onFy rfl ?_
    obtain ⟨r, hr, hkid⟩ := Option.bind_eq_some_iff.mp hc
    obtain ⟨x, hgrp, hheld⟩ := Option.bind_eq_some_iff.mp hr
    have hgo : ((s.fy.tick dt).grp g.val).bind (fun x => x.held (0 : Fin 3).val) = some r := hr
    have hlevel := List.find?_some hheld
    simp only [Bool.and_eq_true, beq_iff_eq] at hlevel
    simp only [hgo]
    rw [Fyster.armRetryRole_of_l1 (f := s.fy.tick dt) hgrp hlevel.1]
    refine Fyster.armChildAt_rearms g.val _ q _ _ _ (s.fy.tick dt) (Option.isSome_iff_exists.mpr ⟨c, hc⟩) (Or.inl ?_)
    refine List.mem_map.mpr ⟨(q, c), List.mem_filter.mpr ⟨mem_of_tfind hkid, ?_⟩, rfl⟩
    simpa using hstate

end Sys2Proof.Machine
end

section
/-! SUPPORT. Group slots through arm, leave and change (R53, R104, R277, R280 to R282). -/

namespace Sys2Proof.Machine

/-! ### Orders and tables -/

/-- Dropping the orders of one kind and target brings back none of another. -/
theorem Part.order_dropOrder_of_none {p : Part} {k : OrderKind} {n : Nat} (h : p.order? k n = none) (k' : OrderKind) (n' : Nat) :
    (p.dropOrder k' n').order? k n = none :=
  List.find?_eq_none.mpr fun o ho => List.find?_eq_none.mp h o (List.mem_filter.mp ho).1

theorem Part.order_putOrder_of_none {p : Part} {k : OrderKind} {n : Nat} (h : p.order? k n = none) {o : Order} (hkind : o.kind ≠ k) :
    (p.putOrder o).order? k n = none := by
  refine List.find?_eq_none.mpr fun x hx => ?_
  rcases List.mem_append.mp hx with hx | hx
  · exact List.find?_eq_none.mp h x (List.mem_filter.mp hx).1
  · rw [List.mem_singleton.mp hx]
    simp [hkind]

theorem tfind_tdel_self {α : Type} (t : Tab α) (k : Nat) : tfind (tdel t k) k = none := by
  induction t with
  | nil => rfl
  | cons e r ih =>
    simp only [tdel]
    split
    · exact ih
    next hne => simp only [tfind, if_neg hne, ih]

theorem tfind_tdel_other {α : Type} (t : Tab α) {k j : Nat} (h : j ≠ k) : tfind (tdel t k) j = tfind t j := by
  induction t with
  | nil => rfl
  | cons e r ih =>
    obtain ⟨a, b⟩ := e
    by_cases hak : a = k
    · simp only [tdel, tfind, if_pos hak, ih, if_neg fun haj : a = j => h (haj.symm.trans hak)]
    · simp only [tdel, tfind, if_neg hak, ih]

/-! ### The slot of a TU -/

theorem Tu.tgroup_setGroup_self (t : Tu) (g : Nat) (x : TGroup) : (t.setGroup g x).tgroup g = x := tget_tset_self _ _ _ _

theorem Tu.set_setSet_self (t : Tu) (k : Nat) (x : SampleSet) : (t.setSet k x).set k = x := tget_tset_self _ _ _ _

theorem Tu.set_setSet_other (t : Tu) {k j : Nat} (x : SampleSet) (h : j ≠ k) : (t.setSet k x).set j = t.set j :=
  tget_tset_other _ _ _ h

/-- The order by which a TU holds an ARM or a LEAVE pending. -/
def taOrder (v : List Byte) (now : Nat) : Order :=
  { kind := .membership, target := fieldAt v 0 4, serial := fieldAt v 4 4, eff := taEff v, late := decide (taEff v < now), data := v }

/-- A slot that has just been armed. -/
def taSlot (v : List Byte) : TGroup where
  state := 1
  id := fieldAt v 0 4
  serial := fieldAt v 4 4
  eff := taEff v
  period := taPeriod v
  phase := taPhase v
  release := 0
  leave := none
  fired := none

theorem Tu.wrArm_of_legal {t : Tu} {g : Nat} {v : List Byte} (hkind : fieldAt v 8 1 = 1)
    (hcode : t.armCode g v = 0) (hfree : (t.tgroup g).state = 0) :
    t.wrGroupArm g v = ({ t with part := t.part.putArm (taOrder v t.ns) }.setGroup g (taSlot v), 0) := by
  have h₁ : ¬(v.length = 40 ∧ fieldAt v 8 1 = 2) := by omega
  have h₂ : ¬(v.length = 40 ∧ fieldAt v 8 1 ≠ 1) := by omega
  simp only [Tu.wrGroupArm, if_neg h₁, if_neg h₂, Tu.wrArm, hcode]
  rw [if_neg fun h => h.2.1 hfree, if_neg fun h => h.1 hfree, if_neg (by omega)]
  rfl

theorem Tu.wrLeave_of_legal {t : Tu} {g : Nat} {v : List Byte} (hlen : v.length = 40) (hkind : fieldAt v 8 1 = 2)
    (harmed : (t.tgroup g).state = 3) (hid : (t.tgroup g).id = fieldAt v 0 4) (hne : fieldAt v 0 4 ≠ 0)
    (hserial : (t.tgroup g).serial < fieldAt v 4 4) (hns : fieldAt v 20 4 ≤ 999999999) (hlocked : t.part.time.everLocked = true)
    (hroom : (t.part.orders.filter fun o => o.target != fieldAt v 0 4 || o.kind == .gateList).length < 32) :
    t.wrGroupArm g v = ({ t with part := t.part.putArm (taOrder v t.ns) }.setGroup g
      { t.tgroup g with serial := fieldAt v 4 4, leave := some (taEff v) }, 0) := by
  have hlen' : (v.length != 40) = false := by rw [hlen]; rfl
  have hne' : (fieldAt v 0 4 == 0) = false := beq_eq_false_iff_ne.mpr hne
  have hns' : decide (999999999 < fieldAt v 20 4) = false := decide_eq_false (by omega)
  have hstale : decide (fieldAt v 4 4 < (t.tgroup g).serial) = false := decide_eq_false (by omega)
  have hheld : ((t.tgroup g).state == 0 || (t.tgroup g).id != fieldAt v 0 4) = false := by rw [harmed, hid]; simp
  have hroom' : decide (32 ≤ (t.part.orders.filter fun o => o.target != fieldAt v 0 4 || o.kind == .gateList).length) = false :=
    decide_eq_false (by omega)
  simp only [Tu.wrGroupArm, if_pos (And.intro hlen hkind), Tu.wrLeave]
  rw [if_neg (by omega)]
  simp only [hlen', hne', hns', hstale, hheld, hlocked, hroom', Bool.or_false, Bool.and_false, Bool.false_and, Bool.not_true,
    lowestAbort_cons_false, lowestAbort_nil]
  rw [if_neg (by omega), if_neg (by omega)]
  rfl

/-- A fold of changes of sample sets, one per set of a list without repeats. -/
theorem Tu.set_foldl {h : Tu → Nat → Tu} {R : SampleSet → SampleSet → Prop} (hself : ∀ t k, R (t.set k) ((h t k).set k))
    (hother : ∀ t k j, j ≠ k → (h t k).set j = t.set j) {l : List Nat} (hl : l.Nodup) (j : Nat) :
    ∀ t : Tu, (j ∈ l → R (t.set j) ((l.foldl h t).set j)) ∧ (j ∉ l → (l.foldl h t).set j = t.set j) := by
  induction l with
  | nil => exact fun t => ⟨fun h => absurd h List.not_mem_nil, fun _ => rfl⟩
  | cons k l ih =>
    intro t
    obtain ⟨hk, hl⟩ := List.nodup_cons.mp hl
    obtain ⟨hin, hout⟩ := ih hl (h t k)
    refine ⟨fun hj => ?_, fun hj => ?_⟩
    · rcases List.mem_cons.mp hj with rfl | hj
      · exact (hout hk).symm ▸ hself t j
      · exact hother t k j (fun he => hk (he ▸ hj)) ▸ hin hj
    · exact (hout fun h => hj (List.mem_cons_of_mem _ h)).trans (hother t k j fun he => hj (he ▸ List.mem_cons_self))

theorem Tu.nodup_followers (t : Tu) (g : Nat) : (t.followers g).Nodup := List.nodup_range.filter _

/-- The sets of a slot that becomes ARMED start anew. -/
def Tu.startSet (t : Tu) (k : Nat) : Tu := t.setSet k { t.set k with first := true }

theorem Tu.armEffective_of_due {t : Tu} {g : Nat} (hpending : (t.tgroup g).state = 1) (hdue : (t.tgroup g).eff ≤ t.ns)
    (hturn : t.part.turn .membership (t.tgroup g).eff = true) :
    t.armEffective g = (t.followers g).foldl Tu.startSet
      ({ t with part := t.part.dropOrder .membership (t.tgroup g).id }.setGroup g { t.tgroup g with state := 3 }) := by
  simp only [Tu.armEffective]
  exact if_pos ⟨hpending, hdue, hturn⟩

theorem Tu.startSets_frame (l : List Nat) (t : Tu) : { l.foldl Tu.startSet t with sets := t.sets } = t :=
  List.foldlRecOn (motive := fun u : Tu => { u with sets := t.sets } = t) l Tu.startSet rfl fun _ hu _ _ => hu

theorem Tu.armEffective_spec {t : Tu} {g : Nat} (hpending : (t.tgroup g).state = 1) (hdue : (t.tgroup g).eff ≤ t.ns)
    (hturn : t.part.turn .membership (t.tgroup g).eff = true) :
    (t.armEffective g).tgroup g = { t.tgroup g with state := 3 } ∧
      (t.armEffective g).part = t.part.dropOrder .membership (t.tgroup g).id ∧
      (∀ k, (t.armEffective g).set k = if (t.followers g).contains k then { t.set k with first := true } else t.set k) ∧
      (t.armEffective g).mace = t.mace ∧ (t.armEffective g).link = t.link := by
  rw [Tu.armEffective_of_due hpending hdue hturn]
  have hframe := Tu.startSets_frame (t.followers g)
    ({ t with part := t.part.dropOrder .membership (t.tgroup g).id }.setGroup g { t.tgroup g with state := 3 })
  refine ⟨?_, (congrArg Tu.part hframe :), fun k => ?_, (congrArg Tu.mace hframe :), (congrArg Tu.link hframe :)⟩
  · exact (congrArg (fun u : Tu => u.tgroup g) hframe :).trans (Tu.tgroup_setGroup_self _ _ _)
  · have hset := Tu.set_foldl (h := Tu.startSet) (R := fun x y => y = { x with first := true })
      (fun t k => Tu.set_setSet_self t k _) (fun t k j hj => Tu.set_setSet_other t _ hj) (t.nodup_followers g) k
      ({ t with part := t.part.dropOrder .membership (t.tgroup g).id }.setGroup g { t.tgroup g with state := 3 })
    by_cases hk : k ∈ t.followers g
    · rw [if_pos (List.contains_iff_mem.mpr hk)]
      exact hset.1 hk
    · rw [if_neg (mt List.contains_iff_mem.mp hk)]
      exact hset.2 hk

/-! ### A change of the grid (R53, R112) -/

/-- A set that follows a grid which changes; a zoom that no longer fits ends. -/
def Tu.regrid (period : Nat) (late : Bool) (t : Tu) (k : Nat) : Tu :=
  let s := t.set k
  let t := t.setSet k { s with step := true }
  if s.zoom ≠ 0 ∧ zoomOk s.zoom period = false then (t.setSet k { t.set k with zoom := 0 }).zoomState k late else t

theorem Tu.gridTake_of_due {t : Tu} {g : Nat} {o : Order} (horder : t.part.order? .grid (t.tgroup g).id = some o)
    (hstate : (t.tgroup g).state = 3 ∨ (t.tgroup g).state = 5) (hdue : o.eff ≤ t.ns) (hturn : t.part.turn .grid o.eff = true) :
    t.gridTake g = ((t.followers g).foldl (Tu.regrid (taPeriod o.data) o.late)
      ({ t with part := t.part.dropOrder .grid (t.tgroup g).id }.setGroup g
        { t.tgroup g with period := taPeriod o.data, phase := taPhase o.data })).timeRec 8 (taPeriod o.data) g o.late false := by
  simp only [Tu.gridTake, horder]
  exact if_pos ⟨hstate, hdue, hturn⟩

theorem Tu.bare_zoomState (t : Tu) (k : Nat) (late : Bool) : (t.zoomState k late).bare = t.bare := Tu.bare_log _ _

/-- A TU without its sample sets and without what reporting alone changes. -/
def Tu.unset (t : Tu) : Tu := { t.bare with sets := [] }

theorem Tu.unset_regrid (period : Nat) (late : Bool) (t : Tu) (k : Nat) : (Tu.regrid period late t k).unset = t.unset := by
  simp only [Tu.regrid]
  split
  · exact (congrArg (fun u : Tu => { u with sets := [] }) (Tu.bare_zoomState _ k late)).trans rfl
  · rfl

theorem Tu.set_regrid_other (period : Nat) (late : Bool) (t : Tu) (k j : Nat) (h : j ≠ k) :
    (Tu.regrid period late t k).set j = t.set j := by
  simp only [Tu.regrid]
  split
  · refine (congrArg (fun u : Tu => u.set j) (Tu.bare_zoomState _ k late) :).trans ?_
    exact (Tu.set_setSet_other _ _ h).trans (Tu.set_setSet_other _ _ h)
  · exact Tu.set_setSet_other _ _ h

theorem Tu.step_regrid (period : Nat) (late : Bool) (t : Tu) (k : Nat) : ((Tu.regrid period late t k).set k).step = true := by
  simp only [Tu.regrid]
  split
  · refine (congrArg (fun u : Tu => (u.set k).step) (Tu.bare_zoomState _ k late) :).trans ?_
    refine (congrArg SampleSet.step (Tu.set_setSet_self _ _ _)).trans ?_
    exact congrArg SampleSet.step (Tu.set_setSet_self _ _ _)
  · exact congrArg SampleSet.step (Tu.set_setSet_self _ _ _)

theorem Tu.gridTake_spec {t : Tu} {g : Nat} {o : Order} (horder : t.part.order? .grid (t.tgroup g).id = some o)
    (hstate : (t.tgroup g).state = 3 ∨ (t.tgroup g).state = 5) (hdue : o.eff ≤ t.ns) (hturn : t.part.turn .grid o.eff = true) :
    (t.gridTake g).tgroup g = { t.tgroup g with period := taPeriod o.data, phase := taPhase o.data } ∧
      (t.gridTake g).part.order? .grid (t.tgroup g).id = none ∧
      (∀ k, ((t.gridTake g).set k).step = ((t.followers g).contains k || (t.set k).step)) ∧ (t.gridTake g).mace = t.mace := by
  have htaken := Tu.gridTake_of_due horder hstate hdue hturn
  generalize hu : { t with part := t.part.dropOrder .grid (t.tgroup g).id }.setGroup g
    { t.tgroup g with period := taPeriod o.data, phase := taPhase o.data } = u at htaken
  have hbare : (t.gridTake g).bare = ((t.followers g).foldl (Tu.regrid (taPeriod o.data) o.late) u).bare := by
    rw [htaken]
    exact Tu.bare_timeRec _ _ _ _ _ _
  have hunset : (t.gridTake g).unset = u.unset :=
    (congrArg (fun x : Tu => { x with sets := [] }) hbare :).trans
      (foldl_keeps Tu.unset _ (fun x k => Tu.unset_regrid (taPeriod o.data) o.late x k) (t.followers g) u)
  refine ⟨?_, ?_, fun k => ?_, ?_⟩
  · refine (congrArg (fun x : Tu => x.tgroup g) hunset :).trans ?_
    rw [← hu]
    exact Tu.tgroup_setGroup_self _ _ _
  · refine (congrArg (fun x : Tu => x.part.order? .grid (t.tgroup g).id) hunset :).trans ?_
    rw [← hu]
    exact Part.order_dropOrder _ _ _
  · refine (congrArg (fun x : Tu => (x.set k).step) hbare :).trans ?_
    have hset := Tu.set_foldl (h := Tu.regrid (taPeriod o.data) o.late) (R := fun _ y => y.step = true)
      (Tu.step_regrid _ _) (Tu.set_regrid_other _ _) (t.nodup_followers g) k u
    by_cases hk : k ∈ t.followers g
    · rw [List.contains_iff_mem.mpr hk, Bool.true_or]
      exact hset.1 hk
    · rw [Bool.eq_false_iff.mpr (mt List.contains_iff_mem.mp hk), Bool.false_or]
      refine (congrArg SampleSet.step (hset.2 hk)).trans ?_
      rw [← hu]
      rfl
  · refine (congrArg Tu.mace hunset :).trans ?_
    rw [← hu]
    rfl

theorem Fyster.gridTake_of_due {f : Fyster} {g : Nat} {x : Grp} {o : Order} (hgrp : f.grp g = some x)
    (horder : f.part.order? .grid x.id = some o) (hstate : x.state = 3 ∨ x.state = 5) (hdue : o.eff ≤ f.ns)
    (hturn : f.part.turn .grid o.eff = true) :
    (f.gridTake g).grp g = some { x with period := dPeriod x.desc, phase := dPhase x.desc } ∧
      (f.gridTake g).part.order? .grid x.id = none ∧ (f.gridTake g).links = f.links := by
  simp only [Fyster.gridTake, hgrp, horder]
  rw [if_pos ⟨hstate, hdue, hturn⟩]
  generalize hu : { f with part := f.part.dropOrder .grid x.id }.setGrp g { x with period := dPeriod x.desc, phase := dPhase x.desc } = u
  have hbare := Fyster.bare_timeRec (ks := []) u 8 (u.slave.getD 0) (dPeriod x.desc) g o.late false
  refine ⟨(congrArg (fun y : Fyster => y.grp g) hbare :).trans ?_,
    (congrArg (fun y : Fyster => y.part.order? .grid x.id) hbare :).trans ?_, (congrArg Fyster.links hbare :).trans ?_⟩
  · rw [← hu]
    exact Fyster.grp_setGrp_self _ _ _
  · rw [← hu]
    exact Part.order_dropOrder _ _ _
  · rw [← hu]
    rfl

/-! ### A change of membership (R281) -/

theorem Tu.memberChange_of_due {t : Tu} {g : Nat} {o : Order} (horder : t.part.order? .membership (t.tgroup g).id = some o)
    (hstate : (t.tgroup g).state = 3) (hleave : (t.tgroup g).leave = none) (hdue : o.eff ≤ t.ns)
    (hturn : t.part.turn .membership o.eff = true) :
    let part := t.part.dropOrder .membership (t.tgroup g).id
    t.memberChange g =
      { t with part := if taPeriod o.data = (t.tgroup g).period ∧ taPhase o.data = (t.tgroup g).phase then part else part.putOrder o.toGrid } := by
  simp only [Tu.memberChange, horder]
  rw [if_pos ⟨hstate, Option.isNone_iff_eq_none.mpr hleave, hdue, hturn⟩]
  split <;> rfl

theorem Fyster.memberChange_of_due {f : Fyster} {g : Nat} {x : Grp} {d : List Byte} (hgrp : f.grp g = some x) (hnext : x.next = some d)
    (hstate : x.state = 3) (harm : dKind d = 1) (hdue : dEff d ≤ f.ns) (hturn : f.part.turn .membership (dEff d) = true)
    (hroles : f.rolesUnder x d ≠ []) :
    ((f.memberChange g).grp g).map (fun y => (y.desc, y.next, y.serial, y.memb, y.eff, y.roles, y.state)) =
        some (d, none, dSerial d, dMemb d, dEff d, f.rolesUnder x d, 3) ∧
      (f.memberChange g).part.order? .membership x.id = none ∧ (f.memberChange g).links = f.links ∧ (f.memberChange g).ring = f.ring := by
  simp only [Fyster.memberChange, hgrp, hnext]
  rw [if_pos ⟨hstate, harm, hdue, hturn⟩, if_neg fun h => hroles (List.isEmpty_iff.mp h)]
  refine ⟨(congrArg (Option.map _) (Fyster.grp_setGrp_self _ _ _)).trans ?_, ?_, rfl, rfl⟩
  · rw [← hstate]
    rfl
  · have hdrop := Part.order_dropOrder f.part .membership x.id
    change Part.order? (match f.part.order? .membership x.id with
      | some o => if dPeriod d = x.period ∧ dPhase d = x.phase then f.part.dropOrder .membership x.id
        else (f.part.dropOrder .membership x.id).putOrder o.toGrid
      | none => f.part.dropOrder .membership x.id) .membership x.id = none
    split
    · split
      · exact hdrop
      · exact Part.order_putOrder_of_none hdrop (by simp [Order.toGrid])
    · exact hdrop

/-! ### Teardown and release (R282) -/

theorem Tu.drain_of_due {t : Tu} {g e : Nat} (hleave : (t.tgroup g).leave = some e) (hstate : (t.tgroup g).state = 3) (hdue : e ≤ t.ns)
    (hturn : t.part.turn .membership e = true) :
    t.drain g = { t with part := t.part.dropOrder .membership (t.tgroup g).id }.setGroup g
      { t.tgroup g with state := 5, leave := none, release := e + (t.tgroup g).period + max (t.tgroup g).period 1000000 } := by
  simp only [Tu.drain, hleave]
  exact if_pos ⟨hstate, hdue, hturn⟩

theorem Fyster.drain_of_due {f : Fyster} {g e : Nat} {x : Grp} (hgrp : f.grp g = some x) (hend : x.endAt = some e) (hstate : x.state ≠ 5)
    (hdue : e ≤ f.ns) (hturn : f.part.turn .membership e = true) :
    f.drain g = { f with part := f.part.dropOrder .membership x.id }.setGrp g
      { x with state := 5, release := some (e + x.period + max x.period 1000000) } := by
  simp only [Fyster.drain, hgrp, hend]
  rw [if_pos ⟨hstate, hdue, hturn⟩]
  rfl

theorem Tu.releaseSlot_of_due {t : Tu} {g : Nat} (hstate : (t.tgroup g).state = 5) (hdue : (t.tgroup g).release ≤ t.ns) :
    t.releaseSlot g = { t with part := t.part.dropOrder .grid (t.tgroup g).id }.setGroup g { t.tgroup g with state := 0, release := 0 } :=
  if_pos ⟨hstate, hdue⟩

theorem Fyster.releaseGrp_of_slot {f : Fyster} {g : Nat} {x : Grp} (hgrp : f.grp g = some x) (hg : g < 64) :
    (f.releaseGrp g).grp g = f.grp (g + 64) ∧ (f.releaseGrp g).part.order? .membership x.id = none ∧
      (f.releaseGrp g).part.order? .grid x.id = none ∧ tfind (f.releaseGrp g).jun.binds g = none ∧
      tfind (f.releaseGrp g).dec.govs g = none ∧ (f.releaseGrp g).links = f.links := by
  have hmember : (((f.part.dropOrder .membership x.id).dropOrder .grid x.id).dropOrder .model g).order? .membership x.id = none :=
    Part.order_dropOrder_of_none (Part.order_dropOrder_of_none (Part.order_dropOrder _ _ _) _ _) _ _
  have hgrid : (((f.part.dropOrder .membership x.id).dropOrder .grid x.id).dropOrder .model g).order? .grid x.id = none :=
    Part.order_dropOrder_of_none (Part.order_dropOrder _ _ _) _ _
  have hbind := tfind_tdel_self f.jun.binds g
  have hgov := tfind_tdel_self f.dec.govs g
  have hother : (f.dropGrp g).grp (g + 64) = f.grp (g + 64) := tfind_tdel_other _ (by omega)
  have hself : (f.dropGrp g).grp g = none := tfind_tdel_self _ _
  simp only [Fyster.releaseGrp, hgrp, if_pos hg]
  split
  next y hy => exact ⟨(Fyster.grp_setGrp_self _ _ _).trans (hy.symm.trans hother), hmember, hgrid, hbind, hgov, rfl⟩
  next hy => exact ⟨hself.trans (hother.symm.trans hy).symm, hmember, hgrid, hbind, hgov, rfl⟩

/-- Settles O27: each step is the case of its function that its premises select; on the grid's change the sets of the slot are
followed through the fold, and the records that report it change nothing else. -/
theorem groupSlots : Obligations.GroupSlots := by
  unfold Obligations.GroupSlots
  refine ⟨?arm, ?leave, ?armed, ?fyArmed, ?change, ?fyChange, ?grid, ?fyGrid, ?drain, ?fyDrain, ?release, ?fyRelease⟩
  case arm =>
    intro s dt p lvl g v hlvl _ hkind hcode hfree
    refine tuNext_of_onTu rfl ?_
    rw [Tu.wrArm_of_legal (t := (s.tu p).tick dt) hkind hcode hfree]
    exact Tu.reply_accepted hlvl
  case leave =>
    intro s dt p lvl g v hlvl hlen hkind harmed hid hne hserial hns hlocked hroom
    refine tuNext_of_onTu rfl ?_
    rw [Tu.wrLeave_of_legal (t := (s.tu p).tick dt) hlen hkind harmed hid hne hserial hns hlocked hroom]
    exact Tu.reply_accepted hlvl
  case armed =>
    intro s dt p g hpending hdue hturn
    refine tuNext_of_onNode rfl ?_
    obtain ⟨hslot, hpart, hsets, hrest⟩ := Tu.armEffective_spec (t := (s.tu p).tick dt) hpending hdue hturn
    exact ⟨hslot, hpart, fun k _ => hsets k, hrest⟩
  case fyArmed =>
    intro s dt g x hgrp hpending hdue hturn
    refine fyNext_of_onNode rfl ?_
    have hgo : (s.fy.tick dt).grp g.val = some x := hgrp
    simp only [Fyster.armEffective, hgo]
    exact if_pos ⟨hpending, hdue, hturn⟩
  case change =>
    intro s dt p g o horder hstate hleave hdue hturn
    exact tuNext_of_onNode rfl (Tu.memberChange_of_due (t := (s.tu p).tick dt) horder hstate hleave hdue hturn)
  case fyChange =>
    intro s dt g x d hgrp hnext hstate harm hdue hturn hroles
    exact fyNext_of_onNode rfl (Fyster.memberChange_of_due (f := s.fy.tick dt) hgrp hnext hstate harm hdue hturn hroles)
  case grid =>
    intro s dt p g o horder hstate hdue hturn
    refine tuNext_of_onNode rfl ?_
    obtain ⟨hslot, hnone, hsets, hmace⟩ := Tu.gridTake_spec (t := (s.tu p).tick dt) horder hstate hdue hturn
    exact ⟨hslot, hnone, fun k _ => hsets k, hmace⟩
  case fyGrid =>
    intro s dt g x o hgrp horder hstate hdue hturn
    exact fyNext_of_onNode rfl (Fyster.gridTake_of_due (f := s.fy.tick dt) hgrp horder hstate hdue hturn)
  case drain =>
    intro s dt p g e hleave hstate hdue hturn
    exact tuNext_of_onNode rfl (Tu.drain_of_due (t := (s.tu p).tick dt) hleave hstate hdue hturn)
  case fyDrain =>
    intro s dt g x e hgrp hend hstate hdue hturn
    exact fyNext_of_onNode rfl (Fyster.drain_of_due (f := s.fy.tick dt) hgrp hend hstate hdue hturn)
  case release =>
    intro s dt p g hstate hdue
    exact tuNext_of_onNode rfl (Tu.releaseSlot_of_due (t := (s.tu p).tick dt) hstate hdue)
  case fyRelease =>
    intro s dt g x e hgrp hstate hrelease hdue
    refine fyNext_of_onNode rfl ?_
    have hgo : (s.fy.tick dt).grp g.val = some x := hgrp
    have hany : x.release.any (· ≤ (s.fy.tick dt).ns) = true := by
      rw [hrelease]
      exact decide_eq_true hdue
    simp only [Fyster.releaseDue, hgo]
    rw [if_pos ⟨hstate, hany⟩]
    exact Fyster.releaseGrp_of_slot hgo g.isLt

end Sys2Proof.Machine
end

section
/-! SUPPORT. Watermarks of a tray's dies and of groups (R175 to R179). -/

namespace Sys2Proof.Machine

/-! ### The watermark state of a port (R175, R178) -/

theorem Fyster.wmkOf_setWmk (f : Fyster) (p : Nat) (x : PortWmk) : (f.setWmk p x).wmkOf p = x := tget_tset_self _ _ _ _

/-- A WMK with its totals, that has not yet joined those that wait. -/
def PortWmk.counted (x : PortWmk) (flags fails unchecked : Nat) : PortWmk :=
  { x with
    flags := flags
    failTotal := x.failTotal + (fails + 2 ^ 32 - x.failLow) % 2 ^ 32
    failLow := fails
    unchecked := x.unchecked + (unchecked + 2 ^ 32 - x.uncheckedLow) % 2 ^ 32
    uncheckedLow := unchecked }

theorem PortWmk.take_of_idle {x : PortWmk} {flags : Nat} (last w fails unchecked now : Nat) (hreset : bitOf flags 6 = false)
    (hidle : x.waiting = []) :
    x.take flags last w fails unchecked now =
      { x.counted flags fails unchecked with waiting := [{ w := w, last := last, since := now, uncertain := bitOf flags 0 }] } := by
  simp only [PortWmk.take, hreset, PortWmk.queue]
  rw [if_neg (by decide), hidle]
  rfl

theorem Fyster.wmkTake_of_idle {f : Fyster} {p : Nat} (h : (f.wmkOf p).waiting = []) (n : Nat) : f.wmkTake p n = f := by
  cases n with
  | zero => rfl
  | succ n => simp only [Fyster.wmkTake, h]

theorem Fyster.wmkTake_of_ready {f : Fyster} {p : Nat} {m : WmkWait} (n : Nat) (hwait : (f.wmkOf p).waiting = [m])
    (hheld : m.last ≤ (f.wmkOf p).lastSerial) (hwrites : f.taintWrites = []) (hgap : (f.wmkOf p).gapFrom = none) :
    f.wmkTake p (n + 1) = f.setWmk p { f.wmkOf p with waiting := [], w := max (f.wmkOf p).w m.w, seen := true } := by
  simp only [Fyster.wmkTake, hwait, hgap]
  rw [if_neg (by simp [hwrites, hheld])]
  exact Fyster.wmkTake_of_idle (by rw [Fyster.wmkOf_setWmk]) n

theorem Fyster.wmkTake_of_missing {f : Fyster} {p : Nat} {m : WmkWait} (n : Nat) (hwait : (f.wmkOf p).waiting = [m])
    (hmissing : (f.wmkOf p).lastSerial < m.last) : f.wmkTake p n = f := by
  cases n with
  | zero => rfl
  | succ n =>
    simp only [Fyster.wmkTake, hwait]
    exact if_pos (Or.inl hmissing)

theorem Fyster.wmkRx_of_sound {f : Fyster} {p : Port} {x : Tos} (hgood : x.good 3 = true) :
    f.wmkRx p x = (f.setWmk p.val ((f.wmkOf p.val).take (fieldAt x.payload 2 1) (fieldAt x.payload 4 4) (fieldAt x.payload 8 8)
      (fieldAt x.payload 16 4) (fieldAt x.payload 20 4) f.ns)).wmkSettle p.val := by
  simp only [Fyster.wmkRx, hgood]
  rfl

theorem Fyster.wmkRx_of_ready {f : Fyster} {p : Port} {x : Tos} (hgood : x.good 3 = true) (hreset : bitOf (fieldAt x.payload 2 1) 6 = false)
    (hidle : (f.wmkOf p.val).waiting = []) (hgap : (f.wmkOf p.val).gapFrom = none)
    (hheld : fieldAt x.payload 4 4 ≤ (f.wmkOf p.val).lastSerial) (hwrites : f.taintWrites = []) :
    (f.wmkRx p x).wmkOf p.val = { (f.wmkOf p.val).take (fieldAt x.payload 2 1) (fieldAt x.payload 4 4) (fieldAt x.payload 8 8)
        (fieldAt x.payload 16 4) (fieldAt x.payload 20 4) f.ns with
      waiting := [], w := max (f.wmkOf p.val).w (fieldAt x.payload 8 8), seen := true } ∧
      { f.wmkRx p x with wmk := f.wmk } = f := by
  rw [Fyster.wmkRx_of_sound hgood, PortWmk.take_of_idle _ _ _ _ _ hreset hidle]
  generalize hy : ({ (f.wmkOf p.val).counted (fieldAt x.payload 2 1) (fieldAt x.payload 16 4) (fieldAt x.payload 20 4) with
    waiting := [{ w := fieldAt x.payload 8 8, last := fieldAt x.payload 4 4, since := f.ns,
                  uncertain := bitOf (fieldAt x.payload 2 1) 0 }] } : PortWmk) = y
  have hself := f.wmkOf_setWmk p.val y
  have htake := Fyster.wmkTake_of_ready (f := f.setWmk p.val y) (p := p.val) (2 * ((f.setWmk p.val y).wmkOf p.val).waiting.length)
    (m := { w := fieldAt x.payload 8 8, last := fieldAt x.payload 4 4, since := f.ns, uncertain := bitOf (fieldAt x.payload 2 1) 0 })
    (by rw [hself, ← hy]) (by rw [hself, ← hy]; exact hheld) hwrites (by rw [hself, ← hy]; exact hgap)
  have hw : y.w = (f.wmkOf p.val).w := by rw [← hy]; rfl
  rw [Fyster.wmkSettle, htake, hself, hw, Fyster.wmkOf_setWmk]
  exact ⟨rfl, rfl⟩

theorem Fyster.wmkRx_of_missing {f : Fyster} {p : Port} {x : Tos} (hgood : x.good 3 = true) (hreset : bitOf (fieldAt x.payload 2 1) 6 = false)
    (hidle : (f.wmkOf p.val).waiting = []) (hmissing : (f.wmkOf p.val).lastSerial < fieldAt x.payload 4 4) :
    f.wmkRx p x = f.setWmk p.val ((f.wmkOf p.val).take (fieldAt x.payload 2 1) (fieldAt x.payload 4 4) (fieldAt x.payload 8 8)
      (fieldAt x.payload 16 4) (fieldAt x.payload 20 4) f.ns) := by
  rw [Fyster.wmkRx_of_sound hgood, PortWmk.take_of_idle _ _ _ _ _ hreset hidle]
  refine Fyster.wmkTake_of_missing _ (m :=
    { w := fieldAt x.payload 8 8, last := fieldAt x.payload 4 4, since := f.ns, uncertain := bitOf (fieldAt x.payload 2 1) 0 }) ?_ ?_
  · rw [Fyster.wmkOf_setWmk]
  · rw [Fyster.wmkOf_setWmk]
    exact hmissing

theorem Fyster.taintWait_of_one {f : Fyster} {p n : Nat} {m : WmkWait} (hnode : f.nodeCode (p + 1) = 0)
    (hfind : ((f.wmkOf p).waiting.find? fun m => !((f.wmkOf p).missing m).isEmpty) = some m) (hone : (f.wmkOf p).missing m = [n])
    (hnew : ((f.wmkOf p).resends.find? fun r => r.1 == n) = none) (hlate : m.since + 1000 * f.rd 0x4100 1 ≤ f.ns) :
    f.taintWait p = (f.setWmk p { f.wmkOf p with resends := (f.wmkOf p).resends.filter (fun r => r.1 != n) ++ [(n, f.ns)] }).relay p
      (.resend n) (dictWriteMsg 1 0x2910 0x10 4 (leBytes 4 n)) := by
  simp only [Fyster.taintWait, hfind]
  rw [if_neg (fun h => h hnode), if_neg (Nat.not_lt.mpr hlate), hone]
  simp only [List.filter_cons, List.filter_nil, hnew, if_true, List.foldl_cons, List.foldl_nil]

/-- Settles O28: a WMK meets an idle port; what it names decides whether its W is taken or waits. -/
theorem trayWatermarks : Obligations.TrayWatermarks := by
  unfold Obligations.TrayWatermarks
  refine ⟨?ready, ?missing, ?bad, ?resend, ?written, ?shown, ?same⟩
  case ready =>
    intro s dt p x hgood hreset hidle hgap hheld hwrites
    exact fyNext_of_onFy rfl (Fyster.wmkRx_of_ready (f := s.fy.tick dt) hgood hreset hidle hgap hheld hwrites)
  case missing =>
    intro s dt p x hgood hreset hidle hmissing
    refine fyNext_of_onFy rfl ?_
    rw [Fyster.wmkRx_of_missing (f := s.fy.tick dt) hgood hreset hidle hmissing, Fyster.wmkOf_setWmk]
    refine ⟨rfl, ?_, rfl⟩
    have htake := PortWmk.take_of_idle (x := s.fy.wmkOf p.val) (fieldAt x.payload 4 4) (fieldAt x.payload 8 8) (fieldAt x.payload 16 4)
      (fieldAt x.payload 20 4) (s.fy.tick dt).ns hreset hidle
    exact (congrArg PortWmk.w htake :)
  case bad =>
    intro s dt p x hbad
    refine fyNext_of_onFy rfl ?_
    simp only [Fyster.wmkRx, hbad]
    exact ⟨rfl, rfl⟩
  case resend =>
    intro s dt p m n hnode hfind hone hnew hlate
    exact fyNext_of_onFy rfl (Fyster.taintWait_of_one (f := s.fy.tick dt) hnode hfind hone hnew hlate)
  case written =>
    intro s dt p g n w hfind hidle
    refine fyNext_of_onFy rfl ?_
    have hgo : ((s.fy.tick dt).taintWrites.find? fun w => w.g == g.val && w.port == p.val && w.serial == n.toNat && !w.held) = some w :=
      hfind
    simp only [Fyster.taintDone, hgo]
    exact Fyster.wmkTake_of_idle (f := { s.fy.tick dt with taintWrites := s.fy.taintWrites.erase w }) hidle _
  case shown =>
    intro s dt p x hgood hg hnew
    refine tuNext_of_onTu rfl ?_
    have hold : ¬(((s.tu p).tick dt).rd 0x2911 (fieldAt x.payload 2 1 + 1) = fieldAt x.payload 8 8 ∧
        ((s.tu p).tick dt).rd 0x2912 (fieldAt x.payload 2 1 + 1) = fieldAt x.payload 4 4) :=
      fun h => hnew.elim (fun hne => hne h.1) fun hne => hne h.2
    simp only [Tu.wmkdRx, hgood]
    rw [if_neg (by decide), if_neg (Nat.not_le.mpr hg), if_neg hold]
  case same =>
    intro s dt p x hgood hw hn
    refine tuNext_of_onTu rfl ?_
    have hold : ((s.tu p).tick dt).rd 0x2911 (fieldAt x.payload 2 1 + 1) = fieldAt x.payload 8 8 ∧
        ((s.tu p).tick dt).rd 0x2912 (fieldAt x.payload 2 1 + 1) = fieldAt x.payload 4 4 := ⟨hw, hn⟩
    simp only [Tu.wmkdRx, hgood]
    rw [if_neg (by decide), if_pos hold, ite_self]

/-! ### Watermark instants (R176) -/

/-- What sending a watermark up and down leaves: the objects, the watermarks of the ports, the links and the groups. -/
def Fyster.wmkForm (f : Fyster) : Part × Tab PortWmk × Tab Link × Tab Grp := (f.part, f.wmk, f.links, f.red.groups)

theorem Fyster.wmkForm_remote (f : Fyster) (tray base ofs : Nat) (bs : List Byte) (id : Nat) :
    (f.remote tray base ofs bs id).wmkForm = f.wmkForm := by
  simp only [Fyster.remote]
  split <;> rfl

theorem Fyster.wmkForm_wmkUp (f : Fyster) (g : Nat) (x : Grp) (r : Role) (e : WmkEntry) : (f.wmkUp g x r e).wmkForm = f.wmkForm := by
  simp only [Fyster.wmkUp]
  split
  · rfl
  · exact Fyster.wmkForm_remote _ _ _ _ _ _

theorem Fyster.wmkForm_wmkDown (f : Fyster) (g : Nat) (x : Grp) (r : Role) (e : WmkEntry) : (f.wmkDown g x r e).wmkForm = f.wmkForm := by
  simp only [Fyster.wmkDown]
  refine foldl_keeps Fyster.wmkForm _ (fun f c => ?_) _ _
  split
  · exact Fyster.wmkForm_remote _ _ _ _ _ _
  · exact (Fyster.wmkForm_remote _ _ _ _ _ _).trans (Fyster.wmkForm_remote _ _ _ _ _ _)

theorem Fyster.wmkForm_wmkd (f : Fyster) (g seq : Nat) (e : WmkEntry) (p : Nat) : (f.wmkd g seq e p).wmkForm = f.wmkForm := by
  simp only [Fyster.wmkd]
  split <;> rfl

theorem Fyster.wmkForm_taintPut (f : Fyster) (g n : Nat) (r : Rec) : (f.taintPut g n r).wmkForm = f.wmkForm := by
  simp only [Fyster.taintPut]
  split
  · rfl
  · split
    · rfl
    · exact Fyster.wmkForm_remote _ _ _ _ _ _

theorem Fyster.wmkForm_taintRelease (g n : Nat) : ∀ f : Fyster, (f.taintRelease g n).wmkForm = f.wmkForm := by
  induction n with
  | zero => exact fun f => rfl
  | succ n ih =>
    intro f
    simp only [Fyster.taintRelease]
    split
    · rfl
    next w _ =>
      split
      · exact (ih _).trans (Fyster.wmkForm_taintPut { f with taintWrites := f.taintWrites.erase w } g _ w.r)
      · rfl

theorem Part.rd_wr_sub (p : Part) {i j k : Nat} (v : Nat) (h : k ≠ j) : (p.wr i j v).rd i k = p.rd i k :=
  Part.rd_wr_other p v (by simp only [objKey]; omega)

theorem Fyster.part_showGw (f : Fyster) (g : Nat) (e : WmkEntry) :
    (f.showGw g e).rd (0x4010 + g) 1 = e.w ∧ (f.showGw g e).rd (0x4010 + g) 2 = e.fails ∧
      (f.showGw g e).rd (0x4010 + g) 3 = e.unchecked ∧ (f.showGw g e).rd (0x4010 + g) 4 = e.taints ∧
      ∀ k, 4 < k → (f.showGw g e).rd (0x4010 + g) k = f.rd (0x4010 + g) k := by
  refine ⟨?_, ?_, ?_, Part.rd_wr_self _ _ _ _, fun k hk => ?_⟩
  · exact (Part.rd_wr_sub _ _ (by decide)).trans ((Part.rd_wr_sub _ _ (by decide)).trans ((Part.rd_wr_sub _ _ (by decide)).trans
      (Part.rd_wr_self _ _ _ _)))
  · exact (Part.rd_wr_sub _ _ (by decide)).trans ((Part.rd_wr_sub _ _ (by decide)).trans (Part.rd_wr_self _ _ _ _))
  · exact (Part.rd_wr_sub _ _ (by decide)).trans (Part.rd_wr_self _ _ _ _)
  · exact (Part.rd_wr_sub _ _ (by omega)).trans ((Part.rd_wr_sub _ _ (by omega)).trans ((Part.rd_wr_sub _ _ (by omega)).trans
      (Part.rd_wr_sub _ _ (by omega))))

theorem Fyster.l1WmkOwn_spec (f : Fyster) (g : Nat) (x : Grp) (r : Role) :
    (f.l1WmkOwn g x r).rd (0x4010 + g) 5 = (f.trayWmk g x).1.w ∧ (f.l1WmkOwn g x r).rd (0x4010 + g) 6 = (f.trayWmk g x).2 ∧
      ((f.l1WmkOwn g x r).grp g).map (fun y => (y.gw, y.taintTotal)) =
        some ((f.l1WmkOwn g x r).rd (0x4010 + g) 1, (f.l1WmkOwn g x r).rd (0x4010 + g) 4) ∧
      (f.l1WmkOwn g x r).wmk = f.wmk ∧ (f.l1WmkOwn g x r).links = f.links := by
  simp only [Fyster.l1WmkOwn]
  generalize hu : ((f.wr (0x4010 + g) 5 (f.trayWmk g x).1.w).wr (0x4010 + g) 6 (f.trayWmk g x).2).wmkUp g x r (f.trayWmk g x).1 = u
  generalize u.downWmk g 0 = d
  generalize hy : ({ x with gw := d.w, taintTotal := d.taints } : Grp).setRole { r with seq := (r.seq + 1) % 65536 } = y
  have hup : u.wmkForm = ((f.wr (0x4010 + g) 5 (f.trayWmk g x).1.w).wr (0x4010 + g) 6 (f.trayWmk g x).2).wmkForm :=
    hu ▸ Fyster.wmkForm_wmkUp _ g x r _
  have hform : ∀ n, ((((u.setGrp g y).members x).foldl (fun f p => f.wmkd g r.seq d p) ((u.setGrp g y).showGw g d)).taintRelease g n).wmkForm =
      ((u.setGrp g y).showGw g d).wmkForm := fun n =>
    (Fyster.wmkForm_taintRelease g n _).trans (foldl_keeps Fyster.wmkForm _ (fun f p => Fyster.wmkForm_wmkd f g r.seq d p) _ _)
  obtain ⟨h₁, _, _, h₄, hrest⟩ := Fyster.part_showGw (u.setGrp g y) g d
  have hrd := fun n k => (congrArg (fun z => z.1.rd (0x4010 + g) k) (hform n) :)
  have hold := fun k => (congrArg (fun z => z.1.rd (0x4010 + g) k) hup :)
  have hgw : (y.gw, y.taintTotal) = (d.w, d.taints) := by rw [← hy]; rfl
  refine ⟨?_, ?_, ?_, ?_, ?_⟩
  · refine (hrd _ 5).trans ((hrest 5 (by decide)).trans ((hold 5).trans ?_))
    exact (Part.rd_wr_sub _ _ (by decide)).trans (Part.rd_wr_self _ _ _ _)
  · exact (hrd _ 6).trans ((hrest 6 (by decide)).trans ((hold 6).trans (Part.rd_wr_self _ _ _ _)))
  · refine Eq.trans ?_ (congrArg some (Prod.ext ((hrd _ 1).trans h₁) ((hrd _ 4).trans h₄) : _ = (d.w, d.taints))).symm
    refine (congrArg (fun z => (tfind z.2.2.2 g).map fun y => (y.gw, y.taintTotal)) (hform _) :).trans ?_
    exact (congrArg (Option.map fun y : Grp => (y.gw, y.taintTotal)) (Fyster.grp_setGrp_self u g y)).trans (congrArg some hgw)
  · exact (congrArg (fun z => z.2.1) (hform _) :).trans (congrArg (fun z => z.2.1) hup :)
  · exact (congrArg (fun z => z.2.2.1) (hform _) :).trans (congrArg (fun z => z.2.2.1) hup :)

theorem Fyster.l1Wmk_of_instant {f : Fyster} {g : Nat} {x : Grp} {r : Role} (hgrp : f.grp g = some x) (hdue : f.wmkInstant x = true)
    (hone : (x.roles.filter fun r => r.level == 0 && r.holder) = [r]) (hholder : r.standby = false) :
    f.l1Wmk g = f.l1WmkOwn g x r := by
  simp only [Fyster.l1Wmk, hgrp]
  rw [if_pos hdue, hone]
  simp only [List.foldl_cons, List.foldl_nil, hholder, hgrp, Option.getD_some]
  exact if_neg (by decide)

theorem Fyster.l2Wmk_of_instant {f : Fyster} {g : Nat} {x : Grp} {r : Role} (hgrp : f.grp g = some x) (hrole : x.held 1 = some r)
    (hdue : f.wmkInstant x = true) :
    (f.l2Wmk g).wmkForm = (f.wr (0x4010 + g) 7 (f.childrenWmk g x r).2).wmkForm := by
  simp only [Fyster.l2Wmk, hgrp, hrole]
  rw [if_pos hdue]
  exact (Fyster.wmkForm_wmkDown _ _ _ _ _).trans (Fyster.wmkForm_wmkUp _ _ _ _ _)

theorem Fyster.rootWmk_of_instant {f : Fyster} {g : Nat} {x : Grp} {r : Role} (hgrp : f.grp g = some x) (hrole : x.held 2 = some r)
    (hdue : f.wmkInstant x = true) :
    (f.rootWmk g).wmkForm = ((f.wr (0x4010 + g) 7 (f.childrenWmk g x r).2).showGw g (f.childrenWmk g x r).1).wmkForm := by
  simp only [Fyster.rootWmk, hgrp, hrole]
  rw [if_pos hdue]
  exact Fyster.wmkForm_wmkDown _ _ _ _ _

theorem Fyster.bare_wmkOwn (f : Fyster) (scope g : Nat) (e : WmkEntry) : (f.wmkOwn scope g e).bare = f.bare := Fyster.bare_own f _

theorem Fyster.rd_wmkOwn (f : Fyster) (scope : Nat) (e : WmkEntry) {g k : Nat} (hg : g < 64) (hk : k < 256) :
    (f.wmkOwn scope g e).rd (0x4010 + g) k = f.rd (0x4010 + g) k :=
  Fyster.rd_of_bareBut (Fyster.bare_wmkOwn f scope g e) (by simp [fyReportKeys, objKey]; omega)

/-- Settles O29: what a watermark instant sends up and down leaves the objects that it shows; a record only reports. -/
theorem groupWatermarks : Obligations.GroupWatermarks := by
  unfold Obligations.GroupWatermarks
  refine ⟨?l1, ?l2, ?root, ?tuRecord, ?record⟩
  case l1 =>
    intro s dt g x r hgrp hdue hone hholder
    refine fyNext_of_onFy rfl ?_
    rw [Fyster.l1Wmk_of_instant (f := s.fy.tick dt) hgrp hdue hone hholder]
    exact Fyster.l1WmkOwn_spec (s.fy.tick dt) g.val x r
  case l2 =>
    intro s dt g x r hgrp hrole hdue
    refine fyNext_of_onFy rfl ?_
    have hform := Fyster.l2Wmk_of_instant (f := s.fy.tick dt) hgrp hrole hdue
    refine ⟨?_, (congrArg (fun z => z.2.2.2) hform :), (congrArg (fun z => z.2.1) hform :)⟩
    exact (congrArg (fun z => z.1.rd (0x4010 + g.val) 7) hform :).trans (Part.rd_wr_self _ _ _ _)
  case root =>
    intro s dt g x r hgrp hrole hdue
    refine fyNext_of_onFy rfl ?_
    have hform := Fyster.rootWmk_of_instant (f := s.fy.tick dt) hgrp hrole hdue
    have hrd := fun k => (congrArg (fun z => z.1.rd (0x4010 + g.val) k) hform :)
    obtain ⟨h₁, h₂, h₃, h₄, hrest⟩ := Fyster.part_showGw ((s.fy.tick dt).wr (0x4010 + g.val) 7 ((s.fy.tick dt).childrenWmk g.val x r).2)
      g.val ((s.fy.tick dt).childrenWmk g.val x r).1
    refine ⟨(hrd 7).trans ((hrest 7 (by decide)).trans (Part.rd_wr_self _ _ _ _)), (hrd 1).trans h₁, (hrd 2).trans h₂,
      (hrd 3).trans h₃, (hrd 4).trans h₄, (congrArg (fun z => z.2.2.2) hform :), (congrArg (fun z => z.2.1) hform :)⟩
  case tuRecord =>
    intro s dt p hdue
    refine tuNext_of_onNode rfl ?_
    have hgo : ¬((s.tu p).tick dt).ts % (1000 * ((s.tu p).tick dt).rd 0x2900 7) ≠ 0 := fun h => h hdue
    rw [Tu.wmkRecord, if_neg hgo]
    exact ⟨rfl, Tu.bare_offer _ 5 1 _ _ (by decide)⟩
  case record =>
    intro s dt g x hdue hgroups hg hstate
    refine fyNext_of_onNode rfl ?_
    have hone : (((s.fy.tick dt).red.groups).filter fun e : Nat × Grp => decide (e.1 < 64) && (e.2.state == 3 || e.2.state == 5)) = [(g, x)] := by
      rw [show (s.fy.tick dt).red.groups = [(g, x)] from hgroups]
      simp [hg, hstate]
    simp only [Fyster.wmkRecord]
    rw [if_neg fun h => h hdue, hone]
    simp only [List.foldl_cons, List.foldl_nil]
    generalize (s.fy.tick dt) = f
    have hdown := congrArg (fun u : Fyster => u.downWmk g 0) (Fyster.bare_wmkOwn f 1 g (f.trayWmk g x).1)
    have hflags : ((f.wmkOwn 1 g (f.trayWmk g x).1).downWmk g 0).flags = (f.downWmk g 0).flags := (congrArg WmkEntry.flags hdown :)
    rw [hflags, Fyster.rd_wmkOwn f 1 _ hg (by decide), Fyster.rd_wmkOwn f 1 _ hg (by decide), Fyster.rd_wmkOwn f 1 _ hg (by decide),
      Fyster.rd_wmkOwn f 1 _ hg (by decide)]
    exact ⟨rfl, (Fyster.bare_wmkOwn _ _ _ _).trans (Fyster.bare_wmkOwn _ _ _ _)⟩

end Sys2Proof.Machine
end

section
/-! SUPPORT. Data and control frames, acknowledgement and replay (R70 to R75). -/

namespace Sys2Proof.Machine

/-! ### What a received frame leaves of the sequences -/

/-- The FSEQ that a TU expects and whether a report is due. -/
def Tu.seqForm (t : Tu) : Nat × Bool := (t.link.rxFseq, t.link.ackDue)

theorem Tu.seqForm_of_bareBut {t u : Tu} {ks : List Nat} (h : t.bareBut ks = u.bareBut ks) : t.seqForm = u.seqForm :=
  (congrArg Tu.seqForm h :)

theorem Tu.seqForm_log (t : Tu) (e : Event) : (t.log e).seqForm = t.seqForm := Tu.seqForm_of_bareBut (Tu.bare_log (ks := []) t e)

theorem Tu.seqForm_counted (t : Tu) (i k n : Nat) : (t.counted i k n).seqForm = t.seqForm := Tu.seqForm_log _ _

theorem Tu.seqForm_violate (t : Tu) (vcode fseq ofs header : Nat) : (t.violate vcode fseq ofs header).seqForm = t.seqForm := by
  have hviol : ((t.link.violation t.ns).1.rxFseq, (t.link.violation t.ns).1.ackDue) = t.seqForm := by
    rw [Link.violation]
    split
    · split <;> rfl
    · rfl
  simp only [Tu.violate]
  split
  · exact (Tu.seqForm_of_bareBut (ks := []) (Tu.bare_sendFree _ _)).trans hviol
  · exact hviol

theorem Tu.seqForm_malformed (t : Tu) (vcode fseq ofs header : Nat) : (t.malformed vcode fseq ofs header).seqForm = t.seqForm := by
  simp only [Tu.malformed]
  split
  · exact Tu.seqForm_counted _ _ _ _
  · exact (Tu.seqForm_violate _ _ _ _ _).trans (Tu.seqForm_counted _ _ _ _)

theorem Tu.seqForm_consume (t : Tu) (r : Rec) : (t.consume r).seqForm = t.seqForm := by
  simp only [Tu.consume]
  split
  · exact Tu.seqForm_counted _ _ _ _
  · split
    · exact Tu.seqForm_counted _ _ _ _
    · rfl

theorem Tu.seqForm_parityDrop (t : Tu) (r : Rec) : (t.parityDrop r).seqForm = t.seqForm := Tu.seqForm_log _ _

theorem Tu.seqForm_takeRecords (fseq : Nat) (hits : List Nat) (n : Nat) :
    ∀ (t : Tu) (k i : Nat) (ws : List Word), (Tu.takeRecords fseq hits n t k i ws).seqForm = t.seqForm := by
  induction n with
  | zero => exact fun _ _ _ _ => rfl
  | succ n ih =>
    intro t k i ws
    simp only [Tu.takeRecords]
    split
    · rfl
    · split
      · exact Tu.seqForm_malformed _ _ _ _ _
      · refine (ih _ _ _ _).trans ?_
        split
        · exact Tu.seqForm_malformed _ _ _ _ _
        · split
          · exact Tu.seqForm_parityDrop _ _
          · exact Tu.seqForm_consume _ _

theorem Tu.seqForm_acceptFrame (t : Tu) (m : FrameHead) (x : RawFrame) : (t.acceptFrame m x).seqForm = t.seqForm := by
  simp only [Tu.acceptFrame]
  split
  · exact (Tu.seqForm_counted _ _ _ _).trans (Tu.seqForm_violate _ _ _ _ _)
  · exact Tu.seqForm_takeRecords _ _ _ _ _ _ _

/-! ### The report that rides in a header -/

/-- The link once an ACKSEQ, if the header holds one, has freed what it covers. -/
def Link.heard (l : Link) (m : FrameHead) : Link := if m.ackValid then l.acked m.ack else l

theorem Tu.takeReport_of_ack {t : Tu} (p : Port) {m : FrameHead} (h : m.nak = false) : t.takeReport p m = { t with link := t.link.heard m } := by
  cases hack : m.ackValid with
  | false => simp only [Tu.takeReport, Link.heard, hack]; rfl
  | true => simp only [Tu.takeReport, Link.heard, hack, h]; rfl

theorem Fyster.link_setLink_self (f : Fyster) (p : Nat) (l : Link) : (f.setLink p l).link p = l := tget_tset_self _ _ _ _

theorem Fyster.drainTu_of_none {f : Fyster} {p : Port} (h : tget f.toTu p.val [] = []) :
    f.drainTu p = { f.setLink p.val (f.link p.val) with toTu := tset f.toTu p.val [] } := by
  simp only [Fyster.drainTu, h]
  rfl

theorem Fyster.takeAck_of_none {f : Fyster} {p : Port} (ack : Nat) (h : tget f.toTu p.val [] = []) :
    f.takeAck p ack = { f.setLink p.val ((f.link p.val).acked ack) with toTu := tset f.toTu p.val [] } := by
  rw [Fyster.takeAck, Fyster.drainTu_of_none (f := f.setLink p.val ((f.link p.val).acked ack)) h, Fyster.link_setLink_self]
  simp only [Fyster.setLink, tset_tset]

theorem Fyster.takeReport_of_ack {f : Fyster} {p : Port} {m : FrameHead} (hnak : m.nak = false) (h : tget f.toTu p.val [] = []) :
    (f.takeReport p m).link p.val = (f.link p.val).heard m ∧ (f.takeReport p m).part = f.part ∧ (f.takeReport p m).ring = f.ring := by
  cases hack : m.ackValid with
  | false =>
    simp only [Fyster.takeReport, Link.heard, hack]
    exact ⟨rfl, rfl, rfl⟩
  | true =>
    simp only [Fyster.takeReport, Link.heard, hack, hnak, Fyster.takeAck_of_none m.ack h]
    exact ⟨Fyster.link_setLink_self _ _ _, rfl, rfl⟩

/-! ### Data frames -/

theorem Tu.frameRx_of_inOrder {t : Tu} {p : Port} {x : RawFrame} (hup : t.link.st = .up) (hsound : frameSound x = true)
    (hkind : (frameHead x.header).kind ≠ 2) (hnak : (frameHead x.header).nak = false)
    (harr : t.link.arrival (frameHead x.header).fseq = .inOrder) :
    t.frameRx p x = ({ t.rxCrc x with link := (t.link.heard (frameHead x.header)).accept t.part.time.now }).acceptFrame (frameHead x.header) x := by
  have hheard : (t.link.heard (frameHead x.header)).arrival (frameHead x.header).fseq = .inOrder := by
    rw [← harr, Link.heard]
    split <;> rfl
  have htime : (t.rxCrc x).part.time = t.part.time := by
    simp only [Tu.rxCrc, Part.crcTake]
    split <;> rfl
  simp only [Tu.frameRx, Tu.takeReport_of_ack p hnak, hsound]
  rw [if_neg fun h => h hup, if_neg (by decide), if_neg hkind]
  have hlink : (t.rxCrc x).link = t.link := rfl
  simp only [hlink, hheard, htime]

theorem Tu.frameRx_of_unsound {t : Tu} {p : Port} {x : RawFrame} (hup : t.link.st = .up) (hbad : frameSound x = false) :
    (t.frameRx p x).link = t.link.nak ∧ (t.frameRx p x).rd 0x2110 0x11 = raised 0x2110 0x11 (t.rd 0x2110 0x11) 1 ∧
      (t.frameRx p x).mace = t.mace := by
  have hrd : (t.rxCrc x).part.rd 0x2110 0x11 = t.rd 0x2110 0x11 := by
    simp only [Tu.rxCrc, Part.crcTake]
    split <;> rfl
  have hraised : (({ t.rxCrc x with link := t.link.nak } : Tu).bump 0x2110 0x11 1).rd 0x2110 0x11 = raised 0x2110 0x11 (t.rd 0x2110 0x11) 1 :=
    (Part.rd_wr_self _ _ _ _).trans (congrArg (raised 0x2110 0x11 · 1) hrd)
  simp only [Tu.frameRx, hbad, Tu.badFrame]
  rw [if_neg fun h => h hup, if_pos (by decide)]
  split
  · exact ⟨rfl, (Part.rd_bump_other _ _ (by decide)).trans hraised, rfl⟩
  · exact ⟨rfl, hraised, rfl⟩

theorem Fyster.frameRx_of_inOrder {f : Fyster} {p : Port} {x : RawFrame} (hup : (f.link p.val).st = .up) (hsound : frameSound x = true)
    (hkind : (frameHead x.header).kind ≠ 2)
    (harr : ((f.takeReport p (frameHead x.header)).link p.val).arrival (frameHead x.header).fseq = .inOrder) :
    f.frameRx p x = (((f.takeReport p (frameHead x.header)).setLink p.val
      (((f.takeReport p (frameHead x.header)).link p.val).accept (f.takeReport p (frameHead x.header)).part.time.now)).bump
        (0x1140 + p.val) 1 1).acceptFrame p.val (frameHead x.header) x := by
  simp only [Fyster.frameRx, hsound, harr]
  rw [if_neg fun h => h hup, if_neg (by decide), if_neg hkind]

theorem Fyster.partition_tset_self (f : Fyster) (p : Nat) (q : Partition) : ({ f with ring := tset f.ring p q } : Fyster).partition p = q :=
  tget_tset_self _ _ _ _

/-- R220: a fragment in a partition: the open block, and nothing of the links or of what a port counts. -/
theorem Fyster.writeFragment_spec (f : Fyster) (p : Port) (m : FrameHead) (ws : List Word) :
    (f.writeFragment p.val m ws).links = f.links ∧
      (f.writeFragment p.val m ws).rd (0x1140 + p.val) 1 = f.rd (0x1140 + p.val) 1 ∧
      ((f.writeFragment p.val m ws).partition p.val).block = (sumacOpen (f.partition p.val).block m.first m.last (8 * ws.length)).2.2 := by
  have hp := p.isLt
  simp only [Fyster.writeFragment]
  generalize hu : f.writeEntry p.val
    { sumac := true, first := m.first, last := m.last, trunc := (sumacOpen (f.partition p.val).block m.first m.last (8 * ws.length)).1,
      orphan := (sumacOpen (f.partition p.val).block m.first m.last (8 * ws.length)).2.1, cls := m.cls, fseq := m.fseq, src := p.val,
      body := ws } { stamps := [f.ts], hasLoss := false, uncert := false } = u
  have hbare : u.bare = f.bare := hu ▸ Fyster.bare_writeEntry (ks := []) f p.val _ _
  have hrd : u.rd (0x1140 + p.val) 1 = f.rd (0x1140 + p.val) 1 :=
    Fyster.rd_of_bareBut hbare (by simp [fyReportKeys, objKey]; omega)
  have hblock := congrArg Partition.block (u.partition_tset_self p.val
    { u.partition p.val with block := (sumacOpen (f.partition p.val).block m.first m.last (8 * ws.length)).2.2 })
  have hlinks : u.links = f.links := (congrArg Fyster.links hbare :)
  split
  · exact ⟨hlinks, (Part.rd_bump_other _ _ (by simp only [objKey]; omega)).trans hrd, hblock⟩
  · exact ⟨hlinks, hrd, hblock⟩

theorem Fyster.acceptFrame_of_sumac {f : Fyster} {p : Nat} {m : FrameHead} (x : RawFrame) (hkind : m.kind = 1) (hfault : frameFault m true = 0) :
    f.acceptFrame p m x = f.writeFragment p m x.payload := by
  simp only [Fyster.acceptFrame, hfault]
  rw [if_neg fun h => h rfl, if_pos hkind]

theorem Fyster.frameRx_of_sumac {f : Fyster} {p : Port} {x : RawFrame} (hup : (f.link p.val).st = .up) (hsound : frameSound x = true)
    (hkind : (frameHead x.header).kind = 1) (hfault : frameFault (frameHead x.header) true = 0) (hnak : (frameHead x.header).nak = false)
    (hnone : tget f.toTu p.val [] = []) (harr : (f.link p.val).arrival (frameHead x.header).fseq = .inOrder) :
    (f.frameRx p x).link p.val = ((f.link p.val).heard (frameHead x.header)).accept f.part.time.now ∧
      (f.frameRx p x).rd (0x1140 + p.val) 1 = raised (0x1140 + p.val) 1 (f.rd (0x1140 + p.val) 1) 1 ∧
      ((f.frameRx p x).partition p.val).block =
        (sumacOpen (f.partition p.val).block (frameHead x.header).first (frameHead x.header).last (8 * x.payload.length)).2.2 := by
  obtain ⟨hlink, hpart, hring⟩ := Fyster.takeReport_of_ack (f := f) (p := p) hnak hnone
  have hheard : ((f.takeReport p (frameHead x.header)).link p.val).arrival (frameHead x.header).fseq = .inOrder := by
    rw [hlink, ← harr, Link.heard]
    split <;> rfl
  rw [Fyster.frameRx_of_inOrder hup hsound (by omega) hheard, Fyster.acceptFrame_of_sumac x hkind hfault, hlink, hpart]
  obtain ⟨hlinks, hrd, hblock⟩ := Fyster.writeFragment_spec (((f.takeReport p (frameHead x.header)).setLink p.val
    (((f.link p.val).heard (frameHead x.header)).accept f.part.time.now)).bump (0x1140 + p.val) 1 1) p (frameHead x.header) x.payload
  refine ⟨(congrArg (fun l => tget l p.val Link.reset) hlinks :).trans (Fyster.link_setLink_self _ _ _), hrd.trans ?_, hblock.trans ?_⟩
  · exact (Part.rd_wr_self _ _ _ _).trans (congrArg (fun q : Part => raised (0x1140 + p.val) 1 (q.rd (0x1140 + p.val) 1) 1) hpart)
  · exact (congrArg (fun r => (sumacOpen (tget r p.val (Partition.empty (partDefault p.val))).block (frameHead x.header).first
      (frameHead x.header).last (8 * x.payload.length)).2.2) hring :)

/-! ### CONTROL frames -/

theorem Tu.controlRx_of_report {t : Tu} {p : Port} {x : RawFrame} (hup : t.link.st = .up) (hsound : frameSound x = true)
    (hkind : (frameHead x.header).kind = 2) (hlen : (frameHead x.header).plen = 0) (hack : (frameHead x.header).ackValid = true)
    (hnak : (frameHead x.header).nak = false) (hseq : seqDiff (frameHead x.header).fseq t.link.rxFseq ≤ 0) :
    t.controlRx p x = { t.rxCrc x with link := t.link.acked (frameHead x.header).ack } := by
  have hreport := Tu.takeReport_of_ack (t := t.rxCrc x) p hnak
  rw [Link.heard, hack, if_pos rfl] at hreport
  simp only [Tu.controlRx, hsound, hlen, if_true]
  rw [if_neg fun h => h hup, if_neg (by decide), if_neg fun h => h hkind, hreport]
  exact if_neg (Int.not_lt.mpr hseq)

theorem Fyster.controlRx_of_report {f : Fyster} {p : Port} {x : RawFrame} (hup : (f.link p.val).st = .up) (hsound : frameSound x = true)
    (hkind : (frameHead x.header).kind = 2) (hlen : (frameHead x.header).plen = 0) (hack : (frameHead x.header).ackValid = true)
    (hnak : (frameHead x.header).nak = false) (hnone : tget f.toTu p.val [] = [])
    (hseq : seqDiff (frameHead x.header).fseq (f.link p.val).rxFseq ≤ 0) :
    (f.controlRx p x).link p.val = (f.link p.val).acked (frameHead x.header).ack ∧ (f.controlRx p x).ring = f.ring ∧
      (f.controlRx p x).part = f.part := by
  obtain ⟨hlink, hpart, hring⟩ := Fyster.takeReport_of_ack (f := f) (p := p) hnak hnone
  rw [Link.heard, hack, if_pos rfl] at hlink
  simp only [Fyster.controlRx, hsound, hlen, if_true]
  rw [if_neg fun h => h hup, if_neg (by decide), if_neg fun h => h hkind, if_neg ?stay]
  case stay =>
    rw [hlink]
    exact Int.not_lt.mpr hseq
  exact ⟨hlink, hring, hpart⟩

/-! ### Replay (R72) -/

theorem Tu.foldl_emit (l : List Out) : ∀ t : Tu, (l.foldl Tu.emit t).out = l.reverse ++ t.out ∧ (l.foldl Tu.emit t).link = t.link ∧
    (l.foldl Tu.emit t).part.obj = t.part.obj := by
  induction l with
  | nil => exact fun _ => ⟨rfl, rfl, rfl⟩
  | cons o l ih =>
    intro t
    obtain ⟨hout, hlink, hobj⟩ := ih (t.emit o)
    rw [Tu.emit_out] at hout
    refine ⟨?_, hlink.trans (Tu.emit_link t o), hobj.trans (Tu.emit_part_obj t o)⟩
    rw [List.foldl_cons, hout, List.reverse_cons, List.append_assoc]
    rfl

theorem Fyster.foldl_emit (l : List Out) : ∀ f : Fyster, l.foldl Fyster.emit f = { f with out := l.reverse ++ f.out } := by
  induction l with
  | nil => exact fun _ => rfl
  | cons o l ih =>
    intro f
    rw [List.foldl_cons, ih, List.reverse_cons, List.append_assoc]
    rfl

/-- The link once every frame that it holds has been sent again. -/
def Link.resent (l : Link) (now : Nat) : Link :=
  { l with
    ackDue := false
    nakDue := false
    replay := l.replay.map fun x => { x with sentAt := now, replays := x.replays + 1 } }

theorem Tu.replay_of_due {t : Tu} {p : Port} (h : t.link.stuck = false) :
    (t.replay p).link = t.link.resent t.part.time.now ∧ (t.replay p).out = (t.link.replay.map (t.link.wire (.tuEnd p))).reverse ++ t.out ∧
      (t.replay p).rd 0x2110 0x12 = raised 0x2110 0x12 (t.rd 0x2110 0x12) t.link.replay.length := by
  have hgo : t.replay p = (((t.link.replay.map (t.link.wire (.tuEnd p))).foldl Tu.emit { t with link := t.link.resent t.part.time.now }).bump
      0x2110 0x12 t.link.replay.length) := by
    simp only [Tu.replay, h]
    rfl
  obtain ⟨hout, hlink, hobj⟩ := Tu.foldl_emit (t.link.replay.map (t.link.wire (.tuEnd p))) { t with link := t.link.resent t.part.time.now }
  rw [hgo]
  refine ⟨hlink, hout, (Part.rd_wr_self _ _ _ _).trans (congrArg (raised 0x2110 0x12 · t.link.replay.length) ?_)⟩
  simp only [Part.rd, hobj]
  rfl

theorem Fyster.replay_of_due {f : Fyster} {p : Port} (h : (f.link p.val).stuck = false) :
    (f.replay p).link p.val = (f.link p.val).resent f.part.time.now ∧
      (f.replay p).rd (0x1140 + p.val) 4 = raised (0x1140 + p.val) 4 (f.rd (0x1140 + p.val) 4) (f.link p.val).replay.length := by
  simp only [Fyster.replay, h, Fyster.foldl_emit]
  exact ⟨Fyster.link_setLink_self _ _ _, Part.rd_wr_self _ _ _ _⟩

/-- Settles O30: a report frees frames and moves no sequence, so an arriving frame stands where it stood; an accepted frame
leaves the sequences of its link. -/
theorem framesAndReplay : Obligations.FramesAndReplay := by
  unfold Obligations.FramesAndReplay
  refine ⟨?tuFrame, ?tuBad, ?sumac, ?frame, ?tuControl, ?control, ?tuReport, ?report, ?tuReplay, ?replay⟩
  case tuFrame =>
    intro s dt p x hup hsound hkind hnak harr
    refine tuNext_of_onEnd rfl ?_
    have hrx := Tu.frameRx_of_inOrder (t := (s.tu p).tick dt) (p := p) hup hsound hkind hnak harr
    have hseq := Tu.seqForm_acceptFrame { ((s.tu p).tick dt).rxCrc x with
      link := (((s.tu p).tick dt).link.heard (frameHead x.header)).accept ((s.tu p).tick dt).part.time.now } (frameHead x.header) x
    have hnext : (((s.tu p).tick dt).link.heard (frameHead x.header)).rxFseq = (s.tu p).link.rxFseq := by
      rw [Link.heard]
      split <;> rfl
    refine ⟨hrx, ?_, ?_⟩
    · refine (congrArg (fun u : Tu => u.link.rxFseq) hrx).trans ((congrArg Prod.fst hseq).trans ?_)
      exact congrArg (fun n => (n + 1) % 65536) hnext
    · exact (congrArg (fun u : Tu => u.link.ackDue) hrx).trans (congrArg Prod.snd hseq)
  case tuBad =>
    intro s dt e p x he hup hbad
    subst he
    exact tuNext_of_onEnd rfl (Tu.frameRx_of_unsound (t := (s.tu p).tick dt) hup hbad)
  case sumac =>
    intro s dt p x hup hsound hkind hfault hnak hnone harr
    exact fyNext_of_onEnd rfl (Fyster.frameRx_of_sumac (f := s.fy.tick dt) hup hsound hkind hfault hnak hnone harr)
  case frame =>
    intro s dt p x hup hsound hkind harr
    exact fyNext_of_onEnd rfl (Fyster.frameRx_of_inOrder (f := s.fy.tick dt) hup hsound hkind harr)
  case tuControl =>
    intro s dt p x hup hsound hkind hlen hack hnak hseq
    exact tuNext_of_onEnd rfl (Tu.controlRx_of_report (t := (s.tu p).tick dt) hup hsound hkind hlen hack hnak hseq)
  case control =>
    intro s dt p x hup hsound hkind hlen hack hnak hnone hseq
    exact fyNext_of_onEnd rfl (Fyster.controlRx_of_report (f := s.fy.tick dt) hup hsound hkind hlen hack hnak hnone hseq)
  case tuReport =>
    intro s dt p hup hdue
    exact tuNext_of_onEnd rfl (if_pos ⟨hup, hdue⟩)
  case report =>
    intro s dt p hup hdue
    exact fyNext_of_onEnd rfl (if_pos ⟨hup, hdue⟩)
  case tuReplay =>
    intro s dt p hdue hstuck
    refine tuNext_of_onEnd rfl ?_
    have hgo : (if ((s.tu p).tick dt).link.replayDue ((s.tu p).tick dt).part.time.now then ((s.tu p).tick dt).replay p else (s.tu p).tick dt) =
      ((s.tu p).tick dt).replay p := if_pos hdue
    rw [hgo]
    exact Tu.replay_of_due (t := (s.tu p).tick dt) hstuck
  case replay =>
    intro s dt p hdue hstuck
    refine fyNext_of_onEnd rfl ?_
    have hgo : (if ((s.fy.tick dt).link p.val).replayDue (s.fy.tick dt).part.time.now then (s.fy.tick dt).replay p else s.fy.tick dt) =
      (s.fy.tick dt).replay p := if_pos hdue
    rw [hgo]
    exact Fyster.replay_of_due (f := s.fy.tick dt) hstuck

end Sys2Proof.Machine
end

section
/-! SUPPORT. Training, loss and restart of a tray link, and discovery (R39, R74, R391, R408 to R412). -/

namespace Sys2Proof.Machine

/-! ### What a TU's link operations leave -/

/-- The link of a TU with what its loss and its return do not concern. -/
def Tu.linkForm (t : Tu) : Link × Mace × Bool := (t.link, t.mace, t.restartSeen)

theorem Tu.linkForm_of_bareRecov {t u : Tu} (h : t.bareRecov = u.bareRecov) : t.linkForm = u.linkForm := (congrArg Tu.linkForm h :)

theorem Tu.linkForm_of_bareBut {t u : Tu} {ks : List Nat} (h : t.bareBut ks = u.bareBut ks) : t.linkForm = u.linkForm :=
  (congrArg Tu.linkForm h :)

theorem Tu.linkForm_holdover (t : Tu) (p : Port) : (t.holdover p).linkForm = t.linkForm := by
  simp only [Tu.holdover]
  split
  · rfl
  · exact (congrArg Tu.linkForm (Tu.bare_servo _ _) :)

theorem Tu.mpds_holdover {t : Tu} (p : Port) (h : t.mpds = []) : (t.holdover p).mpds = [] := by
  simp only [Tu.holdover]
  split
  · exact h
  · exact (congrArg Tu.mpds (Tu.bare_servo _ _) :)

theorem Tu.linkForm_linkDown (t : Tu) (p : Port) : (t.linkDown p).linkForm = t.linkForm := Tu.linkForm_holdover t p

theorem Tu.bare_loseRecs (recs : List Rec) (t : Tu) : (recs.foldl (fun t r => t.lose (activityOf r.type) 8 [r]) t).bare = t.bare :=
  Tu.bare_foldl (ks := []) (fun (t : Tu) (r : Rec) => t.lose (activityOf r.type) 8 [r]) (fun t r => Tu.bare_lose t _ 8 [r]) recs t

theorem Tu.bare_loseFrames (t : Tu) (l : List TxFrame) : (t.loseFrames l).bare = t.bare := by
  simp only [Tu.loseFrames]
  refine Tu.bare_foldl (ks := []) _ (fun t x => ?_) l t
  split
  · rfl
  · exact Tu.bare_loseRecs _ t

/-! ### STATUS (R74) -/

theorem Tu.takeStatus_of_ack {t : Tu} {m : StatusMsg} (h : m.restart = false) :
    t.takeStatus m = { t with link := { t.link with
      partnerMap := BitVec.ofNat 8 m.laneMap
      replay := t.link.replay.filter fun y => decide (0 < seqDiff y.fseq ((m.next + 65535) % 65536)) } } := by
  simp only [Tu.takeStatus, h]
  rfl

/-- The link of an end whose partner reports that it was reset. -/
def Link.restarted (l : Link) (m : StatusMsg) : Link :=
  { l with
    partnerMap := BitVec.ofNat 8 m.laneMap
    rxFseq := 0
    replay := []
    txFseq := 0
    nakSent := false
    nakDue := false
    ackDue := false }

theorem Tu.takeStatus_of_restart {t : Tu} {m : StatusMsg} (h : m.restart = true) :
    (t.takeStatus m).linkForm = (t.link.restarted m, t.mace, true) := by
  simp only [Tu.takeStatus, h, if_true]
  exact Tu.linkForm_of_bareBut (Tu.bare_loseFrames _ _)

theorem Fyster.takeStatus_of_ack {f : Fyster} {p : Port} {m : StatusMsg} (h : m.restart = false) :
    f.takeStatus p m = (f.setLink p.val { f.link p.val with partnerMap := BitVec.ofNat 8 m.laneMap }).takeAck p (seqBefore m.next) := by
  simp only [Fyster.takeStatus, h]
  rfl

/-! ### Loss of the link and retraining (R72, R400, R411, R412) -/

theorem Tu.mpds_linkDown (t : Tu) (p : Port) : (t.linkDown p).mpds = [] := rfl

theorem Tu.lost_of_up {t : Tu} (p : Port) :
    ((({ t with link := t.link.retrain }).linkDown p).recovStart 1).linkForm = (t.link.retrain, t.mace, t.restartSeen) ∧
      ((({ t with link := t.link.retrain }).linkDown p).recovStart 1).mpds = [] ∧
      ((({ t with link := t.link.retrain }).linkDown p).recovStart 1).treq = none := by
  have hrecov := Tu.bareRecov_recovStart (({ t with link := t.link.retrain }).linkDown p) 1
  exact ⟨(Tu.linkForm_of_bareRecov hrecov).trans (Tu.linkForm_linkDown _ _), (congrArg Tu.mpds hrecov :), (congrArg Tu.treq hrecov :)⟩

theorem Tu.askRetrain_of_up {t : Tu} (p : Port) (hup : t.link.st = .up) :
    (t.askRetrain p).link = { t.link with st := .retraining, swapSince := none } ∧ (t.askRetrain p).mpds = [] := by
  simp only [Tu.askRetrain]
  rw [if_neg fun h => h hup]
  refine ⟨(congrArg Prod.fst (Tu.linkForm_linkDown _ _)).trans ?_, rfl⟩
  exact Tu.emit_link _ _

theorem Fyster.links_linkDown (f : Fyster) (p : Nat) : (f.linkDown p).links = f.links ∧ (f.linkDown p).part = f.part := by
  simp only [Fyster.linkDown]
  split <;> exact ⟨rfl, rfl⟩

theorem Fyster.nodes_linkDown (f : Fyster) (p : Nat) :
    tget (f.linkDown p).nodes p 0 = if tget f.nodes p 0 = 2 then 1 else tget f.nodes p 0 := by
  simp only [Fyster.linkDown]
  split
  next h => rw [tget_tset_self]
  next h => rfl

theorem Fyster.askRetrain_of_up {f : Fyster} {p : Port} (hup : (f.link p.val).st = .up) :
    (f.askRetrain p).link p.val = { f.link p.val with st := .retraining, swapSince := none } ∧
      (f.askRetrain p).rd (0x1140 + p.val) 0x0A = raised (0x1140 + p.val) 0x0A (f.rd (0x1140 + p.val) 0x0A) 1 := by
  simp only [Fyster.askRetrain]
  rw [if_neg fun h => h hup]
  obtain ⟨hlinks, hpart⟩ := Fyster.links_linkDown ((f.setLink p.val { f.link p.val with st := .retraining, swapSince := none }).emit
    (.tos (.fysterEnd p) ((f.link p.val).status false true))) p.val
  refine ⟨(congrArg (fun l => tget l p.val Link.reset) hlinks :).trans (Fyster.link_setLink_self _ _ _), ?_⟩
  exact (Part.rd_wr_self _ _ _ _).trans (congrArg (fun q : Part => raised (0x1140 + p.val) 0x0A (q.rd (0x1140 + p.val) 0x0A) 1) hpart)

/-! ### The end of a training at a TU (R410) -/

/-- The lanes of a link that has come up, and no exchange of the time before. -/
def Tu.upForm (t : Tu) : LinkState × BitVec 8 × Option Int × Bool × Option Nat :=
  (t.link.st, t.link.laneMap, t.link.skew, t.link.restart, t.link.failedAt)

theorem Tu.upForm_of_linkForm {t u : Tu} (h : t.linkForm = u.linkForm) : t.upForm = u.upForm :=
  (congrArg (fun x => (x.1.st, x.1.laneMap, x.1.skew, x.1.restart, x.1.failedAt)) h :)

theorem Tu.upForm_takeStatus (t : Tu) (m : StatusMsg) : (t.takeStatus m).upForm = t.upForm ∧ (t.takeStatus m).mpds = t.mpds := by
  cases h : m.restart with
  | false =>
    rw [Tu.takeStatus_of_ack h]
    exact ⟨rfl, rfl⟩
  | true =>
    refine ⟨(congrArg (fun x => (x.1.st, x.1.laneMap, x.1.skew, x.1.restart, x.1.failedAt)) (Tu.takeStatus_of_restart h) :), ?_⟩
    simp only [Tu.takeStatus, h, if_true]
    exact (congrArg Tu.mpds (Tu.bare_loseFrames _ _) :)

/-- The end of a training at a TU: the link is up on lanes `m`, and no exchange of the time before is kept. -/
def Tu.upOn (m : BitVec 8) (skew : Option Int) (t : Tu) : Prop := t.upForm = (.up, m, skew, false, none) ∧ t.mpds = []

section
variable {m : BitVec 8} {skew : Option Int}

theorem Tu.upOn_of_bareRecov {t u : Tu} (h : t.bareRecov = u.bareRecov) (hu : u.upOn m skew) : t.upOn m skew :=
  ⟨(Tu.upForm_of_linkForm (Tu.linkForm_of_bareRecov h)).trans hu.1, (congrArg Tu.mpds h :).trans hu.2⟩

theorem Tu.upOn_holdover {t : Tu} (p : Port) (h : t.upOn m skew) : (t.holdover p).upOn m skew :=
  ⟨(Tu.upForm_of_linkForm (Tu.linkForm_holdover t p)).trans h.1, Tu.mpds_holdover p h.2⟩

theorem Tu.upOn_moveLane0 {t : Tu} (p : Port) (d : Option Int) (h : t.upOn m skew) : (t.moveLane0 p d).upOn m skew := by
  cases d with
  | some d =>
    refine Tu.upOn_of_bareRecov (u := { t with asym := t.asym + d }) (Tu.bareRecov_of_bare ?_) h
    exact Tu.bare_timeRec _ _ _ _ _ _
  | none => exact Tu.upOn_holdover p (Tu.upOn_of_bareRecov (u := t) (Tu.bareRecov_of_bare (Tu.bare_timeRec _ _ _ _ _ _)) h)

theorem Tu.upOn_resumeReplay {t : Tu} (p : Port) (h : t.upOn m skew) : (t.resumeReplay p).upOn m skew := by
  simp only [Tu.resumeReplay]
  split
  · exact h
  · generalize hu : ({ t with link := (t.link.resend (.tuEnd p) t.part.time.now).1 } : Tu) = u
    have hup : u.upOn m skew := hu ▸ h
    have hlink := foldl_keeps Tu.link Tu.emit Tu.emit_link (t.link.resend (.tuEnd p) t.part.time.now).2.1 u
    have hmpds := foldl_keeps Tu.mpds Tu.emit Tu.emit_mpds (t.link.resend (.tuEnd p) t.part.time.now).2.1 u
    exact ⟨(congrArg (fun l : Link => (l.st, l.laneMap, l.skew, l.restart, l.failedAt)) hlink :).trans hup.1, hmpds.trans hup.2⟩

theorem Tu.trainingDone_of_lanes {t : Tu} {p : Port} {r : TrainResult} (hdown : t.link.st ≠ .up) (hpower : t.powered = true)
    (hgood : r.status.good 5 = true) (hlanes : laneAssign r.healthy t.link.retired = some m) : (t.trainingDone p r).upOn m r.skew := by
  have hstart : ¬(t.link.st = .up ∨ t.powered = false) := by simp [hdown, hpower]
  simp only [Tu.trainingDone, hgood, hlanes]
  rw [if_neg hstart, if_neg (by decide)]
  refine Tu.upOn_of_bareRecov (Tu.bareRecov_recovDone _ _) (Tu.upOn_resumeReplay p ?_)
  generalize hu : ({ t.emit (.tos (.tuEnd p) (mkStatus 1 t.link.restart false t.link.rxFseq m.toNat r.skew)) with
    link := t.link.trained m r.skew, mpds := [], treq := none } : Tu) = u
  have hup : u.upOn m r.skew := hu ▸ ⟨rfl, rfl⟩
  obtain ⟨hform, hmpds⟩ := u.upForm_takeStatus (statusMsg r.status)
  have hstatus : (u.takeStatus (statusMsg r.status)).upOn m r.skew := ⟨hform.trans hup.1, hmpds.trans hup.2⟩
  generalize u.takeStatus (statusMsg r.status) = v at hstatus
  have hspare : ((v.bump 0x2D00 5 1).log (event 0x0010 224 224 224)).upOn m r.skew :=
    Tu.upOn_of_bareRecov (u := v.bump 0x2D00 5 1) (Tu.bareRecov_of_bare (Tu.bare_log _ _)) hstatus
  split
  · refine Tu.upOn_moveLane0 p _ ?_
    split
    · exact hspare
    · exact hstatus
  · split
    · exact hspare
    · exact hstatus

end

/-! ### The end of a training at Fyster (R391, R410) -/

/-- What sending to a TU leaves of the TU's link. -/
def Link.lanes (l : Link) : LinkState × BitVec 8 × Option Int := (l.st, l.laneMap, l.skew)

theorem Link.lanes_drainTo (e : End) (now n : Nat) : ∀ (l : Link) (ws : List Rec), (drainTo e now n l ws).1.lanes = l.lanes := by
  induction n with
  | zero => exact fun _ _ => rfl
  | succ n ih =>
    intro l ws
    cases ws with
    | nil => rfl
    | cons r ws =>
      simp only [drainTo]
      split
      · exact (ih _ _).trans rfl
      · rfl

/-- The lanes of a port with the nodes and the die IDs. -/
def Fyster.nodeForm (p : Nat) (f : Fyster) : (LinkState × BitVec 8 × Option Int) × Tab Nat × Nat :=
  ((f.link p).lanes, f.nodes, f.rd 0x1010 (p + 1))

theorem Fyster.nodeForm_drainTu (f : Fyster) (p : Port) : (f.drainTu p).nodeForm p.val = f.nodeForm p.val := by
  simp only [Fyster.drainTu, Fyster.foldl_emit]
  refine Prod.ext ?_ rfl
  exact (congrArg Link.lanes (Fyster.link_setLink_self f p.val _)).trans (Link.lanes_drainTo _ _ _ _ _)

theorem Fyster.nodeForm_resumeReplay (f : Fyster) (p : Port) : (f.resumeReplay p).nodeForm p.val = f.nodeForm p.val := by
  simp only [Fyster.resumeReplay]
  split
  · exact f.nodeForm_drainTu p
  · refine (Fyster.nodeForm_drainTu _ p).trans ?_
    rw [Fyster.foldl_emit]
    have hp := p.isLt
    refine Prod.ext ?_ (congrArg (Prod.mk f.nodes) (Part.rd_bump_other _ _ (by simp only [objKey]; omega)))
    exact (congrArg Link.lanes (Fyster.link_setLink_self f p.val ((f.link p.val).resend (.fysterEnd p) f.part.time.now).1) :)

theorem Fyster.nodeForm_of_unsaid {f g : Fyster} {p : Nat} (hp : p < 32) (h : f.unsaid = g.unsaid) : f.nodeForm p = g.nodeForm p := by
  refine Prod.ext (congrArg (fun u : Fyster => (u.link p).lanes) h :) (Prod.ext (congrArg Fyster.nodes h :) ?_)
  exact Fyster.rd_of_unsaid h (by simp [fyReportKeys, noticeKeys, objKey]; omega)

theorem Fyster.nodeForm_swapped (f : Fyster) {p : Nat} (hp : p < 32) (unit : Nat) (e : Event) :
    (((f.bump 0x7000 5 1).log e).wearNotice f.dieVal unit unit f.ns false).nodeForm p = f.nodeForm p := by
  refine (Fyster.nodeForm_of_unsaid hp ((Fyster.unsaid_wearNotice _ _ _ _ _ _).trans (Fyster.unsaid_log _ e))).trans ?_
  refine Prod.ext rfl (congrArg (Prod.mk f.nodes) ?_)
  exact Part.rd_bump_other _ _ (by simp only [objKey]; omega)

theorem Fyster.discovers_of_id {f : Fyster} {p : Nat} (h : f.rd 0x1010 (p + 1) ≠ 0xFFFFFFFF) :
    f.discovers p = ({ f.wr 0x1030 7 (setBit (f.rd 0x1030 7) p false) with nodes := tset f.nodes p 2 } : Fyster).recovDone 2 := if_neg h

theorem Fyster.discovers_spec {f : Fyster} {p : Nat} (hp : p < 32) (h : f.rd 0x1010 (p + 1) ≠ 0xFFFFFFFF) :
    (f.discovers p).links = f.links ∧ tget (f.discovers p).nodes p 0 = 2 ∧ (f.discovers p).rd 0x1010 (p + 1) = f.rd 0x1010 (p + 1) ∧
      (f.discovers p).rd 0x1030 7 = setBit (f.rd 0x1030 7) p false := by
  rw [Fyster.discovers_of_id h]
  generalize hu : ({ f.wr 0x1030 7 (setBit (f.rd 0x1030 7) p false) with nodes := tset f.nodes p 2 } : Fyster) = u
  have hdone : (u.recovDone 2).links = u.links ∧ (u.recovDone 2).nodes = u.nodes ∧ (u.recovDone 2).part.obj = u.part.obj := by
    simp only [Fyster.recovDone]
    split <;> exact ⟨rfl, rfl, rfl⟩
  obtain ⟨hlinks, hnodes, hobj⟩ := hdone
  have hrd : ∀ i j, (u.recovDone 2).rd i j = u.rd i j := fun i j => by
    simp only [Fyster.rd, Part.rd, hobj]
  rw [hlinks, hnodes, hrd, hrd, ← hu]
  exact ⟨rfl, tget_tset_self _ _ _ _, Part.rd_wr_other _ _ (by simp only [objKey]; omega), Part.rd_wr_self _ _ _ _⟩

theorem Fyster.trainingDone_of_lanes {f : Fyster} {p : Port} {r : TrainResult} {m : BitVec 8} (hdown : (f.link p.val).st ≠ .up)
    (hrun : f.boot.running = true) (hhbm : f.boot.hbm = true) (hgood : r.status.good 5 = true) (hrestart : (statusMsg r.status).restart = false)
    (hlanes : laneAssign r.healthy (f.link p.val).retired = some m) (hid : f.rd 0x1010 (p.val + 1) ≠ 0xFFFFFFFF) :
    ((f.trainingDone p r).link p.val).lanes = (.up, m, r.skew) ∧ tget (f.trainingDone p r).nodes p.val 0 = 2 := by
  have hstart : ¬((f.link p.val).st = .up ∨ f.boot.running = false ∨ f.boot.hbm = false) := by simp [hdown, hrun, hhbm]
  simp only [Fyster.trainingDone, hgood, hlanes]
  rw [if_neg hstart, if_neg (by decide)]
  generalize hu : (f.emit (.tos (.fysterEnd p) (mkStatus 1 (f.link p.val).restart false (f.link p.val).rxFseq m.toNat r.skew))).takeStatus p
    (statusMsg r.status) = u
  generalize hv : u.setLink p.val ((u.link p.val).trained m r.skew) = v
  have huform : (u.nodes, u.rd 0x1010 (p.val + 1)) = (f.nodes, f.rd 0x1010 (p.val + 1)) := by
    rw [← hu, Fyster.takeStatus_of_ack hrestart, Fyster.takeAck]
    exact (congrArg Prod.snd (Fyster.nodeForm_drainTu _ p)).trans rfl
  have hvform : v.nodeForm p.val = ((.up, m, r.skew), f.nodes, f.rd 0x1010 (p.val + 1)) := by
    rw [← hv, ← huform]
    exact Prod.ext (congrArg Link.lanes (Fyster.link_setLink_self u p.val _)) rfl
  have hspare := fun unit e => (v.nodeForm_swapped p.isLt unit e).trans hvform
  have hnext : ∀ w : Fyster, w.nodeForm p.val = ((.up, m, r.skew), f.nodes, f.rd 0x1010 (p.val + 1)) →
      ((((w.discovers p.val).resumeReplay p).recovDone 1).link p.val).lanes = (.up, m, r.skew) ∧
        tget (((w.discovers p.val).resumeReplay p).recovDone 1).nodes p.val 0 = 2 := by
    intro w hw
    obtain ⟨hlinks, hnodes, _, _⟩ := Fyster.discovers_spec (f := w) p.isLt (by
      rw [show w.rd 0x1010 (p.val + 1) = f.rd 0x1010 (p.val + 1) from congrArg (fun x => x.2.2) hw]
      exact hid)
    have hdone := congrArg (fun u : Fyster => ((u.link p.val).lanes, u.nodes)) (Fyster.bareRecov_recovDone ((w.discovers p.val).resumeReplay p) 1)
    have hresume := congrArg (fun x => (x.1, x.2.1)) (Fyster.nodeForm_resumeReplay (w.discovers p.val) p)
    refine ⟨(congrArg Prod.fst hdone :).trans ((congrArg Prod.fst hresume :).trans ?_), ?_⟩
    · exact (congrArg (fun l => (tget l p.val Link.reset).lanes) hlinks :).trans (congrArg Prod.fst hw :)
    · exact (congrArg (fun x => tget x.2 p.val 0) hdone :).trans ((congrArg (fun x => tget x.2 p.val 0) hresume :).trans hnodes)
  split
  · exact hnext _ (hspare _ _)
  · exact hnext _ hvform

/-! ### Discovery (R391) -/

theorem Tu.discovered_discover (t : Tu) (die asym : Nat) (trims : List Nat) (p : Nat) : (t.discover die asym trims p).discovered = true := by
  simp only [Tu.discover]
  split
  next h => exact h
  next => rfl

theorem Fyster.discovered_pushTo {f : Fyster} {p : Nat} (t : Tu) (h : tget f.nodes p 0 = 2) : (f.pushTo p t).discovered = true := by
  rw [Fyster.pushTo, if_pos h]
  exact Tu.discovered_discover _ _ _ _ _

theorem bitOf_setBit_false (v i : Nat) : bitOf (setBit v i false) i = false := by
  rw [setBit]
  by_cases h : bitOf v i = true
  · rw [if_pos h, if_neg (by decide)]
    simp only [bitOf, beq_iff_eq] at h
    have hdiv : (v - 2 ^ i) / 2 ^ i = v / 2 ^ i - 1 := by
      have := Nat.sub_mul_div v (2 ^ i) 1
      rwa [Nat.mul_one] at this
    simp only [bitOf, hdiv, beq_eq_false_iff_ne]
    omega
  · rw [if_neg h, if_neg (by decide)]
    exact Bool.not_eq_true _ ▸ h

theorem Fyster.pending_wrDieId (f : Fyster) {p : Nat} (hp : p < 32) (v : Nat) : (f.wr 0x1010 (p + 1) v).rd 0x1030 7 = f.rd 0x1030 7 :=
  Part.rd_wr_other _ _ (by simp only [objKey]; omega)

theorem Fyster.wrPortDieId_of_pending {f : Fyster} {p v : Nat} (hp : p < 32) (hbit : bitOf (f.rd 0x1030 7) p = true)
    (hup : (f.link p).st = .up) : f.wrPortDieId p v = ((f.wr 0x1010 (p + 1) v).discovers p, 0) := by
  have hgo : (bitOf ((f.wr 0x1010 (p + 1) v).rd 0x1030 7) p && ((f.wr 0x1010 (p + 1) v).link p).st == .up) = true := by
    rw [f.pending_wrDieId hp, hbit, show ((f.wr 0x1010 (p + 1) v).link p).st = .up from hup]
    rfl
  simp only [Fyster.wrPortDieId, hgo, if_true]

theorem Fyster.wrPortDieId_of_kept {f : Fyster} {p : Nat} (v : Nat) (hp : p < 32) (hbit : bitOf (f.rd 0x1030 7) p = false) :
    f.wrPortDieId p v = (f.wr 0x1010 (p + 1) v, 0) := by
  have hstay : (bitOf ((f.wr 0x1010 (p + 1) v).rd 0x1030 7) p && ((f.wr 0x1010 (p + 1) v).link p).st == .up) = false := by
    rw [f.pending_wrDieId hp, hbit, Bool.false_and]
  simp only [Fyster.wrPortDieId, hstay, Bool.false_eq_true, if_false]

/-! ### The commands of Fyster that reach a TU -/

theorem execTlTrainingDone_of_came {s : State} {dt : Nat} {p : Port} {r : TrainResult} (hdown : (s.fy.link p.val).st ≠ .up)
    (hup : (((s.fy.tick dt).trainingDone p r).link p.val).st = .up) :
    ∃ t, execTlTrainingDone dt (.fysterEnd p) r s = .next (({ s with fy := (s.fy.tick dt).trainingDone p r } : State).setTu p
      (((s.fy.tick dt).trainingDone p r).pushTo p.val t)) := by
  have hcame : (((s.fy.tick dt).link p.val).st != .up && (((s.fy.tick dt).trainingDone p r).link p.val).st == .up) = true := by
    have hdown' : (((s.fy.tick dt).link p.val).st != .up) = true := bne_iff_ne.mpr hdown
    rw [hup, hdown']
    rfl
  simp only [execTlTrainingDone, hcame, if_true]
  exact ⟨_, rfl⟩

theorem execPortDieIdWrite_eq (s : State) (dt : Nat) (p : Port) (lvl : Level) (v : BitVec 32) :
    execPortDieIdWrite dt p lvl v s = .next
      (if tget (s.fy.tick dt).nodes p.val 0 != 2 &&
          tget ((s.fy.tick dt).reply lvl 2 ((s.fy.tick dt).wrPortDieId p.val v.toNat)).nodes p.val 0 == 2 then
        ({ s with fy := (s.fy.tick dt).reply lvl 2 ((s.fy.tick dt).wrPortDieId p.val v.toNat) } : State).setTu p
          (((s.fy.tick dt).reply lvl 2 ((s.fy.tick dt).wrPortDieId p.val v.toNat)).pushTo p.val (s.tu p))
      else { s with fy := (s.fy.tick dt).reply lvl 2 ((s.fy.tick dt).wrPortDieId p.val v.toNat) }) := rfl

/-- Settles O31: STATUS and the loss of a link change the link that they name; a training that finds its lanes keeps them through
all that follows it. -/
theorem linkTraining : Obligations.LinkTraining := by
  unfold Obligations.LinkTraining
  refine ⟨?tuStatus, ?tuRestart, ?status, ?tuTimer, ?timer, ?tuLoss, ?loss, ?tuFailed, ?failed, ?tuAttempt, ?attempt, ?tuRetrain, ?retrain,
    ?tuSwap, ?swap, ?tuLate, ?late, ?tuDone, ?done, ?dieId, ?dieIdKept⟩
  case tuStatus =>
    intro s dt p x hgood hrestart hretrain
    refine tuNext_of_onEnd rfl ?_
    rw [hgood, hretrain, Tu.takeStatus_of_ack hrestart]
    rfl
  case tuRestart =>
    intro s dt p x hgood hrestart hretrain
    refine tuNext_of_onEnd rfl ?_
    have hform := Tu.takeStatus_of_restart (t := (s.tu p).tick dt) hrestart
    rw [hgood, hretrain]
    exact ⟨(congrArg Prod.fst hform :), (congrArg (fun x => x.2.2) hform :), (congrArg (fun x => x.2.1) hform :)⟩
  case status =>
    intro s dt p x hgood hrestart hretrain hnone
    refine fyNext_of_onEnd rfl ?_
    have htake := Fyster.takeAck_of_none (f := (s.fy.tick dt).setLink p.val { s.fy.link p.val with
      partnerMap := BitVec.ofNat 8 (statusMsg x).laneMap }) (p := p) (seqBefore (statusMsg x).next) hnone
    rw [hgood, hretrain, Fyster.takeStatus_of_ack hrestart]
    refine ⟨(congrArg (fun f : Fyster => f.link p.val) htake :).trans ?_, (congrArg Fyster.part htake :), (congrArg Fyster.ring htake :)⟩
    refine (Fyster.link_setLink_self _ _ _).trans ?_
    rw [Fyster.link_setLink_self]
    rfl
  case tuTimer =>
    intro s dt p hup
    refine tuNext_of_onEnd rfl ?_
    have hstatus : ((s.tu p).tick dt).link.status false false =
        mkStatus 2 false false ((s.tu p).tick dt).link.rxFseq ((s.tu p).tick dt).link.laneMap.toNat ((s.tu p).tick dt).link.skew := by
      rw [Link.status, show ((s.tu p).tick dt).link.st = .up from hup]
      rfl
    rw [← hstatus]
    exact if_pos hup
  case timer =>
    intro s dt p hup
    refine fyNext_of_onEnd rfl ?_
    have hstatus : ((s.fy.tick dt).link p.val).status false false =
        mkStatus 2 false false ((s.fy.tick dt).link p.val).rxFseq ((s.fy.tick dt).link p.val).laneMap.toNat ((s.fy.tick dt).link p.val).skew := by
      rw [Link.status, show ((s.fy.tick dt).link p.val).st = .up from hup]
      rfl
    rw [← hstatus]
    exact if_pos hup
  case tuLoss =>
    intro s dt p hup
    refine tuNext_of_onEnd rfl ?_
    obtain ⟨hform, hmpds, htreq⟩ := Tu.lost_of_up (t := (s.tu p).tick dt) p
    rw [if_pos (show ((s.tu p).tick dt).link.st = .up from hup)]
    exact ⟨congrArg Prod.fst hform, hmpds, htreq, congrArg (fun x => x.2.1) hform⟩
  case loss =>
    intro s dt p hup
    refine fyNext_of_onEnd rfl ?_
    rw [if_pos (show ((s.fy.tick dt).link p.val).st = .up from hup)]
    have hrecov := Fyster.bareRecov_recovStart (((s.fy.tick dt).setLink p.val ((s.fy.tick dt).link p.val).retrain).linkDown p.val) 1
    obtain ⟨hlinks, _⟩ := Fyster.links_linkDown ((s.fy.tick dt).setLink p.val ((s.fy.tick dt).link p.val).retrain) p.val
    refine ⟨(congrArg (fun f : Fyster => f.link p.val) hrecov :).trans ?_, (congrArg (fun f : Fyster => tget f.nodes p.val 0) hrecov :).trans ?_⟩
    · exact (congrArg (fun l => tget l p.val Link.reset) hlinks :).trans (Fyster.link_setLink_self _ _ _)
    · exact Fyster.nodes_linkDown _ _
  case tuFailed =>
    intro s dt p hdown
    refine tuNext_of_onEnd rfl ?_
    simp only [Link.failed, if_neg (show ¬((s.tu p).tick dt).link.st = .up from hdown)]
  case failed =>
    intro s dt p hdown
    refine fyNext_of_onEnd rfl ?_
    simp only [Link.failed, if_neg (show ¬((s.fy.tick dt).link p.val).st = .up from hdown)]
  case tuAttempt =>
    intro s dt p a hdown hfailed hlate
    refine tuNext_of_onEnd rfl ?_
    simp only [Link.attempt, show ((s.tu p).tick dt).link.failedAt = some a from hfailed]
    rw [if_pos ⟨hdown, hlate⟩]
  case attempt =>
    intro s dt p a hdown hfailed hlate
    refine fyNext_of_onEnd rfl ?_
    simp only [Link.attempt, show ((s.fy.tick dt).link p.val).failedAt = some a from hfailed]
    rw [if_pos ⟨hdown, hlate⟩]
  case tuRetrain =>
    intro s dt p lvl hlvl hup
    refine tuNext_of_onEnd rfl ?_
    obtain ⟨hlink, hmpds⟩ := Tu.askRetrain_of_up (t := (s.tu p).tick dt) p hup
    have hwr : ((s.tu p).tick dt).wrTlRetrain p (1 : Byte).toNat = (((s.tu p).tick dt).askRetrain p, 0) := rfl
    rw [hwr, Tu.reply_accepted hlvl]
    exact ⟨hlink, rfl, hmpds⟩
  case retrain =>
    intro s dt p lvl hlvl hup
    refine fyNext_of_onEnd rfl ?_
    obtain ⟨hlink, hrd⟩ := Fyster.askRetrain_of_up (f := s.fy.tick dt) (p := p) hup
    have hwr : (s.fy.tick dt).wrTlRetrain p (1 : Byte).toNat = ((s.fy.tick dt).askRetrain p, 0) := rfl
    rw [hwr, Fyster.reply_accepted hlvl]
    exact ⟨hlink, rfl, hrd⟩
  case tuSwap =>
    intro s dt p hquiet
    refine tuNext_of_onEnd rfl ?_
    have hup : (s.tu p).link.st = .up := by
      simp only [Link.quiesced, Bool.and_eq_true, beq_iff_eq] at hquiet
      exact hquiet.1.1.2
    rw [if_pos (show ((s.tu p).tick dt).link.quiesced = true from hquiet)]
    exact ⟨rfl, (Tu.askRetrain_of_up (t := (s.tu p).tick dt) p hup).1⟩
  case swap =>
    intro s dt p hquiet
    refine fyNext_of_onEnd rfl ?_
    have hup : (s.fy.link p.val).st = .up := by
      simp only [Link.quiesced, Bool.and_eq_true, beq_iff_eq] at hquiet
      exact hquiet.1.1.2
    rw [if_pos (show ((s.fy.tick dt).link p.val).quiesced = true from hquiet)]
    exact ⟨rfl, (Fyster.askRetrain_of_up (f := s.fy.tick dt) (p := p) hup).1⟩
  case tuLate =>
    intro s dt p hlate
    refine tuNext_of_onEnd rfl ?_
    have hup : (s.tu p).link.st = .up := by
      simp only [Link.swapLate, Bool.and_eq_true, beq_iff_eq] at hlate
      exact hlate.1
    rw [if_pos (show ((s.tu p).tick dt).link.swapLate ((s.tu p).tick dt).part.time.now = true from hlate)]
    exact ⟨rfl, (Tu.askRetrain_of_up (t := (s.tu p).tick dt) p hup).1⟩
  case late =>
    intro s dt p hlate
    refine fyNext_of_onEnd rfl ?_
    have hup : (s.fy.link p.val).st = .up := by
      simp only [Link.swapLate, Bool.and_eq_true, beq_iff_eq] at hlate
      exact hlate.1
    rw [if_pos (show ((s.fy.tick dt).link p.val).swapLate (s.fy.tick dt).part.time.now = true from hlate)]
    exact ⟨rfl, (Fyster.askRetrain_of_up (f := s.fy.tick dt) (p := p) hup).1⟩
  case tuDone =>
    intro s dt p r m hdown hpower hgood hlanes
    refine tuNext_of_onTu rfl ?_
    obtain ⟨hform, hmpds⟩ := Tu.trainingDone_of_lanes (t := (s.tu p).tick dt) (p := p) hdown hpower hgood hlanes
    simp only [Tu.upForm, Prod.mk.injEq] at hform
    obtain ⟨hst, hmap, hskew, hrestart, hfailed⟩ := hform
    exact ⟨hst, hmap, hskew, hrestart, hfailed, hmpds⟩
  case done =>
    intro s dt p r m hdown hrun hhbm hgood hrestart hlanes hid
    obtain ⟨hform, hnodes⟩ := Fyster.trainingDone_of_lanes (f := s.fy.tick dt) (p := p) hdown hrun hhbm hgood hrestart hlanes hid
    simp only [Link.lanes, Prod.mk.injEq] at hform
    obtain ⟨hst, hmap, hskew⟩ := hform
    obtain ⟨t, ht⟩ := execTlTrainingDone_of_came (r := r) hdown hst
    refine ⟨_, ht, hst, hmap, hskew, hnodes, ?_, rfl⟩
    rw [State.tu_setTu_self]
    exact Fyster.discovered_pushTo t hnodes
  case dieId =>
    intro s dt p lvl v hlvl hbit hup hnode hv
    have hwr := Fyster.wrPortDieId_of_pending (f := s.fy.tick dt) (v := v.toNat) p.isLt hbit hup
    have hid : ((s.fy.tick dt).wr 0x1010 (p.val + 1) v.toNat).rd 0x1010 (p.val + 1) = v.toNat := Part.rd_wr_self _ _ _ _
    obtain ⟨hlinks, hnodes, hdie, hpending⟩ := Fyster.discovers_spec (f := (s.fy.tick dt).wr 0x1010 (p.val + 1) v.toNat) p.isLt (by rwa [hid])
    have hreply : (s.fy.tick dt).reply lvl 2 ((s.fy.tick dt).wrPortDieId p.val v.toNat) =
        (((s.fy.tick dt).wr 0x1010 (p.val + 1) v.toNat).discovers p.val).emit (.answer 0) := by
      rw [hwr]
      exact Fyster.reply_accepted hlvl
    have hexec := execPortDieIdWrite_eq s dt p lvl v
    rw [hreply, if_pos ?push] at hexec
    case push =>
      simp only [Bool.and_eq_true, bne_iff_ne, beq_iff_eq]
      exact ⟨hnode, hnodes⟩
    refine ⟨_, hexec, hdie.trans hid, hnodes, ?_, ?_, hlinks⟩
    · refine (congrArg (bitOf · p.val) hpending).trans ?_
      exact bitOf_setBit_false _ _
    · rw [State.tu_setTu_self]
      exact Fyster.discovered_pushTo _ hnodes
  case dieIdKept =>
    intro s dt p lvl v hlvl hbit
    have hwr := Fyster.wrPortDieId_of_kept (f := s.fy.tick dt) v.toNat p.isLt hbit
    have hreply : (s.fy.tick dt).reply lvl 2 ((s.fy.tick dt).wrPortDieId p.val v.toNat) =
        ((s.fy.tick dt).wr 0x1010 (p.val + 1) v.toNat).emit (.answer 0) := by
      rw [hwr]
      exact Fyster.reply_accepted hlvl
    have hexec := execPortDieIdWrite_eq s dt p lvl v
    rw [hreply, if_neg ?stay] at hexec
    case stay =>
      simp only [Bool.and_eq_true, bne_iff_ne, beq_iff_eq]
      exact fun h => h.1 h.2
    exact ⟨_, hexec, rfl⟩

end Sys2Proof.Machine
end

section
/-! SUPPORT. Out-of-band and hall-fabric ports, loss reports, and CRC units (R32, R77, R78, R82, R390, R400, R413, R440). -/

namespace Sys2Proof.Machine

/-! ### What the choice of a master leaves -/

/-- Fyster's links, ring and one of its objects. -/
def Fyster.portForm (i j : Nat) (f : Fyster) : Tab Link × Nat := (f.links, f.rd i j)

theorem Fyster.portForm_of_bareRecov {i j : Nat} {f g : Fyster} (hkey : fyReportKeys.contains (objKey i j) = false)
    (h : f.bareRecov = g.bareRecov) : f.portForm i j = g.portForm i j := by
  refine Prod.ext (congrArg Fyster.links h :) ?_
  refine Fyster.rd_of_bareBut (f := { f with part := { f.part with recov := [] } }) (g := { g with part := { g.part with recov := [] } })
    (ks := []) h ?_
  rw [List.append_nil]
  exact hkey

section
variable {i j : Nat} (hkey : fyReportKeys.contains (objKey i j) = false)
include hkey

theorem Fyster.portForm_log (f : Fyster) (e : Event) : (f.log e).portForm i j = f.portForm i j :=
  Fyster.portForm_of_bareRecov hkey (Fyster.bareRecov_of_bare (Fyster.bare_log f e))

theorem Fyster.portForm_timeRec (f : Fyster) (ev port : Nat) (offs : Int) (g : Nat) (late unc : Bool) :
    (f.timeRec ev port offs g late unc).portForm i j = f.portForm i j :=
  Fyster.portForm_of_bareRecov hkey (Fyster.bareRecov_of_bare (Fyster.bare_timeRec f ev port offs g late unc))

theorem Fyster.portForm_servo (f : Fyster) (o : ServoOut) : (f.servo o).portForm i j = f.portForm i j :=
  Fyster.portForm_of_bareRecov (f := { f.servo o with dec := f.dec }) (g := { f.setTime o.tm with dec := f.dec }) hkey
    (Fyster.bareRecov_servo f o f.dec)

theorem Fyster.portForm_recovStart (f : Fyster) (row : Nat) : (f.recovStart row).portForm i j = f.portForm i j :=
  Fyster.portForm_of_bareRecov hkey (Fyster.bareRecov_recovStart f row)

theorem Fyster.portForm_recovDone (f : Fyster) (row : Nat) : (f.recovDone row).portForm i j = f.portForm i j :=
  Fyster.portForm_of_bareRecov hkey (Fyster.bareRecov_recovDone f row)

theorem Fyster.portForm_holdover (f : Fyster) : f.holdover.portForm i j = f.portForm i j := by
  simp only [Fyster.holdover]
  split
  · rfl
  · exact (Fyster.portForm_recovStart hkey _ 5).trans ((Fyster.portForm_servo hkey _ _).trans rfl)

theorem Fyster.portForm_bmca (f : Fyster) (hutc : objKey i j ≠ objKey 0x1200 4) : f.bmca.portForm i j = f.portForm i j := by
  simp only [Fyster.bmca]
  generalize (if f.rd 0x1210 1 = 3 then none else f.bestPort) = best
  generalize hu : (f.setOob 0 { f.oob 0 with st := f.portState best 0 }).setOob 1 { f.oob 1 with st := f.portState best 1 } = u
  have hform : u.portForm i j = f.portForm i j := hu ▸ rfl
  have hwr : ∀ (v : Nat) (tm : TimeUnit),
      ({ u.wr 0x1200 4 v with part := { (u.wr 0x1200 4 v).part with time := tm } } : Fyster).portForm i j = f.portForm i j :=
    fun v tm => (congrArg (Prod.mk u.links) (Part.rd_wr_other u.part v hutc)).trans hform
  cases best with
  | none =>
    dsimp only
    split
    · exact (Fyster.portForm_holdover hkey u).trans hform
    · exact hform
  | some q =>
    dsimp only
    split
    · exact hform
    · split
      · exact (Fyster.portForm_servo hkey _ _).trans ((Fyster.portForm_timeRec hkey _ _ _ _ _ _ _).trans (hwr _ _))
      · split
        · exact (Fyster.portForm_timeRec hkey _ _ _ _ _ _ _).trans (hwr _ _)
        · exact hwr _ _

end

theorem Fyster.oob_setOob_other (f : Fyster) {q r : Nat} (o : PtpPort) (h : r ≠ q) : (f.setOob q o).oob r = f.oob r :=
  tget_tset_other _ _ _ h

/-- R32: the choice of a master gives each port a state, and changes nothing else of it. -/
theorem Fyster.oob_bmca (f : Fyster) (q : Fin 2) : ∃ st, f.bmca.oob q.val = { f.oob q.val with st := st } := by
  have hptp : f.bmca.oob q.val = ((f.setOob 0 { f.oob 0 with st := f.portState f.chosen 0 }).setOob 1
      { f.oob 1 with st := f.portState f.chosen 1 }).oob q.val := congrArg (fun t => tget t q.val PtpPort.reset) f.bmca_ptp
  rw [hptp]
  match q with
  | ⟨0, _⟩ => exact ⟨_, (Fyster.oob_setOob_other _ _ Nat.zero_ne_one).trans (Fyster.oob_setOob_self _ _ _)⟩
  | ⟨1, _⟩ => exact ⟨_, Fyster.oob_setOob_self _ _ _⟩

theorem oob_key (q : Fin 2) : fyReportKeys.contains (objKey (0x1110 + q.val) 7) = false ∧ objKey (0x1110 + q.val) 7 ≠ objKey 0x1200 4 := by
  revert q
  decide

theorem Fyster.oobUp_spec (f : Fyster) (q : Fin 2) :
    ((f.oobUp q.val).oob q.val).up = true ∧ (f.oobUp q.val).rd (0x1110 + q.val) 7 = 1 ∧ (f.oobUp q.val).links = f.links := by
  obtain ⟨hkey, hutc⟩ := oob_key q
  rw [Fyster.oobUp]
  obtain ⟨st, hst⟩ := Fyster.oob_bmca ((f.setOob q.val { f.oob q.val with up := true }).wr (0x1110 + q.val) 7 1) q
  have hform := Fyster.portForm_bmca hkey ((f.setOob q.val { f.oob q.val with up := true }).wr (0x1110 + q.val) 7 1) hutc
  refine ⟨?_, (congrArg Prod.snd hform :).trans (Part.rd_wr_self _ _ _ _), (congrArg Prod.fst hform :)⟩
  rw [hst]
  exact congrArg PtpPort.up (Fyster.oob_setOob_self f q.val _)

theorem Fyster.oobDown_of_up {f : Fyster} {q : Fin 2} (hup : (f.oob q.val).up = true) :
    ((f.oobDown q.val).oob q.val).up = false ∧ ((f.oobDown q.val).oob q.val).foreign = none ∧ (f.oobDown q.val).rd (0x1110 + q.val) 7 = 0 ∧
      (f.oobDown q.val).links = f.links := by
  obtain ⟨hkey, hutc⟩ := oob_key q
  have hstay : ¬(!(f.oob q.val).up) = true := by rw [hup]; decide
  rw [Fyster.oobDown, if_neg hstay]
  generalize hu : (f.setOob q.val { f.oob q.val with up := false, foreign := none, sync := none, syncDelay := none }).wr (0x1110 + q.val) 7 0 = u
  have hport : u.oob q.val = { f.oob q.val with up := false, foreign := none, sync := none, syncDelay := none } :=
    hu ▸ Fyster.oob_setOob_self f q.val _
  have hrd : u.portForm (0x1110 + q.val) 7 = (f.links, 0) := hu ▸ congrArg (Prod.mk f.links) (Part.rd_wr_self _ _ _ _)
  obtain ⟨st, hst⟩ := u.oob_bmca q
  have hstart := congrArg (fun g : Fyster => g.oob q.val) (Fyster.bareRecov_recovStart u.bmca 4)
  have hform := (Fyster.portForm_recovStart hkey u.bmca 4).trans ((Fyster.portForm_bmca hkey u hutc).trans hrd)
  have hoob : (u.bmca.recovStart 4).oob q.val = { u.oob q.val with st := st } := (hstart :).trans hst
  rw [hoob, hport]
  exact ⟨rfl, rfl, congrArg Prod.snd hform, congrArg Prod.fst hform⟩

theorem Fyster.rd_fabric_recov {f g : Fyster} {v : Nat} (h : g.bareRecov = (f.wr 0x1170 1 v).bareRecov) :
    g.rd 0x1170 1 = v ∧ g.links = f.links := by
  have hform := Fyster.portForm_of_bareRecov (i := 0x1170) (j := 1) (by decide) h
  exact ⟨(congrArg Prod.snd hform :).trans (Part.rd_wr_self _ _ _ _), (congrArg Prod.fst hform :)⟩

/-! ### Loss reports (R82) -/

theorem LossAcc.period_of_first {a : LossAcc} (now interval : Nat) (hfresh : a.fresh = true) (hidle : a.active = false) :
    a.period now interval =
      ({ a with first := 0, last := 0, lstream := none, fresh := false, reported := now, active := true }, true) := by
  simp only [LossAcc.period, hfresh, hidle]
  rfl

theorem LossAcc.period_of_quiet {a : LossAcc} (now interval : Nat) (hfresh : a.fresh = false) (hidle : a.active = false) :
    a.period now interval = (a, false) := by
  have hnone : ¬a.fresh = true := by rw [hfresh]; decide
  have hend : ¬a.active = true := by rw [hidle]; decide
  rw [LossAcc.period, if_neg hnone, if_neg hend]

/-- Settles O32: the choice of a master leaves links and objects; a refused access and a loss report do what they name. -/
theorem otherPortsAndLosses : Obligations.OtherPortsAndLosses := by
  unfold Obligations.OtherPortsAndLosses
  refine ⟨?up, ?down, ?retrain, ?silent, ?fabricDown, ?fabricUp, ?fabricSilent, ?refused, ?tuLoss, ?tuQuiet, ?loss⟩
  case up =>
    intro s dt q hrun hdown
    refine fyNext_of_onFy rfl ?_
    have hgo : ((s.fy.tick dt).boot.running && !((s.fy.tick dt).oob q.val).up) = true := by
      rw [show (s.fy.tick dt).boot.running = true from hrun, show ((s.fy.tick dt).oob q.val).up = false from hdown]
      rfl
    rw [if_pos hgo]
    exact (s.fy.tick dt).oobUp_spec q
  case down =>
    intro s dt q hup
    exact fyNext_of_onFy rfl (Fyster.oobDown_of_up (f := s.fy.tick dt) hup)
  case retrain =>
    intro s dt q hrun hdown
    refine fyNext_of_onFy rfl ?_
    have hgo : ((s.fy.tick dt).boot.running && !((s.fy.tick dt).oob q.val).up && true) = true := by
      rw [show (s.fy.tick dt).boot.running = true from hrun, show ((s.fy.tick dt).oob q.val).up = false from hdown]
      rfl
    rw [if_pos hgo]
    obtain ⟨hport, hrd, hlinks⟩ := (s.fy.tick dt).oobUp_spec q
    have hdone := Fyster.bareRecov_recovDone ((s.fy.tick dt).oobUp q.val) 4
    have hform := Fyster.portForm_of_bareRecov (oob_key q).1 hdone
    exact ⟨(congrArg (fun g : Fyster => (g.oob q.val).up) hdone :).trans hport, (congrArg Prod.snd hform :).trans hrd,
      (congrArg Prod.fst hform :).trans hlinks⟩
  case silent =>
    intro s dt q
    refine fyNext_of_onFy rfl ?_
    rw [Bool.and_false]
    rfl
  case fabricDown =>
    intro s dt k hup
    refine fyNext_of_onFy rfl ?_
    rw [if_pos (show bitOf ((s.fy.tick dt).rd 0x1170 1) k.val = true from hup)]
    exact Fyster.rd_fabric_recov (f := s.fy.tick dt) (Fyster.bareRecov_recovStart _ 6)
  case fabricUp =>
    intro s dt k
    refine fyNext_of_onFy rfl ?_
    have hdone := Fyster.bareRecov_recovDone ((s.fy.tick dt).wr 0x1170 1 (setBit ((s.fy.tick dt).rd 0x1170 1) k.val true)) 6
    obtain ⟨hrd, hlinks⟩ := Fyster.rd_fabric_recov (f := s.fy.tick dt) hdone
    refine ⟨hrd, hlinks, ?_⟩
    change (((s.fy.tick dt).wr 0x1170 1 (setBit ((s.fy.tick dt).rd 0x1170 1) k.val true)).recovDone 6).ring = _
    rw [Fyster.recovDone]
    split <;> rfl
  case fabricSilent =>
    intro s dt k
    exact fyNext_of_onFy rfl rfl
  case refused =>
    intro s dt b a
    refine fyNext_of_onFy rfl ⟨rfl, ?_, ?_⟩
    · exact (congrArg Prod.snd (Fyster.portForm_log (i := 0x1170) (j := 3) (by decide) _ _) :).trans (Part.rd_wr_self _ _ _ _)
    · exact (congrArg Prod.fst (Fyster.portForm_log (i := 0x1170) (j := 3) (by decide) _ _) :)
  case tuLoss =>
    intro s dt p cause a hfresh hidle
    refine tuNext_of_onNode rfl ?_
    rw [Tu.lossReport, LossAcc.period_of_first (a := ((s.tu p).tick dt).part.acc a cause.val) _ _ hfresh hidle]
    exact ⟨rfl, Tu.bare_sendFree _ _⟩
  case tuQuiet =>
    intro s dt p cause a hfresh hidle
    refine tuNext_of_onNode rfl ?_
    rw [Tu.lossReport, LossAcc.period_of_quiet (a := ((s.tu p).tick dt).part.acc a cause.val) _ _ hfresh hidle]
    rfl
  case loss =>
    intro s dt cause a hfresh hidle
    refine fyNext_of_onNode rfl ?_
    rw [Fyster.lossReport, LossAcc.period_of_first (a := (s.fy.tick dt).part.acc a cause.val) _ _ hfresh hidle]
    rfl

/-! ### CRC units (R77, R78, R440) -/

theorem Tu.onCrc_of_key {t : Tu} {u : CrcId} {k : Nat} (h : crcKey false u = some k) (g : Nat → Part → Part × Nat) :
    t.onCrc u g = ({ t with part := (g k t.part).1 }, (g k t.part).2) := by
  simp only [Tu.onCrc, h]

theorem Fyster.onCrc_of_key {f : Fyster} {u : CrcId} {k : Nat} (h : crcKey true u = some k) (g : Nat → Part → Part × Nat) :
    f.onCrc u g = ({ f with part := (g k f.part).1 }.crcResume k, (g k f.part).2) := by
  simp only [Fyster.onCrc, h]

/-- Fyster has no unit in a link's path. -/
theorem crcInPath_of_fyster {u : CrcId} {k : Nat} (h : crcKey true u = some k) : crcInPath k = false := by
  refine decide_eq_false ?_
  cases u with
  | snapshot => simp only [crcKey, if_true, Option.some.injEq] at h; omega
  | sumac e => simp only [crcKey, if_true, Option.some.injEq] at h; omega
  | model s => simp only [crcKey, if_true, Option.some.injEq] at h; omega
  | dump ch => simp only [crcKey, if_true, Option.some.injEq] at h; omega
  | tlTx => simp [crcKey] at h
  | tlRx => simp [crcKey] at h

theorem Part.crcControl_enable (p : Part) (k : Nat) (v : Bool) :
    p.crcControl k (some v) none false = (p.setCrc k { p.crcUnit k with enable := v }, 0) := by
  simp only [Part.crcControl, ite_self]
  rfl

theorem Part.crcControl_init (p : Part) (k : Nat) : p.crcControl k none none true = (p.setCrc k (p.crcUnit k).init, 0) := by
  simp only [Part.crcControl, ite_self]
  rfl

theorem Part.crcControl_pause {p : Part} {k : Nat} (hpath : crcInPath k = false) (hidle : (p.crcUnit k).busy = false) :
    p.crcControl k none (some true) false = (p.setCrc k { p.crcUnit k with pause := true }, 0) := by
  simp only [Part.crcControl, hpath, hidle]
  rfl

theorem Part.crcControl_resume {p : Part} {k : Nat} (hpath : crcInPath k = false) :
    p.crcControl k none (some false) false = (p.setCrc k { p.crcUnit k with pause := false, paused := false }, 0) := by
  simp only [Part.crcControl, hpath]
  rfl

theorem Part.crcControl_busy {p : Part} {k : Nat} (hpath : crcInPath k = false) (hbusy : (p.crcUnit k).busy = true) :
    p.crcControl k none (some true) false = (p, 0x27) := by
  simp only [Part.crcControl, hpath, hbusy]
  rfl

theorem Part.crcRest_of_idle {p : Part} {k : Nat} (hpath : crcInPath k = false) (hpause : (p.crcUnit k).pause = true)
    (hidle : (p.crcUnit k).busy = false) : p.crcRest k = p.setCrc k { p.crcUnit k with paused := true } := by
  have hgo : ((p.crcUnit k).pause && !(p.crcUnit k).busy && !crcInPath k) = true := by
    rw [hpath, hpause, hidle]
    rfl
  exact if_pos hgo

/-- A unit restored by a write of its VALUE or LENGTH. -/
def CrcUnit.restored (u : CrcUnit) (isLength : Bool) (v : Nat) : CrcUnit :=
  if isLength then { u with length := v } else { u with value := BitVec.ofNat 32 v }

theorem Part.crcRestore_of_rest {p : Part} {k : Nat} {down : Bool} (isLength : Bool) (v : Nat)
    (h : (if crcInPath k then down else (p.crcUnit k).paused) = true) :
    p.crcRestore k isLength v down = (p.setCrc k ((p.crcUnit k).restored isLength v), 0) := by
  simp only [Part.crcRestore, h]
  rfl

theorem Part.crcRestore_of_running {p : Part} {k : Nat} {down : Bool} (isLength : Bool) (v : Nat)
    (h : (if crcInPath k then down else (p.crcUnit k).paused) = false) : p.crcRestore k isLength v down = (p, 0x27) := by
  simp only [Part.crcRestore, h]
  rfl

/-- Settles O33: each register of a unit through the one case of its function; a refused write leaves everything. -/
theorem crcUnits : Obligations.CrcUnits := by
  unfold Obligations.CrcUnits
  refine ⟨?tuEnable, ?enable, ?tuPause, ?tuResume, ?pause, ?busy, ?tuRest, ?rest, ?tuInit, ?init, ?tuValue, ?value, ?running⟩
  case tuEnable =>
    intro s dt p lvl u v k hlvl hkey
    refine tuNext_of_onNode rfl ?_
    rw [Tu.onCrc_of_key hkey, Part.crcControl_enable]
    exact Tu.reply_accepted hlvl
  case enable =>
    intro s dt lvl u v k hlvl hkey
    refine fyNext_of_onNode rfl ?_
    rw [Fyster.onCrc_of_key hkey, Part.crcControl_enable]
    exact Fyster.reply_accepted hlvl
  case tuPause =>
    intro s dt p lvl u k hlvl hkey hpath hidle
    refine tuNext_of_onNode rfl ?_
    rw [Tu.onCrc_of_key hkey, Part.crcControl_pause (p := ((s.tu p).tick dt).part) hpath hidle]
    exact Tu.reply_accepted hlvl
  case tuResume =>
    intro s dt p lvl u k hlvl hkey hpath
    refine tuNext_of_onNode rfl ?_
    rw [Tu.onCrc_of_key hkey, Part.crcControl_resume hpath]
    exact Tu.reply_accepted hlvl
  case pause =>
    intro s dt lvl u k hlvl hkey hidle
    refine fyNext_of_onNode rfl ?_
    rw [Fyster.onCrc_of_key hkey, Part.crcControl_pause (p := (s.fy.tick dt).part) (crcInPath_of_fyster hkey) hidle]
    exact Fyster.reply_accepted hlvl
  case busy =>
    intro s dt lvl u k hlvl hkey hbusy
    refine fyNext_of_onNode rfl ?_
    rw [Fyster.onCrc_of_key hkey, Part.crcControl_busy (p := (s.fy.tick dt).part) (crcInPath_of_fyster hkey) hbusy]
    exact Fyster.reply_refused hlvl (Nat.succ_ne_zero 0x26)
  case tuRest =>
    intro s dt p u k hkey hpath hpause hidle
    refine tuNext_of_onNode rfl ?_
    rw [Tu.onCrc_of_key hkey, Part.crcRest_of_idle (p := ((s.tu p).tick dt).part) hpath hpause hidle]
  case rest =>
    intro s dt u k hkey hpause hidle
    refine fyNext_of_onNode rfl ?_
    rw [Fyster.onCrc_of_key hkey, Part.crcRest_of_idle (p := (s.fy.tick dt).part) (crcInPath_of_fyster hkey) hpause hidle]
  case tuInit =>
    intro s dt p lvl u k hlvl hkey
    refine tuNext_of_onNode rfl ?_
    rw [Tu.onCrc_of_key hkey, Part.crcControl_init]
    exact Tu.reply_accepted hlvl
  case init =>
    intro s dt lvl u k hlvl hkey
    refine fyNext_of_onNode rfl ?_
    rw [Fyster.onCrc_of_key hkey, Part.crcControl_init]
    exact Fyster.reply_accepted hlvl
  case tuValue =>
    intro s dt p lvl u b v k hlvl hkey hrest
    refine tuNext_of_onNode rfl ?_
    rw [Tu.onCrc_of_key hkey, Part.crcRestore_of_rest (p := ((s.tu p).tick dt).part) (down := ((s.tu p).tick dt).link.st != .up) b v.toNat hrest]
    exact Tu.reply_accepted hlvl
  case value =>
    intro s dt lvl u b v k hlvl hkey hpaused
    refine fyNext_of_onNode rfl ?_
    have hrest : (if crcInPath k then false else ((s.fy.tick dt).part.crcUnit k).paused) = true := by
      rw [crcInPath_of_fyster hkey]
      exact hpaused
    rw [Fyster.onCrc_of_key hkey, Part.crcRestore_of_rest (p := (s.fy.tick dt).part) b v.toNat hrest]
    exact Fyster.reply_accepted hlvl
  case running =>
    intro s dt lvl u b v k hlvl hkey hpaused
    refine fyNext_of_onNode rfl ?_
    have hrest : (if crcInPath k then false else ((s.fy.tick dt).part.crcUnit k).paused) = false := by
      rw [crcInPath_of_fyster hkey]
      exact hpaused
    rw [Fyster.onCrc_of_key hkey, Part.crcRestore_of_running (p := (s.fy.tick dt).part) b v.toNat hrest]
    exact Fyster.reply_refused hlvl (Nat.succ_ne_zero 0x26)

end Sys2Proof.Machine
end

section
/-! SUPPORT. Contributions written and received, heartbeats, take-over, and inbound writes to the ledger (R263 to R270, R283). -/

namespace Sys2Proof.Machine

/-! ### Writes of contributions (R265) -/

section
variable {f : Fyster} {id : Nat} {w : PendWrite} (hfind : (f.red.writes.find? fun w => w.id == id) = some w)
include hfind

/-- The aggregates have completed: the header goes out. -/
theorem Fyster.writeDone_of_aggregates {x : Grp} {r : Role} (hpart : w.header = false) (hwriter : f.writer w = some (x, r)) :
    f.writeDone id =
      { f with red := { f.red with
          writes := modFirst (fun (y : PendWrite) => y.id == id) (fun y => { y with header := true }) f.red.writes } }.remote
        w.tray w.base (x.slotAt w.gslot r w.c.inst (w.c.kind == 2)) w.c.header id := by
  have hstay : ¬w.header = true := by rw [hpart]; decide
  simp only [Fyster.writeDone, hfind, hwriter]
  rw [if_neg hstay]

/-- The header has completed: the write is over. -/
theorem Fyster.writeDone_of_header (hhead : w.header = true) :
    f.writeDone id =
      if w.c.kind ≠ 2 ∧ w.c.inst + deadline (w.role + 1) < ts64Of f.ns
      then { f with red := { f.red with writes := f.red.writes.filter fun y => y.id != id } }.bump (0x3480 + w.gslot) 3 1
      else { f with red := { f.red with writes := f.red.writes.filter fun y => y.id != id } } := by
  simp only [Fyster.writeDone, hfind]
  rw [if_pos hhead]
  rfl

end

/-! ### Contributions received (R268) -/

section
variable {f : Fyster} {k lv i sub g o : Nat} {x : Grp} {r : Role} (hgrp : f.grp k = some x) (hheld : x.held lv = some r)
  (hgo : (!r.admitted || lv == 0 || samplingOnly x.period || decide (x.childCount r ≤ i)) = false)
  (ho : o = roleArea k lv + x.ofs r 0 + x.frame g * (x.childCount r * 2 * slotAl (dMetrics x.desc)) +
    (2 * i + sub) * slotAl (dMetrics x.desc))
  (hinst : fieldAt (f.ledger o 8) 0 8 = g) (hslot : (slotOfBytes (f.ledger o (slotBytes (dMetrics x.desc)))).inst = g)
include hgrp hheld hgo ho hinst hslot

/-- A slot that holds its instant is looked at as a contribution of this instant, not as a carry. -/
theorem Fyster.arrive_of_unsound (hbad : x.slotOk (f.ledger o (slotBytes (dMetrics x.desc))) = false) :
    f.arrive k lv i sub g = f.bump (0x3480 + k) 7 1 := by
  subst ho
  simp only [Fyster.arrive, hgrp, hheld, hgo]
  rw [if_neg Bool.false_ne_true, if_neg fun h => h.2.2 hinst, if_neg fun h => h hslot, if_pos (by rw [hbad]; rfl)]

theorem Fyster.arrive_of_sound (hok : x.slotOk (f.ledger o (slotBytes (dMetrics x.desc))) = true)
    (hmemb : x.memb ≤ (slotOfBytes (f.ledger o (slotBytes (dMetrics x.desc)))).memb)
    (hopen : (r.closed.any fun n => decide (g ≤ n)) = false) (hfirst : (r.open_.find? fun o => o.1.inst == g) = none) :
    f.arrive k lv i sub g =
      f.setGrp k (x.setRole { r with
        open_ := (r.open_.filter fun o => o.1.inst != g) ++
          [((x.slot g (lv + 1) 0 r.epoch).merge (slotOfBytes (f.ledger o (slotBytes (dMetrics x.desc)))), [i])] }) := by
  have hlag : decide ((slotOfBytes (f.ledger o (slotBytes (dMetrics x.desc)))).memb < x.memb) = false := by simpa using hmemb
  subst ho
  simp only [Fyster.arrive, hgrp, hheld, hgo]
  rw [if_neg Bool.false_ne_true, if_neg fun h => h.2.2 hinst, if_neg fun h => h hslot, if_neg (by rw [hok]; decide)]
  simp only [hlag, hopen, hfirst, hgrp, Bool.false_eq_true, if_false, Option.getD_some, Option.getD_none]
  rfl

end

/-! ### A frame that is reused (R270) -/

/-- The element that `q` finds first is changed by `modFirst` with a test that it meets: then `q` finds what it was changed to. -/
theorem find_modFirst_of_found {α : Type} {p q : α → Bool} {a b : α} (hp : p a = true) (hq : q b = true) :
    ∀ {l : List α}, l.find? q = some a → (modFirst p (fun _ => b) l).find? q = some b
  | y :: l, h => by
    by_cases hy : p y = true
    · simp only [modFirst, if_pos hy]
      exact List.find?_cons_of_pos hq
    · simp only [modFirst, if_neg hy]
      have hqy : ¬q y = true := fun hqy => hy (by
        rw [List.find?_cons_of_pos hqy] at h
        rwa [Option.some.inj h])
      rw [List.find?_cons_of_neg hqy] at h ⊢
      exact find_modFirst_of_found hp hq h

theorem Grp.held_setRole {x : Grp} {lv : Nat} {r r' : Role} (hheld : x.held lv = some r) (hlevel : r'.level = r.level)
    (hstandby : r'.standby = r.standby) (hindex : r'.index = r.index) (hsection : r'.section_ = r.section_)
    (hholder : r'.holder = r.holder) : (x.setRole r').held lv = some r' := by
  refine find_modFirst_of_found (a := r) ?_ ?_ hheld
  · rw [hlevel, hstandby, hindex, hsection]
    simp
  · rw [hlevel, hholder]
    exact List.find?_some (p := fun r : Role => r.level == lv && r.holder) hheld

/-- A contribution that leaves: groups and links stay, and a carry joins no write of a frame. -/
theorem Fyster.writeSlot_carry (f : Fyster) (k : Nat) (r : Role) (c : Contrib) {p : PendWrite → Bool}
    (hp : ∀ w, w.c = c → p w = false) :
    (f.writeSlot k r c true).red.groups = f.red.groups ∧ (f.writeSlot k r c true).links = f.links ∧
      (f.writeSlot k r c true).red.writes.filter p = f.red.writes.filter p := by
  rw [Fyster.writeSlot]
  split
  · exact ⟨rfl, rfl, rfl⟩
  · split
    · exact ⟨rfl, rfl, rfl⟩
    · have hwrites (w : PendWrite) (h : w.c = c) : (f.red.writes ++ [w]).filter p = f.red.writes.filter p := by
        rw [List.filter_append, List.filter_cons_of_neg (by rw [hp w h]; decide)]
        exact List.append_nil _
      simp only [Fyster.remote]
      split
      · exact ⟨rfl, rfl, hwrites _ rfl⟩
      · exact ⟨rfl, rfl, hwrites _ rfl⟩

section
variable {f : Fyster} {k lv n : Nat} {x : Grp} {r : Role} {w : PendWrite} (hgrp : f.grp k = some x) (hheld : x.held lv = some r)
  (hnone : r.carry = none)
  (hold : (f.red.writes.filter fun w => w.gslot == k && w.role == lv && w.c.kind != 2 && x.frame w.c.inst == n) = [w])
include hgrp hheld hnone hold

theorem Fyster.reuse_spec :
    (((f.reuse k lv n).grp k).bind fun x => x.held lv).bind (·.carry) = some { w.c with kind := 2 } ∧
      ((f.reuse k lv n).red.writes.filter fun w =>
        w.gslot == k && w.role == lv && w.c.kind != 2 && x.frame w.c.inst == n) = [] ∧
      (f.reuse k lv n).links = f.links := by
  have hstay : ¬[w].isEmpty = true := Bool.false_ne_true
  simp only [Fyster.reuse, hgrp, hheld, hold, hnone]
  rw [if_neg hstay]
  simp only [List.foldl_cons, List.foldl_nil]
  generalize hu : ({ f with red := { f.red with writes := f.red.writes.filter fun w =>
      !(w.gslot == k && w.role == lv && w.c.kind != 2 && x.frame w.c.inst == n) && !(w.gslot == k && w.role == lv && w.c.kind == 2) } } :
      Fyster).setGrp k (x.setRole { r with carry := some { w.c with kind := 2 } }) = u
  obtain ⟨hgroups, hlinks, hwrites⟩ := u.writeSlot_carry k { r with carry := some { w.c with kind := 2 } } { w.c with kind := 2 }
    (p := fun w => w.gslot == k && w.role == lv && w.c.kind != 2 && x.frame w.c.inst == n) fun w h => by simp [h]
  have hslot : u.grp k = some (x.setRole { r with carry := some { w.c with kind := 2 } }) := hu ▸ Fyster.grp_setGrp_self _ _ _
  refine ⟨?_, ?_, hlinks.trans (hu ▸ rfl)⟩
  · rw [show (u.writeSlot k { r with carry := some { w.c with kind := 2 } } { w.c with kind := 2 } true).grp k = u.grp k from
      congrArg (fun l => tfind l k) hgroups, hslot]
    exact congrArg (fun q : Option Role => q.bind (·.carry))
      (Grp.held_setRole (r' := { r with carry := some { w.c with kind := 2 } }) hheld rfl rfl rfl rfl rfl)
  · rw [hwrites, ← hu]
    refine (List.filter_filter ..).trans (List.filter_eq_nil_iff.mpr fun y _ => ?_)
    cases (y.gslot == k && y.role == lv && y.c.kind != 2 && x.frame y.c.inst == n) <;> simp

end

/-- Settles O34: the contribution in its frame is the slot that the ledger holds there. -/
theorem slotWrites : Obligations.SlotWrites := by
  unfold Obligations.SlotWrites
  refine ⟨?aggregates, ?header, ?sound, ?unsound, ?reused⟩
  case aggregates =>
    intro s dt id w x r hfind hpart hwriter
    exact fyNext_of_onFy rfl (Fyster.writeDone_of_aggregates (f := s.fy.tick dt) hfind hpart hwriter)
  case header =>
    intro s dt id w hfind hhead
    exact fyNext_of_onFy rfl (Fyster.writeDone_of_header (f := s.fy.tick dt) hfind hhead)
  case sound =>
    intro s dt g lv i sub inst x r o c hgrp hheld hadm hlv hred hi ho hinst hc hat hok hmemb hopen hfirst
    subst hc
    exact fyNext_of_onFy rfl (Fyster.arrive_of_sound (f := s.fy.tick dt) hgrp hheld (by simp [hadm, hlv, hred, hi]) ho hinst hat hok
      hmemb hopen hfirst)
  case unsound =>
    intro s dt g lv i sub inst x r o hgrp hheld hadm hlv hred hi ho hinst hat hbad
    exact fyNext_of_onFy rfl (Fyster.arrive_of_unsound (f := s.fy.tick dt) hgrp hheld (by simp [hadm, hlv, hred, hi]) ho hinst hat
      hbad)
  case reused =>
    intro s dt g lv n x r w hgrp hheld hnone hold
    exact fyNext_of_onFy rfl (Fyster.reuse_spec (f := s.fy.tick dt) hgrp hheld hnone hold)

/-! ### Heartbeats and take-over (R283) -/

theorem Fyster.heartbeat_of_place {f : Fyster} {k : Nat} {x : Grp} {r : Role} {y : Nat × Nat × Nat} (hplace : x.peerPlace k r = some y)
    (haway : y.1 ≠ f.tray) : f.heartbeat k x r = f.emit (.fabric y.1 0 (y.2.1 + y.2.2) (f.peerBytes x r)) := by
  simp only [Fyster.heartbeat, hplace, Fyster.remote]
  rw [if_neg haway, if_neg haway]

theorem Fyster.wmkForm_heartbeat (f : Fyster) (k : Nat) (x : Grp) (r : Role) : (f.heartbeat k x r).wmkForm = f.wmkForm := by
  rw [Fyster.heartbeat]
  split
  · split
    · rfl
    · exact Fyster.wmkForm_remote _ _ _ _ _ _
  · rfl

/-- A counted error: the count, and nothing but reporting beside it. -/
theorem Fyster.counted_spec (f : Fyster) (unit : Nat) {i j : Nat} (n : Nat) (hkey : fyReportKeys.contains (objKey i j) = false) :
    (f.counted unit i j n).red = f.red ∧ (f.counted unit i j n).links = f.links ∧
      (f.counted unit i j n).rd i j = raised i j (f.rd i j) n := by
  have hbare : (f.counted unit i j n).bareBut [] = (f.bump i j n).bareBut [] := Fyster.bare_log _ _
  exact ⟨(congrArg Fyster.red hbare :), (congrArg Fyster.links hbare :),
    (Fyster.rd_of_bareBut hbare (by rw [List.append_nil]; exact hkey)).trans (Part.rd_wr_self _ _ _ _)⟩

theorem groupCount_key (g : GSlot) : fyReportKeys.contains (objKey (0x3480 + g.val) 9) = false := by
  revert g
  decide

theorem Fyster.takeRole_spec {f : Fyster} {g : GSlot} {x : Grp} (r : Role) (hgrp : f.grp g.val = some x) :
    (f.takeRole g.val r).grp g.val = some (x.setRole { r with holder := true, epoch := (r.epoch + 1) % 65536 }) ∧
      (f.takeRole g.val r).rd (0x3480 + g.val) 9 = raised (0x3480 + g.val) 9 (f.rd (0x3480 + g.val) 9) 1 ∧
      (f.takeRole g.val r).links = f.links := by
  simp only [Fyster.takeRole, hgrp]
  generalize hr : ({ r with holder := true, epoch := (r.epoch + 1) % 65536 } : Role) = r'
  generalize hu : Fyster.heartbeat _ g.val x r' = u
  have hform : u.wmkForm = (f.setGrp g.val (x.setRole r')).wmkForm :=
    hu ▸ (Fyster.wmkForm_heartbeat _ _ _ _).trans (foldl_keeps Fyster.wmkForm _ (fun f c => Fyster.wmkForm_remote _ _ _ _ _ _) _ _)
  have hpart : u.part = f.part := congrArg Prod.fst hform
  have hgroups : u.red.groups = tset f.red.groups g.val (x.setRole r') := congrArg (fun z => z.2.2.2) hform
  have hlinks : u.links = f.links := congrArg (fun z => z.2.2.1) hform
  obtain ⟨hred, hleft, hcount⟩ := u.counted_spec 515 1 (groupCount_key g)
  refine ⟨?_, hcount.trans ?_, hleft.trans hlinks⟩
  · rw [Fyster.grp, hred, hgroups]
    exact (tfind_tset _ _ _ _).trans (if_pos rfl)
  · exact congrArg (fun p => raised (0x3480 + g.val) 9 (Part.rd p (0x3480 + g.val) 9) 1) hpart

theorem Fyster.takeovers_of_silent {f : Fyster} {k lv : Nat} {x : Grp} {r : Role} (hgrp : f.grp k = some x) (hstate : x.state = 3)
    (hroles : (x.roles.filter fun r => r.level == lv && r.standby && !r.holder && r.admitted &&
      decide (max r.seenAt x.eff + f.rd 0x3600 0x0B * 1000 ≤ f.ns)) = [r]) : f.takeovers k lv = f.takeRole k r := by
  simp only [Fyster.takeovers, hgrp, hroles]
  rw [if_neg fun h => h hstate]
  rfl

/-! ### Inbound writes to the ledger (R263) -/

section
variable {f : Fyster} {src a : Nat} {v : List Byte}

theorem Fyster.ledgerIn_of_inbox (hbase : f.rd 0x3600 1 ≠ 0) (hlo : f.rd 0x3600 1 ≤ a)
    (hhi : a - f.rd 0x3600 1 + v.length ≤ f.rd 0x3600 2) (hinbox : a - f.rd 0x3600 1 < 2097152)
    (hown : within (a - f.rd 0x3600 1) v.length (256 * src) 256 = true) :
    f.ledgerIn src a v = f.putLedger (a - f.rd 0x3600 1) v := by
  have hin : ¬(f.rd 0x3600 1 = 0 ∨ a < f.rd 0x3600 1 ∨ f.rd 0x3600 2 < a - f.rd 0x3600 1 + v.length) := by omega
  rw [Fyster.ledgerIn]
  rw [if_neg hin, if_pos hinbox, if_pos hown]

theorem Fyster.ledgerIn_of_outside
    (hout : f.rd 0x3600 1 = 0 ∨ a < f.rd 0x3600 1 ∨ f.rd 0x3600 2 < a - f.rd 0x3600 1 + v.length) :
    f.ledgerIn src a v = f.counted 515 0x3600 0x0A 1 := by
  rw [Fyster.ledgerIn]
  rw [if_pos hout]

end

/-- Settles O36: what leaves for other trays changes no group, and a write of the arm inbox is a write of the ledger's bytes. -/
theorem rolesAndLedger : Obligations.RolesAndLedger := by
  unfold Obligations.RolesAndLedger
  refine ⟨?heartbeat, ?takeover, ?inbox, ?frame, ?outside⟩
  case heartbeat =>
    intro s dt g lv x r y hgrp hlive hred hroles hplace haway
    refine fyNext_of_onFy rfl ?_
    have hgo : (x.live && !samplingOnly x.period) = true := by rw [hlive, hred]; rfl
    simp only [show (s.fy.tick dt).grp g.val = some x from hgrp, hroles]
    rw [if_pos hgo]
    exact Fyster.heartbeat_of_place (f := s.fy.tick dt) hplace haway
  case takeover =>
    intro s dt g lv x r hgrp hstate hroles
    refine fyNext_of_onFy rfl ?_
    rw [Fyster.takeovers_of_silent (f := s.fy.tick dt) hgrp hstate hroles]
    exact Fyster.takeRole_spec (f := s.fy.tick dt) r hgrp
  case inbox =>
    intro s dt src a v hbase hlo hhi hinbox hown hwf
    refine fyNext_of_onFy rfl ?_
    rw [Fyster.ledgerIn_of_inbox (f := s.fy.tick dt) hbase hlo hhi hinbox hown]
    exact ⟨rfl, memRead_memWrite _ _ _ hwf, memWrite_wf _ _ _ hwf⟩
  case frame =>
    intro s dt src a v j hbase hlo hhi hinbox hown hj
    refine fyNext_of_onFy rfl ?_
    rw [Fyster.ledgerIn_of_inbox (f := s.fy.tick dt) hbase hlo hhi hinbox hown]
    exact memGet_memWrite_other _ _ _ _ hj
  case outside =>
    intro s dt src a v hout
    refine fyNext_of_onFy rfl ?_
    rw [Fyster.ledgerIn_of_outside (f := s.fy.tick dt) hout]
    exact ⟨rfl, ((s.fy.tick dt).counted_spec 515 1 (by decide)).1⟩

end Sys2Proof.Machine
end

section
/-! SUPPORT. Model slots, bindings, rows and batch runs (R296, R301 to R312). -/

namespace Sys2Proof.Machine

/-! ### Staging (R301) -/

theorem Fyster.mslot_setMslot_self (f : Fyster) (k : Nat) (x : MSlot) : (f.setMslot k x).mslot k = x := tget_tset_self _ _ _ _

/-- A staged image is in its slot whether or not its digest unit has taken it. -/
theorem Fyster.stage_spec (f : Fyster) (k : Nat) (v : List Byte) (fetch : Bool) :
    ((f.stage k v fetch).mslot k).state = 1 ∧ ((f.stage k v fetch).mslot k).image = v ∧
      ((f.stage k v fetch).mslot k).fetch = fetch ∧ (f.stage k v fetch).links = f.links := by
  rw [Fyster.stage]
  generalize hu : f.setMslot k { state := 1, image := v, error := 0, fetch := fetch, fed := false } = u
  have hslot : u.mslot k = { state := 1, image := v, error := 0, fetch := fetch, fed := false } := hu ▸ f.mslot_setMslot_self k _
  have hlinks : u.links = f.links := hu ▸ rfl
  simp only [Fyster.stageFeed]
  split
  · rw [hslot]
    exact ⟨rfl, rfl, rfl, hlinks⟩
  · rw [Fyster.mslot_setMslot_self, hslot]
    exact ⟨rfl, rfl, rfl, hlinks⟩

section
variable {f : Fyster} {k : Nat} {v : List Byte}

theorem Fyster.wrModelImage_of_ready (hcode : f.stageCode k v.length = 0) : f.wrModelImage k v = (f.stage k v false, 0) := by
  rw [Fyster.wrModelImage, if_neg fun h => h hcode]

theorem Fyster.wrModelImage_of_taken (htaken : f.slotState k = 1 ∨ f.slotState k = 4) (hlen : v.length ≤ 8388608) :
    f.wrModelImage k v = (f, 0x27) := by
  have hstate : (f.slotState k == 1 || f.slotState k == 4) = true := by simpa using htaken
  have hfits : decide (8388608 < v.length) = false := by simpa using hlen
  have hcode : f.stageCode k v.length = 0x27 := by
    rw [Fyster.stageCode, hstate, hfits]
    rfl
  rw [Fyster.wrModelImage, hcode, if_pos (by decide)]

theorem Fyster.wrStageFrom_of_ready (d : List Byte) (hlen : v.length = 16) (hspace : fieldAt v 12 1 = 1 ∨ fieldAt v 12 1 = 2)
    (hcode : f.stageCode k (fieldAt v 8 4) = 0) : f.wrStageFrom k v d = (f.stage k (d.take (fieldAt v 8 4)) true, 0) := by
  have hsize : (v.length != 16) = false := by rw [hlen]; rfl
  have hplace : (fieldAt v 12 1 != 1 && fieldAt v 12 1 != 2) = false := by
    rcases hspace with h | h <;> rw [h] <;> rfl
  simp only [Fyster.wrStageFrom, hsize, hplace, hcode]
  rfl

end

theorem Fyster.stageError_of_fetch {f : Fyster} {k : Nat} (hstate : (f.mslot k).state = 1) (hfetch : (f.mslot k).fetch = true) :
    f.stageError k = f.setMslot k { f.mslot k with state := 3, error := 0x12 } := by
  simp only [Fyster.stageError]
  rw [if_pos ⟨hstate, hfetch⟩]

theorem Fyster.modelChecked_of_fed {f : Fyster} {k : Nat} (hstate : (f.mslot k).state = 1) (hfed : (f.mslot k).fed = true) :
    f.modelChecked k = f.setMslot k { f.mslot k with
      state := if imageFault (f.mslot k).image = 0 then 2 else 3
      error := imageFault (f.mslot k).image } := by
  have hgo : ¬((f.mslot k).state ≠ 1 ∨ (f.mslot k).fed = false) := by rw [hstate, hfed]; decide
  simp only [Fyster.modelChecked]
  rw [if_neg hgo]

/-! ### Orders of a binding (R304, R305) -/

section
variable {f : Fyster} {g : Nat} {v : List Byte} (hans : f.part.orderAnswer .model g (moSerial v) = .accepted)
include hans

theorem Fyster.wrModelOrder_of_accepted {x : Grp} (hgrp : f.grp g = some x) (hcode : f.modelOrderCode g v = 0) :
    f.wrModelOrder g v =
      (({ f with part := f.part.putOrder { kind := .model, target := g, serial := moSerial v, eff := time96 v 0,
                                           late := decide (time96 v 0 < f.ns), data := v } } : Fyster).setBind g
        { f.bind g with shareNum := (f.orderShare x v).num, shareDen := (f.orderShare x v).den }, 0) := by
  simp only [Fyster.wrModelOrder, hans, hcode, hgrp]
  rfl

theorem Fyster.wrModelOrder_of_none (hlen : v.length = 24) (hgrp : f.grp g = none) : f.wrModelOrder g v = (f, 0x27) := by
  have hcode : f.modelOrderCode g v = 0x27 := by
    simp only [Fyster.modelOrderCode, hgrp, hlen]
    rfl
  simp only [Fyster.wrModelOrder, hans, hcode, hgrp]
  rfl

end

theorem Fyster.bind_setBind_self (f : Fyster) (g : Nat) (x : Bind) : (f.setBind g x).bind g = x := tget_tset_self _ _ _ _

/-- The counts of a group's rows are no counts of reporting. -/
theorem rowCount_key (g : GSlot) (j : Fin 10) : fyReportKeys.contains (objKey (0x4430 + g.val) j.val) = false := by
  revert g j
  decide

theorem Part.rd_zeroed (p : Part) (i : Nat) :
    ((((p.wr i 6 0).wr i 7 0).wr i 8 0).wr i 9 0).rd i 6 = 0 ∧ ((((p.wr i 6 0).wr i 7 0).wr i 8 0).wr i 9 0).rd i 7 = 0 ∧
      ((((p.wr i 6 0).wr i 7 0).wr i 8 0).wr i 9 0).rd i 8 = 0 ∧ ((((p.wr i 6 0).wr i 7 0).wr i 8 0).wr i 9 0).rd i 9 = 0 := by
  have hkey {j k : Nat} (h : j ≠ k) : objKey i j ≠ objKey i k := fun heq => h (Nat.add_left_cancel heq)
  refine ⟨?_, ?_, ?_, Part.rd_wr_self _ _ _ _⟩
  · rw [Part.rd_wr_other _ _ (hkey (by decide)), Part.rd_wr_other _ _ (hkey (by decide)), Part.rd_wr_other _ _ (hkey (by decide)),
      Part.rd_wr_self]
  · rw [Part.rd_wr_other _ _ (hkey (by decide)), Part.rd_wr_other _ _ (hkey (by decide)), Part.rd_wr_self]
  · rw [Part.rd_wr_other _ _ (hkey (by decide)), Part.rd_wr_self]

/-- R305: at E the binding is in force, and the counts of its group start at zero. -/
theorem Fyster.modelTake_of_due {f : Fyster} (g : GSlot) {o : Order} (hord : f.part.order? .model g.val = some o) (hdue : o.eff ≤ f.ns)
    (hturn : f.part.turn .model o.eff = true) :
    (f.modelTake g.val).bind g.val = { f.bind g.val with
        slot := moSlot o.data, serial := o.serial, eff := o.eff, old := some ((f.bind g.val).slot, (f.bind g.val).serial) } ∧
      ((f.modelTake g.val).rd (0x4430 + g.val) 6 = 0 ∧ (f.modelTake g.val).rd (0x4430 + g.val) 7 = 0 ∧
        (f.modelTake g.val).rd (0x4430 + g.val) 8 = 0 ∧ (f.modelTake g.val).rd (0x4430 + g.val) 9 = 0) ∧
      (f.modelTake g.val).part.order? .model g.val = none ∧ (f.modelTake g.val).jun.rows = f.jun.rows ∧
      (f.modelTake g.val).links = f.links := by
  simp only [Fyster.modelTake, hord]
  rw [if_pos ⟨hdue, hturn⟩]
  generalize hu : ({ f with part := f.part.dropOrder .model g.val } : Fyster).setBind g.val { f.bind g.val with
    slot := moSlot o.data, serial := o.serial, eff := o.eff, old := some ((f.bind g.val).slot, (f.bind g.val).serial) } = u
  generalize hw : (((u.wr (0x4430 + g.val) 6 0).wr (0x4430 + g.val) 7 0).wr (0x4430 + g.val) 8 0).wr (0x4430 + g.val) 9 0 = w
  generalize ({ event 0x0021 516 _ o.serial with
    late := o.late, gslot := g.val, noMerge := true, first := some (ts64Of o.eff) } : Event) = e
  have hbare : (w.log e).bareBut [] = w.bareBut [] := Fyster.bare_log w e
  have hjun : (w.log e).jun = u.jun := (congrArg Fyster.jun hbare :).trans (hw ▸ rfl)
  have hcount (j : Fin 10) (h : w.rd (0x4430 + g.val) j.val = 0) : (w.log e).rd (0x4430 + g.val) j.val = 0 :=
    (Fyster.rd_of_bareBut hbare (by rw [List.append_nil]; exact rowCount_key g j)).trans h
  obtain ⟨hscored, hrejected, hskipped, habsent⟩ := Part.rd_zeroed u.part (0x4430 + g.val)
  refine ⟨?_, ⟨hcount 6 (hw ▸ hscored), hcount 7 (hw ▸ hrejected), hcount 8 (hw ▸ hskipped), hcount 9 (hw ▸ habsent)⟩, ?_, (congrArg Jun.rows hjun).trans (hu ▸ rfl),
    (congrArg Fyster.links hbare :).trans (hw ▸ hu ▸ rfl)⟩
  · rw [show (w.log e).bind g.val = u.bind g.val from congrArg (fun j : Jun => tget j.binds g.val .zero) hjun, ← hu]
    exact Fyster.bind_setBind_self _ _ _
  · rw [Part.order?, Fyster.orders_of_bareBut hbare, ← hw, ← hu]
    exact Part.order_dropOrder _ _ _

/-! ### The end of a run (R314, R315) -/

/-- What the end of a run leaves: rows, scores, decisions, links and an object. -/
def Fyster.rowForm (i j : Nat) (f : Fyster) : List Row × Tab (List Score) × Dec × Tab Link × Nat :=
  (f.jun.rows, f.jun.scores, f.dec, f.links, f.rd i j)

section
variable {i j : Nat} (hkey : fyReportKeys.contains (objKey i j) = false)
include hkey

theorem Fyster.rowForm_hostRec (f : Fyster) (r : Rec) : (f.hostRec r).rowForm i j = f.rowForm i j := by
  have hbare : (f.hostRec r).bareBut [] = f.bareBut [] := Fyster.bare_hostRec f r
  refine Prod.ext (congrArg (·.jun.rows) hbare :) (Prod.ext (congrArg (·.jun.scores) hbare :) (Prod.ext (congrArg Fyster.dec hbare :)
    (Prod.ext (congrArg Fyster.links hbare :) (Fyster.rd_of_bareBut hbare ?_))))
  rw [List.append_nil]
  exact hkey

theorem Fyster.rowForm_endRuns (f : Fyster) (hworst : objKey i j ≠ objKey 0x4400 0x0A) : f.endRuns.rowForm i j = f.rowForm i j := by
  simp only [Fyster.endRuns]
  refine (foldl_keeps (Fyster.rowForm i j) _ (fun f r => ?_) _ _).trans rfl
  have hwr (v : Nat) : (f.wr 0x4400 0x0A v).rowForm i j = f.rowForm i j :=
    congrArg (fun n => (f.jun.rows, f.jun.scores, f.dec, f.links, n)) (Part.rd_wr_other f.part v hworst)
  split
  · exact (Fyster.rowForm_hostRec hkey _ _).trans (hwr _)
  · exact hwr _

end

/-- A count of rows is raised at the group and at the unit. -/
theorem Fyster.rd_bump_both (f : Fyster) (g k n : Nat) :
    ((f.bump (0x4430 + g) k n).bump 0x4400 k n).rd (0x4430 + g) k = raised (0x4430 + g) k (f.rd (0x4430 + g) k) n ∧
      ((f.bump (0x4430 + g) k n).bump 0x4400 k n).rd 0x4400 k = raised 0x4400 k (f.rd 0x4400 k) n := by
  have hother : objKey (0x4430 + g) k ≠ objKey 0x4400 k := by simp only [objKey]; omega
  refine ⟨(Part.rd_wr_other _ _ hother).trans (Part.rd_wr_self _ _ _ _), (Part.rd_wr_self _ _ _ _).trans ?_⟩
  exact congrArg (raised 0x4400 k · n) (Part.rd_wr_other _ _ hother.symm)

/-- R307, R308: the rows of a run that have not started are skipped and counted. -/
theorem Fyster.skipRun_of_rows {f : Fyster} (g : GSlot) {inst n : Nat} {r : InstRun} (hrun : f.jun.run? g.val inst = some r)
    (hn : n = (f.jun.rows.filter fun x => x.gslot == g.val && x.inst == inst).length) (hpos : 0 < n) :
    (f.skipRun g.val inst).jun.rows = f.jun.rows.filter (fun x => !(x.gslot == g.val && x.inst == inst)) ∧
      (f.skipRun g.val inst).rd (0x4430 + g.val) 8 = raised (0x4430 + g.val) 8 (f.rd (0x4430 + g.val) 8) n ∧
      (f.skipRun g.val inst).rd 0x4400 8 = raised 0x4400 8 (f.rd 0x4400 8) n ∧ (f.skipRun g.val inst).links = f.links := by
  simp only [Fyster.skipRun, hrun]
  rw [← hn, if_neg (Nat.pos_iff_ne_zero.mp hpos)]
  generalize hu : Fyster.setRun _ _ = u
  have hrows : u.jun.rows = f.jun.rows.filter fun x => !(x.gslot == g.val && x.inst == inst) := hu ▸ rfl
  have hpart : u.part = f.part := hu ▸ rfl
  have hlinks : u.links = f.links := hu ▸ rfl
  obtain ⟨hcount, htotal⟩ := u.rd_bump_both g.val 8 n
  have hgroup := Fyster.rowForm_endRuns (rowCount_key g 8) ((u.bump (0x4430 + g.val) 8 n).bump 0x4400 8 n)
    (by simp only [objKey]; omega)
  have hunit := Fyster.rowForm_endRuns (i := 0x4400) (j := 8) (by decide) ((u.bump (0x4430 + g.val) 8 n).bump 0x4400 8 n) (by decide)
  refine ⟨(congrArg Prod.fst hgroup :).trans hrows, (congrArg (fun z => z.2.2.2.2) hgroup).trans (hcount.trans ?_),
    (congrArg (fun z => z.2.2.2.2) hunit).trans (htotal.trans ?_), (congrArg (fun z => z.2.2.2.1) hgroup).trans hlinks⟩
  · exact congrArg (fun p => raised (0x4430 + g.val) 8 (Part.rd p (0x4430 + g.val) 8) n) hpart
  · exact congrArg (fun p => raised 0x4400 8 (Part.rd p 0x4400 8) n) hpart

theorem Fyster.rowsDeadline_of_due {f : Fyster} {g inst : Nat} {r : InstRun} (hrun : f.jun.run? g inst = some r)
    (hdue : r.deadline ≤ f.ns) : f.rowsDeadline g inst = f.skipRun g inst := by
  simp only [Fyster.rowsDeadline, hrun]
  rw [if_pos (by simp [hdue])]

/-- Settles O38: what a staging write, a check and a binding do, and that the end of a run touches no row and no count. -/
theorem modelSlotsAndBinding : Obligations.ModelSlotsAndBinding := by
  unfold Obligations.ModelSlotsAndBinding
  refine ⟨?image, ?taken, ?stage, ?fetchError, ?checked, ?order, ?noGroup, ?swap, ?deadline⟩
  case image =>
    intro s dt lvl k v hlvl hcode
    refine fyNext_of_onFy rfl ?_
    rw [Fyster.wrModelImage_of_ready (f := s.fy.tick dt) hcode, Fyster.reply_accepted hlvl]
    obtain ⟨hstate, himage, -, hlinks⟩ := (s.fy.tick dt).stage_spec k.val v false
    exact ⟨rfl, hstate, himage, hlinks⟩
  case taken =>
    intro s dt lvl k v hlvl htaken hlen
    refine fyNext_of_onFy rfl ?_
    rw [Fyster.wrModelImage_of_taken (f := s.fy.tick dt) htaken hlen]
    exact Fyster.reply_refused hlvl (Nat.succ_ne_zero _)
  case stage =>
    intro s dt lvl k v d hlvl hlen hspace hcode
    refine fyNext_of_onFy rfl ?_
    rw [Fyster.wrStageFrom_of_ready (f := s.fy.tick dt) d hlen hspace hcode, Fyster.reply_accepted hlvl]
    exact ⟨rfl, ((s.fy.tick dt).stage_spec k.val (d.take (fieldAt v 8 4)) true).2.2.1⟩
  case fetchError =>
    intro s dt k hstate hfetch
    exact fyNext_of_onFy rfl (Fyster.stageError_of_fetch (f := s.fy.tick dt) hstate hfetch)
  case checked =>
    intro s dt k hstate hfed
    exact fyNext_of_onFy rfl (Fyster.modelChecked_of_fed (f := s.fy.tick dt) hstate hfed)
  case order =>
    intro s dt lvl g v x hlvl hgrp hans hcode
    refine fyNext_of_onFy rfl ?_
    rw [Fyster.wrModelOrder_of_accepted (f := s.fy.tick dt) hans hgrp hcode]
    exact Fyster.reply_accepted hlvl
  case noGroup =>
    intro s dt lvl g v hlvl hlen hgrp hans
    refine fyNext_of_onFy rfl ?_
    rw [Fyster.wrModelOrder_of_none (f := s.fy.tick dt) hans hlen hgrp]
    exact Fyster.reply_refused hlvl (Nat.succ_ne_zero _)
  case swap =>
    intro s dt g o hord hdue hturn
    refine fyNext_of_onFy rfl ?_
    obtain ⟨hbind, ⟨hscored, hrejected, hskipped, habsent⟩, hleft, hrows, hlinks⟩ :=
      Fyster.modelTake_of_due (f := s.fy.tick dt) g hord hdue hturn
    rw [hbind]
    exact ⟨rfl, rfl, rfl, rfl, hscored, hrejected, hskipped, habsent, hleft, hrows, hlinks⟩
  case deadline =>
    intro s dt g inst r n hrun hdue hn hpos
    refine fyNext_of_onFy rfl ?_
    rw [Fyster.rowsDeadline_of_due (f := s.fy.tick dt) hrun hdue]
    exact Fyster.skipRun_of_rows (f := s.fy.tick dt) g hrun hn hpos

/-! ### Rows scored and rows on demand (R296, R307, R311) -/

section
variable {f : Fyster} {run : InstRun} {r : Row} (hover : (f.jun.runs.filter fun r => f.rowsOver r) = [])
  (hrun : f.jun.nextRun = some run) (hrow : (f.jun.rows.find? fun x => x.gslot == run.gslot && x.inst == run.inst) = some r)
include hover hrun hrow

theorem Fyster.rowStep_of_run : f.rowStep = (f.rowDone run r, none) := by
  simp only [Fyster.rowStep, hover, List.foldl_nil, hrun, hrow]

end

theorem Fyster.rowForm_report {i j : Nat} (hkey : fyReportKeys.contains (objKey i j) = false) (hworst : objKey i j ≠ objKey 0x4400 0x0A)
    (f : Fyster) (c : Bool) (r : Row) (out : List Nat) (a b : Nat) :
    (if c = true then f.rowRecord r out a b else f).endRuns.rowForm i j = f.rowForm i j := by
  refine (Fyster.rowForm_endRuns hkey _ hworst).trans ?_
  split
  · exact Fyster.rowForm_hostRec hkey _ _
  · rfl

/-- The counts of a row that is done, before the run is looked at. -/
def Fyster.rowCounted (f w : Fyster) (r : Row) (k : Nat) : Prop :=
  w.jun.rows = f.jun.rows.erase r ∧ w.links = f.links ∧
    w.rd (0x4430 + r.gslot) k = raised (0x4430 + r.gslot) k (f.rd (0x4430 + r.gslot) k) 1 ∧
    w.rd 0x4400 k = raised 0x4400 k (f.rd 0x4400 k) 1

section
variable {f : Fyster} {run : InstRun} {r : Row}

/-- R296: the row is scored and counted; then its record may go out, and its run may end. -/
theorem Fyster.rowDone_of_scored {out : List Nat} {n : Nat} (hscore : scoreRow (f.mslot r.mslot).image r.raws = .scored out n) :
    ∃ (w : Fyster) (h : HealthRow) (c : Bool) (a b : Nat),
      f.rowDone run r = (if c = true then w.rowRecord r out a b else w).endRuns ∧ f.rowCounted w r 6 ∧
      w.dec.health = f.dec.health ++ [h] ∧ (h.gslot, h.inst, h.port, h.tile, h.out) = (r.gslot, r.inst, r.port, r.tile, out) := by
  simp only [Fyster.rowDone, hscore]
  exact ⟨_, _, _, _, _, rfl, ⟨rfl, rfl, (Fyster.rd_bump_both _ _ _ _).1, (Fyster.rd_bump_both _ r.gslot _ _).2⟩, rfl, rfl⟩

theorem Fyster.rowDone_of_rejected {i : Nat} (hscore : scoreRow (f.mslot r.mslot).image r.raws = .rejected i) :
    ∃ w : Fyster, f.rowDone run r = w.endRuns ∧ f.rowCounted w r 7 ∧ w.dec = f.dec ∧ w.jun.scores = f.jun.scores := by
  simp only [Fyster.rowDone, hscore]
  exact ⟨_, rfl, ⟨rfl, rfl, (Fyster.rd_bump_both _ _ _ _).1, (Fyster.rd_bump_both _ r.gslot _ _).2⟩, rfl, rfl⟩

end

/-- A count of rows that stands when the run may end stands afterwards. -/
theorem Fyster.rowCounted_of_rowForm {f w z : Fyster} {r : Row} (hgroup : r.gslot < 64) (k : Fin 10) (hcount : f.rowCounted w r k.val)
    (hunit : fyReportKeys.contains (objKey 0x4400 k.val) = false)
    (hform : ∀ i j, fyReportKeys.contains (objKey i j) = false → objKey i j ≠ objKey 0x4400 0x0A → z.rowForm i j = w.rowForm i j) :
    f.rowCounted z r k.val := by
  obtain ⟨hrows, hlinks, hgslot, htotal⟩ := hcount
  have hg := hform (0x4430 + r.gslot) k.val (rowCount_key ⟨r.gslot, hgroup⟩ k) (by simp only [objKey]; omega)
  have hu := hform 0x4400 k.val hunit (by simp only [objKey]; omega)
  exact ⟨(congrArg Prod.fst hg :).trans hrows, (congrArg (fun z => z.2.2.2.1) hg).trans hlinks,
    (congrArg (fun z => z.2.2.2.2) hg).trans hgslot, (congrArg (fun z => z.2.2.2.2) hu).trans htotal⟩

section
variable {f : Fyster}

theorem Fyster.rowStep_of_demand {d : Demand} (hidle : f.jun.runs = []) (hdem : f.jun.demand = some d) :
    f.rowStep =
      ({ f with part := f.part.wrDom 0x4470 2 (rowResult (scoreRow (f.mslot d.slot).image d.raws))
                jun := { f.jun with demand := none, busyUntil := f.ns } }, some d.why) := by
  simp only [Fyster.rowStep, hidle, List.filter_nil, List.foldl_nil, Jun.nextRun, hdem]

theorem Fyster.wrRowSubmit_of_ready {v : List Byte} (why : Option RelayFor) (hslot : fieldAt v 0 1 ≤ 2)
    (hvalid : (f.mslot (fieldAt v 0 1)).state = 2) (hlen : v.length = 8 + 4 * mRaw (f.mslot (fieldAt v 0 1)).image)
    (hfree : f.jun.demand = none) :
    f.wrRowSubmit v why =
      ({ f with jun := { f.jun with demand := some {
          slot := fieldAt v 0 1
          raws := (List.range (mRaw (f.mslot (fieldAt v 0 1)).image)).map fun i =>
            (mRawIn (f.mslot (fieldAt v 0 1)).image i).value (conv fp32 fp64 .even (fieldAt v (8 + 4 * i) 4))
          since := f.ns
          why := why } } }, 0) := by
  have hhead : decide (v.length < 8) = false := by rw [hlen]; simp
  have hin : decide (2 < fieldAt v 0 1) = false := by simpa using hslot
  have hstate : ((f.mslot (fieldAt v 0 1)).state != 2) = false := by rw [hvalid]; rfl
  have hsize : (v.length != 8 + 4 * mRaw (f.mslot (fieldAt v 0 1)).image) = false := by rw [hlen]; exact bne_self_eq_false _
  have hnone : f.jun.demand.isSome = false := by rw [hfree]; rfl
  simp only [Fyster.wrRowSubmit, hhead, hin, hstate, hsize, hnone]
  rfl

theorem Fyster.wrRowSubmit_of_length {v : List Byte} (why : Option RelayFor) (hhead : 8 ≤ v.length) (hslot : fieldAt v 0 1 ≤ 2)
    (hinvalid : (f.mslot (fieldAt v 0 1)).state ≠ 2) (hlen : v.length ≠ 8 + 4 * mRaw (f.mslot (fieldAt v 0 1)).image) :
    f.wrRowSubmit v why = (f, 0x24) := by
  have hshort : decide (v.length < 8) = false := by simpa using hhead
  have hin : decide (2 < fieldAt v 0 1) = false := by simpa using hslot
  have hstate : ((f.mslot (fieldAt v 0 1)).state != 2) = true := by simpa using hinvalid
  have hsize : (v.length != 8 + 4 * mRaw (f.mslot (fieldAt v 0 1)).image) = true := by simpa using hlen
  simp only [Fyster.wrRowSubmit, hshort, hin, hstate, hsize]
  cases f.jun.demand.isSome <;> rfl

theorem Fyster.demandLate_of_late {d : Demand} (hdem : f.jun.demand = some d) (hlate : d.since + 10000000 ≤ f.ns) :
    f.demandLate = ({ f with jun := { f.jun with demand := none } }, some d.why) := by
  simp only [Fyster.demandLate, hdem]
  rw [if_pos hlate]

/-! ### Batch runs (R312) -/

theorem Fyster.wrBatchStart_of_ready {n : Nat} (hidle : f.jun.batch.state ≠ 1) (hoff : f.jun.batch.state ≠ 2)
    (hspec : f.jun.batch.spec.isEmpty = false) (hvalid : (f.mslot (fieldAt f.jun.batch.spec 0 1)).state = 2) :
    f.wrBatchStart n =
      let f₁ : Fyster := { f with jun := { f.jun with batch := { f.jun.batch with state := 1, serial := n, rows := 0 } } }
      let f₂ := f₁.pwr 5 ((f₁.part.pwrReq 5).ask 250 f.part.time.now)
      (if f₂.granted 5 then { f₂ with jun := { f₂.jun with batch := { f₂.jun.batch with state := 2 } } } else f₂, 0) := by
  have hbusy : (f.jun.batch.state == 1 || f.jun.batch.state == 2) = false := by simp [hidle, hoff]
  have hstate : ((f.mslot (fieldAt f.jun.batch.spec 0 1)).state != 2) = false := by rw [hvalid]; rfl
  simp only [Fyster.wrBatchStart, hbusy, hspec, hstate]
  rfl

theorem Fyster.wrBatchStart_of_busy {n : Nat}
    (hbusy : f.jun.batch.state = 1 ∨ f.jun.batch.state = 2 ∨ f.jun.batch.spec.isEmpty = true) : f.wrBatchStart n = (f, 0x27) := by
  have hstop : (f.jun.batch.state == 1 || f.jun.batch.state == 2 || f.jun.batch.spec.isEmpty ||
      (f.mslot (fieldAt f.jun.batch.spec 0 1)).state != 2) = true := by
    rcases hbusy with h | h | h <;> simp [h]
  simp only [Fyster.wrBatchStart, hstop]
  rfl

theorem Fyster.wrBatchAbort_of_running (hrun : f.jun.batch.state = 1 ∨ f.jun.batch.state = 2) : f.wrBatchAbort 1 = (f.batchEnd 4, 0) := by
  rw [Fyster.wrBatchAbort, if_neg (by decide), if_pos ⟨rfl, hrun⟩]

end

/-- The end of a batch run returns its power, and changes nothing else of Juniper. -/
theorem Fyster.batch_batchEnd (f : Fyster) (n : Nat) : (f.batchEnd n).jun.batch = { f.jun.batch with state := n } := by
  rw [Fyster.batchEnd]
  exact congrArg Jun.batch (congrArg Fyster.jun (Fyster.around_pwr _ _ _))

/-- Settles O39: a released row comes before the one on demand, and a batch run starts and ends with its power. -/
theorem rowsAndBatches : Obligations.RowsAndBatches := by
  unfold Obligations.RowsAndBatches
  refine ⟨?scored, ?rejected, ?demand, ?submit, ?badLength, ?late, ?start, ?busy, ?abort⟩
  case scored =>
    intro s dt run r out n hover hrun hrow hgroup hscore
    refine fyNext_of_onFy rfl ?_
    rw [Fyster.rowStep_of_run (f := s.fy.tick dt) hover hrun hrow]
    obtain ⟨w, h, c, a, b, heq, hcount, hhealth, hrowof⟩ := Fyster.rowDone_of_scored (f := s.fy.tick dt) (run := run) hscore
    have hform (i j : Nat) (hkey : fyReportKeys.contains (objKey i j) = false) (hworst : objKey i j ≠ objKey 0x4400 0x0A) :=
      Fyster.rowForm_report hkey hworst w c r out a b
    obtain ⟨hrows, hlinks, hgslot, hunit⟩ := Fyster.rowCounted_of_rowForm hgroup 6 hcount (by decide) hform
    have hdec : (if c = true then w.rowRecord r out a b else w).endRuns.dec = w.dec :=
      congrArg (fun z => z.2.2.1) (hform 0x4400 6 (by decide) (by decide))
    simp only [heq]
    refine ⟨hrows, hgslot, hunit, ?_, hlinks⟩
    rw [hdec, hhealth, List.getLast?_concat]
    exact congrArg some hrowof
  case rejected =>
    intro s dt run r i hover hrun hrow hgroup hscore
    refine fyNext_of_onFy rfl ?_
    rw [Fyster.rowStep_of_run (f := s.fy.tick dt) hover hrun hrow]
    obtain ⟨w, heq, hcount, hdec, hscores⟩ := Fyster.rowDone_of_rejected (f := s.fy.tick dt) (run := run) hscore
    have hform (i j : Nat) (hkey : fyReportKeys.contains (objKey i j) = false) (hworst : objKey i j ≠ objKey 0x4400 0x0A) :=
      Fyster.rowForm_endRuns hkey w hworst
    obtain ⟨hrows, hlinks, hgslot, hunit⟩ := Fyster.rowCounted_of_rowForm hgroup 7 hcount (by decide) hform
    have hkept := hform 0x4400 7 (by decide) (by decide)
    simp only [heq]
    exact ⟨hrows, hgslot, hunit, (congrArg (fun z => z.2.2.1) hkept).trans hdec, (congrArg (fun z => z.2.1) hkept).trans hscores, hlinks⟩
  case demand =>
    intro s dt d hidle hdem hwhy
    refine fyNext_of_onFy rfl ?_
    rw [Fyster.rowStep_of_demand (f := s.fy.tick dt) hidle hdem, hwhy]
    rfl
  case submit =>
    intro s dt lvl v hlvl hslot hvalid hlen hfree
    refine fyNext_of_onFy rfl ?_
    rw [Fyster.wrRowSubmit_of_ready (f := s.fy.tick dt) none hslot hvalid hlen hfree, if_neg (Nat.not_lt.mpr hlvl)]
    rfl
  case badLength =>
    intro s dt lvl v hlvl hhead hslot hinvalid hlen
    refine fyNext_of_onFy rfl ?_
    rw [Fyster.wrRowSubmit_of_length (f := s.fy.tick dt) none hhead hslot hinvalid hlen, if_neg (Nat.not_lt.mpr hlvl)]
    rfl
  case late =>
    intro s dt d hdem hwhy hlate
    refine fyNext_of_onFy rfl ?_
    rw [Fyster.demandLate_of_late (f := s.fy.tick dt) hdem hlate, hwhy]
    rfl
  case start =>
    intro s dt lvl n hlvl hidle hoff hspec hvalid
    refine fyNext_of_onFy rfl ?_
    rw [Fyster.wrBatchStart_of_ready (f := s.fy.tick dt) hidle hoff hspec hvalid]
    exact Fyster.reply_accepted hlvl
  case busy =>
    intro s dt lvl n hlvl hbusy
    refine fyNext_of_onFy rfl ?_
    rw [Fyster.wrBatchStart_of_busy (f := s.fy.tick dt) hbusy]
    exact Fyster.reply_refused hlvl (Nat.succ_ne_zero _)
  case abort =>
    intro s dt lvl hlvl hrun
    refine fyNext_of_onFy rfl ?_
    rw [show (1 : Byte).toNat = 1 from rfl, Fyster.wrBatchAbort_of_running (f := s.fy.tick dt) hrun, Fyster.reply_accepted hlvl]
    exact ⟨rfl, Fyster.batch_batchEnd _ _⟩

end Sys2Proof.Machine
end

section
/-! SUPPORT. Calibration objects, stores into NOR, and procedures that are repeated (R365, R399, R400). -/

namespace Sys2Proof.Machine

/-! ### The arm and writes under it (R365) -/

theorem Fyster.wrCalArm_of_digest {f : Fyster} {session v : Nat} (h : v = f.calDigest) :
    f.wrCalArm session v = (f.modSession session fun s => { s with armedAt := some f.ns }, 0) := by
  rw [Fyster.wrCalArm, if_pos h]

theorem Fyster.wrCalArm_of_other {f : Fyster} {session v : Nat} (h : v ≠ f.calDigest) : f.wrCalArm session v = (f, 0x2C) := by
  rw [Fyster.wrCalArm, if_neg h]

theorem not_isNone_of_isSome {α : Type} {o : Option α} (h : o.isSome = true) : ¬o.isNone = true := by
  cases o with
  | none => exact absurd h Bool.false_ne_true
  | some a => exact Bool.false_ne_true

theorem crcBit_lt {c : Nat} (h : c < 2 ^ 32) : crcBit c < 2 ^ 32 := by
  have hhalf : c / 2 < 2 ^ 32 := by omega
  rw [crcBit]
  split
  · exact Nat.xor_lt_two_pow hhalf (by decide)
  · exact hhalf

theorem crcByte_lt {c : Nat} (h : c < 2 ^ 32) (b : Byte) : crcByte c b < 2 ^ 32 := by
  have hb : b.toNat < 2 ^ 32 := Nat.lt_trans b.isLt (by decide)
  iterate 8 refine crcBit_lt ?_
  exact Nat.xor_lt_two_pow h hb

theorem crc32c_lt (bs : List Byte) : crc32c bs < 2 ^ 32 := by
  have hrun : crcRun 0xFFFFFFFF bs < 2 ^ 32 :=
    List.foldlRecOn (motive := fun c => c < 2 ^ 32) bs crcByte (by decide) fun _ h b _ => crcByte_lt h b
  exact Nat.xor_lt_two_pow hrun (by decide)

/-- A write that no TU is told of changes Fyster alone. -/
theorem State.afterWrite_of_unpushed (s : State) (f : Fyster) {i k : Nat} (h : pushPorts i k = []) :
    s.afterWrite f i k = { s with fy := f } := by
  rw [State.afterWrite, h]
  rfl

/-- A sequence of accepted checks: the write of an object at 0x7000 or above that is not kept in NOR by itself. -/
theorem Fyster.wrObj_high {f g : Fyster} {tus : Tab Tu} {session level i k a : Nat} {v : List Byte} {why : Option RelayFor}
    (hcode : writeCode 1 level i k v = 0) (hhigh : 0x7000 ≤ i) (hkey : persistentObj (objKey i k) = false)
    (hwr : f.wrObj5 session i k v (leNat v) = (g, a)) (hsame : a ≠ 0 → g = f) : f.wrObj tus session level i k v why = (g, a) := by
  have hstay : g.persistIf i k = g := if_neg (by rw [hkey]; decide)
  simp only [Fyster.wrObj, hcode, hwr]
  rw [if_neg (show ¬i < 0x2000 by omega), if_neg (show ¬i < 0x4400 by omega), if_neg (show ¬i < 0x6000 by omega),
    if_neg (show ¬i < 0x7000 by omega), hstay]
  split
  · rename_i h
    rw [show a = 0 from h]
  · rename_i h
    rw [hsame h]

/-- The objects of a calibration set are written as such, and none of them is kept by itself. -/
theorem Fyster.wrObj5_calibration {f : Fyster} {session i k n : Nat} {v : List Byte} (hcal : calIndex i = true) :
    f.wrObj5 session i k v n = f.wrCal session i k n := by
  have hlo : 0x7C01 ≤ i := by
    simp only [calIndex, Bool.and_eq_true, decide_eq_true_eq] at hcal
    exact hcal.1
  rw [Fyster.wrObj5, if_neg (fun h => by omega), if_neg (by omega), if_neg (fun h => by omega), if_neg (by omega), if_pos hlo]

theorem persistentObj_calibration {i : Nat} (k : Byte) (hcal : calIndex i = true) : persistentObj (objKey i k.toNat) = false := by
  have hk : k.toNat < 256 := k.isLt
  have hlo : 0x7C01 ≤ i := by
    simp only [calIndex, Bool.and_eq_true, decide_eq_true_eq] at hcal
    exact hcal.1
  have hindex : objKey i k.toNat / 256 = i := by simp only [objKey]; omega
  have hne (j : Nat) (h : j < 0x7C01) : (i == j) = false := beq_false_of_ne (by omega)
  simp only [persistentObj, hindex]
  rw [hne 0x1001 (by decide), hne 0x1010 (by decide), hne 0x1100 (by decide), hne 0x1030 (by decide), hne 0x1110 (by decide),
    hne 0x1111 (by decide), hne 0x1210 (by decide), hne 0x1220 (by decide), hne 0x3600 (by decide), hne 0x7880 (by decide)]
  rfl

theorem calIndex_above {i : Nat} (k : Byte) (hcal : calIndex i = true) : objKey 0x7C00 3 < objKey i k.toNat := by
  simp only [calIndex, Bool.and_eq_true, decide_eq_true_eq] at hcal
  simp only [objKey]
  omega

theorem answersLater_calibration {i k a : Nat} (hcal : calIndex i = true) : answersLater i k a = false := by
  simp only [calIndex, Bool.and_eq_true, decide_eq_true_eq] at hcal
  rw [answersLater, beq_false_of_ne (by omega)]
  rfl

/-- The objects of the set that no TU takes. -/
theorem pushPorts_calibration {i k : Nat} (hcal : calIndex i = true) (hasym : i ≠ 0x7C10) (hlast : i < 0x7C40) : pushPorts i k = [] := by
  simp only [calIndex, Bool.and_eq_true, decide_eq_true_eq] at hcal
  rw [pushPorts, if_neg (by omega), if_neg (by omega), if_neg (by omega)]

theorem Fyster.wrObj_calibration {f g : Fyster} {tus : Tab Tu} {session level i a : Nat} {k : Byte} {v : List Byte}
    {why : Option RelayFor} (hcode : writeCode 1 level i k.toNat v = 0) (hcal : calIndex i = true)
    (hwr : f.wrCal session i k.toNat (leNat v) = (g, a)) (hsame : a ≠ 0 → g = f) :
    f.wrObj tus session level i k.toNat v why = (g, a) := by
  refine Fyster.wrObj_high hcode ?_ (persistentObj_calibration k hcal) ((Fyster.wrObj5_calibration hcal).trans hwr) hsame
  simp only [calIndex, Bool.and_eq_true, decide_eq_true_eq] at hcal
  omega

section
variable {f : Fyster} {session i k n : Nat}

theorem Fyster.wrCal_of_armed (hcode : f.calCode session = 0) : f.wrCal session i k n = ((f.wr i k n).calChanged session, 0) := by
  simp only [Fyster.wrCal, hcode]

theorem Fyster.wrCal_of_locked (hidle : f.calNor.busy = none) (hlocked : f.calArmed session = false) :
    f.wrCal session i k n = (f, 0x50) := by
  have hcode : f.calCode session = 0x50 := by
    rw [Fyster.calCode, hidle, hlocked]
    rfl
  simp only [Fyster.wrCal, hcode]

end

/-! ### Stores into NOR (R365, R400) -/

theorem NorStore.values_stored {n : NorStore} {v : List (Nat × Nat)} {again : Bool} (hbusy : n.busy = some (v, again)) :
    n.stored.values = some v := by
  simp only [NorStore.stored, hbusy]
  split
  · rfl
  · rfl

theorem NorStore.missed_of_busy {n : NorStore} {v : List (Nat × Nat)} {again : Bool} (hbusy : n.busy = some (v, again)) :
    n.missed = if again = true then ({ n with busy := none, failed := true }, false) else ({ n with busy := some (v, true) }, true) := by
  simp only [NorStore.missed, hbusy]

/-- One of the two stores. -/
def Fyster.norOf (f : Fyster) (cal : Bool) : NorStore := if cal then f.calNor else f.objNor

/-- Fyster with one of the two stores replaced. -/
def Fyster.putNor (f : Fyster) (cal : Bool) (n : NorStore) : Fyster := if cal then { f with calNor := n } else { f with objNor := n }

section
variable {f : Fyster} {cal : Bool} {v : List (Nat × Nat)} {again : Bool} (hbusy : (f.norOf cal).busy = some (v, again))
include hbusy

theorem Fyster.norStoreDone_of_good :
    f.norStoreDone cal true =
      if (f.putNor cal (f.norOf cal).stored).calNor.failed || (f.putNor cal (f.norOf cal).stored).objNor.failed
      then f.putNor cal (f.norOf cal).stored else (f.putNor cal (f.norOf cal).stored).recovDone 9 := by
  have hgo : ¬(f.norOf cal).busy.isNone = true := by rw [hbusy]; exact Bool.false_ne_true
  exact if_neg hgo

theorem Fyster.norStoreDone_of_bad :
    f.norStoreDone cal false =
      if again = true then
        let g := f.putNor cal { f.norOf cal with busy := none, failed := true }
        { g with part := { g.part with recov := tset g.part.recov 9 { g.part.recovOf 9 with running := true, failed := true, since := g.ns } } }
      else (f.putNor cal { f.norOf cal with busy := some (v, true) }).recovStart 9 := by
  have hgo : ¬(f.norOf cal).busy.isNone = true := by rw [hbusy]; exact Bool.false_ne_true
  refine (if_neg hgo).trans ((if_neg Bool.false_ne_true).trans ?_)
  rw [show (if cal = true then f.calNor else f.objNor).missed = _ from NorStore.missed_of_busy hbusy]
  cases again <;> rfl

end

theorem Fyster.norOf_putNor (f : Fyster) (cal : Bool) (n : NorStore) : (f.putNor cal n).norOf cal = n := by
  cases cal <;> rfl

/-- What a store and its procedure leave of Fyster. -/
def Fyster.besideNor (f : Fyster) (cal : Bool) : NorStore × Tab Link × Tab Nat := (f.norOf !cal, f.links, f.part.obj)

theorem Fyster.besideNor_putNor (f : Fyster) (cal : Bool) (n : NorStore) : (f.putNor cal n).besideNor cal = f.besideNor cal := by
  cases cal <;> rfl

theorem Fyster.norOf_of_bareRecov {f g : Fyster} (h : f.bareRecov = g.bareRecov) (cal : Bool) : f.norOf cal = g.norOf cal :=
  (congrArg (fun f : Fyster => f.norOf cal) h :)

theorem Fyster.besideNor_of_bareRecov {f g : Fyster} (h : f.bareRecov = g.bareRecov) (cal : Bool) (hobj : f.part.obj = g.part.obj) :
    f.besideNor cal = g.besideNor cal :=
  Prod.ext (Fyster.norOf_of_bareRecov h _) (Prod.ext (congrArg Fyster.links h :) hobj)

theorem Fyster.other_of_besideNor {f g : Fyster} {cal : Bool} (h : g.besideNor cal = f.besideNor cal) :
    if cal then g.objNor = f.objNor else g.calNor = f.calNor := by
  cases cal
  · exact congrArg Prod.fst h
  · exact congrArg Prod.fst h

section
variable {f : Fyster} {cal : Bool} {v : List (Nat × Nat)} {again : Bool} (hbusy : (f.norOf cal).busy = some (v, again))
include hbusy

/-- R365: a store that reads back is in force. -/
theorem Fyster.norOf_norStoreDone_of_good :
    (f.norStoreDone cal true).norOf cal = (f.norOf cal).stored ∧ (f.norStoreDone cal true).besideNor cal = f.besideNor cal := by
  rw [Fyster.norStoreDone_of_good hbusy]
  split
  · exact ⟨f.norOf_putNor cal _, f.besideNor_putNor cal _⟩
  · have hrecov := (f.putNor cal (f.norOf cal).stored).bareRecov_recovDone 9
    have hobj : ((f.putNor cal (f.norOf cal).stored).recovDone 9).part.obj = (f.putNor cal (f.norOf cal).stored).part.obj := by
      rw [Fyster.recovDone]
      split <;> rfl
    exact ⟨(Fyster.norOf_of_bareRecov hrecov cal).trans (f.norOf_putNor cal _),
      (Fyster.besideNor_of_bareRecov hrecov cal hobj).trans (f.besideNor_putNor cal _)⟩

/-- R400: a store that does not read back is tried once more, then its procedure is FAILED. -/
theorem Fyster.norStoreDone_bad_spec :
    ((f.norStoreDone cal false).norOf cal).busy = (if again then none else some (v, true)) ∧
      ((f.norStoreDone cal false).norOf cal).values = (f.norOf cal).values ∧
      (again = true → ((f.norStoreDone cal false).norOf cal).failed = true ∧ ((f.norStoreDone cal false).part.recovOf 9).failed = true) ∧
      (f.norStoreDone cal false).norOf (!cal) = f.norOf (!cal) ∧ (f.norStoreDone cal false).links = f.links := by
  rw [Fyster.norStoreDone_of_bad hbusy]
  cases again
  · have hrecov := (f.putNor cal { f.norOf cal with busy := some (v, true) }).bareRecov_recovStart 9
    rw [if_neg Bool.false_ne_true, Fyster.norOf_of_bareRecov hrecov, Fyster.norOf_of_bareRecov hrecov, Fyster.norOf_putNor]
    have hput := f.besideNor_putNor cal { f.norOf cal with busy := some (v, true) }
    exact ⟨rfl, rfl, fun h => absurd h Bool.false_ne_true, congrArg Prod.fst hput,
      (congrArg Fyster.links hrecov :).trans (congrArg (fun z => z.2.1) hput)⟩
  · rw [if_pos rfl]
    have hput := f.besideNor_putNor cal { f.norOf cal with busy := none, failed := true }
    have hself := f.norOf_putNor cal { f.norOf cal with busy := none, failed := true }
    refine ⟨(congrArg NorStore.busy hself :), (congrArg NorStore.values hself :), fun _ => ⟨(congrArg NorStore.failed hself :), ?_⟩,
      congrArg Prod.fst hput, congrArg (fun z => z.2.1) hput⟩
    exact congrArg Recovery.failed (tget_tset_self _ _ _ _)

end

/-! ### Procedures that are repeated (R399) -/

theorem Tu.recovAgain_spec (t : Tu) (row : Nat) :
    (t.recovAgain row).part = t.part ∧ (t.recovAgain row).sets = t.sets ∧
      (t.recovAgain row).link.st = if row = 1 ∧ t.link.st = .down then .training else t.link.st := by
  rw [Tu.recovAgain]
  split
  · exact ⟨rfl, rfl, rfl⟩
  · exact ⟨rfl, rfl, rfl⟩

/-- A start is counted in its procedure, and its report leaves procedures, link and sets. -/
theorem Tu.recovCount_spec (t : Tu) (row : Nat) :
    (t.recovCount row).part.recovOf row = (t.part.recovOf row).start t.ns ∧ (t.recovCount row).link = t.link ∧
      (t.recovCount row).sets = t.sets := by
  rw [Tu.recovCount]
  generalize hu : ({ t with part := { t.part with recov := tset t.part.recov row ((t.part.recovOf row).start t.ns) } } : Tu) = u
  have hbare (e : Event) : (u.log e).bareBut [] = u.bareBut [] := Tu.bare_log u e
  have hrecov (e : Event) : (u.log e).part.recov = u.part.recov := (congrArg (·.part.recov) (hbare e) :)
  have hself : u.part.recovOf row = (t.part.recovOf row).start t.ns := hu ▸ tget_tset_self _ _ _ _
  refine ⟨?_, (congrArg Tu.link (hbare _) :).trans (hu ▸ rfl), (congrArg Tu.sets (hbare _) :).trans (hu ▸ rfl)⟩
  exact (congrArg (fun l => tget l row Recovery.zero) (hrecov _)).trans hself

theorem Fyster.recovCount_spec (f : Fyster) (row : Nat) :
    (f.recovCount row).part.recovOf row = (f.part.recovOf row).start f.ns ∧ (f.recovCount row).links = f.links ∧
      (f.recovCount row).red = f.red := by
  rw [Fyster.recovCount]
  generalize hu : ({ f with part := { f.part with recov := tset f.part.recov row ((f.part.recovOf row).start f.ns) } } : Fyster) = u
  have hbare (e : Event) : (u.log e).bareBut [] = u.bareBut [] := Fyster.bare_log u e
  have hrecov (e : Event) : (u.log e).part.recov = u.part.recov := (congrArg (·.part.recov) (hbare e) :)
  have hself : u.part.recovOf row = (f.part.recovOf row).start f.ns := hu ▸ tget_tset_self _ _ _ _
  refine ⟨?_, (congrArg Fyster.links (hbare _) :).trans (hu ▸ rfl), (congrArg Fyster.red (hbare _) :).trans (hu ▸ rfl)⟩
  exact (congrArg (fun l => tget l row Recovery.zero) (hrecov _)).trans hself

/-- A link that is down trains again. -/
def Fyster.retrain (f : Fyster) (p : Nat) : Fyster :=
  if (f.link p).st = .down then f.setLink p { f.link p with st := .training, failedAt := none } else f

theorem Fyster.st_retrain (f : Fyster) (p q : Nat) :
    ((f.retrain q).link p).st = if p = q ∧ (f.link p).st = .down then .training else (f.link p).st := by
  rw [Fyster.retrain]
  by_cases hdown : (f.link q).st = .down
  · rw [if_pos hdown]
    by_cases hq : p = q
    · subst hq
      rw [Fyster.link_setLink_self, if_pos ⟨rfl, hdown⟩]
    · rw [if_neg fun h => hq h.1]
      exact congrArg Link.st (tget_tset_other _ _ _ hq)
  · have hstay : ¬(p = q ∧ (f.link p).st = .down) := fun ⟨hq, hp⟩ => hdown (hq ▸ hp)
    rw [if_neg hdown, if_neg hstay]

theorem Fyster.st_foldl_retrain (p : Nat) : ∀ (l : List Nat) (f : Fyster),
    ((l.foldl Fyster.retrain f).link p).st = if p ∈ l ∧ (f.link p).st = .down then .training else (f.link p).st
  | [], f => (if_neg fun h => absurd h.1 List.not_mem_nil).symm
  | q :: l, f => by
    rw [List.foldl_cons, Fyster.st_foldl_retrain p l, Fyster.st_retrain]
    by_cases hdown : (f.link p).st = .down
    · by_cases hq : p = q
      · subst hq
        simp [hdown]
      · simp [hq, hdown]
    · simp [hdown]

theorem Fyster.recovAgain_spec (f : Fyster) (row : Nat) (p : Port) :
    (f.recovAgain row).part = f.part ∧ (f.recovAgain row).red = f.red ∧
      ((f.recovAgain row).link p.val).st =
        if row = 1 ∧ (f.link p.val).st = .down then .training else (f.link p.val).st := by
  by_cases hrow : row = 1
  · have hkeep : ∀ (l : List Nat) (f : Fyster), ((l.foldl Fyster.retrain f).part, (l.foldl Fyster.retrain f).red) = (f.part, f.red) :=
      fun l f => foldl_keeps (fun f : Fyster => (f.part, f.red)) _ (fun f q => by
        rw [Fyster.retrain]
        split <;> rfl) _ _
    have hmem : p.val ∈ List.range 32 := List.mem_range.mpr p.isLt
    have hagain : f.recovAgain 1 = (List.range 32).foldl Fyster.retrain f := by
      rw [Fyster.recovAgain]
      refine congrArg (fun g => List.foldl g f (List.range 32)) ?_
      funext f p
      rfl
    subst hrow
    rw [hagain, Fyster.st_foldl_retrain p.val]
    simp only [hmem, true_and]
    obtain ⟨hpart, hred⟩ := Prod.mk.inj (hkeep (List.range 32) f)
    exact ⟨hpart, hred, trivial⟩
  · have hkept : (f.recovAgain row).part = f.part ∧ (f.recovAgain row).red = f.red ∧ (f.recovAgain row).links = f.links := by
      by_cases hnor : row = 9
      · subst hnor
        rw [Fyster.recovAgain]
        split <;> split <;> exact ⟨rfl, rfl, rfl⟩
      · rw [Fyster.recovAgain]
        · exact ⟨rfl, rfl, rfl⟩
        · exact hrow
        · exact hnor
    obtain ⟨hpart, hred, hlinks⟩ := hkept
    rw [if_neg fun h => hrow h.1]
    exact ⟨hpart, hred, congrArg (fun l => (tget l p.val Link.reset).st) hlinks⟩

/-- Settles O41: a write under the arm passes the checks of its object, and a store or a repeated procedure touches itself alone. -/
theorem calibration : Obligations.Calibration := by
  unfold Obligations.Calibration
  refine ⟨?arm, ?badDigest, ?write, ?locked, ?stored, ?missed, ?tuRetry, ?retry⟩
  case arm =>
    intro s dt n lvl v hlvl hsession hdigest
    refine fyNext_of_onFy rfl ?_
    have hvalue : v.toNat = (s.fy.tick dt).calDigest := by
      rw [hdigest, BitVec.toNat_ofNat]
      exact Nat.mod_eq_of_lt (crc32c_lt _)
    have hopen := not_isNone_of_isSome (o := (s.fy.tick dt).session? n.toNat) hsession
    rw [if_neg hopen, Fyster.wrCalArm_of_digest (f := s.fy.tick dt) hvalue]
    exact Fyster.reply_accepted hlvl
  case badDigest =>
    intro s dt n lvl v hlvl hsession hdigest
    refine fyNext_of_onFy rfl ?_
    have hvalue : v.toNat ≠ (s.fy.tick dt).calDigest := fun h => hdigest (by
      rw [show s.fy.calDigest = v.toNat from h.symm, BitVec.ofNat_toNat, BitVec.setWidth_eq])
    have hopen := not_isNone_of_isSome (o := (s.fy.tick dt).session? n.toNat) hsession
    rw [if_neg hopen, Fyster.wrCalArm_of_other (f := s.fy.tick dt) hvalue]
    exact Fyster.reply_refused hlvl (Nat.succ_ne_zero _)
  case write =>
    intro s dt n lvl i k v hcal hcode harm hasym hlast hreset
    have hvalue : leNat (leBytes 4 v.toNat) = v.toNat := (leNat_leBytes 4 _).trans (Nat.mod_eq_of_lt v.isLt)
    have hwr : (s.fy.tick dt).wrObj s.tus n.toNat (Level.rank lvl) i.toNat k.toNat (leBytes 4 v.toNat) none =
        (((s.fy.tick dt).wr i.toNat k.toNat v.toNat).calChanged n.toNat, 0) :=
      Fyster.wrObj_calibration hcode hcal (hvalue.symm ▸ Fyster.wrCal_of_armed harm) fun h => absurd rfl h
    have habove := calIndex_above k hcal
    refine ⟨_, (congrArg Host.Outcome.next ?_ : _), rfl, ?_, ?_, rfl⟩
    · refine (if_pos hcal).trans ((State.writeFy_accepted hwr ?_ hreset).trans (State.afterWrite_of_unpushed _ _ ?_))
      · exact answersLater_calibration hcal
      · exact pushPorts_calibration hcal hasym hlast
    · exact (Fyster.rd_calChanged_other _ _ habove).trans (Part.rd_wr_self _ _ _ _)
    · refine (Fyster.rd_calChanged_count _ _).trans (congrArg (raised 0x7C00 3 · 1) ?_)
      exact Part.rd_wr_other _ _ (Nat.ne_of_lt habove)
  case locked =>
    intro s dt n lvl i k v hcal hcode hidle hlocked
    refine ⟨_, congrArg Host.Outcome.next ?_, rfl⟩
    refine (if_pos hcal).trans (State.writeFy_refused (Fyster.wrObj_calibration hcode hcal ?_ fun _ => rfl) (by decide))
    exact Fyster.wrCal_of_locked (f := s.fy.tick dt) hidle hlocked
  case stored =>
    intro s dt cal v again hbusy
    refine fyNext_of_onFy rfl ?_
    obtain ⟨hself, hother⟩ := Fyster.norOf_norStoreDone_of_good (f := s.fy.tick dt) hbusy
    refine ⟨hself, (congrArg NorStore.values hself :).trans (NorStore.values_stored hbusy), Fyster.other_of_besideNor hother,
      congrArg (fun z => z.2.1) hother, congrArg (fun z => z.2.2) hother⟩
  case missed =>
    intro s dt cal v again hbusy
    refine fyNext_of_onFy rfl ?_
    obtain ⟨hnext, hvalues, hfail, hother, hlinks⟩ := Fyster.norStoreDone_bad_spec (f := s.fy.tick dt) hbusy
    refine ⟨hnext, hvalues, hfail, ?_, hlinks⟩
    cases cal
    · exact hother
    · exact hother
  case tuRetry =>
    intro s dt p row hdue
    refine tuNext_of_onNode rfl ?_
    rw [if_pos (show (((s.tu p).tick dt).part.recovOf row.val).repeatDue ((s.tu p).tick dt).ns = true from hdue)]
    obtain ⟨hrecov, hlink, hsets⟩ := ((s.tu p).tick dt).recovCount_spec row.val
    obtain ⟨hpart, hkept, hst⟩ := (((s.tu p).tick dt).recovCount row.val).recovAgain_spec row.val
    rw [hpart, hkept, hst, hlink]
    exact ⟨hrecov, rfl, hsets⟩
  case retry =>
    intro s dt row p hdue
    refine fyNext_of_onNode rfl ?_
    rw [if_pos (show ((s.fy.tick dt).part.recovOf row.val).repeatDue (s.fy.tick dt).ns = true from hdue)]
    obtain ⟨hrecov, hlinks, hred⟩ := (s.fy.tick dt).recovCount_spec row.val
    obtain ⟨hpart, hkept, hst⟩ := ((s.fy.tick dt).recovCount row.val).recovAgain_spec row.val p
    rw [hpart, hkept, hst, show ((s.fy.tick dt).recovCount row.val).link p.val = s.fy.link p.val from
      congrArg (fun l => tget l p.val Link.reset) hlinks]
    exact ⟨hrecov, rfl, hred⟩

end Sys2Proof.Machine
end

section
/-! SUPPORT. A relayed access that costs a TU's budget of reports a write of an object: the state that refutes O43 (R193, R447). -/

namespace Sys2Proof.Machine

/-- A TU whose counter of relayed accesses is one step before saturation, with no budget for the record of a saturation. -/
def spentTu : Tu :=
  { Tu.reset with
    discovered := true
    exp := { Tu.reset.exp with budget := [(5, 0)] }
    cnts := [(tileCounters, { Cnt.zero with source := 0x347, val := max64 })] }

/-- The tray with that TU on port 0. -/
def spentState : State := { State.reset with tus := [(0, spentTu)] }

/-- A COMMIT of no bytes with a CRC that is not theirs. -/
def badCommit : DictMsg := { dictReadMsg 0 0 0 0 with dkind := 4, crc := 1 }

/-- The record that carries it. -/
def badCommitRec : Rec where
  type := 0x14
  stream := 0
  alive := 0
  flags := 0
  unit := 0
  die := 0
  gslot := 0
  ts64 := 0
  pay := badCommit.pay

/-- The TU of a state that a command leads to. -/
def nextTu (o : Host.Outcome State Fault Refusal) (p : Port) : Option Tu :=
  match o with
  | .next s => some (s.tu p)
  | _ => none

theorem nextTu_setTu (s : State) (p : Port) (t : Tu) : nextTu (.next (s.setTu p t)) p = some t := congrArg some (s.tu_setTu_self p t)

/-- R193: the counter saturates, its record is over budget, and UNFIT and the count of full periods say so. -/
theorem obj_of_badCommit :
    (nextTu (exec (.trDictCommit 0 0 badCommitRec) spentState) 0).map (·.part.obj) = some [(objKey 0x2A00 0x0A, 32), (objKey 0x2A01 6, 1)] := by
  decide +kernel

/-- Refutes O43: the access is counted, and where its counter saturates while the record of that has no budget, the refused
COMMIT writes UNFIT and the count of full periods, so the TU's objects do not stay as they were. -/
theorem not_relayedAccess : ¬ Obligations.RelayedAccess := by
  unfold Obligations.RelayedAccess
  intro h
  obtain ⟨-, -, -, -, -, hcommit, -⟩ := h
  obtain ⟨t, hexec, -, hobj, -⟩ := hcommit spentState 0 0 badCommitRec badCommit (by decide +kernel) (by decide) (by decide +kernel)
    (by decide +kernel)
  have hnext := obj_of_badCommit
  rw [hexec, nextTu_setTu] at hnext
  have hkept : t.part.obj = [] := hobj
  rw [Option.map_some, hkept] at hnext
  exact absurd hnext (by decide)

end Sys2Proof.Machine
end

section
/-! SUPPORT. A record that makes a partition take a segment, and so a hold lose one: the state that refutes O44 (R219, R379). -/

namespace Sys2Proof.Machine

/-- The record that has grown. -/
def grownRec : EvRec where
  code := 0
  unit := 0
  param := 0
  rep := 1
  uncertain := false
  late := false
  repSat := false
  gslot := 0
  arg := 0
  first := 0
  last := 0

/-- Fyster with a record that has grown, an empty ring, a pin limit of 0 eighths, and a hold on all that the tray's partition
will hold. -/
def pinnedFyster : Fyster :=
  { Fyster.reset with
    part := ({ Part.reset with evr := { Part.reset.evr with log := [grownRec], mergeable := true, grown := true } }).wr 0x6800 1 0
    holds := [(0, { tag := 0, cause := 0, ranges := [(trayPart, 0, none)], since := 0, trimmed := false })] }

/-- The tray with that Fyster. -/
def pinnedState : State := { State.reset with fy := pinnedFyster }

/-- Fyster of a state that a command leads to. -/
def nextFy (o : Host.Outcome State Fault Refusal) : Option Fyster :=
  match o with
  | .next s => some s.fy
  | _ => none

/-- R219: the record opens a segment that the hold covers beyond the limit, and the trimming of the hold is counted. -/
theorem obj_of_evrUpdate :
    (nextFy (exec (.evrUpdateTimer (65536 * 1000000000) .fyster) pinnedState)).map (·.part.obj) =
      some [(objKey 0x6800 1, 0), (objKey 0x6809 4, 1)] := by
  decide +kernel

/-- Refutes O44: where the UPDATE record needs a new segment and a hold covers it beyond the pin limit, the trimming is counted in
PIN_TRIMMED, so Fyster's objects do not stay as they were. -/
theorem not_eventRecorder : ¬ Obligations.EventRecorder := by
  unfold Obligations.EventRecorder
  rintro ⟨hupdate, -⟩
  obtain ⟨f, hexec, -, -, -, hobj⟩ := hupdate pinnedState (65536 * 1000000000) grownRec (by decide) (by decide +kernel)
  have hnext := obj_of_evrUpdate
  rw [hexec] at hnext
  have hkept : f.part.obj = [(objKey 0x6800 1, 0)] := hobj
  rw [show nextFy (.next { pinnedState with fy := f }) = some f from rfl, Option.map_some, hkept] at hnext
  exact absurd hnext (by decide)

end Sys2Proof.Machine
end

section
/-! SUPPORT. Mailbox channels (R368 to R374). -/

namespace Sys2Proof.Machine

/-! ### A channel that is replaced (R374) -/

theorem Part.chan_putChan_self (p : Part) (fy : Bool) (c : Nat) (x : Channel) (down : Bool) :
    (p.putChan c x down).chan fy c = { x with wake := x.wakeLevel down } := by
  have hself : tget (tset p.chans c { x with wake := x.wakeLevel down }) c (chanDefault fy c) = { x with wake := x.wakeLevel down } :=
    tget_tset_self _ _ _ _
  simp only [Part.putChan]
  split
  · exact hself
  · exact hself

/-- A channel that is replaced counts in WAKES and in no other object. -/
theorem Part.rd_putChan_other (p : Part) (c : Nat) (x : Channel) (down : Bool) {i j : Nat} (h : objKey i j ≠ objKey (0x6110 + c) 6) :
    (p.putChan c x down).rd i j = p.rd i j := by
  simp only [Part.putChan]
  split
  · exact Part.rd_wr_other _ _ h
  · rfl

theorem channel_ne_wakes (c : Nat) {j : Nat} (h : j ≠ 6) : objKey (0x6110 + c) j ≠ objKey (0x6110 + c) 6 := by
  simp only [objKey]
  omega

theorem not_beyond_channels {c : Nat} (hc : c < 8) : ¬tuChannels ≤ c := Nat.not_le.mpr hc

theorem Tu.chan_putChan_self (t : Tu) (c : Nat) (x : Channel) : (t.putChan c x).chan c = { x with wake := x.wakeLevel t.fwDown } :=
  t.part.chan_putChan_self false c x _

theorem Fyster.chan_putChan_self (f : Fyster) (c : Nat) (x : Channel) : (f.putChan c x).chan c = { x with wake := x.wakeLevel false } :=
  f.part.chan_putChan_self true c x _

/-! ### Messages that reach a channel (R369) -/

/-- The message that a doorbell makes of its bytes. -/
def Channel.next (x : Channel) (body : List Byte) (stamp : BitVec 32) : Msg := { body := body, stamp := stamp, mseq := x.mseq }

theorem Channel.put_of_room {x : Channel} (body : List Byte) (stamp : BitVec 32) (h : x.queue.length < 16) :
    x.put body stamp = some { x with queue := x.queue ++ [x.next body stamp], mseq := (x.mseq + 1) % 65536 } := by
  rw [Channel.put, if_neg (Nat.not_le.mpr h)]
  rfl

theorem Channel.put_of_full {x : Channel} (body : List Byte) (stamp : BitVec 32) (h : 16 ≤ x.queue.length) : x.put body stamp = none := by
  rw [Channel.put, if_pos h]

section
variable {t : Tu} {c : Nat} {v : List Byte} {stamp : BitVec 32} (hc : c < 8)
include hc

theorem Tu.doorbell_of_message (hlen : v.length = 64) (hin : (t.chan c).out = false) :
    t.doorbell c stamp v = ((t.putChan c { t.chan c with ackIrq := false }).enqueueMsg c v stamp).1 := by
  have hgo : ¬(v.length ≠ 64 ∨ (t.chan c).out = true) := by simp [hlen, hin]
  rw [Tu.doorbell, if_neg (not_beyond_channels hc), if_neg hgo]

theorem Tu.doorbell_of_other (h : v.length ≠ 64 ∨ (t.chan c).out = true) :
    t.doorbell c stamp v = (t.bump (0x6110 + c) 5 1).log (event 0x0005 224 c stamp.toNat) := by
  rw [Tu.doorbell, if_neg (not_beyond_channels hc), if_pos h]
  rfl

end

/-- R369: a message at a channel that it has just taken the acknowledgement from. -/
theorem Tu.enqueueMsg_of_room {t u : Tu} {c : Nat} (v : List Byte) (stamp : BitVec 32) (hroom : (t.chan c).queue.length < 16)
    (hu : u = t.putChan c { t.chan c with ackIrq := false }) :
    ((u.enqueueMsg c v stamp).1.chan c).queue = (t.chan c).queue ++ [(t.chan c).next v stamp] ∧
      ((u.enqueueMsg c v stamp).1.chan c).mseq = ((t.chan c).mseq + 1) % 65536 ∧
      ((u.enqueueMsg c v stamp).1.chan c).ackIrq = false ∧
      (u.enqueueMsg c v stamp).1.rd (0x6110 + c) 3 = raised (0x6110 + c) 3 (t.rd (0x6110 + c) 3) 1 ∧
      (u.enqueueMsg c v stamp).1.link = t.link := by
  have hchan : u.chan c = { t.chan c with ackIrq := false, wake := (t.chan c).wakeLevel t.fwDown } := by
    rw [hu, Tu.chan_putChan_self]
    rfl
  have hrd : u.rd (0x6110 + c) 3 = t.rd (0x6110 + c) 3 := by
    rw [hu]
    exact Part.rd_putChan_other _ _ _ _ (channel_ne_wakes c (by decide))
  have hput := Channel.put_of_room (x := u.chan c) v stamp (by rw [hchan]; exact hroom)
  simp only [Tu.enqueueMsg, hput]
  generalize hx : ({ u.chan c with queue := (u.chan c).queue ++ [(u.chan c).next v stamp], mseq := ((u.chan c).mseq + 1) % 65536 } :
    Channel) = x
  have hself : ((u.putChan c x).bump (0x6110 + c) 3 1).chan c = { x with wake := x.wakeLevel u.fwDown } := u.chan_putChan_self c x
  rw [hself, ← hx, hchan]
  refine ⟨rfl, rfl, rfl, (Part.rd_wr_self _ _ _ _).trans (congrArg (raised (0x6110 + c) 3 · 1) ?_), by rw [hu]; rfl⟩
  exact (Part.rd_putChan_other _ _ _ _ (channel_ne_wakes c (by decide))).trans hrd

section
variable {f : Fyster} {c : Nat} {v : List Byte} {stamp : BitVec 32} (hlen : v.length = 64) (hin : (f.chan c).out = false)
  (hport : stampPort stamp ≠ 0x12)
include hlen hin hport

theorem Fyster.doorbell_of_message :
    f.doorbell c stamp v = ((f.putChan c { f.chan c with ackIrq := false }).enqueueMsg c v stamp).1 := by
  have hgo : ¬(v.length ≠ 64 ∨ (f.chan c).out = true ∧ stampPort stamp ≠ 0x13) := by simp [hlen, hin]
  simp only [Fyster.doorbell]
  rw [if_neg fun h => hport h.1, if_neg hgo, hin]
  rfl

end

theorem Fyster.enqueueMsg_of_room {f u : Fyster} {c : Nat} (v : List Byte) (stamp : BitVec 32) (hroom : (f.chan c).queue.length < 16)
    (hu : u = f.putChan c { f.chan c with ackIrq := false }) :
    ((u.enqueueMsg c v stamp).1.chan c).queue = (f.chan c).queue ++ [(f.chan c).next v stamp] ∧
      (u.enqueueMsg c v stamp).1.rd (0x6110 + c) 3 = raised (0x6110 + c) 3 (f.rd (0x6110 + c) 3) 1 ∧
      (u.enqueueMsg c v stamp).1.links = f.links := by
  have hchan : u.chan c = { f.chan c with ackIrq := false, wake := (f.chan c).wakeLevel false } := by
    rw [hu, Fyster.chan_putChan_self]
    rfl
  have hrd : u.rd (0x6110 + c) 3 = f.rd (0x6110 + c) 3 := by
    rw [hu]
    exact Part.rd_putChan_other _ _ _ _ (channel_ne_wakes c (by decide))
  have hput := Channel.put_of_room (x := u.chan c) v stamp (by rw [hchan]; exact hroom)
  simp only [Fyster.enqueueMsg, hput]
  generalize hx : ({ u.chan c with queue := (u.chan c).queue ++ [(u.chan c).next v stamp], mseq := ((u.chan c).mseq + 1) % 65536 } :
    Channel) = x
  have hself : ((u.putChan c x).bump (0x6110 + c) 3 1).chan c = { x with wake := x.wakeLevel false } := u.chan_putChan_self c x
  rw [hself, ← hx, hchan]
  refine ⟨rfl, (Part.rd_wr_self _ _ _ _).trans (congrArg (raised (0x6110 + c) 3 · 1) ?_), by rw [hu]; rfl⟩
  exact (Part.rd_putChan_other _ _ _ _ (channel_ne_wakes c (by decide))).trans hrd

theorem channel_key (c : Fin 64) : fyReportKeys.contains (objKey (0x6110 + c.val) 4) = false := by
  revert c
  decide

/-- R369: a message at a full queue is lost and counted. -/
theorem Fyster.enqueueMsg_of_full {f u : Fyster} {c : Fin 64} (v : List Byte) (stamp : BitVec 32)
    (hfull : 16 ≤ (f.chan c.val).queue.length) (hu : u = f.putChan c.val { f.chan c.val with ackIrq := false }) :
    ((u.enqueueMsg c.val v stamp).1.chan c.val).queue = (f.chan c.val).queue ∧
      (u.enqueueMsg c.val v stamp).1.rd (0x6110 + c.val) 4 = raised (0x6110 + c.val) 4 (f.rd (0x6110 + c.val) 4) 1 ∧
      (u.enqueueMsg c.val v stamp).1.links = f.links := by
  have hqueue : (u.chan c.val).queue = (f.chan c.val).queue := by rw [hu, Fyster.chan_putChan_self]
  have hput := Channel.put_of_full (x := u.chan c.val) v stamp (by rw [hqueue]; exact hfull)
  simp only [Fyster.enqueueMsg, hput]
  have hbare (e : Event) : ((u.bump (0x6110 + c.val) 4 1).log e).bareBut [] = (u.bump (0x6110 + c.val) 4 1).bareBut [] := Fyster.bare_log _ e
  have hchans (e : Event) : ((u.bump (0x6110 + c.val) 4 1).log e).chan c.val = u.chan c.val :=
    (congrArg (fun f : Fyster => f.chan c.val) (hbare e) :)
  rw [hchans, hqueue]
  refine ⟨rfl, ?_, (congrArg Fyster.links (hbare _) :).trans (by rw [hu]; rfl)⟩
  refine (Fyster.rd_of_bareBut (hbare _) (by rw [List.append_nil]; exact channel_key c)).trans ?_
  refine (Part.rd_wr_self _ _ _ _).trans (congrArg (raised (0x6110 + c.val) 4 · 1) ?_)
  rw [hu]
  exact Part.rd_putChan_other _ _ _ _ (channel_ne_wakes c.val (by decide))

/-! ### Acknowledgements (R372) -/

/-- A channel whose head message has been acknowledged. -/
def Channel.acked (x : Channel) (rc : BitVec 16) (v : List Byte) (m : Msg) (l : List Msg) : Channel :=
  { x with
    queue := l
    ackCode := rc
    ackMseq := BitVec.ofNat 16 m.mseq
    ackSender := m.stamp
    ackIrq := true
    reply := slice (v ++ List.replicate 64 0) 0 64 }

theorem Channel.acknowledge_of_head {x : Channel} {m : Msg} {l : List Msg} (rc : BitVec 16) (v : List Byte) (h : x.queue = m :: l) :
    x.acknowledge rc v = some (x.acked rc v m l, m) := by
  simp only [Channel.acknowledge, h]
  rfl

theorem Channel.acknowledge_of_empty {x : Channel} (rc : BitVec 16) (v : List Byte) (h : x.queue = []) : x.acknowledge rc v = none := by
  simp only [Channel.acknowledge, h]

theorem Tu.ack_of_head {t : Tu} {c : Nat} {m : Msg} {l : List Msg} (rc : BitVec 16) (v : List Byte) (hin : (t.chan c).out = false)
    (h : (t.chan c).queue = m :: l) : t.ack c rc v = t.putChan c ((t.chan c).acked rc v m l) := by
  have hout : ((t.chan c).acked rc v m l).out = false := hin
  simp only [Tu.ack, Channel.acknowledge_of_head rc v h, hout]
  rfl

theorem Fyster.ack_of_head {f : Fyster} {c : Nat} {m : Msg} {l : List Msg} (rc : BitVec 16) (v : List Byte)
    (h : (f.chan c).queue = m :: l) :
    f.ack c rc v = if (f.chan c).out then f.putChan c ((f.chan c).acked rc v m l)
      else (f.putChan c ((f.chan c).acked rc v m l)).emit (.msix c) := by
  simp only [Fyster.ack, Channel.acknowledge_of_head rc v h]
  rfl

theorem Fyster.ack_of_empty {f : Fyster} {c : Nat} (rc : BitVec 16) (v : List Byte) (h : (f.chan c).queue = []) :
    f.ack c rc v = f.bump (0x6110 + c) 5 1 := by
  simp only [Fyster.ack, Channel.acknowledge_of_empty rc v h]

/-! ### Registers of a channel (R368) -/

section
variable {f : Fyster} {c v : Nat} (hv : v ≤ 1)
include hv

theorem Fyster.wrChDir_of_empty (h : (f.chan c).queue = []) : f.wrChDir c v = (f.putChan c { f.chan c with out := v == 1 }, 0) := by
  have hbit : decide (1 < v) = false := by simpa using hv
  have hnone : (!(f.chan c).queue.isEmpty) = false := by rw [h]; rfl
  simp only [Fyster.wrChDir, hbit, hnone]
  rfl

theorem Fyster.wrChDir_of_busy (h : (f.chan c).queue ≠ []) : f.wrChDir c v = (f, 0x27) := by
  have hbit : decide (1 < v) = false := by simpa using hv
  have hsome : (!(f.chan c).queue.isEmpty) = true := by simpa using h
  simp only [Fyster.wrChDir, hbit, hsome]
  rfl

end

theorem Tu.wrChDir_of_empty {t : Tu} {c v : Nat} (hc : c < 8) (hv : v ≤ 1) (h : (t.chan c).queue = []) (hmbox : v = 1 ∨ t.rd 0x2900 9 ≠ c) :
    t.wrChDir c v = (t.putChan c { t.chan c with out := v == 1 }, 0) := by
  have hbit : decide (1 < v) = false := by simpa using hv
  have hfree : (!(t.chan c).queue.isEmpty || (v == 0 && t.rd 0x2900 9 == c)) = false := by
    rcases hmbox with hone | hother
    · simp [h, hone]
    · simp [h, hother]
  simp only [Tu.wrChDir, hbit, hfree]
  rw [if_neg (not_beyond_channels hc)]
  rfl

theorem Tu.wrTaintMbox_of_out {t : Tu} {v : Nat} (hv : v ≤ 7) (hout : (t.chan v).out = true) : t.wrTaintMbox v = (t.wr 0x2900 9 v, 0) := by
  have hin : decide (7 < v) = false := by simpa using hv
  have hdir : (!(t.chan v).out) = false := by rw [hout]; rfl
  simp only [Tu.wrTaintMbox, hin, hdir]
  rfl

/-- Settles O45: a channel that is replaced counts at most in WAKES, so a message and its count are all that a doorbell brings. -/
theorem channels : Obligations.Channels := by
  unfold Obligations.Channels
  refine ⟨?tuMessage, ?tuBad, ?message, ?lost, ?ack, ?tuAck, ?ackEmpty, ?intent, ?tuIntent, ?dir, ?dirBusy, ?tuDir, ?taint⟩
  case tuMessage =>
    intro s dt p c stamp v hc hlen hin hroom
    refine tuNext_of_onNode rfl ?_
    rw [Tu.doorbell_of_message (t := (s.tu p).tick dt) hc hlen hin]
    exact Tu.enqueueMsg_of_room (t := (s.tu p).tick dt) v stamp hroom rfl
  case tuBad =>
    intro s dt p c stamp v hc hbad
    exact tuNext_of_onNode rfl (Tu.doorbell_of_other (t := (s.tu p).tick dt) hc hbad)
  case message =>
    intro s dt c stamp v hlen hin hport hroom
    refine fyNext_of_onNode rfl ?_
    rw [Fyster.doorbell_of_message (f := s.fy.tick dt) hlen hin hport]
    exact Fyster.enqueueMsg_of_room (f := s.fy.tick dt) v stamp hroom rfl
  case lost =>
    intro s dt c stamp v hlen hin hport hfull
    refine fyNext_of_onNode rfl ?_
    rw [Fyster.doorbell_of_message (f := s.fy.tick dt) hlen hin hport]
    exact Fyster.enqueueMsg_of_full (f := s.fy.tick dt) v stamp hfull rfl
  case ack =>
    intro s dt c rc v m l hhead
    refine fyNext_of_onNode rfl ?_
    rw [Fyster.ack_of_head (f := s.fy.tick dt) rc v hhead]
    have hself := (s.fy.tick dt).chan_putChan_self c.val (((s.fy.tick dt).chan c.val).acked rc v m l)
    have hchan (g : Fyster) (hg : g.chan c.val = { ((s.fy.tick dt).chan c.val).acked rc v m l with
        wake := (((s.fy.tick dt).chan c.val).acked rc v m l).wakeLevel false }) :
        (g.chan c.val).queue = l ∧ (g.chan c.val).ackCode = rc ∧ (g.chan c.val).ackMseq = BitVec.ofNat 16 m.mseq ∧
          (g.chan c.val).ackSender = m.stamp ∧ (g.chan c.val).ackIrq = true := by
      rw [hg]
      exact ⟨rfl, rfl, rfl, rfl, rfl⟩
    cases hout : (s.fy.chan c.val).out
    · rw [if_neg (show ¬((s.fy.tick dt).chan c.val).out = true by rw [show ((s.fy.tick dt).chan c.val).out = false from hout]; decide)]
      obtain ⟨hqueue, hcode, hmseq, hsender, hirq⟩ := hchan (((s.fy.tick dt).putChan c.val _).emit (.msix c.val)) hself
      exact ⟨hqueue, hcode, hmseq, hsender, hirq, rfl, rfl⟩
    · rw [if_pos (show ((s.fy.tick dt).chan c.val).out = true from hout)]
      obtain ⟨hqueue, hcode, hmseq, hsender, hirq⟩ := hchan _ hself
      exact ⟨hqueue, hcode, hmseq, hsender, hirq, rfl, rfl⟩
  case tuAck =>
    intro s dt p c rc v m l hc hin hhead
    refine tuNext_of_onNode rfl ?_
    rw [if_neg (not_beyond_channels hc), Tu.ack_of_head (t := (s.tu p).tick dt) rc v hin hhead, Tu.chan_putChan_self]
    exact ⟨rfl, rfl, rfl, rfl, rfl, rfl, rfl⟩
  case ackEmpty =>
    intro s dt c rc v hempty
    exact fyNext_of_onNode rfl (Fyster.ack_of_empty (f := s.fy.tick dt) rc v hempty)
  case intent =>
    intro s dt c v
    exact fyNext_of_onNode rfl rfl
  case tuIntent =>
    intro s dt p c v hc
    exact tuNext_of_onNode rfl (if_neg (not_beyond_channels hc))
  case dir =>
    intro s dt lvl c v hlvl hv hempty
    refine fyNext_of_onNode rfl ?_
    rw [Fyster.wrChDir_of_empty (f := s.fy.tick dt) hv hempty]
    exact Fyster.reply_accepted hlvl
  case dirBusy =>
    intro s dt lvl c v hlvl hv hbusy
    refine fyNext_of_onNode rfl ?_
    rw [Fyster.wrChDir_of_busy (f := s.fy.tick dt) hv hbusy]
    exact Fyster.reply_refused hlvl (Nat.succ_ne_zero _)
  case tuDir =>
    intro s dt p lvl c v hlvl hc hv hempty hmbox
    refine tuNext_of_onNode rfl ?_
    rw [Tu.wrChDir_of_empty (t := (s.tu p).tick dt) hc hv hempty hmbox]
    exact Tu.reply_accepted hlvl
  case taint =>
    intro s dt p lvl v hlvl hv hout
    refine tuNext_of_onTu rfl ?_
    rw [Tu.wrTaintMbox_of_out (t := (s.tu p).tick dt) hv hout]
    exact Tu.reply_accepted hlvl

end Sys2Proof.Machine
end

section
/-! SUPPORT. Dictionary messages in mailbox channels (R345, R373, R450). -/

namespace Sys2Proof.Machine

/-! ### The head message -/

theorem fieldAt_byte_lt (bs : List Byte) (o : Nat) : fieldAt bs o 1 < 256 := by
  rw [fieldAt, slice]
  cases bs.drop o with
  | nil => decide
  | cons b r =>
    have hb : b.toNat < 256 := b.isLt
    simp only [List.take_succ_cons, List.take_zero, leNat]
    omega

/-- A head message stands at the head of an IN channel. -/
theorem Channel.queue_of_headIn {x : Channel} {m : Msg} (h : x.headIn = some m) : x.out = false ∧ x.queue = m :: x.queue.tail := by
  rw [Channel.headIn] at h
  cases hout : x.out
  · rw [hout, if_neg Bool.false_ne_true] at h
    obtain ⟨l, hl⟩ := List.head?_eq_some_iff.mp h
    exact ⟨rfl, by rw [hl]; rfl⟩
  · rw [hout, if_pos rfl] at h
    cases h

/-- A dictionary message is the head of an IN channel, and names a subindex of one byte. -/
theorem Channel.head_of_dictReq {x : Channel} {code : Nat} {q : MboxReq} (h : x.dictReq code = some q) :
    x.out = false ∧ (∃ m, x.queue = m :: x.queue.tail) ∧ q.sub < 256 := by
  rw [Channel.dictReq] at h
  cases hhead : x.headIn with
  | none => rw [hhead] at h; cases h
  | some m =>
    obtain ⟨hin, hqueue⟩ := Channel.queue_of_headIn hhead
    rw [hhead] at h
    dsimp only at h
    split at h
    · cases h
    · refine ⟨hin, ⟨m, hqueue⟩, ?_⟩
      rw [← Option.some.inj h]
      exact fieldAt_byte_lt _ _

/-! ### Answers (R373) -/

section
variable {t : Tu} {c : Nat} {m : Msg} {l : List Msg} (hin : (t.chan c).out = false) (hqueue : (t.chan c).queue = m :: l)
include hin hqueue

/-- A message that a TU answers without an error: its channel alone changes. -/
theorem Tu.mboxAnswer_done (type total : Nat) (data : List Byte) :
    ∃ v, t.mboxAnswer c 0 type total data = t.putChan c ((t.chan c).acked 0 v m l) := by
  simp only [Tu.mboxAnswer, hqueue]
  exact ⟨_, Tu.ack_of_head _ _ hin hqueue⟩

theorem Tu.chan_ack (rc : BitVec 16) (v : List Byte) :
    ((t.ack c rc v).chan c).queue = l ∧ ((t.ack c rc v).chan c).ackCode = rc ∧ ((t.ack c rc v).chan c).gather = (t.chan c).gather := by
  rw [Tu.ack_of_head rc v hin hqueue, Tu.chan_putChan_self]
  exact ⟨rfl, rfl, rfl⟩

theorem Tu.chan_mboxAnswer_done (type total : Nat) (data : List Byte) :
    ((t.mboxAnswer c 0 type total data).chan c).queue = l ∧ ((t.mboxAnswer c 0 type total data).chan c).ackCode = 0 ∧
      ((t.mboxAnswer c 0 type total data).chan c).gather = (t.chan c).gather := by
  obtain ⟨v, hanswer⟩ := Tu.mboxAnswer_done hin hqueue type total data
  rw [hanswer, Tu.chan_putChan_self]
  exact ⟨rfl, rfl, rfl⟩

theorem Tu.rd_mboxAnswer_done (type total : Nat) (data : List Byte) {i j : Nat} (h : objKey i j ≠ objKey (0x6110 + c) 6) :
    (t.mboxAnswer c 0 type total data).rd i j = t.rd i j := by
  obtain ⟨v, hanswer⟩ := Tu.mboxAnswer_done hin hqueue type total data
  rw [hanswer]
  exact Part.rd_putChan_other _ _ _ _ h

end

theorem Fyster.chan_ack {f : Fyster} {c : Nat} {m : Msg} {l : List Msg} (hqueue : (f.chan c).queue = m :: l) (rc : BitVec 16)
    (v : List Byte) : ((f.ack c rc v).chan c).queue = l ∧ ((f.ack c rc v).chan c).ackCode = rc ∧ (f.ack c rc v).jun = f.jun := by
  have hself (g : Fyster) (hg : g.chan c = (f.putChan c ((f.chan c).acked rc v m l)).chan c) :
      (g.chan c).queue = l ∧ (g.chan c).ackCode = rc := by
    rw [hg, Fyster.chan_putChan_self]
    exact ⟨rfl, rfl⟩
  rw [Fyster.ack_of_head rc v hqueue]
  split
  · obtain ⟨hq, hcode⟩ := hself (f.putChan c ((f.chan c).acked rc v m l)) rfl
    exact ⟨hq, hcode, rfl⟩
  · obtain ⟨hq, hcode⟩ := hself ((f.putChan c ((f.chan c).acked rc v m l)).emit (.msix c)) rfl
    exact ⟨hq, hcode, rfl⟩

/-- A message that Fyster answers leaves its channel with the code of the answer; the answer says nothing to Juniper. -/
theorem Fyster.chan_mboxAnswer {f : Fyster} {c : Nat} {m : Msg} {l : List Msg} (hqueue : (f.chan c).queue = m :: l)
    (a type total : Nat) (data : List Byte) :
    ((f.mboxAnswer c a type total data).chan c).queue = l ∧ ((f.mboxAnswer c a type total data).chan c).ackCode = BitVec.ofNat 16 a ∧
      (f.mboxAnswer c a type total data).jun = f.jun := by
  simp only [Fyster.mboxAnswer, hqueue]
  by_cases ha : a = 0
  · rw [if_pos ha]
    exact Fyster.chan_ack hqueue _ _
  · rw [if_neg ha]
    generalize hg : f.log (event (0x0200 + a) 512 m.stamp.toNat (fieldAt m.body 0 1 * 256)) = g
    have hbare : g.bareBut [] = f.bareBut [] := hg ▸ Fyster.bare_log f _
    have hchan : g.chan c = f.chan c := (congrArg (fun f : Fyster => f.chan c) hbare :)
    obtain ⟨hq, hcode, hjun⟩ := Fyster.chan_ack (f := g) (hchan ▸ hqueue) (BitVec.ofNat 16 a)
      (if a = 0 then dictReply m.body type total data else dictReply m.body type 0 [])
    exact ⟨hq, hcode, hjun.trans (congrArg Fyster.jun hbare :)⟩

theorem Fyster.resetAfter_mboxAnswer_done (f : Fyster) (c type total : Nat) (data : List Byte) :
    (f.mboxAnswer c 0 type total data).resetAfter = f.resetAfter := by
  have hack (rc : BitVec 16) (v : List Byte) : (f.ack c rc v).resetAfter = f.resetAfter := by
    rw [Fyster.ack]
    split
    · rfl
    · split <;> rfl
  rw [Fyster.mboxAnswer]
  split
  · rfl
  · exact hack _ _

/-! ### The charge of an access (R196) -/

theorem Tu.bare_mboxCharge (t : Tu) (n lost : Nat) : (t.mboxCharge n lost).1.bareBut [] = t.bareBut [] := by
  simp only [Tu.mboxCharge]
  generalize hc : (if t.discovered = true then t.charge 7 (dictCost n) true else (t, 0)) = c
  have hbare : c.1.bareBut [] = t.bareBut [] := by
    rw [← hc]
    split
    · exact Tu.bare_charge t 7 _ _ (by decide)
    · rfl
  split
  · exact (Tu.bare_internal _ _ _).trans hbare
  · exact (Tu.bare_internal _ _ _).trans (Eq.trans (Eq.trans rfl (Tu.bare_internal c.1 0x347 1)) hbare)

theorem Tu.chan_mboxCharge (t : Tu) (n lost c : Nat) : (t.mboxCharge n lost).1.chan c = t.chan c :=
  (congrArg (fun t : Tu => t.chan c) (t.bare_mboxCharge n lost) :)

theorem levelSub_lt (fyster : Bool) (port : Nat) : levelSub fyster port < 9 := by
  unfold levelSub
  split <;> decide

theorem mboxLevel_key {j : Nat} (h : j < 9) : tuReportKeys.contains (objKey 0x6100 j) = false := by
  have hall : ∀ j < 9, tuReportKeys.contains (objKey 0x6100 j) = false := by decide
  exact hall j h

theorem Tu.mboxLevel_mboxCharge (t : Tu) (n lost : Nat) (stamp : BitVec 32) :
    (t.mboxCharge n lost).1.part.mboxLevel false stamp = t.part.mboxLevel false stamp := by
  have hrd (j : Nat) (hj : j < 9) : (t.mboxCharge n lost).1.part.rd 0x6100 j = t.part.rd 0x6100 j :=
    Tu.rd_of_bareBut (t.bare_mboxCharge n lost) (by rw [List.append_nil]; exact mboxLevel_key hj)
  simp only [Part.mboxLevel]
  split
  · rfl
  · exact hrd _ (levelSub_lt _ _)

/-! ### Writes of a TU's dictionary -/

theorem tu_shadowWatch (p : Port) (s t : State) (q : Port) : (shadowWatch p s t).tu q = t.tu q := by
  simp only [shadowWatch]
  split <;> rfl

/-- R185: a TU that keeps SHADOW_ENABLE keeps all that Fyster watches. -/
theorem shadowWatch_of_flag {s : State} {p : Port} {t : Tu} (h : t.rd 0x2940 1 = (s.tu p).rd 0x2940 1) :
    shadowWatch p s (s.setTu p t) = s.setTu p t := by
  have hflag : t.part.flag 0x2940 1 = (s.tu p).part.flag 0x2940 1 := congrArg (· == 1) h
  simp only [shadowWatch, State.tu_setTu_self, hflag, beq_self_eq_true, if_true]

theorem State.writeTu_of_index {s : State} {p : Port} {t : Tu} {level i k : Nat} {v : List Byte} {answer : Tu → Nat → Tu}
    (h : i ≠ 0x2E00) :
    s.writeTu p t level i k v answer = shadowWatch p s (s.setTu p (answer (t.wrObj p level i k v).1 (t.wrObj p level i k v).2)) := by
  simp only [State.writeTu]
  rw [if_neg fun hreset => h hreset.2.1]

/-- An object of a TU that has no rule of its own takes its value. -/
theorem Tu.wrObj_2110 {t : Tu} {p : Port} {level k : Nat} {v : List Byte} (hcode : writeCode 2 level 0x2110 k v = 0) :
    t.wrObj p level 0x2110 k v = (t.wr 0x2110 k (leNat v), 0) := by
  have hplain : t.wrObj1 0x2110 k v (leNat v) = (t.wr 0x2110 k (leNat v), 0) := by
    simp [Tu.wrObj1]
  simp only [Tu.wrObj, hcode, Nat.reduceLT, if_true, hplain]

/-! ### Messages served at a TU -/

section
variable {t : Tu} {p : Port} {c : Nat} {q : MboxReq}

theorem Tu.mboxRead_of_value {n : Nat} (hval : (t.readObj p q.index q.sub).1 = 0) (htype : (t.readObj p q.index q.sub).2.1 ≠ 12)
    (hn : n = min 48 (t.readObj p q.index q.sub).2.2.length) (hcharge : (t.mboxCharge n 0).2 = false)
    (hcode : q.code (q.node != 0) (t.part.mboxLevel false q.stamp) false = 0) :
    t.mboxRead p c q = (t.mboxCharge n 0).1.mboxAnswer c 0 (t.readObj p q.index q.sub).2.1
      (t.readObj p q.index q.sub).2.2.length ((t.readObj p q.index q.sub).2.2.take 48) := by
  subst hn
  simp only [Tu.mboxRead, hval, ne_eq, not_true_eq_false, if_false, hcharge, Tu.mboxLevel_mboxCharge, hcode]
  rw [if_pos htype]

theorem State.mboxWriteTu_of_sound {s : State} (hcharge : (t.mboxCharge q.len q.len).2 = false)
    (hcode : q.code (q.node != 0) (t.part.mboxLevel false q.stamp) false = 0) (htype : typeBad 2 q.index q.sub q.type = false) :
    s.mboxWriteTu p t c q =
      s.writeTu p (t.mboxCharge q.len q.len).1 (t.part.mboxLevel false q.stamp - 1) q.index q.sub q.data
        fun t a => t.mboxAnswer c a q.type 0 [] := by
  simp only [State.mboxWriteTu, hcharge, Tu.mboxLevel_mboxCharge, hcode, htype]
  rfl

theorem Tu.mboxSegment_of_sound (hcharge : (t.mboxCharge q.len q.len).2 = false)
    (hcode : q.code (q.node != 0) (t.part.mboxLevel false q.stamp) false = 0)
    (hseg : segmentCode 2 q.index q.sub q.ofs q.data.length = 0) :
    t.mboxSegment c q =
      ((t.mboxCharge q.len q.len).1.putChan c (((t.mboxCharge q.len q.len).1.chan c).place q)).mboxAnswer c 0 q.type 0 [] := by
  simp only [Tu.mboxSegment, hcharge, Tu.mboxLevel_mboxCharge, hcode, hseg]

theorem MboxReq.commitCode_of_gathered {x : Channel} {b : List Host.Cell} (hgather : x.gathered q = some b) (htotal : q.total ≤ 65536) :
    q.commitCode x = 0 := by
  have hfits : decide (65536 < q.total) = false := by simpa using htotal
  rw [MboxReq.commitCode, hfits, hgather]
  rfl

theorem State.mboxCommitTu_of_gathered {s : State} {b : List Host.Cell} (hcharge : (t.mboxCharge 0 0).2 = false)
    (hcode : q.code (q.node != 0) (t.part.mboxLevel false q.stamp) false = 0) (hgather : (t.chan c).gathered q = some b)
    (htotal : q.total ≤ 65536) :
    s.mboxCommitTu p t c q =
      s.writeTu p ((t.mboxCharge 0 0).1.putChan c { (t.mboxCharge 0 0).1.chan c with gather := none })
        (t.part.mboxLevel false q.stamp - 1) q.index q.sub (memRead b 0 q.total) fun t a => t.mboxAnswer c a q.type 0 [] := by
  simp only [State.mboxCommitTu, hcharge, Tu.mboxLevel_mboxCharge, hcode, Tu.chan_mboxCharge,
    MboxReq.commitCode_of_gathered hgather htotal, hgather]
  rfl

end

theorem Tu.mboxReserved_of_other {t : Tu} {c : Nat} {m : Msg} (hhead : (t.chan c).headIn = some m)
    (hother : otherCode (fieldAt m.body 0 1) = true) : t.mboxReserved c = t.ack c 1 [] := by
  simp only [Tu.mboxReserved, hhead, hother, if_true]

/-! ### Messages served at Fyster -/

section
variable {f : Fyster} {c : Nat} {q : MboxReq}

/-- A message that Fyster serves stands at the head of its channel. -/
theorem Fyster.head_of_mboxReq {code : Nat} (h : f.mboxReq c code = some q) : ∃ m, (f.chan c).queue = m :: (f.chan c).queue.tail := by
  rw [Fyster.mboxReq] at h
  split at h
  · cases h
  · exact (Channel.head_of_dictReq h).2.1

theorem Fyster.mboxRead_of_value (hcode : f.mboxCode q = 0) (hnode : q.node = 0) (hval : (f.readObj q.index q.sub).1 = 0)
    (htype : (f.readObj q.index q.sub).2.1 ≠ 12) :
    f.mboxRead c q = f.mboxAnswer c 0 (f.readObj q.index q.sub).2.1 (f.readObj q.index q.sub).2.2.length
      ((f.readObj q.index q.sub).2.2.take 48) := by
  simp only [Fyster.mboxRead, hcode, Fyster.mboxReadOwn]
  rw [if_pos hnode, if_neg (not_not_intro hval), if_pos htype]

theorem Fyster.mboxRead_of_refused (hcode : f.mboxCode q ≠ 0) : f.mboxRead c q = f.mboxAnswer c (f.mboxCode q) q.type 0 [] := by
  unfold Fyster.mboxRead
  split
  next h => exact absurd h hcode
  · rfl

theorem State.mboxWriteFy_of_node {s : State} (hcode : f.mboxCode q = 0) (hnode : q.node ≠ 0) :
    s.mboxWriteFy f c q = { s with
      fy := f.relay (q.node - 1) (.mailbox c 0 0 0) (dictWriteMsg (f.mboxLevel q) q.index q.sub q.type q.data) } := by
  simp only [State.mboxWriteFy, hcode]
  rw [if_pos hnode]

theorem Fyster.chan_relay (f : Fyster) (p : Nat) (why : RelayFor) (m : DictMsg) (c : Nat) : (f.relay p why m).chan c = f.chan c := by
  rw [Fyster.relay]
  exact (congrArg (fun f : Fyster => f.chan c) (Fyster.unsent_sendTu _ _ _) :)

theorem Fyster.mboxSegment_of_sound (hcode : f.mboxCode q = 0)
    (hseg : segmentCode (if q.node = 0 then 1 else 2) q.index q.sub q.ofs q.data.length = 0) :
    f.mboxSegment c q = (f.putChan c ((f.chan c).place q)).mboxAnswer c 0 q.type 0 [] := by
  simp only [Fyster.mboxSegment, hcode, hseg]

theorem State.mboxCommitFy_of_own {s : State} {b : List Host.Cell} (hcode : f.mboxCode q = 0)
    (hgather : (f.chan c).gathered q = some b) (htotal : q.total ≤ 65536) (hnode : q.node = 0) :
    s.mboxCommitFy f c q =
      s.writeFy (f.putChan c { f.chan c with gather := none }) 0 (f.mboxLevel q) q.index q.sub (memRead b 0 q.total)
        (some (.mailbox c 0 0 0)) fun f a => f.mboxAnswer c a q.type 0 [] := by
  have hall : min q.total 65536 = q.total := Nat.min_eq_left htotal
  simp only [State.mboxCommitFy, hcode, MboxReq.commitCode_of_gathered hgather htotal, hgather, hall, hnode]
  rfl

theorem State.mboxCommitFy_of_none {s : State} (hcode : f.mboxCode q = 0) (hgather : (f.chan c).gathered q = none)
    (htotal : q.total ≤ 65536) : s.mboxCommitFy f c q = { s with fy := f.mboxAnswer c 0x27 q.type 0 [] } := by
  have hfits : decide (65536 < q.total) = false := by simpa using htotal
  have hown : q.commitCode (f.chan c) = 0x27 := by
    rw [MboxReq.commitCode, hfits, hgather]
    rfl
  simp only [State.mboxCommitFy, hcode, hown]
  cases q.node != 0 && f.domainBusy (q.node - 1) <;> rfl

theorem Fyster.mboxReserved_of_low {m : Msg} (hhead : (f.chan c).headIn = some m) (hother : otherCode (fieldAt m.body 0 1) = true)
    (hlow : fieldAt m.body 0 1 < 0x80) : f.mboxReserved c = f.ack c 1 [] := by
  simp only [Fyster.mboxReserved, hhead, hother, if_neg (Nat.not_le.mpr hlow), if_true]

theorem Fyster.mboxReserved_of_high {m : Msg} (hhead : (f.chan c).headIn = some m) (hhigh : 0x80 ≤ fieldAt m.body 0 1) :
    f.mboxReserved c = f.emit (.firmware c m.body) := by
  simp only [Fyster.mboxReserved, hhead]
  rw [if_pos hhigh]

end

/-- A write of BATCH_SPEC while no batch run has begun (R312). -/
theorem Fyster.wrObj_batchSpec {f : Fyster} {tus : Tab Tu} {session level : Nat} {v : List Byte} (why : Option RelayFor)
    (hcode : writeCode 1 level 0x4480 1 v = 0) (hspec : batchSpecCode v = 0) (hidle : f.jun.batch.state ≠ 1) (hoff : f.jun.batch.state ≠ 2) :
    f.wrObj tus session level 0x4480 1 v why =
      ({ f with jun := { f.jun with batch := { f.jun.batch with spec := v } } }, 0) := by
  have hwr : f.wrObj3 0x4480 1 v (leNat v) why = ({ f with jun := { f.jun with batch := { f.jun.batch with spec := v } } }, 0) := by
    have hbatch : f.wrBatchSpec v = ({ f with jun := { f.jun with batch := { f.jun.batch with spec := v } } }, 0) := by
      rw [Fyster.wrBatchSpec, if_neg fun h => h hspec, if_neg (not_or.mpr ⟨hidle, hoff⟩)]
    exact hbatch
  have hpersist (g : Fyster) : g.persistIf 0x4480 1 = g := if_neg (by decide)
  simp only [Fyster.wrObj, hcode, Nat.reduceLT, if_false, if_true, hwr, hpersist]

/-! ### The commands of a dictionary message -/

section
variable {s : State} {dt : Nat} {p : Port} {c : Fin 64} {q : MboxReq}

theorem exec_dictWrite_tu (h : ((s.tu p).chan c.val).dictReq 0x61 = some q) :
    exec (.dictWrite dt (.tu p) c) s = .next (s.mboxWriteTu p ((s.tu p).tick dt) c.val q) := by
  have hreq : (((s.tu p).tick dt).chan c.val).dictReq 0x61 = some q := h
  show execDictWrite dt (.tu p) c s = _
  simp only [execDictWrite, hreq]

theorem exec_dictWrite_fyster (h : s.fy.mboxReq c.val 0x61 = some q) :
    exec (.dictWrite dt .fyster c) s = .next (s.mboxWriteFy (s.fy.tick dt) c.val q) := by
  have hreq : (s.fy.tick dt).mboxReq c.val 0x61 = some q := h
  show execDictWrite dt .fyster c s = _
  simp only [execDictWrite, hreq]

theorem exec_dictCommit_tu (h : ((s.tu p).chan c.val).dictReq 0x63 = some q) :
    exec (.dictCommit dt (.tu p) c) s = .next (s.mboxCommitTu p ((s.tu p).tick dt) c.val q) := by
  have hreq : (((s.tu p).tick dt).chan c.val).dictReq 0x63 = some q := h
  show execDictCommit dt (.tu p) c s = _
  simp only [execDictCommit, hreq]

theorem exec_dictCommit_fyster (h : s.fy.mboxReq c.val 0x63 = some q) :
    exec (.dictCommit dt .fyster c) s = .next (s.mboxCommitFy (s.fy.tick dt) c.val q) := by
  have hreq : (s.fy.tick dt).mboxReq c.val 0x63 = some q := h
  show execDictCommit dt .fyster c s = _
  simp only [execDictCommit, hreq]

end

theorem objKey_2110_lt {j : Nat} (h : j < 256) (c : Nat) :
    objKey 0x2110 j ≠ objKey (0x6110 + c) 6 ∧ objKey 0x2940 1 ≠ objKey 0x2110 j ∧ objKey 0x2940 1 ≠ objKey (0x6110 + c) 6 := by
  simp only [objKey]
  omega

/-- R373: a write of an own object that is answered leaves SHADOW_ENABLE as it is. -/
theorem Tu.rd_written {t u : Tu} {c j n : Nat} {m : Msg} {l : List Msg} {type : Nat} (hj : j < 256) (hin : (t.chan c).out = false)
    (hqueue : (t.chan c).queue = m :: l) (hu : u = (t.wr 0x2110 j n).mboxAnswer c 0 type 0 []) :
    u.rd 0x2110 j = n ∧ u.rd 0x2940 1 = t.rd 0x2940 1 := by
  obtain ⟨hself, hshadow, hwakes⟩ := objKey_2110_lt hj c
  subst hu
  exact ⟨(Tu.rd_mboxAnswer_done (t := t.wr 0x2110 j n) hin hqueue _ _ _ hself).trans (Part.rd_wr_self _ _ _ _),
    (Tu.rd_mboxAnswer_done (t := t.wr 0x2110 j n) hin hqueue _ _ _ hwakes).trans (Part.rd_wr_other _ _ hshadow)⟩

/-- Settles O46: a dictionary message stands at the head of an IN channel, so its answer takes it and the channel shows its code. -/
theorem mailboxDictionary : Obligations.MailboxDictionary := by
  unfold Obligations.MailboxDictionary
  refine ⟨?tuRead, ?read, ?refused, ?tuWrite, ?relay, ?tuSegment, ?segment, ?tuCommit, ?commit, ?ungathered, ?tuReserved, ?reserved,
    ?firmware⟩
  case tuRead =>
    intro s dt p c q v hreq hv hval htype hcharge hcode
    subst hv
    obtain ⟨hin, ⟨m, hqueue⟩, -⟩ := Channel.head_of_dictReq hreq
    refine tuNext_of_onNode rfl ?_
    simp only [show (((s.tu p).tick dt).chan c.val).dictReq 0x60 = some q from hreq]
    rw [Tu.mboxRead_of_value (t := (s.tu p).tick dt) hval htype rfl hcharge hcode]
    generalize hu : (((s.tu p).tick dt).mboxCharge _ 0).1 = u
    have hchan : u.chan c.val = (s.tu p).chan c.val := hu ▸ Tu.chan_mboxCharge _ _ _ _
    obtain ⟨hq, hack, -⟩ := Tu.chan_mboxAnswer_done (t := u) (by rw [hchan]; exact hin) (by rw [hchan]; exact hqueue) _ _ _
    exact ⟨rfl, hq, hack⟩
  case read =>
    intro s dt c q v hreq hcode hnode hv hval htype
    subst hv
    obtain ⟨m, hqueue⟩ := Fyster.head_of_mboxReq hreq
    refine fyNext_of_onNode rfl ?_
    simp only [show (s.fy.tick dt).mboxReq c.val 0x60 = some q from hreq]
    rw [Fyster.mboxRead_of_value (f := s.fy.tick dt) hcode hnode hval htype]
    obtain ⟨hq, hack, -⟩ := Fyster.chan_mboxAnswer (f := s.fy.tick dt) hqueue 0 _ _ _
    exact ⟨rfl, hq, hack⟩
  case refused =>
    intro s dt c q a hreq hcode ha
    subst hcode
    obtain ⟨m, hqueue⟩ := Fyster.head_of_mboxReq hreq
    refine fyNext_of_onNode rfl ?_
    simp only [show (s.fy.tick dt).mboxReq c.val 0x60 = some q from hreq]
    rw [Fyster.mboxRead_of_refused (f := s.fy.tick dt) (Nat.pos_iff_ne_zero.mp ha)]
    obtain ⟨hq, hack, -⟩ := Fyster.chan_mboxAnswer (f := s.fy.tick dt) hqueue _ _ _ _
    exact ⟨rfl, hq, hack⟩
  case tuWrite =>
    intro s dt p c q hreq hcharge hcode hindex htype hwrite
    obtain ⟨hin, ⟨m, hqueue⟩, hsub⟩ := Channel.head_of_dictReq hreq
    generalize hu : (((s.tu p).tick dt).mboxCharge q.len q.len).1 = u
    have hchan : u.chan c.val = (s.tu p).chan c.val := hu ▸ Tu.chan_mboxCharge _ _ _ _
    have hshadow : u.rd 0x2940 1 = (s.tu p).rd 0x2940 1 :=
      hu ▸ (Tu.rd_of_bareBut (ks := []) (((s.tu p).tick dt).bare_mboxCharge q.len q.len) (by decide) :
        (((s.tu p).tick dt).mboxCharge q.len q.len).1.rd 0x2940 1 = ((s.tu p).tick dt).rd 0x2940 1)
    obtain ⟨hself, hkept⟩ := Tu.rd_written (t := u) (n := leNat q.data) (type := q.type) hsub (by rw [hchan]; exact hin)
      (by rw [hchan]; exact hqueue) rfl
    refine ⟨_, (exec_dictWrite_tu hreq).trans (congrArg Host.Outcome.next ?_), rfl, hself⟩
    rw [State.mboxWriteTu_of_sound (t := (s.tu p).tick dt) hcharge hcode htype, hu, State.writeTu_of_index (by rw [hindex]; decide)]
    rw [hindex] at hwrite ⊢
    rw [Tu.wrObj_2110 (level := ((s.tu p).tick dt).part.mboxLevel false q.stamp - 1) hwrite]
    exact shadowWatch_of_flag (hkept.trans hshadow)
  case relay =>
    intro s dt c q hreq hcode hnode
    refine ⟨(s.fy.tick dt).relay (q.node - 1) (.mailbox c.val 0 0 0) (dictWriteMsg (s.fy.mboxLevel q) q.index q.sub q.type q.data),
      (exec_dictWrite_fyster hreq).trans (congrArg Host.Outcome.next ?_), rfl, ?_⟩
    · exact State.mboxWriteFy_of_node (f := s.fy.tick dt) hcode hnode
    · exact congrArg Channel.queue (Fyster.chan_relay _ _ _ _ _)
  case tuSegment =>
    intro s dt p c q hreq hcharge hcode hseg
    obtain ⟨hin, ⟨m, hqueue⟩, -⟩ := Channel.head_of_dictReq hreq
    refine tuNext_of_onNode rfl ?_
    simp only [show (((s.tu p).tick dt).chan c.val).dictReq 0x62 = some q from hreq]
    rw [Tu.mboxSegment_of_sound (t := (s.tu p).tick dt) hcharge hcode hseg]
    generalize hu : (((s.tu p).tick dt).mboxCharge _ _).1 = u
    have hchan : u.chan c.val = (s.tu p).chan c.val := hu ▸ Tu.chan_mboxCharge _ _ _ _
    have hplaced := u.chan_putChan_self c.val ((u.chan c.val).place q)
    obtain ⟨-, -, hgather⟩ := Tu.chan_mboxAnswer_done (t := u.putChan c.val ((u.chan c.val).place q)) (m := m)
      (l := ((s.tu p).chan c.val).queue.tail) (by rw [hplaced, hchan]; exact hin) (by rw [hplaced, hchan]; exact hqueue) q.type 0 []
    refine ⟨rfl, ?_⟩
    rw [hgather, hplaced, hchan]
    rfl
  case segment =>
    intro s dt c q hreq hcode hseg
    refine fyNext_of_onNode rfl ?_
    simp only [show (s.fy.tick dt).mboxReq c.val 0x62 = some q from hreq]
    exact Fyster.mboxSegment_of_sound (f := s.fy.tick dt) hcode hseg
  case tuCommit =>
    intro s dt p c q b hreq hcharge hcode hgather htotal hreset hshadow
    refine ⟨_, (exec_dictCommit_tu hreq).trans (congrArg Host.Outcome.next ((State.mboxCommitTu_of_gathered (t := (s.tu p).tick dt)
      hcharge hcode hgather htotal).trans (State.writeTu_of_index hreset))), ?_, ?_⟩
    · exact (tu_shadowWatch _ _ _ _).trans (State.tu_setTu_self _ _ _)
    · exact fun k hk => (tu_shadowWatch _ _ _ _).trans (State.tu_setTu_other _ _ hk)
  case commit =>
    intro s dt c q b hreq hcode hgather htotal hnode hindex hsub hwrite hspec hidle hreset
    have hwr := Fyster.wrObj_batchSpec (f := (s.fy.tick dt).putChan c.val { s.fy.chan c.val with gather := none }) (tus := s.tus)
      (session := 0) (some (.mailbox c.val 0 0 0)) hwrite hspec (fun h => absurd (hidle.symm.trans h) (by decide))
      fun h => absurd (hidle.symm.trans h) (by decide)
    refine ⟨_, (exec_dictCommit_fyster hreq).trans (congrArg Host.Outcome.next ?_), rfl⟩
    rw [State.mboxCommitFy_of_own (f := s.fy.tick dt) hcode hgather htotal hnode, hindex, hsub]
    refine (State.writeFy_accepted hwr (by decide) ?_).trans (State.afterWrite_of_unpushed _ _ (by decide))
    exact (Fyster.resetAfter_mboxAnswer_done _ _ _ _ _).trans hreset
  case ungathered =>
    intro s dt c q hreq hcode hgather htotal
    obtain ⟨m, hqueue⟩ := Fyster.head_of_mboxReq hreq
    refine ⟨_, (exec_dictCommit_fyster hreq).trans (congrArg Host.Outcome.next
      (State.mboxCommitFy_of_none (f := s.fy.tick dt) hcode hgather htotal)), rfl, ?_⟩
    exact (Fyster.chan_mboxAnswer (f := s.fy.tick dt) hqueue 0x27 _ _ _).2.2
  case tuReserved =>
    intro s dt p c m hhead hother
    obtain ⟨hin, hqueue⟩ := Channel.queue_of_headIn hhead
    refine tuNext_of_onNode rfl ?_
    rw [Tu.mboxReserved_of_other (t := (s.tu p).tick dt) hhead hother]
    obtain ⟨hq, hack, -⟩ := Tu.chan_ack (t := (s.tu p).tick dt) hin hqueue 1 []
    exact ⟨rfl, hq, hack⟩
  case reserved =>
    intro s dt c m hhead hother hlow
    obtain ⟨hin, hqueue⟩ := Channel.queue_of_headIn hhead
    refine fyNext_of_onNode rfl ?_
    rw [Fyster.mboxReserved_of_low (f := s.fy.tick dt) hhead hother hlow]
    obtain ⟨hq, hack, -⟩ := Fyster.chan_ack (f := s.fy.tick dt) hqueue 1 []
    exact ⟨rfl, hq, hack⟩
  case firmware =>
    intro s dt c m hhead hhigh
    exact fyNext_of_onNode rfl (Fyster.mboxReserved_of_high (f := s.fy.tick dt) hhead hhigh)

end Sys2Proof.Machine
end

section
/-! SUPPORT. Sessions and requests of the Thotus dictionary protocol (R342 to R353, R361). -/

namespace Sys2Proof.Machine

/-! ### Messages (R349) -/

theorem Fyster.tdpFor_spec {f : Fyster} {m : Datagram} {mtype : Nat} {h : TdpMsg} (hfor : f.tdpFor m mtype = some h) :
    tdpMsg m = some h ∧ f.boot.running = true ∧ h.mtype = mtype := by
  rw [Fyster.tdpFor] at hfor
  split at hfor
  next x hmsg =>
    split at hfor
    next hrun =>
      rw [← Option.some.inj hfor]
      exact ⟨hmsg, hrun⟩
    · cases hfor
  · cases hfor

theorem tdpMsg_sub_lt {m : Datagram} {h : TdpMsg} (hmsg : tdpMsg m = some h) : h.sub < 256 := by
  simp only [tdpMsg] at hmsg
  split at hmsg
  · cases hmsg
  · rw [← Option.some.inj hmsg]
    exact fieldAt_byte_lt _ _

/-! ### What an answer leaves (R350, R361) -/

/-- Fyster without what an answer changes: sessions, sources, transfers, subscriptions, reports and objects. -/
def Fyster.unasked (f : Fyster) : Fyster :=
  ({ f with
      sessions := [], sources := [], xfers := [], subs := []
      part := { f.part with obj := [] } } : Fyster).bareBut []

theorem Fyster.unasked_of_bare {f g : Fyster} (h : f.bareBut [] = g.bareBut []) : f.unasked = g.unasked :=
  congrArg (fun x : Fyster => { x with sessions := [], sources := [], xfers := [], subs := [], part := { x.part with obj := [] } }) h

theorem Fyster.unasked_log (f : Fyster) (e : Event) : (f.log e).unasked = f.unasked := Fyster.unasked_of_bare (Fyster.bare_log f e)

/-- A refusal that is not kept changes no session. -/
def Fyster.asked (f : Fyster) : Fyster × List Session := (f.unasked, f.sessions)

theorem Fyster.bare_sendDatagram (f : Fyster) (dst : BitVec 128) (port : BitVec 16) (tagged : Bool) (bs : List Byte) :
    (f.sendDatagram dst port tagged bs).bareBut [] = f.bareBut [] := by
  simp only [Fyster.sendDatagram]
  split
  · rw [Fyster.bare_emit, Fyster.bare_free, Fyster.bare_free]
  · exact Fyster.bare_emit _ _

theorem Fyster.asked_of_bare {f g : Fyster} (h : f.bareBut [] = g.bareBut []) : f.asked = g.asked :=
  Prod.ext (Fyster.unasked_of_bare h) (congrArg Fyster.sessions h :)

theorem Fyster.asked_sendAbort (f : Fyster) (a : Ask) (tagged : Bool) (bs : List Byte) : (f.sendAbort a tagged bs).asked = f.asked := by
  simp only [Fyster.sendAbort]
  split
  · rfl
  · exact (Fyster.asked_of_bare (Fyster.bare_sendDatagram _ _ _ _ _)).trans rfl

theorem Fyster.asked_logAbort (f : Fyster) (a : Ask) (n : Nat) : (f.logAbort a n).asked = f.asked :=
  Fyster.asked_of_bare (Fyster.bare_log f _)

theorem Fyster.asked_refuse (f : Fyster) (a : Ask) (tagged : Bool) (n : Nat) : (f.refuse a tagged false n).asked = f.asked :=
  (Fyster.asked_sendAbort _ _ _ _).trans (Fyster.asked_logAbort _ _ _)

theorem Fyster.asked_authFail (f : Fyster) (a : BitVec 128) : (f.authFail a).asked = f.asked := rfl

/-! ### What the admission of a request leaves (R353) -/

/-- Fyster without what the admission of a request changes: sessions, sources and counts. -/
def Fyster.unserved (f : Fyster) : Fyster := { f with sessions := [], sources := [], part := { f.part with obj := [] } }

section
variable {f : Fyster} {h : TdpMsg}

theorem Fyster.unserved_tdpHead (ok : (f.tdpHead h).2 = true) : (f.tdpHead h).1.unserved = f.unserved := by
  unfold Fyster.tdpHead at ok ⊢
  split at ok
  · rfl
  · cases ok
  · cases ok

theorem Fyster.unserved_admitOpen (ok : (f.admitOpen h).2 = true) : (f.admitOpen h).1.unserved = f.unserved := by
  unfold Fyster.admitOpen at ok ⊢
  dsimp only at ok ⊢
  split at ok
  · rfl
  · cases ok

theorem Fyster.unserved_admitSeq {x : Session} (ok : (f.admitSeq h x).2 = true) : (f.admitSeq h x).1.unserved = f.unserved := by
  unfold Fyster.admitSeq at ok ⊢
  dsimp only at ok ⊢
  split at ok
  next =>
    split at ok
    next => cases ok
    next => split at ok <;> cases ok
  next hnew =>
    split at ok
    next => cases ok
    next hseq =>
      rw [if_neg hnew, if_neg hseq]
      split at ok
      · rfl
      · cases ok

/-- A request that is admitted has changed sessions, sources and counts alone. -/
theorem Fyster.unserved_tdpTake (ok : (f.tdpTake h).2 = true) : (f.tdpTake h).1.unserved = f.unserved := by
  have hhead : (f.tdpHead h).2 = true := by
    cases hval : (f.tdpHead h).2
    · simp only [Fyster.tdpTake] at ok
      rw [if_pos hval, hval] at ok
      cases ok
    · rfl
  have hgo : ¬(f.tdpHead h).2 = false := by
    rw [hhead]
    decide
  simp only [Fyster.tdpTake, if_neg hgo] at ok ⊢
  cases hs : (f.tdpHead h).1.session? h.session with
  | some x =>
    simp only [hs] at ok ⊢
    exact (Fyster.unserved_admitSeq ok).trans (Fyster.unserved_tdpHead hhead)
  | none =>
    simp only [hs] at ok ⊢
    exact (Fyster.unserved_admitOpen ok).trans (Fyster.unserved_tdpHead hhead)

/-- Whether a node can be reached does not depend on sessions, sources and counts. -/
theorem Fyster.nodeCode_of_unserved {g : Fyster} (hg : g.unserved = f.unserved) (n : Nat) : g.nodeCode n = f.nodeCode n :=
  (congrArg (fun f : Fyster => f.nodeCode n) hg :)

/-- A request that is admitted is performed. -/
theorem Fyster.request_of_taken {m : Datagram} {mtype : Nat} {act : Fyster → TdpMsg → Fyster} (hfor : f.tdpFor m mtype = some h)
    (ok : (f.tdpTake h).2 = true) : f.request m mtype act = act (f.tdpTake h).1 h := by
  simp only [Fyster.request, hfor]
  rw [if_pos ok]

theorem Fyster.request_of_refused {m : Datagram} {mtype : Nat} {act : Fyster → TdpMsg → Fyster} (hfor : f.tdpFor m mtype = some h)
    (no : (f.tdpTake h).2 = false) : f.request m mtype act = (f.tdpTake h).1 := by
  simp only [Fyster.request, hfor]
  rw [if_neg (by rw [no]; exact Bool.false_ne_true)]

theorem State.request_of_taken {s : State} {dt : Nat} {m : Datagram} {mtype : Nat} {act : State → Fyster → TdpMsg → State}
    (hfor : s.fy.tdpFor m mtype = some h) (ok : ((s.fy.tick dt).tdpTake h).2 = true) :
    s.request dt m mtype act = act s ((s.fy.tick dt).tdpTake h).1 h := by
  have hfor' : (s.fy.tick dt).tdpFor m mtype = some h := hfor
  simp only [State.request, hfor']
  rw [if_pos ok]

end

/-! ### Opening a session (R351, R352) -/

section
variable {f : Fyster}

theorem Fyster.tdpHello_of_welcome {h : TdpMsg} (hshape : h.shape = true) (hversion : h.version = 1) (hin : f.lockedOut h.src = false)
    (hlevel : fieldAt h.value 4 1 = 1 ∨ fieldAt h.value 4 1 = 2) (hroom : f.sessions.length < 16)
    (hrate : (recentMs f.ns 1000 (f.source h.src).times).length < f.rd 0x1100 3) :
    f.tdpHello h =
      { f.putSource { f.source h.src with times := recentMs f.ns 1000 (f.source h.src).times ++ [f.ns] } with
        hellos := f.hellos ++
          [({ src := h.src, port := h.port, key := fieldAt h.value 0 4, level := fieldAt h.value 4 1, seq := h.seq } : Hello)] } := by
  have hlvl : (fieldAt h.value 4 1 != 1 && fieldAt h.value 4 1 != 2) = false := by
    rcases hlevel with hl | hl <;> rw [hl] <;> rfl
  have hcode : lowestAbort [(!h.shape, 1), (h.version != 1, 2), (f.lockedOut h.src, 4),
      (fieldAt h.value 4 1 != 1 && fieldAt h.value 4 1 != 2, 0x26), (f.sessionsFull, 0x28),
      (decide (f.rd 0x1100 3 ≤ (recentMs f.ns 1000 (f.source h.src).times).length), 0x31)] = 0 := by
    rw [hshape, hversion, hin, hlvl, Fyster.sessionsFull, decide_eq_false (Nat.not_le.mpr hroom), decide_eq_false (Nat.not_le.mpr hrate)]
    rfl
  simp only [Fyster.tdpHello]
  rw [if_pos hcode]
  rfl

theorem Fyster.tdpHello_of_lockedOut {h : TdpMsg} (hshape : h.shape = true) (hversion : h.version = 1) (hout : f.lockedOut h.src = true) :
    f.tdpHello h = (f.bump 0x1101 6 1).refuse { h.ask with session := 0 } false false 4 := by
  have hcode (a b c : Bool) :
      lowestAbort [(!h.shape, 1), (h.version != 1, 2), (f.lockedOut h.src, 4), (a, 0x26), (b, 0x28), (c, 0x31)] = 4 := by
    rw [hshape, hversion, hout]
    cases a <;> cases b <;> cases c <;> rfl
  simp only [Fyster.tdpHello, hcode]
  rfl

theorem Fyster.challenge_of_leave {a : SecLeave} {h : Hello} (hfound : (f.hellos.find? fun h => h.src == a.src) = some h)
    (hleave : a.leave = true) (hroom : f.sessions.length < 16) :
    f.challenge a =
      ({ f with
          hellos := f.hellos.erase h, nextSession := f.nextSession % (2 ^ 32 - 1) + 1
          sessions := f.sessions ++ [h.provisional f.nextSession f.ns] } : Fyster).sendDatagram h.src h.port false
        ((openOut 2 f.nextSession h.seq false f.ts).bytes 16 (slice (a.nonce ++ List.replicate 16 0) 0 16)) := by
  have hfull : ({ f with hellos := f.hellos.erase h } : Fyster).sessionsFull = false := decide_eq_false (Nat.not_le.mpr hroom)
  simp only [Fyster.challenge, hfound, hleave, hfull]
  rfl

theorem Fyster.challenge_of_none {a : SecLeave} {h : Hello} (hfound : (f.hellos.find? fun h => h.src == a.src) = some h)
    (hleave : a.leave = false) :
    f.challenge a = (({ f with hellos := f.hellos.erase h } : Fyster).authFail h.src).refuse h.ask false false 4 := by
  simp only [Fyster.challenge, hfound, hleave, if_true]

theorem Fyster.tdpAuth_of_provisional {h : TdpMsg} {x : Session} (hshape : h.shape = true) (hversion : h.version = 1)
    (hfound : (f.sessions.find? fun s => s.id == h.session) = some x) (hlive : x.live = false) (hproof : x.proof = none) :
    f.tdpAuth h =
      if x.since + 5000000000 < f.ns then ((f.closeSession h.session).authFail h.src).refuse h.ask false false 4
      else f.modSession h.session fun x => { x with proof := some h.seq, src := h.src, port := h.port } := by
  have hcode : lowestAbort [(!h.shape, 1), (h.version != 1, 2)] = 0 := by
    rw [hshape, hversion]
    rfl
  simp only [Fyster.tdpAuth, hcode, hfound, hlive, hproof, Option.isSome_none, Bool.false_eq_true, if_false]

theorem Fyster.authChecked_of_proof {id q : Nat} {x : Session} (hfound : (f.sessions.find? fun s => s.id == id && !s.live) = some x)
    (hproof : x.proof = some q) :
    f.authChecked id true =
      (f.modSession id fun x => { x with live := true, proof := none, lastAt := f.ns }).sendDatagram x.src x.port true
        ((openOut 4 id q true f.ts).bytes 8 (leBytes 8 (f.rd 0x1100 2))) := by
  simp only [Fyster.authChecked, hfound, hproof, if_true]
  rfl

theorem Fyster.authChecked_of_bad {id q : Nat} {x : Session} (hfound : (f.sessions.find? fun s => s.id == id && !s.live) = some x)
    (hproof : x.proof = some q) :
    f.authChecked id false =
      ((f.closeSession id).authFail x.src).refuse
        { session := id, src := x.src, port := x.port, seq := q, mtype := 3, node := 0xFF, index := 0, sub := 0 } false false 4 := by
  simp only [Fyster.authChecked, hfound, hproof]
  rfl

theorem Fyster.id_of_session {id : Nat} {x : Session} (h : f.session? id = some x) : x.id = id :=
  eq_of_beq (Bool.and_eq_true_iff.mp (List.find?_some h :)).1

theorem Fyster.session_closeSession (f : Fyster) (id : Nat) : (f.closeSession id).session? id = none := by
  simp only [Fyster.closeSession, Fyster.session?, List.find?_eq_none, List.mem_filter]
  rintro x ⟨-, hne⟩ heq
  exact (bne_iff_ne.mp hne) (eq_of_beq (Bool.and_eq_true_iff.mp heq).1)

theorem Fyster.tdpFor_shape {m : Datagram} {mtype dt : Nat} {h : TdpMsg} (hfor : f.tdpFor m mtype = some h) :
    (f.tick dt).tdpFor m mtype = some h := hfor

end

/-- Settles O47: opening a session, and its time limits. -/
theorem openingASession : Obligations.OpeningASession := by
  unfold Obligations.OpeningASession
  refine ⟨?hello, ?locked, ?leave, ?none, ?auth, ?late, ?proved, ?bad, ?provisional, ?idle, ?lockout, ?dropped⟩
  case hello =>
    intro s dt m h hfor hshape hversion hin hlevel hroom hrate
    refine fyNext_of_onFy rfl ?_
    simp only [Fyster.tdpFor_shape hfor]
    exact Fyster.tdpHello_of_welcome hshape hversion hin hlevel hroom hrate
  case locked =>
    intro s dt m h hfor hshape hversion hout
    refine fyNext_of_onFy rfl ?_
    simp only [Fyster.tdpFor_shape hfor]
    rw [Fyster.tdpHello_of_lockedOut hshape hversion hout]
    have hasked := Fyster.asked_refuse ((s.fy.tick dt).bump 0x1101 6 1) { h.ask with session := 0 } false 4
    exact ⟨rfl, (congrArg (fun a => a.1.hellos) hasked :), (congrArg Prod.snd hasked :)⟩
  case leave =>
    intro s dt a h hrun hfound hleave hroom
    refine fyNext_of_onFy rfl ?_
    rw [if_pos (show (s.fy.tick dt).boot.running = true from hrun)]
    exact Fyster.challenge_of_leave (f := s.fy.tick dt) hfound hleave hroom
  case none =>
    intro s dt a h hrun hfound hleave
    refine fyNext_of_onFy rfl ?_
    rw [if_pos (show (s.fy.tick dt).boot.running = true from hrun), Fyster.challenge_of_none (f := s.fy.tick dt) hfound hleave]
    refine ⟨rfl, ?_⟩
    exact (congrArg Prod.snd (Fyster.asked_refuse (({ s.fy.tick dt with hellos := _ } : Fyster).authFail h.src) h.ask false 4) :)
  case auth =>
    intro s dt m h x hfor hshape hversion hfound hlive hproof hin
    refine fyNext_of_onFy rfl ?_
    simp only [Fyster.tdpFor_shape hfor]
    rw [Fyster.tdpAuth_of_provisional (f := s.fy.tick dt) hshape hversion hfound hlive hproof, if_neg (Nat.not_lt.mpr hin)]
  case late =>
    intro s dt m h x hfor hshape hversion hfound hlive hproof hlate
    refine fyNext_of_onFy rfl ?_
    simp only [Fyster.tdpFor_shape hfor]
    rw [Fyster.tdpAuth_of_provisional (f := s.fy.tick dt) hshape hversion hfound hlive hproof, if_pos hlate]
  case proved =>
    intro s dt n x q hrun hfound hproof
    refine fyNext_of_onFy rfl ?_
    rw [if_pos (show (s.fy.tick dt).boot.running = true from hrun)]
    exact Fyster.authChecked_of_proof (f := s.fy.tick dt) hfound hproof
  case bad =>
    intro s dt n x q hrun hfound hproof
    refine fyNext_of_onFy rfl ?_
    rw [if_pos (show (s.fy.tick dt).boot.running = true from hrun), Fyster.authChecked_of_bad (f := s.fy.tick dt) hfound hproof]
    exact ⟨rfl, (congrArg Prod.snd (Fyster.asked_refuse (((s.fy.tick dt).closeSession n.toNat).authFail x.src) _ false 4) :)⟩
  case provisional =>
    intro s dt n x hfound hlive hproof hend
    have hid : x.id = n.toNat := eq_of_beq (List.find?_some hfound :)
    have hfound' : ((s.fy.tick dt).sessions.find? fun s => s.id == n.toNat) = some x := hfound
    refine fyNext_of_onFy rfl ?_
    simp only [hfound']
    rw [if_pos ⟨hlive, by rw [hproof]; rfl, hend⟩, hid]
  case idle =>
    intro s dt n x hfound hend
    have hfound' : (s.fy.tick dt).session? n.toNat = some x := hfound
    have hend' : x.lastAt + (s.fy.tick dt).rd 0x1100 2 * 1000000000 ≤ (s.fy.tick dt).ns := hend
    refine fyNext_of_onFy rfl ?_
    simp only [hfound']
    rw [if_pos hend', Fyster.id_of_session hfound]
    exact ⟨rfl, Fyster.session_closeSession _ _, rfl⟩
  case lockout =>
    intro s dt a hlocked hopen
    refine fyNext_of_onFy rfl ?_
    exact if_pos ⟨hlocked, hopen⟩
  case dropped =>
    intro s dt m hrun hmsg
    refine fyNext_of_onFy rfl ?_
    rw [if_pos (show (s.fy.tick dt).boot.running = true from hrun), Fyster.tdpDrop, hmsg]

/-! ### Answers of performed requests (R350, R353) -/

/-- Fyster without what an answer that is no abort changes: sessions, transfers, subscriptions and reports. -/
def Fyster.unanswered (f : Fyster) : Fyster := ({ f with sessions := [], xfers := [], subs := [] } : Fyster).bareBut []

theorem Fyster.unanswered_closeIfLast (f : Fyster) (a : Ask) : (f.closeIfLast a).unanswered = f.unanswered := by
  simp only [Fyster.closeIfLast]
  split <;> rfl

theorem Fyster.unanswered_sendDatagram (f : Fyster) (dst : BitVec 128) (port : BitVec 16) (tagged : Bool) (bs : List Byte) :
    (f.sendDatagram dst port tagged bs).unanswered = f.unanswered :=
  congrArg (fun x : Fyster => { x with sessions := [], xfers := [], subs := [] }) (Fyster.bare_sendDatagram f dst port tagged bs)

theorem Fyster.unanswered_answer (f : Fyster) (a : Ask) (type ts : Nat) (v : List Byte) :
    (f.answer a 0 type ts v).unanswered = f.unanswered := by
  simp only [Fyster.answer, if_true]
  split
  · rfl
  · rw [Fyster.unanswered_closeIfLast, Fyster.unanswered_sendDatagram]
    rfl

theorem Fyster.resetAfter_answer (f : Fyster) (a : Ask) (type ts : Nat) (v : List Byte) :
    (f.answer a 0 type ts v).resetAfter = f.resetAfter :=
  (congrArg Fyster.resetAfter (Fyster.unanswered_answer f a type ts v) :)

/-- An answer that is no abort touches no object of configuration. -/
theorem Fyster.rd_answer (f : Fyster) (a : Ask) (type ts : Nat) (v : List Byte) {i j : Nat}
    (hkey : fyReportKeys.contains (objKey i j) = false) : (f.answer a 0 type ts v).rd i j = f.rd i j := by
  have hrd := Fyster.rd_of_bareBut (ks := []) (i := i) (j := j) (Fyster.unanswered_answer f a type ts v)
    (by rw [List.append_nil]; exact hkey)
  exact hrd

/-! ### Requests (R350, R353) -/

theorem Fyster.session_modSession (f : Fyster) (id : Nat) {g : Session → Session} (hid : ∀ x, (g x).id = x.id)
    (hlive : ∀ x, (g x).live = x.live) (n : Nat) :
    (f.modSession id g).session? n = (f.session? n).map fun x => if x.id = id then g x else x := by
  have hsame : (fun x : Session => x.id == n && x.live) ∘ (fun x : Session => if x.id = id then g x else x) =
      fun x : Session => x.id == n && x.live := by
    funext x
    simp only [Function.comp_apply]
    split
    · rw [hid, hlive]
    · rfl
  simp only [Fyster.session?, Fyster.modSession, List.find?_map, hsame]

section
variable {f : Fyster} {h : TdpMsg}

/-- R353: a SEQ that the session has received is answered with what it kept. -/
theorem Fyster.tdpTake_of_kept {x : Session} {k : Kept} (hshape : h.shape = true) (hversion : h.version = 1)
    (htagged : h.tagged = true) (htag : h.tagOk = true) (hs : f.session? h.session = some x) (hgot : x.received h.seq = true)
    (hseq : h.seq ≠ 0) (hkept : (x.kept.find? fun k => k.seq == h.seq) = some k) :
    f.tdpTake h =
      (((f.modSession h.session fun y => { y with lastAt := f.ns, src := h.src, port := h.port }).bump 0x1101 7 1).sendDatagram
        h.src h.port true (asRepeat k.bytes), false) := by
  have hcode : f.headCode h = 0 := by
    simp only [Fyster.headCode, hshape, hversion, htagged, htag, hs]
    cases h.session != 0 <;> rfl
  have hhead : f.tdpHead h =
      (f.modSession h.session fun y => { y with lastAt := f.ns, src := h.src, port := h.port }, true) := by
    simp only [Fyster.tdpHead, hcode]
  have hs' : (f.modSession h.session fun y => { y with lastAt := f.ns, src := h.src, port := h.port }).session? h.session =
      some { x with lastAt := f.ns, src := h.src, port := h.port } := by
    have hmod := Fyster.session_modSession f h.session (g := fun y => { y with lastAt := f.ns, src := h.src, port := h.port })
      (fun _ => rfl) (fun _ => rfl) h.session
    rw [hmod, hs, Option.map_some, if_pos (Fyster.id_of_session hs)]
  have hgot' : ({ x with lastAt := f.ns, src := h.src, port := h.port } : Session).received h.seq = true := hgot
  simp only [Fyster.tdpTake, hhead, hs', Fyster.admitSeq]
  rw [if_neg (by decide), if_pos ⟨hseq, hgot'⟩, hkept]

theorem Fyster.tdpRead_of_own {v : Nat × Nat × List Byte} (hnode : h.node = 0) (hv : v = f.readObj h.index h.sub) (hcode : v.1 = 0)
    (hlen : v.2.2.length ≤ 512) : f.tdpRead h = f.answer h.ask 0 v.2.1 f.ts v.2.2 := by
  have hown : f.nodeCode h.node = 0 := by rw [hnode]; rfl
  simp only [Fyster.tdpRead, hown, ← hv]
  rw [if_pos hnode, if_neg (fun hne => hne hcode), if_neg (Nat.not_lt.mpr hlen)]

theorem Fyster.tdpRead_of_tu (hnode : h.node ≠ 0) (hup : f.nodeCode h.node = 0) :
    f.tdpRead h = f.relay (h.node - 1) h.why (dictReadMsg (f.levelOf h.session) h.index h.sub h.type) := by
  simp only [Fyster.tdpRead, hup]
  exact if_neg hnode

theorem State.tdpWrite_of_own {s : State} (hnode : h.node = 0) (htype : typeBad 1 h.index h.sub h.type = false) :
    s.tdpWrite f h =
      s.writeFy f h.session (f.levelOf h.session) h.index h.sub h.value (some h.why) fun f a => f.answer h.ask a h.type f.ts [] := by
  have hown : f.nodeCode h.node = 0 := by rw [hnode]; rfl
  simp only [State.tdpWrite, hown, htype]
  rw [if_neg (fun hne => hne hnode)]
  rfl

theorem State.tdpWrite_of_tu {s : State} (hnode : h.node ≠ 0) (hup : f.nodeCode h.node = 0) :
    s.tdpWrite f h =
      { s with fy := f.relay (h.node - 1) h.why (dictWriteMsg (f.levelOf h.session) h.index h.sub h.type h.value) } := by
  simp only [State.tdpWrite, hup]
  exact if_pos hnode

/-- A register of the protocol takes the value, and the persistent objects are stored. -/
theorem Fyster.wrObj_1100 {tus : Tab Tu} {session level k : Nat} {v : List Byte} {why : Option RelayFor} (hk : k < 256)
    (hcode : writeCode 1 level 0x1100 k v = 0) :
    f.wrObj tus session level 0x1100 k v why = ((f.wr 0x1100 k (leNat v)).persist, 0) := by
  have hplain : f.wrObj1 0x1100 k v (leNat v) = (f.wr 0x1100 k (leNat v), 0) := by
    simp [Fyster.wrObj1]
  have hkey : persistentObj (objKey 0x1100 k) = true := by
    have hindex : objKey 0x1100 k / 256 = 0x1100 := by
      simp only [objKey]
      omega
    simp only [persistentObj, hindex]
    rfl
  have hstore (g : Fyster) : g.persistIf 0x1100 k = g.persist := if_pos hkey
  simp only [Fyster.wrObj, hcode, Nat.reduceLT, if_true, hplain, hstore]

end

/-- Settles O48: requests within a session. -/
theorem requests : Obligations.Requests := by
  unfold Obligations.Requests
  refine ⟨?read, ?readTu, ?kept, ?write, ?writeTu, ?close⟩
  case read =>
    intro s dt m h v hfor ok hnode hv hcode hlen
    refine fyNext_of_onFy rfl ?_
    exact (Fyster.request_of_taken (f := s.fy.tick dt) hfor ok).trans (Fyster.tdpRead_of_own hnode hv hcode hlen)
  case readTu =>
    intro s dt m h hfor ok hnode hup
    have hup' := (Fyster.nodeCode_of_unserved (Fyster.unserved_tdpTake ok) h.node).trans hup
    refine fyNext_of_onFy rfl ?_
    exact (Fyster.request_of_taken (f := s.fy.tick dt) hfor ok).trans (Fyster.tdpRead_of_tu hnode hup')
  case kept =>
    intro s dt m h x k hfor hshape hversion htagged htag hs hgot hseq hkept
    have htake := Fyster.tdpTake_of_kept (f := s.fy.tick dt) hshape hversion htagged htag hs hgot hseq hkept
    refine fyNext_of_onFy rfl ?_
    exact (Fyster.request_of_refused (f := s.fy.tick dt) hfor (congrArg Prod.snd htake)).trans (congrArg Prod.fst htake)
  case write =>
    intro s dt m h hfor ok hnode hindex htype hcode hreset f₁
    have hsub : h.sub < 256 := tdpMsg_sub_lt (Fyster.tdpFor_spec hfor).1
    rw [hindex] at hcode
    have hreset' : (f₁.persist.answer h.ask 0 h.type f₁.persist.ts []).resetAfter = none := by
      rw [Fyster.resetAfter_answer]
      exact (congrArg Fyster.resetAfter (Fyster.unserved_tdpTake ok)).trans hreset
    have hwrite : s.request dt m 0x12 (fun s f h => s.tdpWrite f h) =
        { s with fy := f₁.persist.answer h.ask 0 h.type f₁.persist.ts [] } := by
      rw [State.request_of_taken hfor ok, State.tdpWrite_of_own hnode htype, hindex,
        State.writeFy_accepted (Fyster.wrObj_1100 hsub hcode) rfl hreset']
      exact State.afterWrite_of_unpushed _ _ rfl
    refine ⟨_, congrArg Host.Outcome.next hwrite, rfl, ?_⟩
    rw [Fyster.rd_answer _ _ _ _ _ (by simp [fyReportKeys, objKey]; omega)]
    exact Part.rd_wr_self _ _ _ _
  case writeTu =>
    intro s dt m h hfor ok hnode hup
    have hup' := (Fyster.nodeCode_of_unserved (Fyster.unserved_tdpTake ok) h.node).trans hup
    exact ⟨_, congrArg Host.Outcome.next ((State.request_of_taken hfor ok).trans (State.tdpWrite_of_tu hnode hup')), rfl⟩
  case close =>
    intro s dt m h hfor ok hsession
    refine fyNext_of_onFy rfl ?_
    have hclose := (Fyster.request_of_taken (act := fun f h => f.tdpClose h) (f := s.fy.tick dt) hfor ok).trans (if_neg hsession)
    exact ⟨hclose, by rw [hclose]; exact Fyster.session_closeSession _ _⟩

end Sys2Proof.Machine
end

section
/-! SUPPORT. Block transfers and subscriptions of the Thotus dictionary protocol (R355 to R359). -/

namespace Sys2Proof.Machine

/-! ### What an answer leaves (R350, R361) -/

theorem Fyster.unasked_sendAbort (f : Fyster) (a : Ask) (tagged : Bool) (bs : List Byte) : (f.sendAbort a tagged bs).unasked = f.unasked :=
  congrArg Prod.fst (Fyster.asked_sendAbort f a tagged bs)

theorem Fyster.unasked_logAbort (f : Fyster) (a : Ask) (n : Nat) : (f.logAbort a n).unasked = f.unasked :=
  congrArg Prod.fst (Fyster.asked_logAbort f a n)

theorem Fyster.unasked_closeIfLast (f : Fyster) (a : Ask) : (f.closeIfLast a).unasked = f.unasked := by
  simp only [Fyster.closeIfLast]
  split <;> rfl

theorem Fyster.unasked_answer (f : Fyster) (a : Ask) (abort type ts : Nat) (v : List Byte) :
    (f.answer a abort type ts v).unasked = f.unasked := by
  simp only [Fyster.answer]
  split
  · rfl
  · rw [Fyster.unasked_closeIfLast]
    split
    · rw [Fyster.unasked_of_bare (Fyster.bare_sendDatagram _ _ _ _ _)]
      rfl
    · rw [Fyster.unasked_sendAbort, Fyster.unasked_logAbort]
      rfl

theorem Fyster.unasked_xferEnd (f : Fyster) (id seq abort ts : Nat) : (f.xferEnd id seq abort ts).unasked = f.unasked := by
  simp only [Fyster.xferEnd]
  split
  · rfl
  next x _ => exact (Fyster.unasked_answer f (f.xferAsk x 0x25 seq) abort 0x0C ts (leBytes 8 x.id) :)

theorem Fyster.jun_xferEnd (f : Fyster) (id seq abort ts : Nat) : (f.xferEnd id seq abort ts).jun = f.jun :=
  (congrArg Fyster.jun (Fyster.unasked_xferEnd f id seq abort ts) :)

theorem Fyster.resetAfter_xferEnd (f : Fyster) (id seq abort ts : Nat) : (f.xferEnd id seq abort ts).resetAfter = f.resetAfter :=
  (congrArg Fyster.resetAfter (Fyster.unasked_xferEnd f id seq abort ts) :)

/-! ### Block transfers (R355 to R358) -/

theorem Fyster.id_of_xfer {f : Fyster} {id : Nat} {x : Xfer} (h : f.xfer? id = some x) : x.id = id :=
  eq_of_beq (List.find?_some h :)

theorem Fyster.xfer_dropXfer (f : Fyster) (id : Nat) : (f.dropXfer id).xfer? id = none := by
  simp only [Fyster.dropXfer, Fyster.xfer?, List.find?_eq_none, List.mem_filter]
  rintro x ⟨-, hne⟩ heq
  exact (bne_iff_ne.mp hne) (eq_of_beq heq)

section
variable {f g : Fyster} {h : TdpMsg} {x : Xfer}

theorem Fyster.xferOf_of_unserved (hg : g.unserved = f.unserved) (h : TdpMsg) (write : Bool) : g.xferOf h write = f.xferOf h write :=
  (congrArg (fun f : Fyster => f.xferOf h write) hg :)

theorem Fyster.xfersFull_of_unserved (hg : g.unserved = f.unserved) (n : Nat) : g.xfersFull n = f.xfersFull n :=
  (congrArg (fun f : Fyster => f.xfersFull n) hg :)

theorem Fyster.partsUnderWay_of_unserved (hg : g.unserved = f.unserved) (id : Nat) : g.partsUnderWay id = f.partsUnderWay id :=
  (congrArg (fun f : Fyster => f.partsUnderWay id) hg :)

theorem Fyster.blkReadInit_of_own {v : Nat × Nat × List Byte} (hsession : h.session ≠ 0) (hnode : h.node = 0)
    (hv : v = f.readObj h.index h.sub) (hcode : v.1 = 0) (htype : v.2.1 = 12) (hroom : f.xfersFull h.session = false) :
    f.blkReadInit h =
      ({ f with
          nextXfer := f.nextXfer % 65535 + 1
          xfers := f.xfers ++ [h.xfer f.nextXfer f.ns false v.2.2.length (crc32c v.2.2) v.2.2] } : Fyster).xferOpen f.nextXfer f.ts := by
  have hopen : lowestAbort [(v.1 != 0, v.1), (v.1 == 0 && v.2.1 != 12, 0x24), (f.xfersFull h.session, 0x44)] = 0 := by
    rw [hcode, htype, hroom]
    rfl
  rw [Fyster.blkReadInit, if_neg hsession, if_pos hnode]
  simp only [Fyster.blkReadOwn, ← hv, hopen, Fyster.newXfer]

theorem Fyster.blkWriteInit_of_sound (hsession : h.session ≠ 0) (hnode : f.nodeCode h.node = 0)
    (hobj : blkWriteCode (if h.node = 0 then 1 else 2) h.index h.sub (fieldAt h.value 0 4) = 0)
    (hroom : f.xfersFull h.session = false) :
    f.blkWriteInit h =
      ({ f with
          nextXfer := f.nextXfer % 65535 + 1
          xfers := f.xfers ++ [h.xfer f.nextXfer f.ns true (fieldAt h.value 0 4) (fieldAt h.value 4 4) []] } : Fyster).xferOpen
        f.nextXfer f.ts := by
  have hopen : lowestAbort [(h.session == 0, 3), (f.nodeCode h.node != 0, f.nodeCode h.node),
      (f.nodeCode h.node == 0 && blkWriteCode (if h.node = 0 then 1 else 2) h.index h.sub (fieldAt h.value 0 4) != 0,
        blkWriteCode (if h.node = 0 then 1 else 2) h.index h.sub (fieldAt h.value 0 4)), (f.xfersFull h.session, 0x44)] = 0 := by
    rw [hnode, hobj, hroom, beq_false_of_ne hsession]
    rfl
  simp only [Fyster.blkWriteInit, hopen, Fyster.newXfer]

/-- A segment in order is taken. -/
theorem Fyster.blkSeg_of_next (hx : f.xferOf h true = some x) (hnext : fieldAt h.value 4 4 = x.next) (hin : x.next < segCount x.total)
    (hlen : (h.value.drop 8).length = min 512 (x.total - 512 * x.next)) (hack : x.sinceAck ≠ 3) :
    f.blkSeg h =
      ((f.modXfer x.id fun x => { x with lastAt := f.ns }).modXfer x.id fun x =>
        { x with bytes := x.bytes ++ h.value.drop 8, next := x.next + 1, sinceAck := x.sinceAck + 1 }).closeIfLast h.ask := by
  simp only [Fyster.blkSeg, hx, hnext, true_and]
  rw [if_pos hin, if_neg (fun hne => hne hlen), if_neg hack]

theorem Fyster.blkSeg_of_other (hx : f.xferOf h true = some x) (hnext : fieldAt h.value 4 4 ≠ x.next) :
    f.blkSeg h = ((f.modXfer x.id fun x => { x with lastAt := f.ns }).sendAck h x.id).closeIfLast h.ask := by
  simp only [Fyster.blkSeg, hx]
  exact if_neg fun hin => hnext hin.1

theorem Fyster.blkAck_of_forward {n : Nat} (hx : f.xferOf h false = some x) (hready : x.ready = true)
    (hn : n = (fieldAt h.value 4 4 + 1) % 2 ^ 32) (hnext : x.next < n) (hsent : n ≤ x.sent) :
    f.blkAck h =
      ((f.modXfer x.id fun x => { x with lastAt := f.ns, ackAt := f.ns }).modXfer x.id fun x => { x with next := n }).sendWindow x.id := by
  have hgo : ¬(x.ready = false ∨ x.sent < n) := not_or.mpr ⟨by rw [hready]; decide, Nat.not_lt.mpr hsent⟩
  simp only [Fyster.blkAck, hx, ← hn]
  rw [if_neg hgo, if_pos hnext]

theorem State.blkEnd_of_unsound {s : State} (hx : f.xferOf h true = some x) (hidle : f.partsUnderWay x.id = false)
    (hbad : x.bytes.length ≠ x.total ∨ crc32c x.bytes ≠ x.crc) :
    s.blkEnd f h = { s with fy := (f.modXfer x.id fun x => { x with lastAt := f.ns }).xferEnd x.id h.seq 0x41 f.ts } := by
  have hidle' : ¬(f.modXfer x.id fun x => { x with lastAt := f.ns }).partsUnderWay x.id = true := by
    rw [show (f.modXfer x.id fun x => { x with lastAt := f.ns }).partsUnderWay x.id = false from hidle]
    exact Bool.false_ne_true
  simp only [State.blkEnd, hx]
  rw [if_neg hidle', if_pos hbad]
  rfl

theorem State.blkEnd_of_own {s : State} (hx : f.xferOf h true = some x) (hidle : f.partsUnderWay x.id = false)
    (hlen : x.bytes.length = x.total) (hcrc : crc32c x.bytes = x.crc) (hnode : x.node = 0) :
    s.blkEnd f h =
      s.writeFy (f.modXfer x.id fun x => { x with lastAt := f.ns }) h.session (f.levelOf h.session) x.index x.sub x.bytes
        (some (.blkWrite x.id h.seq)) fun f a => f.xferEnd x.id h.seq a f.ts := by
  have hidle' : ¬(f.modXfer x.id fun x => { x with lastAt := f.ns }).partsUnderWay x.id = true := by
    rw [show (f.modXfer x.id fun x => { x with lastAt := f.ns }).partsUnderWay x.id = false from hidle]
    exact Bool.false_ne_true
  simp only [State.blkEnd, hx]
  rw [if_neg hidle', if_neg (not_or.mpr ⟨fun hne => hne hlen, fun hne => hne hcrc⟩), if_neg (fun hne => hne hnode)]
  rfl

end

/-- Settles O49: block transfers. -/
theorem blockTransfers : Obligations.BlockTransfers := by
  unfold Obligations.BlockTransfers
  refine ⟨?readInit, ?writeInit, ?segment, ?repeated, ?ack, ?unsound, ?whole, ?resend, ?timeout⟩
  case readInit =>
    intro s dt m h v hfor ok hsession hnode hv hcode htype hroom f₁
    have hun : f₁.unserved = (s.fy.tick dt).unserved := Fyster.unserved_tdpTake ok
    have hnext : f₁.nextXfer = s.fy.nextXfer := (congrArg Fyster.nextXfer hun :)
    refine fyNext_of_onFy rfl ?_
    rw [Fyster.request_of_taken (f := s.fy.tick dt) hfor ok,
      Fyster.blkReadInit_of_own hsession hnode hv hcode htype ((Fyster.xfersFull_of_unserved hun _).trans hroom), hnext]
  case writeInit =>
    intro s dt m h hfor ok hsession hnode hobj hroom f₁
    have hun : f₁.unserved = (s.fy.tick dt).unserved := Fyster.unserved_tdpTake ok
    have hnext : f₁.nextXfer = s.fy.nextXfer := (congrArg Fyster.nextXfer hun :)
    refine fyNext_of_onFy rfl ?_
    rw [Fyster.request_of_taken (f := s.fy.tick dt) hfor ok,
      Fyster.blkWriteInit_of_sound hsession ((Fyster.nodeCode_of_unserved hun _).trans hnode) hobj
        ((Fyster.xfersFull_of_unserved hun _).trans hroom), hnext]
  case segment =>
    intro s dt m h x hfor ok hx hno hin hlen hack
    have hx' := (Fyster.xferOf_of_unserved (Fyster.unserved_tdpTake ok) h true).trans hx
    refine fyNext_of_onFy rfl ?_
    exact (Fyster.request_of_taken (f := s.fy.tick dt) hfor ok).trans (Fyster.blkSeg_of_next hx' hno hin hlen hack)
  case repeated =>
    intro s dt m h x hfor ok hx hno
    have hx' := (Fyster.xferOf_of_unserved (Fyster.unserved_tdpTake ok) h true).trans hx
    refine fyNext_of_onFy rfl ?_
    exact (Fyster.request_of_taken (f := s.fy.tick dt) hfor ok).trans (Fyster.blkSeg_of_other hx' hno)
  case ack =>
    intro s dt m h x n hfor ok hx hready hn hnext hsent
    have hx' := (Fyster.xferOf_of_unserved (Fyster.unserved_tdpHead ok) h false).trans hx
    refine fyNext_of_onFy rfl ?_
    simp only [Fyster.tdpFor_shape hfor]
    rw [if_pos ok]
    exact Fyster.blkAck_of_forward hx' hready hn hnext hsent
  case unsound =>
    intro s dt m h x hfor ok hx hidle hbad f₁
    have hun : f₁.unserved = (s.fy.tick dt).unserved := Fyster.unserved_tdpTake ok
    refine ⟨_, congrArg Host.Outcome.next ((State.request_of_taken hfor ok).trans
      (State.blkEnd_of_unsound ((Fyster.xferOf_of_unserved hun h true).trans hx)
        ((Fyster.partsUnderWay_of_unserved hun _).trans hidle) hbad)), rfl, ?_⟩
    rw [Fyster.jun_xferEnd]
    exact (congrArg Fyster.jun hun :)
  case whole =>
    intro s dt m h x hfor ok hx hidle hlen hcrc hnode hindex hsub hcode hspec hbatch hreset f₁
    have hun := Fyster.unserved_tdpTake ok
    have hstate : f₁.jun.batch.state = 0 := (congrArg (fun f : Fyster => f.jun.batch.state) hun :).trans hbatch
    have hwr := Fyster.wrObj_batchSpec (f := f₁) (tus := s.tus) (session := h.session) (some (.blkWrite x.id h.seq)) hcode hspec
      (by rw [hstate]; decide) (by rw [hstate]; decide)
    have hreset' : (({ f₁ with jun := { f₁.jun with batch := { f₁.jun.batch with spec := x.bytes } } } : Fyster).xferEnd x.id h.seq 0
        f₁.ts).resetAfter = none := by
      rw [Fyster.resetAfter_xferEnd]
      exact (congrArg Fyster.resetAfter hun :).trans hreset
    have hend : s.request dt m 0x25 (fun s f h => s.blkEnd f h) =
        { s with
          fy := ({ f₁ with jun := { f₁.jun with batch := { f₁.jun.batch with spec := x.bytes } } } : Fyster).xferEnd x.id h.seq 0 f₁.ts } := by
      rw [State.request_of_taken hfor ok]
      refine (State.blkEnd_of_own ((Fyster.xferOf_of_unserved hun h true).trans hx)
        ((Fyster.partsUnderWay_of_unserved hun _).trans hidle) hlen hcrc hnode).trans ?_
      rw [hindex, hsub]
      refine (State.writeFy_accepted hwr rfl hreset').trans ?_
      exact State.afterWrite_of_unpushed _ _ rfl
    refine ⟨_, congrArg Host.Outcome.next hend, rfl, ?_⟩
    rw [Fyster.jun_xferEnd]
  case resend =>
    intro s dt n x hx hwrite hready hnext hlate
    have hx' : (s.fy.tick dt).xfer? n.toNat = some x := hx
    refine fyNext_of_onFy rfl ?_
    simp only [hx']
    rw [if_pos ⟨hwrite, hready, hnext, hlate⟩, Fyster.id_of_xfer hx, Fyster.resendSegs]
  case timeout =>
    intro s dt n x hx hlate
    have hx' : (s.fy.tick dt).xfer? n.toNat = some x := hx
    refine fyNext_of_onFy rfl ?_
    simp only [Fyster.blockTimeout, hx']
    rw [if_neg (Nat.not_lt.mpr hlate)]
    exact ⟨rfl, Fyster.xfer_dropXfer _ _⟩

/-! ### Subscriptions (R359) -/

/-- What a subscription shows of its value: the value, and the count of its changes. -/
def Sub.shown (x : Sub) : Option (List Byte) × Nat := (x.last, x.changes)

theorem find_putSub {l : List Sub} {id : Nat} {x y : Sub} (hx : l.find? (fun x => x.id == id) = some x) (hy : y.id = id) :
    (l.map fun x => if x.id = id then y else x).find? (fun x => x.id == id) = some y := by
  have hsame : (fun x : Sub => x.id == id) ∘ (fun x : Sub => if x.id = id then y else x) = fun x : Sub => x.id == id := by
    funext x
    simp only [Function.comp_apply]
    split
    next h => rw [h, hy]
    · rfl
  rw [List.find?_map, hsame, hx, Option.map_some, if_pos (eq_of_beq (List.find?_some hx :))]

section
variable {f : Fyster} {h : TdpMsg} {id : Nat} {x : Sub}

theorem Fyster.find_subRead (hx : f.subs.find? (fun x => x.id == id) = some x) :
    (f.subRead id).subs.find? (fun x => x.id == id) = some { x with readAt := f.ns } := by
  have hsame : (fun x : Sub => x.id == id) ∘ (fun x : Sub => if x.id = id then { x with readAt := f.ns } else x) =
      fun x : Sub => x.id == id := by
    funext x
    simp only [Function.comp_apply]
    split <;> rfl
  simp only [Fyster.subRead]
  rw [List.find?_map, hsame, hx, Option.map_some, if_pos (eq_of_beq (List.find?_some hx :))]

theorem Fyster.subs_sendDatagram (f : Fyster) (dst : BitVec 128) (port : BitVec 16) (tagged : Bool) (bs : List Byte) :
    (f.sendDatagram dst port tagged bs).subs = f.subs :=
  (congrArg Fyster.subs (Fyster.bare_sendDatagram f dst port tagged bs) :)

/-- A subscription that has read its value shows it, and has counted a change of it. -/
theorem Fyster.shown_subValue {w : List Byte} (type : Nat) (v : List Byte) (hx : f.subs.find? (fun x => x.id == id) = some x)
    (hw : x.last = some w) :
    ((f.subValue id type v).subs.find? fun x => x.id == id).map Sub.shown =
      some (some v, if (w != v) = true then x.changes + 1 else x.changes) := by
  have hid : x.id = id := eq_of_beq (List.find?_some hx :)
  simp only [Fyster.subValue, hx, hw]
  split
  · exact congrArg (Option.map Sub.shown) (find_putSub hx (by exact hid))
  · split
    · exact congrArg (Option.map Sub.shown) (find_putSub hx (by exact hid))
    · rw [Fyster.subs_sendDatagram, Fyster.bump_subs]
      exact congrArg (Option.map Sub.shown) (find_putSub hx (by exact hid))

theorem Fyster.subscriptionCheck_of_due {v : Nat × Nat × List Byte} (hx : f.subs.find? (fun x => x.id == id) = some x)
    (hnode : x.node = 0) (hlast : x.last.isSome = true) (hdue : x.readAt + 1000000 ≤ f.ns) (hv : v = f.readObj x.index x.sub)
    (hcode : v.1 = 0) (hlen : v.2.2.length ≤ 512) : f.subscriptionCheck id = (f.subRead id).subValue id v.2.1 v.2.2 := by
  have hgo : ¬(x.last.isNone = true ∨ f.ns < x.readAt + 1 * 1000000) :=
    not_or.mpr ⟨not_isNone_of_isSome hlast, by omega⟩
  have hval : ¬(v.1 ≠ 0 ∨ 512 < v.2.2.length) := not_or.mpr ⟨fun hne => hne hcode, Nat.not_lt.mpr hlen⟩
  simp only [Fyster.subscriptionCheck, hx, hnode, if_true, ← hv]
  rw [if_neg hgo, if_neg hval]

theorem Fyster.subscriptionCheck_of_early (hx : f.subs.find? (fun x => x.id == id) = some x) (hearly : f.ns < x.readAt + 1000000) :
    f.subscriptionCheck id = f := by
  have hgap : 1 ≤ if x.node = 0 then 1 else max 10 x.interval := by
    split
    · exact Nat.le_refl 1
    · omega
  simp only [Fyster.subscriptionCheck, hx]
  exact if_pos (.inr (by omega))

theorem Fyster.subscribe_of_sound (hsession : h.session ≠ 0) (hnode : h.node = 0) (hobj : f.subObjCode h = 0)
    (hms : 0 < fieldAt h.value 2 2) (hmax : fieldAt h.value 2 2 ≤ 60000) (hmode : fieldAt h.value 0 1 = 1 ∨ fieldAt h.value 0 1 = 2)
    (hroom : f.subsFull h.session = false) :
    f.subscribe h =
      ({ f with
          nextSub := f.nextSub % 65535 + 1
          subs := f.subs ++ [h.newSub f.nextSub f.ns (fieldAt h.value 0 1 == 2) (fieldAt h.value 2 2)] } : Fyster).subOpen f.nextSub
        h.seq 0 f.ts
        (({ f with
            nextSub := f.nextSub % 65535 + 1
            subs := f.subs ++ [h.newSub f.nextSub f.ns (fieldAt h.value 0 1 == 2) (fieldAt h.value 2 2)] } : Fyster).readObj h.index
          h.sub).2.2 := by
  have hown : f.nodeCode h.node = 0 := by rw [hnode]; rfl
  have hper : (fieldAt h.value 2 2 == 0 || decide (60000 < fieldAt h.value 2 2)) = false := by
    rw [beq_false_of_ne (Nat.ne_of_gt hms), decide_eq_false (Nat.not_lt.mpr hmax)]
    rfl
  have hmd : (fieldAt h.value 0 1 != 1 && fieldAt h.value 0 1 != 2) = false := by
    rcases hmode with hm | hm <;> rw [hm] <;> rfl
  have hcode : lowestAbort [(h.session == 0, 3), (f.nodeCode h.node != 0, f.nodeCode h.node), (f.subObjCode h != 0, f.subObjCode h),
      (fieldAt h.value 2 2 == 0 || decide (60000 < fieldAt h.value 2 2), 0x25),
      (fieldAt h.value 0 1 != 1 && fieldAt h.value 0 1 != 2, 0x26), (f.subsFull h.session, 0x28)] = 0 := by
    rw [hown, hobj, hper, hmd, hroom, beq_false_of_ne hsession]
    rfl
  simp only [Fyster.subscribe, if_pos hnode, hcode]
  rfl

theorem Fyster.unsubscribe_of_own (hsession : h.session ≠ 0)
    (hown : (f.subs.any fun x => x.id == fieldAt h.value 0 2 && x.session == h.session) = true) :
    f.unsubscribe h =
      ({ f with subs := f.subs.filter fun (x : Sub) => x.id != fieldAt h.value 0 2 } : Fyster).answer h.ask 0 3 f.ts
        (leBytes 2 (fieldAt h.value 0 2)) := by
  simp only [Fyster.unsubscribe]
  rw [if_neg hsession, if_pos hown]

end

/-- Settles O50: subscriptions. -/
theorem subscriptions : Obligations.Subscriptions := by
  unfold Obligations.Subscriptions
  refine ⟨?subscribe, ?unsubscribe, ?due, ?early⟩
  case subscribe =>
    intro s dt m h hfor ok hsession hnode hobj hms hmax hmode hroom f₁
    have hun : f₁.unserved = (s.fy.tick dt).unserved := Fyster.unserved_tdpTake ok
    have hnext : f₁.nextSub = s.fy.nextSub := (congrArg Fyster.nextSub hun :)
    have hroom' : f₁.subsFull h.session = false := (congrArg (fun f : Fyster => f.subsFull h.session) hun :).trans hroom
    refine fyNext_of_onFy rfl ?_
    rw [Fyster.request_of_taken (f := s.fy.tick dt) hfor ok,
      Fyster.subscribe_of_sound hsession hnode hobj hms hmax hmode hroom', hnext]
  case unsubscribe =>
    intro s dt m h hfor ok hsession hown f₁
    have hun : f₁.unserved = (s.fy.tick dt).unserved := Fyster.unserved_tdpTake ok
    have hsubs : f₁.subs = s.fy.subs := (congrArg Fyster.subs hun :)
    refine fyNext_of_onFy rfl ?_
    exact (Fyster.request_of_taken (f := s.fy.tick dt) hfor ok).trans (Fyster.unsubscribe_of_own hsession (by rw [hsubs]; exact hown))
  case due =>
    intro s dt n x v hx hnode hlast hdue hv hcode hlen
    refine fyNext_of_onFy rfl ?_
    rw [Fyster.subscriptionCheck_of_due (f := s.fy.tick dt) hx hnode hlast hdue hv hcode hlen]
    refine ⟨rfl, ?_⟩
    obtain ⟨w, hw⟩ := Option.isSome_iff_exists.mp hlast
    refine (Fyster.shown_subValue v.2.1 v.2.2 (Fyster.find_subRead (f := s.fy.tick dt) hx) hw).trans ?_
    rw [hw]
    by_cases hsame : w = v.2.2
    · rw [if_neg (by rw [hsame, bne_self_eq_false]; exact Bool.false_ne_true), if_pos (congrArg some hsame)]
    · rw [if_pos (bne_iff_ne.mpr hsame), if_neg fun h => hsame (Option.some.inj h)]
  case early =>
    intro s dt n x hx hearly
    refine fyNext_of_onFy rfl ?_
    exact Fyster.subscriptionCheck_of_early (f := s.fy.tick dt) hx hearly

end Sys2Proof.Machine
end

section
/-! SUPPORT. Resets of Fyster, power failure and the flush into NOR (R383, R384, R390, R394, R398). -/

namespace Sys2Proof.Machine

/-! ### The event log and the flush that is under way (R376, R383) -/

theorem Fyster.evr_trimOpen (f : Fyster) (p h : Nat) : (f.trimOpen p h).part.evr = f.part.evr := by
  simp only [Fyster.trimOpen]
  split
  · rfl
  · split
    · split
      · rfl
      · split <;> rfl
    · rfl

theorem Fyster.evr_takeSegment (f : Fyster) (p d : Nat) : (f.takeSegment p d).part.evr = f.part.evr :=
  (foldl_keeps (fun f : Fyster => f.part.evr) _ (fun f h => Fyster.evr_trimOpen f p h) _ _).trans rfl

theorem Fyster.evr_writeEntry (f : Fyster) (p : Nat) (e : Entry) (n : EntryNote) : (f.writeEntry p e n).part.evr = f.part.evr := by
  have htake (c : Bool) : (if c = true then f else f.takeSegment p (f.partDie p)).part.evr = f.part.evr := by
    cases c
    · exact Fyster.evr_takeSegment f p _
    · rfl
  simp only [Fyster.writeEntry]
  split
  · exact htake _
  · exact Eq.trans rfl (htake _)

theorem Fyster.evr_own (f : Fyster) (r : Rec) : (f.own r).part.evr = f.part.evr := by
  simp only [Fyster.own, Fyster.writeRecords]
  split
  · rfl
  · exact (Fyster.evr_writeEntry _ _ _ _).trans rfl

theorem Recorder.flush_add (r : Recorder) (cap : Nat) (e : Event) (ts : Nat) (u : Bool) : (r.add cap e ts u).1.flush = r.flush := by
  unfold Recorder.add
  split <;> rfl

/-- An event leaves the flush that is under way. -/
theorem Fyster.flush_log (f : Fyster) (e : Event) : (f.log e).part.evr.flush = f.part.evr.flush := by
  have hmsix : (if Config.faultCode e.code = true then f.emit (.msix 67) else f).part.evr.flush = f.part.evr.flush := by split <;> rfl
  rw [← hmsix]
  simp only [Fyster.log]
  generalize (if Config.faultCode e.code = true then f.emit (.msix 67) else f) = g
  split
  · rw [Fyster.evr_own]
    rfl
  · rw [foldl_keeps (fun f : Fyster => f.part.evr) _ (fun f o => Fyster.evr_own f _)]
    split
    · exact Recorder.flush_add _ _ _ _ _
    · exact Recorder.flush_add _ _ _ _ _

theorem Fyster.erasedSlots_log (f : Fyster) (e : Event) : (f.log e).erasedSlots = f.erasedSlots :=
  (congrArg Fyster.erasedSlots (Fyster.bare_log (ks := []) f e) :)

/-- The flush that takes the slot `k`, with its cause. -/
theorem Fyster.flush_of_erased {f : Fyster} {k : Nat} {l : List Nat} (cause : Nat) (hnone : f.part.evr.flush = none)
    (hslot : f.erasedSlots = k :: l) :
    (f.flush cause).norSlot = some k ∧ (f.flush cause).part.evr.flush.map (·.cause) = some cause := by
  have hfree : ¬f.part.evr.flush.isSome = true := by
    rw [hnone]
    exact Bool.false_ne_true
  rw [Fyster.flush, if_neg hfree, hslot]
  exact ⟨rfl, rfl⟩

/-- Fyster without its recorder and the slot that a flush takes. -/
def Fyster.unflushed (f : Fyster) : Fyster := ({ f with norSlot := none } : Fyster).bareBut [objKey 0x6000 9]

theorem Fyster.unflushed_flush (f : Fyster) (cause : Nat) : (f.flush cause).unflushed = f.unflushed := by
  have hbump : (f.bump 0x6000 9 1).unflushed = f.unflushed := Fyster.bare_bump_hidden ({ f with norSlot := none } : Fyster) _ _ _ (by decide)
  have hlog (g : Fyster) (e : Event) : (g.log e).unflushed = g.unflushed :=
    (congrArg (fun g : Fyster => { g with norSlot := none }) (Fyster.bare_log (ks := [objKey 0x6000 9]) g e) :)
  simp only [Fyster.flush]
  split
  · exact hbump
  · split
    · exact (hlog _ _).trans hbump
    · exact hlog f _

/-! ### What a reset of Fyster leaves (R390, R394) -/

/-- Fyster without what the tail of a reset writes: pin holds, counts, recoveries, and the start state last reported. -/
def Fyster.begun (f : Fyster) : Fyster :=
  { f with
    holds := [], out := []
    boot := { f.boot with lastStart := 0 }
    part := { f.part with obj := [], recov := [] } }

theorem Fyster.begun_startCheck (f : Fyster) : f.startCheck.begun = f.begun := by
  simp only [Fyster.startCheck]
  split <;> rfl

theorem Fyster.begun_pin (f : Fyster) (tag cause : Nat) (l : List (Nat × Nat × Option Nat)) : (f.pin tag cause l).1.begun = f.begun := by
  simp only [Fyster.pin]
  split
  · rfl
  · split <;> rfl

theorem Fyster.begun_resetHold (f : Fyster) : f.resetHold.begun = f.begun := by
  unfold Fyster.resetHold
  dsimp only
  split
  · rfl
  · exact Fyster.begun_pin _ _ _ _

/-- R394: what a reset that a write ordered leaves of a reset's base: the images of the TUs and the recorder. -/
def Fyster.resetCold (f : Fyster) (kind : Nat) (a b : Bool) : Fyster :=
  { f.resetBase kind a b with images := f.images, part := { (f.resetBase kind a b).part with evr := f.part.evr.kept } }

/-- R394: what a warm reset or the watchdog leaves besides: the record ring, the ledger, the taint lists. -/
def Fyster.resetWarm (f : Fyster) (kind : Nat) (a b : Bool) : Fyster :=
  { f.resetCold kind a b with
    ring := f.ring.map fun (e : Nat × Partition) => (e.1, e.2.scanned)
    red := { Red.reset with ledger := f.red.ledger }
    taints := f.taints, taintCount := f.taintCount
    wmk := f.wmk.map fun (e : Nat × PortWmk) => (e.1, e.2.warm) }

theorem Fyster.begun_resetAs_pin (f : Fyster) {kind : Nat} (h : kind < 3) (a b : Bool) :
    (f.resetAs kind a b).begun = (f.resetBase kind a b).begun := by
  simp only [Fyster.resetAs]
  rw [if_neg (show ¬3 ≤ kind by omega), if_neg (show ¬4 ≤ kind by omega), if_neg (show ¬kind = 5 by omega)]
  exact Fyster.begun_startCheck _

theorem Fyster.begun_resetAs_cold (f : Fyster) (a b : Bool) : (f.resetAs 3 a b).begun = (f.resetCold 3 a b).begun := by
  have hreset : f.resetAs 3 a b = (f.resetCold 3 a b).startCheck := rfl
  rw [hreset, Fyster.begun_startCheck]

theorem Fyster.begun_resetAs_warm (f : Fyster) (a b : Bool) : (f.resetAs 4 a b).begun = (f.resetWarm 4 a b).begun := by
  have hreset : f.resetAs 4 a b = (f.resetWarm 4 a b).resetHold.startCheck := rfl
  rw [hreset, Fyster.begun_startCheck, Fyster.begun_resetHold]

/-- The part of Fyster that a watchdog reset's recovery leaves too. -/
def Fyster.restarted (f : Fyster) : Nat × Boot × Tab NorFlush := (f.resetEpoch, { f.boot with lastStart := 0 }, f.flushNor)

theorem Fyster.restarted_resetAs_watchdog (f : Fyster) (a b : Bool) : (f.resetAs 5 a b).restarted = (f.resetWarm 5 a b).restarted := by
  have hbegun {g h : Fyster} (heq : g.begun = h.begun) : g.restarted = h.restarted := (congrArg Fyster.restarted heq :)
  have hrecov (g : Fyster) : (g.recovStart 3).restarted = g.restarted := (congrArg Fyster.restarted (Fyster.bareRecov_recovStart g 3) :)
  have hreset : f.resetAs 5 a b = ((f.resetWarm 5 a b).resetHold.recovStart 3).startCheck := rfl
  rw [hreset]
  exact (hbegun (Fyster.begun_startCheck _)).trans ((hrecov _).trans (hbegun (Fyster.begun_resetHold _)))

/-- A reset request is answered, and the reset follows. -/
theorem Fyster.resetRequest_of_level {f : Fyster} {lvl : Level} {v : Nat} (a b : Bool) (hlvl : 2 ≤ Level.rank lvl) (hv : v = 1 ∨ v = 2) :
    f.resetRequest lvl v a b =
      (({ f with boot := { f.boot with imgA := a, imgB := b }, resetAfter := some (if v = 2 then 3 else 4) } : Fyster).emit
        (.answer 0)).resetAs (if v = 2 then 3 else 4) a b := by
  have hkind : (if v = 2 then 3 else 4 : Nat) = 3 ∨ (if v = 2 then 3 else 4 : Nat) = 4 := by split <;> simp
  simp only [Fyster.resetRequest, Fyster.wrResetRequest, if_pos hv]
  rw [if_neg (Nat.not_lt.mpr hlvl), Fyster.reply, if_neg (Nat.not_lt.mpr hlvl), if_pos rfl]
  exact if_pos hkind

/-! ### Training of the links after a start (R390) -/

theorem Fyster.link_train (f : Fyster) (n : Nat) :
    ∀ p < n, (((List.range n).foldl (fun f p => f.setLink p { f.link p with st := .training }) f).link p).st = .training := by
  induction n with
  | zero => exact fun p hp => absurd hp (Nat.not_lt_zero p)
  | succ n ih =>
    intro p hp
    rw [List.range_succ, List.foldl_append]
    by_cases hn : p = n
    · rw [hn]
      exact congrArg Link.st (Fyster.link_setLink_self _ _ _)
    · exact (congrArg Link.st (tget_tset_other _ _ _ (by omega))).trans (ih p (by omega))

/-- Settles O51: resets of Fyster. -/
theorem fysterResets : Obligations.FysterResets := by
  unfold Obligations.FysterResets
  refine ⟨?pin, ?powerOn, ?powerLoss, ?cold, ?warm, ?watchdog, ?hbm⟩
  case pin =>
    intro s dt a b
    refine fyNext_of_onFy rfl ?_
    have hreset := Fyster.begun_resetAs_pin (s.fy.tick dt) (show 2 < 3 by decide) a b
    exact ⟨rfl, (congrArg Fyster.resetEpoch hreset :), (congrArg (·.boot.kind) hreset :), (congrArg (·.boot.running) hreset :),
      (congrArg (·.boot.image) hreset :), (congrArg Fyster.sessions hreset :), (congrArg Fyster.xfers hreset :),
      (congrArg Fyster.subs hreset :), (congrArg Fyster.flushNor hreset :), (congrArg Fyster.calNor hreset :)⟩
  case powerOn =>
    intro s dt a b
    refine fyNext_of_onFy rfl ?_
    have hreset := Fyster.begun_resetAs_pin (s.fy.tick dt).powerLost (show 1 < 3 by decide) a b
    exact ⟨rfl, (congrArg Fyster.resetEpoch hreset :), (congrArg (·.boot.kind) hreset :), (congrArg (·.boot.running) hreset :),
      (congrArg Fyster.flushNor hreset :), (congrArg Fyster.calNor hreset :), (congrArg Fyster.sessions hreset :)⟩
  case powerLoss =>
    intro s dt
    refine fyNext_of_onFy rfl ?_
    exact ⟨rfl, rfl, rfl, rfl, rfl, rfl, rfl⟩
  case cold =>
    intro s dt lvl a b hlvl f₀
    refine fyNext_of_onFy rfl ?_
    rw [Fyster.resetRequest_of_level a b hlvl (.inr rfl)]
    have hreset := Fyster.begun_resetAs_cold
      (({ f₀ with boot := { f₀.boot with imgA := a, imgB := b }, resetAfter := some 3 } : Fyster).emit (.answer 0)) a b
    exact ⟨rfl, (congrArg Fyster.resetEpoch hreset :), (congrArg (·.boot.kind) hreset :), (congrArg Fyster.ring hreset :)⟩
  case warm =>
    intro s dt lvl a b hlvl f₀
    refine fyNext_of_onFy rfl ?_
    rw [Fyster.resetRequest_of_level a b hlvl (.inl rfl)]
    have hreset := Fyster.begun_resetAs_warm
      (({ f₀ with boot := { f₀.boot with imgA := a, imgB := b }, resetAfter := some 4 } : Fyster).emit (.answer 0)) a b
    exact ⟨rfl, (congrArg Fyster.resetEpoch hreset :), (congrArg (·.boot.kind) hreset :), (congrArg Fyster.taints hreset :),
      (congrArg (·.red.ledger) hreset :)⟩
  case watchdog =>
    intro s dt a b k l hrun hnone hslot
    refine fyNext_of_onFy rfl ?_
    obtain ⟨hnor, hcause⟩ := Fyster.flush_of_erased (f := s.fy.tick dt) 4 hnone hslot
    have hkeep := Fyster.unflushed_flush (s.fy.tick dt) 4
    have hgo : ¬(!(s.fy.tick dt).boot.running) = true := by
      rw [show (s.fy.tick dt).boot.running = true from hrun]
      decide
    rw [Fyster.watchdog, if_neg hgo]
    dsimp only
    rw [if_pos (by rw [hnor]; rfl)]
    exact ⟨hnor, rfl, rfl, rfl, hcause, (congrArg Fyster.resetEpoch hkeep :), (congrArg Fyster.links hkeep :)⟩
  case hbm =>
    intro s dt hrun hhbm
    refine fyNext_of_onFy rfl ?_
    have hgo : ((s.fy.tick dt).boot.running && !(s.fy.tick dt).boot.hbm) = true := by
      rw [show (s.fy.tick dt).boot.running = true from hrun, show (s.fy.tick dt).boot.hbm = false from hhbm]
      rfl
    rw [if_pos hgo]
    dsimp only
    generalize hg : ({ s.fy.tick dt with boot := { (s.fy.tick dt).boot with hbm := true } } : Fyster) = g
    have hlinks := Fyster.link_train g 32
    have hkeep := foldl_keeps (fun f : Fyster => (f.boot, f.red)) (fun f p => f.setLink p { f.link p with st := .training })
      (fun _ _ => rfl) (List.range 32) g
    generalize (List.range 32).foldl (fun (f : Fyster) p => f.setLink p { f.link p with st := .training }) g = u at hlinks hkeep ⊢
    have hdone : (u.recovDone 3).startCheck.begun = u.begun :=
      (Fyster.begun_startCheck _).trans (by simp only [Fyster.recovDone]; split <;> rfl)
    have hboot : u.boot.hbm = true := (congrArg (fun x => x.1.hbm) hkeep :).trans (by rw [← hg])
    have hred : u.red = s.fy.red := (congrArg Prod.snd hkeep :).trans (by rw [← hg]; rfl)
    exact ⟨(congrArg (·.boot.hbm) hdone :).trans hboot,
      fun p hp => (congrArg (fun f : Fyster => (f.link p).st) hdone :).trans (hlinks p hp), (congrArg Fyster.red hdone :).trans hred⟩

/-! ### Power failure (R383, R384, R398) -/

/-- What a power failure must not lose on its way to the end: the boot state, the slot, and the recorder. -/
def Fyster.failing (f : Fyster) : Boot × Option Nat × Recorder := (f.boot, f.norSlot, f.part.evr)

theorem Fyster.failing_pfailTo (f : Fyster) (p : Nat) : (f.pfailTo p).failing = f.failing := by
  simp only [Fyster.pfailTo]
  split
  · simp only [Fyster.sendTu, Fyster.sendStamped]
    split <;> rfl
  · rfl

theorem Fyster.failing_pwr (f : Fyster) (id : Nat) (o : PwrOut) : (f.pwr id o).failing = f.failing :=
  (congrArg Fyster.failing (Fyster.around_pwr f id o) :)

theorem Fyster.failing_dumpEnd (f : Fyster) (ch state : Nat) : (f.dumpEnd ch state).failing = f.failing :=
  (Fyster.failing_pwr _ _ _).trans rfl

theorem Fyster.failing_batchEnd (f : Fyster) (state : Nat) : (f.batchEnd state).failing = f.failing :=
  (Fyster.failing_pwr _ _ _).trans rfl

/-- The stores into NOR that are under way. -/
def Fyster.stores (f : Fyster) : NorStore × NorStore := (f.calNor, f.objNor)

theorem Fyster.stores_pfailTo (f : Fyster) (p : Nat) : (f.pfailTo p).stores = f.stores := by
  simp only [Fyster.pfailTo]
  split
  · simp only [Fyster.sendTu, Fyster.sendStamped]
    split <;> rfl
  · rfl

theorem Fyster.stores_dumpEnd (f : Fyster) (ch state : Nat) : (f.dumpEnd ch state).stores = f.stores :=
  (congrArg Fyster.stores (Fyster.around_pwr _ _ _) :)

theorem Fyster.stores_batchEnd (f : Fyster) (state : Nat) : (f.batchEnd state).stores = f.stores :=
  (congrArg Fyster.stores (Fyster.around_pwr _ _ _) :)

/-- R398: what a power failure ends: dumps, and a batch run. -/
def Fyster.pfailStops (f : Fyster) : Fyster :=
  let f := (List.range 32).foldl Fyster.pfailTo f
  let f := (List.range 4).foldl (fun f ch => if (f.dump ch).state = 1 ∨ (f.dump ch).state = 2 then f.dumpEnd ch 4 else f) f
  if f.jun.batch.state = 1 ∨ f.jun.batch.state = 2 then f.batchEnd 4 else f

/-- What every part of the end of running operations keeps, their end keeps. -/
theorem Fyster.keeps_pfailStops {γ : Type} (F : Fyster → γ) (hto : ∀ f p, F (f.pfailTo p) = F f)
    (hdump : ∀ f ch n, F (f.dumpEnd ch n) = F f) (hbatch : ∀ f n, F (f.batchEnd n) = F f) (f : Fyster) :
    F f.pfailStops = F f := by
  have hsent := foldl_keeps F Fyster.pfailTo hto (List.range 32) f
  have hdumps (g : Fyster) : F ((List.range 4).foldl
      (fun f ch => if (f.dump ch).state = 1 ∨ (f.dump ch).state = 2 then f.dumpEnd ch 4 else f) g) = F g :=
    foldl_keeps F _ (fun f ch => by
      split
      · exact hdump f ch 4
      · rfl) _ g
  simp only [Fyster.pfailStops]
  split
  · exact (hbatch _ _).trans ((hdumps _).trans hsent)
  · exact (hdumps _).trans hsent

theorem Fyster.pfail_of_running {f : Fyster} (hrun : f.boot.running = true) (hnot : f.boot.pfail = false) :
    ∃ g : Fyster, g = ((({ f with boot := { f.boot with pfail := true } } : Fyster).log (event 0x0003 512 0 0)).flush 1).pfailStops ∧
      f.pfail = ({ g with calNor := g.calNor.abandon, objNor := g.objNor.abandon } : Fyster).emit (.msix 66) := by
  have hgo : ¬(!f.boot.running || f.boot.pfail) = true := by
    rw [hrun, hnot]
    decide
  refine ⟨_, rfl, ?_⟩
  rw [Fyster.pfail, if_neg hgo]
  simp only [Fyster.pfailStops]

/-- The flush that has been written stands in its slot. -/
theorem Fyster.norWritten_of_slot {f : Fyster} {k : Nat} {x : Flush} (hslot : f.norSlot = some k) (hflush : f.part.evr.flush = some x) :
    (tfind f.norWritten.flushNor k).map (fun n => (n.cause, n.serial, n.own)) = some (x.cause, f.nextFlush, f.part.evr.log) ∧
    f.norWritten.norSlot = none ∧ f.norWritten.part.evr.flush = none ∧
    f.norWritten.rd 0x6000 8 = raised 0x6000 8 (f.rd 0x6000 8) 1 ∧
    (f.norWritten.links, f.norWritten.resetAfter, f.norWritten.resetEpoch, f.norWritten.boot) =
      (f.links, f.resetAfter, f.resetEpoch, f.boot) := by
  simp only [Fyster.norWritten, hslot, hflush]
  refine ⟨?slot, rfl, rfl, Part.rd_wr_self _ _ _ _, rfl⟩
  rw [Fyster.bump_flushNor]
  simp only [tfind_tset, if_true, Option.map_some]

/-- Settles O52: power failure and the flush into NOR. -/
theorem powerFailure : Obligations.PowerFailure := by
  unfold Obligations.PowerFailure
  refine ⟨?recognised, ?glitch, ?released, ?written, ?watchdog⟩
  case recognised =>
    intro s dt k l hrun hnot hnone hslot
    refine fyNext_of_onFy rfl ?_
    obtain ⟨g, hg, hpfail⟩ := Fyster.pfail_of_running (f := s.fy.tick dt) hrun hnot
    rw [hpfail]
    generalize hu : (({ s.fy.tick dt with boot := { (s.fy.tick dt).boot with pfail := true } } : Fyster).log (event 0x0003 512 0 0)) = u at hg
    have hlog : u.bareBut [] = ({ s.fy.tick dt with boot := { (s.fy.tick dt).boot with pfail := true } } : Fyster).bareBut [] := by
      rw [← hu, Fyster.bare_log]
    have hunflushed : u.part.evr.flush = none := by
      rw [← hu, Fyster.flush_log]
      exact hnone
    have hslots : u.erasedSlots = k :: l := by
      rw [← hu, Fyster.erasedSlots_log]
      exact hslot
    obtain ⟨hnor, hcause⟩ := Fyster.flush_of_erased 1 hunflushed hslots
    have hflushed := Fyster.unflushed_flush u 1
    have hfail : g.failing = (u.flush 1).failing := by
      rw [hg]
      exact Fyster.keeps_pfailStops Fyster.failing Fyster.failing_pfailTo Fyster.failing_dumpEnd Fyster.failing_batchEnd _
    have hstores : g.stores = (s.fy.calNor, s.fy.objNor) := by
      rw [hg, Fyster.keeps_pfailStops Fyster.stores Fyster.stores_pfailTo Fyster.stores_dumpEnd Fyster.stores_batchEnd]
      exact (congrArg Fyster.stores hflushed :).trans (congrArg Fyster.stores hlog :)
    have hpf : (u.flush 1).boot.pfail = true := (congrArg (·.boot.pfail) hflushed :).trans (congrArg (·.boot.pfail) hlog :)
    exact ⟨(congrArg (fun x => x.1.pfail) hfail :).trans hpf, (congrArg (fun x => x.2.1) hfail :).trans hnor,
      (congrArg (fun x => x.2.2.flush.map (·.cause)) hfail :).trans hcause, congrArg (fun x => x.1.abandon) hstores,
      congrArg (fun x => x.2.abandon) hstores, rfl⟩
  case glitch =>
    intro s dt
    exact fyNext_of_onFy rfl rfl
  case released =>
    intro s dt
    refine fyNext_of_onFy rfl ?_
    cases hflush : s.fy.part.evr.flush with
    | none =>
      have hfree : (s.fy.tick dt).part.evr.flush.isNone = true := by
        rw [show (s.fy.tick dt).part.evr.flush = none from hflush]
        rfl
      rw [Fyster.pfailOver, if_pos hfree]
      exact ⟨rfl, rfl, rfl⟩
    | some x =>
      have hheld : ¬(s.fy.tick dt).part.evr.flush.isNone = true := by
        rw [show (s.fy.tick dt).part.evr.flush = some x from hflush]
        exact Bool.false_ne_true
      rw [Fyster.pfailOver, if_neg hheld]
      exact ⟨rfl, rfl, rfl⟩
  case written =>
    intro s dt k x hslot hflush hreset
    refine fyNext_of_onFy rfl ?_
    obtain ⟨hentry, hnor, hdone, hcount, hkeep⟩ := Fyster.norWritten_of_slot (f := s.fy.tick dt) hslot hflush
    have hkept : (s.fy.tick dt).norWritten.resetAfter = none := (congrArg (fun x => x.2.1) hkeep :).trans hreset
    have hstay : ¬((s.fy.tick dt).norWritten.resetAfter = some 5 ∧ (s.fy.tick dt).norWritten.norSlot = none) := by
      rw [hkept]
      rintro ⟨h, -⟩
      cases h
    dsimp only
    rw [if_neg hstay]
    exact ⟨hentry, hnor, hdone, hcount, (congrArg Prod.fst hkeep :)⟩
  case watchdog =>
    intro s dt k x hslot hflush hreset
    refine fyNext_of_onFy rfl ?_
    obtain ⟨hentry, hnor, -, -, hkeep⟩ := Fyster.norWritten_of_slot (f := s.fy.tick dt) hslot hflush
    have hgo : (s.fy.tick dt).norWritten.resetAfter = some 5 ∧ (s.fy.tick dt).norWritten.norSlot = none :=
      ⟨(congrArg (fun x => x.2.1) hkeep :).trans hreset, hnor⟩
    dsimp only
    rw [if_pos hgo]
    generalize (s.fy.tick dt).norWritten = u at hentry hkeep ⊢
    have hwarm := Fyster.restarted_resetAs_watchdog u u.boot.imgA u.boot.imgB
    have hboot : u.boot = s.fy.boot := (congrArg (fun x => x.2.2.2) hkeep :)
    have hepoch : u.resetEpoch = s.fy.resetEpoch := (congrArg (fun x => x.2.2.1) hkeep :)
    have hcause : (tfind u.flushNor k).map (·.cause) = some x.cause := by
      have hfirst := congrArg (Option.map Prod.fst) hentry
      rw [Option.map_map] at hfirst
      exact hfirst
    refine ⟨(congrArg Prod.fst hwarm :).trans (congrArg (· + 1) hepoch :), (congrArg (fun x => x.2.1.kind) hwarm :),
      (congrArg (fun x => x.2.1.running) hwarm :).trans ?_, ?_⟩
    · rw [← hboot]
      rfl
    · exact (congrArg (fun x => (tfind x.2.2 k).map (·.cause)) hwarm :).trans hcause

end Sys2Proof.Machine
end

section
/-! SUPPORT. Resets of a TU and of its die (R382, R395, R396), and the tray power port (R388, R424). -/

namespace Sys2Proof.Machine

/-! ### The recorder of a TU (R376, R382) -/

theorem Tu.evr_charge (t : Tu) (a cost : Nat) (fits : Bool) : (t.charge a cost fits).1.part.evr = t.part.evr := by
  have hfull (u : Tu) : (u.markFull a).part.evr = u.part.evr := by
    simp only [Tu.markFull]
    split <;> split <;> rfl
  simp only [Tu.charge]
  split
  · rfl
  · split
    · rw [hfull]
      split <;> rfl
    · split
      · exact hfull t
      · split
        · rfl
        · split <;> rfl

theorem Tu.evr_admitAll (t : Tu) (rs : List Rec) : (t.admitAll rs).1.part.evr = t.part.evr := by
  induction rs generalizing t with
  | nil => rfl
  | cons r rest ih =>
    simp only [Tu.admitAll]
    rw [ih]
    rfl

theorem Tu.evr_offerRaw (t : Tu) (a req cost : Nat) (rs : List Rec) : (t.offerRaw a req cost rs).1.part.evr = t.part.evr := by
  simp only [Tu.offerRaw]
  split
  · exact (Tu.evr_admitAll _ _).trans (Tu.evr_charge _ _ _ _)
  · exact Tu.evr_charge _ _ _ _

theorem Tu.evr_internal (t : Tu) (src n : Nat) : (t.internal src n).part.evr = t.part.evr := by
  have hput (u : Tu) (c : Nat) (x : Cnt) : (u.putCnt c x).part.evr = u.part.evr := by
    simp only [Tu.putCnt]
    split
    · exact Tu.evr_offerRaw _ _ _ _ _
    · rfl
  simp only [Tu.internal]
  split
  · rfl
  · exact foldl_keeps (fun u : Tu => u.part.evr) _ (fun u (e : Nat × Cnt) => hput u e.1 _) _ t

theorem Tu.evr_offer (t : Tu) (a req cost : Nat) (rs : List Rec) : (t.offer a req cost rs).1.part.evr = t.part.evr := by
  simp only [Tu.offer]
  split
  · rw [Tu.evr_internal, Tu.evr_offerRaw]
  · rw [Tu.evr_internal, Tu.evr_internal, Tu.evr_offerRaw]

/-- An event leaves the flush that is under way. -/
theorem Tu.flush_log (t : Tu) (e : Event) : (t.log e).part.evr.flush = t.part.evr.flush := by
  simp only [Tu.log]
  rw [foldl_keeps (fun u : Tu => u.part.evr) _ (fun u o => Tu.evr_offer u 5 2 20000 _)]
  split
  · exact Recorder.flush_add _ _ _ _ _
  · exact Recorder.flush_add _ _ _ _ _

/-- R382: a flush of a log that holds records. -/
theorem Tu.flush_of_records {t : Tu} (cause : Nat) (hnone : t.part.evr.flush = none) (hlog : t.part.evr.log ≠ []) :
    (t.flush cause).part.evr.flush.map (fun x => (x.cause, x.records)) = some (cause, t.part.evr.log) ∧
    ((t.flush cause).lastReset, (t.flush cause).link) = (t.lastReset, t.link) := by
  have hparts : ¬ceilDiv t.part.evr.log.length flushPart = 0 := by
    have hlen := List.length_pos_iff.mpr hlog
    simp only [ceilDiv, flushPart]
    omega
  simp only [Tu.flush, hnone, if_neg hparts]
  refine ⟨?flush, ?rest⟩
  case flush =>
    rw [Tu.flush_log]
    rfl
  case rest =>
    exact (congrArg (fun u : Tu => (u.lastReset, u.link)) (Tu.bare_log (ks := []) _ _) :)

/-- R382: the record of a part of a flush. -/
def Tu.flushRec (t : Tu) (x : Flush) (i : Nat) : Rec :=
  { t.mkRec 0x0A selfStream 224 0xFF t.ns (flushPay x t.part.evr.flushSerial i) with ts64 := x.at64 }

/-- R382: a TU whose flush has these parts left; with none the flush is done. -/
def Tu.flushLeft (t : Tu) (x : Flush) (rest : List (Nat × Nat)) : Tu :=
  let t := { t with part := { t.part with evr := { t.part.evr with
    flush := if rest.isEmpty then none else some { x with parts := rest } } } }
  if rest.isEmpty then t.bump 0x6000 8 1 else t

theorem Tu.flushLeft_of_parts (t : Tu) (x : Flush) {rest : List (Nat × Nat)} (h : rest ≠ []) :
    t.flushLeft x rest = { t with part := { t.part with evr := { t.part.evr with flush := some { x with parts := rest } } } } := by
  simp only [Tu.flushLeft, List.isEmpty_eq_false_iff.mpr h, Bool.false_eq_true, if_false]

section
variable {t : Tu} {x : Flush} {i k : Nat}

theorem Tu.flushStep_of_part {l : List (Nat × Nat)} (hflush : t.part.evr.flush = some x) (hparts : x.parts = (i, k) :: l) :
    t.flushStep =
      (t.offer 5 2 20000 [t.flushRec x i]).1.flushLeft x
        (if (!(t.offer 5 2 20000 [t.flushRec x i]).2 && decide (k < 2)) = true then l ++ [(i, k + 1)] else l) := by
  simp only [Tu.flushStep, hflush, hparts]
  rfl

/-- A part that is not admitted comes again after the others, or is given up. -/
theorem Tu.flushStep_of_refused {l : List (Nat × Nat)} (hflush : t.part.evr.flush = some x) (hparts : x.parts = (i, k) :: l)
    (hleft : k < 2 ∨ l ≠ []) (hno : (t.offer 5 2 20000 [t.flushRec x i]).2 = false) :
    t.flushStep.part.evr.flush = some { x with parts := if k < 2 then l ++ [(i, k + 1)] else l } ∧ t.flushStep.link = t.link := by
  have hbare := Tu.bare_offer (ks := []) t 5 2 20000 [t.flushRec x i] (by decide)
  have hlink : (t.offer 5 2 20000 [t.flushRec x i]).1.link = t.link := (congrArg Tu.link hbare :)
  have hrest : (if k < 2 then l ++ [(i, k + 1)] else l) ≠ [] := by
    split
    next => exact List.append_ne_nil_of_right_ne_nil l (List.cons_ne_nil _ _)
    next hk => exact hleft.resolve_left hk
  have hcond : (!false && decide (k < 2)) = decide (k < 2) := Bool.true_and _
  rw [Tu.flushStep_of_part hflush hparts, hno]
  simp only [hcond, decide_eq_true_eq]
  rw [Tu.flushLeft_of_parts _ _ hrest]
  exact ⟨rfl, hlink⟩

theorem Tu.flushStep_of_last (hflush : t.part.evr.flush = some x) (hparts : x.parts = [(i, k)])
    (hyes : (t.offer 5 2 20000 [t.flushRec x i]).2 = true) :
    t.flushStep.part.evr.flush = none ∧ t.flushStep.faultReset = t.faultReset := by
  have hbare := Tu.bare_offer (ks := []) t 5 2 20000 [t.flushRec x i] (by decide)
  rw [Tu.flushStep_of_part hflush hparts, hyes]
  exact ⟨rfl, (congrArg Tu.faultReset hbare :)⟩

end

/-! ### The reset of a die (R396) -/

/-- A TU without its slots, and its reports and count of phase records. -/
def Tu.emptied (t : Tu) : Tu := ({ t with slots := [] } : Tu).bareBut [objKey 0x2600 8]

theorem Tu.emptied_closeSlot (t : Tu) (k : Nat) (x : PhSlot) (abandoned : Bool) : (t.closeSlot k x abandoned).emptied = t.emptied :=
  congrArg (fun v : Tu => { v with slots := [] }) (Tu.bare_closeSlot t k x abandoned)

theorem Tu.emptied_abandonSlots (t : Tu) : t.abandonSlots.emptied = t.emptied :=
  foldl_keeps Tu.emptied (fun u (e : Nat × PhSlot) => u.closeSlot e.1 e.2 true) (fun u e => Tu.emptied_closeSlot u e.1 e.2 true)
    t.openSlots t

theorem Tu.slots_closeSlot (t : Tu) (k : Nat) (x : PhSlot) (abandoned : Bool) :
    (t.closeSlot k x abandoned).slots = tset t.slots k none := (congrArg Tu.slots (Tu.bare_closeSlot t k x abandoned) :)

/-- A slot is free once it has been closed, and if it was free. -/
theorem Tu.slot_closeSlots {k : Nat} (l : List (Nat × PhSlot)) :
    ∀ t : Tu, t.slot k = none ∨ k ∈ l.map Prod.fst → (l.foldl (fun t e => t.closeSlot e.1 e.2 true) t).slot k = none := by
  induction l with
  | nil => exact fun t h => h.resolve_right List.not_mem_nil
  | cons e l ih =>
    intro t h
    refine ih _ ?_
    by_cases hk : k = e.1
    · exact .inl (by rw [Tu.slot, Tu.slots_closeSlot, hk, tget_tset_self])
    · rcases h with hfree | hmem
      · exact .inl (by rw [Tu.slot, Tu.slots_closeSlot, tget_tset_other _ _ _ hk]; exact hfree)
      · exact .inr ((List.mem_cons.mp hmem).resolve_left hk)

theorem mem_of_tget {α : Type} {k : Nat} {d v : α} : ∀ {l : Tab α}, tget l k d = v → v ≠ d → (k, v) ∈ l
  | [], h, hne => absurd h.symm hne
  | (a, b) :: r, h, hne => by
    by_cases ha : a = k
    · rw [tget, if_pos ha] at h
      rw [ha, h]
      exact List.mem_cons_self
    · rw [tget, if_neg ha] at h
      exact List.mem_cons_of_mem _ (mem_of_tget h hne)

theorem Tu.mem_openSlots {t : Tu} {k : Nat} {x : PhSlot} (h : t.slot k = some x) : k ∈ t.openSlots.map Prod.fst :=
  List.mem_map.mpr ⟨(k, x), List.mem_filterMap.mpr ⟨(k, some x), mem_of_tget h (Option.some_ne_none x), rfl⟩, rfl⟩

theorem Tu.slot_abandonSlots (t : Tu) (k : Nat) : t.abandonSlots.slot k = none := by
  refine Tu.slot_closeSlots t.openSlots t ?_
  cases h : t.slot k with
  | none => exact .inl rfl
  | some x => exact .inr (Tu.mem_openSlots h)

/-- A TU without the descriptors of its units and its reports. -/
def Tu.idled (t : Tu) : Tu := ({ t with units := [] } : Tu).bareBut []

theorem Tu.idled_offerDescEnd (t : Tu) (u : Nat) : (t.offerDescEnd u).idled = t.idled := by
  have hoffer (x : Tu) (rs : List Rec) (cost : Nat) : (x.offer 1 3 cost rs).1.idled = x.idled :=
    (congrArg (fun v : Tu => { v with units := [] }) (Tu.bare_offer (ks := []) x 1 3 cost rs (by decide)) :)
  simp only [Tu.offerDescEnd]
  split
  · rfl
  · split
    · refine Eq.trans (foldl_keeps Tu.idled _ (fun x c => ?_) (unitCounters u) _) (hoffer _ _ _)
      split <;> rfl
    · exact hoffer _ _ _

/-- A launch leaves a unit, which reports its descriptors. -/
def Tu.unitLeft (t : Tu) (l u : Nat) : Tu :=
  (t.setUnit u { t.unit u with launches := (t.unit u).launches.filter (· != l) }).offerDescEnd u

theorem Tu.idled_unitLeft (l : Nat) (t : Tu) (u : Nat) : (t.unitLeft l u).idled = t.idled :=
  Tu.idled_offerDescEnd (t.setUnit u { t.unit u with launches := (t.unit u).launches.filter (· != l) }) u

/-- A TU without units, bindings, name tables and reports. -/
def Tu.unlaunched (t : Tu) : Tu := ({ t with units := [], binds := [], names := [] } : Tu).bareBut []

theorem Tu.retireVersion_spec (t : Tu) (g ver : Nat) :
    (t.retireVersion g ver).binds = t.binds ∧ (t.retireVersion g ver).unlaunched = t.unlaunched := by
  simp only [Tu.retireVersion]
  split
  · split
    · exact ⟨rfl, rfl⟩
    · have hlog (x : Tu) (e : Event) : (x.log e).binds = x.binds ∧ (x.log e).unlaunched = x.unlaunched :=
        ⟨(congrArg Tu.binds (Tu.bare_log (ks := []) x e) :), (congrArg (fun x : Tu => { x with units := [], binds := [], names := [] }) (Tu.bare_log (ks := []) x e) :)⟩
      exact hlog _ _
  · exact ⟨rfl, rfl⟩

/-- The end of a launch unbinds it and touches units, name tables and reports besides. -/
theorem Tu.launchEnd_spec (t : Tu) (l : Nat) :
    (t.launchEnd l).binds = (t.binds.filter fun x => x.launch != l) ∧ (t.launchEnd l).unlaunched = t.unlaunched := by
  have hidled := foldl_keeps Tu.idled (fun t u => t.unitLeft l u) (Tu.idled_unitLeft l)
    ((t.units.filter fun u => u.2.launches.contains l).map (·.1)) t
  simp only [Tu.unitLeft] at hidled
  simp only [Tu.launchEnd]
  generalize (List.foldl (fun t u =>
    (t.setUnit u { t.unit u with launches := (t.unit u).launches.filter (· != l) }).offerDescEnd u) t
      ((t.units.filter fun u => u.2.launches.contains l).map (·.1)) : Tu) = u at hidled ⊢
  have hbinds : u.binds = t.binds := (congrArg Tu.binds hidled :)
  have hframe : u.unlaunched = t.unlaunched := (congrArg (fun x : Tu => { x with binds := [], names := [] }) hidled :)
  split
  next b _ =>
    obtain ⟨hkept, hret⟩ := Tu.retireVersion_spec ({ u with binds := u.binds.filter fun x => x.launch != l } : Tu) b.graph b.ver
    rw [hkept, hret, ← hbinds]
    exact ⟨rfl, hframe⟩
  next hnone =>
    refine ⟨?_, hframe⟩
    rw [← hbinds]
    exact (List.filter_eq_self.mpr fun b hb => bne_iff_ne.mpr fun heq =>
      List.find?_eq_none.mp hnone b hb (beq_iff_eq.mpr heq)).symm

theorem Tu.binds_launchEnds (l : List Nat) :
    ∀ t : Tu, ∀ b ∈ (l.foldl Tu.launchEnd t).binds, b ∈ t.binds ∧ b.launch ∉ l := by
  induction l with
  | nil => exact fun t b hb => ⟨hb, List.not_mem_nil⟩
  | cons n l ih =>
    intro t b hb
    obtain ⟨hold, hnot⟩ := ih (t.launchEnd n) b hb
    rw [(Tu.launchEnd_spec t n).1, List.mem_filter] at hold
    exact ⟨hold.1, fun h => (List.mem_cons.mp h).elim (bne_iff_ne.mp hold.2) hnot⟩

theorem Tu.resets_traceDown (t : Tu) (i state : Nat) (abrupt : Bool) : (t.traceDown i state abrupt).rd 0x2E00 3 = t.rd 0x2E00 3 := by
  have hform {u v : Tu} (h : u.traceForm = v.traceForm) : u.rd 0x2E00 3 = v.rd 0x2E00 3 := congrArg (·.2.2.2) h
  have hset (u : Tu) (e : Enc) : (u.setEnc i e).rd 0x2E00 3 = u.rd 0x2E00 3 := rfl
  have hkept := hform ((Tu.traceForm_traceDue (t.traceBranch i t.ns) i t.ns).trans (t.traceForm_traceBranch i t.ns))
  have hput (u : Tu) (build : Enc → List Byte) := hform (Tu.traceForm_tracePut u i t.ns build)
  have hclose (u : Tu) := hform (Tu.traceForm_traceClose u i)
  simp only [Tu.traceDown]
  split
  · exact hset _ _
  · split
    · simp only [hset, hkept]
    · simp only [hset, hclose, hput, hkept]

/-- Settles O53: resets of a TU and of its die. -/
theorem tuResets : Obligations.TuResets := by
  unfold Obligations.TuResets
  refine ⟨?powerOn, ?resetIn, ?request, ?below, ?down, ?fault, ?part, ?last, ?die⟩
  case powerOn =>
    intro s dt p
    exact tuNext_of_onTu rfl rfl
  case resetIn =>
    intro s dt p
    exact tuNext_of_onTu rfl rfl
  case request =>
    intro s dt p lvl hlvl
    refine ⟨_, congrArg Host.Outcome.next (if_pos ⟨hlvl, rfl⟩), State.tu_setTu_self _ _ _, ?_, rfl, fun q hq => State.tu_setTu_other _ _ hq⟩
    rw [State.tu_setTu_self]
    rfl
  case below =>
    intro s dt p lvl hlvl
    exact ⟨_, congrArg Host.Outcome.next (if_neg fun h => Nat.not_le.mpr hlvl h.1), Tu.reply_below hlvl⟩
  case down =>
    intro s dt p hlink
    refine tuNext_of_onTu rfl ?_
    have hfault : ((s.tu p).tick dt).internalFault = ((s.tu p).tick dt).resetAs 4 := if_neg hlink
    exact ⟨hfault, by rw [hfault]; rfl⟩
  case fault =>
    intro s dt p hlink hnone hlog
    refine tuNext_of_onTu rfl ?_
    obtain ⟨hflush, hkeep⟩ := Tu.flush_of_records (t := (s.tu p).tick dt) 4 hnone hlog
    have hfault : ((s.tu p).tick dt).internalFault = { ((s.tu p).tick dt).flush 4 with faultReset := true } := by
      rw [Tu.internalFault, if_pos (show ((s.tu p).tick dt).link.st = .up from hlink)]
      refine if_pos ?_
      cases hsome : (((s.tu p).tick dt).flush 4).part.evr.flush with
      | none =>
        rw [hsome] at hflush
        cases hflush
      | some x => rfl
    rw [hfault]
    exact ⟨rfl, hflush, (congrArg Prod.fst hkeep :), (congrArg Prod.snd hkeep :)⟩
  case part =>
    intro s dt p x i k l hflush hparts hleft hno
    refine tuNext_of_onTu rfl ?_
    obtain ⟨hnext, hlink⟩ := Tu.flushStep_of_refused (t := (s.tu p).tick dt) hflush hparts hleft hno
    have hstay : ¬(((s.tu p).tick dt).flushStep.faultReset && ((s.tu p).tick dt).flushStep.part.evr.flush.isNone) = true := by
      rw [hnext, Option.isNone_some, Bool.and_false]
      exact Bool.false_ne_true
    dsimp only
    rw [if_neg hstay]
    exact ⟨hnext, hlink⟩
  case last =>
    intro s dt p x i k hflush hparts hyes hfault
    refine tuNext_of_onTu rfl ?_
    obtain ⟨hdone, hkept⟩ := Tu.flushStep_of_last (t := (s.tu p).tick dt) hflush hparts hyes
    have hgo : (((s.tu p).tick dt).flushStep.faultReset && ((s.tu p).tick dt).flushStep.part.evr.flush.isNone) = true := by
      rw [hdone, hkept, show ((s.tu p).tick dt).faultReset = true from hfault]
      rfl
    dsimp only
    rw [if_pos hgo]
    exact ⟨rfl, rfl, rfl⟩
  case die =>
    intro s dt p k
    refine tuNext_of_onTu rfl ?_
    simp only [Tu.dieReset]
    generalize hv : (((s.tu p).tick dt).bump 0x2E00 3 1).abandonSlots = v
    have hslot : v.slot k = none := hv ▸ Tu.slot_abandonSlots _ k
    have hempty : v.emptied = (((s.tu p).tick dt).bump 0x2E00 3 1).emptied := hv ▸ Tu.emptied_abandonSlots _
    generalize hlaunches : ((v.binds.map (·.launch) ++ v.units.flatMap fun u => u.2.launches).eraseDups) = launches
    have hbinds : (launches.foldl Tu.launchEnd v).binds = [] := by
      refine List.eq_nil_iff_forall_not_mem.mpr fun b hb => ?_
      obtain ⟨hold, hnot⟩ := Tu.binds_launchEnds launches v b hb
      refine hnot ?_
      rw [← hlaunches, List.mem_eraseDups]
      exact List.mem_append_left _ (List.mem_map_of_mem hold)
    have hframe : (launches.foldl Tu.launchEnd v).unlaunched = v.unlaunched :=
      foldl_keeps Tu.unlaunched _ (fun u n => (Tu.launchEnd_spec u n).2) launches v
    generalize launches.foldl Tu.launchEnd v = w at hbinds hframe ⊢
    have hdown := foldl_keeps (fun u : Tu => (u.untraced, u.rd 0x2E00 3))
      (fun u i => if (u.enc i).down.isSome then u else u.traceDown i 0 true)
      (fun u i => by
        split
        · rfl
        · exact Prod.ext (Tu.untraced_traceDown u i 0 true) (Tu.resets_traceDown u i 0 true)) (List.range 73) w
    generalize (List.range 73).foldl (fun (u : Tu) i => if (u.enc i).down.isSome then u else u.traceDown i 0 true) w = u at hdown ⊢
    have hcount : v.rd 0x2E00 3 = raised 0x2E00 3 ((s.tu p).rd 0x2E00 3) 1 :=
      (Tu.rd_of_bareBut (ks := [objKey 0x2600 8]) hempty (by decide)).trans (Part.rd_wr_self _ _ _ _)
    have hlater : w.rd 0x2E00 3 = v.rd 0x2E00 3 :=
      Tu.rd_of_bareBut (ks := []) (t := { w with units := [], binds := [], names := [] })
        (u := { v with units := [], binds := [], names := [] }) hframe (by decide)
    exact ⟨(congrArg Prod.snd hdown :).trans (hlater.trans hcount),
      (congrArg (fun x => x.1.slot k) hdown :).trans ((congrArg (fun x : Tu => x.slot k) hframe :).trans hslot),
      (congrArg (fun x => x.1.binds) hdown :).trans hbinds,
      (congrArg (fun x => x.1.link) hdown :).trans ((congrArg Tu.link hframe :).trans (congrArg Tu.link hempty :)),
      (congrArg (fun x => x.1.lastReset) hdown :).trans ((congrArg Tu.lastReset hframe :).trans (congrArg Tu.lastReset hempty :))⟩

end Sys2Proof.Machine
end

section
/-! SUPPORT. The tray power port of Fyster (R208 to R210, R388, R424). -/

namespace Sys2Proof.Machine

theorem PwrReq.st_refuse {r : PwrReq} (now : Nat) (hout : r.outstanding = true) (hwant : r.wanted = true) (hst : r.st = .pending) :
    (r.refuse now).r.st = .backoff := by
  rw [PwrReq.refuse_of_awaited now hout hwant hst]
  rfl

theorem PwrReq.sends_refuse (r : PwrReq) (now : Nat) : (r.refuse now).sends = [] := by
  simp only [PwrReq.refuse]
  split <;> rfl

/-- A requester that sends nothing is as its step leaves it, also under SELF_GRANT. -/
theorem Fyster.pwrReq_pwr_silent (f : Fyster) (id : Nat) {o : PwrOut} (h : o.sends = []) : (f.pwr id o).part.pwrReq id = o.r := by
  have hbump (g : Fyster) (l : List Nat) : (l.foldl (fun f c => f.bump (0x7800 + id) c 1) g).part.pwr = g.part.pwr :=
    foldl_keeps (fun f : Fyster => f.part.pwr) (fun f c => f.bump (0x7800 + id) c 1) (fun _ _ => rfl) l g
  simp only [Fyster.pwr, h, List.contains_nil, Bool.false_eq_true, if_false, List.foldl_nil, ite_self, Part.pwrReq, hbump]
  exact tget_tset_self _ _ _ _

theorem Fyster.pwrReq_recovDone (f : Fyster) (row id : Nat) : (f.recovDone row).part.pwrReq id = f.part.pwrReq id :=
  (congrArg (·.part.pwrReq id) (Fyster.bareRecov_recovDone f row) :)

theorem Fyster.pwrReq_recovStart (f : Fyster) (row id : Nat) : (f.recovStart row).part.pwrReq id = f.part.pwrReq id :=
  (congrArg (·.part.pwrReq id) (Fyster.bareRecov_recovStart f row) :)

theorem Fyster.pwrReq_unpowered (f : Fyster) (id j : Nat) : (f.unpowered id).part.pwrReq j = f.part.pwrReq j := by
  simp only [Fyster.unpowered]
  split
  · rfl
  · split <;> rfl

section
variable {f : Fyster} {m : Word} {id q : Nat}

/-! ### Answers of the controller (R388, R424) -/

theorem Fyster.powerMsg_of_none (h : powerAnswer m = none) : f.powerMsg m = f.bump 0x7880 0xF0 1 := by
  simp only [Fyster.powerMsg, h]

theorem Fyster.powerMsg_of_grant (hans : powerAnswer m = some (id, 8, q)) (hseq : (f.part.pwrReq id).seq = q)
    (hout : (f.part.pwrReq id).outstanding = true) (hpfail : f.boot.pfail = false) :
    f.powerMsg m = ((f.pwr id ((f.part.pwrReq id).grant f.part.time.now)).recovDone 10).powered id := by
  have htake : ¬((f.part.pwrReq id).seq ≠ q ∨ ((8 : Nat) ≠ 10 ∧ (f.part.pwrReq id).outstanding = false)) :=
    not_or.mpr ⟨fun h => h hseq, fun h => by rw [hout] at h; exact Bool.false_ne_true h.2.symm⟩
  simp only [Fyster.powerMsg, hans, if_neg htake, hpfail, Bool.false_eq_true, if_false]

theorem Fyster.powerMsg_of_refuse (hans : powerAnswer m = some (id, 9, q)) (hseq : (f.part.pwrReq id).seq = q)
    (hout : (f.part.pwrReq id).outstanding = true) :
    f.powerMsg m = (f.pwr id ((f.part.pwrReq id).refuse f.part.time.now)).recovDone 10 := by
  have htake : ¬((f.part.pwrReq id).seq ≠ q ∨ ((9 : Nat) ≠ 10 ∧ (f.part.pwrReq id).outstanding = false)) :=
    not_or.mpr ⟨fun h => h hseq, fun h => by rw [hout] at h; exact Bool.false_ne_true h.2.symm⟩
  simp only [Fyster.powerMsg, hans, if_neg htake]

theorem Fyster.powerMsg_of_revoke (hans : powerAnswer m = some (id, 10, q)) (hseq : (f.part.pwrReq id).seq = q)
    (hst : (f.part.pwrReq id).st = .granted) :
    f.powerMsg m = (f.pwr id ((f.part.pwrReq id).revoke f.part.time.now)).unpowered id := by
  have htake : ¬((f.part.pwrReq id).seq ≠ q ∨ ((10 : Nat) ≠ 10 ∧ (f.part.pwrReq id).outstanding = false)) :=
    not_or.mpr ⟨fun h => h hseq, fun h => h.1 rfl⟩
  simp only [Fyster.powerMsg, hans, if_neg htake, if_pos hst]

end

/-- Settles O54: answers and timers of the tray power port. -/
theorem trayPower : Obligations.TrayPower := by
  unfold Obligations.TrayPower
  refine ⟨?grant, ?refuse, ?revoke, ?discarded, ?timeout, ?retry, ?release⟩
  case grant =>
    intro s dt m id q hans hseq hout hpfail f₀
    exact fyNext_of_onFy rfl (Fyster.powerMsg_of_grant (f := f₀) hans hseq hout hpfail)
  case refuse =>
    intro s dt m id q hans hseq hout f₀
    refine fyNext_of_onFy rfl ?_
    rw [Fyster.powerMsg_of_refuse (f := f₀) hans hseq hout]
    refine ⟨rfl, fun hwant hst => ?_⟩
    rw [Fyster.pwrReq_recovDone, Fyster.pwrReq_pwr_silent _ _ (PwrReq.sends_refuse _ _)]
    exact PwrReq.st_refuse _ hout hwant hst
  case revoke =>
    intro s dt m id q hans hseq hst f₀
    refine fyNext_of_onFy rfl ?_
    rw [Fyster.powerMsg_of_revoke (f := f₀) hans hseq hst]
    refine ⟨rfl, ?_⟩
    rw [Fyster.pwrReq_unpowered, PwrReq.revoke_of_granted (r := f₀.part.pwrReq id) _ hst, Fyster.pwrReq_pwr_silent _ _ rfl]
    rfl
  case discarded =>
    intro s dt m hans
    exact fyNext_of_onFy rfl (Fyster.powerMsg_of_none hans)
  case timeout =>
    intro s dt k hst hout hlate f₀
    refine fyNext_of_onFy rfl ?_
    have hstep : (f₀.part.pwrReq k.val).timeout (f₀.rd 0x7880 4) f₀.part.time.now =
        { r := (s.fy.part.pwrReq k.val).backoff f₀.part.time.now, sends := [], counts := [6] } :=
      PwrReq.timeout_of_late hst hout hlate
    simp only [f₀] at hstep ⊢
    rw [hstep]
    refine ⟨rfl, ?_⟩
    rw [if_neg (show ¬([6] : List Nat).isEmpty = true by decide), Fyster.pwrReq_recovStart, Fyster.pwrReq_pwr_silent _ _ rfl]
    rfl
  case retry =>
    intro s dt k hst hwant hdue f₀
    refine fyNext_of_onFy rfl ?_
    have hstep : (f₀.part.pwrReq k.val).retry f₀.part.time.now = (s.fy.part.pwrReq k.val).send f₀.part.time.now :=
      PwrReq.retry_of_due hst hwant hdue
    rw [hstep]
  case release =>
    intro s dt k t hrel hdue hself f₀
    have hrel' : (f₀.part.pwrReq k.val).releaseDue = some t := hrel
    refine fyNext_of_onFy rfl ?_
    simp only [f₀] at hrel' ⊢
    simp only [hrel']
    rw [if_pos hdue]
    exact if_neg hself

end Sys2Proof.Machine
end
